-- ==== Sys2Proof/Word.lean ====
section
/-! DEFINITION. The word types of the model and nothing else: a byte, a 32-bit register word, a 64-bit step.
The spec numbers bits from the least significant one (R8) and stores every integer little-endian (R9). -/

namespace Sys2Proof

/-- One byte of a frame, a record, a key or a memory. -/
abbrev Byte := BitVec 8

/-- One 32-bit register or OTP row. -/
abbrev Word := BitVec 32

/-- One sequencer step (R79). -/
abbrev Step64 := BitVec 64

/-- A byte string, first byte first. -/
abbrev Bytes := List Byte

end Sys2Proof
end

