-- ==== Sys2Proof/Syntax.lean ====
section
/-! DEFINITION. The commands the block takes: one constructor for each row of the table of operations and events,
with the row's operands. An operand carries what reaches the step from outside the block: a frame, a reading, a flash
or PKE outcome, the bytes of a page. What the spec makes the block itself decide is no operand. -/

namespace Sys2Proof

/-- A rail whose power-good has come to match its enable (R558), and the self-test results of the tiles that leave reset
with it, by tile (R485). -/
structure RailIn where
  rail : Nat
  hlres : List Nat
deriving DecidableEq, Repr

/-- A function's link that comes up: its negotiated rate by index and its width (Table 9-2). -/
structure LinkIn where
  d : Nat
  gen : Nat
  width : Nat
deriving DecidableEq, Repr

/-- A mailbox command that reaches execution: its channel, tag and seal, and its application data (Tables 10-1, 11-4 to 11-14). -/
structure HostCall where
  ch : Nat
  tag : Nat
  sealed : Bool
  payload : Bytes
deriving DecidableEq, Repr

/-- What the pulses on one row left: cells marginal, cells that read 0 at nominal, pulses taken (R93). -/
structure PulseOut where
  weak : Nat
  fail : Nat
  pulses : Nat
deriving DecidableEq, Repr

/-- How the compute and the checks of a PKE job went (Table 6-1): iterations, sampler or iteration limit, a failed
fault check, a failed wipe, WCLK taken. -/
structure PkEnd where
  iter : Nat
  limit : Bool
  fault : Bool
  wipeBad : Bool
  cycles : Nat
deriving DecidableEq, Repr

/-- What ROM_BOOT meets outside the digital block: flash reads that fail for the slot A, slot B and recovery region
(R160 code 0xA), a failed attempt-log program (R181), and the pulses of the OTP repair (R162 step 1). -/
structure RomIn where
  errA : Bool
  errB : Bool
  errRec : Bool
  attemptErr : Bool
  pulses : List PulseOut
deriving DecidableEq, Repr

/-- What a unit image load meets (R166): a flash error, how many times a DIGEST step was ended on a bus error or an alarm,
the unit whose window write ended in a bus error, and a digest of the written body that differs. -/
structure LoadIn where
  flashErr : Bool
  digestFails : Nat
  windowErr : Option Nat
  digestBad : Bool
deriving DecidableEq, Repr

/-- A WPK page record as the stream reads it: whether its source faulted at translation, ciphertext and tag (R344). -/
structure PageIn where
  srcFault : Bool
  ct : Bytes
  tag : Bytes
deriving DecidableEq, Repr

/-- The end of a job at its tiles: completion status and detail (Table 17-2), flags of Table 17-5, output bytes. -/
structure JobEnd where
  status : Nat
  detail : Nat
  retry : Bool
  ovf : Bool
  written : Nat
deriving DecidableEq, Repr

/-- An inbound record as the engine reads it: metadata entry, ciphertext, tag, and how far the extent reaches (R280). -/
structure RecIn where
  seq : Nat
  rlen : Nat
  kgen : Nat
  ct : Bytes
  tag : Bytes
  reach : Nat
deriving DecidableEq, Repr

/-- Where a digest lane sends a chunk's digest (R276): a job's input or output, the WPK fold, or a program load (R374). -/
inductive LaneDest where
  | jobIn (job : Nat)
  | jobOut (job : Nat)
  | wpk
  | prog
deriving DecidableEq, Repr

/-- A message a tile program sends (R448): its port die, key entry, ENC, header fields and body. -/
structure SendIn where
  u : Nat
  entry : Nat
  enc : Bool
  job : Nat
  chan : Nat
  daddr : Nat
  body : Bytes
deriving DecidableEq, Repr

/-- An SPDM request (R214 to R217): header parameters, body after the 4-byte header, and whether it came inside the
session with its record intact. -/
structure SpdmMsg where
  p1 : Nat
  p2 : Nat
  body : Bytes
  secured : Bool
deriving DecidableEq, Repr

/-- An SPDM request of a code that no row names (R215). -/
structure SpdmCode where
  code : Nat
  m : SpdmMsg
deriving DecidableEq, Repr

/-- The commands of the block: one constructor for each row of the table of operations and events. -/
inductive Instr where
  /-- R41: The standby rail enters its limits with WARDEN_RST_N deasserted, so the package leaves COLD for ROM with a power-on warden reset. -/
  | standbyGood (progWin : Bool)
  /-- R560: Loss of the standby input holds the warden in power-on reset, drops every enable and takes the package to COLD. -/
  | standbyLost
  /-- R555: The standby input exceeds 13.8 V and the standby domain is switched off within 5 us. -/
  | standbyOvervoltage
  /-- R65: WARDEN_RST_N held low for 1 us or longer resets the warden with cause EXT. -/
  | wardenRstNAssert
  /-- R65: After the 64-WCLK hold the core pair is released at the ROM entry point, and SRAM initialisation begins. -/
  | coreResetRelease
  /-- R67: The SRAM initialisation engine finishes zeroing SRAM with valid check bits, and stalled SRAM accesses proceed. -/
  | sramInitDone
  /-- R145: The reset controller finishes zeroing both PKE slot memory banks, and stalled slot accesses proceed. -/
  | pkeBankZeroDone
  /-- R97: The OTP controller reads and checks every group, records the group results, latches the root selector and drives the effective limits. -/
  | otpAutoload
  /-- R162: The ROM arms the watchdog, repairs OTP, measures slot 0, selects and verifies a warden image, measures it, issues ROOTKDF and jumps to it. -/
  | romBoot (x : RomIn)
  /-- R164: Warden firmware writes and locks its step tables, measures slot 6, derives the prism, identity and set keys, and reissues confirmed counter burns. -/
  | wfwInit (x : List PulseOut)
  /-- R41: With the main input in range and no power hold set, the package goes from WARDEN to BRINGUP, sets the default mode, opens the roster and raises the port rail. -/
  | bringupStart
  /-- R558: A rail's power-good comes to match its enable, which completes the waiting RAIL step. -/
  | railPowerGood (x : RailIn)
  /-- R166: A unit image is verified, written chunk by chunk through the fabric window, digested, and started with GO on a match. -/
  | unitImageLoad (kind : Nat) (x : LoadIn)
  /-- R225: A unit posts its READY frame after GO, and its USTATE becomes UP. -/
  | unitReady (u gen version : Nat)
  /-- R167: A unit stays silent past t_rdy after GO, and BRINGUP enters QUARANTINE with QCAUSE 0x04 or 0x0B. -/
  | unitReadyTimeout (u : Nat)
  /-- R397: MEMCTL_UC completes training of a stack and sets TD_MC_STAT.TRAINED. -/
  | stackTrainingDone (t : Nat)
  /-- R397: A stack fails to train within t_train, and the package enters QUARANTINE with QCAUSE 0x05. -/
  | stackTrainingTimeout (t : Nat)
  /-- R556: The main input crosses its rising threshold and MAIN_OK rises, which permits WARDEN to BRINGUP. -/
  | mainInputGood
  /-- R559: MAIN_OK falls and MAINLOW is raised, so firmware stops the tile clocks, destroys tenant keys, drops the rails and records WARDEN. -/
  | mainInputLost
  /-- R555: The main input exceeds 63.0 V, the regulators shut down and MAIN_OK falls. -/
  | mainOvervoltage
  /-- R562: REFCLK_PCIE stops, and every endpoint's Data Link Layer goes down, which is handled as PERST_N. -/
  | refclkPcieLoss
  /-- R562: REFCLK_LINK stops, so every Linya port goes DOWN and every memory controller reports a tag failure. -/
  | refclkLinkLoss
  /-- R47: The quarantine clear completes, the tile and memory rails are dropped and the port buffers are cleared again. -/
  | quarantineClearDone
  /-- R62: The lockstep checker finds diverging core outputs and asserts warden reset with cause LOCKSTEP. -/
  | lockstepMismatch
  /-- R64: A double-bit warden SRAM error ends the access in a bus error, and firmware requests a self reset with software code 0x01. -/
  | sramUncorrectableError (addr : Nat)
  /-- R65: A write of key 0x5AC3 to WD_SWRST requests a software warden reset with the given software code. -/
  | wdSwrstWrite (value : Word)
  /-- R74: A write to WD_WDT_KICK reloads the watchdog if it carries the kick value and increments BADKICK otherwise. -/
  | watchdogKick (value : Word)
  /-- R74: The watchdog count reaches LOAD/8 and interrupt source 1 is raised if S1_IRQ is set. -/
  | watchdogStage1
  /-- R74: The watchdog count reaches zero and resets the warden with cause WDT. -/
  | watchdogStage2
  /-- R63: WD_TIME reaches the compare value and raises interrupt source 9. -/
  | timerCompare
  /-- R210: Every 1 ms while warden firmware runs, HB_TICK is incremented. -/
  | hbTickIncrement
  /-- R11: A write to a register without behaviour of its own updates its writable fields under the access codes. -/
  | registerWrite (addr : Nat) (value : Word)
  /-- R70: A core access to a unit's fabric window ends in a bus error, or crosses to the unit and completes with its answer. -/
  | fabricWindowAccess (u off : Nat) (write : Bool) (value : Word) (answered : Bool)
  /-- R70: No answer arrives within WD_FWTO, so the access ends in a bus error and the late answer is discarded. -/
  | fabricWindowTimeout
  /-- R71: Firmware writes a command frame and its doorbell to a unit's internal mailbox. -/
  | imbCommandDoorbell (u : Nat) (frame : Bytes)
  /-- R71: The last beat of a unit response arrives and sets RSP_VALID, and the response is discarded if its GEN is stale. -/
  | imbResponse (u gen : Nat) (frame : Bytes)
  /-- R71: Firmware clears WD_IMB_STAT.RSP_VALID, so the unit's response port accepts the next response. -/
  | imbRspClear (u : Nat)
  /-- R224: A unit posts an unsolicited EVENT frame with tag 0. -/
  | unitEvent (u gen : Nat) (payload : Bytes)
  /-- R73: A unit pulses its heartbeat line, which resets HBAGE and counts in HBCNT. -/
  | unitHeartbeat (u : Nat)
  /-- R73: HBAGE exceeds HBLIM, the heartbeat interrupt is raised and firmware takes a unit crash. -/
  | heartbeatLimit (u : Nat)
  /-- R76: A write of START to SQ_CTRL while idle clears VFAIL and KPERR, sets BUSY and begins the table at SQ_ENTRY, or sets OVR if busy. -/
  | sqStart
  /-- R76: A write of ABORT ends the running table after the current step and sets ABORTED. -/
  | sqAbort
  /-- R80: The NOP step does nothing. -/
  | sqNop
  /-- R76: The END step ends the table, sets DONE, clears BUSY and raises interrupt source 2. -/
  | sqEnd
  /-- R80: The SKIP step jumps N steps forward when the named flag has the tested value, or ends the table with ECODE 2 beyond index 4,095. -/
  | sqSkip
  /-- R80: The DELAY step starts a wait of the given number of WCLK. -/
  | sqDelay
  /-- R80: The DELAY count elapses and the table continues. -/
  | sqDelayExpiry
  /-- R80: The SETARG step loads an SQ_ARG register. -/
  | sqSetarg
  /-- R80: The SETFLAG step sets or clears a software flag. -/
  | sqSetflag
  /-- R80: The IRQ step writes SQ_IRQCODE, raises source 2 and continues. -/
  | sqIrq
  /-- R80: The JOIN step waits until no unit operation is outstanding. -/
  | sqJoin
  /-- R80: The CLEAR step starts a unit's clear engine over a region with zeros or a DRBG pattern. -/
  | sqClear
  /-- R327: The VERIFY step draws the seed at the first VERIFY and starts the sampled zero read-back of a region. -/
  | sqVerify
  /-- R80: A unit's clear or verify completes, possibly setting VFAIL, and waiting steps or JOINs proceed. -/
  | unitOpComplete (u nonzero : Nat) (fault : Bool)
  /-- R124: The KPUSH step sends a key slot over the sideband bus to a key port, which installs it on a KCV match or refuses it, setting KPERR. -/
  | sqKpush (corrupt : Bool)
  /-- R80: The KPZERO step overwrites a key port's key. -/
  | sqKpzero
  /-- R125: The KSZERO step issues ZERO or ZERO_ALL on the key store. -/
  | sqKszero
  /-- R81: The DIGEST step feeds whole blocks from SQ_ARG0 into the digest engine. -/
  | sqDigest (busErr : Bool)
  /-- R80: The RESET step holds or releases a unit, or a port controller alone, in reset, with release advancing GEN. -/
  | sqReset (hlres : Nat)
  /-- R80: The CLOCK step stops or starts a tile's TCLK. -/
  | sqClock
  /-- R80: The RAIL step drives a module rail enable and waits for power-good to match. -/
  | sqRail
  /-- R82: An illegal opcode or field ends the table with ECODE 1. -/
  | sqIllegalStep
  /-- R83: A blocking step or JOIN runs longer than SQ_TMO, and the table ends with ECODE 3. -/
  | sqStepTimeout
  /-- R78: A write to WD_CLKSTOP sends a clock-stop request to each selected tile. -/
  | wdClkstopWrite (tiles : Nat)
  /-- R484: A requested clock stop is not confirmed within 50 us, so CLKFAIL is set, the tile rail is dropped and QCAUSE 0x0C follows. -/
  | clkstopConfirmTimeout
  /-- R90: OT_CMD READ senses a row at the chosen margin, returning zero for secret ROOT rows. -/
  | otRead
  /-- R95: OT_CMD PROG burns the selected cells of an unlocked row in BLANK under the pulse and retry rule. -/
  | otProg
  /-- R95: OT_CMD GEN burns a DRBG word into all three copies of a ROOT word in BLANK. -/
  | otGen
  /-- R96: OT_CMD INCR_TO burns counter cells up to a target in order, copy A before copy B. -/
  | otIncrTo (sel value : Nat)
  /-- R96: OT_CMD REVOKE burns the four cells of a vendor key slot. -/
  | otRevoke (sel : Nat)
  /-- R101: OT_CMD LC_ADVANCE burns a permitted life-cycle marker, and for SCRAP the ROOT rows, and disables the root selector. -/
  | otLcAdvance (sel : Nat)
  /-- R98: OT_CMD REPAIR re-pulses cells whose value is decided but marginal. -/
  | otRepair
  /-- R104: An illegal OT_CMD, or a command written while BUSY, ends with its ECODE. -/
  | otIllegalCmd (cmd : Nat)
  /-- R93: A programming command finishes its pulses and ends with DONE, WEAK or ERR, raising interrupt source 11. -/
  | otCmdComplete (x : List PulseOut)
  /-- R116: A START to DG_CMD opens a message and absorbs the HMAC key block in HMAC modes. -/
  | dgStart
  /-- R116: A write to DG_DATA adds a word, and the last word of a block starts its absorption. -/
  | dgDataWrite (value : Word)
  /-- R116: The engine finishes absorbing a block and BUSY falls. -/
  | dgBlockAbsorbed
  /-- R116: A FINISH at a block boundary closes the message and produces the result, running the outer pass for HMAC. -/
  | dgFinish
  /-- R119: The HMAC outer pass completes, and the result is written to the result registers or committed to a key slot. -/
  | dgOuterPassDone
  /-- R128: CLEAR ends any open message without error. -/
  | dgClear
  /-- R113: ROOTKDF derives K0 from the selected root into slot 0, or ends with ECODE 9. -/
  | dgRootkdf
  /-- R120: KS_CMD GEN fills an empty slot from the CTR_DRBG and commits it. -/
  | ksGen (slot : Nat)
  /-- R121: KS_CMD UNWRAP runs AES key unwrap of KS_WBUF under a KEK slot into an empty slot. -/
  | ksUnwrap (slot kek : Nat)
  /-- R125: KS_CMD ZERO destroys a slot by three passes and a verify, marking it DEAD on failure. -/
  | ksZero (slot : Nat) (bad : Bool)
  /-- R125: KS_CMD ZERO_ALL destroys every slot in turn. -/
  | ksZeroAll (bad : List Nat)
  /-- R123: KS_CMD SETUSE narrows the use mask of an unlocked slot. -/
  | ksSetuse (slot : Nat)
  /-- R123: KS_CMD LOCK sets a slot's LOCK bit. -/
  | ksLock (slot : Nat)
  /-- R122: KS_CMD LOAD commits KS_WBUF bytes into an empty slot with origin CORE. -/
  | ksLoad (slot : Nat)
  /-- R129: KS_CMD RECHECK runs one immediate KCV recheck pass. -/
  | ksRecheck
  /-- R127: Every KS_KCVPER the check unit recomputes every committed slot's KCV and raises KCVERR on a mismatch. -/
  | kcvRecheckPass (upset : Option (Nat × Nat))
  /-- R138: A START to PK_CMD runs a PKE job through its check, draw, copy, snapshot, compute, check, commit and wipe phases. -/
  | pkStart (streamErr : Option Nat)
  /-- R138: A PKE job completes its wipe, sets DONE or ERR and raises source 5, and firmware starts the next queued entry. -/
  | pkeJobComplete (x : PkEnd)
  /-- R158: MS_CMD EXTEND hashes MS_IN into a measurement slot unless the slot is locked. -/
  | msExtend (slot : Nat)
  /-- R158: MS_CMD LOCK makes a measurement slot refuse later extends. -/
  | msLock (slot : Nat)
  /-- R158: MS_CMD TZERO zeroes slots 16 to 31 and advances MS_TGEN unless tenant keys are present. -/
  | msTzero
  /-- R169: After a crash a unit's image is reloaded from the boot slot, its e is checked, and slot 9 is extended. -/
  | unitRestartReload (u : Nat) (x : LoadIn)
  /-- R189: After the soak period in TRIAL or FALLBACK, firmware runs the health checks and commits a confirming or reverting selector. -/
  | trialHealthCheck (ok : Bool)
  /-- R204: PERST_N of an endpoint ends its session, apertures, streams and feature mask, and on the primary function may start a switch. -/
  | perstNAssert (d : Nat)
  /-- R218: PERST_N deasserts with the port rail up, and link training begins toward L0. -/
  | perstNDeassert (d : Nat)
  /-- R204: An FLR acts as a PERST_N assertion on its function. -/
  | functionLevelReset (d : Nat)
  /-- R204: The Data Link Layer goes down without PERST_N and is handled as PERST_N. -/
  | dataLinkLayerDown (d : Nat)
  /-- R218: An endpoint reaches L0 after its census and link training. -/
  | linkUp (x : LinkIn)
  /-- R204: A function enters D3hot, BAR decode is turned off and MSI-X messages are held pending. -/
  | d3hotEntry (d : Nat)
  /-- R204: A function returns to D0 and its pending vectors are sent. -/
  | d0Entry (d : Nat)
  /-- R211: Unmasking an MSI-X vector with its PBA bit set sends the pending message. -/
  | msixUnmask (d vector : Nat)
  /-- R202: A host write to a command buffer is taken while CMD_FREE is 1 and dropped otherwise. -/
  | mbxBufferWrite (ch off : Nat) (data : Bytes)
  /-- R226: A doorbell write with a valid length sets BUSY, latches the length and raises warden source 4. -/
  | mbxDoorbell (ch len : Nat)
  /-- R226: The driver writes 1 to RSP_VALID and the channel returns to CMD_FREE. -/
  | mbxRspAck (ch : Nat)
  /-- R240: WD_HMB_CMD TAKE makes the mover copy the command buffer into SRAM. -/
  | hmbTake (ch : Nat)
  /-- R240: A mover transfer completes with MVDONE or MVERR, and firmware runs the frame checks on the moved frame. -/
  | hmbMoveDone (ch : Nat)
  /-- R231: A duplicate job submission waiting on another channel receives the first submission's response once that response is posted. -/
  | jobDuplicateRelease (ch : Nat)
  /-- R240: WD_HMB_CMD POST copies the response to the response buffer, sets RSP_VALID and clears BUSY. -/
  | hmbPost (ch : Nat)
  /-- R240: WD_HMB_CMD CLRRSP clears a channel's RSP_VALID. -/
  | hmbClrrsp (ch : Nat)
  /-- R206: The command returns the offered feature mask. -/
  | featureOffer (c : HostCall)
  /-- R207: The command replaces the accepted mask in IDLE if every bit is offered, and extends slot 8. -/
  | featureAccept (c : HostCall)
  /-- R45: In IDLE the command changes the mode, destroying aperture keys, invalidating tags and updating the state word. -/
  | modeSet (c : HostCall)
  /-- R237: The command advances a target channel's generation, emptying its window and result store. -/
  | channelReset (c : HostCall)
  /-- R233: The command returns a range of bytes of a result object. -/
  | resultRead (c : HostCall)
  /-- R232: The command releases a result object. -/
  | resultRelease (c : HostCall)
  /-- R250: The command writes data into the stage and claims ownership of an empty stage. -/
  | stagePut (c : HostCall)
  /-- R250: The command empties the stage and releases its owner. -/
  | stageClear (c : HostCall)
  /-- R306: The command captures claims, issues a serial, encodes the report and queues its signatures unless it is unsigned. -/
  | attReport (c : HostCall)
  /-- R259: The command returns the ECDSA or ML-DSA certificate chain. -/
  | attCerts (c : HostCall)
  /-- R304: The command returns measurement log entries of a slot. -/
  | attMeasLog (c : HostCall)
  /-- R259: The command generates the boot's ephemeral release key pairs at first execution and returns their public keys. -/
  | attEphemeral (c : HostCall)
  /-- R320: The command verifies an enrollment statement and writes an ENROLLED record. -/
  | tenantEnroll (c : HostCall)
  /-- R322: The command moves an ENROLLED or EVICTED record to STAGED if its policy admits the package. -/
  | tenantStage (c : HostCall)
  /-- R323: The command checks the load conditions and takes IDLE to LOADING with the next epoch. -/
  | tenantLoad (c : HostCall)
  /-- R323: Units acknowledge TILE_ENTER or PORT_ENTER, and the warden derives and pushes the epoch keys and sets the record RESIDENT. -/
  | loadingUnitAck (u : Nat)
  /-- R323: A unit fails to acknowledge within t_ent or t_rst, and the load fails into SWITCHING with cause LOAD_FAILED. -/
  | loadingAckTimeout
  /-- R323: Every tile reports a self-test pass and the package enters ACTIVE. -/
  | loadingSelftestPass
  /-- R260: The command takes ACTIVE to SWITCHING for the resident tenant. -/
  | tenantEvict (c : HostCall)
  /-- R321: The command verifies a revocation statement, writes the record REVOKED and switches if the tenant is resident. -/
  | tenantRevoke (c : HostCall)
  /-- R260: The command returns a record's state, epoch and switch count. -/
  | tenantStatus (c : HostCall)
  /-- R260: The command lists roster records. -/
  | tenantList (c : HostCall)
  /-- R329: The command returns a signed clear receipt from SRAM or from the ring. -/
  | tenantClearReceipt (c : HostCall)
  /-- R325: Jobs and streams drain, and the switch quiesces apertures and closes and queues the receipt batch. -/
  | switchHaltDone
  /-- R325: t_halt elapses with units not drained, and the switch proceeds. -/
  | switchHaltTimeout
  /-- R317: A background roster, receipt ring, link record or log sector write commits, and the next queued write starts. -/
  | flashWriteDone (ok : Bool)
  /-- R341: The command checks the header and capacity and creates a handle, spilling or returning ST_CAPACITY when short. -/
  | wpkOpen (c : HostCall)
  /-- R342: The command checks the handle and serial and queues the unwrap entry that installs the content key. -/
  | keyRelease (c : HostCall)
  /-- R343: The command checks the release bundle and manifest membership and unwraps the content key under the set pair. -/
  | keyReleaseSet (c : HostCall)
  /-- R344: The command decrypts pages in index order through P0 into place and folds their digests. -/
  | wpkLoad (c : HostCall)
  /-- R344: A page digest arrives from a lane and is folded into the subtree stack, advancing LOADED. -/
  | wpkPageFold (x : PageIn)
  /-- R345: The command merges the remaining roots, compares them with ROOT and sets RUNNABLE or FAILED. -/
  | wpkFinish (c : HostCall)
  /-- R261: The command returns a handle's state. -/
  | wpkStatus (c : HostCall)
  /-- R347: The command ends a handle and frees its reservation unless it is RUNNABLE. -/
  | wpkClose (c : HostCall)
  /-- R374: The command fetches a program, multicasts it to the tiles, checks its digest and adds it to the program table. -/
  | progLoad (c : HostCall)
  /-- R375: The command checks a job, resolves its extents and queues it or parks it. -/
  | jobSubmit (c : HostCall)
  /-- R379: The command cancels a QUEUED or PARKED job. -/
  | jobCancel (c : HostCall)
  /-- R262: The command reports a job's state. -/
  | jobStatus (c : HostCall)
  /-- R262: The command closes the open receipt batch. -/
  | rcptFlush (c : HostCall)
  /-- R436: The command creates an address-space tag with its home die and ring. -/
  | astCreate (c : HostCall)
  /-- R436: The command invalidates a tag, cancels its jobs, removes its apertures and posts after the drain. -/
  | astDestroy (c : HostCall)
  /-- R427: The command accepts an invalidation of a tag range and posts at its completion. -/
  | astInvalidate (c : HostCall)
  /-- R432: The command migrates mapped host pages of a range in. -/
  | prefetch (c : HostCall)
  /-- R432: The command applies RELEASE, ALLOC, MIGRATE_ON_FAULT or CLEAR advice to a range. -/
  | advise (c : HostCall)
  /-- R425: The command re-translates the jobs parked by a fault batch. -/
  | faultResume (c : HostCall)
  /-- R419: The command sets or removes a tag's mirror range in OPEN mode. -/
  | mirrorSet (c : HostCall)
  /-- R277: The command sets up or removes an aperture, deriving and pushing its key. -/
  | regionSet (c : HostCall)
  /-- R264: The command returns the port states of a port die. -/
  | linkStatus (c : HostCall)
  /-- R458: The command runs one step of the link key exchange and installs or holds a job key. -/
  | linkKeyx (c : HostCall)
  /-- R459: The command clears a job's link key entries. -/
  | linkJobEnd (c : HostCall)
  /-- R455: The command sets a port's equalisation and map-out bounds. -/
  | linkBounds (c : HostCall)
  /-- R463: The command checks a maintenance token, returns a mapped-out port to service and retrains it. -/
  | linkClear (c : HostCall)
  /-- R265: The command returns power, cap, temperature and limits. -/
  | pwrStatus (c : HostCall)
  /-- R473: The command sets the host power cap. -/
  | pwrCapSet (c : HostCall)
  /-- R470: The command lowers hard limits field by field. -/
  | limitTighten (c : HostCall)
  /-- R265: The command returns a unit's state and view conflict flag. -/
  | unitStatus (c : HostCall)
  /-- R265: The command returns a stack's telemetry. -/
  | memTelem (c : HostCall)
  /-- R492: The command returns a performance counter set. -/
  | perfRead (c : HostCall)
  /-- R265: In IDLE the command takes the package to WARDEN. -/
  | powerDown (c : HostCall)
  /-- R265: The command sets telemetry thresholds. -/
  | telemThresh (c : HostCall)
  /-- R490: The command turns completion quantisation on or off. -/
  | irqQuant (c : HostCall)
  /-- R183: The command returns the update status. -/
  | updStatus (c : HostCall)
  /-- R184: The command writes the update record and erases the target. -/
  | updBegin (c : HostCall)
  /-- R184: The command programs a bundle chunk and reads it back. -/
  | updData (c : HostCall)
  /-- R184: The command completes the download and sets STAGED. -/
  | updEnd (c : HostCall)
  /-- R185: The command verifies every image of the bundle and sets VERIFIED or STAGED. -/
  | updVerify (c : HostCall)
  /-- R187: The command commits a TRIAL selector for the target and requests a warden reset unless DEFER is set. -/
  | updActivate (c : HostCall)
  /-- R192: The command erases the update record or reverts a pending selector. -/
  | updCancel (c : HostCall)
  /-- R505: The command returns log entries of the package or tenant ring. -/
  | logRead (c : HostCall)
  /-- R505: The command sets the log threshold. -/
  | logConfig (c : HostCall)
  /-- R509: The command sets the trace point mask. -/
  | traceConfig (c : HostCall)
  /-- R509: The command returns trace records. -/
  | traceRead (c : HostCall)
  /-- R359: The command returns a signed receipt batch object. -/
  | rcptBatch (c : HostCall)
  /-- R253: The command draws a new service nonce. -/
  | svcNonce (c : HostCall)
  /-- R102: The command checks a service token, destroys every key slot, burns the transition and requests a reset. -/
  | lcAdvance (c : HostCall)
  /-- R157: The command checks a service token and revokes a vendor key slot. -/
  | vkeyRevoke (c : HostCall)
  /-- R267: The command enters QUARANTINE with QCAUSE 0x0D. -/
  | svcQuarantine (c : HostCall)
  /-- R267: The command posts its response and then requests a warden reset with SWCODE 0x05. -/
  | wardenReset (c : HostCall)
  /-- R526: The command restarts the orphan timer, arming it at the first keepalive. -/
  | mgKeepalive (body : Bytes)
  /-- R522: The command sets the management power cap. -/
  | mgCapSet (body : Bytes)
  /-- R522: The command writes the power hold. -/
  | mgHold (body : Bytes)
  /-- R522: The command sets the Linya device address and recomputes the routes. -/
  | mgDaddrSet (body : Bytes)
  /-- R522: The command sets the rack authority key, with a token under the current key after the first. -/
  | mgRakSet (body : Bytes)
  /-- R297: The command returns a PKCS#10 certification request. -/
  | mgCsr (body : Bytes)
  /-- R297: The command checks and writes a certificate chain record. -/
  | mgCertWrite (body : Bytes)
  /-- R339: The command returns the signed set key statement. -/
  | mgSetkey (body : Bytes)
  /-- R523: The command sets a bit of HB_MREQ and raises MREQ on vector 0. -/
  | mgRequest (body : Bytes)
  /-- R103: In BLANK the ROM drives one provisioning OTP operation. -/
  | mgProvision (body : Bytes)
  /-- R323: The internal command makes a tile take the epoch and empty its queues and program store. -/
  | tileEnter (t : Nat)
  /-- R374: The internal command makes a tile install a stored program. -/
  | progInstall (t phandle : Nat)
  /-- R377: The internal command queues a job on a tile in order-number order. -/
  | jobEnqueue (t job : Nat)
  /-- R379: The internal command ends, cancels or withdraws a job at a tile. -/
  | jobAbort (t job reason : Nat)
  /-- R323: The internal command runs the tile's known-answer self-test. -/
  | selftest (t : Nat) (pass : Bool)
  /-- R383: The internal command returns the tile's view and counters. -/
  | tileStatus (t : Nat)
  /-- R381: The internal command makes a supervisor copy a program to a restarted tile. -/
  | progCopy (src target phandle : Nat) (good : Bool)
  /-- R323: The internal command gives a port die the epoch and resets its streams and record-state table. -/
  | portEnter (u : Nat)
  /-- R455: The internal command sets the bounds of a port. -/
  | linkCfg (u port : Nat) (bounds : Bytes)
  /-- R454: The internal command starts training of the given ports. -/
  | linkTrain (u mask : Nat)
  /-- R464: The internal command returns the port state words. -/
  | linkQuery (u : Nat)
  /-- R377: A job that heads every assigned tile's queue becomes RUNNING. -/
  | jobStart (job : Nat)
  /-- R369: A step's residue or dual-lane check fails, and the step is re-executed or the job ends with ST_INTEGRITY. -/
  | residueCheckFail (t job step : Nat)
  /-- R371: Failures exceed LIMIT within WINDOW, so the gate closes and a partial reset starts. -/
  | residueAlarm (t : Nat)
  /-- R372: A double-bit SRAM error poisons a line, is counted and posts an EVENT. -/
  | eccUncorrectable (t region line : Nat) (job handle : Option Nat)
  /-- R378: A job reaches a final state and its completion record is written to the tag's ring, with its vector sent. -/
  | jobFinal (job : Nat) (x : JobEnd)
  /-- R438: A re-read of CTAIL frees room, and held completion records are written. -/
  | completionRingRoom (tag ctail : Nat)
  /-- R490: At a quantisation grid point, held completion records are written and their vectors sent. -/
  | completionQuantGrid
  /-- R394: A line fails its tag or on-die ECC, is returned as poison and raises the controller alarm, leading to QCAUSE 0x08. -/
  | tagFailure (t addr : Nat) (onDie : Bool)
  /-- R393: A tile reads or writes a stack line through XTS and tag checking, initialising a block at its first write. -/
  | stackLineAccess (t line : Nat) (write : Option Bytes)
  /-- R480: A stack reading crosses 95, 105 or 100 degrees C, and the controller halves, stalls or resumes requests. -/
  | stackTempThreshold (t temp : Nat)
  /-- R405: A tile reads a SPILL page, served from a frame or fetched through aperture 63 with read-ahead. -/
  | spillPageRead (page job : Nat)
  /-- R405: A fetched spill page's last record passes, and the waiting requests are served. -/
  | spillFetchDone (page : Nat) (ok : Bool)
  /-- R275: A DMA stream begins a descriptor and moves its extents in order, dropping plaintext extents in CONFIDENTIAL. -/
  | dmaDescriptorStart (d stream job : Nat)
  /-- R280: The engine reads, checks, decrypts and consumes an inbound aperture record. -/
  | inboundRecord (d a i : Nat) (x : RecIn)
  /-- R281: The engine encrypts and writes an outbound record, then its metadata. -/
  | outboundRecord (d a i : Nat) (data : Bytes)
  /-- R284: Host reads still unanswered after 40 us are abandoned, and the aperture key is zeroed. -/
  | apertureQuiesceTimeout (d a : Nat)
  /-- R278: A host write to a P0 aperture descriptor in OPEN mode, with VALID set, has the warden derive and push the key. -/
  | apDescriptorWrite (a off : Nat) (value : Word)
  /-- R276: A digest lane completes a chunk and sends its digest to the receipt state or the WPK fold. -/
  | digestLaneResult (dest : LaneDest) (chunk : Nat) (data : Bytes)
  /-- R356: K_RCPT_MS elapses since a batch's first record, and the batch closes. -/
  | rcptBatchTimeout
  /-- R426: A host write to an invalidation lane is accepted, or dropped when the lane is full. -/
  | invLaneDoorbell (lane : Nat) (value : Nat)
  /-- R428: Overlapping walks, jobs and in-flight pages drain, the invalidation completes and DYING pages leave the map. -/
  | invalidationComplete (id : Nat)
  /-- R421: A TXU table read returns and the walk continues or finishes. -/
  | tableReadDone (walk : Nat) (entries : List Nat)
  /-- R421: A table read is unanswered after 100 us and counts as a table read error. -/
  | tableReadTimeout (walk : Nat)
  /-- R422: The 30 us translation budget runs out, and the job is parked WALK while the walk continues. -/
  | walkBudgetExpiry (walk : Nat)
  /-- R424: K_FAULT_WINDOW_US elapses since a batch's first entry, and the batch closes. -/
  | faultBatchWindow
  /-- R424: The driver advances HB_FR_TAIL, and waiting fault batches are written whole. -/
  | faultRingTailWrite (value : Word)
  /-- R431: A migrated page lands in external memory and jobs parked on it are walked again. -/
  | migrationPageLanded (tag page : Nat)
  /-- R433: A held page's migration is abandoned after 100 ms. -/
  | migrationAbandon (tag page : Nat)
  /-- R434: A released page no job holds leaves the map, written back in OPEN mode if dirty and mapped. -/
  | pageRelease (tag page : Nat)
  /-- R454: Signal appears on a port and training begins. -/
  | linkSignalDetect (u p : Nat)
  /-- R454: Training and the hello exchange complete, and the port becomes UP. -/
  | linkHelloComplete (u p daddr : Nat) (ntag : Bytes)
  /-- R460: Training fails, mapping the port out at the third failure with signal on every lane. -/
  | linkTrainingFail (u p : Nat)
  /-- R456: A port loses signal and keeps its unacknowledged flits for t_hold. -/
  | linkSignalLost (u p : Nat)
  /-- R456: t_hold expires with the port down, its flits are discarded and pinned flows fail over. -/
  | linkHoldExpiry (u p : Nat)
  /-- R447: A flit arrives, is CRC-checked and acknowledged, then forwarded or assembled into a message. -/
  | flitReceived (u p : Nat) (flit : Bytes)
  /-- R452: A tile program sends a message, which is sealed and routed on its flow's port. -/
  | linkMessageSend (x : SendIn)
  /-- R456: An unacknowledged flit is resent after 2 us, mapping the port out at the eighth resend. -/
  | flitAckTimeout (u p : Nat)
  /-- R460: Uncorrectable codewords exceed UNCORR_MAX within 1 s, and the port is mapped out. -/
  | linkUncorrLimit (u p : Nat)
  /-- R460: Pre-FEC ratio, SNR or a coefficient at its bound makes a port DEGRADED. -/
  | linkDegraded (u p : Nat)
  /-- R460: A port DEGRADED for 10 s without recovery is mapped out. -/
  | linkDegradedTimeout (u p : Nat)
  /-- R464: A write of RETRAIN to PD_LPCTL starts retraining of a port. -/
  | linkRetrainWrite (u p : Nat)
  /-- R459: A pending step 1 key ends after 10 s and its slot is zeroed. -/
  | keyxPendingTimeout (job : Nat)
  /-- R475: A tile's Tj reaches TJS and its comparator stops the clock, leading to QCAUSE 0x09. -/
  | tjShutdownTrip (t : Nat)
  /-- R475: A tile's VCORE exceeds VMAX for 4 us, so its clock stops, TILE_EN falls and QCAUSE 0x0A follows. -/
  | vcoreCeilingTrip (t : Nat)
  /-- R479: Paired sensors differ by more than 6 degrees C at two conversions, and the tile shuts down. -/
  | sensorMismatch (t : Nat)
  /-- R478: A sensor conversion at or above TJT engages or deepens the throttle. -/
  | throttleConversion (t tenths : Nat)
  /-- R478: Every 50 us below TJT minus 3 degrees C, f_thr rises 0.10 GHz until the throttle ends. -/
  | throttleReleaseStep (t : Nat)
  /-- R476: Every 50 us a tile's VCORE setpoint moves by at most 25 mV. -/
  | avsLoopStep (t target favs : Nat)
  /-- R477: Loss of margin stretches the tile clock and counts a droop event. -/
  | droopEvent (t : Nat)
  /-- R481: BRAKE_N asserts and the brake drops every tile to its operating point. -/
  | brakeNAssert
  /-- R481: BRAKE_N deasserts and starts the 1 ms release hold. -/
  | brakeNDeassert
  /-- R481: After the hold, f_brk rises 0.10 GHz per 50 us and the issue limit ends past 0.80 GHz. -/
  | brakeRampStep
  /-- R482: Every 1 ms the cap loop adjusts every tile's cap request from mean power. -/
  | powerCapLoop
  /-- R483: Every 10 ms the thermal loop adjusts each tile's thermal request. -/
  | thermalLoop
  /-- R220: Each period, the BAR2 telemetry page is updated under the sequence rule. -/
  | telemetryUpdate
  /-- R507: 84 waiting entries, 5 s since the oldest, or quarantine entry queues a persistent log sector write. -/
  | persistentLogFlush
  /-- R213: A DOE data object is received and dispatched to discovery or SPDM. -/
  | doeObject (words : List Word)
  /-- R213: A DOE Abort discards the object in progress. -/
  | doeAbort
  /-- R214: The SPDM request returns version 0x13 and ends any session. -/
  | getVersion (m : SpdmMsg)
  /-- R214: The SPDM request returns the capabilities. -/
  | getCapabilities (m : SpdmMsg)
  /-- R214: The SPDM request returns the algorithms. -/
  | negotiateAlgorithms (m : SpdmMsg)
  /-- R215: The SPDM request returns the certificate slot digests. -/
  | getDigests (m : SpdmMsg)
  /-- R215: The SPDM request returns the slot 0 chain. -/
  | getCertificate (m : SpdmMsg)
  /-- R219: The SPDM request queues an ECDSA signature and answers. -/
  | challenge (m : SpdmMsg)
  /-- R307: The SPDM request returns measurement blocks, signed if requested. -/
  | getMeasurements (m : SpdmMsg)
  /-- R216: The SPDM request runs the key exchange entries and opens a session. -/
  | keyExchange (m : SpdmMsg)
  /-- R216: The SPDM request completes session establishment. -/
  | finish (m : SpdmMsg)
  /-- R216: The SPDM request ends the session and destroys slot 8 and its aperture keys. -/
  | endSession (m : SpdmMsg)
  /-- R215: Any other SPDM request code is answered with UnsupportedRequest. -/
  | spdmUnsupportedRequest (x : SpdmCode)
  /-- R516: SETDASA or ENTDAA gives a dynamic address, or RSTDAA removes it, switching the binding. -/
  | i3cAddressAssign (da : Nat)
  /-- R518: A management packet arrives, sets RXV and is reassembled into a message. -/
  | mctpPacketRx (pkt : Bytes)
  /-- R518: A message not completed within 100 ms of its first packet is discarded. -/
  | mctpReassemblyTimeout
  /-- R517: A write to WD_MG_TXGO sends packets from the transmit ring. -/
  | wdMgTxgoWrite (n : Nat)
  /-- R518: The MCTP control command replaces the EID. -/
  | setEndpointId (body : Bytes)
  /-- R518: The MCTP control command returns the EID. -/
  | getEndpointId (body : Bytes)
  /-- R518: The MCTP control command returns the UUID. -/
  | getEndpointUuid (body : Bytes)
  /-- R518: The MCTP control command returns version support. -/
  | getMctpVersionSupport (body : Bytes)
  /-- R518: The MCTP control command returns the supported message types. -/
  | getMessageTypeSupport (body : Bytes)
  /-- R518: The MCTP control command returns vendor-defined message support. -/
  | getVendorMessageSupport (body : Bytes)
  /-- R524: The PLDM base command returns the TID. -/
  | getTid (body : Bytes)
  /-- R524: The PLDM base command sets the TID. -/
  | setTid (body : Bytes)
  /-- R524: The PLDM base command returns a type's version. -/
  | getPldmVersion (body : Bytes)
  /-- R524: The PLDM base command returns the supported types. -/
  | getPldmTypes (body : Bytes)
  /-- R524: The PLDM base command returns the supported commands. -/
  | getPldmCommands (body : Bytes)
  /-- R524: The PLDM platform command returns PDR repository information. -/
  | getPdrRepositoryInfo (body : Bytes)
  /-- R524: The PLDM platform command returns a PDR. -/
  | getPdr (body : Bytes)
  /-- R524: The PLDM platform command returns a numeric sensor, coarsened in CONFIDENTIAL. -/
  | getSensorReading (body : Bytes)
  /-- R524: The PLDM platform command returns state sensors. -/
  | getStateSensorReadings (body : Bytes)
  /-- R524: The PLDM platform command sets the management cap effecter. -/
  | setNumericEffecterValue (body : Bytes)
  /-- R524: The PLDM platform command sets the power hold effecter. -/
  | setStateEffecterStates (body : Bytes)
  /-- R524: The PLDM platform command registers the event receiver. -/
  | setEventReceiver (body : Bytes)
  /-- R524: The PLDM platform command returns a pending event. -/
  | pollPlatformEventMessage (body : Bytes)
  /-- R525: An unacknowledged PLDM event is resent after 250 ms, up to twice, then dropped. -/
  | platformEventResend
  /-- R196: The PLDM request opens a firmware update, unless the host path holds one. -/
  | requestUpdate (body : Bytes)
  /-- R196: The PLDM request passes the component table. -/
  | passComponentTable (body : Bytes)
  /-- R196: The PLDM request begins the component's download as UPD_BEGIN. -/
  | updateComponent (body : Bytes)
  /-- R196: Firmware data answering the package's RequestFirmwareData is programmed as UPD_DATA. -/
  | firmwareDataResponse (body : Bytes)
  /-- R196: The PLDM request activates as UPD_ACTIVATE, with or without DEFER. -/
  | activateFirmware (body : Bytes)
  /-- R196: The PLDM request cancels the component as UPD_CANCEL. -/
  | cancelUpdateComponent (body : Bytes)
  /-- R196: The PLDM request cancels the update as UPD_CANCEL. -/
  | cancelUpdate (body : Bytes)
  /-- R183: The PLDM request returns the update status. -/
  | getStatus (body : Bytes)
  /-- R526: K_RM_SILENT_S passes after the last keepalive, and the orphan cap comes into force. -/
  | orphanTimerExpiry
  /-- R541: A shelf leaves regulation, and the BBC asserts the rack BRAKE line and restarts t_bh. -/
  | bbcShelfEvent (shelves : Nat)
  /-- R541: t_bh elapses, and the BBC releases BRAKE if enough shelves remain or otherwise waits for a rack manager. -/
  | bbcHoldExpiry
  /-- R542: The active rack manager applies the shelf caps and writes release to the BBC. -/
  | rmBrakeRelease
  /-- R543: On a pump loss the rack manager posts QUIESCE and the Table 24-7 requests and sets the cooling caps. -/
  | pumpLoss (pumps : Nat)
  /-- R538: The standby rack manager takes over after 5 s without heartbeat and resumes keepalives. -/
  | rmFailover
  /-- R129: A key store command (GEN, UNWRAP, ZERO, ZERO_ALL and the others) finishes, sets DONE or ERR and raises warden interrupt source 7. -/
  | ksCmdComplete
  /-- R171: A measurement bank EXTEND, LOCK or TZERO finishes and BUSY falls with DONE or ERR. -/
  | msCmdComplete
  /-- R317: A synchronous SPI flash erase, program or read-back (roster write, selector commit, update download, certificate write) completes and the waiting command resumes. -/
  | spiFlashOpDone (ok : Bool)
  /-- R94: The standby input leaves the OTP programming window while still good, setting PROGWIN and cutting short any pulse in progress. -/
  | standbyProgWindowExit
  /-- R41: WARDEN_RST_N rises with the standby rail good, letting the package leave COLD or reset for ROM. -/
  | wardenRstNDeassert
  /-- R471: Every 100 us the module power monitor samples input voltage and current and updates WD_SM_PWR and the averages. -/
  | powerMonitorSample (watts : Option Nat)
  /-- R460: The cause of a DEGRADED port clears within 10 s and the port returns to UP for routing. -/
  | linkDegradedRecovery (u p : Nat)
  /-- R120: The TRNG or DRBG fails its health tests, raising interrupt source 8 and affecting GEN, ZERO patterns and PKE draws in progress. -/
  | drbgHealthFailure
  /-- R424: A host write to HB_FR_CTRL sets or clears EN, and setting it lets waiting fault batches be written to the ring. -/
  | hbFrCtrlWrite (value : Word)
  /-- R543: A CDU reports a pump back in service and the rack manager raises the caps to match the new cooling fraction. -/
  | pumpRestored (pumps : Nat)
  /-- R542: A power shelf returns to regulation, and when n_ok reaches N_full the rack manager restores every cap to the rating. -/
  | shelfRestored (shelves : Nat)
deriving DecidableEq, Repr

end Sys2Proof
end

