-- ==== Sys2Proof/Decode.lean ====
section
/-! DEFINITION. The words of the table. spec/opcode_table.json gives no row any bits: the commands of this block are
events and register accesses, told apart by where they arrive and not by an instruction word. -/

namespace Sys2Proof

/-- The command a word of `nbits` bits spells by the table's bits: none, because no row has bits. -/
def decodeTableWord (_nbits _w : Nat) : Option Instr := none

end Sys2Proof
end

