-- ==== Sys2Proof/Config.lean ====
section
/-! DEFINITION. The named constants of Table 0-4 (R15), and the functions and values the spec leaves to other
standards or leaves open. An `opaque` constant has no body: no proof can see a value of it, so a statement holds
whatever it is (log entries 1 and 2). -/

namespace Sys2Proof.Config

/-- K_TILES (Table 0-4). -/
def kTiles : Nat := 8
/-- K_SITES. -/
def kSites : Nat := 10
/-- K_STEPS. -/
def kSteps : Nat := 4096
/-- K_THERMO_CELLS, per counter. -/
def kThermoCells : Nat := 64
/-- K_PROG_RETRY. -/
def kProgRetry : Nat := 3
/-- K_TJ_ROM_C, degrees C. -/
def kTjRomC : Nat := 90
/-- K_VCORE_ROM_MV, mV. -/
def kVcoreRomMv : Nat := 750
/-- K_KS_SLOTS. -/
def kKsSlots : Nat := 64
/-- K_KCV_MS as microseconds. -/
def kKcvUs : Nat := 10000
/-- K_PKE_SLOT_MIN, words of 64 bits. -/
def kPkeSlotMin : Nat := 4
/-- K_PKE_SLOT_MAX, words of 64 bits. -/
def kPkeSlotMax : Nat := 128
/-- K_MEAS_SLOTS. -/
def kMeasSlots : Nat := 32
/-- K_MSIX. -/
def kMsix : Nat := 64
/-- K_FEATURE_BITS. -/
def kFeatureBits : Nat := 128
/-- K_MBX_CHANNELS. -/
def kMbxChannels : Nat := 8
/-- K_TAG_WINDOW. -/
def kTagWindow : Nat := 64
/-- K_DMA_STREAMS, per port die. -/
def kDmaStreams : Nat := 64
/-- K_TENANTS. -/
def kTenants : Nat := 1024
/-- K_VERIFY_STRIDE, lines. -/
def kVerifyStride : Nat := 256
/-- K_WPK_PAGE, bytes. -/
def kWpkPage : Nat := 65536
/-- K_SET_MAX. -/
def kSetMax : Nat := 256
/-- K_RCPT_BYTES. -/
def kRcptBytes : Nat := 128
/-- K_RCPT_BATCH. -/
def kRcptBatch : Nat := 4096
/-- K_RCPT_MS. -/
def kRcptMs : Nat := 250
/-- K_AST. -/
def kAst : Nat := 256
/-- K_EXTENTS. -/
def kExtents : Nat := 4096
/-- K_FAULT_BATCH. -/
def kFaultBatch : Nat := 512
/-- K_FAULT_WINDOW_US. -/
def kFaultWindowUs : Nat := 200
/-- K_LINK_PORTS, per port die. -/
def kLinkPorts : Nat := 12
/-- K_TJ_THROTTLE_C. -/
def kTjThrottleC : Nat := 100
/-- K_TJ_SHUTDOWN_C. -/
def kTjShutdownC : Nat := 110
/-- K_VCORE_MAX_MV. -/
def kVcoreMaxMv : Nat := 950
/-- K_BRAKE_W. -/
def kBrakeW : Nat := 750
/-- K_PWR_STEP_W. -/
def kPwrStepW : Nat := 10
/-- K_TEMP_STEP_C. -/
def kTempStepC : Nat := 5
/-- K_PWR_AVG_MS. -/
def kPwrAvgMs : Nat := 1000
/-- K_HEARTBEAT_MS as microseconds. -/
def kHeartbeatUs : Nat := 25000
/-- K_RM_SILENT_S. -/
def kRmSilentS : Nat := 30
/-- K_ORPHAN_W. -/
def kOrphanW : Nat := 1200
/-- K_STANDBY_W. -/
def kStandbyW : Nat := 15
/-- K_COMPLETION_Q_MS: the grid of completion in ms (R490). -/
def kCompletionQMs : Nat := 1
/-- K_OTP_BITS: 512 rows of 32 cells (R86). -/
def kOtpBits : Nat := 16384
/-- K_LOCKSTEP_CYC, WCLK from a mismatch to the reset (R62). -/
def kLockstepCyc : Nat := 2
/-- K_SHUTDOWN_US (R475). -/
def kShutdownUs : Nat := 50
/-- K_VCORE_ACT_US (R475). -/
def kVcoreActUs : Nat := 10
/-- K_BRAKE_MS (R481). -/
def kBrakeMs : Nat := 1

/-- Link rates in tenths of GT/s, and widths in lanes (Table 9-2). -/
def linkRates : List Nat := [25, 50, 80, 160, 320, 640]
/-- Link widths in lanes (Table 9-2). -/
def linkWidths : List Nat := [1, 2, 4, 8, 16]

/-- Byte `i` of draw `n` of the TRNG or DRBG: a free value (R120, R140; log entry 1). -/
opaque drawByte (n i : Nat) : Byte
/-- A free number for draw `n`, for values the spec leaves open (log entry 1). -/
opaque freeNat (n : Nat) : Nat
/-- Byte `i` of a hash of `m` (FIPS 180-4, FIPS 202; `alg` as DG_CTRL.MODE numbers them; log entry 2). -/
opaque hashByte (alg : Nat) (m : Bytes) (i : Nat) : Byte
/-- Byte `i` of an HMAC (FIPS 198-1; `alg` as DG_CTRL.MODE numbers them; log entry 2). -/
opaque hmacByte (alg : Nat) (key m : Bytes) (i : Nat) : Byte
/-- Whether AES key unwrap (SP 800-38F KW) of `w` under `kek` passes its integrity check (R121). -/
opaque kwOk (kek w : Bytes) : Bool
/-- Byte `i` of the key that AES key unwrap of `w` under `kek` yields. -/
opaque kwByte (kek w : Bytes) (i : Nat) : Byte
/-- Whether an AES-256-GCM tag is right (SP 800-38D). -/
opaque gcmOk (key iv aad ct tag : Bytes) : Bool
/-- Byte `i` of AES-256-GCM over `data`: ciphertext then tag when `enc`, plaintext otherwise. -/
opaque gcmByte (enc : Bool) (key iv aad data : Bytes) (i : Nat) : Byte
/-- Byte `i` of a stack line through AES-256-XTS (R393). -/
opaque xtsByte (enc : Bool) (key tweak data : Bytes) (i : Nat) : Byte
/-- Whether the input validation of PKE phase 5 passes (R148). -/
opaque pkInputOk (op : Nat) (ins : List Bytes) : Bool
/-- The verdict of a verify or ECPVAL (R148). -/
opaque pkValid (op : Nat) (ins : List Bytes) : Bool
/-- Byte `i` of result `r` of a PKE operation on `ins`, with the randomness of draw `n` (R140, R148). -/
opaque pkByte (op : Nat) (ins : List Bytes) (n r i : Nat) : Byte
/-- Length and bytes of an object another standard encodes: CBOR/COSE, X.509, PKCS#10, SPDM (`kind` says which). -/
opaque stdLen (kind : Nat) (parts : List Bytes) : Nat
/-- Byte `i` of such an object. -/
opaque stdByte (kind : Nat) (parts : List Bytes) (i : Nat) : Byte
/-- Whether an object of another standard (a certificate chain, a token's CBOR) is well formed and verifies. -/
opaque stdOk (kind : Nat) (parts : List Bytes) : Bool

/-- Entry index of a key-push or key-zero table of firmware, a free value: the spec lists none of firmware's tables (R164; log entry 58). -/
opaque tableEntry (steps : List Step64) : Nat
/-- Byte `i` of the TEST root of the ROM row (R64): a fixed constant whose value the spec does not give. -/
opaque testRootByte (i : Nat) : Byte
/-- Byte `i` of the digest engine's result over blocks that carry no valid padding (R108). -/
opaque rawHashByte (alg : Nat) (key blocks : Bytes) (i : Nat) : Byte

/-- Byte `i` of the AES-256 encryption of one block. -/
opaque aesByte (key block : Bytes) (i : Nat) : Byte
/-- First 64-byte line of the base SRAM weight area, a free value: R400 gives its size, not its place. -/
opaque weightLine : Nat
/-- Whether the DRBG asks for a reseed at a count of WD_TIME (R63 source 8): free, the spec gives no condition (log entry 84). -/
opaque drbgReseed (time : Nat) : Bool

/-- The code of JOB_ABORT for a reason other than WITHDRAW: a free value, the spec numbers only WITHDRAW (Table 17-6; log entry 81). -/
opaque abortCode : Nat
/-- A reason of JOB_ABORT that is not WITHDRAW, 0x0005. -/
def abortReason : Nat := if abortCode % 65536 = 5 then 0 else abortCode % 65536

/-- `n` bytes drawn at draw number `d`. -/
def draw (d n : Nat) : Bytes := (List.range n).map (drawByte d)
/-- A SHA-384 digest, 48 bytes. -/
def sha384 (m : Bytes) : Bytes := (List.range 48).map (hashByte 0 m)
/-- An HMAC-SHA-384, 48 bytes. -/
def hmac384 (k m : Bytes) : Bytes := (List.range 48).map (hmacByte 5 k m)
/-- An object of another standard. -/
def std (kind : Nat) (parts : List Bytes) : Bytes :=
  (List.range (stdLen kind parts)).map (stdByte kind parts)

end Sys2Proof.Config
end

