-- ==== Sys2Proof/Machine/Bits.lean ====
section
/-! DEFINITION. Bit fields, little-endian integers (R9), list updates, the CRC-32C of R126 and the canonical
memories of the model (sorted cells, none equal to what an unlisted address reads as). -/

namespace Sys2Proof.Machine

/-- `len` bits of `n` from bit `lo`. -/
def bits (n lo len : Nat) : Nat := n / 2 ^ lo % 2 ^ len

/-- Bit `i` of `n`. -/
def bit (n i : Nat) : Bool := n / 2 ^ i % 2 == 1

/-- A Boolean as a bit. -/
def b2n (b : Bool) : Nat := if b then 1 else 0

/-- Set or clear bit `i` of a mask. -/
def setBit (m i : Nat) (v : Bool) : Nat :=
  if bit m i == v then m else if v then m + 2 ^ i else m - 2 ^ i

/-- How many of the low `n` bits of a mask are set. -/
def popCount : Nat → Nat → Nat
  | 0, _ => 0
  | n + 1, m => b2n (bit m n) + popCount n m

/-- The little-endian value of a byte string (R9). -/
def le : Bytes → Nat
  | [] => 0
  | b :: r => b.toNat + 256 * le r

/-- `n` bytes of a value, byte 0 first (R9). -/
def toLe : Nat → Nat → Bytes
  | 0, _ => []
  | n + 1, v => BitVec.ofNat 8 v :: toLe n (v / 256)

/-- `n` bytes of a value, most significant first (standards that want it so). -/
def toBe (n v : Nat) : Bytes := (toLe n v).reverse

/-- `len` bytes of a byte string from offset `off`; bytes beyond its end read zero. -/
def slice (b : Bytes) (off len : Nat) : Bytes :=
  let r := (b.drop off).take len
  r ++ List.replicate (len - r.length) 0#8

/-- The integer field of `len` bytes at `off`. -/
def field (b : Bytes) (off len : Nat) : Nat := le ((b.drop off).take len)

/-- Whether every byte of a string is zero (a reserved field, R12). -/
def allZero (b : Bytes) : Bool := b.all (· == 0#8)

/-- The bytes of an ASCII label. -/
def ascii (s : String) : Bytes := s.toList.map (fun c => BitVec.ofNat 8 c.toNat)

/-- Lexicographic order on byte strings. -/
def bytesLt : Bytes → Bytes → Bool
  | [], [] => false
  | [], _ :: _ => true
  | _ :: _, [] => false
  | a :: x, b :: y => if a.toNat < b.toNat then true else if b.toNat < a.toNat then false else bytesLt x y

/-- Element `i` of a list, or a default. -/
def nth {α : Type} (d : α) (l : List α) (i : Nat) : α := (l[i]?).getD d

/-- Replace element `i` of a list by its image; nothing where `i` is beyond the end. -/
def modNth {α : Type} (i : Nat) (f : α → α) (l : List α) : List α := l.modify i f

/-- The value a key has in a list of pairs. -/
def lookupNat {α : Type} (k : Nat) : List (Nat × α) → Option α
  | [] => none
  | (a, v) :: r => if a = k then some v else lookupNat k r

/-- Drop a key of a list of pairs. -/
def dropKey {α : Type} (k : Nat) (l : List (Nat × α)) : List (Nat × α) := l.filter (fun p => p.1 != k)

/-- Insert or replace a key, keys rising. -/
def putKey {α : Type} (k : Nat) (v : α) : List (Nat × α) → List (Nat × α)
  | [] => [(k, v)]
  | (a, w) :: r => if k < a then (k, v) :: (a, w) :: r else if k = a then (k, v) :: r else (a, w) :: putKey k v r

/-- Keep the last `n` elements of a list. -/
def lastN {α : Type} (n : Nat) (l : List α) : List α := l.drop (l.length - n)

/-- One bit of the reflected CRC-32C (polynomial 0x1EDC_6F41, R126). -/
def crcBit (c : Nat) : Nat := if c % 2 = 1 then (c / 2) ^^^ 0x82F63B78 else c / 2

/-- One byte of the CRC-32C. -/
def crcByte (c : Nat) (b : Byte) : Nat :=
  crcBit (crcBit (crcBit (crcBit (crcBit (crcBit (crcBit (crcBit (c ^^^ b.toNat))))))))

/-- CRC-32C with initial value and final XOR of all ones (R126). -/
def crc32c (b : Bytes) : Nat := (b.foldl crcByte 0xFFFFFFFF) ^^^ 0xFFFFFFFF

/-- Write one byte of a memory whose unlisted addresses read as `d`: the canonical form is kept. -/
def cellPut (d : Byte) (a : Nat) (v : Byte) : List (Nat × Byte) → List (Nat × Byte)
  | [] => if v = d then [] else [(a, v)]
  | (k, w) :: r =>
    if a < k then (if v = d then (k, w) :: r else (a, v) :: (k, w) :: r)
    else if a = k then (if v = d then r else (a, v) :: r)
    else (k, w) :: cellPut d a v r

/-- Read one byte of such a memory. -/
def cellGet (d : Byte) (a : Nat) (m : List (Nat × Byte)) : Byte := (lookupNat a m).getD d

/-- Write a byte string at consecutive addresses. -/
def cellPuts (d : Byte) : Nat → Bytes → List (Nat × Byte) → List (Nat × Byte)
  | _, [], m => m
  | a, b :: r, m => cellPuts d (a + 1) r (cellPut d a b m)

/-- Read `n` bytes from consecutive addresses. -/
def cellGets (d : Byte) (a n : Nat) (m : List (Nat × Byte)) : Bytes :=
  (List.range n).map (fun i => cellGet d (a + i) m)

/-- Erase a range: every address of it reads as `d` again. -/
def cellErase (a n : Nat) (m : List (Nat × Byte)) : List (Nat × Byte) :=
  m.filter (fun p => decide (p.1 < a) || decide (a + n ≤ p.1))

/-- The canonical form of a memory: addresses strictly rising, no entry equal to what an unlisted address reads as. -/
def cellsWf (d : Byte) : List (Nat × Byte) → Bool
  | [] => true
  | [(_, v)] => v != d
  | (a, v) :: (b, w) :: r => v != d && decide (a < b) && cellsWf d ((b, w) :: r)

end Sys2Proof.Machine
end

