-- ==== Sys2Proof/Machine/TypesWarden.lean ====
section
/-! DEFINITION. The state blocks of the warden die: package state and rails (chapter 02, 25), reset, time and
watchdog (03), internal mailboxes and units (03), sequencer (03), OTP (04), digest engine and key store (05), PKE
registers (06), measurement bank and boot record (07), update (08). Plain data; every field's reset value is its
default, and a default the spec does not give is named in the assumption log. -/

namespace Sys2Proof.Machine

/-- Package states (Table 2-1). -/
inductive PState where
  | cold | rom | warden | bringup | idle | loading | active | switching | quarantine | recovery | retired
deriving DecidableEq, Repr

/-- State codes of Table 2-1. -/
def PState.code : PState → Nat
  | .cold => 0 | .rom => 1 | .warden => 2 | .bringup => 3 | .idle => 4 | .loading => 5 | .active => 6
  | .switching => 7 | .quarantine => 8 | .recovery => 9 | .retired => 10

/-- Operating modes (R38; Table 2-6 MODE). -/
inductive Mode where
  | none | confidential | opened
deriving DecidableEq, Repr

/-- MODE codes of Table 2-6. -/
def Mode.code : Mode → Nat
  | .none => 0 | .confidential => 1 | .opened => 2

/-- Assembly codes (R27, Table 4-2 ASM). -/
inductive Asm where
  | m8 | m6 | s0
deriving DecidableEq, Repr

/-- What is fitted at a site (R28). -/
inductive SiteKind where
  | port | stack | blank
deriving DecidableEq, Repr

/-- Unit types of R33. -/
inductive UnitType where
  | tile | port | stack | blank
deriving DecidableEq, Repr

/-- What the warden core runs (Table 2-1, column "Warden runs"). -/
inductive FwRun where
  | nothing | rom | wfw | recovery
deriving DecidableEq, Repr

/-- The package: state word (R52), pins and rails (R553 to R559), what is fitted at each site. -/
structure Pkg where
  st : PState := .rom
  mode : Mode := .none
  qcause : Nat := 0
  seq : BitVec 16 := 0#16
  /-- Standby input within its limits (R555). -/
  standby : Bool := true
  /-- Standby input within the OTP programming window (R94). -/
  progWin : Bool := true
  /-- WARDEN_RST_N high. -/
  rstN : Bool := true
  /-- MAIN_OK (R556). -/
  mainOk : Bool := false
  portEn : Bool := false
  tileEn : Bool := false
  memEn : Bool := false
  portPg : Bool := false
  tilePg : Bool := false
  memPg : Bool := false
  /-- What is physically fitted at P0 to P9 (outside the spec's reset; log entry 5). -/
  fill : List SiteKind := [.port, .stack, .stack, .stack, .stack, .stack, .stack, .stack, .stack, .port]
  refPcie : Bool := true
  refLink : Bool := true
  /-- The port die at P0 was refused, silent or failed since the warden reset: it is not healthy (Table 2-1, R53). -/
  p0Bad : Bool := false
  /-- The clear of R47 steps 3 to 5 is still to come: QUARANTINE was entered from a main-rail state. -/
  quarClr : Bool := false
deriving DecidableEq, Repr

/-- A fabric window access in flight (R70). -/
structure FwAccess where
  unit : Nat
  off : Nat
  write : Bool
  value : Nat
deriving DecidableEq, Repr

/-- How the last core access to the map ended (R64, R70): none yet, done with read data, bus error. -/
inductive AccessEnd where
  | none | ok (data : Nat) | busError
deriving DecidableEq, Repr

/-- Core, SRAM, timers, watchdog and reset (Tables 3-11, 3-12). -/
structure Warden where
  /-- The core pair is released from reset (R65). -/
  coreRun : Bool := false
  fw : FwRun := .nothing
  /-- The SRAM initialisation engine has finished (R67). -/
  sramReady : Bool := false
  time : Nat := 0
  timeHi : Nat := 0
  cmp : Nat := 0xFFFFFFFFFFFFFFFF
  wdtEn : Bool := false
  wdtLock : Bool := false
  wdtS1 : Bool := false
  badKick : Nat := 0
  wdtLoad : Nat := 2000000
  wdtCount : Nat := 2000000
  por : Bool := true
  ext : Bool := false
  wdt : Bool := false
  lockstep : Bool := false
  swrst : Bool := false
  keys : Bool := false
  rstState : Nat := 0
  swcode : Nat := 0
  fwto : Nat := 4000
  /-- Tiles whose clock stop is requested and not yet confirmed (R78, R484). -/
  stopReq : Nat := 0
  access : Option FwAccess := none
  last : AccessEnd := .none
  /-- Warden SRAM, unlisted addresses zero (R67). -/
  sram : List (Nat × Byte) := []
  /-- Word addresses of SRAM with a single-bit error that no read has met yet (R64): the next read corrects it. -/
  flips : List Nat := []
  /-- A core store that stalls (R67, R145): address and value. It completes when its memory has been zeroed. -/
  stall : Option (Nat × Nat) := none
  /-- Oscillator trim in force, always-on (R61, R67); none: the untrimmed oscillator. -/
  trim : Option Nat := none
  /-- Address the running image was entered at (R162 step 11). -/
  entry : Nat := 0
  /-- WD_HB_TICK of R210. -/
  hbTick : Nat := 0
deriving DecidableEq, Repr

/-- A key installed in a key port: content as sent, and its length (R124). -/
structure PortKey where
  index : Nat
  key : Bytes
deriving DecidableEq, Repr

/-- An operation outstanding on a unit (R80). -/
inductive UnitOp where
  | clear (region : Nat) (pattern : Bool)
  | verify (region : Nat)
deriving DecidableEq, Repr

/-- USTATE, the warden's record of a unit (R499). -/
inductive UState where
  | absent | resetting | up | stopped | failed
deriving DecidableEq, Repr

/-- One unit 0 to 17 (R33): its internal mailbox registers (Table 3-10), its reset, its key ports and what its
memories may hold. -/
structure UnitS where
  inReset : Bool := true
  rspValid : Bool := false
  clkStop : Bool := false
  gen : BitVec 8 := 0#8
  rspLen : Nat := 0
  irqEn : Bool := false
  hbIrqEn : Bool := false
  hbAge : Nat := 0
  hbLim : Nat := 0xFFFFFFFF
  hbCnt : Nat := 0
  /-- Response buffer, undefined at reset (log entry 4). -/
  rspBuf : Bytes := []
  /-- Frames the unit keeps because RSP_VALID is 1 (R71), in the order it made them: GEN and frame. -/
  held : List (BitVec 8 × Bytes) := []
  /-- Command frame in the inbox and the length of its doorbell. -/
  inbox : Bytes := []
  doorbell : Nat := 0
  /-- The doorbell has been rung and the unit has not yet taken the frame. -/
  rung : Bool := false
  /-- Tag of the command whose response firmware awaits. -/
  cmdOut : Option Nat := none
  /-- Commands firmware still has to send, opcode and payload: one is outstanding at a time (R224). -/
  outQ : List (Nat × Bytes) := []
  ports : List PortKey := []
  op : Option UnitOp := none
  ustate : UState := .absent
  /-- GO written: the core runs and the image region is read-only (R166). -/
  go : Bool := false
  /-- A port controller alone is held in reset (R501). -/
  ctrlHeld : Bool := false
  /-- READY awaited after GO (R167). -/
  awaitReady : Bool := false
  /-- Image region of PORT_FW or TILE_FW (Table 7-7). -/
  image : Bytes := []
  /-- Entry offset written with GO, [22:2] of the boot control register (R166). -/
  entry : Nat := 0
  /-- Image region of MEMCTL_UC, its GO and its entry offset (Table 7-7), a TILE unit's alone. -/
  mcImage : Bytes := []
  mcGo : Bool := false
  mcEntry : Nat := 0
  /-- READY of the memory controller awaited after its GO (R167). -/
  mcAwait : Bool := false
  /-- Tag of the next command frame to this unit: from 1 at each release from reset (R224). -/
  tag : Nat := 1
  /-- VERSION of the running image, as READY gave it (R225). -/
  version : Nat := 0
  /-- Restart count since the warden reset and starts of the last restarts (R502). -/
  restarts : Nat := 0
  window : List Nat := []
  /-- Regions that may hold something other than zero (Table 3-6). -/
  baseHeld : Bool := true
  clusterHeld : Bool := true
  scratchHeld : Bool := true
  stackHeld : Bool := true
  bufHeld : Bool := true
deriving DecidableEq, Repr

/-- What the sequencer waits for inside a step (R80). -/
inductive SqWait where
  | none | delay (cycles : Nat) | rail (r : Nat) (on : Bool) | join | start (unit : Nat)
deriving DecidableEq, Repr

/-- What firmware started the running table for; `user` is a START by a register write. -/
inductive SqPurpose where
  | user | powerUp | switchClear | tile (u : Nat) | port (u : Nat) | portUp | tileUp | memUp | p0Up
deriving DecidableEq, Repr

/-- The step sequencer (Tables 3-8, 3-9). -/
structure Seqr where
  /-- Step RAM, unlisted steps zero (log entry 4): not cleared by a warden reset (R67). -/
  ram : List (Nat × Step64) := []
  entry : Nat := 0
  busy : Bool := false
  done : Bool := false
  err : Bool := false
  aborted : Bool := false
  ovr : Bool := false
  ecode : Nat := 0
  pc : Nat := 0
  /-- Index of the step to execute next. -/
  nextIx : Nat := 0
  vfail : Bool := false
  kperr : Bool := false
  sw : Nat := 0
  tmo : Nat := 0xF4240
  bound : Nat := 0
  lock : Bool := false
  irqcode : Nat := 0
  steps : Nat := 0
  args : List Nat := [0, 0, 0, 0]
  wait : SqWait := .none
  abortReq : Bool := false
  purpose : SqPurpose := .user
  /-- Seed of the sampled verify, drawn at the first VERIFY of a table (R327). -/
  seed : Option Nat := none
  /-- Tables firmware has queued behind the running one (R76: one at a time). -/
  queue : List SqPurpose := []
deriving DecidableEq, Repr

/-- A programming command in progress (R93): the rows and cells to pulse, in order. -/
structure OtpJob where
  cmd : Nat
  sel : Nat
  targets : List (Nat × Nat)
deriving DecidableEq, Repr

/-- The OTP controller and array (Tables 4-1 to 4-8). A row not listed has no burned cell. -/
structure Otp where
  /-- Row ↦ cells that read 1 at nominal margin and cells that read 1 at strict margin. -/
  rows : List (Nat × (Nat × Nat)) := []
  addr : Nat := 0
  wdata : Nat := 0
  rdata : Nat := 0
  margin : Bool := false
  busy : Bool := true
  done : Bool := false
  err : Bool := false
  weak : Bool := false
  ecode : Nat := 0
  pulses : Nat := 0
  pulse : Nat := 4000
  lc : Nat := 0
  partials : Nat := 0
  root : Nat := 0
  disabled : Bool := false
  /-- OT_GRPSTAT codes of LC, SVN, REVOKE, ROOT, CONFIG, LIMITS, KEYHASH. -/
  grp : List Nat := [0, 0, 0, 0, 0, 0, 0]
  svn : List Nat := [0, 0, 0, 0]
  revoke : Nat := 0
  asm : Nat := 0
  tjt : Nat := 90
  tjs : Nat := 100
  vcm : Nat := 750
  repairs : Nat := 0
  stillMarg : Nat := 0
  tmrdis : Nat := 0
  job : Option OtpJob := none
  /-- The auto-load has run since the warden reset (R97). -/
  loaded : Bool := false
deriving DecidableEq, Repr

/-- What occupies the digest engine. -/
inductive DgPhase where
  | idle | keyBlock | open | absorbing | outer
deriving DecidableEq, Repr

/-- The digest engine (Tables 5-6, 5-7). -/
structure Digest where
  mode : Nat := 0
  dest : Bool := false
  dual : Bool := false
  outlen : Nat := 0
  keyslot : Nat := 0
  keyslot2 : Nat := 0
  dstslot : Nat := 0
  doff : Nat := 0
  dlen1 : Nat := 0
  commit : Bool := false
  lock : Bool := false
  use : Nat := 0
  phase : DgPhase := .idle
  done : Bool := false
  err : Bool := false
  ecode : Nat := 0
  blocks : Nat := 0
  /-- Words of the current block. -/
  buf : Bytes := []
  /-- Bytes absorbed in the open message. -/
  absorbed : Bytes := []
  /-- The HMAC key in use. -/
  key : Bytes := []
  result : Bytes := []
deriving DecidableEq, Repr

/-- One key store slot (R109). -/
structure Slot where
  content : Bytes := []
  use : Nat := 0
  origin : Nat := 0
  lock : Bool := false
  pending : Bool := false
  dead : Bool := false
  len : Nat := 0
  kcv : Nat := 0
deriving DecidableEq, Repr

/-- A key store command in progress: what it was and how it will end. -/
structure KsJob where
  cmd : Nat
  slot : Nat
  ecode : Nat
deriving DecidableEq, Repr

/-- The key store (Table 5-8): 64 slots. -/
structure KeyStore where
  slots : List Slot := List.replicate 64 {}
  argUse : Nat := 0
  argLock : Bool := false
  argLen : Nat := 0
  busy : Bool := false
  done : Bool := false
  err : Bool := false
  kcverr : Bool := false
  patfb : Bool := false
  ecode : Nat := 0
  kcvslot : Nat := 0
  kcvper : Nat := 10000
  tlock : Bool := false
  tenant : Nat := 0
  wbuf : Bytes := []
  job : Option KsJob := none
  /-- The TRNG and DRBG health state (R120). -/
  drbgOk : Bool := true
deriving DecidableEq, Repr

/-- An operand selector PK_OPNDn with its PK_SADDRn. -/
structure PkOpnd where
  slot : Nat := 0
  wipe : Bool := false
  stream : Bool := false
  saddr : Nat := 0
deriving DecidableEq, Repr

/-- A running PKE job (R138): what it reads, and how it ends unless an event of R146 occurs. -/
structure PkRun where
  op : Nat
  ins : List Bytes
  kslot : Option Nat
  dslot : Option Nat
  draw : Nat
  /-- Bits of a MODEXP exponent, and whether the job is blinded with an order (PK_SIZE.EBITS, PK_JOB.ORD). -/
  ebits : Nat
  ord : Bool
  /-- The ECODE of an early end, 0 when compute runs. -/
  early : Nat
deriving DecidableEq, Repr

/-- The PKE registers and slot memory (Tables 6-2, 6-4). -/
structure Pke where
  len : Nat := 128
  busy : Bool := false
  done : Bool := false
  err : Bool := false
  ovr : Bool := false
  /-- Phase 4 or phase 8 runs (Table 6-4): each begins and ends inside one command of the model. -/
  snap : Bool := false
  wiping : Bool := false
  valid : Bool := false
  alarm : Bool := false
  kscut : Bool := false
  wipefail : Bool := false
  ecode : Nat := 0
  iter : Nat := 0
  op : Nat := 0
  kslot : Nat := 0
  ksin : Bool := false
  ord : Bool := false
  dslot : Nat := 0
  ksout : Bool := false
  dstUse : Nat := 0
  dstLock : Bool := false
  nw : Nat := 0
  ebits : Nat := 0
  opnds : List PkOpnd := [{}, {}, {}, {}]
  res0 : Nat := 0
  res1 : Nat := 0
  eaddr : Nat := 0
  cycles : Nat := 0
  jobs : Nat := 0
  /-- KEEP bank, zeroed at reset (R145). -/
  keep : List (Nat × Byte) := []
  /-- WIPE bank, never readable by the core (R136). -/
  wipeMem : List (Nat × Byte) := []
  /-- The reset controller is zeroing the banks (R145). -/
  zeroing : Bool := true
  run : Option PkRun := none
deriving DecidableEq, Repr

/-- One measurement slot (R158). -/
structure MSlot where
  val : Bytes := List.replicate 48 0#8
  count : Nat := 0
  locked : Bool := false
deriving DecidableEq, Repr

/-- One measurement log entry (Table 7-9). -/
structure MLog where
  slot : Nat
  kind : Nat
  code : Nat
  typ : Nat
  count : Nat
  time : Nat
  input : Bytes
deriving DecidableEq, Repr

/-- A measurement bank command in progress. -/
structure MsJob where
  cmd : Nat
  ecode : Nat
deriving DecidableEq, Repr

/-- The measurement bank (Table 7-8) and the measurement log (R172, R304). -/
structure Meas where
  slots : List MSlot := List.replicate 32 {}
  done : Bool := false
  err : Bool := false
  ecode : Nat := 0
  tgen : Nat := 0
  msIn : Bytes := []
  job : Option MsJob := none
  /-- Entries of slots 0 to 15, oldest first, and of slots 16 to 31 (R304). -/
  logP : List MLog := []
  logT : List MLog := []
  lostP : Bool := false
  lostT : Bool := false
  /-- The ROM's entries, one for each extend and each refusal (KIND 0x03), oldest first (R162). -/
  romLog : List MLog := []
deriving DecidableEq, Repr

/-- Where BRINGUP stands (R165). -/
inductive BPhase where
  | none | portRail | portImg | portReady | tileRail | tileImg | tileReady | memRail | memImg | memReady | train | clear
deriving DecidableEq, Repr

/-- The boot record of this warden boot (Tables 7-3, 7-4) and where BRINGUP stands. -/
structure Boot where
  chosen : Nat := 0
  tried : Nat := 0
  codeA : Nat := 0
  codeB : Nat := 0
  selgen : Nat := 0xFFFFFFFF
  /-- STATE of the selector in force is TRIAL. -/
  trial : Bool := false
  /-- PREF of the selector in force; none valid: slot A (R180). -/
  pref : Nat := 0
  selValid : Bool := false
  /-- Which copy holds the selector in force. -/
  selCopy : Nat := 0
  svnTgt : List Nat := [0, 0, 0, 0]
  setDigest : Bytes := []
  /-- SVNs of the running images: counters 0 to 3. -/
  runSvn : List Nat := [0, 0, 0, 0]
  /-- e of the MEMCTL_UC, PORT_FW and TILE_FW recorded at stages 3 to 5 (slots 3 to 5). -/
  eMem : Option Bytes := none
  ePort : Option Bytes := none
  eTile : Option Bytes := none
  /-- Versions and SVNs by image type, for the report. -/
  eWarden : Bytes := []
  wardenVersion : Nat := 0
  bphase : BPhase := .none
  /-- Entries to BRINGUP in this warden boot (R168). -/
  bringups : Nat := 0
  /-- The record of slot 7 once extended. -/
  census : Option Bytes := none
  bootNonce : Bytes := []
  /-- WFW_INIT has run: tables locked, prism derived (R164). -/
  inited : Bool := false
deriving DecidableEq, Repr

/-- Update status (Table 8-4) and the download in progress. -/
structure Update where
  status : Nat := 0
  target : Nat := 0
  length : Nat := 0
  /-- Programmed ranges of the download, disjoint and rising: offset and length. -/
  prog : List (Nat × Nat) := []
  /-- TRIAL or FALLBACK and the selector of R189 is not committed yet. -/
  awaitCommit : Bool := false
  /-- Type and code of the first refused image of the last UPD_VERIFY (Table 11-13). -/
  rtype : Nat := 0
  rcode : Nat := 0
  /-- PLDM firmware update holds the update (R196). -/
  pldm : Bool := false
  /-- DSP0267 state: 0 IDLE, 1 LEARN, 2 READY XFER, 3 DOWNLOAD, 4 VERIFY, 5 APPLY, 6 ACTIVATE. -/
  pldmSt : Nat := 0
  pldmComp : Nat := 0
  /-- Offset of the RequestFirmwareData outstanding, and MaximumTransferSize of RequestUpdate. -/
  pldmOff : Nat := 0
  pldmMax : Nat := 64
  /-- The result of the last PLDM stage: 0 good. -/
  pldmRes : Nat := 0
  /-- A failed trial reverts once QUARANTINE's entry steps have ended (R191). -/
  revertDue : Bool := false
deriving DecidableEq, Repr

/-- The SPI flash as the warden reads it: unlisted bytes read 0xFF, the erased value (log entry 4). -/
structure Flash where
  mem : List (Nat × Byte) := []
deriving DecidableEq, Repr

end Sys2Proof.Machine
end

