-- ==== Sys2Proof/Machine/TypesSys.lean ====
section
/-! DEFINITION. The state blocks of power, thermal and safety (chapter 21), logs and trace (22), the management
path (23) and the part of the rack that reaches one module (24). Temperatures are held in tenths of a degree C,
clocks in MHz, voltages in mV, power in W. -/

namespace Sys2Proof.Machine

/-- One tile's sensors, loops and clock (R471 to R483; the mirrored words of Table 21-3). -/
structure TileP where
  tj : Nat := 250
  pairDiff : Nat := 0
  /-- The last conversion had a pair of some site more than 6 degrees apart (R479). -/
  pairBad : Bool := false
  freq : Nat := 400
  capReq : Nat := 400
  thermReq : Nat := 400
  favs : Nat := 1900
  fthr : Nat := 1900
  throt : Bool := false
  /-- A comparator has stopped the clock (R475): firmware cannot start it again before the rail or the warden resets. -/
  tripped : Bool := false
  vcore : Nat := 0
  setpoint : Nat := 600
  droops : Nat := 0
  residue : Nat := 0
  hlres : Nat := 0
  /-- Tenths of a degree, highest of the telemetry period (R488). -/
  perTj : Nat := 0
  perThrot : Bool := false
deriving DecidableEq, Repr

/-- Safety monitor, power monitor and the firmware loops (Table 21-3). -/
structure Power where
  alarm : Nat := 0
  notice : Nat := 0
  nen : Nat := 0
  /-- WD_SM_LIMNOW: limits in force (R469). -/
  tjt : Nat := 90
  tjs : Nat := 100
  vcm : Nat := 750
  stby : Nat := 0
  sramce : Nat := 0
  pwr : Nat := 0
  mean : Nat := 0
  /-- Samples of the last second, newest first (R471). -/
  samples : List Nat := []
  /-- Readings that succeeded in a row since the monitor last failed; 2 when it works (R482). -/
  monGood : Nat := 2
  brakeN : Bool := true
  brakeForce : Bool := false
  /-- The 1 ms hold after deassertion is over and the ramp runs (R481). -/
  brakeRamp : Bool := false
  brakeCount : Nat := 0
  fbrk : Nat := 1900
  issueHalf : Bool := false
  wtj : Nat := 0
  tiles : List TileP := List.replicate 8 {}
  /-- P_host of R473; none: the rating. -/
  pHost : Option Nat := none
  pMgmt : Option Nat := none
  /-- Completion quantisation in force (R490). -/
  quant : Bool := false
  thermtripLow : Bool := false
  /-- TILE_EN held low by a VCORE comparator until a warden reset (R475). -/
  tileEnHeld : Bool := false
  /-- Period accumulators of R488. -/
  perBrake : Bool := false
  perStack : List Nat := List.replicate 8 0
  stackTj : List Nat := List.replicate 8 250
  perWtj : Nat := 0
  /-- Sum and number of the standby readings of the period (Table 23-6). -/
  perStby : Nat := 0
  perStbyN : Nat := 0
  /-- Performance counters (Table 21-4): 512 × set + index ↦ value, unlisted 0. -/
  perf : List (Nat × Nat) := []
deriving DecidableEq, Repr

/-- One log entry (Table 22-6) without its padding. -/
structure LogEntry where
  seq : Nat
  time : Nat
  st : Nat
  code : Nat
  sev : Nat
  flags : Nat
  unit : Nat
  data : Bytes
deriving DecidableEq, Repr

/-- One trace record (Table 22-7). -/
structure TraceRec where
  seq : Nat
  time : Nat
  point : Nat
  unit : Nat
  a : Nat
  b : Nat
deriving DecidableEq, Repr

/-- One sector of the persistent log (Table 22-8). -/
structure LogSector where
  wseq : Nat
  boots : Nat
  boot : Bytes
  entries : List LogEntry
deriving DecidableEq, Repr

/-- Log rings, persistent log and trace (R505 to R510). -/
structure Logs where
  pkg : List LogEntry := []
  pkgSeq : Nat := 1
  ten : List LogEntry := []
  tenSeq : Nat := 1
  trace : List TraceRec := []
  traceSeq : Nat := 1
  mask : Nat := 0
  thresh : Nat := 0
  /-- NEXT of the last host LOG_READ of SCOPE 0. -/
  next : Nat := 1
  vecSent : Bool := false
  /-- Entries waiting for a persistent sector (R507). -/
  waiting : List LogEntry := []
  wseq : Nat := 1
  sectors : List LogSector := []
  /-- Units whose views differ at present (R504). -/
  conflicts : List Nat := []
  /-- Units with an unexplained clock stop, and WD_TIME when it was found (R504, Table 22-2). -/
  stops : List (Nat × Nat) := []
deriving DecidableEq, Repr

/-- A management request waiting to be answered (R518: at most 4): endpoint, tag and message. -/
structure MgReq where
  peer : Nat
  tag : Nat
  body : Bytes
deriving DecidableEq, Repr

/-- A message being reassembled (R518). -/
structure Reasm where
  peer : Nat
  tag : Nat
  seqNo : Nat
  body : Bytes
deriving DecidableEq, Repr

/-- A PLDM event sent and not yet acknowledged (R525). -/
structure PldmEvent where
  sensor : Nat
  value : Nat
  resends : Nat
deriving DecidableEq, Repr

/-- The management path (chapter 23). -/
structure Mgmt where
  irqEn : Bool := false
  ibiEn : Bool := false
  rxv : Bool := false
  txBusy : Bool := false
  /-- Dynamic address, 0 none: SMBus is then the binding (R516). -/
  da : Nat := 0
  rackid : Nat := 0x3F
  hold : Bool := false
  rx : List Bytes := []
  tx : List Bytes := []
  /-- Packets sent from the transmit ring, newest first. -/
  sent : List Bytes := []
  eid : Nat := 0x4F
  tid : Nat := 0
  reasm : Option Reasm := none
  queue : List MgReq := []
  /-- A request is in execution: its endpoint and tag, and whether its response is still to come. -/
  busy : Bool := false
  peer : Nat := 0
  peerTag : Nat := 0
  /-- Instance ID byte of the request in execution (DSP0240, DSP0236). -/
  peerInst : Nat := 0
  /-- Responses, newest first. -/
  resp : List Bytes := []
  stage : List (Nat × Byte) := []
  stageHigh : Nat := 0
  orphanArmed : Bool := false
  orphan : Bool := false
  mreq : Nat := 0
  evtRcv : Option Nat := none
  events : List PldmEvent := []
  pollQ : List PldmEvent := []
deriving DecidableEq, Repr

/-- The part of a BX-36 that reaches one module (chapter 24). -/
structure Rack where
  /-- Build code: 1 BX-36D, 2 BX-36C (log entry 13). -/
  build : Nat := 1
  shelves : Nat := 8
  brakeLine : Bool := false
  /-- t_bh runs (R541). -/
  holding : Bool := false
  /-- t_bh is over and BRAKE waits for a rack manager's release. -/
  waitRelease : Bool := false
  pumps : Nat := 4
  activeAlive : Bool := true
  standbyAlive : Bool := true
  /-- Caps the active manager has applied for shelves and pumps; none: the rating. -/
  capShelf : Option Nat := none
  capPump : Option Nat := none
deriving DecidableEq, Repr

end Sys2Proof.Machine
end

