-- ==== Sys2Proof/Machine/TypesHost.lean ====
section
/-! DEFINITION. The state blocks the host meets: functions, interrupts and telemetry page (chapter 09), mailbox
channels, windows and result stores (10), the stage (11). -/

namespace Sys2Proof.Machine

/-- One PCIe function by port-die ordinal (Tables 9-1 to 9-8). -/
structure HostFn where
  /-- The warden has enabled link training (R201). -/
  ltEn : Bool := false
  /-- The endpoint is in L0. -/
  up : Bool := false
  /-- Negotiated rate by index into `linkRates`, width in lanes, and FLIT mode (Table 9-2); as the last LINK_UP left them. -/
  gen : Nat := 0
  width : Nat := 0
  flit : Bool := false
  /-- PERST_N[d] high. -/
  perstN : Bool := true
  d3 : Bool := false
  cause : Nat := 0
  irqEn : Nat := 0
  /-- MSI-X vectors masked; every vector is masked after reset, as PCIe says (Table 9-7 "Per PCIe"; log entry 6). -/
  mask : Nat := 0xFFFFFFFFFFFFFFFF
  pba : Nat := 0
  /-- MSI-X table words the host wrote (dword offset ↦ value). -/
  table : List (Nat × Nat) := []
deriving DecidableEq, Repr

/-- The telemetry page of BAR2 (Table 9-11). -/
structure Telem where
  seq : Nat := 0
  coarse : Bool := false
  perfHidden : Bool := false
  valid : Bool := false
  period : Nat := 0
  pwr : Nat := 0
  pcap : Nat := 0
  tjmax : Nat := 0
  throt : Nat := 0
  brake : Bool := false
  tj : List Nat := List.replicate 8 0
  stk : List Nat := List.replicate 8 0
  stby : Nat := 0
  wtj : Nat := 0
deriving DecidableEq, Repr

/-- Feature masks, fault ring registers, aperture control and the functions (Tables 9-6 to 9-10). -/
structure HostIf where
  fns : List HostFn := List.replicate 4 {}
  offer : Nat := 0
  accept : Nat := 0
  frEn : Bool := false
  frSealed : Bool := true
  frIdx : Nat := 0
  frBase : Nat := 0
  frSize : Nat := 9
  frHead : Nat := 0
  frTail : Nat := 0
  frOvf : Bool := false
  frDone : Nat := 0
  apEn : Bool := false
  apDropped : Nat := 0
  /-- Writes AER logged as Unsupported Requests (R202), counted. -/
  urs : Nat := 0
  tele : Telem := {}
  /-- TELEM_THRESH values by kind, and whether each stands crossed. -/
  thresh : List (Nat × Nat) := []
  crossed : List Nat := []
deriving DecidableEq, Repr

/-- A frame taken from a channel's command buffer (Table 10-1): `payload` is the application data. -/
structure Frame where
  opcode : Nat
  flags : Nat
  gen : Nat
  tag : Nat
  session : Nat
  dig : Bytes
  payload : Bytes
deriving DecidableEq, Repr

/-- A response: status, and body as the command reference lays it out. -/
structure Resp where
  status : Nat
  body : Bytes
deriving DecidableEq, Repr

/-- One entry of a duplicate window (R228): the response is filled in at POST. -/
structure WinEntry where
  tag : Nat
  opcode : Nat
  flags : Nat
  session : Nat
  dig : Bytes
  posted : Option Bytes
  /-- Handle of the result object the response refers to. -/
  obj : Option Nat
deriving DecidableEq, Repr

/-- What the mover copies (R240). -/
inductive MoveKind where
  | take | post
deriving DecidableEq, Repr

/-- One host channel (Tables 9-9, 10-5). -/
structure Chan where
  gen : Nat := 0
  rspValid : Bool := false
  busy : Bool := false
  rspLen : Nat := 0
  irqEn : Bool := false
  lastTag : Nat := 0
  cmdBuf : List (Nat × Byte) := []
  rspBuf : Bytes := []
  pend : Bool := false
  dbLen : Nat := 0
  addr : Nat := 0
  len : Nat := 0
  move : Option MoveKind := none
  mvDone : Bool := false
  mvErr : Bool := false
  dbIrqEn : Bool := false
  /-- The frame under check or in execution. -/
  frame : Option Frame := none
  /-- The response firmware has built, as frame bytes, before POST. -/
  built : Option Bytes := none
  /-- Suppress the MSI-X of this response (QUIET). -/
  quiet : Bool := false
  /-- A duplicate that waits for the response of (channel, tag) (R231). -/
  dupOf : Option (Nat × Nat) := none
  /-- The response of the running command is discarded (PERST_N). -/
  discard : Bool := false
  /-- CHANNEL_RESET of this channel takes effect after the response is posted (R237). -/
  resetAfter : Bool := false
  /-- The software code of the warden reset that follows the response of the command in execution (R102, R187, R267). -/
  reset : Option Nat := none
  /-- The result object the response in hand refers to (R228, R232, R233). -/
  ref : Option Nat := none
  /-- The frame taken lies in SRAM and its checks have not begun (R238). -/
  inSram : Bool := false
  win : List WinEntry := []
  floor : Nat := 0
  /-- Result objects, oldest first: handle and bytes (R232). -/
  objs : List (Nat × Bytes) := []
deriving DecidableEq, Repr

/-- One entry of the job window (R231). -/
structure JobWin where
  job : Nat
  ch : Nat
  tag : Nat
  dig : Bytes
  /-- The first submission's response, filled in when it is posted or discarded. -/
  rsp : Option Bytes
deriving DecidableEq, Repr

/-- The mailbox: channels, arrival order, job window, stage (R231, R238, R250). -/
structure Mbx where
  chans : List Chan := List.replicate 8 {}
  /-- Channels whose frames' checks have not begun, in the order of their doorbells (R238). -/
  arrivals : List Nat := []
  jobWin : List JobWin := []
  jobFloor : Nat := 0
  stage : List (Nat × Byte) := []
  stageHigh : Nat := 0
  stageOwner : Option Nat := none
deriving DecidableEq, Repr

end Sys2Proof.Machine
end

