-- ==== Sys2Proof/Machine/TypesData.lean ====
section
/-! DEFINITION. The state blocks of apertures and transport (chapter 12), identity and attestation (13), tenants and
switching (14), weight packages (15), receipts (16), tiles and jobs (17). -/

namespace Sys2Proof.Machine

/-- One aperture descriptor (Table 12-4). AP_MBASE is DBASE + LEN. -/
structure Aper where
  valid : Bool := false
  outbound : Bool := false
  keyed : Bool := false
  exh : Bool := false
  kgen : Nat := 0
  ast : Nat := 0
  authFail : Nat := 0
  replay : Nat := 0
  dbase : Nat := 0
  len : Nat := 0
  invoc : Nat := 0
  bytes : Nat := 0
  rtbase : Nat := 0
deriving DecidableEq, Repr

/-- A DMA stream's descriptor in progress (R275): the job it serves and how many extents are done. -/
structure Stream where
  job : Nat
  nextExt : Nat
deriving DecidableEq, Repr

/-- One port die's transport (R270 to R292): 64 descriptors, record-state entries (unlisted 0), streams, PD_MODE.CONF. -/
structure PortX where
  aps : List Aper := List.replicate 64 {}
  recst : List (Nat × Nat) := []
  streams : List (Nat × Stream) := []
  conf : Bool := false
  /-- Apertures whose quiesce waits for host reads (R284). -/
  quiesce : List Nat := []
  /-- The epoch PORT_ENTER gave the die (R323). -/
  epoch : Nat := 0
  /-- HB_AP_CTRL.EN of a die other than P0 (R277). -/
  apEn : Bool := false
deriving DecidableEq, Repr

/-- The spill pair and its frames (Table 18-7, R403 to R407). -/
structure Spill where
  en : Bool := false
  paired : Bool := false
  pages : Nat := 0
  first : Nat := 0
  hit : Nat := 0
  miss : Nat := 0
  authf : Nat := 0
  /-- Pages held, the one filled longest ago first. -/
  frames : List Nat := []
  /-- Pages being fetched. -/
  fetching : List Nat := []
  /-- Requests waiting: page and job. -/
  waiting : List (Nat × Nat) := []
deriving DecidableEq, Repr

/-- An SPDM session (R216): its ID, whether FINISH has completed, record sequence numbers. -/
structure Sess where
  id : Nat
  opened : Bool
  rxSeq : Nat
  txSeq : Nat
deriving DecidableEq, Repr

/-- The SPDM responder (R213 to R219). -/
structure Spdm where
  /-- 0 none, 1 VERSION, 2 CAPABILITIES, 3 ALGORITHMS done. -/
  stage : Nat := 0
  sess : Option Sess := none
  sessCount : Nat := 0
  transcript : Bytes := []
  /-- KGEN to use next, by APIDX, in this session (R274). -/
  kgens : List (Nat × Nat) := []
  /-- A DOE object is in execution: its response waits (Busy). -/
  busy : Bool := false
  /-- The object in progress, as dwords taken. -/
  obj : List Word := []
  /-- Number of objects begun: an entry of an earlier object has its result discarded (R213). -/
  tok : Nat := 0
  /-- The DOE mailbox stands in error until an abort: an object of wrong length (PCIe DOE). -/
  err : Bool := false
  /-- Responses as DOE data objects, newest first. -/
  resp : List Bytes := []
deriving DecidableEq, Repr

/-- A binding record (R303). -/
structure Bind where
  serial : Nat
  epoch : Nat
  units : List (UState × Nat)
  upd : Nat
  /-- A recorded value has changed since: the serial is never current again, even if the value moves back. -/
  moved : Bool := false
deriving DecidableEq, Repr

/-- Identity, certificates and reports (chapter 13), service nonce (R253). -/
structure Attest where
  /-- Identity public keys Q (96 bytes) and pk (2,592 bytes), once generated (R293). -/
  ident : Option (Bytes × Bytes) := none
  /-- Set public keys EK_S and QS (R339). -/
  setPair : Option (Bytes × Bytes) := none
  /-- Ephemeral public keys EK and QE (R259). -/
  eph : Option (Bytes × Bytes) := none
  serial : Nat := 0
  binds : List Bind := []
  nonce : Option Bytes := none
  jobsDone : Nat := 0
  batches : Nat := 0
  /-- Certificate store records in flash: scheme ↦ life cycle, KDIG, DER (Table 13-8). -/
  certs : List (Nat × (Nat × Bytes × Bytes)) := []
deriving DecidableEq, Repr

/-- RSTATE of R260. -/
inductive RState where
  | enrolled | staged | resident | evicted | revoked
deriving DecidableEq, Repr

/-- RSTATE codes. -/
def RState.code : RState → Nat
  | .enrolled => 1 | .staged => 2 | .resident => 3 | .evicted => 4 | .revoked => 5

/-- A tenant record (R312, record plaintext of R331). -/
structure TRec where
  tid : Nat
  state : RState
  switches : Nat
  lastEpoch : Nat
  policy : Bytes
  tpkEc : Bytes
  tpkMl : Bytes
deriving DecidableEq, Repr

/-- The roster as the sealed containers of flash hold it: the key's root that sealed it, RID, LC, BOOTS and the records
whose last write committed, by index (R315; log entry 8). -/
structure FlRoster where
  root : Nat
  rid : Bytes
  lc : Nat
  boots : Nat
  recs : List (Nat × TRec)
deriving DecidableEq, Repr

/-- Where the boot's header write stands (R316). -/
inductive HdrState where
  | none | queued | committed | failed
deriving DecidableEq, Repr

/-- The roster held in warden SRAM (R312 to R318). -/
structure Roster where
  opened : Bool := false
  hdr : HdrState := .none
  rid : Bytes := []
  boots : Nat := 0
  recs : List TRec := []
  /-- The residence count R. -/
  res : Nat := 0
deriving DecidableEq, Repr

/-- Phase of a switch (Table 14-8). -/
inductive SwPhase where
  | none | halt | batch | clear | receipt
deriving DecidableEq, Repr

/-- The switch in progress, and what its clear receipt will say (Table 14-9). -/
structure Switch where
  phase : SwPhase := .none
  cause : Nat := 0
  epoch : Nat := 0
  idx : Nat := 0
  tBegin : Nat := 0
  tKeys : Nat := 0
  tEnd : Nat := 0
  stopped : Bool := false
  patfb : Bool := false
  unsigned : Bool := false
  closed : Bool := false
  kslots : Nat := 0
  kports : Nat := 0
  lastBatch : Nat := 0
  batchRoot : Bytes := []
  resmeas : Bytes := []
  /-- Whether phase 4 has passed. -/
  keysGone : Bool := false
  /-- The receipt body, once built. -/
  body : Bytes := []
deriving DecidableEq, Repr

/-- A clear receipt: SWITCH serial and the signed object (R328). -/
structure ClearRcpt where
  serial : Nat
  obj : Bytes
deriving DecidableEq, Repr

/-- Phase of LOADING (R323). -/
inductive LdPhase where
  | none | entry | selftest
deriving DecidableEq, Repr

/-- Loading in progress: units not yet acknowledged. -/
structure Loading where
  phase : LdPhase := .none
  idx : Nat := 0
  waiting : List Nat := []
deriving DecidableEq, Repr

/-- Tenants: roster, flash image of it, receipts (R328, R329), loading and switch in progress. -/
structure Tenants where
  ro : Roster := {}
  fl : Option FlRoster := none
  sw : Switch := {}
  ld : Loading := {}
  /-- Receipts not yet written. -/
  pend : List ClearRcpt := []
  /-- Entries of the flash ring, oldest first, at most 64. -/
  ring : List ClearRcpt := []
  /-- Receipts written to the ring since it was empty (R329). -/
  ringN : Nat := 0
  /-- The copy in force and its WGEN of each sealed container, by INDEX (R315). -/
  gens : List (Nat × (Nat × Nat)) := []
deriving DecidableEq, Repr

/-- WSTATE of R261. -/
inductive WState where
  | opened | keyed | loading | runnable | failed
deriving DecidableEq, Repr

/-- WSTATE codes. -/
def WState.code : WState → Nat
  | .opened => 1 | .keyed => 2 | .loading => 3 | .runnable => 4 | .failed => 5

/-- The place of a weight page (R400, R404): a 64 KiB slot of a tile's base SRAM weight area or of its cluster store, a 64 KiB
page of external memory, or none for a spill page. -/
inductive WPlace where
  | base (t slot : Nat)
  | cluster (t slot : Nat)
  | ext (page : Nat)
  | spill
deriving DecidableEq, Repr

/-- A weight package handle (R340, Table 15-1). -/
structure Wpk where
  handle : Nat
  hdig : Bytes
  root : Bytes
  setauth : Bytes
  mdig : Bytes
  nsalt : Bytes
  bind : Nat
  ws : WState
  pages : Nat
  plainlen : Nat
  loaded : Nat
  ast : Nat
  srcva : Nat
  pkglen : Nat
  /-- Bytes reserved. -/
  reserved : Nat
  /-- Bytes spilled, 0 when none. -/
  short : Nat
  /-- Complete-subtree roots, largest first: size and root (R344). -/
  stack : List (Nat × Bytes)
  /-- WPK_CLOSE has ended the handle; a RUNNABLE one keeps its reservation (R347). -/
  closed : Bool
  /-- The page placement table of the handle, by page index; every tile holds the same (R400). -/
  places : List WPlace
deriving DecidableEq, Repr

/-- A WPK_LOAD in execution: its handle, its command and the index after its last page. -/
structure WLoad where
  handle : Nat
  call : HostCall
  stop : Nat
deriving DecidableEq, Repr

/-- Weights: handles of the residence, the next handle, the load in execution, bound manifests (R457). -/
structure Weights where
  hs : List Wpk := []
  next : Nat := 1
  load : Option WLoad := none
  /-- MDIG and entries of up to 4 bound manifests. -/
  manifests : List (Bytes × List Bytes) := []
deriving DecidableEq, Repr

/-- A receipt context (R354). -/
structure RCtx where
  prog : Bytes
  wroot : Bytes
  meas : Bytes
deriving DecidableEq, Repr

/-- The open batch (R355). -/
structure Batch where
  first : Nat
  records : Nat
  ctxs : List RCtx
  stack : List (Nat × Bytes)
  tOpen : Nat
  spill : Bool
deriving DecidableEq, Repr

/-- A closed batch: number, records, root and body. -/
structure CBatch where
  num : Nat
  records : Nat
  root : Bytes
  body : Bytes
deriving DecidableEq, Repr

/-- Receipts (chapter 16). -/
structure Rcpts where
  seq : Nat := 1
  cur : Option Batch := none
  /-- Closed, its entry not yet started. -/
  waiting : Option CBatch := none
  /-- Closed, its entry running. -/
  signing : Option CBatch := none
  count : Nat := 1
  /-- Signed batches of the residence, newest last, at most 64: number and object. -/
  archive : List (Nat × Bytes) := []
  /-- The batch signed at phase 3 of the last switch, until the first batch of the next residence is signed (R359). -/
  last : Option (Nat × Bytes) := none
  /-- Jobs whose record is held by R358. -/
  held : List Nat := []
  /-- A closure fell due during the hold: its CLOSE code (R358). -/
  due : Option Nat := none
deriving DecidableEq, Repr

/-- A loaded tile program (R368, Table 17-4). -/
structure Prog where
  phandle : Nat
  dig : Bytes
  ntiles : Nat
  wsmin : Nat
  wroot : Bytes
  plen : Nat
deriving DecidableEq, Repr

/-- JSTATE of R262. -/
inductive JState where
  | queued | parked | running | done | aborted | cancelled
deriving DecidableEq, Repr

/-- JSTATE codes. -/
def JState.code : JState → Nat
  | .queued => 1 | .parked => 2 | .running => 3 | .done => 4 | .aborted => 5 | .cancelled => 6

/-- A descriptor extent (Table 19-3). -/
structure Extent where
  addr : Nat
  len : Nat
  kind : Nat
  apidx : Nat
  chunk : Bool
  write : Bool
deriving DecidableEq, Repr

/-- Why a job is parked (R422, R423, R432): its walk goes on, pages in transit, or faults of a batch. -/
inductive Park where
  | none | walk | transit | fault
deriving DecidableEq, Repr

/-- A job (R373 to R379). -/
structure Job where
  id : Nat
  ch : Nat
  ast : Nat
  phandle : Nat
  receipt : Bool
  tiles : Nat
  vector : Nat
  inVa : Nat
  inLen : Nat
  outVa : Nat
  outLen : Nat
  wsVa : Nat
  wsLen : Nat
  args : Bytes
  st : JState
  status : Nat
  detail : Nat
  order : Nat
  die : Nat
  stream : Nat
  park : Park
  /-- Fault batches that hold entries of the job. -/
  batches : List Nat
  stale : Bool
  exts : List Extent
  /-- Handle bound by WROOT, 0 none. -/
  handle : Nat
  prog : Bytes
  wroot : Bytes
  meas : Bytes
  inDigs : List (Nat × Bytes)
  outDigs : List (Nat × Bytes)
  retry : Bool
  ovf : Bool
  spill : Bool
  written : Nat
  /-- The tiles reported the end with ST_OK and the record waits for its chunk digests (R352). -/
  ending : Bool
  rcptSeq : Nat
  record : Bytes
deriving DecidableEq, Repr

/-- A tile's registers (Table 17-7), program store, eligibility and poisoned lines. -/
structure TileJ where
  gateClosed : Bool := false
  rescnt : Nat := 0
  limit : Nat := 16
  window : Nat := 1000
  lock : Bool := false
  ce : Nat := 0
  ue : Nat := 0
  eccAddr : Nat := 0
  /-- Times of recent residue failures, newest first. -/
  fails : List Nat := []
  poison : List (Nat × Nat) := []
  store : List Nat := []
  epoch : Nat := 0
  eligible : Bool := false
  /-- Programs still to be restored after a partial reset (R381 step 5), then TILE_ENTER and SELFTEST. -/
  restoring : Bool := false
  /-- The tile's queue of QUEUED jobs: order number and job, lowest order first (R377). -/
  queue : List (Nat × Nat) := []
  /-- Steps in re-execution after a first failed check: job and step (R369). -/
  rexec : List (Nat × Nat) := []
deriving DecidableEq, Repr

/-- The memory controller of a tile with a stack (Table 18-6, R393). -/
structure MemCtl where
  trained : Bool := false
  tagFail : Bool := false
  ueFail : Bool := false
  corr : Nat := 0
  tagf : Nat := 0
  failAddr : Nat := 0
  temp : Nat := 0
  /-- Blocks of 4 KiB whose initialisation bit is set. -/
  init : List Nat := []
  /-- Lines of initialised blocks, as the controller decrypts them; unlisted zero (R393; log entry 9). -/
  lines : List (Nat × Bytes) := []
  /-- The line the last access returned. -/
  last : Bytes := []
  /-- Request issue: 0 full, 1 halved, 2 stalled (R480). -/
  heat : Nat := 0
deriving DecidableEq, Repr

/-- Tiles, controllers, programs and jobs. -/
structure Jobs where
  progs : List Prog := []
  nextProg : Nat := 1
  list : List Job := []
  order : Nat := 1
  tiles : List TileJ := List.replicate 8 {}
  mc : List MemCtl := List.replicate 8 {}
  /-- PROG_LOADs whose bytes are on their way: its command, PLEN and DIG. -/
  progLoad : List (HostCall × Nat × Bytes) := []
  /-- Job states as they stood at the last grid point while quantisation is in force (R490). -/
  gridView : List (Nat × JState) := []
deriving DecidableEq, Repr

end Sys2Proof.Machine
end

