-- ==== Sys2Proof/Machine/TypesLink.lean ====
section
/-! DEFINITION. The state blocks of address translation (chapter 19) and Linya links (20), and the queues of work that
waits for the PKE (06), for flash (08, 14) and for units (10). -/

namespace Sys2Proof.Machine

/-- State of a device-resident page (R417). -/
inductive PgState where
  | clean | dirty | transit | dying
deriving DecidableEq, Repr

/-- One residency entry: 64 KiB page number of the VA, external address, state, when it was asked for, and whether a
release waits (R434). -/
structure Resid where
  page : Nat
  ext : Nat
  st : PgState
  release : Bool
deriving DecidableEq, Repr

/-- One address-space tag (R414). -/
structure Ast where
  tag : Nat
  root : Nat
  die : Nat
  ring : Nat
  apidx : Nat
  mirror : Option (Nat × Nat)
  ie : Nat
  /-- MIGRATE_ON_FAULT ranges: first page and page count. -/
  advised : List (Nat × Nat)
  resid : List Resid
  cseq : Nat
  ctail : Nat
  /-- Completion records not yet written, oldest first: job, record, vector, and whether it waits for the grid of R490. -/
  held : List (Nat × Bytes × Nat)
  /-- Plaintext of the ring records written, by slot (R438). -/
  ringPt : List (Nat × Bytes)
deriving DecidableEq, Repr

/-- What a walk serves. -/
inductive WalkFor where
  | submit (job : Nat) (call : HostCall)
  | job (job : Nat)
  | prog (call : HostCall)
  | prefetch (call : HostCall)
  | back (page : Nat)
deriving DecidableEq, Repr

/-- What a page resolved to (R421, R423). -/
inductive PgRes where
  | host (addr : Nat)
  | dev (addr : Nat)
  | transit
  | fault (kind : Nat)
deriving DecidableEq, Repr

/-- A TXU walk (R421 to R429). -/
structure Walk where
  id : Nat
  tag : Nat
  for_ : WalkFor
  ie : Nat
  /-- All pages of the descriptor, with WRITE. -/
  pages : List (Nat × Bool)
  /-- Pages still to resolve. -/
  todo : List (Nat × Bool)
  done : List (Nat × Bool × PgRes)
  /-- The read outstanding: level and table address. -/
  level : Nat
  addr : Nat
  /-- An overlapping invalidation was accepted since the walk started (R429). -/
  overlap : Bool
deriving DecidableEq, Repr

/-- One fault entry (Table 19-4) without BATCH, SLOT and COUNT. -/
structure FEntry where
  ast : Nat
  kind : Nat
  unit : Nat
  flags : Nat
  va : Nat
  job : Nat
deriving DecidableEq, Repr

/-- An accepted invalidation that has not completed (R426 to R428). -/
structure Inval where
  id : Nat
  /-- Its lane, or the command that waits. -/
  lane : Option Nat
  call : Option (HostCall × Nat)
  tag : Nat
  all : Bool
  page : Nat
  count : Nat
  /-- Running jobs and walks it waits for. -/
  jobs : List Nat
  walks : List Nat
  pages : List Nat
  stale : Nat
deriving DecidableEq, Repr

/-- Address translation (chapter 19): fault batches, invalidation lanes, walks, cache. -/
structure Xlate where
  asts : List Ast := []
  walks : List Walk := []
  nextId : Nat := 1
  /-- TXU cache: tag, level, index (VA above the level), die and entries read; oldest first (R421). -/
  upper : List (Nat × Nat × Nat × Nat) := []
  l0 : List (Nat × Nat × List Nat) := []
  cur : List FEntry := []
  curNum : Nat := 1
  /-- Closed batches waiting for room, oldest first. -/
  waiting : List (Nat × List FEntry) := []
  /-- Entries of the fault ring as written, by index: what a resealed record of it holds (R285). -/
  frPt : List (Nat × Bytes) := []
  /-- Numbers of batches written to the ring. -/
  written : List Nat := []
  invs : List Inval := []
  invReq : List Nat := List.replicate 64 0
  invDone : List Nat := List.replicate 64 0
  /-- Migrations pending: tag and page. -/
  migr : List (Nat × Nat) := []
deriving DecidableEq, Repr

/-- LSTATE (R464). -/
inductive LState where
  | down | training | up | degraded | mappedOut
deriving DecidableEq, Repr

/-- LSTATE codes. -/
def LState.code : LState → Nat
  | .down => 0 | .training => 1 | .up => 2 | .degraded => 3 | .mappedOut => 4

/-- A flit that waits to enter a replay buffer: its head, its payload, and the job whose message it ends. -/
structure FlitOut where
  head : Bytes
  payload : Bytes
  job : Option Nat
deriving DecidableEq, Repr

/-- One Linya port (Table 20-7). -/
structure LPort where
  st : LState := .down
  lanes : Nat := 0
  attempts : Nat := 0
  uncorr : Nat := 0
  bounds : Bytes := [0, 40, 24, 24, 40, 100, 0, 0x0E, 24, 4, 8, 0]
  /-- NTAG of its hello in this training (R454). -/
  hello : Bytes := []
  /-- Flits sent and not acknowledged, oldest first. -/
  replay : List Bytes := []
  /-- Flits behind the replay buffer, oldest first (R449, R456). -/
  queue : List FlitOut := []
  txLseq : Nat := 0
  rxLseq : Nat := 0
  /-- Resends of the oldest flit without acknowledgement. -/
  resends : Nat := 0
  /-- t_hold runs (R456). -/
  holding : Bool := false
  /-- Payload of the message being assembled. -/
  asm : Bytes := []
  /-- Messages not fully acknowledged: job and LSEQ of the last flit. -/
  jobs : List (Nat × Nat) := []
deriving DecidableEq, Repr

/-- The jobs with a message not fully acknowledged on a port (R461). -/
def LPort.concerned (x : LPort) : List Nat := (x.jobs.map (fun j => j.1) ++ x.queue.filterMap (fun f => f.job)).eraseDups

/-- A port leaves UP with its flits held for t_hold (R456); one that is mapped out stays so. -/
def LPort.leave (x : LPort) : LPort :=
  if x.st == .mappedOut then x
  else { x with lanes := 0, attempts := 0, holding := x.holding || x.st == .up || x.st == .degraded, st := .down }

/-- One link key entry PD_LKE[n]: the same on every port die (R450). -/
structure LKey where
  valid : Bool := false
  swap : Bool := false
  peer : Nat := 0
  job : Nat := 0
  txseq : Nat := 0
  rxseq : Nat := 0
deriving DecidableEq, Repr

/-- One port die's Linya block. -/
structure LDie where
  noroute : Nat := 0
  plain : Nat := 0
  ports : List LPort := List.replicate 12 {}
  lke : List LKey := List.replicate 64 {}
deriving DecidableEq, Repr

/-- A pending step 1 of the key exchange (R458). -/
structure KeyxPend where
  job : Nat
  slot : Nat
  entry : Nat
  daddr : Nat
  peerLid : Bytes
  init : Bytes
deriving DecidableEq, Repr

/-- An installed job key: job, peer LID, entry, peer address. -/
structure KeyxInst where
  job : Nat
  peerLid : Bytes
  entry : Nat
deriving DecidableEq, Repr

/-- Links (chapter 20): device address, routes, port dies by ordinal, exchanges, link record (R462). -/
structure Links where
  daddr : Nat := 0
  /-- Route masks by destination, unlisted 0. -/
  routes : List (Nat × Nat) := []
  dies : List LDie := List.replicate 4 {}
  pend : List KeyxPend := []
  inst : List KeyxInst := []
  /-- Peer LIDs measured into slot 20 in this residence. -/
  measured : List Bytes := []
  /-- RAK and MAPOUT masks in warden SRAM. -/
  rak : Bytes := []
  mapout : List Nat := [0, 0, 0, 0]
  /-- The link record as flash holds it: RID of its roster, RAK, MAPOUT. -/
  flRec : Option (Bytes × Bytes × List Nat) := none
  /-- Messages delivered to tiles, newest first: job, CHAN, body. -/
  recv : List (Nat × Nat × Bytes) := []
  /-- The port a flow is pinned to, by destination: bit index 12d + p (R449). -/
  pins : List (Nat × Nat) := []
  /-- NTAG and DADDR last seen on a port in this boot, by bit index (R454). -/
  nbrs : List (Nat × Bytes × Nat) := []
deriving DecidableEq, Repr

/-- What an entry of the PKE queue is for (Table 6-6). -/
inductive Purp where
  | batch
  | clearReceipt
  | report (c : HostCall) (word : Nat) (serial : Nat) (form : Nat) (pq : Bool) (payload : Bytes) (bind : Option Bind)
  | enroll (c : HostCall) (word : Nat) (rec : TRec)
  | revoke (c : HostCall) (word : Nat) (idx : Nat) (same : Bool)
  | token (c : HostCall) (word : Nat) (op arg : Nat)
  | linkClear (c : HostCall) (word : Nat) (u p : Nat)
  | release (c : HostCall) (word : Nat) (handle : Nat) (t : Bytes) (wkey : Bytes) (set : Bool) (mdig : Bytes) (entries : List Bytes)
  | setAuth (c : HostCall) (word : Nat) (handle : Nat) (bundle : Bytes)
  | ephemeral (c : HostCall) (word : Nat) (ek : Bytes)
  | keyx (c : HostCall) (word : Nat) (step : Nat) (stage : Bytes)
  | updVerify (c : HostCall) (word : Nat) (left : List Nat)
  | spdm (tok step : Nat) (secured : Bool) (msg : Bytes)
  | setKey (word : Nat) (body : Bytes)
  | csr (word scheme : Nat) (body : Bytes)
  | rakSet (word : Nat) (key : Bytes)
  /-- Known-answer entries of R189: the signatures, then their verifies. -/
  | health (verify : Bool)
deriving DecidableEq, Repr

/-- One PKE job of an entry: OP, inputs, key store operand and destination with its use. -/
structure PkJobD where
  op : Nat
  ins : List Bytes
  kslot : Option Nat
  dslot : Option Nat
  use : Nat
deriving DecidableEq, Repr

/-- One entry of the queue (R152). -/
structure PqEntry where
  id : Nat
  cls : Nat
  passed : Nat
  purp : Purp
  jobs : List PkJobD
  left : List PkJobD
  results : List Bytes
  again : Bool
deriving DecidableEq, Repr

/-- The PKE queue of warden firmware (R152, Table 6-6): entries in arrival order, and the one that runs. -/
structure PkQ where
  wait : List PqEntry := []
  run : Option PqEntry := none
  next : Nat := 0
deriving DecidableEq, Repr

/-- A background flash write (R317). -/
inductive FJob where
  | header
  | record (idx : Nat) (r : TRec)
  | ring (r : ClearRcpt)
  | link
  | sector (entries : List LogEntry)
deriving DecidableEq, Repr

/-- A command that waits for a synchronous flash operation (R317, R184 to R192, R297). -/
inductive FSync where
  | enroll (c : HostCall) (word : Nat) (rec : TRec)
  | stage (c : HostCall) (word : Nat) (idx : Nat)
  | revoke (c : HostCall) (word : Nat) (idx : Nat)
  | updBegin (c : Option HostCall) (word target length : Nat)
  | updData (c : Option HostCall) (word off : Nat) (data : Bytes)
  | updEnd (c : Option HostCall) (word : Nat)
  | updActivate (c : Option HostCall) (word : Nat) (defer : Bool)
  | updCancel (c : Option HostCall) (word : Nat)
  | updVerified (c : HostCall) (word : Nat)
  | selector (slot : Nat) (state : Nat) (reset : Bool)
  | cert (word scheme : Nat) (chain : Bytes)
deriving DecidableEq, Repr

/-- Flash work: background queue in request order, whether its head runs, and the synchronous operation. -/
structure FlashQ where
  q : List FJob := []
  busy : Bool := false
  sync : Option FSync := none
  /-- Slot 6 was destroyed while a sealed write ran (chapter 14: the write fails). -/
  bad : Bool := false
deriving DecidableEq, Repr

/-- What waits for a unit's response (R224): the unit, opcode and the command or purpose. -/
structure UnitWait where
  u : Nat
  op : Nat
  call : Option (HostCall × Nat)
  arg : Nat
  /-- WD_TIME when the wait began: firmware stops waiting after t_unit (R269). -/
  since : Nat
deriving DecidableEq, Repr

end Sys2Proof.Machine
end

