-- ==== Sys2Proof/Machine/State.lean ====
section
/-! DEFINITION. The state of the block, its faults and refusals, and the state after reset. -/

namespace Sys2Proof.Machine

/-- What leaves the package: an interrupt to the warden core, a message to a host function, a write to host memory,
an object or packet on a bus. A trace of outputs, newest first; the model's own record (log entry 7). -/
inductive Out where
  | wirq (source : Nat)
  | msix (fn vector : Nat)
  | hostWrite (fn addr : Nat) (data : Bytes)
  | pldm (sensor value : Nat)
  | doe (data : Bytes)
  | mctp (data : Bytes)
  | ibi (mdb : Nat)
deriving DecidableEq, Repr

/-- The state of the block, one field per chapter's unit, and the queue of commands that wait. -/
structure State where
  pkg : Pkg := {}
  wd : Warden := {}
  units : List UnitS := List.replicate 18 {}
  sq : Seqr := {}
  otp : Otp := {}
  dg : Digest := {}
  ks : KeyStore := {}
  pk : Pke := {}
  ms : Meas := {}
  boot : Boot := {}
  upd : Update := {}
  fl : Flash := {}
  pw : Power := {}
  lg : Logs := {}
  mg : Mgmt := {}
  rk : Rack := {}
  hb : HostIf := {}
  mb : Mbx := {}
  px : List PortX := List.replicate 4 {}
  sp : Spill := {}
  sd : Spdm := {}
  idn : Attest := {}
  tn : Tenants := {}
  wk : Weights := {}
  rc : Rcpts := {}
  jb : Jobs := {}
  xl : Xlate := {}
  ln : Links := {}
  pq : PkQ := {}
  fq : FlashQ := {}
  uw : List UnitWait := []
  outs : List Out := []
  draws : Nat := 0
  pending : List Instr := []
deriving DecidableEq, Repr

/-- The machine right after a power-on warden reset (R65, R66, R41): the package in ROM with word 0x0000_0001, the
core pair still held, SRAM and PKE banks not yet zeroed, OTP not yet loaded; OTP cells unburned and flash erased. -/
def State.reset : State := {}

/-- No command of this block stops the machine with a fault: bus errors, ECODEs and status codes are results held in
State. The one constructor is raised by nothing; it stands so that the type has a name to show (safe). -/
inductive Fault where
  | none
deriving DecidableEq, Repr

/-- Why a command has no meaning. -/
inductive Refusal where
  /-- Rejected by name in Machine/Dispatch.lean: not modelled yet (safe). -/
  | notModelled (mnemonic : String)
  /-- A write to a register of a unit whose registers the spec does not give: AES engine, TRNG and DRBG, SPI flash
  controller (Table 3-2); raised by REGISTER_WRITE (safe). -/
  | registerOfUndescribedUnit
deriving DecidableEq, Repr

/-- The answer of a meaning. -/
abbrev Res := Host.Outcome State Fault Refusal

end Sys2Proof.Machine
end

