-- ==== Sys2Proof/Machine/Ops.lean ====
section
/-! DEFINITION. The named operations every family uses: what is fitted (R33), the state word (R52), interrupts and
host messages (R63, R211), log and trace (R498, R509), safety alarms (R474), key slots (R109, R125, R126). -/

namespace Sys2Proof.Machine

/-- The fused assembly as OT_ASM reads it (R27). -/
def asmOf (s : State) : Option Asm :=
  match s.otp.asm with
  | 1 => some .m8
  | 2 => some .m6
  | 3 => some .s0
  | _ => none

/-- ASM_S0 of Table 3-7: S0, or the code unreadable. -/
def isS0 (s : State) : Bool := asmOf s == some .s0 || asmOf s == none

/-- Site fill of Table 1-2; an unreadable code takes the S0 fill, the most restrictive (chapter 01). -/
def siteFill (a : Option Asm) (p : Nat) : SiteKind :=
  if p = 0 || p = 9 then .port
  else match a with
    | some .m8 => .stack
    | some .m6 => if p = 4 || p = 5 then .port else .stack
    | _ => if p = 4 || p = 5 then .port else .blank

/-- Unit type of R33. -/
def unitType (s : State) (u : Nat) : UnitType :=
  if u < 8 then .tile
  else if 18 ≤ u then .blank
  else match siteFill (asmOf s) (u - 8) with
    | .port => .port
    | .stack => .stack
    | .blank => .blank

/-- A TILE unit whose memory controller has a stack (Table 1-1, Table 1-2). -/
def hasStack (s : State) (t : Nat) : Bool := t < 8 && siteFill (asmOf s) (t + 1) == .stack

/-- The port dies of the assembly, by ordinal (R271 order of sites). -/
def portUnits (s : State) : List Nat := (List.range 18).filter (fun u => unitType s u == .port)

/-- The tiles whose controller has a stack. -/
def stackTiles (s : State) : List Nat := (List.range 8).filter (hasStack s)

/-- Unit of port-die ordinal `d`. -/
def unitOfOrd (s : State) (d : Nat) : Nat := nth 18 (portUnits s) d

/-- Ordinal of a port unit. -/
def ordOfUnit (s : State) (u : Nat) : Nat := (portUnits s).findIdx (· == u)

/-- Package rating of Table 1-3, W. -/
def rating (s : State) : Nat :=
  match asmOf s with
  | some .m8 => 2500
  | some .m6 => 2350
  | _ => 2150

/-- PCI device ID of Table 1-3; 0x4C12 when the code is unreadable. -/
def deviceId (s : State) : Nat :=
  match asmOf s with
  | some .m8 => 0x4C10
  | some .m6 => 0x4C11
  | _ => 0x4C12

/-- Warden firmware runs: WFW from a slot, or the recovery image, which is WFW 4.x too (00_scope.md). -/
def fwWfw (s : State) : Bool := s.wd.fw == .wfw || s.wd.fw == .recovery

/-- Unit `u`. -/
def unitS (s : State) (u : Nat) : UnitS := nth {} s.units u

/-- The rail of a unit is good. -/
def railGood (s : State) (u : Nat) : Bool :=
  match unitType s u with
  | .tile => s.pkg.tilePg
  | .port => s.pkg.portPg
  | .stack => s.pkg.memPg
  | .blank => false

/-- WD_IMB_STAT.UNIT_UP (R70): a TILE or PORT unit, its rail on and out of reset. -/
def unitUp (s : State) (u : Nat) : Bool :=
  (unitType s u == .tile || unitType s u == .port) && railGood s u && !(unitS s u).inReset

/-- Update unit `u`. -/
def modUnit (u : Nat) (f : UnitS → UnitS) (s : State) : State := { s with units := modNth u f s.units }

/-- The tenant epoch (R318). -/
def epochOf (s : State) : Nat := s.tn.ro.boots * 2 ^ 32 + s.tn.ro.res

/-- Key store slot `i`. -/
def slotS (s : State) (i : Nat) : Slot := nth {} s.ks.slots i

/-- A slot is EMPTY (R109, Table 5-3): nothing committed, pending or dead in it. -/
def Slot.empty (x : Slot) : Bool := x.origin == 0 && !x.pending && !x.dead

/-- KS_OCC: the mask of slots that are not EMPTY. -/
def occMask (s : State) : Nat :=
  (List.range 64).foldl (fun m i => if (slotS s i).empty then m else m + 2 ^ i) 0

/-- TKEYS: a slot marked in KS_TENANT is occupied (R115). -/
def tkeys (s : State) : Bool :=
  (List.range 64).any (fun i => bit s.ks.tenant i && !(slotS s i).empty)

/-- RAILS of Table 2-6: the tile and memory rails are up; on S0 the tile rail alone. -/
def railsUp (s : State) : Bool := s.pkg.tilePg && (s.pkg.memPg || isS0 s)

/-- The package state word (R52, Table 2-6). -/
def stateWord (s : State) : Nat :=
  s.pkg.st.code + 16 * s.pkg.mode.code + 64 * b2n (railsUp s) + 128 * b2n (tkeys s)
    + 256 * s.pkg.qcause + 65536 * s.pkg.seq.toNat

/-- Record an output. -/
def emit (o : Out) (s : State) : State := { s with outs := o :: s.outs }

/-- Raise warden interrupt source `n` (R63). -/
def irq (n : Nat) (s : State) : State := emit (.wirq n) s

/-- A core access ends in a bus error (R64). -/
def wdBusError (s : State) : State := { s with wd := { s.wd with last := .busError } }
/-- A core access ends well. -/
def wdOk (s : State) : State := { s with wd := { s.wd with last := .ok 0 } }
/-- A core store stalls until its memory has been zeroed (R67, R145). -/
def wdStall (a v : Nat) (s : State) : State := { s with wd := { s.wd with stall := some (a, v) } }

/-- A frame of an internal mailbox (Tables 10-1, 10-2, R224): never sealed, SESSION or STATUS 0. -/
def unitFrame (op tag gen : Nat) (p : Bytes) : Bytes :=
  toLe 2 op ++ toLe 1 0 ++ toLe 1 gen ++ toLe 4 tag ++ toLe 4 p.length ++ toLe 4 0 ++ (Config.sha384 p).take 16 ++ p

/-- Firmware sends the next command that waits for a unit (R224): one is outstanding, tags run from 1. -/
def unitPump (u : Nat) (s : State) : State :=
  let x := unitS s u
  match x.outQ with
  | [] => s
  | (op, p) :: r =>
    if x.cmdOut.isSome || !unitUp s u then s
    else
      let f := unitFrame op x.tag x.gen.toNat p
      modUnit u (fun x => { x with
        outQ := r, tag := x.tag + 1, inbox := f, doorbell := f.length, rung := true, cmdOut := some x.tag }) s

/-- Firmware has a command for a unit; none for one that is not up. -/
def unitCmd (u op : Nat) (p : Bytes) (s : State) : State :=
  if unitUp s u then unitPump u (modUnit u (fun x => { x with outQ := x.outQ ++ [(op, p)] }) s) else s

/-- The GEN and the PDIG of the frame in a unit's inbox are right (R224). -/
def inboxOk (s : State) (u : Nat) : Bool :=
  let b := (unitS s u).inbox
  field b 3 1 == (unitS s u).gen.toNat && slice b 16 16 == (Config.sha384 (slice b 32 (field b 8 4))).take 16

/-- A unit's core runs and its doorbell has been rung for a command of opcode `op`. -/
def unitRung (s : State) (u op : Nat) : Bool :=
  let x := unitS s u
  unitUp s u && x.go && !x.clkStop && !x.ctrlHeld && x.rung && field x.inbox 0 2 == op

/-- The payload of the command of opcode `op` that a unit takes from its inbox; none where it has none to take (R224). -/
def unitTakes (s : State) (u op : Nat) : Option Bytes :=
  let b := (unitS s u).inbox
  if unitRung s u op && inboxOk s u then some (slice b 32 (field b 8 4)) else none

/-- Draw `n` bytes of the TRNG or DRBG: the bytes, and the state after the draw. -/
def drawBytes (n : Nat) (s : State) : Bytes × State := (Config.draw s.draws n, { s with draws := s.draws + 1 })

/-- Host function of ordinal `d`. -/
def fnS (s : State) (d : Nat) : HostFn := nth {} s.hb.fns d

/-- Update host function `d`. -/
def modFn (d : Nat) (f : HostFn → HostFn) (s : State) : State :=
  { s with hb := { s.hb with fns := modNth d f s.hb.fns } }

/-- Send MSI-X vector `v` of function `d`: pending while masked or in D3hot (R204, R211), lost while the link is down. -/
def sendVec (d v : Nat) (s : State) : State :=
  let f := fnS s d
  if !f.up then s
  else if bit f.mask v || f.d3 then modFn d (fun f => { f with pba := setBit f.pba v true }) s
  else emit (.msix d v) s

/-- Set cause bit `b` of function `d`, then send vector `v` if HB_IRQ_EN allows it (R211). -/
def raiseHost (d b v : Nat) (s : State) : State :=
  let s := modFn d (fun f => { f with cause := setBit f.cause b true }) s
  if bit (fnS s d).irqEn b then sendVec d v s else s

/-- A PLDM event to the registered receiver (R525); none registered: nothing is sent. -/
def pldmEvent (sensor value : Nat) (s : State) : State :=
  let s := { s with mg := { s.mg with pollQ := s.mg.pollQ ++ [({ sensor := sensor, value := value, resends := 0 } : PldmEvent)] } }
  match s.mg.evtRcv with
  | some _ => emit (.pldm sensor value) { s with mg := { s.mg with events := s.mg.events ++ [({ sensor := sensor, value := value, resends := 0 } : PldmEvent)] } }
  | none => s

/-- Severity of an event code (Table 22-1). -/
def evSev (code : Nat) : Nat :=
  if code ∈ [0x0206, 0x0501] then 3
  else if code ∈ [0x0102, 0x0104, 0x0105, 0x0404, 0x0406, 0x0802] then 0
  else if code ∈ [0x0202, 0x0203, 0x0303, 0x0307, 0x0402, 0x0601, 0x0701, 0x0702, 0x0703] then 1
  else 2

/-- Whether an event code has tenant scope (Table 22-1). -/
def evTenant (code : Nat) : Bool := code ∈ [0x0306, 0x0307, 0x0405, 0x0701, 0x0702, 0x0703]

/-- The LOG vector at the threshold (R505): sent once until the next host LOG_READ of SCOPE 0. -/
def logVector (s : State) : State :=
  if s.lg.thresh ≠ 0 && !s.lg.vecSent && s.lg.thresh ≤ s.lg.pkgSeq - s.lg.next then
    raiseHost 0 2 10 { s with lg := { s.lg with vecSent := true } }
  else s

/-- Append an event to the ring of its scope (R498, R505), and to the persistent log's waiting entries (R507). -/
def logWith (flags code unit : Nat) (data : Bytes) (s : State) : State :=
  if evTenant code then
    let e : LogEntry := ⟨s.lg.tenSeq, s.wd.time, stateWord s, code, evSev code, flags + 1, unit, data⟩
    { s with lg := { s.lg with ten := lastN 512 (s.lg.ten ++ [e]), tenSeq := s.lg.tenSeq + 1 } }
  else
    let e : LogEntry := ⟨s.lg.pkgSeq, s.wd.time, stateWord s, code, evSev code, flags, unit, data⟩
    let keep := decide (2 ≤ evSev code) || code == 0x0102
    logVector { s with lg := { s.lg with
      pkg := lastN 1024 (s.lg.pkg ++ [e]), pkgSeq := s.lg.pkgSeq + 1,
      waiting := if keep then s.lg.waiting ++ [e] else s.lg.waiting } }

/-- Log an event of the running boot. -/
def logEvent (code unit : Nat) (data : Bytes) (s : State) : State := logWith 0 code unit data s

/-- Append a trace record if its point is enabled (R509). -/
def trace (point unit a b : Nat) (s : State) : State :=
  if bit s.lg.mask point then
    { s with lg := { s.lg with
      trace := lastN 2048 (s.lg.trace ++ [⟨s.lg.traceSeq, s.wd.time, point, unit, a, b⟩]),
      traceSeq := s.lg.traceSeq + 1 } }
  else s

/-- Port `p` of port-die ordinal `d`. -/
def lportS (s : State) (d p : Nat) : LPort := nth {} (nth ({} : LDie) s.ln.dies d).ports p
/-- Update a port die's Linya side. -/
def modLd (d : Nat) (f : LDie → LDie) (s : State) : State := { s with ln := { s.ln with dies := modNth d f s.ln.dies } }
/-- Update a port. -/
def modLport (d p : Nat) (f : LPort → LPort) (s : State) : State := modLd d (fun x => { x with ports := modNth p f x.ports }) s

/-- Trace a port's state (Table 22-5 LINK_STATE). -/
def traceLink (u p : Nat) (s : State) : State :=
  let d := ordOfUnit s u
  trace 14 u (p + 256 * (lportS s d p).st.code) (match lookupNat (12 * d + p) s.ln.nbrs with | some (_, a) => a | none => 0) s

/-- Every port of a die leaves UP as for a lost signal (R456, R501, R562). -/
def portsLeave (u : Nat) (s : State) : State :=
  (List.range 12).foldl (fun s p =>
    if (lportS s (ordOfUnit s u) p).st == .mappedOut || (lportS s (ordOfUnit s u) p).st == .down then s
    else traceLink u p (modLport (ordOfUnit s u) p LPort.leave s)) s

/-- Announce a changed state word (R56): vector 0 of every function, and the PLDM event of sensor 1. -/
def announce (s : State) : State :=
  pldmEvent 1 (s.pkg.st.code + 1) (raiseHost 3 0 0 (raiseHost 2 0 0 (raiseHost 1 0 0 (raiseHost 0 0 0 s))))

/-- Change STATE, and with it MODE to `m` (R41, R42, R52, R56): SEQ advances once, the word changes before the event, EV_STATE
is logged. -/
def setStateIn (m : Mode) (st : PState) (cause : Nat) (s : State) : State :=
  if s.pkg.st = st then s
  else
    let old := stateWord s
    let s := { s with pkg := { s.pkg with
      st := st, mode := m, qcause := if st = .quarantine then cause else 0, seq := s.pkg.seq + 1#16 } }
    logEvent 0x0102 0xFF (toLe 4 old ++ toLe 1 cause) (announce s)

/-- Change STATE alone. -/
def setState (st : PState) (cause : Nat) (s : State) : State := setStateIn s.pkg.mode st cause s

/-- Change MODE (R44, R45 step 4). -/
def setMode (m : Mode) (s : State) : State :=
  if s.pkg.mode = m then s
  else
    let old := stateWord s
    let s := { s with pkg := { s.pkg with mode := m, seq := s.pkg.seq + 1#16 } }
    logEvent 0x0102 0xFF (toLe 4 old ++ toLe 1 0) (announce s)

/-- KS_META word of a slot (Table 5-8). -/
def Slot.meta (x : Slot) : Nat :=
  x.use + 2 ^ 16 * x.origin + 2 ^ 19 * b2n x.lock + 2 ^ 20 * (x.len / 16 - 1) + 2 ^ 22 * b2n x.pending + 2 ^ 23 * b2n x.dead

/-- KCV of a slot (R126): CRC-32C over the 64 content bytes and the KS_META word. -/
def slotKcv (x : Slot) : Nat := crc32c (slice x.content 0 64 ++ toLe 4 x.meta)

/-- Put a slot. -/
def setSlot (i : Nat) (x : Slot) (s : State) : State :=
  { s with ks := { s.ks with slots := s.ks.slots.set i x } }

/-- Commit key bytes into slot `i` with origin, use and lock, and compute the KCV (R119, R120, R122). -/
def commitSlot (i : Nat) (key : Bytes) (origin use : Nat) (lock : Bool) (s : State) : State :=
  let x : Slot := { content := key, use := use, origin := origin, lock := lock, len := key.length }
  setSlot i { x with kcv := slotKcv x } s

/-- Use bits an origin allows (Table 5-3). -/
def originAllows (origin use : Nat) : Bool :=
  let all := 0x1F1F
  let ok := if origin = 1 then 2 else if origin = 5 then 3 else if origin = 6 then 5 else if origin = 0 then 0 else all
  use &&& ok == use

/-- A slot serves a use: committed, not DEAD, and its mask holds the bit (R118, Table 5-2). -/
def slotServes (x : Slot) (b : Nat) : Bool := x.origin != 0 && !x.pending && !x.dead && bit x.use b

/-- A job writes a sealed container. -/
def jobSealed : FJob → Bool
  | .header => true
  | .record _ _ => true
  | .link => true
  | _ => false

/-- A job counts as a roster or receipt-ring write (R317). -/
def jobRoster : FJob → Bool
  | .header => true
  | .record _ _ => true
  | .ring _ => true
  | _ => false

/-- A command's record write runs. -/
def syncRoster : FSync → Bool
  | .enroll .. => true
  | .stage .. => true
  | .revoke .. => true
  | _ => false

/-- Slot 6 is destroyed: a sealed write in progress fails (chapter 14, "When things coincide"). -/
def sealCut (s : State) : State :=
  let cut := (match s.fq.sync with | some f => syncRoster f | none => false) || (s.fq.busy && (match s.fq.q with | j :: _ => jobSealed j | [] => false))
  { s with fq := { s.fq with bad := s.fq.bad || cut } }

/-- End the open digest message with ERR (R117): nothing of the engine survives, and PENDING bytes of its destination are zeroed. -/
def dgEnd (ecode : Nat) (s : State) : State :=
  let d := s.dg
  let s := if d.phase ≠ .idle && d.dest && (slotS s d.dstslot).pending then setSlot d.dstslot {} s else s
  irq 6 { s with dg := { s.dg with phase := .idle, buf := [], absorbed := [], key := [], result := [], err := true, ecode := ecode } }

/-- Note a key-store cut in a running PKE job that reads or fills slot `i` (R146). -/
def pkCut (i : Nat) (s : State) : State :=
  match s.pk.run with
  | some r => if r.kslot = some i || r.dslot = some i then { s with pk := { s.pk with kscut := true } } else s
  | none => s

/-- A ZERO_ALL cuts whatever PKE job runs (R146). -/
def pkCutAll (s : State) : State := if s.pk.run.isSome then { s with pk := { s.pk with kscut := true } } else s

/-- ZERO of slot `i` (R125): content and metadata zero; DEAD when the read-back is nonzero, and a DEAD slot refuses every
write. An open message keyed by the slot ends with ECODE 5, and PATFB is set when the DRBG cannot supply the pattern. -/
def zeroSlot (i : Nat) (readBackBad : Bool) (s : State) : State :=
  if (slotS s i).dead then s else
  let d := s.dg
  let s := if d.phase ≠ .idle && 5 ≤ d.mode && (d.keyslot = i || (d.dual && d.keyslot2 = i)) then dgEnd 5 s else s
  let s := pkCut i s
  let s := if s.ks.drbgOk then { s with draws := s.draws + 1 } else { s with ks := { s.ks with patfb := true } }
  setSlot i { dead := readBackBad } s

/-- ZERO of several slots. -/
def zeroSlots (l : List Nat) (s : State) : State := l.foldl (fun s i => zeroSlot i false s) s

/-- ZERO_ALL by firmware: every slot, from slot 0 to slot 63 (R125). -/
def zeroAllSlots (s : State) : State := zeroSlots (List.range 64) (pkCutAll s)

/-- Set a NOTICE bit (R474): source 0 only if enabled. -/
def setNotice (b : Nat) (s : State) : State :=
  let s := { s with pw := { s.pw with notice := setBit s.pw.notice b true } }
  if bit s.pw.nen b then irq 0 s else s

/-- Set an ALARM bit (R474): source 0, the open digest message ends with ECODE 8, a running PKE job is tainted;
TJSD and SENSOR also pull THERMTRIP_N low (R486). EV_SAFETY_ALARM is logged. -/
def setAlarm (b : Nat) (s : State) : State :=
  let s := { s with pw := { s.pw with
    alarm := setBit s.pw.alarm b true, thermtripLow := s.pw.thermtripLow || decide (b < 8) || b == 20 } }
  let s := if s.dg.phase ≠ .idle then dgEnd 8 s else s
  let s := if s.pk.busy then { s with pk := { s.pk with alarm := true } } else s
  logEvent 0x0206 0xFF (toLe 4 s.pw.alarm) (irq 0 s)

/-- FAULT_N is low while the state word reads QUARANTINE or RETIRED, and during a warden reset (R486). -/
def faultNLow (s : State) : Bool :=
  s.pkg.st == .quarantine || s.pkg.st == .retired || (s.pkg.st == .rom && !s.wd.coreRun)

/-- Extend slot `n` with 48 bytes (R158): unchanged where the slot is locked; the extend is logged (R172). -/
def msExtend (n kind typ : Nat) (input : Bytes) (s : State) : State :=
  let x := nth {} s.ms.slots n
  if x.locked then logEvent 0x0106 0xFF (toLe 1 n ++ toLe 1 3) s
  else
    let y : MSlot := { x with val := Config.sha384 (x.val ++ slice input 0 48), count := min (x.count + 1) 0xFFFFFFFF }
    let e : MLog := ⟨n, kind, 0, typ, y.count, s.wd.time, slice input 0 48⟩
    let ms := { s.ms with slots := s.ms.slots.set n y }
    { s with ms := if n < 16 then (if ms.logP.length < 256 then { ms with logP := ms.logP ++ [e] } else { ms with lostP := true })
                   else if ms.logT.length < 768 then { ms with logT := ms.logT ++ [e] } else { ms with lostT := true } }

/-- Extend a slot with the SHA-384 of a record (R159). -/
def msRecord (n : Nat) (rec : Bytes) (s : State) : State := msExtend n 2 0 (Config.sha384 rec) s

/-- Lock a measurement slot. -/
def msLock (n : Nat) (s : State) : State :=
  { s with ms := { s.ms with slots := modNth n (fun x => { x with locked := true }) s.ms.slots } }

end Sys2Proof.Machine
end

