-- ==== Sys2Proof/Machine/Package.lean ====
section
/-! DEFINITION. The package as chapter 01 fixes it: site wiring and the fabric (R17), resources per assembly (R19), core
rates (R20, R35), SRAM levels (R21, R22, R36), the interleave of external memory (R30, R390) and crossings (R24, R34). -/

namespace Sys2Proof.Machine

/-- One row of Table 1-1: an HBM4 PHY with the tile whose memory controller drives it, a port die interface, and the
tile through which a port die at the site reaches the package. -/
structure Wiring where
  phy : Bool
  ctrl : Option Nat
  portIf : Bool
  tile : Nat
deriving DecidableEq, Repr

/-- Table 1-1. -/
def wiring (p : Nat) : Wiring :=
  if p = 0 then ⟨false, none, true, 0⟩ else if p = 9 then ⟨false, none, true, 7⟩ else ⟨true, some (p - 1), true, p - 1⟩

/-- What a site can hold: P0 and P9 only a port die or a blank (Table 1-1). -/
def canHold (p : Nat) : SiteKind → Bool
  | .stack => (wiring p).phy
  | .port => (wiring p).portIf
  | .blank => true

/-- The fabric joins two tiles directly: the ring T0 to T7 and the chords Tn to T(n+4). -/
def fabricLink (a b : Nat) : Bool := decide (a < 8) && decide (b < 8) && (decide ((a + 1) % 8 = b) || decide ((b + 1) % 8 = a) || decide ((a + 4) % 8 = b))

/-- Traffic of the port die of site `p` with tile `t` crosses the package fabric (R17). -/
def crossesFabric (p t : Nat) : Bool := (wiring p).tile != t

/-- External memory, raw GiB (Table 1-3). -/
def extRawGib (s : State) : Nat := 32 * (stackTiles s).length
/-- External memory, usable bytes: raw less the 1/16 tag carve-out (Table 1-3). -/
def extUsable (s : State) : Nat := (stackTiles s).length * 30 * 2 ^ 30
/-- External memory bandwidth, GB/s: 2,048 pins at 6.4 Gb/s for each stack (Table 1-3). -/
def extBandwidth (s : State) : Nat := (stackTiles s).length * (2048 * 64 / 80)
/-- Linya ports (Table 1-3). -/
def linyaPorts (s : State) : Nat := Config.kLinkPorts * (portUnits s).length
/-- DMA streams (Table 1-3). -/
def dmaStreams (s : State) : Nat := Config.kDmaStreams * (portUnits s).length

/-- MAC formats of Table 1-4; the tiles have no other (R23). -/
inductive MacFormat where
  | int4 | int8 | fp8 | bf16
deriving DecidableEq, Repr

/-- MAC per core per cycle (Table 1-4). -/
def MacFormat.rate : MacFormat → Nat
  | .int4 => 128 | .int8 => 64 | .fp8 => 32 | .bf16 => 16

/-- Bits of the accumulator (Table 17-1): a 32-bit integer, or 64-bit fixed point under the step's block exponent. -/
def MacFormat.accBits : MacFormat → Nat
  | .int4 => 32 | .int8 => 32 | .fp8 => 64 | .bf16 => 64

/-- One sum of the accumulator, which saturates; true where it did (R366, OVF). -/
def accAdd (bits : Nat) (acc p : Int) : Int × Bool :=
  let n := acc + p
  if n < -(2 ^ (bits - 1)) then (-(2 ^ (bits - 1)), true) else if 2 ^ (bits - 1) ≤ n then (2 ^ (bits - 1) - 1, true) else (n, false)

/-- A step's accumulation of its products, with OVF (R366). -/
def accRun (bits : Nat) (ps : List Int) : Int × Bool :=
  ps.foldl (fun a p => let r := accAdd bits a.1 p; (r.1, a.2 || r.2)) (0, false)

/-- A product `m` times 2 to the `e` aligned to the block exponent `b`: bits below it are truncated (R366; toward minus infinity,
as two's complement bits are cut; DEDUCED, log entry 92). -/
def accAlign (m e b : Int) : Int := if b ≤ e then m * 2 ^ (e - b).toNat else m / 2 ^ (b - e).toNat

/-- The residue channel of a MAC array (R369): the residue predicted from the operands, and that of the exact accumulator. -/
def residueOf (n : Int) : Int := n % 3
/-- Predicted from the operand pairs. -/
def residuePredicted (ops : List (Int × Int)) : Int := ops.foldl (fun r p => (r + residueOf p.1 * residueOf p.2) % 3) 0
/-- A step's check passes: the exact accumulator has the predicted residue. -/
def residuePass (ops : List (Int × Int)) (acc : Int) : Bool := residueOf acc == residuePredicted ops

/-- Peak operations per second of one tile at clock `mhz`, in millions (R35): 40,960 cores, two operations a MAC. -/
def tilePeak (f : MacFormat) (mhz : Nat) : Nat := f.rate * 40960 * 2 * mhz
/-- Package peak, the sum over tiles at their clocks in MHz (R35). -/
def packagePeak (f : MacFormat) (clk : Nat → Nat) : Nat := (List.range Config.kTiles).foldl (fun n t => n + tilePeak f (clk t)) 0

/-- SRAM levels of Table 1-5. -/
inductive SramLevel where
  | scratch | cluster | base
deriving DecidableEq, Repr

/-- Bytes of one unit of a level: a core, a cluster, a base die. -/
def SramLevel.unitBytes : SramLevel → Nat
  | .scratch => 4096 | .cluster => 2 ^ 20 | .base => 2 ^ 30
/-- Units of a level in one tile. -/
def SramLevel.perTile : SramLevel → Nat
  | .scratch => 40960 | .cluster => 160 | .base => 1
/-- Bytes of a level in one tile. -/
def SramLevel.tileBytes (l : SramLevel) : Nat := l.unitBytes * l.perTile

/-- Reserved in each base die for activations, job queues and descriptors. -/
def baseReserve : Nat := 96 * 2 ^ 20
/-- Pages of a tile's base SRAM weight area (R400). -/
def basePages : Nat := (SramLevel.base.tileBytes - baseReserve) / Config.kWpkPage
/-- Pages of a tile's cluster store (R400). -/
def clusterPages : Nat := SramLevel.cluster.tileBytes / Config.kWpkPage
/-- C_S0 of R36, bytes. -/
def capS0 : Nat := Config.kTiles * (basePages + clusterPages) * Config.kWpkPage

/-- Where an external address lies (R30, R390): the tile whose controller holds it, and the address in its stack. -/
def extPlace (s : State) (a : Nat) : Nat × Nat :=
  let n := (stackTiles s).length
  (nth 8 (stackTiles s) (a / 4096 % n), a / 4096 / n * 4096 + a % 4096)

/-- Cycle ranges of a crossing (Table 1-8). -/
structure Crossing where
  sMin : Nat
  sMax : Nat
  dMin : Nat
  dMax : Nat
deriving DecidableEq, Repr

/-- A dual-clock FIFO. -/
def crossFifo : Crossing := ⟨1, 2, 2, 3⟩
/-- A two-flop synchroniser: safety alarms and comparator trips. -/
def crossSync : Crossing := ⟨0, 1, 2, 3⟩
/-- t_x of R34 at its worst, ps, for clocks in MHz. -/
def crossWorstPs (c : Crossing) (src dst : Nat) : Nat := c.sMax * 1000000 / src + c.dMax * 1000000 / dst
/-- The best case of R34. -/
def crossBestPs (c : Crossing) (src dst : Nat) : Nat := c.sMin * 1000000 / src + c.dMin * 1000000 / dst

end Sys2Proof.Machine
end

