-- ==== Sys2Proof/Machine/Curve.lean ====
section
/-! DEFINITION. Modular arithmetic and NIST P-384 as the PKE computes them (R134, R148). The curve's constants are those of
SP 800-186, which R134 names; the manual does not print them (PRESUMED, log entry 76). -/

namespace Sys2Proof.Machine

/-- `b ^ e mod m` by squaring over the low `k` bits of `e`. -/
def powMod (m : Nat) : Nat → Nat → Nat → Nat
  | 0, _, _ => 1 % m
  | k + 1, b, e => if e % 2 = 1 then b * powMod m k (b * b % m) (e / 2) % m else powMod m k (b * b % m) (e / 2)

/-- The inverse modulo a prime of at most `k` bits: `a ^ (p - 2)`. -/
def invMod (k p a : Nat) : Nat := powMod p k (a % p) (p - 2)

/-- Field prime of P-384. -/
def ecP : Nat := 2 ^ 384 - 2 ^ 128 - 2 ^ 96 + 2 ^ 32 - 1
/-- Order of the base point. -/
def ecN : Nat := 0xFFFFFFFFFFFFFFFFFFFFFFFFFFFFFFFFFFFFFFFFFFFFFFFFC7634D81F4372DDF581A0DB248B0A77AECEC196ACCC52973
/-- Coefficient b; a is -3. -/
def ecB : Nat := 0xB3312FA7E23EE7E4988E056BE3F82D19181D9C6EFE8141120314088F5013875AC656398D8A2ED19D2A85C8EDD3EC2AEF
/-- Base point. -/
def ecG : Nat × Nat :=
  (0xAA87CA22BE8B05378EB1C71EF320AD746E1D3B628BA79B9859F741E082542A385502F25DBF55296C3A545E3872760AB7,
   0x3617DE4A96262C6F5D9E98BF9292DC29F8F41DBD289A147CE9DA3113B5F0B8C00A60B1CE1D7E819D7A431D7C90EA0E5F)

/-- A point lies on the curve: y² = x³ - 3x + b. -/
def ecOn (q : Nat × Nat) : Bool := q.2 * q.2 % ecP == (q.1 * q.1 * q.1 + (ecP - 3) * q.1 + ecB) % ecP

/-- The chord or tangent through two points with slope `l`. -/
def ecThird (l : Nat) (a b : Nat × Nat) : Nat × Nat :=
  let x := (l * l + 2 * ecP - a.1 - b.1) % ecP
  (x, (l * (a.1 + ecP - x) + ecP - a.2) % ecP)

/-- Sum of two points; none is the identity. -/
def ecAdd : Option (Nat × Nat) → Option (Nat × Nat) → Option (Nat × Nat)
  | none, b => b
  | a, none => a
  | some a, some b =>
    if a.1 = b.1 then
      (if (a.2 + b.2) % ecP = 0 then none
       else some (ecThird ((3 * a.1 * a.1 + ecP - 3) * invMod 384 ecP (2 * a.2) % ecP) a b))
    else some (ecThird ((b.2 + ecP - a.2) * invMod 384 ecP (b.1 + ecP - a.1) % ecP) a b)

/-- `k · q` over the low `n` bits of `k`. -/
def ecMul : Nat → Nat → Option (Nat × Nat) → Option (Nat × Nat)
  | 0, _, _ => none
  | n + 1, k, q => if k % 2 = 1 then ecAdd q (ecMul n (k / 2) (ecAdd q q)) else ecMul n (k / 2) (ecAdd q q)

/-- A P-384 value of the engine: 6 little-endian words (R137). -/
def ecInt (b : Bytes) : Nat := le (b.take 48)
/-- A point of the engine: x, then y (R137). -/
def ecPoint (b : Bytes) : Nat × Nat := (ecInt b, ecInt (b.drop 48))
/-- The scalar of a 64-byte private input, c read big-endian (R137, R141). -/
def ecScalar (c : Bytes) : Nat := le (c.take 64).reverse % (ecN - 1) + 1

/-- A 48-byte big-endian integer of a message or object as engine words, and back. -/
def ecWire (b : Bytes) : Bytes := (slice b 0 48).reverse
/-- A big-endian pair of such integers, a point or r ‖ s, as engine words, and back. -/
def ecWire2 (b : Bytes) : Bytes := ecWire b ++ ecWire (b.drop 48)

/-- ECDSA (FIPS 186-5) with nonce `k`: r and s over the digest integer `e` under `d`. -/
def ecdsaSign (k e d : Nat) : Nat × Nat :=
  let r := match ecMul 384 k (some ecG) with | some q => q.1 % ecN | none => 0
  (r, invMod 384 ecN k * (e + r * d) % ecN)

/-- ECDSA verification of r, s over `e` under the point `q`. -/
def ecdsaVerify (e : Nat) (q : Nat × Nat) (r s : Nat) : Bool :=
  let w := invMod 384 ecN s
  let x := ecAdd (ecMul 384 (e * w % ecN) (some ecG)) (ecMul 384 (r * w % ecN) (some q))
  r != 0 && s != 0 && (match x with | some v => v.1 % ecN == r | none => false)

end Sys2Proof.Machine
end

