-- ==== Sys2Proof/Machine/Otp.lean ====
section
/-! DEFINITION. The OTP array and its controller (chapter 04): decoding the groups, the auto-load, the programming
commands and what their pulses leave. -/

namespace Sys2Proof.Machine

/-- Cells of a row that read 1 at nominal margin. -/
def nomRow (o : Otp) (r : Nat) : Nat := ((lookupNat r o.rows).getD (0, 0)).1
/-- Cells of a row that read 1 at strict margin. -/
def strRow (o : Otp) (r : Nat) : Nat := ((lookupNat r o.rows).getD (0, 0)).2

/-- Burn cells of a row: `nom` now read 1 at nominal, `str` of them at strict. A burned cell stays burned (R86). -/
def burnRow (r nom str : Nat) (o : Otp) : Otp :=
  let n := nomRow o r ||| nom
  if n = 0 then o else { o with rows := putKey r (n, (strRow o r ||| str) &&& n) o.rows }

/-- TMR groups: ID, base row b, data words n (Table 4-1), in the order ROOT, CONFIG, LIMITS, KEYHASH. -/
def tmrGroups : List (Nat × Nat × Nat) := [(1, 32, 25), (2, 120, 3), (3, 136, 1), (4, 152, 48)]

/-- Bits that at least two of three rows read 1. -/
def vote (a b c : Nat) : Nat := (a &&& b) ||| (a &&& c) ||| (b &&& c)

/-- Voted data word `w` of a TMR group (R87, R89). -/
def tmrWord (o : Otp) (g : Nat × Nat × Nat) (w : Nat) : Nat :=
  vote (nomRow o (g.2.1 + w)) (nomRow o (g.2.1 + g.2.2 + w)) (nomRow o (g.2.1 + 2 * g.2.2 + w))

/-- Row of digest word `j` of copy `k`. -/
def digRow (g : Nat × Nat × Nat) (k j : Nat) : Nat := g.2.1 + 3 * g.2.2 + 2 * k + j

/-- The six digest rows of a group. -/
def digRows (g : Nat × Nat × Nat) : List Nat := [digRow g 0 0, digRow g 0 1, digRow g 1 0, digRow g 1 1, digRow g 2 0, digRow g 2 1]

/-- Voted digest, 8 bytes (R88). -/
def tmrDigest (o : Otp) (g : Nat × Nat × Nat) : Bytes :=
  toLe 4 (vote (nomRow o (digRow g 0 0)) (nomRow o (digRow g 1 0)) (nomRow o (digRow g 2 0)))
  ++ toLe 4 (vote (nomRow o (digRow g 0 1)) (nomRow o (digRow g 1 1)) (nomRow o (digRow g 2 1)))

/-- Voted data words as bytes. -/
def tmrBytes (o : Otp) (g : Nat × Nat × Nat) : Bytes := (List.range g.2.2).flatMap (fun w => toLe 4 (tmrWord o g w))

/-- Patterns of the life-cycle markers (R91). -/
def lcPattern (m : Nat) : Nat := nth 0 [0x3C5A, 0x96E1, 0xA5C3, 0x6B94] m

/-- A marker's cells after combining both copies (R89). -/
def lcMarker (o : Otp) (m : Nat) : Nat := nomRow o m ||| nomRow o (4 + m)

/-- A marker is set: a cell of its bits [15:0] counts as burned (R91). DESIGN CHOICE (log entry 71): the spec does not say
whether a burned cell outside the pattern sets a marker; here it does, so a stray cell in the SCRAP row reads SCRAP. -/
def lcSet (o : Otp) (m : Nat) : Bool := lcMarker o m % 65536 != 0

/-- The LC group's structure check (R97). -/
def lcFails (o : Otp) : Bool :=
  (List.range 4).any (fun m => lcMarker o m &&& lcPattern m != lcMarker o m)
    || (lcSet o 1 && !lcSet o 0) || (lcSet o 2 && !lcSet o 1)

/-- OT_LC.STATE (R91): first of SCRAP, UNREADABLE, RETURN, MISSION, FACTORY, BLANK that holds. -/
def lcDecode (o : Otp) : Nat :=
  if lcSet o 3 then 4 else if lcFails o then 7 else if lcSet o 2 then 3 else if lcSet o 1 then 2 else if lcSet o 0 then 1 else 0

/-- A marker reads PARTIAL: a nonempty proper subset of its pattern is burned (R91). -/
def lcPartial (o : Otp) (m : Nat) : Bool :=
  let c := lcMarker o m % 65536
  c != 0 && c != lcPattern m && c &&& lcPattern m == c

/-- OT_LC.PARTIAL. -/
def lcPartials (o : Otp) : Nat := (List.range 4).foldl (fun p m => p + 2 ^ m * b2n (lcPartial o m)) 0

/-- The 64 cells of counter `c`, copies combined. -/
def svnCells (o : Otp) (c : Nat) : Nat :=
  (nomRow o (8 + 4 * c) ||| nomRow o (10 + 4 * c)) + 2 ^ 32 * (nomRow o (9 + 4 * c) ||| nomRow o (11 + 4 * c))

/-- Consecutive set bits from bit 0, at most `n`. -/
def runLength : Nat → Nat → Nat
  | 0, _ => 0
  | n + 1, m => if m % 2 = 1 then runLength n (m / 2) + 1 else 0

/-- Value of a counter (R96). -/
def svnValue (o : Otp) (c : Nat) : Nat := runLength Config.kThermoCells (svnCells o c)

/-- The SVN group's structure check: every counter's burned cells form a prefix. -/
def svnFails (o : Otp) : Bool := (List.range 4).any (fun c => svnCells o c != 2 ^ svnValue o c - 1)

/-- REVOKE cells combined. -/
def revokeCells (o : Otp) : Nat := nomRow o 24 ||| nomRow o 25

/-- The REVOKE group's structure check. -/
def revokeFails (o : Otp) : Bool :=
  revokeCells o / 65536 != 0 || (List.range 6).any (fun i => nomRow o (26 + i) != 0)

/-- Revoked slots: any of the four cells counts as burned (R96). -/
def revokeMask (o : Otp) : Nat :=
  (List.range 4).foldl (fun p k => if bits (revokeCells o) (4 * k) 4 != 0 then p + 2 ^ k else p) 0

/-- ASM field of ROOT word 24. -/
def asmField (o : Otp) : Nat := tmrWord o (1, 32, 25) 24 % 16

/-- LIMITS word (Table 4-2). -/
def limitsWord (o : Otp) : Nat := tmrWord o (3, 136, 1) 0

/-- The check of a TMR group (R97): code of OT_GRPSTAT. In BLANK no digest is computed: a group whose digest is burned
then reads OK (DESIGN CHOICE, log entry 71). -/
def tmrStatus (o : Otp) (blank : Bool) (g : Nat × Nat × Nat) : Nat :=
  let unburned := (digRows g).all (fun r => nomRow o r == 0)
  let extra := (g.1 = 1 && !(1 ≤ asmField o && asmField o ≤ 3))
    || (g.1 = 3 && bits (limitsWord o) 8 8 ≤ bits (limitsWord o) 0 8)
  if unburned then (if blank then 3 else 2)
  else if extra then 2
  else if blank then 0
  else if tmrDigest o g == (Config.sha384 (toLe 1 g.1 ++ tmrBytes o g)).take 8 then 0 else 2

/-- TMR bits of a group whose three copies disagree. -/
def tmrDisagree (o : Otp) (g : Nat × Nat × Nat) : Nat :=
  let d (a b c : Nat) := popCount 32 ((nomRow o a ^^^ nomRow o b) ||| (nomRow o a ^^^ nomRow o c))
  (List.range g.2.2).foldl (fun n w => n + d (g.2.1 + w) (g.2.1 + g.2.2 + w) (g.2.1 + 2 * g.2.2 + w)) 0
    + (List.range 2).foldl (fun n j => n + d (digRow g 0 j) (digRow g 1 j) (digRow g 2 j)) 0

/-- Effective hard limits (R99, R100): TJ_THROTTLE, TJ_SHUTDOWN, VCORE_MAX. An UNWRITTEN group takes the floors of a
failed one (DESIGN CHOICE, log entry 71). -/
def effLimits (o : Otp) (status : Nat) : Nat × Nat × Nat :=
  if status ≤ 1 then
    (min (bits (limitsWord o) 0 8) Config.kTjThrottleC, min (bits (limitsWord o) 8 8) Config.kTjShutdownC,
     min (bits (limitsWord o) 16 12) Config.kVcoreMaxMv)
  else (Config.kTjRomC, Config.kTjThrottleC, Config.kVcoreRomMv)

/-- Root selector choice (R92, Table 4-3; none where LC or ROOT failed, R100). -/
def rootChoice (lc rootStatus : Nat) : Nat :=
  if rootStatus = 2 then 0 else if lc = 1 then 1 else if lc = 2 then 2 else if lc = 3 then 3 else 0

/-- The auto-load (R97) over the array. -/
def autoLoad (o : Otp) : Otp :=
  let lc := lcDecode o
  let blank := lc == 0
  let st := tmrGroups.map (tmrStatus o blank)
  let lim := effLimits o (nth 0 st 2)
  { o with
    busy := false, loaded := true, lc := lc, partials := lcPartials o,
    root := rootChoice lc (nth 0 st 0), disabled := false,
    grp := [if lc = 7 || lcFails o then 2 else 0, if svnFails o then 2 else 0, if revokeFails o then 2 else 0] ++ st,
    svn := if svnFails o then List.replicate 4 Config.kThermoCells else (List.range 4).map (svnValue o),
    revoke := if revokeFails o then 15 else revokeMask o,
    asm := if nth 0 st 0 = 2 then 15 else asmField o,
    tjt := lim.1, tjs := lim.2.1, vcm := lim.2.2,
    tmrdis := min (tmrGroups.foldl (fun n g => n + tmrDisagree o g) 0) 65535 }

/-- OT_LIMITS layout. -/
def limitsReg (tjt tjs vcm : Nat) : Nat := tjt + 2 ^ 8 * tjs + 2 ^ 16 * vcm

/-- MFG_ID, 8 bytes; zero where CONFIG failed (R100). -/
def mfgId (s : State) : Bytes :=
  if nth 0 s.otp.grp 4 = 2 then List.replicate 8 0#8
  else toLe 4 (tmrWord s.otp (2, 120, 3) 1) ++ toLe 4 (tmrWord s.otp (2, 120, 3) 2)

/-- VKH[k] of the KEYHASH group, 48 bytes (Table 4-2). -/
def vkh (s : State) (k : Nat) : Bytes := (List.range 12).flatMap (fun i => toLe 4 (tmrWord s.otp (4, 152, 48) (12 * k + i)))

/-- Vendor key slot `k` is usable (R157). -/
def vkeyUsable (s : State) (k : Nat) : Bool :=
  k < 4 && nth 2 s.otp.grp 6 ≤ 1 && !allZero (vkh s k) && !bit s.otp.revoke k

/-- A row that holds ROOT words 0 to 23 in some copy (R90). -/
def secretRow (r : Nat) : Bool := 32 ≤ r && r < 107 && (r - 32) % 25 < 24

/-- The TMR group whose rows (data and digest) include a row. -/
def groupOfRow (r : Nat) : Option (Nat × Nat × Nat) := tmrGroups.find? (fun g => decide (g.2.1 ≤ r) && decide (r < g.2.1 + 3 * g.2.2 + 6))

/-- OT_GRPSTAT index of a row's group. -/
def grpIndex (r : Nat) : Nat :=
  if r < 8 then 0 else if r < 24 then 1 else if r < 32 then 2
  else match groupOfRow r with
    | some g => 2 + g.1
    | none => 7

/-- A TMR group is locked: its digest rows hold a burned cell in any copy (R95). -/
def groupLocked (o : Otp) (g : Nat × Nat × Nat) : Bool := (digRows g).any (fun r => nomRow o r != 0)

/-- Cells of a mask that do not yet read 1 at strict margin. -/
def needs (o : Otp) (r mask : Nat) : Nat := mask &&& (mask ^^^ (mask &&& strRow o r))

/-- Drop rows with nothing to burn. -/
def targetsOf (l : List (Nat × Nat)) : List (Nat × Nat) := l.filter (fun p => p.2 != 0)

/-- Rows and cells of INCR_TO (R96): cells value to t − 1 ascending, copy A before copy B. -/
def incrTargets (c value t : Nat) : List (Nat × Nat) :=
  (List.range (t - value)).flatMap (fun i =>
    let k := value + i
    [(8 + 4 * c + k / 32, 2 ^ (k % 32)), (10 + 4 * c + k / 32, 2 ^ (k % 32))])

/-- Rows of the 72 ROOT secret rows, copy by copy (R101). -/
def rootSecretRows : List Nat := (List.range 3).flatMap (fun k => (List.range 24).map (fun w => 32 + 25 * k + w))

/-- Cells REPAIR re-pulses (R98): DUP-OR cells that count as burned, the unburned cells of a PARTIAL marker, and TMR bits
of a group whose digest passed, so none in BLANK. -/
def repairTargets (o : Otp) : List (Nat × Nat) :=
  let dup (a b : Nat) : List (Nat × Nat) :=
    let m := nomRow o a ||| nomRow o b
    [(a, needs o a m), (b, needs o b m)]
  let marker (m : Nat) : List (Nat × Nat) :=
    let all := if lcPartial o m then lcPattern m else 0
    [(m, needs o m (all ||| (lcMarker o m))), (4 + m, needs o (4 + m) (all ||| (lcMarker o m)))]
  let tmr (i : Nat) (g : Nat × Nat × Nat) : List (Nat × Nat) :=
    if o.lc ≠ 0 && nth 2 o.grp (3 + i) ≤ 1 then
      (List.range g.2.2).flatMap (fun w =>
        let v := tmrWord o g w
        (List.range 3).map (fun k => (g.2.1 + k * g.2.2 + w, needs o (g.2.1 + k * g.2.2 + w) v)))
      ++ (List.range 2).flatMap (fun j =>
        let v := vote (nomRow o (digRow g 0 j)) (nomRow o (digRow g 1 j)) (nomRow o (digRow g 2 j))
        (List.range 3).map (fun k => (digRow g k j, needs o (digRow g k j) v)))
    else []
  targetsOf ((List.range 4).flatMap marker
    ++ (List.range 4).flatMap (fun c => dup (8 + 4 * c) (10 + 4 * c) ++ dup (9 + 4 * c) (11 + 4 * c))
    ++ dup 24 25 ++ (List.range 4).flatMap (fun i => tmr i (nth (0, 0, 0) tmrGroups i)))

/-- Update the OTP block. -/
def modOtp (f : Otp → Otp) (s : State) : State := { s with otp := f s.otp }

/-- A command is accepted by an idle controller: the results of the last one are cleared (Table 4-8). -/
def otAccept (s : State) : State :=
  modOtp (fun o => { o with done := false, err := false, weak := false, ecode := 0, pulses := 0 }) s

/-- A command ends with DONE or with ERR and an ECODE, raising source 11 (R104). ERR and ECODE 1 of a command written
meanwhile stand until cleared. -/
def otEnd (e : Nat) (s : State) : State :=
  irq 11 (modOtp (fun o => if e = 0 then { o with done := true, job := none, busy := false }
    else { o with err := true, ecode := e, job := none, busy := false }) s)

/-- A command written while BUSY ends with ECODE 1 and leaves the running operation alone (R104). -/
def otBusy (s : State) : State := irq 11 (modOtp (fun o => { o with err := true, ecode := 1 }) s)

/-- Begin a programming command: nothing to burn ends at once; outside the programming window ECODE 7 (R94). -/
def otBegin (cmd sel : Nat) (ts : List (Nat × Nat)) (s : State) : State :=
  if ts.isEmpty then otEnd 0 s
  else if !s.pkg.progWin then otEnd 7 s
  else modOtp (fun o => { o with busy := true, job := some ⟨cmd, sel, ts⟩ }) s

/-- READ (R90): the row at the chosen margin; zero for secret rows. -/
def otRead (s : State) : State :=
  if s.otp.busy then otBusy s
  else otEnd 0 (modOtp (fun o => { o with rdata := if secretRow o.addr then 0 else if o.margin then strRow o o.addr else nomRow o o.addr }) (otAccept s))

/-- PROG of a row of group `g` is refused (R95). DESIGN CHOICE (log entry 72): R95 read word for word would also shut the
digest rows that step 3 of R103 still has to burn, so a digest row stays open while no cell of it is burned. -/
def progLocked (o : Otp) (g : Nat × Nat × Nat) (r : Nat) : Bool :=
  groupLocked o g && !(decide (g.2.1 + 3 * g.2.2 ≤ r) && nomRow o r == 0)

/-- PROG (R95). -/
def otProg (s : State) : State :=
  let o := s.otp
  if o.busy then otBusy s else
  let s := otAccept s
  if o.lc ≠ 0 then otEnd 2 s
  else match groupOfRow o.addr with
    | none => otEnd 3 s
    | some g => if progLocked o g o.addr then otEnd 3 s else otBegin 2 0 (targetsOf [(o.addr, needs o o.addr o.wdata)]) s

/-- GEN (R95): a DRBG word into the three copies of ROOT word OT_ADDR[4:0]; the core never sees the word. -/
def otGen (s : State) : State :=
  let o := s.otp
  let w := o.addr % 32
  if o.busy then otBusy s else
  let s := otAccept s
  if o.lc ≠ 0 then otEnd 2 s
  else if 16 ≤ w || groupLocked o (1, 32, 25) then otEnd 3 s
  else
    let (d, s) := drawBytes 4 s
    otBegin 3 0 (targetsOf ((List.range 3).map (fun k => (32 + 25 * k + w, needs o (32 + 25 * k + w) (le d))))) s

/-- INCR_TO (R96); a counter above 3 is an illegal command (DESIGN CHOICE, log entry 71). -/
def otIncr (c t : Nat) (s : State) : State :=
  let o := s.otp
  if o.busy then otBusy s else
  let s := otAccept s
  if !(1 ≤ o.lc && o.lc ≤ 3) then otEnd 2 s
  else if 3 < c then otEnd 9 s
  else if Config.kThermoCells < t then otEnd 4 s
  else otBegin 4 c (incrTargets c (svnValue o c) t) s

/-- REVOKE (R96); a slot above 3 is an illegal command (DESIGN CHOICE, log entry 71). -/
def otRevoke (k : Nat) (s : State) : State :=
  let o := s.otp
  if o.busy then otBusy s else
  let s := otAccept s
  if !(1 ≤ o.lc && o.lc ≤ 3) then otEnd 2 s
  else if 3 < k then otEnd 9 s
  else otBegin 5 k (targetsOf [(24, needs o 24 (15 * 16 ^ k)), (25, needs o 25 (15 * 16 ^ k))]) s

/-- Transitions of Table 4-5. -/
def lcAllowed (o : Otp) (sel : Nat) : Bool :=
  if sel = 1 then o.lc == 0 && tmrGroups.all (fun g =>
      (List.range 3).all (fun k => nomRow o (digRow g k 0) != 0 || nomRow o (digRow g k 1) != 0))
  else if sel = 2 then o.lc == 1
  else if sel = 3 then o.lc == 2
  else sel == 4

/-- Rows and cells of LC_ADVANCE (R101): marker copy A, copy B, then for SCRAP every cell of the ROOT rows, each pulsed
unless it reads 1 at strict margin (R93). A repeat in SCRAP burns only what does not yet count as burned. -/
def lcTargets (o : Otp) (sel : Nat) : List (Nat × Nat) :=
  let m := sel - 1
  let marker := if o.lc = 4 then (lcPattern m ^^^ (lcPattern m &&& lcMarker o m)) else lcPattern m
  let rows := if sel = 4 then rootSecretRows.map (fun r =>
    (r, 0xFFFFFFFF ^^^ (0xFFFFFFFF &&& (if o.lc = 4 then nomRow o r else strRow o r)))) else []
  targetsOf ([(m, needs o m marker), (4 + m, needs o (4 + m) marker)] ++ rows)

/-- LC_ADVANCE (R101). -/
def otLc (sel : Nat) (s : State) : State :=
  let o := s.otp
  if o.busy then otBusy s else
  let s := otAccept s
  if !(1 ≤ sel && sel ≤ 4) || !lcAllowed o sel then otEnd 5 s
  else if occMask s ≠ 0 then otEnd 6 s
  else otBegin 6 sel (lcTargets o sel) (modOtp (fun o => { o with disabled := true }) s)

/-- REPAIR (R98). -/
def otRepair (s : State) : State :=
  if s.otp.busy then otBusy s
  else otBegin 7 0 (repairTargets s.otp) (modOtp (fun o => { o with stillMarg := 0 }) (otAccept s))

/-- Apply the pulses of a job row by row (R93); a row without a given outcome passes at its first pulse. The count is of
rows completed. A cell left at nominal margin alone sets WEAK; one that reads 0 at nominal ends the command, but in a
REPAIR its combined value stands and its group reads WEAK (R98). A FAILED group stays FAILED (DESIGN CHOICE, log entry 71). -/
def applyPulses (repair : Bool) : List (Nat × Nat) → List PulseOut → Otp → Nat → Otp × Nat × Bool
  | [], _, o, n => (o, n, false)
  | (r, m) :: ts, ps, o, n =>
    let p := ps.head?.getD ⟨0, 0, 1⟩
    let fail := p.fail &&& m
    let weak := (p.weak &&& m) &&& (m ^^^ fail)
    let o1 := burnRow r (m ^^^ fail) ((m ^^^ fail) ^^^ weak) o
    let bad := fail ||| weak
    let most := if repair then Config.kProgRetry else 1 + Config.kProgRetry
    let took := if bad = 0 then min (max p.pulses 1) most else most
    let mark := weak != 0 || (repair && fail != 0)
    let g := grpIndex r
    let o2 := { o1 with
      pulses := max o1.pulses took,
      weak := o1.weak || weak != 0,
      grp := if mark && nth 0 o1.grp g ≠ 2 then o1.grp.set g 1 else o1.grp,
      repairs := if repair then min (o1.repairs + popCount 32 (m ^^^ bad)) 65535 else o1.repairs,
      stillMarg := if repair then min (o1.stillMarg + popCount 32 weak) 65535 else o1.stillMarg }
    if fail ≠ 0 && !repair then (o2, n, true) else applyPulses repair ts ps.tail o2 (n + 1)

/-- OT_SVN and OT_REVOKE after a command that has completed `n` rows, two to a counter cell (Table 4-6): `v0` is the
counter's value before it. A failed group keeps the default of Table 4-4 until the next auto-load (R100). -/
def otShow (j : OtpJob) (v0 n : Nat) (o : Otp) : Otp :=
  if j.cmd = 4 && nth 0 o.grp 1 ≠ 2 then { o with svn := o.svn.set j.sel (v0 + n / 2) }
  else if j.cmd = 5 && nth 0 o.grp 2 ≠ 2 then { o with revoke := revokeMask o }
  else o

/-- A programming command finishes (R93, R104). -/
def otComplete (ps : List PulseOut) (s : State) : State :=
  match s.otp.job with
  | none => s
  | some j =>
    let r := applyPulses (j.cmd == 7) j.targets ps s.otp 0
    otEnd (if r.2.2 then 8 else 0) { s with otp := otShow j (svnValue s.otp j.sel) r.2.1 r.1 }

/-- Cells a cut pulse leaves: a free choice of the rows completed and of the cells of the row under the pulse (R94; log entry 1). -/
def cutPulses : Nat → Nat → List (Nat × Nat) → Otp → Otp
  | _, _, [], o => o
  | d, 0, (r, m) :: _, o => burnRow r (m &&& Config.freeNat d) (m &&& Config.freeNat d &&& Config.freeNat (d + 1)) o
  | d, n + 1, (r, m) :: ts, o => cutPulses d n ts (burnRow r m m o)

/-- A reset, a power loss or the window's end cuts the running programming command; how many pulses a cell had taken is a
free value (log entry 1). -/
def otCut (s : State) : State :=
  match s.otp.job with
  | none => s
  | some j =>
    let n := Config.freeNat s.draws % j.targets.length
    let o := otShow j (svnValue s.otp j.sel) n (cutPulses (s.draws + 1) n j.targets s.otp)
    { s with
      otp := { o with
        job := none, pulses := 1 + Config.freeNat (s.draws + 3) % (1 + Config.kProgRetry),
        weak := j.targets.any (fun t => t.2 &&& nomRow o t.1 != t.2 &&& strRow o t.1) },
      draws := s.draws + 4 }

/-- The standby rail leaves the programming window (R94): a pulse in progress is cut and the command ends with ECODE 7. -/
def otWindowExit (s : State) : State :=
  let s := otCut { s with pkg := { s.pkg with progWin := false } }
  if s.otp.busy && s.otp.loaded then otEnd 7 s else s

end Sys2Proof.Machine
end

