-- ==== Sys2Proof/Machine/Sequencer.lean ====
section
/-! DEFINITION. The step sequencer (R76 to R83): fetching and checking a step, its effect, and how a table ends. -/

namespace Sys2Proof.Machine

/-- Step `i` of step RAM; an unlisted step is all zeros (log entry 4). -/
def stepAt (s : State) (i : Nat) : Step64 := (lookupNat i s.sq.ram).getD 0#64

/-- OP, A, B and C of a step (Table 3-4). -/
def stepOp (w : Step64) : Nat := w.toNat / 2 ^ 56
def stepA (w : Step64) : Nat := bits w.toNat 48 8
def stepB (w : Step64) : Nat := bits w.toNat 40 8
def stepC (w : Step64) : Nat := bits w.toNat 0 40

/-- A step word from its fields. -/
def mkStep (op a b c : Nat) : Step64 := BitVec.ofNat 64 (op * 2 ^ 56 + a * 2 ^ 48 + b * 2 ^ 40 + c)

/-- Class bit and length of a key port (Table 5-5); none for an index the unit does not have. -/
def keyPort (s : State) (u idx : Nat) : Option (Nat × Nat) :=
  match unitType s u with
  | .tile => if hasStack s u && idx = 0 then some (8, 64) else if hasStack s u && idx = 1 then some (9, 32) else none
  | .port =>
    if idx ≤ 0x3F then some (10, 48) else if idx = 0x40 then some (11, 32)
    else if 0x80 ≤ idx && idx ≤ 0xBF then some (12, 64) else none
  | _ => none

/-- Whether a region of Table 3-6 is valid for a unit. -/
def regionOk (s : State) (u r : Nat) : Bool :=
  match unitType s u with
  | .tile => r ≤ 2 || (r = 3 && hasStack s u) || r = 0xFF
  | .port => r = 4 || r = 0xFF
  | _ => false

/-- Digest block length in bytes by mode (R81). -/
def dgBlock (mode : Nat) : Nat :=
  match mode with
  | 2 => 104
  | 3 => 168
  | 4 => 136
  | _ => 128

/-- Fields of a step legal for its opcode (Table 3-5; unused bits must be zero). Unit and port indices are judged at execution. -/
def stepLegal (w : Step64) : Bool :=
  let op := stepOp w
  let a := stepA w
  let b := stepB w
  let c := stepC w
  if op = 0x00 || op = 0x01 || op = 0x07 then a = 0 && b = 0 && c = 0
  else if op = 0x02 then a ≤ 31 && b ≤ 1 && 1 ≤ c && c ≤ 4095
  else if op = 0x03 then a = 0 && b = 0 && c < 2 ^ 32
  else if op = 0x04 then a ≤ 3 && b = 0
  else if op = 0x05 then 24 ≤ a && a ≤ 31 && b ≤ 1 && c = 0
  else if op = 0x06 then a = 0 && b = 0 && c < 2 ^ 16
  else if op = 0x10 then c ≤ 1
  else if op = 0x11 then c = 0
  else if op = 0x20 then a < 64 && c < 256
  else if op = 0x21 then a = 0 && c < 256
  else if op = 0x22 then (a < 64 || a = 0xFF) && b = 0 && c = 0
  else if op = 0x30 then a = 0 && b = 0 && c < 2 ^ 32
  else if op = 0x40 then b ≤ 3 && c = 0
  else if op = 0x41 then a ≤ 7 && b ≤ 1 && c = 0
  else if op = 0x42 then a ≤ 2 && b ≤ 1 && c = 0
  else false

/-- SQ_FLAGS bit `f` (Table 3-7). -/
def sqFlag (s : State) (f : Nat) : Bool :=
  if f = 0 then s.sq.vfail
  else if f = 1 then s.sq.kperr
  else if f = 2 then asmOf s == some .m8
  else if f = 3 then asmOf s == some .m6
  else if f = 4 then isS0 s
  else if f = 5 then s.otp.lc == 2
  else if f = 6 then s.otp.lc == 1
  else if f = 7 then s.otp.lc == 3
  else if f = 8 then s.pkg.mode == .confidential
  else if f = 9 then tkeys s
  else if 24 ≤ f && f ≤ 31 then bit s.sq.sw (f - 24)
  else false

/-- Write one step of step RAM; a zero step is the value of an unlisted one. -/
def ramPut (i : Nat) (w : Step64) (s : State) : State :=
  { s with sq := { s.sq with ram := if w = 0#64 then dropKey i s.sq.ram else putKey i w s.sq.ram } }

/-- SQ_STATUS (Table 3-9). -/
def Seqr.status (q : Seqr) : Nat :=
  b2n q.busy + 2 * b2n q.done + 4 * b2n q.err + 8 * b2n q.aborted + 16 * b2n q.ovr + 2 ^ 8 * q.ecode + 2 ^ 16 * q.pc

/-- End the running table (R76): BUSY falls and source 2 is raised. -/
def sqStop (f : Seqr → Seqr) (s : State) : State :=
  let s := { s with sq := f { s.sq with busy := false, wait := .none, abortReq := false } }
  irq 2 (trace 8 0xFF s.sq.status s.sq.steps s)

/-- End the table on an error with its ECODE (Table 3-9). -/
def sqError (e : Nat) (s : State) : State := sqStop (fun q => { q with err := true, ecode := e }) s

/-- START (R76): begins at SQ_ENTRY, or sets OVR while BUSY. DESIGN CHOICE (log entry 59): ECODE too goes back to 0. -/
def sqStart (p : SqPurpose) (s : State) : State :=
  if s.sq.busy then { s with sq := { s.sq with ovr := true } }
  else trace 7 0xFF s.sq.entry 0 { s with sq := { s.sq with
    busy := true, vfail := false, kperr := false, wait := .none, abortReq := false, ecode := 0,
    nextIx := s.sq.entry, pc := s.sq.entry, steps := 0, purpose := p, seed := none } }

/-- ABORT (R76): after the current step; at once when no step is in progress. -/
def sqAbort (s : State) : State :=
  if !s.sq.busy then s
  else if s.sq.wait = .none then sqStop (fun q => { q with aborted := true }) s
  else { s with sq := { s.sq with abortReq := true } }

/-- A step has completed: go to the next index, unless ABORT waits or step 4,095 was the last (ECODE 7). -/
def sqAdvance (s : State) : State :=
  let s := { s with sq := { s.sq with wait := .none } }
  if s.sq.abortReq then sqStop (fun q => { q with aborted := true }) s
  else if Config.kSteps ≤ s.sq.nextIx then sqError 7 s
  else s

/-- A push or zero of a controller's port 0x00 empties its initialisation map (R393), so that its blocks read zero. -/
def mapReset (u idx : Nat) (s : State) : State :=
  if idx = 0 && u < 8 then { s with jb := { s.jb with mc := modNth u (fun (m : MemCtl) => { m with init := [], lines := [] }) s.jb.mc } } else s

/-- Overwrite the key of a key port (R124, R393). -/
def kpZero (u idx : Nat) (s : State) : State :=
  mapReset u idx (modUnit u (fun x => { x with ports := x.ports.filter (fun k => k.index != idx) }) s)

/-- Install a key in a key port (R124, R393). -/
def kpInstall (u idx : Nat) (key : Bytes) (s : State) : State :=
  mapReset u idx (modUnit u (fun x => { x with ports := ⟨idx, key⟩ :: x.ports.filter (fun k => k.index != idx) }) s)

/-- A unit takes a step of the key sideband (R124): the key ports of a tile belong to its memory controller, which RESET of
the tile leaves running (R380, R397); those of a port die need the die up. -/
def portUp (s : State) (u : Nat) : Bool := if u < 8 then railGood s u else unitUp s u

/-- KPUSH of slot `k` (R124): installed where class and KCV allow it, refused with KPERR otherwise. A memory controller
held in reset, as it is with the memory rail off (R397), ends the step with ECODE 1. -/
def kpush (k u idx : Nat) (corrupt : Bool) (s : State) : State :=
  let x := slotS s k
  match keyPort s u idx with
  | none => sqError 1 s
  | some (cls, len) =>
    if u < 8 && !s.pkg.memPg then sqError 1 s
    else if !portUp s u then sqError 5 s
    else if slotServes x cls && slotKcv x == x.kcv && !corrupt then sqAdvance (kpInstall u idx (slice x.content 0 len) s)
    else sqAdvance { s with sq := { s.sq with kperr := true } }

/-- Assert a unit's reset: its key ports, its mailbox and its running operation are lost (R72, R124). The memory controller
of a tile keeps its keys while the memory rail is good (R380, R397). -/
def assertReset (u : Nat) (s : State) : State :=
  modUnit u (fun x => { x with
    inReset := true, ports := if u < 8 && s.pkg.memPg then x.ports else [], op := none, held := [], inbox := [], doorbell := 0, rung := false, cmdOut := none, outQ := [], go := false,
    ctrlHeld := false, awaitReady := false, hbAge := 0 }) s

/-- Release a unit's reset (R72, R485): GEN advances, the heartbeat count restarts, a tile tests its hard-limit paths. A
clock that a request or a comparator stopped stays stopped (R78, R475). DESIGN CHOICE (log entry 60): a release of a unit
that is already out of reset, or whose rail is off, does the same, and ends with no ECODE. -/
def releaseReset (u hlres : Nat) (s : State) : State :=
  let s := modUnit u (fun x => { x with
    inReset := false, gen := x.gen + 1#8, hbCnt := 0, hbAge := 0, rung := false, cmdOut := none, outQ := [], tag := 1 }) s
  if u < 8 then
    { s with pw := { s.pw with tiles := modNth u (fun t => { t with hlres := hlres % 32, freq := 400, fthr := 1900, throt := false }) s.pw.tiles } }
  else s

/-- RESET step (R80, R501): B[1] names the port controller alone, whose reset takes the die's ports out of UP (R456). -/
def sqReset (u b hlres : Nat) (s : State) : State :=
  let t := unitType s u
  if !(t = .tile || t = .port) || (bit b 1 && t ≠ .port) then sqError 1 s
  else if bit b 1 then
    (if bit b 0 then sqAdvance (modUnit u (fun x => { x with ctrlHeld := false, gen := x.gen + 1#8, hbCnt := 0, hbAge := 0, go := false, rung := false, cmdOut := none, outQ := [], tag := 1 }) s)
     else sqAdvance (portsLeave u (modUnit u (fun x => { x with ctrlHeld := true, go := false, held := [], inbox := [], doorbell := 0, rung := false, cmdOut := none, outQ := [], awaitReady := false, hbAge := 0 }) s)))
  else if bit b 0 then sqAdvance (releaseReset u hlres s)
  else sqAdvance (assertReset u s)

/-- A unit's clear engines, verify ports and clock answer: a tile's lie outside the reset domain of RESET (R381), so
its rail alone decides; a port die must be up. -/
def engineUp (s : State) (u : Nat) : Bool := if unitType s u = .tile then railGood s u else unitUp s u

/-- CLOCK step: a start has no effect on a tile a comparator has stopped (R475); HBAGE is held at zero while the clock is
stopped (R73). -/
def sqClock (t b : Nat) (s : State) : State :=
  if !engineUp s t then sqError 5 s
  else if b = 0 then sqAdvance (modUnit t (fun x => { x with clkStop := true, hbAge := 0 }) { s with wd := { s.wd with stopReq := setBit s.wd.stopReq t false } })
  else if (nth ({} : TileP) s.pw.tiles t).tripped then sqAdvance s
  else sqAdvance (modUnit t (fun x => { x with clkStop := false }) s)

/-- Drive a rail enable (R554): TILE_EN stays low while a VCORE comparator holds it; MEM_EN is tied inactive on S0. -/
def driveRail (r : Nat) (on : Bool) (s : State) : State :=
  let p := s.pkg
  { s with pkg := if r = 0 then { p with portEn := on }
                  else if r = 1 then { p with tileEn := on && !s.pw.tileEnHeld }
                  else { p with memEn := on && !isS0 s } }

/-- Power-good of a rail. -/
def railPg (s : State) (r : Nat) : Bool := if r = 0 then s.pkg.portPg else if r = 1 then s.pkg.tilePg else s.pkg.memPg

/-- Words of the message the digest engine takes (R116): whole blocks. -/
def dgFeed (data : Bytes) (s : State) : State :=
  { s with dg := { s.dg with absorbed := s.dg.absorbed ++ data, blocks := s.dg.blocks + data.length / dgBlock s.dg.mode } }

/-- Bytes at a warden address: SRAM or the flash read window (R81, R155). -/
def readMap (s : State) (a n : Nat) : Option Bytes :=
  if 0x10000000 ≤ a && a + n ≤ 0x10100000 then some (cellGets 0#8 (a - 0x10000000) n s.wd.sram)
  else if 0x41000000 ≤ a && a + n ≤ 0x50000000 then some (cellGets 0xFF#8 (a - 0x41000000) n s.fl.mem)
  else none

/-- Single-bit errors of SRAM words that a read of `n` bytes from address `a` meets are corrected, counted in
WD_SM_SRAMCE and written back (R64). -/
def sramScrub (a n : Nat) (s : State) : State :=
  let hit (w : Nat) : Bool := decide (a ≤ w + 3) && decide (w < a + n)
  if !s.wd.flips.any hit then s
  else setNotice 11 { s with wd := { s.wd with flips := s.wd.flips.filter (fun w => !hit w) },
                             pw := { s.pw with sramce := min (s.pw.sramce + (s.wd.flips.filter hit).length) 0xFFFFFFFF } }

/-- DIGEST step (R81): ECODE 6 for a length or address that is invalid, ECODE 8 when the engine ends the message. DESIGN
CHOICE (log entry 61): with no message open, or inside a block, the engine refuses (ECODE 2) and the step ends with
ECODE 8; a length of 0 is a whole number of blocks. -/
def sqDigest (len : Nat) (busErr : Bool) (s : State) : State :=
  let blk := dgBlock s.dg.mode
  if len % blk ≠ 0 then sqError 6 s
  else match readMap s (nth 0 s.sq.args 0) len with
    | none => sqError 6 s
    | some data =>
      if s.dg.phase ≠ .open || !s.dg.buf.isEmpty then sqError 8 (dgEnd 2 s)
      else if busErr then sqError 8 (dgEnd 7 s)
      else sqAdvance (dgFeed data (sramScrub (nth 0 s.sq.args 0) len s))

/-- Whether any unit has an operation outstanding. -/
def opsOut (s : State) : Bool := s.units.any (fun u => u.op.isSome)

/-- Issue a CLEAR or VERIFY to a unit with none outstanding (R80, R327). -/
def sqIssue (u : Nat) (op : UnitOp) (s : State) : State :=
  let s := match op with
    | .verify _ => if s.sq.seed.isNone then { s with sq := { s.sq with seed := some s.draws }, draws := s.draws + 1 } else s
    | _ => s
  sqAdvance (modUnit u (fun x => { x with op := some op }) s)

/-- A starting step (R80): waits while its unit has an operation outstanding. -/
def sqStartOp (u : Nat) (region : Nat) (op : UnitOp) (s : State) : State :=
  if !regionOk s u region then sqError 1 s
  else if !engineUp s u then sqError 5 s
  else if (unitS s u).op.isSome then { s with sq := { s.sq with wait := .start u } }
  else sqIssue u op s

/-- What a step may take from outside: the self-test result of a released tile (R485), a corrupted sideband beat, a bus
error, the slots whose read-back after ZERO is nonzero (R125). -/
structure StepIn where
  hlres : Nat
  corrupt : Bool
  busErr : Bool
  bad : List Nat
deriving DecidableEq, Repr

/-- What a step takes from outside where nothing is given. -/
def quietStep : StepIn := ⟨31, false, false, []⟩

/-- KSZERO (R125): ZERO of each slot named; a nonzero read-back makes its slot DEAD, ends ZERO with ECODE 8 and raises the
KSZERO alarm. Source 7 is raised as for the command (R63). -/
def sqKszero (l bad : List Nat) (s : State) : State :=
  let n := l.filter (fun i => decide (i ∈ bad) && !(slotS s i).dead)
  let s := if 64 ≤ l.length then pkCutAll s else s
  let s := l.foldl (fun s i => zeroSlot i (decide (i ∈ bad)) s) s
  if n.isEmpty then irq 7 { s with ks := { s.ks with done := true, ecode := 0 } }
  else setAlarm 17 (irq 7 { s with ks := { s.ks with err := true, ecode := 8 } })

/-- The slots whose read-back after KSZERO is nonzero: what the cells hold after the passes is a free value (R125, log
entry 1). -/
def ksZeroBad (n : Nat) : List Nat := (List.range 64).filter (bit (Config.freeNat n))

/-- The effect of one legal step (Table 3-5), its index already counted. -/
def stepEffect (w : Step64) (x : StepIn) (s : State) : State :=
  let a := stepA w
  let b := stepB w
  let c := stepC w
  match stepOp w with
  | 0x00 => sqAdvance s
  | 0x01 => sqStop (fun q => { q with done := true }) s
  | 0x02 =>
    if sqFlag s a == (b == 0) then
      (if Config.kSteps ≤ s.sq.pc + 1 + c then sqError 2 s
       else sqAdvance { s with sq := { s.sq with nextIx := s.sq.pc + 1 + c } })
    else sqAdvance s
  | 0x03 => { s with sq := { s.sq with wait := .delay c } }
  | 0x04 => sqAdvance { s with sq := { s.sq with args := s.sq.args.set a c } }
  | 0x05 => sqAdvance { s with sq := { s.sq with sw := setBit s.sq.sw (a - 24) (b == 1) } }
  | 0x06 => sqAdvance (irq 2 { s with sq := { s.sq with irqcode := c } })
  | 0x07 => if opsOut s then { s with sq := { s.sq with wait := .join } } else sqAdvance s
  | 0x10 => sqStartOp a b (.clear b (c == 1)) s
  | 0x11 => sqStartOp a b (.verify b) s
  | 0x20 => kpush a b c x.corrupt s
  | 0x21 =>
    if (keyPort s b c).isNone || (decide (b < 8) && !s.pkg.memPg) then sqError 1 s
    else if !portUp s b then sqError 5 s else sqAdvance (kpZero b c s)
  | 0x22 => sqAdvance (sqKszero (if a = 0xFF then List.range 64 else [a]) x.bad s)
  | 0x30 => sqDigest c x.busErr s
  | 0x40 => sqReset a b x.hlres s
  | 0x41 => sqClock a b s
  | 0x42 =>
    let s := driveRail a (b == 1) s
    if railPg s a == (b == 1) then sqAdvance s else { s with sq := { s.sq with wait := .rail a (b == 1) } }
  | _ => sqError 1 s

/-- Execute the step at the next index: PC, the count of executed steps, then its effect. -/
def sqExecStep (x : StepIn) (s : State) : State :=
  let i := s.sq.nextIx
  stepEffect (stepAt s i) x { s with sq := { s.sq with pc := i, nextIx := i + 1, steps := s.sq.steps + 1 } }

/-- The sequencer is about to execute a step of opcode `op` with legal fields. -/
def sqReady (op : Nat) (s : State) : Bool :=
  s.sq.busy && s.sq.wait = .none && stepOp (stepAt s s.sq.nextIx) == op && stepLegal (stepAt s s.sq.nextIx)

/-- Execute the next step if it is of opcode `op`; an event that cannot occur changes nothing (log entry 3). -/
def sqRun (op : Nat) (x : StepIn) (s : State) : State := if sqReady op s then sqExecStep x s else s

/-- Execute a KSZERO step, its read-back outcome a draw. -/
def sqKszeroRun (s : State) : State :=
  if sqReady 0x22 s then sqExecStep { quietStep with bad := ksZeroBad s.draws } { s with draws := s.draws + 1 } else s

/-- An illegal opcode or field ends the table with ECODE 1 (Table 3-9). DESIGN CHOICE (log entry 62): the step counts in
SQ_STEPS as executed. -/
def sqIllegal (s : State) : State :=
  if s.sq.busy && s.sq.wait = .none && !stepLegal (stepAt s s.sq.nextIx) then
    sqError 1 { s with sq := { s.sq with pc := s.sq.nextIx, nextIx := s.sq.nextIx + 1, steps := s.sq.steps + 1 } }
  else s

/-- A blocking step or a JOIN ran longer than SQ_TMO (R83): ECODE 3; operations already started stay outstanding.
A starting step that waits for its unit is not a blocking step and does not time out here. -/
def sqTimeout (s : State) : State :=
  match s.sq.wait with
  | .none => s
  | .start _ => s
  | _ => if s.sq.busy then sqError 3 s else s

/-- Regions of a unit after a completed clear: zeros are no tenant data; a DRBG pattern is not zero. -/
def regionCleared (region : Nat) (pattern : Bool) (isTile : Bool) (x : UnitS) : UnitS :=
  let all := region == 0xFF
  { x with
    baseHeld := if (all && isTile) || region == 0 then pattern else x.baseHeld
    clusterHeld := if (all && isTile) || region == 1 then pattern else x.clusterHeld
    scratchHeld := if (all && isTile) || region == 2 then pattern else x.scratchHeld
    stackHeld := if region == 3 then pattern else x.stackHeld
    bufHeld := if (all && !isTile) || region == 4 then pattern else x.bufHeld }

/-- A clear writes whole lines of tile SRAM, which removes their poison (R372). -/
def poisonClear (u region : Nat) (s : State) : State :=
  if u < 8 then { s with jb := { s.jb with tiles := modNth u (fun (x : TileJ) =>
    { x with poison := if region = 0xFF then [] else x.poison.filter (fun p => p.1 != region) }) s.jb.tiles } } else s

/-- What waits on a unit's completion goes on (R80): a starting step toward it, or a JOIN when nothing is outstanding. -/
def sqResume (s : State) : State :=
  match s.sq.wait with
  | .start u =>
    if (unitS s u).op.isSome then s
    else
      let w := stepAt s s.sq.pc
      let s := { s with sq := { s.sq with wait := .none } }
      if stepOp w = 0x10 then sqIssue u (.clear (stepB w) (stepC w == 1)) s else sqIssue u (.verify (stepB w)) s
  | .join => if opsOut s then s else sqAdvance s
  | _ => s

/-- A unit's clear or verify completes (R80): `nonzero` lines of a verify set VFAIL; a fault ends the table with ECODE 4. -/
def unitOpDone (u nonzero : Nat) (fault : Bool) (s : State) : State :=
  match (unitS s u).op with
  | none => s
  | some op =>
    let s1 := modUnit u (fun x => { x with op := none }) s
    if fault then (if s1.sq.busy then sqError 4 s1 else s1)
    else
      let s2 := match op with
        | .clear r p => poisonClear u r (modUnit u (regionCleared r p (decide (u < 8))) s1)
        | .verify _ => if nonzero = 0 then s1 else { s1 with sq := { s1.sq with vfail := true } }
      if s2.sq.busy then sqResume s2 else s2

end Sys2Proof.Machine
end

