-- ==== Sys2Proof/Machine/Tables.lean ====
section
/-! DEFINITION. The step tables of warden firmware (R68, R164, R165, R381, R501), where they stand in step RAM, and how a
short one of them runs. The clear table is chapter 03's worked case; the others are the model's (log entry 58). -/

namespace Sys2Proof.Machine

/-- The clear table of the power-up and of a switch (chapter 03, worked case). -/
def clearTable : List Step64 :=
  let clr (u r : Nat) := mkStep 0x10 u r 0
  let vfy (u r : Nat) := mkStep 0x11 u r 0
  let skip (f n : Nat) := mkStep 0x02 f 0 n
  [skip 4 9] ++ (List.range 3).map (clr · 3) ++ [skip 3 2] ++ (List.range 5).map (fun i => clr (i + 3) 3)
    ++ (List.range 8).map (clr · 0xFF) ++ [clr 8 4, skip 2 2, clr 12 4, clr 13 4, clr 17 4, mkStep 0x07 0 0 0]
    ++ [skip 4 9] ++ (List.range 3).map (vfy · 3) ++ [skip 3 2] ++ (List.range 5).map (fun i => vfy (i + 3) 3)
    ++ (List.range 8).map (vfy · 0xFF) ++ [vfy 8 4, skip 2 2, vfy 12 4, vfy 13 4, vfy 17 4, mkStep 0x07 0 0 0, mkStep 0x01 0 0 0]

/-- Reset table of tile `t` (R381 step 3). -/
def tileTable (t : Nat) : List Step64 :=
  [mkStep 0x40 t 0 0, mkStep 0x41 t 1 0, mkStep 0x10 t 0xFF 0, mkStep 0x11 t 0xFF 0, mkStep 0x07 0 0 0, mkStep 0x40 t 1 0, mkStep 0x01 0 0 0]

/-- Restart table of a port controller (R501 step 1). -/
def portTable (u : Nat) : List Step64 := [mkStep 0x40 u 2 0, mkStep 0x40 u 3 0, mkStep 0x01 0 0 0]

/-- The END step. -/
def endStep : Step64 := mkStep 0x01 0 0 0

/-- RAIL and RESET step words. -/
def railStep (r : Nat) (on : Bool) : Step64 := mkStep 0x42 r (b2n on) 0
/-- RESET of a whole unit. -/
def resetStep (u : Nat) (release : Bool) : Step64 := mkStep 0x40 u (b2n release) 0

/-- Port rail on, and every port site of the fused assembly released (R165 step 1). -/
def portUpTable : List Step64 :=
  [railStep 0 true, resetStep 8 true, mkStep 0x02 2 0 2, resetStep 12 true, resetStep 13 true, resetStep 17 true, endStep]

/-- Tile rail on, and T0 to T7 released (R165 step 2). -/
def tileUpTable : List Step64 := [railStep 1 true] ++ (List.range 8).map (resetStep · true) ++ [endStep]

/-- Memory rail on (R165 step 3). -/
def memUpTable : List Step64 := [railStep 2 true, endStep]

/-- Port rail on, and the port die at P0 alone released (R201). -/
def p0UpTable : List Step64 := [railStep 0 true, resetStep 8 true, endStep]

/-- A unit held in reset (R502): a tile whole, a port die's controller alone. -/
def holdTable (u : Nat) : List Step64 := [if u < 8 then resetStep u false else mkStep 0x40 u 2 0, endStep]

/-- A run of key store slots zeroed (R47 step 2, R43, R325 phase 4). -/
def keyTable (a n : Nat) : List Step64 := (List.range n).map (fun i => mkStep 0x22 (a + i) 0 0) ++ [endStep]

/-- Tile and memory rails off (R47 step 4, R559). -/
def mainOffTable : List Step64 := [railStep 2 false, railStep 1 false, endStep]
/-- Port rail off. -/
def portOffTable : List Step64 := [railStep 0 false, endStep]
/-- One chunk of an image into the digest engine (R166 step 3). -/
def digestTable (n : Nat) : List Step64 := [mkStep 0x30 0 0 n, endStep]

/-- Firmware's tables, from index 0 upward (R164). -/
def fwTables (s : State) : List (List Step64) :=
  [clearTable, portUpTable, tileUpTable, memUpTable, p0UpTable, mainOffTable, portOffTable, keyTable 8 48, keyTable 16 40,
   digestTable 65536]
    ++ (List.range 8).map tileTable ++ (portUnits s).map portTable ++ ((List.range 8) ++ portUnits s).map holdTable

/-- Index of a table among tables that stand one after another. -/
def tableIx (t : List Step64) : List (List Step64) → Option Nat
  | [] => none
  | x :: r => if x = t then some 0 else (tableIx t r).map (x.length + ·)

/-- SQ_ENTRY of a table of firmware; the index of one the model does not list is a free value (log entry 58). -/
def fwEntry (t : List Step64) (s : State) : Nat := (tableIx t (fwTables s)).getD (Config.tableEntry t % 4096)

/-- The sequencer free, its RW1C status cleared, SQ_ENTRY at a table of firmware. -/
def fwReady (t : List Step64) (s : State) : State :=
  { s with sq := { s.sq with busy := false, entry := fwEntry t s, done := false, err := false, aborted := false } }

/-- The steps of a table one after another; `fall` is the fall of a rail's power-good after RAIL off. -/
def runSteps (fall : Nat → State → State) (t : List Step64) (s : State) : State :=
  t.foldl (fun s w =>
    if !s.sq.busy then s
    else
      let i := s.sq.nextIx
      let s := stepEffect w quietStep { s with sq := { s.sq with pc := i, nextIx := i + 1, steps := s.sq.steps + 1 } }
      match s.sq.wait with
      | .rail r false => sqAdvance (fall r s)
      | _ => s) s

/-- A table of firmware's own that waits for nothing but a falling rail runs to its end within the row that needs it (log
entry 58). Where another table is running, its steps take effect and the registers stay that table's. -/
def fwRun (fall : Nat → State → State) (t : List Step64) (s : State) : State :=
  let q := s.sq
  let s := runSteps fall t (sqStart .user (fwReady t s))
  if q.busy then { s with sq := q } else s

/-- A table with no RAIL step. -/
def fwDo (t : List Step64) (s : State) : State := fwRun (fun _ s => s) t s

/-- KPUSH of slot `k` to key port `idx` of unit `u` (R68). -/
def fwKpush (k u idx : Nat) (s : State) : State := fwDo [mkStep 0x20 k u idx, endStep] s

/-- KPZERO of key port `idx` of unit `u` (R68); the ports of a unit that cannot take the step hold no key. -/
def fwKpzero (u idx : Nat) (s : State) : State :=
  if portUp s u && (keyPort s u idx).isSome && (decide (8 ≤ u) || s.pkg.memPg) then fwDo [mkStep 0x21 0 u idx, endStep] s
  else kpZero u idx s

/-- KPZERO of every key port that holds a key (R325 phase 4). -/
def fwKpzeroAll (s : State) : State :=
  (List.range 18).foldl (fun s u => (unitS s u).ports.foldl (fun s k => fwKpzero u k.index s) s) s

/-- KSZERO of `n` slots from slot `a` (R125). -/
def fwKszero (a n : Nat) (s : State) : State := fwDo (keyTable a n) s

/-- A unit is held in reset (R502). -/
def fwHold (u : Nat) (s : State) : State := fwDo (holdTable u) s

/-- The running table is aborted, and the tables queued behind it are forgotten. -/
def fwAbort (s : State) : State :=
  if s.sq.busy then sqStop (fun q => { q with aborted := true, queue := [], purpose := .user }) s
  else { s with sq := { s.sq with queue := [], purpose := .user } }

end Sys2Proof.Machine
end

