-- ==== Sys2Proof/Machine/DigestKey.lean ====
section
/-! DEFINITION. Digest engine (R107 to R119, R128), key store commands (R120 to R129) and the prism derivations (R112 to R115). -/

namespace Sys2Proof.Machine

/-- The engine is held by the OTP auto-load (R97, Table 5-7 code 0xA). -/
def dgHeld (s : State) : Bool := !s.otp.loaded

/-- A core write while the engine is held is ignored and recorded as ECODE 0xA. -/
def dgGuard (f : State → State) (s : State) : State := if dgHeld s then { s with dg := { s.dg with ecode := 10 } } else f s

/-- HMAC modes. -/
def isHmac (mode : Nat) : Bool := mode == 5 || mode == 6

/-- Result length of a mode (Table 5-1). -/
def dgResLen (mode outlen : Nat) : Nat :=
  match mode with
  | 1 => 64
  | 3 => outlen
  | 4 => outlen
  | 6 => 64
  | _ => 48

/-- The settings of DG_CTRL and DG_DSTCFG are legal (Table 5-7 code 1). -/
def dgCfgOk (d : Digest) : Bool :=
  d.mode ≤ 6 && (d.mode != 3 && d.mode != 4 || (1 ≤ d.outlen && d.outlen ≤ 64))
    && (!d.dual || isHmac d.mode) && (!d.dest || d.doff + d.dlen1 + 1 ≤ 4)

/-- Bytes of the HMAC key: KEYSLOT, followed by KEYSLOT2 when DUAL (R118). -/
def dgKey (s : State) : Bytes :=
  let d := s.dg
  (slotS s d.keyslot).content ++ (if d.dual then (slotS s d.keyslot2).content else [])

/-- The key slots hold the bit the destination requires (R118). -/
def dgKeyOk (s : State) : Bool :=
  let d := s.dg
  let b := if d.dest then 1 else 0
  !isHmac d.mode || (slotServes (slotS s d.keyslot) b && (!d.dual || slotServes (slotS s d.keyslot2) b)
    && decide ((dgKey s).length ≤ 128))

/-- The destination slot is EMPTY or PENDING and the use mask is allowed to a DERIVED key (R110, R119). -/
def dgDstOk (s : State) : Bool :=
  let d := s.dg
  let x := slotS s d.dstslot
  !d.dest || ((x.empty || x.pending) && !x.dead && (!d.commit || originAllows 2 d.use))

/-- START (R116, R117). -/
def dgStart (s : State) : State := dgGuard (fun s =>
  let d := s.dg
  if d.phase ≠ .idle then dgEnd 3 s
  else if !dgCfgOk d then dgEnd 1 s
  else if !dgKeyOk s then dgEnd 5 s
  else if !dgDstOk s then dgEnd 6 s
  else { s with dg := { d with
    phase := if isHmac d.mode then .keyBlock else .open, buf := [], absorbed := [], blocks := 0,
    key := if isHmac d.mode then dgKey s else [] } }) s

/-- A write to DG_DATA (R116, R117). -/
def dgData (w : Word) (s : State) : State := dgGuard (fun s =>
  if s.dg.phase ≠ .open then dgEnd 2 s
  else
    let buf := s.dg.buf ++ toLe 4 w.toNat
    { s with dg := { s.dg with buf := buf, phase := if dgBlock s.dg.mode ≤ buf.length then .absorbing else .open } }) s

/-- A block, or the HMAC key block, is absorbed and BUSY falls; interrupt source 6 (Table 3-1). -/
def dgAbsorbed (s : State) : State :=
  match s.dg.phase with
  | .keyBlock => irq 6 { s with dg := { s.dg with phase := .open } }
  | .absorbing => irq 6 { s with dg := { s.dg with
      phase := .open, absorbed := s.dg.absorbed ++ s.dg.buf, buf := [], blocks := s.dg.blocks + 1 } }
  | _ => s

/-- Whether a byte string is a SHA-2 padding of a message of `n` bytes, with `extra` bytes counted in the length (R108). -/
def sha2Unpad (extra : Nat) (b : Bytes) : Option Bytes :=
  let l := le (b.drop (b.length - 16)).reverse
  let n := l / 8 - extra
  if l % 8 = 0 && extra ≤ l / 8 && n + 17 ≤ b.length && b.length - (n + 17) < 128
    && b.drop n == (0x80#8 :: List.replicate (b.length - n - 17) 0#8) ++ toBe 16 l then some (b.take n) else none

/-- Undo pad10*1 with a domain byte (R108); the padding fills at most one block. -/
def sha3Unpad (rate dom : Nat) (b : Bytes) : Option Bytes :=
  match b.reverse with
  | [] => none
  | x :: r =>
    if x.toNat = dom + 128 then some r.reverse
    else if x.toNat = 128 then
      match r.dropWhile (· == 0#8) with
      | [] => none
      | y :: m => if y.toNat = dom && b.length - m.length ≤ rate then some m.reverse else none
    else none

/-- The message the fed blocks spell, if their padding is right for the mode. -/
def dgMessage (mode : Nat) (b : Bytes) : Option Bytes :=
  match mode with
  | 0 => sha2Unpad 0 b
  | 1 => sha2Unpad 0 b
  | 2 => sha3Unpad (dgBlock 2) 6 b
  | 3 => sha3Unpad (dgBlock 3) 0x1F b
  | 4 => sha3Unpad (dgBlock 4) 0x1F b
  | _ => sha2Unpad 128 b

/-- The result of the message fed (Table 5-1): the standard's function of the message; of the raw blocks where the
software padding is not right (R108; log entry 2). -/
def dgResult (d : Digest) : Bytes :=
  let n := dgResLen d.mode d.outlen
  match dgMessage d.mode d.absorbed with
  | some m => (List.range n).map (fun i => if isHmac d.mode then Config.hmacByte d.mode d.key m i else Config.hashByte d.mode m i)
  | none => (List.range n).map (Config.rawHashByte d.mode d.key d.absorbed)

/-- Write bytes into a byte string at an offset. -/
def overlay (b : Bytes) (off : Nat) (x : Bytes) : Bytes := slice b 0 off ++ x ++ b.drop (off + x.length)

/-- Deliver a result (R116 steps 4 and 5, R119). DG_DSTCFG may have changed since START: its fields are checked again. The
slot's length is the highest byte written, rounded up to 16. -/
def dgDeliver (s : State) : State :=
  let d := s.dg
  let r := dgResult d
  let fin (s : State) (res : Bytes) : State :=
    irq 6 { s with dg := { s.dg with phase := .idle, done := true, result := res, key := [], buf := [], absorbed := [] } }
  if !d.dest then fin s (slice r 0 64)
  else if !dgCfgOk d then dgEnd 1 s
  else if !dgDstOk s then dgEnd 6 s
  else
    let x := slotS s d.dstslot
    let w := r.take (16 * (d.dlen1 + 1))
    let top := max x.len ((16 * d.doff + w.length + 15) / 16 * 16)
    let content := overlay x.content (16 * d.doff) w
    if d.commit then fin (commitSlot d.dstslot (slice content 0 top) 2 d.use d.lock s) []
    else fin (setSlot d.dstslot { x with content := content, pending := true, len := top } s) []

/-- FINISH (R116, R117): ECODE 4 inside a block, ECODE 2 with no message open. -/
def dgFinish (s : State) : State := dgGuard (fun s =>
  match s.dg.phase with
  | .open => if !s.dg.buf.isEmpty then dgEnd 4 s else if isHmac s.dg.mode then { s with dg := { s.dg with phase := .outer } } else dgDeliver s
  | .idle => dgEnd 2 s
  | _ => dgEnd 4 s) s

/-- The HMAC outer pass completes (R119). -/
def dgOuter (s : State) : State := if s.dg.phase = .outer then dgDeliver s else s

/-- CLEAR ends any message without ERR (Table 5-6, R117); PENDING bytes of its destination are overwritten. -/
def dgClear (s : State) : State := dgGuard (fun s =>
  let d := s.dg
  if d.phase = .idle then s else
  let s := if d.dest && (slotS s d.dstslot).pending then setSlot d.dstslot {} s else s
  { s with dg := { s.dg with phase := .idle, buf := [], absorbed := [], key := [], result := [] } }) s

/-- SP 800-108 counter mode over HMAC-SHA-384 (R112): the first `n` bytes. -/
def kdf (ki : Bytes) (label : String) (ctx : Bytes) (n : Nat) : Bytes :=
  let block (i : Nat) := Config.hmac384 ki (toBe 4 i ++ ascii label ++ [0#8] ++ ctx ++ toBe 4 (8 * n))
  ((List.range ((n + 47) / 48)).flatMap (fun i => block (i + 1))).take n

/-- Bytes of ROOT words `w` to `w + 7` (Table 4-2). -/
def rootWords (o : Otp) (w : Nat) : Bytes := (List.range 8).flatMap (fun i => toLe 4 (tmrWord o (1, 32, 25) (w + i)))

/-- The root the selector supplies (Table 4-3). -/
def rootBytes (o : Otp) : Bytes :=
  if o.root = 1 then (List.range 32).map Config.testRootByte else if o.root = 2 then rootWords o 8 else rootWords o 16

/-- K0 (R113). -/
def k0 (o : Otp) : Bytes := kdf (rootBytes o) "tc4/root/v1" (if o.lc = 2 then rootWords o 0 else List.replicate 32 0#8) 48

/-- ROOTKDF (R113): ECODE 9 where the selector feeds no root, is disabled, or slot 0 is not EMPTY. DESIGN CHOICE (log entry
74): with a message open it ends that message with ECODE 3, as START would. -/
def dgRootKdf (s : State) : State := dgGuard (fun s =>
  if s.dg.phase ≠ .idle then dgEnd 3 s
  else if s.otp.root = 0 || s.otp.disabled || !(slotS s 0).empty then dgEnd 9 s
  else
    let s := commitSlot 0 (k0 s.otp) 1 2 true s
    irq 6 { s with dg := { s.dg with done := true } }) s

/-- Firmware derives a key from slot `p` into slot `i` (R112, R114); nothing where the parent does not serve DERIVE. -/
def derive (p : Nat) (label : String) (ctx : Bytes) (n i use : Nat) (lock : Bool) (s : State) : State :=
  if slotServes (slotS s p) 1 && (slotS s i).empty then commitSlot i (kdf (slotS s p).content label ctx n) 2 use lock s else s

/-- The first level of the prism and the firmware keys of WARDEN (Table 5-4); the static set pair only in MISSION (R339). -/
def derivePrism (s : State) : State :=
  let s := derive 0 "tc4/identity/v1" (ascii "p384") 64 1 16 false s
  let s := derive 0 "tc4/identity/v1" (ascii "mldsa87") 32 2 16 false s
  let s := derive 0 "tc4/mem_root/v1" [] 48 3 2 false s
  let s := derive 0 "tc4/link_root/v1" [] 48 4 2 false s
  let s := derive 0 "tc4/seal_root/v1" [] 48 5 2 false s
  let s := derive 5 "tc4/seal/v1" (ascii "roster") 32 6 4 false s
  let s := derive 4 "tc4/link_state/v1" s.boot.bootNonce 32 7 1 false s
  if s.otp.lc ≠ 2 then s
  else
    let s := derive 0 "tc4/set_kem/v1" (ascii "mlkem1024") 64 60 16 true s
    derive 0 "tc4/set_kem/v1" (ascii "p384") 64 61 16 true s

/-- Derive one destroyed slot again where its parent is intact (R127). Of the other DERIVED slots of Table 5-4, an aperture
key (9 to 15), the spill key and a link job key leave their slot with the command that pushed them, and the parents of
slots 8, 24 and 32 to 55 do not outlive their derivation. -/
def rederive (i : Nat) (s : State) : State :=
  match i with
  | 0 => if s.otp.root = 0 || s.otp.disabled then s else commitSlot 0 (k0 s.otp) 1 2 true s
  | 1 => derive 0 "tc4/identity/v1" (ascii "p384") 64 1 16 false s
  | 2 => derive 0 "tc4/identity/v1" (ascii "mldsa87") 32 2 16 false s
  | 3 => derive 0 "tc4/mem_root/v1" [] 48 3 2 false s
  | 4 => derive 0 "tc4/link_root/v1" [] 48 4 2 false s
  | 5 => derive 0 "tc4/seal_root/v1" [] 48 5 2 false s
  | 6 => derive 5 "tc4/seal/v1" (ascii "roster") 32 6 4 false s
  | 7 => derive 4 "tc4/link_state/v1" s.boot.bootNonce 32 7 1 false s
  | 16 => derive 3 "tc4/mem_xts/v1" (s.boot.bootNonce ++ toLe 8 (epochOf s)) 64 16 (2 ^ 8) false s
  | 17 => derive 3 "tc4/mem_tag/v1" (s.boot.bootNonce ++ toLe 8 (epochOf s)) 32 17 (2 ^ 9) false s
  | 60 => derive 0 "tc4/set_kem/v1" (ascii "mlkem1024") 64 60 16 true s
  | 61 => derive 0 "tc4/set_kem/v1" (ascii "p384") 64 61 16 true s
  | _ => s

/-- A key store command written while BUSY ends with ECODE 1 (Table 5-8); KS_WBUF is cleared at the end of every command,
whatever its outcome (R122): the running UNWRAP has its input. -/
def ksBusy (s : State) : State := irq 7 { s with ks := { s.ks with err := true, ecode := 1, wbuf := [] } }

/-- A key store command runs: BUSY until KS_CMD_COMPLETE; how it will end is `e`. KS_WBUF is cleared at its end (R122). -/
def ksJob (cmd slot e : Nat) (s : State) : State :=
  { s with ks := { s.ks with busy := true, job := some ⟨cmd, slot, e⟩ } }

/-- Length field of KS_ARG in bytes. -/
def ksLen (k : KeyStore) : Nat := 16 * (k.argLen + 1)

/-- GEN (R120). -/
def ksGen (i : Nat) (s : State) : State :=
  if s.ks.busy then ksBusy s
  else if 64 ≤ i then ksJob 1 i 2 s
  else if !(slotS s i).empty then ksJob 1 i 3 s
  else if !originAllows 3 s.ks.argUse then ksJob 1 i 5 s
  else if !s.ks.drbgOk then ksJob 1 i 6 s
  else
    let (k, s) := drawBytes (ksLen s.ks) s
    ksJob 1 i 0 (commitSlot i k 3 s.ks.argUse s.ks.argLock s)

/-- UNWRAP (R121). -/
def ksUnwrap (i kek : Nat) (s : State) : State :=
  if s.ks.busy then ksBusy s
  else if 64 ≤ i || 64 ≤ kek then ksJob 2 i 2 s
  else if !(slotS s i).empty then ksJob 2 i 3 s
  else if !slotServes (slotS s kek) 3 then ksJob 2 i 4 s
  else if !originAllows 4 s.ks.argUse then ksJob 2 i 5 s
  else
    let n := ksLen s.ks
    let w := slice s.ks.wbuf 0 (n + 8)
    let k := (slotS s kek).content
    if Config.kwOk k w then ksJob 2 i 0 (commitSlot i ((List.range n).map (Config.kwByte k w)) 4 s.ks.argUse s.ks.argLock s)
    else ksJob 2 i 7 s

/-- ZERO (R125): `bad` says that the read-back is nonzero, which makes the slot DEAD and raises the KSZERO alarm. A
DEAD slot refuses ZERO too, until the next warden reset. -/
def ksZero (i : Nat) (bad : Bool) (s : State) : State :=
  if s.ks.busy then ksBusy s
  else if 64 ≤ i then ksJob 3 i 2 s
  else if (slotS s i).dead then ksJob 3 i 3 s
  else
    let s := zeroSlot i bad s
    if bad then setAlarm 17 (ksJob 3 i 8 s) else ksJob 3 i 0 s

/-- ZERO_ALL (R125), slot 0 to slot 63; `bad` names the slots whose read-back is nonzero. -/
def ksZeroAll (bad : List Nat) (s : State) : State :=
  if s.ks.busy then ksBusy s
  else
    let s := (List.range 64).foldl (fun s i => zeroSlot i (decide (i ∈ bad)) s) (pkCutAll s)
    if bad.any (fun i => decide (i < 64)) then setAlarm 17 (ksJob 4 0 8 s) else ksJob 4 0 0 s

/-- SETUSE (R123): a subset of an unlocked slot's mask. -/
def ksSetUse (i : Nat) (s : State) : State :=
  let x := slotS s i
  if s.ks.busy then ksBusy s
  else if 64 ≤ i then ksJob 5 i 2 s
  else if x.empty || x.pending || x.dead || x.lock then ksJob 5 i 3 s
  else if s.ks.argUse &&& x.use != s.ks.argUse then ksJob 5 i 5 s
  else
    let y := { x with use := s.ks.argUse }
    ksJob 5 i 0 (setSlot i { y with kcv := slotKcv y } s)

/-- LOCK (R123). -/
def ksLock (i : Nat) (s : State) : State :=
  let x := slotS s i
  if s.ks.busy then ksBusy s
  else if 64 ≤ i then ksJob 6 i 2 s
  else if x.empty || x.pending || x.dead || x.lock then ksJob 6 i 3 s
  else
    let y := { x with lock := true }
    ksJob 6 i 0 (setSlot i { y with kcv := slotKcv y } s)

/-- LOAD (R122): origin CORE. -/
def ksLoad (i : Nat) (s : State) : State :=
  if s.ks.busy then ksBusy s
  else if 64 ≤ i then ksJob 7 i 2 s
  else if !(slotS s i).empty then ksJob 7 i 3 s
  else if !originAllows 6 s.ks.argUse then ksJob 7 i 5 s
  else ksJob 7 i 0 (commitSlot i (slice s.ks.wbuf 0 (ksLen s.ks)) 6 s.ks.argUse s.ks.argLock s)

/-- A key store command finishes (R129): DONE or ERR, source 7, KS_WBUF cleared. -/
def ksComplete (s : State) : State :=
  match s.ks.job with
  | none => s
  | some j => irq 7 { s with ks := { s.ks with
      busy := false, job := none, wbuf := [], done := s.ks.done || j.ecode == 0, err := s.ks.err || j.ecode != 0, ecode := j.ecode } }

/-- Committed slots whose KCV does not match their content (R127). -/
def kcvBad (s : State) : List Nat :=
  (List.range 64).filter (fun i => (slotS s i).origin != 0 && !(slotS s i).pending && slotKcv (slotS s i) != (slotS s i).kcv)

/-- Flip bit `b` of the content of slot `i`: an upset of the flip-flops (R111). -/
def upset (i b : Nat) (s : State) : State :=
  let x := slotS s i
  setSlot i { x with content := modNth (b / 8) (fun v => v ^^^ BitVec.ofNat 8 (2 ^ (b % 8))) x.content } s

/-- Firmware's answer to a KCV mismatch (R127): the slot is destroyed, logged and derived again where it can be. -/
def kcvReact (i : Nat) (s : State) : State :=
  if !fwWfw s then s else
  let o := (slotS s i).origin
  let s := zeroSlot i false s
  let s := if i = 6 then sealCut s else s
  let s := if o = 1 || o = 2 then rederive i s else s
  logEvent 0x0204 0xFF (toLe 1 i ++ toLe 1 (b2n !(slotS s i).empty)) s

/-- A recheck pass (R127): each mismatch sets KCVERR and KCVSLOT, raises source 7 and is answered. -/
def kcvPass (s : State) : State :=
  (kcvBad s).foldl (fun s i => kcvReact i (irq 7 { s with ks := { s.ks with kcverr := true, kcvslot := i } })) s

/-- The DRBG fails its health tests (R120): source 8; a GEN in progress ends with ECODE 6 and its slot zeroed. -/
def drbgFail (s : State) : State :=
  let s := irq 8 { s with ks := { s.ks with drbgOk := false } }
  match s.ks.job with
  | some j => if j.cmd = 1 && j.ecode = 0 then setSlot j.slot {} { s with ks := { s.ks with job := some ⟨1, j.slot, 6⟩ } } else s
  | none => s

end Sys2Proof.Machine
end

