-- ==== Sys2Proof/Machine/PkeMeas.lean ====
section
/-! DEFINITION. PKE jobs at register level (R134 to R148) and the measurement bank's commands (R158, R171). -/

namespace Sys2Proof.Machine

/-- What an operation takes and gives (Table 6-3): operand lengths, private length, key-store result length, result lengths. -/
structure PkShape where
  ins : List Nat
  priv : Option Nat
  ksRes : Option Nat
  res : List Nat
  random : Bool
deriving DecidableEq, Repr

/-- Table 6-3; none for an illegal OP. OPNDs are given by position; a modular operation skips OPND1 where unused. An
exponent is a long integer of NW words (R137), and MODINV takes q from OPND3 with ORD (R140). A MODEXP without ORD runs
unblinded. -/
def pkShape (op nw : Nat) (ord : Bool) : Option PkShape :=
  let m := 8 * nw
  match op with
  | 0x01 => some ⟨[m, m, m], none, none, [m], false⟩
  | 0x02 => some ⟨[m, m, m], none, none, [m], false⟩
  | 0x03 => some ⟨[m, m, m], none, none, [m], false⟩
  | 0x04 => some ⟨[m, 0, m, if ord then m else 0], none, none, [m], true⟩
  | 0x05 => some ⟨[m, m, m, if ord then m else 0], none, none, [m], ord⟩
  | 0x10 => some ⟨[], some 64, none, [96], true⟩
  | 0x11 => some ⟨[96], some 64, some 48, [], true⟩
  | 0x12 => some ⟨[48], some 64, none, [48, 48], true⟩
  | 0x13 => some ⟨[48, 96, 48, 48], none, none, [], true⟩
  | 0x14 => some ⟨[96], none, none, [], false⟩
  | 0x20 => some ⟨[], some 64, none, [1568], false⟩
  | 0x21 => some ⟨[1568], none, some 32, [1568], true⟩
  | 0x22 => some ⟨[1568], some 64, some 32, [], false⟩
  | 0x23 => some ⟨[], some 32, none, [2592], false⟩
  | 0x24 => some ⟨[64], some 32, none, [4627], true⟩
  | 0x25 => some ⟨[64, 2592, 4627], none, none, [], false⟩
  | _ => none

/-- NW and EBITS limits (Table 6-3). -/
def pkSizeOk (op nw ebits : Nat) : Bool :=
  if op ≤ 3 then 1 ≤ nw && nw ≤ Config.kPkeSlotMax
  else if op = 4 then 1 ≤ nw && nw ≤ 64
  else if op = 5 then 1 ≤ nw && nw ≤ 64 && ebits ≤ 64 * nw
  else true

/-- Slots a bank holds (R135). -/
def pkNslot (k : Pke) : Nat := 4096 / k.len

/-- A run of `n` bytes from slot `i` lies inside its bank (R137). -/
def pkRunOk (k : Pke) (i n : Nat) : Bool := i + (n + 8 * k.len - 1) / (8 * k.len) ≤ pkNslot k

/-- An operand selector is legal for `n` bytes (R137, R144); an operand the operation does not list must be zero (R148). -/
def pkOpndOk (k : Pke) (o : PkOpnd) (n : Nat) : Bool :=
  if n = 0 then o.slot == 0 && !o.wipe && !o.stream
  else if o.stream then o.saddr % 8 == 0 && decide (0x10000000 ≤ o.saddr) && decide (o.saddr + n ≤ 0x10100000)
  else pkRunOk k o.slot n

/-- Bytes of an operand. -/
def pkOpndBytes (s : State) (o : PkOpnd) (n : Nat) : Bytes :=
  if o.stream then cellGets 0#8 (o.saddr - 0x10000000) n s.wd.sram
  else cellGets 0#8 (8 * s.pk.len * o.slot) n (if o.wipe then s.pk.wipeMem else s.pk.keep)

/-- The private input and destination of an operation are legal (R141, R142): committed, not DEAD, PKE_PRIV, of the length
Table 6-3 states; EMPTY, with a use mask inside DERIVE and DG_KEY. -/
def pkSlotsOk (sh : PkShape) (kslot dslot use : Nat) (s : State) : Bool :=
  (match sh.priv with | some n => slotServes (slotS s kslot) 4 && (slotS s kslot).len == n | none => true)
    && (sh.ksRes.isNone || ((slotS s dslot).empty && use &&& 3 == use))

/-- Phase 1 (Table 6-1): the ECODE of an early end, 0 when all checks pass. DESIGN CHOICE (log entry 75): ECODE 2 is
looked for before ECODE 3, and every operation requires KSIN and KSOUT as its row states, as R148 says of five of them. -/
def pkCheck (s : State) : Nat :=
  let k := s.pk
  match pkShape k.op k.nw k.ord with
  | none => 2
  | some sh =>
    let n (i : Nat) := nth 0 sh.ins i
    if !pkSizeOk k.op k.nw k.ebits then 2
    else if (List.range 4).any (fun i => !pkOpndOk k (nth {} k.opnds i) (n i)) then 2
    else if (1 ≤ sh.res.length && !pkRunOk k k.res0 (nth 0 sh.res 0)) || (2 ≤ sh.res.length && !pkRunOk k k.res1 (nth 0 sh.res 1)) then 2
    else if k.ksin != sh.priv.isSome || k.ksout != sh.ksRes.isSome then 2
    else if !pkSlotsOk sh k.kslot k.dslot k.dstUse s then 3 else 0

/-- The STREAM operands of an operation: address and length (R144). -/
def pkStreams (k : Pke) (sh : PkShape) : List (Nat × Nat) :=
  (List.range sh.ins.length).filterMap (fun i =>
    let o := nth {} k.opnds i
    if o.stream && nth 0 sh.ins i != 0 then some (o.saddr, nth 0 sh.ins i) else none)

/-- A run of the job that the registers describe, ending early with `e` unless it is 0. -/
def pkRunOf (e : Nat) (ins : List Bytes) (s : State) : PkRun :=
  let k := s.pk
  { op := k.op, ins := ins, kslot := if k.ksin then some k.kslot else none, dslot := if k.ksout then some k.dslot else none,
    draw := s.draws, ebits := k.ebits, ord := k.ord, early := e }

/-- The engine takes a run: BUSY, ALARM and KSCUT cleared, the job counted (R138), traced with the class of its entry
(Table 22-5; 0 for a job started through the registers, DESIGN CHOICE, log entry 95). -/
def pkBegin (r : PkRun) (s : State) : State :=
  trace 5 0xFF (r.op % 256 + 256 * (match s.pq.run with | some e => e.cls | none => 0)) (s.pk.jobs + 1) { s with draws := s.draws + 1, pk := { s.pk with
    busy := true, alarm := false, kscut := false, jobs := s.pk.jobs + 1, run := some r } }

/-- Phase 4 (R144): SNAP, the STREAM words are fetched, single-bit errors of SRAM corrected and counted on the way. -/
def pkSnapshot (l : List (Nat × Nat)) (s : State) : State :=
  let s := { s with pk := { s.pk with snap := true } }
  let s := l.foldl (fun s p => sramScrub p.1 p.2 s) s
  { s with pk := { s.pk with snap := false } }

/-- START (R138): phases 1 to 4 read what the job uses; `streamErr` is the address of a fetch of a STREAM operand that
ended in a bus error (R144); an address in no such operand is met by no fetch. With WIPEFAIL a START is refused (R145):
ECODE 1, with no job and no interrupt (DESIGN CHOICE, log entry 75). -/
def pkStart (streamErr : Option Nat) (s : State) : State :=
  let k := s.pk
  if k.busy then { s with pk := { k with ovr := true } }
  else if k.wipefail then { s with pk := { k with err := true, ecode := 1 } }
  else match pkShape k.op k.nw k.ord with
    | none => pkBegin (pkRunOf 2 [] s) s
    | some sh =>
      let e := pkCheck s
      if e ≠ 0 then pkBegin (pkRunOf e [] s) s
      else if sh.random && !s.ks.drbgOk then pkBegin (pkRunOf 4 [] s) s
      else
        let st := pkStreams k sh
        let ins := (List.range sh.ins.length).map (fun i => pkOpndBytes s (nth {} k.opnds i) (nth 0 sh.ins i))
        let priv := if sh.priv.isSome then [(slotS s k.kslot).content] else []
        match streamErr.filter (fun a => st.any (fun p => decide (p.1 ≤ a) && decide (a < p.1 + p.2))) with
        | some a => pkBegin (pkRunOf 6 [] s) { s with pk := { s.pk with eaddr := a } }
        | none => pkSnapshot st (pkBegin (pkRunOf 0 (ins ++ priv) s) s)

/-- Operations with a fault check in phase 6 (Table 6-3). -/
def pkFaultChecked (op : Nat) : Bool := op == 0x04 || op == 0x10 || op == 0x11 || op == 0x12
/-- Operations with a rejection loop or sampler (R143): the lattice operations. -/
def pkSamples (op : Nat) : Bool := decide (0x20 ≤ op) && decide (op ≤ 0x25)
/-- Operations whose verdict is VALID. -/
def pkVerdictOp (op : Nat) : Bool := op == 0x13 || op == 0x14 || op == 0x25

/-- Input validation of phase 5 (R148): points on the curve, coordinates and r, s below their modulus; the encodings of
FIPS 203 and 204 are opaque (log entry 2). ECPVAL answers the curve question in VALID. -/
def pkInputsOk (op : Nat) (ins : List Bytes) : Bool :=
  let below (b : Bytes) : Bool := decide ((ecPoint b).1 < ecP) && decide ((ecPoint b).2 < ecP)
  let good (b : Bytes) : Bool := below b && ecOn (ecPoint b)
  match op with
  | 0x11 => good (nth [] ins 0)
  | 0x13 => good (nth [] ins 1) && decide (ecInt (nth [] ins 2) < ecN) && decide (ecInt (nth [] ins 3) < ecN)
  | 0x14 => below (nth [] ins 0)
  | _ => !pkSamples op || Config.pkInputOk op ins

/-- The verdict of a verify or ECPVAL (R148): ML-DSA's is opaque (log entry 2). -/
def pkVerdict (op : Nat) (ins : List Bytes) : Bool :=
  match op with
  | 0x13 => ecdsaVerify (le (nth [] ins 0).reverse) (ecPoint (nth [] ins 1)) (ecInt (nth [] ins 2)) (ecInt (nth [] ins 3))
  | 0x14 => ecOn (ecPoint (nth [] ins 0))
  | _ => Config.pkValid op ins

/-- A verify job passes: its inputs are valid and so is the signature. -/
def pkPasses (op : Nat) (ins : List Bytes) : Bool := pkInputsOk op ins && pkVerdict op ins

/-- The check a · a⁻¹ ≡ 1 of MODINV (Table 6-3) fails: a has no inverse, or p is no prime. -/
def pkInvFails (r : PkRun) : Bool :=
  let a := le (nth [] r.ins 0)
  let p := le (nth [] r.ins 2)
  r.op == 0x04 && a * invMod (8 * (nth [] r.ins 2).length) p a % p != 1 % p

/-- ECODE with which a job ends (Table 6-1, R146), in the order of precedence given there. A limit is reached only where a
rejection loop runs, a fault found only where a check is made. -/
def pkOutcome (r : PkRun) (x : PkEnd) (s : State) : Nat :=
  if r.early ≠ 0 then r.early
  else if !pkInputsOk r.op r.ins then 5
  else if x.limit && pkSamples r.op then 7
  else if (x.fault && pkFaultChecked r.op) || pkInvFails r then 10
  else if s.pk.alarm then 8
  else if s.pk.kscut || (match r.dslot with | some d => !(slotS s d).empty | none => false) then 9
  else 0

/-- Result `i` of a job as an integer where Table 6-3 defines it exactly; with a modulus of 0 it defines none. The nonce of
ECDSA_SIGN is a free value (log entry 1), and so is a signature whose r or s would be 0, for which the standard draws again. -/
def pkExact (r : PkRun) (i : Nat) : Option Bytes :=
  let v (j : Nat) : Nat := le (nth [] r.ins j)
  let m := v 2
  let n := (nth [] r.ins 2).length
  let d := ecScalar (nth [] r.ins (if r.op = 0x10 then 0 else 1))
  if r.op ≤ 5 && m = 0 then none
  else match r.op with
    | 0x01 => some (toLe n ((v 0 + v 1) % m))
    | 0x02 => some (toLe n ((v 0 % m + m - v 1 % m) % m))
    | 0x03 => some (toLe n (v 0 * v 1 % m))
    | 0x04 => some (toLe n (invMod (8 * n) m (v 0)))
    | 0x05 => some (toLe n (powMod m r.ebits (v 0 % m) (v 1)))
    | 0x10 => (ecMul 384 d (some ecG)).map (fun q => toLe 48 q.1 ++ toLe 48 q.2)
    | 0x11 => (ecMul 384 d (some (ecPoint (nth [] r.ins 0)))).map (fun q => toBe 48 q.1)
    | 0x12 =>
      let g := ecdsaSign (Config.freeNat r.draw % (ecN - 1) + 1) (le (nth [] r.ins 0).reverse) d
      if g.1 = 0 || g.2 = 0 then none else some (toLe 48 (if i = 0 then g.1 else g.2))
    | _ => none

/-- The result of an operation is drawn, not determined by its inputs: signatures and encapsulation (R140, R143). -/
def pkDrawn (op : Nat) : Bool := op == 0x12 || op == 0x21 || op == 0x24

/-- `n` bytes of result `i` of a job (2: the key store result); FIPS 203 and 204 are opaque (log entry 2). -/
def pkOut (r : PkRun) (i n : Nat) : Bytes :=
  match pkExact r i with
  | some b => slice b 0 n
  | none => (List.range n).map (Config.pkByte r.op r.ins (if pkDrawn r.op then r.draw else 0) i)

/-- Phase 7 (R138, R142): results to KEEP slots, key store destination committed with origin PKE. -/
def pkCommit (r : PkRun) (s : State) : State :=
  match pkShape r.op s.pk.nw s.pk.ord with
  | none => s
  | some sh =>
    let put (slot i : Nat) (s : State) : State :=
      if i < sh.res.length then { s with pk := { s.pk with keep := cellPuts 0#8 (8 * s.pk.len * slot) (pkOut r i (nth 0 sh.res i)) s.pk.keep } } else s
    let s := put s.pk.res1 1 (put s.pk.res0 0 s)
    match r.dslot, sh.ksRes with
    | some d, some n => commitSlot d (pkOut r 2 n) 5 s.pk.dstUse s.pk.dstLock s
    | _, _ => s

/-- PK_STATUS.ITER after a job (R140, R143): the iterations of a signature that reached its loop, 64 where the 64th was
rejected; 0 after an unblinded MODEXP. -/
def pkIter (r : PkRun) (x : PkEnd) (e old : Nat) : Nat :=
  if r.op = 0x24 && (e = 0 || 7 ≤ e) then min 64 (max 1 x.iter) else if r.op = 0x05 && !r.ord then 0 else old

/-- The reset controller has zeroed both banks (R145). -/
def pkZeroDone (s : State) : State := { s with pk := { s.pk with zeroing := false, keep := [], wipeMem := [] } }

/-- Phase 8 (R145): WIPING, the WIPE bank is zeroed and read back; a nonzero word sets WIPEFAIL and its alarm. -/
def pkWipe (bad : Bool) (s : State) : State :=
  let s := { s with pk := { s.pk with wiping := true } }
  let s := { s with pk := { s.pk with wipeMem := [], wipefail := s.pk.wipefail || bad } }
  let s := if bad then setAlarm 18 s else s
  { s with pk := { s.pk with wiping := false } }

/-- A job's end (R138, R145, R146): commit or ECODE, wipe, source 5. The zeroing that follows a reset is over by then: a
job outlasts its 8,192 WCLK. -/
def pkFinish (x : PkEnd) (s : State) : State :=
  match s.pk.run with
  | none => s
  | some r =>
    let s := if s.pk.zeroing then pkZeroDone s else s
    let e := pkOutcome r x s
    let cut := match r.dslot with | some d => !(slotS s d).empty | none => false
    let s := if e = 0 then pkCommit r s else s
    let s := pkWipe x.wipeBad s
    let s := { s with pk := { s.pk with
      busy := false, run := none, done := s.pk.done || e == 0, err := s.pk.err || e != 0, ecode := e, kscut := s.pk.kscut || cut,
      valid := if pkVerdictOp r.op then e == 0 && pkVerdict r.op r.ins else s.pk.valid,
      iter := pkIter r x e s.pk.iter, cycles := x.cycles } }
    trace 6 0xFF (e + 256 * s.pk.iter) x.cycles (irq 5 s)

/-- A core store to PKE slot memory (R136, R145): a bus error while BUSY; it stalls while the banks are zeroed. -/
def pkMemWrite (off v : Nat) (s : State) : State :=
  if s.pk.zeroing then wdStall (0x21000000 + off) v s
  else if s.pk.busy then wdBusError s
  else if off < 0x8000 then wdOk { s with pk := { s.pk with keep := cellPuts 0#8 off (toLe 4 v) s.pk.keep } }
  else wdOk { s with pk := { s.pk with wipeMem := cellPuts 0#8 (off - 0x8000) (toLe 4 v) s.pk.wipeMem } }

/-- The store that stalled on PKE slot memory completes. -/
def pkStallDone (s : State) : State :=
  match s.wd.stall with
  | some (a, v) => if 0x21000000 ≤ a then pkMemWrite (a - 0x21000000) v { s with wd := { s.wd with stall := none } } else s
  | none => s

/-- A measurement command written while BUSY ends with ECODE 1; MS_IN is cleared as at the end of every command (R171). -/
def msBusy (s : State) : State := { s with ms := { s.ms with err := true, ecode := 1, msIn := [] } }

/-- A measurement command runs; MS_IN is cleared at its end (R171). -/
def msJob (cmd e : Nat) (s : State) : State := { s with ms := { s.ms with job := some ⟨cmd, e⟩ } }

/-- MS_CMD EXTEND (R158). -/
def msCmdExtend (n : Nat) (s : State) : State :=
  if s.ms.job.isSome then msBusy s
  else if 32 ≤ n then msJob 1 2 s
  else if (nth {} s.ms.slots n).locked then msJob 1 3 (logEvent 0x0106 0xFF (toLe 1 n ++ toLe 1 3) s)
  else msJob 1 0 (msExtend n 2 0 s.ms.msIn s)

/-- MS_CMD LOCK (R158). -/
def msCmdLock (n : Nat) (s : State) : State :=
  if s.ms.job.isSome then msBusy s else if 32 ≤ n then msJob 2 2 s else msJob 2 0 (msLock n s)

/-- TZERO's effect (R158, R304): slots 16 to 31, their counts and locks, MS_TGEN, and their partition of the log. -/
def msTzeroNow (s : State) : State :=
  { s with ms := { s.ms with
    slots := s.ms.slots.take 16 ++ List.replicate 16 {}, tgen := (s.ms.tgen + 1) % 2 ^ 32, logT := [], lostT := false } }

/-- MS_CMD TZERO (R158): refused while TKEYS is 1. -/
def msCmdTzero (s : State) : State :=
  if s.ms.job.isSome then msBusy s
  else if tkeys s then msJob 3 4 (logEvent 0x0106 0xFF (toLe 1 16 ++ toLe 1 4) s)
  else msJob 3 0 (msTzeroNow s)

/-- A measurement command finishes (R171): no interrupt; firmware polls BUSY. -/
def msComplete (s : State) : State :=
  match s.ms.job with
  | none => s
  | some j => { s with ms := { s.ms with
      job := none, msIn := [], done := s.ms.done || j.ecode == 0, err := s.ms.err || j.ecode != 0, ecode := j.ecode } }

end Sys2Proof.Machine
end

