-- ==== Sys2Proof/Machine/Frames.lean ====
section
/-! DEFINITION. Responses to mailbox commands (R223, R244, R245, R232, R235), the admission of a command (R54, R249,
R254, R255), the stage (R250, R251) and the feature masks (R205 to R208). -/

namespace Sys2Proof.Machine

/-- Status codes of Table 11-15. -/
abbrev stOk : Nat := 0x0000
abbrev stReplayed : Nat := 0x0001
abbrev stBusy : Nat := 0x0100
abbrev stResultFull : Nat := 0x0101
abbrev stQueueFull : Nat := 0x0102
abbrev stMalformed : Nat := 0x0200
abbrev stStaleGen : Nat := 0x0201
abbrev stTagConflict : Nat := 0x0202
abbrev stTagStale : Nat := 0x0203
abbrev stJobStale : Nat := 0x0204
abbrev stUnknownOpcode : Nat := 0x0205
abbrev stSealFail : Nat := 0x0206
abbrev stSealRequired : Nat := 0x0207
abbrev stBadHandle : Nat := 0x0208
abbrev stStageIncomplete : Nat := 0x0209
abbrev stBadState : Nat := 0x0300
abbrev stNotNegotiated : Nat := 0x0301
abbrev stUnavailable : Nat := 0x0302
abbrev stNotBindable : Nat := 0x0303
abbrev stAuthFail : Nat := 0x0400
abbrev stPolicy : Nat := 0x0401
abbrev stNoKey : Nat := 0x0402
abbrev stUnwrapFail : Nat := 0x0403
abbrev stIntegrity : Nat := 0x0404
abbrev stRevoked : Nat := 0x0405
abbrev stCapacity : Nat := 0x0500
abbrev stNotFound : Nat := 0x0501
abbrev stExists : Nat := 0x0502
abbrev stLimit : Nat := 0x0503
abbrev stUnitAbort : Nat := 0x0600
abbrev stVerifyFail : Nat := 0x0601
abbrev stFlashError : Nat := 0x0602
abbrev stPkeError : Nat := 0x0603
abbrev stCancelled : Nat := 0x0604

/-- Channel `c`. -/
def chanS (s : State) (c : Nat) : Chan := nth {} s.mb.chans c

/-- Update channel `c`. -/
def modChan (c : Nat) (f : Chan → Chan) (s : State) : State := { s with mb := { s.mb with chans := modNth c f s.mb.chans } }

/-- An SPDM session is open: FINISH has completed (R216). -/
def sessOpen (s : State) : Bool :=
  match s.sd.sess with
  | some x => x.opened
  | none => false

/-- The session's data key of a direction (DSP0277, from the export master secret in slot 8; log entry 2). -/
def sessKey (s : State) (rsp : Bool) : Bytes := Config.std (if rsp then 11 else 10) [(slotS s 8).content]

/-- IV of a secured message of sequence number `n` (DSP0277; log entry 2). -/
def sessIv (s : State) (rsp : Bool) (n : Nat) : Bytes := Config.std 12 [sessKey s rsp, toLe 8 n]

/-- The secured message that carries application data (R235): session ID, sequence number, length, ciphertext, MAC. -/
def sealRecord (s : State) (x : Sess) (rsp : Bool) (n : Nat) (data : Bytes) : Bytes :=
  let head := toLe 4 x.id ++ toLe 8 n ++ toLe 2 (data.length + 16)
  head ++ (List.range (data.length + 16)).map (Config.gcmByte true (sessKey s rsp) (sessIv s rsp n) head data)

/-- A response frame (Table 10-2) with its GEN still to be written at POST. -/
def rspFrame (op flags tag status : Nat) (payload : Bytes) : Bytes :=
  toLe 2 op ++ toLe 1 flags ++ toLe 1 0 ++ toLe 4 tag ++ toLe 4 payload.length ++ toLe 2 status ++ toLe 2 0
    ++ (Config.sha384 payload).take 16 ++ payload

/-- The management path as the sender of a command (R521): no channel of the mailbox. -/
abbrev mgCh : Nat := 8
/-- The PLDM update agent as the sender of a command (R196). -/
abbrev pldmCh : Nat := 9

/-- The MCTP packets of a message (R518): 64-byte units, SOM, EOM, packet sequence and tag in the fourth byte. -/
def mctpPackets (src dst tag : Nat) (m : Bytes) : List Bytes :=
  let n := (m.length + 63) / 64
  (List.range n).map (fun i => [0x01#8] ++ toLe 1 dst ++ toLe 1 src
    ++ toLe 1 (128 * b2n (i == 0) + 64 * b2n (i + 1 == n) + 16 * (i % 4) + tag) ++ (m.drop (64 * i)).take 64)

/-- WD_MG_TXGO (R517): packets of the transmit ring are sent; TXBUSY holds until the next microsecond. -/
def mgTxgo (n : Nat) (s : State) : State :=
  let k := n % 64
  { s with mg := { s.mg with sent := (s.mg.tx.take k).reverse ++ s.mg.sent, tx := s.mg.tx.drop k,
                             txBusy := s.mg.txBusy || decide (0 < min k s.mg.tx.length) } }

/-- Firmware sends packets: they enter the transmit ring, 48 at a time (R517). -/
def mgTransmit (ps : List Bytes) (s : State) : State :=
  (List.range ((ps.length + 47) / 48)).foldl (fun s i => mgTxgo 48 { s with mg := { s.mg with tx := (ps.drop (48 * i)).take 48 } }) s

/-- A message of the management endpoint to its peer leaves as packets (R518). -/
def mgOut (m : Bytes) (s : State) : State :=
  let g := s.mg
  emit (.mctp m) (mgTransmit (mctpPackets g.eid g.peer g.peerTag m) { s with mg := { g with resp := m :: g.resp } })

/-- A response leaves the management path: on I3C its IBI has the data byte 0xAE (Table 23-1). -/
def mgSend (m : Bytes) (s : State) : State :=
  let s := mgOut m { s with mg := { s.mg with busy := false } }
  if s.mg.da ≠ 0 && s.mg.ibiEn then emit (.ibi 0xAE) s else s

/-- A vendor response (R519): header of Table 23-3 with the frame status, then prefix and body. -/
def vendorRsp (op status : Nat) (p : Bytes) : Bytes := [0x7E#8, 0x1D#8, 0x7B#8] ++ toLe 2 op ++ [0#8] ++ toLe 2 status ++ p

/-- The session a sealed frame on channel `ch` came in is open: the one its header names (R235). -/
def sealSess (ch : Nat) (s : State) : Option Sess :=
  match s.sd.sess with
  | some x => if x.opened && (match (chanS s ch).frame with | some f => f.session == x.id | none => true) then some x else none
  | none => none

/-- Put a built response on its channel; a sealed one is sealed with the next response sequence number, or becomes
ST_SEAL_FAIL without payload when its session has ended (R235). On the management path it is a vendor message (R519). -/
def buildRsp (c : HostCall) (op flags status : Nat) (payload : Bytes) (s : State) : State :=
  if c.ch = mgCh then mgSend (vendorRsp op status payload) s
  else if !c.sealed then modChan c.ch (fun x => { x with built := some (rspFrame op flags c.tag status payload) }) s
  else match sealSess c.ch s with
    | some x =>
      let p := sealRecord s x true x.txSeq payload
      modChan c.ch (fun y => { y with built := some (rspFrame op (flags + 1) c.tag status p) })
        { s with sd := { s.sd with sess := some { x with txSeq := x.txSeq + 1 } } }
    | none => modChan c.ch (fun y => { y with built := some (rspFrame op 0 c.tag stSealFail []), ref := none }) s

/-- A response payload, inline up to 224 bytes and otherwise a result object with the creating frame's tag as handle
(R232, R245); whole on the management path (R518). A response that is discarded leaves no object: the reset that discards it
has released the store (R236). -/
def answerBytes (c : HostCall) (op status : Nat) (p : Bytes) (s : State) : State :=
  if p.length ≤ 224 || c.ch = mgCh then buildRsp c op 0 status p s
  else
    let d := toLe 4 c.tag ++ toLe 4 p.length ++ (Config.sha384 p).take 8
    let keep (x : Chan) : Chan := if x.discard then x else { x with objs := x.objs ++ [(c.tag, p)], ref := some c.tag }
    buildRsp c op 4 status d (modChan c.ch keep s)

/-- Bytes of a command's response body with its variable part empty (Tables 11-4 to 11-14, Table 23-5). A message whose
whole is one object (a clear receipt, a batch root, an exchange message, a PKCS#10 request, a set key statement, object
bytes) is such a part (DESIGN CHOICE, log entry 82). -/
def bodyLen (op : Nat) : Nat :=
  match op with
  | 0x000 => 16 | 0x001 => 16 | 0x002 => 20 | 0x003 => 4 | 0x006 => 8
  | 0x100 => 16 | 0x101 => 8 | 0x102 => 8 | 0x103 => 1664
  | 0x200 => 8 | 0x201 => 8 | 0x202 => 12 | 0x203 => 12 | 0x204 => 8 | 0x205 => 16 | 0x206 => 8
  | 0x300 => 20 | 0x301 => 8 | 0x302 => 8 | 0x303 => 8 | 0x304 => 56 | 0x305 => 12
  | 0x400 => 56 | 0x401 => 8 | 0x402 => 8 | 0x403 => 16 | 0x404 => 16
  | 0x500 => 8 | 0x502 => 8 | 0x503 => 8 | 0x505 => 8
  | 0x600 => 48 | 0x602 => 8 | 0x604 => 4
  | 0x700 => 12 | 0x701 => 4 | 0x702 => 4 | 0x703 => 16 | 0x704 => 12 | 0x705 => 4096 | 0x708 => 4
  | 0x800 => 60 | 0x801 => 4 | 0x802 => 8 | 0x803 => 4 | 0x804 => 4 | 0x805 => 4 | 0x806 => 4
  | 0x900 => 16 | 0x902 => 8 | 0x903 => 16
  | 0xA00 => 40 | 0xA01 => 4 | 0xA02 => 4
  | 0xB00 => 4 | 0xB01 => 4 | 0xB02 => 4 | 0xB10 => 4
  | _ => 0

/-- Empty the stage and release its owner (R250). -/
def stageEmpty (s : State) : State := { s with mb := { s.mb with stage := [], stageHigh := 0, stageOwner := none } }

/-- Empty the management path's stage (R520). -/
def mgStageEmpty (s : State) : State := { s with mg := { s.mg with stage := [], stageHigh := 0 } }

/-- Empty the stage of a command's sender; another channel's stage stands (DESIGN CHOICE, log entry 83). -/
def stageClearFor (c : HostCall) (s : State) : State :=
  if c.ch = mgCh then mgStageEmpty s else if s.mb.stageOwner == some c.ch then stageEmpty s else s

/-- Commands whose request carries a stage reference (R251). -/
def namesStage (op : Nat) : Bool := op ∈ [0x200, 0x204, 0x300, 0x302, 0x601, 0x604, 0xA01, 0xA02, 0xB04, 0xB06]

/-- The response of a command that reached check 13: prefix of Table 11-1, then its body, whose fields that a failing
status leaves undetermined read zero (R244). The command completes here, so the stage it names is emptied (R250). -/
def answer (c : HostCall) (op word status detail : Nat) (body : Bytes) (s : State) : State :=
  let body := if status = stOk then body else body ++ List.replicate (bodyLen op - body.length) 0#8
  answerBytes c op status (toLe 2 status ++ toLe 2 detail ++ toLe 4 word ++ body) (if namesStage op then stageClearFor c s else s)

/-- What a command's body answers: the state, and the response now (status, detail, body) or none when it waits. -/
structure CmdRes where
  s : State
  reply : Option (Nat × Nat × Bytes)
  /-- STATE of the prefix shows the state after the command (R257). -/
  after : Bool
deriving DecidableEq, Repr

/-- The command ends with ST_OK and a body. -/
def cmdOk (s : State) (body : Bytes) : CmdRes := ⟨s, some (stOk, 0, body), false⟩
/-- The command ends with a failing status and no field of its body determined (R244). -/
def cmdFail (s : State) (st detail : Nat) : CmdRes := ⟨s, some (st, detail, []), false⟩
/-- The response comes later. -/
def cmdWait (s : State) : CmdRes := ⟨s, none, false⟩

/-- An accepted feature bit (Table 9-4). -/
def feat (s : State) (b : Nat) : Bool := bit s.hb.accept b

/-- A life cycle code: 1 FACTORY, 2 MISSION, 3 RETURN. -/
def lcOf (s : State) : Nat := s.otp.lc

/-- The offered mask (R206, Table 9-4). -/
def offerMask (s : State) : Nat :=
  let b (i : Nat) (c : Bool) : Nat := if c then 2 ^ i else 0
  b 0 (lcOf s == 2) + b 1 (lcOf s == 1 || lcOf s == 2 || lcOf s == 3) + b 2 true + b 3 true
    + b 4 (asmOf s == some .m8 || asmOf s == some .m6) + b 5 (s.pkg.mode == .opened) + b 6 true + b 7 true
    + b 8 (s.pkg.mode == .confidential) + b 9 (lcOf s == 2)

/-- Extend slot 8 with mode and accepted mask (Table 7-3). -/
def extendMode (s : State) : State :=
  msRecord 8 (toLe 1 s.pkg.mode.code ++ toLe 3 0 ++ toLe 16 s.hb.accept) s

/-- Opcodes of WFW 4.x (Tables 11-4 to 11-14). -/
def opKnown (op : Nat) : Bool :=
  op ≤ 7 || (0x100 ≤ op && op ≤ 0x103) || (0x200 ≤ op && op ≤ 0x207) || (0x300 ≤ op && op ≤ 0x306)
    || (0x400 ≤ op && op ≤ 0x404) || (0x500 ≤ op && op ≤ 0x507) || (0x600 ≤ op && op ≤ 0x604)
    || (0x700 ≤ op && op ≤ 0x708) || (0x800 ≤ op && op ≤ 0x806) || (0x900 ≤ op && op ≤ 0x904)
    || (0xA00 ≤ op && op ≤ 0xA04)

/-- Check 7 (R254): commands that must be sealed in CONFIDENTIAL mode. -/
def sealNeeded (op : Nat) (payload : Bytes) (s : State) : Bool :=
  s.pkg.mode == .confidential && (op == 0x705 || op == 0x903 || (op == 0x900 && field payload 10 1 == 1))

/-- Table 2-8 with the classes of R249 and Table 8-5. -/
def groupOk (op : Nat) (payload : Bytes) (st : PState) : Bool :=
  let g := op / 256
  let ro7 := op == 0x700 || op == 0x703 || op == 0x704 || op == 0x705
  match st with
  | .bringup => if g = 0 then op != 1 && op != 2 else if g = 7 then ro7 else g == 9
  | .idle => g ≤ 2 || (5 ≤ g && g ≤ 10)
  | .loading => if g = 0 then op != 2 else if g = 2 then op == 0x205 || op == 0x206 || op == 0x207 else g == 1 || g == 5 || g == 7 || g == 9
  | .active =>
    if g = 0 then op != 2 else if g = 8 then op != 0x805 else if g = 10 then op == 0xA00 || op == 0xA03
    else g ≤ 7 || g == 9
  | .switching => if g = 0 then op != 2 else if g = 2 then op == 0x205 || op == 0x206 || op == 0x207 else g == 1 || g == 7 || g == 9
  | .quarantine =>
    if g = 0 then op != 1 && op != 2 else if g = 1 then op == 0x101 || op == 0x102 || (op == 0x100 && field payload 33 1 % 2 == 1)
    else if g = 7 then ro7 else if g = 8 then op != 0x805 else g == 9 || g == 10
  | .recovery =>
    if g = 0 then op != 1 && op != 2 else if g = 1 then op == 0x101 || op == 0x102 || (op == 0x100 && field payload 33 1 % 2 == 1)
    else if g = 7 then ro7 else g == 8 || g == 9 || g == 10
  | _ => false

/-- The states of a command, where its entry narrows those of its group (R258, R260). -/
def accepts (op : Nat) (payload : Bytes) (st : PState) : Bool :=
  groupOk op payload st && (op != 2 || st == .idle) && (op != 0x202 || st == .idle) && (op != 0x203 || st == .active)

/-- The package reaches a state that accepts the command without host action (R54): BRINGUP and SWITCHING end in IDLE,
LOADING in ACTIVE. MODE_SET answers ST_BUSY in all three (R258). -/
def awaits (op : Nat) (payload : Bytes) (st : PState) : Bool :=
  match st with
  | .bringup | .switching => accepts op payload .idle
  | .loading => op == 2 || accepts op payload .active
  | _ => false

/-- Feature bit a command needs at check 9 (R255). -/
def featNeeded (op : Nat) : Option Nat :=
  if op = 0x404 || op = 0x904 then some 2 else if op = 0x302 then some 9 else if op = 0x506 then some 5
  else if op = 0x601 || op = 0x602 then some 7 else if op = 0x507 then some 0 else if op = 0x708 then some 8 else none

/-- Checks 6 to 9 of Table 10-4: the status of the first that fails. -/
def admission (op : Nat) (isSealed : Bool) (payload : Bytes) (s : State) : Option Nat :=
  if !opKnown op then some stUnknownOpcode
  else if sealNeeded op payload s && !isSealed then some stSealRequired
  else if !groupOk op payload s.pkg.st then some (if awaits op payload s.pkg.st then stBusy else stBadState)
  else match featNeeded op with
    | some b => if feat s b then none else some stNotNegotiated
    | none => none

/-- Jobs waiting in the queue. -/
def pqJobs (s : State) : Nat := s.pq.wait.foldl (fun n e => n + e.left.length) 0

/-- Room for `n` more jobs (R152: at most 32). -/
def pqRoom (n : Nat) (s : State) : Bool := pqJobs s + n ≤ 32

/-- PKE jobs of the entry a command queues first (Table 6-6, R152): the entries that follow it check their own room. -/
def pkeNeed (op : Nat) (p : Bytes) (s : State) : Nat :=
  match op with
  | 0x100 => if field p 33 1 % 2 = 1 then 0 else 2
  | 0x103 => if s.idn.eph.isSome then 0 else 1
  | 0x200 => 2 | 0x204 => 2 | 0x301 => 2 | 0x302 => 2 | 0x601 => 2 | 0x604 => 2 | 0x804 => 2 | 0xA01 => 2 | 0xA02 => 2
  | _ => 0

/-- A command in execution (R244, R256, R257): checks 6 to 9, room for its PKE entries (R152), then its body, which begins
with check 13. -/
def runCmd (op : Nat) (f : HostCall → State → CmdRes) (c : HostCall) (s : State) : State :=
  match admission op c.sealed c.payload s with
  | some st => buildRsp c op 0 st [] s
  | none =>
    if !pqRoom (pkeNeed op c.payload s) s then buildRsp c op 0 stBusy [] s
    else
    let r := f c s
    match r.reply with
    | none => r.s
    | some (st, d, body) => answer c op (stateWord (if r.after then r.s else s)) st d body r.s

/-- A request of exactly `n` bytes (R243). -/
def sized (n : Nat) (f : HostCall → State → CmdRes) (c : HostCall) (s : State) : CmdRes :=
  if c.payload.length = n then f c s else cmdFail s stMalformed 0

/-- Bytes written to the stage a command names, from 0 to the highest. -/
def stageBytes (c : HostCall) (s : State) : Bytes :=
  if c.ch = mgCh then cellGets 0#8 0 s.mg.stageHigh s.mg.stage else cellGets 0#8 0 s.mb.stageHigh s.mb.stage

/-- The stage reference at `off` names the stage (R251): owner, length and digest. -/
def stageOk (c : HostCall) (off : Nat) (s : State) : Bool :=
  let b := stageBytes c s
  (c.ch == mgCh || s.mb.stageOwner == some c.ch) && field c.payload off 4 == b.length && slice c.payload (off + 8) 16 == (Config.sha384 b).take 16

/-- A command that names the stage at `off`: ST_STAGE_INCOMPLETE before any other field is read (R251). -/
def staged (n off : Nat) (f : Bytes → HostCall → State → CmdRes) (c : HostCall) (s : State) : CmdRes :=
  if c.payload.length ≠ n then cmdFail s stMalformed 0
  else if !stageOk c off s then cmdFail s stStageIncomplete 0
  else if !allZero (slice c.payload (off + 4) 4) then cmdFail s stMalformed 0
  else f (stageBytes c s) c s

end Sys2Proof.Machine
end

