-- ==== Sys2Proof/Machine/PkQueue.lean ====
section
/-! DEFINITION. The PKE queue of warden firmware (R152, Table 6-6): entries, classes, promotions, and starting a job. -/

namespace Sys2Proof.Machine

/-- μ of ML-DSA with an empty context (R143, R161). -/
def mldsaMu (pk m : Bytes) : Bytes :=
  let tr := (List.range 64).map (Config.hashByte 4 pk)
  (List.range 64).map (Config.hashByte 4 (tr ++ [0#8, 0#8] ++ m))

/-- Identity public keys, zeros while none exist (R293). -/
def identQ (s : State) : Bytes := match s.idn.ident with | some (q, _) => q | none => List.replicate 96 0#8
def identPk (s : State) : Bytes := match s.idn.ident with | some (_, p) => p | none => List.replicate 2592 0#8

/-- The two signatures of one signed object (R152, R298, R328). -/
def signJobs (s : State) (m : Bytes) : List PkJobD :=
  [⟨0x12, [Config.sha384 m], some 1, none, 0⟩, ⟨0x24, [mldsaMu (identPk s) m], some 2, none, 0⟩]

/-- The jobs that verify both signatures over `m` (R161). Qx ‖ Qy and r ‖ s come big-endian, as objects carry them; the
engine takes words (R137). -/
def verifyJobs (q pk m sigEc sigMl : Bytes) : List PkJobD :=
  [⟨0x13, [Config.sha384 m, ecWire2 q, ecWire sigEc, ecWire (sigEc.drop 48)], none, none, 0⟩,
   ⟨0x25, [mldsaMu pk m, pk, sigMl], none, none, 0⟩]

/-- Both signatures verify. -/
def bothValid (q pk m sigEc sigMl : Bytes) : Bool :=
  (verifyJobs q pk m sigEc sigMl).all (fun j => pkPasses j.op j.ins)

/-- The waiting entry that starts next: the oldest of the lowest class. -/
def pqPick : List PqEntry → Option PqEntry
  | [] => none
  | e :: r =>
    match pqPick r with
    | none => some e
    | some f => if f.cls < e.cls then some f else some e

/-- Promotion of a waiting entry when `e`, enqueued after it, starts before it (R152). -/
def pqPromote (e w : PqEntry) : PqEntry :=
  if e.id < w.id then w
  else if w.cls = 1 && e.cls = 0 then { w with cls := 0 }
  else if w.cls = 2 && e.cls ≤ 1 then
    (if 8 ≤ w.passed + 1 then { w with cls := 1, passed := 0 } else { w with passed := w.passed + 1 })
  else w

/-- ECODE of an early end of a firmware job (Table 6-1): wipe failed before, key operand refused, DRBG unhealthy. -/
def pkEarly (j : PkJobD) (s : State) : Nat :=
  match pkShape j.op 6 false with
  | none => 2
  | some sh =>
    if s.pk.wipefail then 1
    else if !pkSlotsOk sh (j.kslot.getD 64) (j.dslot.getD 64) j.use s then 3
    else if sh.random && !s.ks.drbgOk then 4 else 0

/-- Start one job of firmware's queue: BUSY, and what it reads is taken (R138). -/
def pqStartJob (j : PkJobD) (s : State) : State :=
  let priv := match j.kslot with | some k => [(slotS s k).content] | none => []
  let run : PkRun := { op := j.op, ins := j.ins ++ priv, kslot := j.kslot, dslot := j.dslot, draw := s.draws, ebits := 0, ord := false, early := pkEarly j s }
  pkBegin run { s with pk := { s.pk with
    op := j.op, ksin := j.kslot.isSome, kslot := j.kslot.getD 0, ksout := j.dslot.isSome, dslot := j.dslot.getD 0,
    dstUse := j.use, dstLock := false, nw := 6, ebits := 0, ord := false, res0 := 0, res1 := 16 } }

/-- The batch whose entry starts no longer waits: the hold of R358 ends. -/
def batchStarts (p : Purp) (s : State) : State :=
  match p with
  | .batch => { s with rc := { s.rc with signing := s.rc.waiting, waiting := none } }
  | _ => s

/-- Start the next entry when the engine is free (R152). -/
def pqDispatch (s : State) : State :=
  if s.pk.busy || s.pk.zeroing || s.pq.run.isSome then s
  else match pqPick s.pq.wait with
    | none => s
    | some e =>
      let wait := (s.pq.wait.filter (fun w => w.id != e.id)).map (pqPromote e)
      match e.left with
      | [] => { s with pq := { s.pq with wait := wait } }
      | j :: _ => pqStartJob j (batchStarts e.purp { s with pq := { s.pq with wait := wait, run := some e } })

/-- Queue an entry, and start it at once when the engine is free. -/
def pqAdd (cls : Nat) (p : Purp) (jobs : List PkJobD) (s : State) : State :=
  let e : PqEntry := { id := s.pq.next, cls := cls, passed := 0, purp := p, jobs := jobs, left := jobs, results := [], again := false }
  pqDispatch { s with pq := { s.pq with wait := s.pq.wait ++ [e], next := s.pq.next + 1 } }

end Sys2Proof.Machine
end

