-- ==== Sys2Proof/Machine/Data.lean ====
section
/-! DEFINITION. Operations the data families share: residence and epoch (R318), flash queue (R317), subtree stacks
(R337), outbound records (R281), completion rings (R378, R438), receipts (R352 to R361), link entries (R459),
ending apertures and sessions (R284), invalidation (R427). -/

namespace Sys2Proof.Machine

/-- Port die of ordinal `d`. -/
def pxS (s : State) (d : Nat) : PortX := nth {} s.px d
/-- Update port die `d`. -/
def modPx (d : Nat) (f : PortX → PortX) (s : State) : State := { s with px := modNth d f s.px }
/-- Aperture `a` of port die `d`. -/
def apS (s : State) (d a : Nat) : Aper := nth {} (pxS s d).aps a
/-- Update an aperture. -/
def modAp (d a : Nat) (f : Aper → Aper) (s : State) : State := modPx d (fun x => { x with aps := modNth a f x.aps }) s
/-- A job by its ID. -/
def jobS (s : State) (id : Nat) : Option Job := s.jb.list.find? (fun j => j.id == id)
/-- Update a job. -/
def modJob (id : Nat) (f : Job → Job) (s : State) : State :=
  { s with jb := { s.jb with list := s.jb.list.map (fun j => if j.id = id then f j else j) } }
/-- A job is in no final state (R373). -/
def JState.live (x : JState) : Bool := x == .queued || x == .parked || x == .running
/-- A tag by its number. -/
def astS (s : State) (tag : Nat) : Option Ast := s.xl.asts.find? (fun a => a.tag == tag)
/-- Update a tag. -/
def modAst (tag : Nat) (f : Ast → Ast) (s : State) : State :=
  { s with xl := { s.xl with asts := s.xl.asts.map (fun a => if a.tag = tag then f a else a) } }
/-- Tile `t`'s job side. -/
def tileJ (s : State) (t : Nat) : TileJ := nth {} s.jb.tiles t
/-- Update it. -/
def modTileJ (t : Nat) (f : TileJ → TileJ) (s : State) : State := { s with jb := { s.jb with tiles := modNth t f s.jb.tiles } }
/-- Tile `t`'s power side. -/
def tileP (s : State) (t : Nat) : TileP := nth {} s.pw.tiles t
/-- Update it. -/
def modTileP (t : Nat) (f : TileP → TileP) (s : State) : State := { s with pw := { s.pw with tiles := modNth t f s.pw.tiles } }
/-- Memory controller of tile `t`. -/
def mcS (s : State) (t : Nat) : MemCtl := nth {} s.jb.mc t
/-- Update it. -/
def modMc (t : Nat) (f : MemCtl → MemCtl) (s : State) : State := { s with jb := { s.jb with mc := modNth t f s.jb.mc } }
/-- A weight handle. -/
def wpkS (s : State) (h : Nat) : Option Wpk := s.wk.hs.find? (fun w => w.handle == h)
/-- Update it. -/
def modWpk (h : Nat) (f : Wpk → Wpk) (s : State) : State :=
  { s with wk := { s.wk with hs := s.wk.hs.map (fun w => if w.handle = h then f w else w) } }
/-- A value that binding records hold has changed (R303): none of them is current again. -/
def bindsMove (s : State) : State := { s with idn := { s.idn with binds := s.idn.binds.map (fun b => { b with moved := true }) } }
/-- Set a unit's USTATE. -/
def setU (u : Nat) (x : UState) (s : State) : State :=
  let s := if (unitS s u).ustate == x then s else bindsMove s
  modUnit u (fun y => { y with ustate := x }) s
/-- USTATE codes of R265. -/
def UState.code : UState → Nat
  | .absent => 0 | .up => 1 | .resetting => 2 | .stopped => 3 | .failed => 4
/-- Order of restriction of R499. -/
def UState.rank : UState → Nat
  | .absent => 0 | .up => 1 | .stopped => 2 | .resetting => 3 | .failed => 4

/-- Advance a performance counter (Table 21-4). -/
def perfAdd (set ix n : Nat) (s : State) : State :=
  let k := 512 * set + ix
  if n = 0 then s else { s with pw := { s.pw with perf := putKey k ((lookupNat k s.pw.perf).getD 0 + n) s.pw.perf } }

/-- tc4-boot (Table 13-4): the first 16 bytes of SHA-384 of the boot nonce. -/
def bootTag (s : State) : Bytes := (Config.sha384 s.boot.bootNonce).take 16
/-- The record at a roster index. -/
def recS (s : State) (i : Nat) : Option TRec := s.tn.ro.recs[i]?
/-- Update it. -/
def modRec (i : Nat) (f : TRec → TRec) (s : State) : State :=
  { s with tn := { s.tn with ro := { s.tn.ro with recs := modNth i f s.tn.ro.recs } } }
/-- Index of the RESIDENT record (R40). -/
def residentIx (s : State) : Option Nat := s.tn.ro.recs.findIdx? (fun r => r.state == .resident)
/-- TID of the residence's record; 0 with none. -/
def resTid (s : State) : Nat := match recS s s.tn.ld.idx with | some r => r.tid | none => 0

/-- Queue a background flash write (R317): its head runs when no synchronous operation does. -/
def fqAdd (j : FJob) (s : State) : State :=
  let q := s.fq.q ++ [j]
  { s with fq := { s.fq with q := q, busy := s.fq.busy || s.fq.sync.isNone } }

/-- Queue the background write of a record as it reads now (R317). -/
def recQueue (i : Nat) (s : State) : State :=
  match recS s i with
  | some r => fqAdd (.record i r) s
  | none => s

/-- Interior node of the page and receipt trees (R337, R355). -/
def mthNode (l r : Bytes) : Bytes := Config.sha384 ([0x01#8] ++ l ++ r)
/-- Fold a complete subtree into the stack of complete-subtree roots, smallest first. -/
def mthPush (n : Nat) (x : Bytes) : List (Nat × Bytes) → List (Nat × Bytes)
  | [] => [(n, x)]
  | (m, y) :: r => if m = n then mthPush (2 * n) (mthNode y x) r else (n, x) :: (m, y) :: r
/-- Merge the remaining roots. -/
def mthClose : List (Nat × Bytes) → Bytes
  | [] => []
  | (_, x) :: r => r.foldl (fun acc p => mthNode p.2 acc) x
/-- MTH over a list of leaves. -/
def mthRoot (l : List Bytes) : Bytes := mthClose (l.foldl (fun st x => mthPush 1 x st) [])

/-- The key a key port holds. -/
def portKey (s : State) (u idx : Nat) : Option Bytes := ((unitS s u).ports.find? (fun k => k.index == idx)).map (fun k => k.key)
/-- IV of an aperture record (R282). -/
def apIv (key : Bytes) (i seq : Nat) : Bytes := List.zipWith (· ^^^ ·) (slice key 32 12) (toLe 4 i ++ toLe 4 seq ++ toLe 4 0)
/-- AAD of an aperture record (R282). -/
def apAad (apidx dir kgen i seq rlen : Nat) : Bytes :=
  toLe 1 apidx ++ toLe 1 dir ++ toLe 1 kgen ++ [0#8] ++ toLe 4 i ++ toLe 4 seq ++ toLe 2 rlen ++ toLe 2 0
/-- A record-state entry. -/
def recSt (s : State) (d e : Nat) : Nat := (lookupNat e (pxS s d).recst).getD 0
/-- Set one. -/
def setRecSt (d e v : Nat) (s : State) : State :=
  modPx d (fun x => { x with recst := if v = 0 then dropKey e x.recst else putKey e v x.recst }) s

/-- One outbound record (R281 to R283): the state, and 0 or the status that ends the descriptor. The host write is
named by the device address of the tag (log entry 7). -/
def outRec (d a i : Nat) (data : Bytes) (s : State) : State × Nat :=
  let ap := apS s d a
  match portKey s (unitOfOrd s d) a with
  | none => (s, stNoKey)
  | some k =>
    if !ap.valid || !ap.keyed || decide (a ∈ (pxS s d).quiesce) then (s, stNoKey)
    else if ap.exh || recSt s d (ap.rtbase + i) = 0xFFFFFFFF then (s, stLimit)
    else
      let seq := recSt s d (ap.rtbase + i) + 1
      let r := (List.range (data.length + 16)).map
        (Config.gcmByte true (k.take 32) (apIv k i seq) (apAad (64 * d + a) 2 ap.kgen i seq data.length) data)
      let md := toLe 4 seq ++ toLe 2 data.length ++ toLe 1 ap.kgen ++ toLe 9 0 ++ r.drop data.length
      let s := perfAdd 0 4 data.length (setRecSt d (ap.rtbase + i) seq s)
      let s := modAp d a (fun x => { x with invoc := x.invoc + 1, exh := decide (2 ^ 32 ≤ x.invoc + 1), bytes := x.bytes + data.length }) s
      (emit (.hostWrite d (ap.dbase + ap.len + 32 * i) md) (emit (.hostWrite d (ap.dbase + 4096 * i) (r.take data.length)) s), 0)

/-- Write completion record `n` of a tag (R438): sealed through the ring aperture in CONFIDENTIAL, plain in OPEN; none
while it must wait. -/
def ringWrite (a : Ast) (n : Nat) (rec : Bytes) (s : State) : Option State :=
  let slot := (n - 1) % 2 ^ a.ring
  let pt := putKey slot rec a.ringPt
  if s.pkg.mode == .confidential then
    let ap := apS s a.die a.apidx
    if !(ap.valid && ap.outbound && ap.ast == a.tag && ap.dbase == 0 && decide (256 * 2 ^ a.ring ≤ ap.len)) then none
    else
      let page := (List.range 16).flatMap (fun i => slice ((lookupNat (16 * (slot / 16) + i) pt).getD []) 0 256)
      let r := outRec a.die a.apidx (slot / 16) page s
      if r.2 = 0 then some (modAst a.tag (fun x => { x with ringPt := pt }) r.1) else none
  else some (emit (.hostWrite a.die (256 * slot) rec) (modAst a.tag (fun x => { x with ringPt := pt }) s))

/-- Send a job's vector by the function of its stream's die (R378). -/
def jobVector (jid vec : Nat) (s : State) : State :=
  if vec = 0 then s else match jobS s jid with | some j => sendVec j.die vec s | none => s

/-- Write held completion records of a tag in order while there is room (R378, R438). -/
def ringFlushN (tag : Nat) : Nat → State → State
  | 0, s => s
  | n + 1, s =>
    match astS s tag with
    | none => s
    | some a =>
      match a.held with
      | [] => s
      | (jid, rec, vec) :: r =>
        if 2 ^ a.ring < field rec 32 8 - a.ctail then s
        else match ringWrite a (field rec 32 8) rec s with
          | none => s
          | some s1 => ringFlushN tag n (jobVector jid vec (modAst tag (fun x => { x with held := r }) s1))

/-- Write what may be written now; under quantisation only a grid point writes (R490). -/
def ringFlush (grid : Bool) (tag : Nat) (s : State) : State :=
  if s.pw.quant && !grid then s
  else match astS s tag with
    | some a => ringFlushN tag a.held.length s
    | none => s

/-- The completion record of a job (Table 17-5). -/
def complRec (j : Job) (cseq : Nat) : Bytes :=
  toLe 8 j.id ++ toLe 2 j.status ++ toLe 2 j.detail ++ toLe 1 j.st.code ++ toLe 1 j.tiles
    ++ toLe 1 (b2n (j.rcptSeq != 0) + 2 * b2n j.retry + 4 * b2n j.spill + 8 * b2n j.ovf) ++ [0#8]
    ++ toLe 8 j.rcptSeq ++ toLe 8 j.written ++ toLe 8 cseq ++ toLe 24 0 ++ slice j.record 0 128 ++ toLe 64 0

/-- A job in a final state yields its completion record (R378); a tag without a ring has none, and its vector follows
the final state. -/
def postCompletion (jid : Nat) (s : State) : State :=
  match jobS s jid with
  | none => s
  | some j =>
    match astS s j.ast with
    | none => s
    | some a =>
      if a.ring = 0 then jobVector jid j.vector s
      else ringFlush false a.tag (modAst a.tag (fun x =>
        { x with cseq := x.cseq + 1, held := x.held ++ [(jid, complRec j (x.cseq + 1), j.vector)] }) s)

/-- End link key entry `n` on every port die (R459). -/
def lkeEnd (n : Nat) (s : State) : State :=
  (List.range (portUnits s).length).foldl (fun s d =>
    let s := fwKpzero (unitOfOrd s d) (0x80 + n) s
    { s with ln := { s.ln with dies := modNth d (fun x => { x with lke := x.lke.set n {} }) s.ln.dies } }) s

/-- End the installed entries of a job (R459). -/
def lkeJobEnd (jid : Nat) (s : State) : State :=
  let s := (s.ln.inst.filter (fun p => p.job == jid)).foldl (fun s p => lkeEnd p.entry s) s
  { s with ln := { s.ln with inst := s.ln.inst.filter (fun p => p.job != jid) } }

/-- End the pending exchanges and the entries of a job (R459). -/
def linkJobEnd (jid : Nat) (s : State) : State :=
  let s := zeroSlots ((s.ln.pend.filter (fun p => p.job == jid)).map (fun p => p.slot)) s
  lkeJobEnd jid { s with ln := { s.ln with pend := s.ln.pend.filter (fun p => p.job != jid) } }

/-- A job reaches a final state (R373): its stream is free, its completion record is posted, its link keys end. -/
def jobEnd (st : JState) (status detail jid : Nat) (s : State) : State :=
  match jobS s jid with
  | none => s
  | some j =>
    if !j.st.live then s
    else
      let s := modJob jid (fun j => { j with st := st, status := status, detail := detail, park := .none, ending := false, batches := [] }) s
      let s := { s with px := s.px.map (fun x => { x with streams := x.streams.filter (fun p => p.2.job != jid) }),
                        rc := { s.rc with held := s.rc.held.filter (· != jid) },
                        jb := { s.jb with tiles := s.jb.tiles.map (fun (t : TileJ) => { t with queue := t.queue.filter (fun q => q.2 != jid) }) } }
      let s := if st = .done then perfAdd 0 0 1 { s with idn := { s.idn with jobsDone := s.idn.jobsDone + 1 } }
        else if st = .aborted then perfAdd 0 1 1 s else s
      let s := if s.ln.inst.any (fun p => p.job == jid) then lkeJobEnd jid s else s
      postCompletion jid (trace 4 0xFF status jid s)

/-- End several jobs. -/
def jobsEnd (st : JState) (status detail : Nat) (l : List Nat) (s : State) : State :=
  l.foldl (fun s j => jobEnd st status detail j s) s

/-- IDs of the live jobs that satisfy a test. -/
def jobIds (p : Job → Bool) (s : State) : List Nat := (s.jb.list.filter (fun j => j.st.live && p j)).map (fun j => j.id)

/-- Batch number of the batch that closes next (R357). -/
def batchNum (s : State) : Nat := s.tn.ro.boots * 2 ^ 32 + s.rc.count

/-- Body of a batch (Table 16-2). -/
def batchBody (code : Nat) (b : Batch) (root : Bytes) (s : State) : Bytes :=
  toLe 4 0x42435254 ++ toLe 2 1 ++ toLe 1 b.ctxs.length ++ toLe 1 (code + 8 * b2n b.spill)
    ++ toLe 8 (batchNum s) ++ toLe 8 (epochOf s) ++ toLe 8 (resTid s) ++ mfgId s ++ bootTag s
    ++ toLe 8 b.first ++ toLe 4 b.records ++ toLe 1 s.otp.asm ++ toLe 1 s.otp.lc ++ toLe 1 s.pkg.mode.code ++ [0#8]
    ++ toLe 8 b.tOpen ++ toLe 8 s.wd.time ++ root
    ++ slice (b.ctxs.flatMap (fun c => c.prog ++ c.wroot ++ c.meas)) 0 1152

/-- Close the open batch and queue its signing entry (R358). -/
def closeBatch (code : Nat) (p : Purp) (s : State) : State :=
  match s.rc.cur with
  | none => s
  | some b =>
    let root := mthClose b.stack
    let body := batchBody code b root s
    let cb : CBatch := ⟨batchNum s, b.records, root, body⟩
    let jobs := signJobs s (toLe 4 1288 ++ body)
    pqAdd 0 p jobs (trace 12 0xFF (code + 256 * b.records) (batchNum s)
      { s with rc := { s.rc with cur := none, waiting := some cb, count := s.rc.count + 1 } })

/-- A closure falls due (R356, R358): at once, or when the hold ends. -/
def closeDue (code : Nat) (s : State) : State :=
  if s.rc.cur.isNone then s
  else if s.rc.waiting.isSome then { s with rc := { s.rc with due := if s.rc.due.isSome then s.rc.due else some code } }
  else closeBatch code .batch s

/-- The record of a job (Table 16-1). -/
def rcptRecord (j : Job) (seq cidx : Nat) : Bytes :=
  let n (len : Nat) : Nat := (len + 65535) / 65536
  toLe 8 j.id ++ toLe 8 seq ++ toLe 1 cidx ++ toLe 1 (b2n j.spill) ++ toLe 1 j.tiles ++ [0#8]
    ++ toLe 4 (n j.inLen) ++ toLe 4 (n j.outLen) ++ toLe 4 0
    ++ mthRoot (j.inDigs.map (fun p => p.2)) ++ mthRoot (j.outDigs.map (fun p => p.2))

/-- Add a job's record to the open batch, opening one if needed, and end the job DONE (R352, R355). -/
def recAdd (jid : Nat) (s : State) : State :=
  match jobS s jid with
  | none => s
  | some j =>
    let ctx : RCtx := ⟨j.prog, j.wroot, j.meas⟩
    let b := s.rc.cur.getD ⟨s.rc.seq, 0, [], [], s.wd.time, false⟩
    let ctxs := if ctx ∈ b.ctxs then b.ctxs else b.ctxs ++ [ctx]
    let rcd := rcptRecord j s.rc.seq (ctxs.idxOf ctx)
    let b := { b with records := b.records + 1, ctxs := ctxs, spill := b.spill || j.spill,
                      stack := mthPush 1 (Config.sha384 ([0x00#8] ++ rcd)) b.stack }
    let s := modJob jid (fun j => { j with record := rcd, rcptSeq := s.rc.seq }) { s with rc := { s.rc with cur := some b, seq := s.rc.seq + 1 } }
    let s := jobEnd .done stOk 0 jid (perfAdd 0 2 1 s)
    if b.records = Config.kRcptBatch then closeBatch 1 .batch s else s

/-- A job's record is made, or held with its completion while it would trigger a closure during a hold (R358). -/
def recMake (jid : Nat) (s : State) : State :=
  match jobS s jid with
  | none => s
  | some j =>
    match s.rc.cur with
    | none => recAdd jid s
    | some b =>
      let ctx : RCtx := ⟨j.prog, j.wroot, j.meas⟩
      let ninth := !(decide (ctx ∈ b.ctxs)) && decide (8 ≤ b.ctxs.length)
      if s.rc.waiting.isSome && (ninth || b.records + 1 == Config.kRcptBatch) then
        { s with rc := { s.rc with held := s.rc.held ++ [jid] } }
      else if ninth then recAdd jid (closeBatch 3 .batch s)
      else recAdd jid s

/-- Number of the batch closed last in the residence, 0 before the first (R357, Table 11-8). -/
def lastBatch (s : State) : Nat := if s.rc.count ≤ 1 then 0 else batchNum s - 1

/-- Answer the RCPT_FLUSH commands that wait for a closure: BATCH and RECORDS (Table 11-8). -/
def flushAnswer (num recs : Nat) (s : State) : State :=
  (s.uw.filter (fun w => w.op == 0x404)).foldl (fun s w =>
    match w.call with
    | some (c, word) => answer c 0x404 word stOk 0 (toLe 8 num ++ toLe 4 recs ++ toLe 4 0) s
    | none => s) { s with uw := s.uw.filter (fun w => w.op != 0x404) }

/-- The hold of R358 ends: a closure that fell due takes place, then the held records are made in order. -/
def rcResume (s : State) : State :=
  if s.rc.waiting.isSome then s
  else
    let s := match s.rc.due, s.rc.cur with
      | some c, some b => flushAnswer (batchNum s) b.records (closeBatch c .batch { s with rc := { s.rc with due := none } })
      | some _, none => flushAnswer (lastBatch s) 0 { s with rc := { s.rc with due := none } }
      | none, _ => s
    s.rc.held.foldl (fun s j => recMake j s) { s with rc := { s.rc with held := [] } }

/-- Abandon the open batch and every batch not signed (R361). -/
def abandonBatches (s : State) : State :=
  let log (n r : Nat) (s : State) : State := logEvent 0x0407 0xFF (toLe 8 n ++ toLe 4 r) s
  let s := match s.rc.signing with | some b => log b.num b.records s | none => s
  let s := match s.rc.waiting with | some b => log b.num b.records s | none => s
  let s := match s.rc.cur with | some b => log (batchNum s) b.records s | none => s
  { s with
    rc := { s.rc with cur := none, waiting := none, signing := none, held := [], due := none },
    pq := { s.pq with wait := s.pq.wait.filter (fun e => e.purp != .batch && e.purp != .clearReceipt) } }

/-- A running job uses aperture `a` of die `d`. -/
def apUsed (s : State) (d a : Nat) : Bool :=
  s.jb.list.any (fun j => j.st == .running && j.die == d && j.exts.any (fun e => e.kind == 1 && e.apidx == a))

/-- The end of an aperture (R284): its key is gone, its descriptor at reset but for AP_STAT; descriptors cut short end
with ST_NO_KEY. -/
def apClose (d a : Nat) (s : State) : State :=
  let js := jobIds (fun j => j.st == .running && j.die == d && j.exts.any (fun e => e.kind == 1 && e.apidx == a)) s
  let s := fwKpzero (unitOfOrd s d) a s
  let s := modAp d a (fun x => { authFail := x.authFail, replay := x.replay }) s
  jobsEnd .aborted stNoKey 0 js (modPx d (fun x => { x with quiesce := x.quiesce.filter (· != a) }) s)

/-- Begin to end an aperture (R284): at once, or after the quiesce when a running job uses it. -/
def apEnd (d a : Nat) (s : State) : State :=
  if !(apS s d a).valid then s
  else if apUsed s d a then modPx d (fun x => { x with quiesce := if a ∈ x.quiesce then x.quiesce else x.quiesce ++ [a] }) s
  else apClose d a s

/-- Apertures of the spill pair are the warden's, not the session's (R403, R407). -/
def spillAp (s : State) (d a : Nat) : Bool := s.sp.en && d == 0 && (a == 62 || a == 63)

/-- End all apertures of a port die but the spill pair. -/
def apEndDie (d : Nat) (s : State) : State :=
  (List.range 64).foldl (fun s a => if spillAp s d a then s else apEnd d a s) s

/-- End every aperture (Table 12-3). -/
def apEndAll (s : State) : State := (List.range 4).foldl (fun s d => apEndDie d s) s

/-- Close every aperture at once, the spill pair too (QUARANTINE, phase 4 of a switch). -/
def apCloseAll (s : State) : State :=
  (List.range 4).foldl (fun s d => (List.range 64).foldl (fun s a => if (apS s d a).valid then apClose d a s else s) s) s

/-- The SPDM session ends (R216): slot 8 is destroyed, KGENs restart, all apertures end. -/
def sessEnd (s : State) : State :=
  match s.sd.sess with
  | none => s
  | some _ => apEndAll (zeroSlot 8 false { s with sd := { s.sd with sess := none, kgens := [] } })

/-- A page lies in an invalidation's range. -/
def inRange (all : Bool) (page count p : Nat) : Bool := all || (decide (page ≤ p) && decide (p < page + count))

/-- Pages of a job's ranges (64 KiB). -/
def rangePages (va len : Nat) : List Nat :=
  if len = 0 then [] else (List.range ((va + len - 1) / 65536 - va / 65536 + 1)).map (fun i => va / 65536 + i)

/-- The pages a job's IN, OUT and WS ranges reach. -/
def jobPages (j : Job) : List Nat := rangePages j.inVa j.inLen ++ rangePages j.outVa j.outLen ++ rangePages j.wsVa j.wsLen

/-- Acceptance of an invalidation by the TXU (R427): IE, cache, stale marks, DYING entries, pending migrations. -/
def invMark (tag : Nat) (all : Bool) (page count : Nat) (s : State) : State :=
  let s := perfAdd 0 8 1 s
  let hit (p : Nat) : Bool := inRange all page count p
  let s := modAst tag (fun a => { a with ie := a.ie + 1, resid := a.resid.map (fun r => if hit r.page then { r with st := .dying } else r) }) s
  let s := { s with
    jb := { s.jb with list := s.jb.list.map (fun j =>
      if j.ast == tag && (j.st == .queued || j.st == .parked) && (jobPages j).any hit then { j with stale := true } else j) },
    xl := { s.xl with
      upper := if all then s.xl.upper.filter (fun e => e.1 != tag)
        else s.xl.upper.filter (fun e => e.1 != tag || !(let w := 2 ^ (if e.2.1 = 3 then 23 else if e.2.1 = 2 then 14 else 5)
          decide (e.2.2.1 * w < page + count) && decide (page < (e.2.2.1 + 1) * w))),
      l0 := s.xl.l0.filter (fun e => e.1 != tag || !(all || (decide (e.2.1 * 32 < page + count) && decide (page < (e.2.1 + 1) * 32)))),
      walks := s.xl.walks.map (fun w => if w.tag == tag && w.pages.any (fun p => hit p.1) then { w with overlap := true } else w),
      migr := s.xl.migr.filter (fun m => !(m.1 == tag && hit m.2)) } }
  trace 10 0xFF (tag + 256 * (if all then 0 else count % 2 ^ 24)) (65536 * page) s

/-- How many jobs an acceptance marks stale (Table 11-10 STALE). -/
def invStale (tag : Nat) (all : Bool) (page count : Nat) (s : State) : Nat :=
  (s.jb.list.filter (fun j => j.ast == tag && (j.st == .queued || j.st == .parked) && (jobPages j).any (inRange all page count))).length

/-- The content key is destroyed (R340): ZERO of slot 25 and KPZERO of P0 port 0x40. -/
def contentKeyEnd (s : State) : State := fwKpzero 8 0x40 (zeroSlot 25 false s)

/-- The gate of a tile that a job runs on is closed: no result of it leaves (R25, R370, R371). -/
def gateShut (j : Job) (s : State) : Bool := (List.range 8).any (fun t => bit j.tiles t && (tileJ s t).gateClosed)

/-- Places of every weight page in the package. -/
def allPlaces (s : State) : List WPlace := s.wk.hs.flatMap (fun w => w.places)

/-- The lowest number that is not in a list. -/
def firstFree (used : List Nat) : Nat := ((List.range (used.length + 1)).find? (fun n => !decide (n ∈ used))).getD 0

/-- The 64 KiB external page that the next weight or migrated page takes: the lowest free one (R400: any free address; DESIGN
CHOICE, log entry 87). -/
def extFree (s : State) : Nat :=
  firstFree ((allPlaces s).filterMap (fun p => match p with | .ext n => some n | _ => none)
    ++ s.xl.asts.flatMap (fun a => a.resid.map (fun r => r.ext / 65536)))

/-- The next place in a tile's SRAM (R400): its base SRAM weight area first, then its cluster store; none when both are full. -/
def tilePlace (t : Nat) (s : State) : Option WPlace :=
  let b := firstFree ((allPlaces s).filterMap (fun p => match p with | .base u n => if u = t then some n else none | _ => none))
  let c := firstFree ((allPlaces s).filterMap (fun p => match p with | .cluster u n => if u = t then some n else none | _ => none))
  if b < basePages then some (.base t b) else if c < clusterPages then some (.cluster t c) else none

/-- The place of page `i` of a package (R400, R402): on S0 tile i mod 8, or the next tile with room (DESIGN CHOICE, log entry 87). -/
def pagePlace (w : Wpk) (i : Nat) (s : State) : WPlace :=
  if w.short ≠ 0 && w.pages - w.short / 65536 ≤ i then .spill
  else if isS0 s then (((List.range 8).map (fun k => (i + k) % 8)).findSome? (fun t => tilePlace t s)).getD (.base (i % 8) 0)
  else .ext (extFree s)

/-- A weight page lies in the SRAM of tile `t`, at a level that `r` names as Table 3-6 does (0 base SRAM, 1 cluster store). -/
def placeIn (t r : Nat) : WPlace → Bool
  | .base u _ => u == t && r == 0
  | .cluster u _ => u == t && r == 1
  | _ => false

/-- A line is written through a memory controller (R393): a first write initialises its block. -/
def linePut (t line : Nat) (v : Bytes) (s : State) : State :=
  modMc t (fun m => { m with
    init := if line / 64 ∈ m.init then m.init else line / 64 :: m.init,
    lines := if allZero v then dropKey line m.lines else putKey line v m.lines }) s

/-- A page is written to external memory, its last bytes padded with zeros (R348), over the interleave (R30, R390). -/
def extWrite (page : Nat) (b : Bytes) (s : State) : State :=
  (List.range 1024).foldl (fun s k =>
    let a := extPlace s (65536 * page + 64 * k)
    linePut a.1 (a.2 / 64) (slice b (64 * k) 64) s) s

/-- The body of WPK_LOAD: LOADED and FAILPG. -/
def loadBody (loaded failpg : Nat) : Bytes := toLe 4 loaded ++ toLe 4 failpg

/-- End a WPK_LOAD in execution with a status, its handle's LOADED and FAILPG. -/
def loadEnd (st detail failpg : Nat) (s : State) : State :=
  match s.wk.load with
  | none => s
  | some l =>
    let n := match wpkS s l.handle with | some w => w.loaded | none => 0
    answer l.call 0x303 (stateWord s) st detail (loadBody n failpg) { s with wk := { s.wk with load := none } }

/-- A weight handle becomes FAILED (R340): a content key goes, a load in execution ends, and its queued and parked jobs
end (Table 17-2). -/
def wpkFail (h : Nat) (s : State) : State :=
  let ws := match wpkS s h with | some w => w.ws | none => .failed
  let s := modWpk h (fun w => { w with ws := .failed }) s
  let s := if ws == .keyed || ws == .loading then contentKeyEnd s else s
  let s := if s.wk.load.any (fun l => l.handle == h) then loadEnd stIntegrity 0 (match wpkS s h with | some w => w.loaded | none => 0) s else s
  jobsEnd .aborted stBadState 3 (jobIds (fun j => j.handle == h && j.st != .running) s) s

/-- The tiles and port dies of the assembly. -/
def coreUnits (s : State) : List Nat := List.range 8 ++ portUnits s

end Sys2Proof.Machine
end

