-- ==== Sys2Proof/Machine/Flow.lean ====
section
/-! DEFINITION. The package's large transitions: warden reset (R65, R66), QUARANTINE (R47, R48), loss of main power
(R43), resets of host functions (R204), the switch (R325), loading failures (R323), unit crashes (R500 to R502). -/

namespace Sys2Proof.Machine

/-- States with main rails (Table 2-5). -/
def PState.main (x : PState) : Bool := x == .bringup || x == .idle || x == .loading || x == .active || x == .switching

/-- Which sources assert a warden reset (Table 3-3). -/
structure RstSrc where
  por : Bool := false
  ext : Bool := false
  wdt : Bool := false
  lockstep : Bool := false
  sw : Bool := false
deriving DecidableEq, Repr

/-- A warden reset (R65, R66): key store, rails, units, sequencer and engines in one cycle; every register returns to its
reset value but the always-on cause, time and oscillator trim. OTP cells, flash and what lies outside the part stay. A
table that runs ends, and source 2 is raised (R76). -/
def wardenReset (r : RstSrc) (code : Nat) (s : State) : State :=
  let s := otCut s
  let c := s.wd
  { pkg := { standby := s.pkg.standby, progWin := s.pkg.progWin, rstN := s.pkg.rstN, mainOk := s.pkg.mainOk,
             fill := s.pkg.fill, refPcie := s.pkg.refPcie, refLink := s.pkg.refLink },
    wd := { time := if r.por then 0 else c.time, timeHi := if r.por then 0 else c.timeHi,
            por := r.por || c.por, ext := r.ext || (c.ext && !r.por), wdt := r.wdt || (c.wdt && !r.por),
            lockstep := r.lockstep || (c.lockstep && !r.por), swrst := r.sw || (c.swrst && !r.por),
            trim := if r.por then none else c.trim,
            keys := tkeys s && !r.por, rstState := if r.por then 0 else s.pkg.st.code, swcode := if r.sw then code else 0 },
    sq := { ram := s.sq.ram },
    otp := { rows := s.otp.rows },
    fl := s.fl,
    pw := { brakeN := s.pw.brakeN, brakeCount := if r.por then 0 else s.pw.brakeCount, stackTj := s.pw.stackTj },
    lg := { sectors := s.lg.sectors, wseq := s.lg.wseq },
    mg := { hold := s.mg.hold, rackid := s.mg.rackid, eid := 0x10 + s.mg.rackid },
    rk := s.rk,
    hb := { fns := s.hb.fns.map (fun f => { perstN := f.perstN }) },
    idn := { certs := s.idn.certs },
    tn := { fl := s.tn.fl, ring := s.tn.ring, ringN := s.tn.ringN, gens := s.tn.gens },
    ln := { flRec := s.ln.flRec },
    outs := if s.sq.busy then .wirq 2 :: s.outs else s.outs, draws := s.draws, pending := s.pending }

/-- A software reset that firmware requests through WD_SWRST. -/
def softReset (code : Nat) (s : State) : State := wardenReset { sw := true } code s

/-- Request the clock stop of a tile (R78). -/
def stopTile (t : Nat) (s : State) : State := { s with wd := { s.wd with stopReq := setBit s.wd.stopReq t true } }

/-- Request the clock stop of every tile. -/
def stopTiles (s : State) : State := { s with wd := { s.wd with stopReq := 255 } }

/-- The mailbox opcode of a command that waits on a unit, by the internal opcode it waits for. -/
def cmdOf (op : Nat) : Nat := if op = 0x8003 then 0x401 else if op = 0x8004 then 0x402 else if op = 0x8002 then 0x400 else op

/-- End with a status every command that waits for a unit, a walk, a page or an invalidation. -/
def failWaiting (st detail : Nat) (s : State) : State :=
  let ans (op : Nat) (c : HostCall) (word : Nat) (s : State) : State := answer c op word st detail [] s
  let s := (s.uw.filter (fun w => w.u != 2000)).foldl (fun s w => match w.call with | some (c, word) => ans (cmdOf w.op) c word s | none => s)
    { s with uw := s.uw.filter (fun w => w.u == 2000) }
  let s := s.xl.walks.foldl (fun s w => match w.for_ with
    | .submit j c => ans 0x401 c (stateWord s) { s with jb := { s.jb with list := s.jb.list.filter (fun (x : Job) => x.id != j) } }
    | .prog c => ans 0x400 c (stateWord s) s
    | .prefetch c => ans 0x503 c (stateWord s) s
    | .back _ => s
    | .job _ => s) s
  let s := s.jb.progLoad.foldl (fun s p => ans 0x400 p.1 (stateWord s) s) { s with jb := { s.jb with progLoad := [] } }
  let s := loadEnd st detail 0 s
  let s := s.xl.invs.foldl (fun s i => match i.call with | some (c, word) => (if c.payload.length = 8 then ans 0x501 c word s else ans 0x502 c word s) | none => s) s
  { s with xl := { s.xl with walks := [], invs := s.xl.invs.filter (fun i => i.call.isNone) } }

/-- Every tag, its walks, cache entries and invalidations are gone (R437). -/
def destroyTags (s : State) : State :=
  { s with xl := { s.xl with asts := [], walks := [], upper := [], l0 := [], invs := [], migr := [],
                             invDone := s.xl.invReq } }

/-- Every link entry and pending exchange ends (R459). -/
def linkEndAll (s : State) : State :=
  let s := zeroSlots (s.ln.pend.map (fun p => p.slot)) s
  let s := (s.ln.inst.map (fun p => p.entry)).foldl (fun s n => lkeEnd n s) s
  { s with ln := { s.ln with pend := [], inst := [], measured := [], dies := s.ln.dies.map (fun d => { d with lke := d.lke.map (fun _ => {}) }) } }

/-- Units lose power with their rail: they are in reset, ABSENT, and their key ports, image regions, operations and
stopped clocks are gone. -/
def unitsOff (p : Nat → Bool) (s : State) : State :=
  (List.range 18).foldl (fun s u => if p u then
      modUnit u (fun x => { x with ports := [], clkStop := false, image := [], entry := 0 }) (setU u .absent (assertReset u s))
    else s) s

/-- The tiles lose power: no clock stop is left to confirm, and a comparator's stop ends with the tile. -/
def tilesOff (s : State) : State :=
  let s := unitsOff (fun u => decide (u < 8)) s
  { s with wd := { s.wd with stopReq := 0 }, pw := { s.pw with tiles := s.pw.tiles.map (fun t => { t with tripped := false }) } }

/-- The stacks and their controllers lose power with the memory rail (R397). -/
def mcOff (s : State) : State :=
  (List.range 8).foldl (fun s t => modUnit t (fun x => { x with ports := [], mcImage := [], mcGo := false, mcEntry := 0, mcAwait := false }) s)
    { s with jb := { s.jb with mc := List.replicate 8 {} } }

/-- Advance every channel's generation and empty its window and results (R236). -/
def advanceGens (s : State) : State :=
  { s with mb := { s.mb with chans := s.mb.chans.map (fun c => if c.gen = 0 then c else
    { c with gen := if c.gen = 255 then 1 else c.gen + 1, win := [], floor := 0, objs := [], discard := c.busy, ref := none, resetAfter := false, rspValid := false }) } }

/-- P0's host-side registers at reset (R240): channel control, buffers and ring registers; a running command keeps BUSY. -/
def hostRegsReset (s : State) : State :=
  { s with
    mb := { s.mb with chans := s.mb.chans.map (fun c => { c with irqEn := false, rspValid := false, rspLen := 0, lastTag := 0, cmdBuf := [], rspBuf := [] }) },
    hb := { s.hb with frEn := false, frSealed := true, frIdx := 0, frBase := 0, frSize := 9, frHead := 0, frTail := 0, frOvf := false, frDone := 0,
                      apEn := false, apDropped := 0 },
    xl := { s.xl with invReq := List.replicate 64 0, invDone := List.replicate 64 0 } }

/-- The primary function's link is down: as PERST_N, the session, the accepted mask, the tags, the generations and P0's
host-side registers end (Table 9-3, R236, R240). -/
def primaryEnd (s : State) : State :=
  let s := sessEnd s
  let s := { s with hb := { s.hb with accept := 0 }, pw := { s.pw with quant := false }, sd := { s.sd with stage := 0, transcript := [], busy := false, obj := [] } }
  hostRegsReset (advanceGens (destroyTags s))

/-- The port dies lose power: every link is down. -/
def portsOff (s : State) : State :=
  let s := unitsOff (fun u => decide (8 ≤ u)) s
  let s := { s with
           pkg := { s.pkg with portPg := false },
           hb := { s.hb with fns := s.hb.fns.map (fun f => { f with up := false, ltEn := false, cause := 0, irqEn := 0, pba := 0, d3 := false, table := [], mask := 0xFFFFFFFFFFFFFFFF }) },
           px := List.replicate 4 {}, ln := { s.ln with dies := List.replicate 4 {}, pins := [] },
           rc := { s.rc with archive := [] }, sp := {} }
  primaryEnd s

/-- Power-good of a rail falls (R558); the memory rail follows the tile rail (R554). -/
def railFall (r : Nat) (s : State) : State :=
  if r = 0 then portsOff s
  else if r = 1 then mcOff (tilesOff { s with pkg := { s.pkg with tilePg := false, memPg := false } })
  else mcOff { s with pkg := { s.pkg with memPg := false } }

/-- Drop the tile and memory rails (R47 step 4). -/
def dropTileMem (s : State) : State := fwRun railFall mainOffTable s

/-- Drop the port rail. -/
def dropPort (s : State) : State := fwRun railFall portOffTable s

/-- Port-die buffers are clear: spill frames and the receipt archive are in them (R359, R405). -/
def clearPortBufs (s : State) : State :=
  { s with units := s.units.map (fun x => { x with bufHeld := false }), sp := { s.sp with frames := [], fetching := [], waiting := [] },
           rc := { s.rc with archive := [] } }

/-- Queue a persistent log sector with the waiting entries (R507): at most 84 at a time. -/
def logFlush (s : State) : State :=
  if s.lg.waiting.isEmpty then s
  else fqAdd (.sector (s.lg.waiting.take 84)) { s with lg := { s.lg with waiting := s.lg.waiting.drop 84 } }

/-- The tenant ring and the trace buffer are emptied (R506). -/
def emptyTenantLog (s : State) : State := { s with lg := { s.lg with ten := [], trace := [] } }

/-- P0 is healthy (Table 2-1): a port die stands at the site, and it has not failed since the warden reset (R53). -/
def p0Healthy (s : State) : Bool := nth SiteKind.blank s.pkg.fill 0 == .port && !s.pkg.p0Bad

/-- Rails after the quarantine clear (R47 steps 4 and 5): the port rail stays up only if P0 is healthy. -/
def quarRails (s : State) : State :=
  let s := clearPortBufs (dropTileMem { s with pkg := { s.pkg with quarClr := false } })
  if p0Healthy s then s else dropPort s

/-- Revert after a failed trial (R191): a selector for the other slot, then a reset with SWCODE 0x04. -/
def revert (s : State) : State :=
  let other := if s.boot.chosen = 0 then 1 else 0
  { s with fq := { s.fq with sync := some (.selector other 0 true) } }

/-- A switch, a load, weight handles, programs in load and queued tables are forgotten. -/
def workGone (s : State) : State :=
  { s with tn := { s.tn with sw := {}, ld := {} }, wk := { s.wk with hs := [], load := none, manifests := [] }, jb := { s.jb with progLoad := [] },
           sq := { s.sq with queue := [] } }

/-- The live work of a state with main rails ends (R47): the running table, waiting commands, batches, tenant and session
keys, apertures, jobs. -/
def quarStop (s : State) : State :=
  let s := abandonBatches (failWaiting stBadState 0 (fwAbort (stopTiles s)))
  let s := fwKszero 8 48 s
  let s := { s with sd := { s.sd with sess := none, kgens := [] } }
  let s := linkEndAll (apCloseAll s)
  jobsEnd .aborted stBadState 0 (jobIds (fun _ => true) s) s

/-- Steps 1 and 2 of R47 in a state with main rails: clocks stopped, keys and jobs destroyed, tenant state gone. -/
def quarHalt (s : State) : State :=
  let s := fwKpzeroAll (quarStop s)
  let s := destroyTags { s with sp := {} }
  let s := match residentIx s with | some i => modRec i (fun r => { r with state := .evicted, switches := r.switches + 1, lastEpoch := epochOf s }) s | none => s
  workGone s

/-- A revert that waits for R47 to end begins (R191). -/
def revertDue (s : State) : State := if s.upd.revertDue then revert { s with upd := { s.upd with revertDue := false } } else s

/-- Entry to QUARANTINE (R47, R53): a later cause is logged by its own event and does not overwrite the first, but a P0 that
fails is no longer healthy. The clear of R47 step 3 is skipped for a failed clear and a clear-engine fault. -/
def quarantine (cause : Nat) (s : State) : State :=
  let s := if cause = 0x0B then { s with pkg := { s.pkg with p0Bad := true } } else s
  if s.pkg.st == .quarantine then (if cause = 0x0B && s.pkg.portEn && !s.pkg.quarClr then dropPort s else s)
  else if s.pkg.st == .retired || s.pkg.st == .cold then s
  else
    let trial := s.pkg.st == .bringup && s.upd.status == 5
    let main := s.pkg.st.main
    let s := if main then quarHalt s else s
    let s := logFlush (setState .quarantine cause (emptyTenantLog s))
    let s := { s with upd := { s.upd with revertDue := s.upd.revertDue || trial } }
    if main && cause ≠ 0x0C && cause ≠ 0x06 then { s with pkg := { s.pkg with quarClr := true } }
    else revertDue (if main then quarRails s else s)

/-- A clock stop is not in order (R484, R504): CLKFAIL, the tile rail is dropped, QCAUSE 0x0C. -/
def clkFail (s : State) : State :=
  let s := driveRail 1 false (setAlarm 21 s)
  if s.pkg.st.main then quarantine 0x0C s else s

/-- The regions the clear engines of R47 step 3 reach are clear, and steps 4 and 5 follow (row QUARANTINE_CLEAR_DONE). -/
def quarCleared (s : State) : State :=
  if (s.pkg.st == .quarantine || s.upd.revertDue) && s.pkg.quarClr then
    revertDue (quarRails { s with units := s.units.map (fun x => { x with baseHeld := false, clusterHeld := false, scratchHeld := false }) })
  else s

/-- The live work of the package ends when main power is lost: waiting commands, session, apertures, link jobs, jobs and tags. -/
def mainStop (s : State) : State :=
  let s := linkEndAll (apCloseAll (sessEnd (failWaiting stBadState 0 s)))
  destroyTags { s with jb := { s.jb with list := s.jb.list.map (fun j => if j.st.live then { j with st := .aborted, status := stBadState } else j), progs := [], progLoad := [], tiles := List.replicate 8 {} } }

/-- The links of the functions go down and the data path behind them ends (R43, R66). -/
def mainDown (s : State) : State :=
  let s := fwAbort (mainStop s)
  let s := workGone { s with boot := { s.boot with bphase := .none }, pw := { s.pw with quant := false } }
  dropPort (dropTileMem s)

/-- Leave the main-rail states for WARDEN (R41): the mode ends with them. -/
def toWarden (s : State) : State :=
  let s := mainDown s
  setState .warden 0 { s with pkg := { s.pkg with mode := .none } }

/-- The record whose tenant's keys are present: the resident one, or the one a load or a switch runs for. -/
def keyedIx (s : State) : Option Nat :=
  match residentIx s with
  | some i => some i
  | none => if s.pkg.st == .switching then some s.tn.sw.idx else if s.pkg.st == .loading then some s.tn.ld.idx else none

/-- Loss of the main input (R43, R559): tile clocks, the key destruction table, record, batches, rails, then WARDEN. A
REVOKED record stays REVOKED. -/
def mainLost (s : State) : State :=
  if !s.pkg.st.main then s
  else
    let s := bindsMove (fwAbort (stopTiles s))
    let s := if tkeys s then
        let ix := keyedIx s
        let s := fwKszero 16 40 s
        let s := match ix with
          | some i =>
            let tid := match recS s i with | some r => r.tid | none => 0
            recQueue i (logEvent 0x0401 0xFF (toLe 8 tid ++ toLe 2 i)
              (modRec i (fun r => { r with
                state := if r.state == RState.revoked then RState.revoked else if r.state == RState.staged then RState.staged else RState.evicted,
                switches := r.switches + 1, lastEpoch := epochOf s }) s))
          | none => s
        abandonBatches s
      else s
    toWarden s

/-- Every unit acknowledgement the switch waits for is there: no completion record is held. -/
def drained (s : State) : Bool := s.xl.asts.all (fun a => a.held.isEmpty)

/-- Entry to SWITCHING, phase 1 (R325). -/
def startSwitch (cause : Nat) (s : State) : State :=
  if !(s.pkg.st == .active || s.pkg.st == .loading) then s
  else
    let run := jobIds (fun j => j.st == .running) s
    let wait := jobIds (fun j => j.st != .running) s
    let s := setState .switching cause s
    let s := { s with tn := { s.tn with
      sw := { phase := .halt, cause := cause, epoch := epochOf s, idx := s.tn.ld.idx, tBegin := s.wd.time, stopped := !run.isEmpty },
      ld := { s.tn.ld with phase := .none, waiting := [] } } }
    let s := failWaiting stBadState 2 s
    jobsEnd .aborted stBadState 2 run (jobsEnd .cancelled stCancelled 0 wait s)

/-- The table firmware starts for a purpose. -/
def sqTableOf (p : SqPurpose) : List Step64 :=
  match p with
  | .tile u => tileTable u
  | .port u => portTable u
  | .portUp => portUpTable
  | .tileUp => tileUpTable
  | .memUp => memUpTable
  | .p0Up => p0UpTable
  | _ => clearTable

/-- A table of rails and releases, whose steps run within the row that starts or resumes it (log entry 58). -/
def SqPurpose.rails (p : SqPurpose) : Bool := p == .portUp || p == .tileUp || p == .memUp || p == .p0Up

/-- The steps of the running table up to the next wait or its end; `hl` is TD_HLRES of each tile released (R485). -/
def sqBurst (hl : List Nat) : Nat → State → State
  | 0, s => s
  | n + 1, s =>
    if s.sq.busy && s.sq.wait == .none then
      let w := stepAt s s.sq.nextIx
      sqBurst hl n (if stepLegal w then sqExecStep { quietStep with hlres := nth 31 hl (stepA w) } s else sqIllegal s)
    else s

/-- Start a firmware table (R76): its RW1C status is cleared first. -/
def sqBegin (p : SqPurpose) (s : State) : State :=
  let s := sqStart p (fwReady (sqTableOf p) s)
  if p.rails then sqBurst [] 16 s else s

/-- Start a firmware table, or queue it behind the running one (R76). -/
def sqTable (p : SqPurpose) (s : State) : State :=
  if s.sq.busy then { s with sq := { s.sq with queue := s.sq.queue ++ [p] } } else sqBegin p s

/-- Phase 4, the keys (R325): tenant slots zeroed, apertures and port keys gone, weight handles closed. -/
def switchZero (s : State) : State :=
  let s := fwKpzeroAll (linkEndAll (apCloseAll (fwKszero 16 40 s)))
  { s with sp := {}, wk := { s.wk with hs := [], manifests := [], load := none } }

/-- Phase 4, the record (R325): RESIDENT or REVOKED becomes EVICTED or stays REVOKED, and its write is queued. -/
def switchRecord (s : State) : State :=
  let w := s.tn.sw
  match recS s w.idx with
  | some r =>
    if r.state == RState.staged then s
    else recQueue w.idx (modRec w.idx (fun r => { r with
      state := if r.state == RState.revoked then RState.revoked else RState.evicted, switches := r.switches + 1, lastEpoch := w.epoch }) (bindsMove s))
  | none => s

/-- Phase 4, the maps (R325, R393): residency, translations, migrations, initialisation maps and tags, tenant log. -/
def switchMaps (s : State) : State :=
  let s := s.xl.asts.foldl (fun (s : State) (a : Ast) => modAst a.tag (fun a => { a with resid := [] }) (invMark a.tag true 0 0 s)) s
  let s := { s with xl := { s.xl with upper := [], l0 := [], migr := [] } }
  let s := { s with jb := { s.jb with mc := s.jb.mc.map (fun (m : MemCtl) => { m with init := [], lines := [], last := [] }) } }
  emptyTenantLog { s with lg := { s.lg with mask := 0 } }

/-- Phase 4, the tenant measurement slots: TZERO, refused and logged while a tenant key remains (R158). -/
def switchTzero (s : State) : State := if tkeys s then logEvent 0x0106 0xFF (toLe 1 16 ++ toLe 1 4) s else msTzeroNow s

/-- Phase 4 to 6 of a switch (R325): keys, record, measurements, then the clear table. -/
def switchKeys (s : State) : State :=
  let ks := ((List.range 40).filter (fun i => !(slotS s (i + 16)).empty)).length
  let kp := (s.units.map (fun x => x.ports.length)).foldl (· + ·) 0
  let pat := !s.ks.drbgOk
  let s := switchMaps (switchRecord (switchZero s))
  let rm := Config.sha384 ((s.ms.slots.drop 16).flatMap (fun x => x.val))
  let s := switchTzero s
  let w : Switch := { s.tn.sw with
    phase := .clear, tKeys := s.wd.time, keysGone := true, kslots := ks, kports := kp, patfb := pat, resmeas := rm }
  sqTable .switchClear { s with tn := { s.tn with sw := w } }

/-- Phase 3 has no batch left to sign: phase 4 follows. -/
def switchBatches (s : State) : State :=
  if s.tn.sw.phase == .batch && s.rc.cur.isNone && s.rc.waiting.isNone && s.rc.signing.isNone then switchKeys s else s

/-- Phases 2 and 3 of a switch (R325, R360): quiesce, then the open batch closes with CLOSE 5. -/
def switchHalted (s : State) : State :=
  if s.tn.sw.phase != .halt then s
  else
    let s : State := { s with xl := { s.xl with asts := s.xl.asts.map (fun a => { a with held := [] }) }, rc := { s.rc with held := [] } }
    let w0 : Switch := { s.tn.sw with phase := SwPhase.batch }
    let s : State := { s with tn := { s.tn with sw := w0 } }
    let s := match s.rc.cur with
      | some b =>
        let w : Switch := { s.tn.sw with closed := true, lastBatch := batchNum s, batchRoot := mthClose b.stack }
        { s with tn := { s.tn with sw := w } }
      | none => s
    switchBatches (closeDue 5 s)

/-- Loading fails (R323): EV_LOAD_FAIL, and the package enters SWITCHING with cause LOAD_FAILED. -/
def loadFail (phase unit st : Nat) (s : State) : State :=
  if s.pkg.st == .loading then startSwitch 4 (logEvent 0x0403 unit (toLe 1 phase ++ toLe 1 unit ++ toLe 2 st) s) else s

/-- A unit becomes FAILED (R502): held in reset, logged, and the package consequence of its state. -/
def unitFail (u step code : Nat) (s : State) : State :=
  let s := fwHold u s
  let s := logEvent 0x0304 u (toLe 1 step ++ toLe 2 code) (setU u .failed s)
  if s.pkg.st == .loading then loadFail 1 u code s
  else if s.pkg.st == .idle then quarantine 4 s else s

/-- Start the restart of a unit (R381 steps 1 to 3, R501 step 1): a fourth within 600 s fails it (R502), as a failure of step 1
with code 0 (DESIGN CHOICE, log entry 95). -/
def startRestart (u : Nat) (s : State) : State :=
  let x := unitS s u
  let recent := x.window.filter (fun t => decide (s.wd.time - t < 60000000000))
  if 3 ≤ recent.length then unitFail u 1 0 s
  else
    let s := modUnit u (fun x => { x with window := s.wd.time :: recent }) s
    let s := trace 13 u (if u < 8 then 3 else 1) (unitS s u).gen.toNat s
    sqTable (if unitType s u == .port then .port u else .tile u) s

/-- Handles with a page in a tile's SRAM are lost with it (R382, R346). -/
def tileWeightsLost (t : Nat) (s : State) : State :=
  (s.wk.hs.filter (fun w => w.ws != .failed && w.places.any (fun p => placeIn t 0 p || placeIn t 1 p))).foldl
    (fun s w => wpkFail w.handle (logEvent 0x0405 0xFF (toLe 4 w.handle) s)) s

/-- The warden's record of a unit (R499): a STACK unit is UP once its stack has trained. -/
def uState (s : State) (u : Nat) : UState :=
  match unitType s u with
  | .stack => if !s.pkg.memPg then .absent else if (nth ({} : MemCtl) s.jb.mc (u - 9)).trained then .up else .resetting
  | .blank => .absent
  | _ => (unitS s u).ustate

/-- Body of UNIT_STATUS (Table 11-12): the warden's view. -/
def unitBody (u : Nat) (s : State) : Bytes :=
  let x := unitS s u
  let ty := match unitType s u with | .tile => 0 | .port => 1 | .stack => 2 | .blank => 3
  toLe 1 u ++ toLe 1 ty ++ toLe 1 (uState s u).code ++ toLe 1 x.gen.toNat ++ toLe 4 x.restarts ++ toLe 4 x.hbAge
    ++ toLe 1 (b2n (decide (u ∈ s.lg.conflicts))) ++ toLe 3 0

/-- Body of LINK_STATUS (Table 11-11). -/
def linkBody (u : Nat) (s : State) : Bytes :=
  (nth {} s.ln.dies (ordOfUnit s u)).ports.flatMap (fun p => toLe 1 p.st.code ++ toLe 1 p.lanes ++ toLe 2 0)

/-- Take the waits of a unit for an internal command with an argument: they, and the state without them. -/
def takeWaits (u op arg : Nat) (s : State) : List UnitWait × State :=
  let p (w : UnitWait) : Bool := w.u == u && w.op == op && w.arg == arg
  (s.uw.filter p, { s with uw := s.uw.filter (fun w => !p w) })

/-- The answer of PROG_LOAD. -/
def progBody (ph : Nat) (dig : Bytes) : Bytes := toLe 4 ph ++ toLe 4 0 ++ dig

/-- Once no tile owes PROG_INSTALL of a program, the PROG_LOAD that waits for them (under the number 1000) is answered (R374);
a tile that crashed is not waited for ("When things coincide"). -/
def installEnd (ph : Nat) (s : State) : State :=
  if s.uw.any (fun w => w.op == 0x8002 && w.arg == ph && decide (w.u < 8)) then s
  else
    let r := takeWaits 1000 0x8002 ph s
    let dig := match s.jb.progs.find? (fun x => x.phandle == ph) with | some x => x.dig | none => []
    r.1.foldl (fun s w => match w.call with | some (c, word) => answer c 0x400 word stOk 0 (progBody ph dig) s | none => s) r.2

/-- A host command that waited for a unit ends without its answer (R500, R265): the warden's view with DETAIL 0x0001 for
UNIT_STATUS and LINK_STATUS, ST_UNIT_ABORT for every other. -/
def unitWaitEnd (w : UnitWait) (s : State) : State :=
  match w.call with
  | none => if w.op = 0x8002 then installEnd w.arg s else s
  | some (c, word) =>
    if w.op = 0x703 then answer c w.op word stOk 1 (unitBody w.u s) s
    else if w.op = 0x600 then answer c w.op word stOk 1 (linkBody w.u s) s
    else answer c (cmdOf w.op) word stUnitAbort 0 [] s

/-- A crash of a unit's management core (R500): RESETTING, logged, its commands end, a tile's jobs end (R381 step 2). -/
def unitCrash (u cause : Nat) (s : State) : State :=
  let x := unitS s u
  if !s.pkg.st.main || !(x.ustate == .up || x.ustate == .stopped) then s
  else
    let s := logEvent 0x0302 u (toLe 1 cause ++ toLe 4 x.hbAge ++ toLe 1 x.gen.toNat) (setU u .resetting s)
    let mine := s.uw.filter (fun w => w.u == u)
    let s := { s with uw := s.uw.filter (fun w => w.u != u) }
    let s := mine.foldl (fun s w => unitWaitEnd w s) s
    let s := if u < 8 then
        let s := trace 13 u 1 x.gen.toNat (stopTile u s)
        let gang := s.jb.list.filter (fun j => j.st.live && bit j.tiles u)
        let s := gang.foldl (fun s j => ((List.range 8).filter (fun t => t != u && bit j.tiles t)).foldl (fun s t =>
          unitCmd t 0x8004 (toLe 8 j.id ++ toLe 2 Config.abortReason) s) s) s
        let s := jobsEnd .aborted stUnitAbort 0 (jobIds (fun j => bit j.tiles u) s) s
        let s := trace 13 u 2 x.gen.toNat (modTileJ u (fun t => { t with store := [], queue := [], eligible := false, poison := [], restoring := false }) s)
        tileWeightsLost u s
      else s
    if s.pkg.st == .switching then s
    else if s.pkg.st == .loading then startRestart u (loadFail 1 u stUnitAbort s)
    else startRestart u s

/-- On entry to IDLE (R502, chapter 22 "When things coincide"): a FAILED unit leads to QUARANTINE, and a restart put off by the switch begins. -/
def idleEntry (s : State) : State :=
  if (coreUnits s).any (fun u => (unitS s u).ustate == .failed) then quarantine 4 s
  else (coreUnits s).foldl (fun s u =>
    let x := unitS s u
    if x.ustate == .resetting && !x.awaitReady && x.op.isNone && s.sq.purpose != .tile u && s.sq.purpose != .port u && !(decide (.tile u ∈ s.sq.queue) || decide (.port u ∈ s.sq.queue))
    then startRestart u s else s) s

/-- PERST_N, FLR or link loss of a function (Table 9-3). Primary: session, aperture keys, accepted mask, tags (R437),
quantisation (R490) and generations end, and a residence is switched. Secondary: its apertures and streams end. -/
def fnReset (d : Nat) (s : State) : State :=
  if d = 0 then
    let s := failWaiting stBadState 0 (apEndAll (sessEnd s))
    let st := s.pkg.st
    primaryEnd (if st == .active || st == .loading then startSwitch 3 s else s)
  else
    let s := apEndDie d s
    modPx d (fun x => { x with streams := [] }) (jobsEnd .aborted stNoKey 0 (jobIds (fun j => j.st == .running && j.die == d) s) s)

end Sys2Proof.Machine
end

