-- ==== Sys2Proof/Machine/Boot.lean ====
section
/-! DEFINITION. The boot chain: images (R156 to R161, R170), the ROM (R162, R163, R180, R181), warden firmware's start
(R164, R190, R293, R503), BRINGUP (R165 to R168), the roster open (R316) and unit restarts (R169, R381, R501). -/

namespace Sys2Proof.Machine

/-- Bytes of the flash. -/
def flashRead (s : State) (off n : Nat) : Bytes := cellGets 0xFF#8 off n s.fl.mem
/-- Base and size of an image region: 0 slot A, 1 slot B, 2 recovery (Table 7-2). -/
def regionBase (k : Nat) : Nat := if k = 0 then 0x1000000 else if k = 1 then 0x3000000 else 0x5000000
/-- Size of an image region. -/
def regionSize (k : Nat) : Nat := if k < 2 then 0x2000000 else 0x1000000

/-- The four directory entries of a region (R156). -/
def dirEntries (s : State) (k : Nat) : List Bytes := (List.range 4).map (fun i => flashRead s (regionBase k + 16 * i) 16)

/-- The image types a region holds, one image of each (R156). -/
def bundleTypes (k : Nat) : List Nat := if k = 2 then [5] else [1, 2, 3, 4]

/-- The first directory entry of an image type: offset and length. -/
def dirEntry (s : State) (k typ : Nat) : Option (Nat × Nat) :=
  ((dirEntries s k).find? (fun e => decide (field e 0 1 = typ))).map (fun e => (field e 4 4, field e 8 4))

/-- The directory of a region is right for an image type (R156): one entry of the type, its reserved bytes zero, the image
wholly inside the region, and a region that holds the type. -/
def dirOk (s : State) (k typ : Nat) : Bool :=
  match (dirEntries s k).filter (fun e => decide (field e 0 1 = typ)) with
  | [e] => allZero (slice e 1 3) && allZero (slice e 12 4) && decide (field e 4 4 + field e 8 4 ≤ regionSize k) && decide (typ ∈ bundleTypes k)
  | _ => false

/-- The anti-rollback counter of an image type (Table 7-5); none for the recovery image. -/
def svnCounter (typ : Nat) : Option Nat :=
  if typ = 1 then some 0 else if typ = 2 then some 3 else if typ = 3 then some 2 else if typ = 4 then some 1 else none

/-- BLEN limit of an image type. -/
def blenMax (typ : Nat) : Nat := if typ = 1 || typ = 5 then 0xC0000 else if typ = 2 then 0x80000 else 0x200000

/-- Image header of 8,192 bytes and the body, as flash holds them. -/
structure Img where
  h : Bytes
  body : Bytes
deriving DecidableEq, Repr

/-- Read an image of a region. -/
def readImg (s : State) (k typ : Nat) : Option Img :=
  (dirEntry s k typ).map (fun e => ⟨flashRead s (regionBase k + e.1) 8192, flashRead s (regionBase k + e.1 + 8192) (e.2 - 8192)⟩)

/-- e of an image (R161). -/
def imgE (i : Img) : Bytes := Config.sha384 (i.h.take 2816)

/-- Check 1 of Table 7-6: MAGIC, HVER, and every reserved or padding byte and bit of the header zero (R170). -/
def imgHeadOk (h : Bytes) : Bool :=
  field h 0 4 == 0x4D494354 && field h 4 2 == 1 && decide (field h 9 1 < 8) && decide (field h 10 1 < 8) && allZero (slice h 11 1)
    && allZero (slice h 28 4) && allZero (slice h 80 48) && allZero (slice h 7539 653)

/-- Check 5 of Table 7-6. A field that OTP could not read (QCAUSE 0x01) is not tested, since the ROM starts warden firmware
then too (R163; DEDUCED, log entry 64). -/
def imgMaskOk (s : State) (h : Bytes) : Bool :=
  (s.otp.asm == 15 || (decide (1 ≤ s.otp.asm) && decide (s.otp.asm ≤ 3) && bit (field h 9 1) (s.otp.asm - 1)))
    && (s.otp.lc == 7 || (decide (1 ≤ s.otp.lc) && decide (s.otp.lc ≤ 3) && bit (field h 10 1) (s.otp.lc - 1)))

/-- Checks 1 to 8 of Table 7-6 on an image of region `k`: 0 when all pass, otherwise the code of the first that fails. -/
def imgCheck8 (s : State) (k typ : Nat) : Nat :=
  match readImg s k typ with
  | none => 2
  | some i =>
    let h := i.h
    let blen := field h 16 4
    let vk := field h 7 1
    let keys := slice h 128 2688
    if !imgHeadOk h then 1
    else if !dirOk s k typ || field h 6 1 ≠ typ || 64 ≤ field h 8 1 || blenMax typ < blen || i.body.length ≠ blen || field h 24 4 % 4 ≠ 0
      || blen ≤ field h 24 4 || (if typ = 1 || typ = 5 then 0xC0000 < field h 20 4 + blen else field h 20 4 ≠ 0) then 2
    else if !vkeyUsable s vk then 3
    else if Config.sha384 keys != vkh s vk then 4
    else if !imgMaskOk s h then 5
    else if (match svnCounter typ with | some c => decide (field h 8 1 < nth 0 s.otp.svn c) | none => false) then 6
    else
      let m := h.take 2816
      let js := verifyJobs (slice keys 0 96) (slice keys 96 2592) m (slice h 2816 96) (slice h 2912 4627)
      if (js.take 1).any (fun j => !pkPasses j.op j.ins) then 7
      else if (js.drop 1).any (fun j => !pkPasses j.op j.ins) then 8 else 0

/-- Check 9 of Table 7-6: the body's digest is BDIG. -/
def imgBodyOk (i : Img) : Bool := Config.sha384 i.body == slice i.h 32 48

/-- Checks 1 to 9 of Table 7-6 on an image of region `k`. -/
def imgCheck (s : State) (k typ : Nat) : Nat :=
  let c := imgCheck8 s k typ
  if c ≠ 0 then c else match readImg s k typ with
    | some i => if imgBodyOk i then 0 else 9
    | none => 2

/-- A selector copy is valid (R179). -/
def selOk (c : Bytes) : Bool :=
  field c 0 4 == 0x4C455354 && field c 124 4 == crc32c (c.take 124) && decide (field c 8 1 ≤ 1)
    && (field c 9 1 == 1 || field c 9 1 == 2) && decide (1 ≤ field c 10 1) && decide (field c 10 1 ≤ 8)
    && allZero (slice c 11 1) && allZero (slice c 64 60) && field c 4 4 != 0xFFFFFFFF

/-- The selector in force (R180): the copy that holds it and its bytes. -/
def selector (s : State) : Option (Nat × Bytes) :=
  let a := flashRead s 0 128
  let b := flashRead s 0x1000 128
  match selOk a, selOk b with
  | true, true => if field a 4 4 < field b 4 4 then some (1, b) else some (0, a)
  | true, false => some (0, a)
  | false, true => some (1, b)
  | false, false => none

/-- Entries of the attempt log that count (R181). -/
def attempts (s : State) : Nat :=
  ((List.range 256).filter (fun i => (flashRead s (0x2000 + 16 * i) 16).any (· != 0xFF#8))).length

/-- Program flash bytes: cells of 1 may become 0. -/
def flashProg (off : Nat) (b : Bytes) (s : State) : State :=
  { s with fl := { s.fl with mem := cellPuts 0xFF#8 off (List.zipWith (· &&& ·) b (flashRead s off b.length)) s.fl.mem } }

/-- Erase a range of flash. -/
def flashErase (off n : Nat) (s : State) : State := { s with fl := { s.fl with mem := cellErase off n s.fl.mem } }

/-- The update record in flash (R182): TARGET, STATE and LENGTH of a valid one whose target is not the boot slot. -/
def updRecord (s : State) : Option (Nat × Nat × Nat) :=
  let r := flashRead s 0x3000 32
  if field r 0 4 = 0x44505554 && field r 28 4 = crc32c (r.take 28) && field r 4 1 ≠ s.boot.chosen && field r 4 1 ≤ 2 then
    some (field r 4 1, field r 5 1, field r 8 4) else none

/-- Update status at start (Table 8-4, Table 8-7). -/
def updStart (s : State) : State :=
  let done := match updRecord s with | some (_, 2, _) => true | _ => false
  let s := if done then s else flashErase 0x3000 4096 s
  let (t, l) := match updRecord s with | some (t, _, l) => (t, l) | none => (0, 0)
  let st := if s.boot.chosen ≤ 1 && s.boot.chosen ≠ s.boot.pref then 6
    else if s.boot.chosen = s.boot.pref && s.boot.trial then 5
    else if done then 2 else 0
  { s with upd := { status := st, target := t, length := l, awaitCommit := st == 5 || st == 6, prog := if done then [(0, l)] else [] } }

/-- The set digest of a bundle as its headers read (R176). -/
def setDigest (k : Nat) (s : State) : Bytes :=
  Config.sha384 ((bundleTypes k).flatMap (fun t => match readImg s k t with | some i => imgE i | none => []))

/-- The staged digest of Table 8-4. -/
def stagedDigest (s : State) : Bytes :=
  match s.upd.status with
  | 2 => setDigest s.upd.target s
  | 3 => setDigest s.upd.target s
  | 4 => (match selector s with | some (_, c) => slice c 16 48 | none => List.replicate 48 0#8)
  | 5 => setDigest s.boot.chosen s
  | 6 => setDigest s.boot.chosen s
  | _ => List.replicate 48 0#8

/-- A measurement log entry as Table 7-9 lays it out. -/
def mlogBytes (e : MLog) : Bytes :=
  toLe 1 e.slot ++ toLe 1 e.kind ++ toLe 1 e.code ++ toLe 1 e.typ ++ toLe 4 e.count ++ toLe 8 e.time ++ slice e.input 0 48

/-- The ROM notes an extend or a refusal (R162): 64 bytes in its area at the top of SRAM, whose first entry stands at
0x100F_F000 (DESIGN CHOICE, log entry 65). -/
def romNote (e : MLog) (s : State) : State :=
  { s with ms := { s.ms with romLog := s.ms.romLog ++ [e] },
           wd := { s.wd with sram := cellPuts 0#8 (0xFF000 + 64 * s.ms.romLog.length) (mlogBytes e) s.wd.sram } }

/-- A refusal entry of the ROM (Table 7-9, KIND 0x03), kept in the partition of slots 0 to 15 (R304). -/
def romRefuse (typ code : Nat) (x : Option Img) (s : State) : State :=
  let e : MLog := ⟨1, 3, code, typ, 0, s.wd.time, match x with | some i => imgE i | none => List.replicate 48 0#8⟩
  romNote e { s with ms := { s.ms with logP := s.ms.logP ++ [e] } }

/-- The ROM extends and locks a slot, and notes the extend (R162). -/
def romExtend (n kind typ : Nat) (input : Bytes) (s : State) : State :=
  msLock n (romNote ⟨n, kind, 0, typ, (nth {} s.ms.slots n).count + 1, s.wd.time, slice input 0 48⟩ (msExtend n kind typ input s))

/-- The record of slot 0 (Table 7-3): OT_LC holds STATE at [3:0] and PARTIAL at [7:4] (Table 4-6); the ROM's revision is a
free value (log entry 1). -/
def slot0Record (s : State) : Bytes :=
  let o := s.otp
  (List.range 4).map (Config.stdByte 41 []) ++ toLe 4 (o.lc + 2 ^ 4 * o.partials) ++ toLe 4 ((List.range 7).foldl (fun n i => n + nth 0 o.grp i * 4 ^ i) 0)
    ++ toLe 4 o.asm ++ o.svn.flatMap (toLe 4) ++ toLe 4 o.revoke

/-- Draw a nonzero generation for every channel (R236). -/
def drawGens (s : State) : State :=
  let r := drawBytes 8 s
  (List.range 8).foldl (fun s c => modChan c (fun x => { x with
    gen := 1 + (nth 0#8 r.1 c).toNat % 255, dbIrqEn := true, addr := 0x100E0000 + 0x2000 * c }) s) r.2

/-- Raise the port rail for P0 alone in RECOVERY and QUARANTINE, where P0 is healthy (R201). -/
def p0Only (s : State) : State := if p0Healthy s then sqTable .p0Up s else s

/-- Start an accepted warden image (R162 steps 9 to 11): slots 1 and 2, ROOTKDF, the jump to its entry address. -/
def romStart (k tried ca cb typ : Nat) (i : Img) (s : State) : State :=
  let gen := match selector s with | some (_, c) => field c 4 4 | none => 0xFFFFFFFF
  let s := romExtend 1 1 typ (imgE i) s
  let s := romExtend 2 2 0 (Config.sha384 (toLe 1 k ++ toLe 1 tried ++ toLe 1 ca ++ toLe 1 cb ++ toLe 4 gen ++ toLe 8 0)) s
  let s := { s with
    boot := { s.boot with chosen := k, tried := tried, codeA := ca, codeB := cb, selgen := gen, eWarden := imgE i,
                          wardenVersion := field i.h 12 4, runSvn := s.boot.runSvn.set 0 (field i.h 8 1) },
    wd := { s.wd with entry := 0x10000000 + field i.h 20 4 + field i.h 24 4, fw := if typ = 5 then .recovery else .wfw } }
  let s := dgRootKdf s
  if s.pkg.st != .rom then s else setState (if typ = 5 then .recovery else .warden) 0 s

/-- The ROM checks a warden image of region `k` (R162 step 6): checks 1 to 8, the copy of the body to SRAM, check 9 on the
copy. -/
def romTry (k typ : Nat) (err : Bool) (s : State) : Nat × State :=
  if err then (10, s)
  else
    let c := imgCheck8 s k typ
    if c ≠ 0 then (c, s)
    else match readImg s k typ with
      | none => (2, s)
      | some i => (if imgBodyOk i then 0 else 9, { s with wd := { s.wd with sram := cellPuts 0#8 (field i.h 20 4) i.body s.wd.sram } })

/-- The recovery image is the last choice (R163): QUARANTINE with QCAUSE 0x02 where it is refused too. -/
def romRecovery (x : RomIn) (tried a b : Nat) (s : State) : State :=
  let r := romTry 2 5 x.errRec s
  match r.1, readImg s 2 5 with
  | 0, some i => romStart 2 (tried + 4) a b 5 i r.2
  | _, im => quarantine 2 (romRefuse 5 r.1 im r.2)

/-- The boot record takes the selector in force (R180). -/
def romRecord (s : State) : State :=
  match selector s with
  | some (k, c) => { s with boot := { s.boot with
      pref := field c 8 1, trial := field c 9 1 == 2, selValid := true, selCopy := k,
      svnTgt := (List.range 4).map (fun i => field c (12 + i) 1), setDigest := slice c 16 48 } }
  | none => { s with boot := { s.boot with pref := 0, trial := false, selValid := false, selCopy := 0, svnTgt := [0, 0, 0, 0], setDigest := [] } }

/-- Steps 5 to 8 of the ROM (R162, R181): choose the image to start; none starts it, and QUARANTINE 0x02 follows (R163). -/
def romSelect (x : RomIn) (s : State) : State :=
  let tries := match selector s with | some (_, c) => field c 10 1 | none => 0
  let s := romRecord s
  let pref := s.boot.pref
  let n := attempts s
  let out := s.boot.trial && decide (tries ≤ n)
  let s := if s.boot.trial && !out && !x.attemptErr then flashProg (0x2000 + 16 * n) (List.replicate 16 0#8) s else s
  let svnBad := nth 2 s.otp.grp 1 = 2
  let err (k : Nat) : Bool := if k = 0 then x.errA else x.errB
  let other := 1 - pref
  let code (a b : Nat) (k : Nat) : Nat := if pref = k then a else b
  let r1 := if out then (12, s) else romTry pref 1 (err pref) s
  let t1 := if out then 0 else 2 ^ pref
  match r1.1, readImg s pref 1 with
  | 0, some i => romStart pref t1 0 0 1 i r1.2
  | _, im1 =>
    let s1 := romRefuse 1 r1.1 im1 r1.2
    if svnBad then romRecovery x t1 (code r1.1 0 0) (code r1.1 0 1) s1
    else
      let r2 := romTry other 1 (err other) s1
      match r2.1, readImg s1 other 1 with
      | 0, some i => romStart other (t1 + 2 ^ other) (code r1.1 0 0) (code r1.1 0 1) 1 i r2.2
      | _, im => romRecovery x (t1 + 2 ^ other) (code r1.1 r2.1 0) (code r1.1 r2.1 1) (romRefuse 1 r2.1 im r2.2)

/-- Steps 1 and 2 of the ROM (R162): the watchdog is armed and OTP is repaired. -/
def romPrepare (x : RomIn) (s : State) : State :=
  otComplete x.pulses (otRepair { s with wd := { s.wd with wdtEn := true, wdtLoad := 2000000, wdtCount := 2000000 },
                                         mg := { s.mg with irqEn := true, ibiEn := true } })

/-- Slot 0 is measured and locked (R162). -/
def romMeasure (s : State) : State := romExtend 0 2 0 (Config.sha384 (slot0Record s)) s

/-- The ROM goes on by life cycle (R51, R53, R162): SCRAP repeats its burn and retires, a blank part stays in the ROM,
a part with no readable life cycle or failed root is in QUARANTINE with QCAUSE 0x01. -/
def romGo (x : RomIn) (s : State) : State :=
  if s.otp.lc = 4 then setState .retired 0 (otComplete [] (otLc 4 s))
  else if s.otp.lc = 0 then s
  else if s.otp.lc = 7 || nth 0 s.otp.grp 3 = 2 then romSelect x (quarantine 1 (romMeasure s))
  else romSelect x (romMeasure s)

/-- The ROM (R162): watchdog, OTP repair, life cycle, slot 0, then the image. -/
def romBoot (x : RomIn) (s : State) : State :=
  if !(s.wd.fw == .rom && s.pkg.st == .rom && s.otp.loaded && s.wd.sramReady) then s else romGo x (romPrepare x s)

/-- Step RAM with tables from index 0 upward, all-zero steps unlisted. -/
def ramOf (i : Nat) : List Step64 → List (Nat × Step64)
  | [] => []
  | w :: r => if w = 0#64 then ramOf (i + 1) r else (i, w) :: ramOf (i + 1) r

/-- Bytes of step RAM below an index, as stored. -/
def ramBytes (s : State) (n : Nat) : Bytes := (List.range n).flatMap (fun i => toLe 8 (stepAt s i).toNat)

/-- Firmware writes its tables from index 0 upward, sets BOUND to their end and locks them, and measures them (R164). -/
def writeTables (s : State) : State :=
  let ts := (fwTables s).flatten
  let n := ts.length
  let s := { s with sq := { s.sq with ram := ramOf 0 ts ++ s.sq.ram.filter (fun p => decide (n ≤ p.1)), bound := n, lock := true } }
  msLock 6 (msRecord 6 (ramBytes s n) s)

/-- Generate the identity and, in MISSION, set public keys (R293, R339). -/
def identities (s : State) : State :=
  let pub (op i n : Nat) : Bytes :=
    pkOut { op := op, ins := [(slotS s i).content], kslot := some i, dslot := none, draw := 0, ebits := 0, ord := false, early := 0 } 0 n
  let have' (i : Nat) : Bool := slotServes (slotS s i) 4
  { s with idn := { s.idn with
    ident := if have' 1 && have' 2 then some (ecWire2 (pub 0x10 1 96), pub 0x23 2 2592) else none,
    setPair := if have' 60 && have' 61 then some (pub 0x20 60 1568, ecWire2 (pub 0x10 61 96)) else none } }

/-- Reissue INCR_TO for the counters, 0 to 3 (R190); pulses are taken in order. -/
def burnSvn (tgt : List Nat) (x : List PulseOut) (s : State) : State :=
  ((List.range 4).foldl (fun (p : State × List PulseOut) c =>
    let s1 := otIncr c (nth 0 tgt c) p.1
    let n := match s1.otp.job with | some j => j.targets.length | none => 0
    (otComplete (p.2.take n) s1, p.2.drop n)) (s, x)).1

/-- The persisted entries of the previous boot are adopted (R507): the last 252, flagged PRIOR, with new SEQ. -/
def adoptLog (s : State) : State :=
  match s.lg.sectors.getLast? with
  | none => s
  | some l =>
    let es := lastN 252 ((s.lg.sectors.filter (fun x => x.boot == l.boot)).flatMap (fun x => x.entries))
    es.foldl (fun s e => { s with lg := { s.lg with pkg := lastN 1024 (s.lg.pkg ++ [{ e with seq := s.lg.pkgSeq, flags := e.flags + 2 }]), pkgSeq := s.lg.pkgSeq + 1 } }) s

/-- The ROM's entries are adopted in their order as EV_ROM_ENTRY with the ROM origin flag (R162). -/
def adoptRom (s : State) : State :=
  s.ms.romLog.foldl (fun s e =>
    logWith 4 0x0105 0xFF (toLe 1 e.slot ++ toLe 1 e.kind ++ toLe 1 e.code ++ toLe 1 e.typ ++ e.input.take 16) s) s

/-- WD_RSTCAUSE (Table 3-12). -/
def rstCause (s : State) : Nat :=
  let w := s.wd
  b2n w.por + 2 * b2n w.ext + 4 * b2n w.wdt + 8 * b2n w.lockstep + 16 * b2n w.swrst + 256 * b2n w.keys + 2 ^ 12 * w.rstState + 2 ^ 16 * w.swcode

/-- Group failures and marginal groups are logged at start (Table 22-1). -/
def logGroups (s : State) : State :=
  (List.range 7).foldl (fun s g =>
    let c := nth 0 s.otp.grp g
    if c = 2 then logEvent 0x0201 0xFF (toLe 1 g ++ toLe 1 c) s else if c = 1 then logEvent 0x0202 0xFF (toLe 1 g ++ toLe 4 s.otp.repairs) s else s) s

/-- The registers firmware sets first (R164): watchdog, reset cause, tenant mask and lock, interrupts, heartbeat limits. That it
sets IRQ_EN and IBI_EN, as Table 23-1 needs, is DEDUCED (log entry 96). -/
def wfwRegs (s : State) : State :=
  { s with
    wd := { s.wd with wdtEn := true, wdtLock := true, wdtS1 := true, wdtLoad := 100000, wdtCount := 100000,
                      por := false, ext := false, wdt := false, lockstep := false, swrst := false },
    ks := { s.ks with tenant := 0x00FFFFFFFFFF0000, tlock := true },
    mg := { s.mg with irqEn := true, ibiEn := true },
    units := s.units.map (fun u => { u with hbLim := Config.kHeartbeatUs, hbIrqEn := true, irqEn := true }) }

/-- Firmware's start up to the update status (R164, R75, R115, R236, R253, R293, R503): the logs, the registers, the
tables, the derived keys, the identities, the generations. -/
def wfwStart (s : State) : State :=
  let s := logGroups (adoptRom (adoptLog (logEvent 0x0101 0xFF (toLe 4 (rstCause s)) s)))
  let n := drawBytes 32 s
  let s := wfwRegs n.2
  updStart (drawGens (identities (derivePrism (writeTables { s with boot := { s.boot with bootNonce := n.1, inited := true } }))))

/-- At a CONFIRMED start the counter burns of the selector are reissued (R190). -/
def wfwReissue (x : List PulseOut) (s : State) : State :=
  if s.boot.chosen = s.boot.pref && s.boot.selValid && !s.boot.trial then burnSvn s.boot.svnTgt x s else s

/-- WDT or LOCKSTEP with KEYS set: QUARANTINE with QCAUSE 0x07 (R41). -/
def wfwCrash (crash : Bool) (s : State) : State := if crash && s.pkg.st == .warden then quarantine 7 s else s

/-- Warden firmware's start (R164); in QUARANTINE and RECOVERY the port rail rises for P0 (R201). The recovery image is
warden firmware too (00_scope.md) and starts the same way. -/
def wfwInit (x : List PulseOut) (s : State) : State :=
  if !fwWfw s || s.boot.inited || !(s.pkg.st == .warden || s.pkg.st == .quarantine || s.pkg.st == .recovery) then s
  else
    let s := wfwCrash (s.wd.keys && (s.wd.wdt || s.wd.lockstep)) (wfwReissue x (wfwStart s))
    if s.pkg.st == .warden then s else p0Only s

/-- Default mode of a life cycle (Table 2-3). -/
def defaultMode (s : State) : Mode := if s.otp.lc = 2 then .confidential else .opened

/-- PD_MODE.CONF of every port die (R279). -/
def setConf (s : State) : State :=
  { s with px := s.px.map (fun x => { x with conf := s.pkg.mode == .confidential }) }

/-- The roster is opened (R316) and the link record with it (R462). -/
def rosterOpen (s : State) : State :=
  if s.tn.ro.opened then s
  else
    match s.tn.fl.filter (fun f => f.root == s.otp.root && f.lc == s.otp.lc) with
    | some f =>
      let recs := f.recs.map (fun p => p.2)
      let s := { s with
        tn := { s.tn with ro := { opened := true, hdr := .queued, rid := f.rid, boots := f.boots + 1, recs := recs, res := 0 } },
        ln := match s.ln.flRec with
          | some (rid, rak, mo) => if rid == f.rid then { s.ln with rak := rak, mapout := mo } else s.ln
          | none => s.ln }
      let s := (List.range recs.length).foldl (fun s i => match recS s i with
        | some r => if r.state == RState.resident then
            recQueue i (logEvent 0x0401 0xFF (toLe 8 r.tid ++ toLe 2 i) (modRec i (fun r => { r with state := RState.evicted }) s)) else s
        | none => s) s
      fqAdd .header s
    | none =>
      let (rid, s) := drawBytes 8 s
      let s := { s with tn := { s.tn with ro := { opened := true, hdr := .queued, rid := rid, boots := 1, recs := [], res := 0 } } }
      fqAdd .header (logEvent 0x0402 0xFF rid s)

/-- Entry to BRINGUP (R41, R42, R165 step 1, R206, R208, R316). -/
def bringupStart (s : State) : State :=
  if !(s.pkg.st == .warden && s.boot.inited && s.pkg.mainOk && !s.mg.hold) then s
  else
    let s := if s.pkg.mode = defaultMode s then s else emptyTenantLog { s with lg := { s.lg with mask := 0 } }
    let s := { s with boot := { s.boot with bringups := s.boot.bringups + 1, bphase := .portRail } }
    let s := setStateIn (defaultMode s) .bringup 0 s
    let s := { s with hb := { s.hb with accept := 0, offer := offerMask s } }
    let s := setConf (extendMode s)
    let s := rosterOpen s
    let s := { s with ln := { s.ln with dies := (List.range 4).map (fun d => { nth {} s.ln.dies d with
      ports := (List.range 12).map (fun p => if bit (nth 0 s.ln.mapout d) p then { st := .mappedOut } else {}) }) } }
    sqTable .portUp s

/-- A unit that BRINGUP counts on is present: the census found what the fused code says (R28). -/
def present (s : State) (u : Nat) : Bool := decide (u < 8) || nth SiteKind.blank s.pkg.fill (u - 8) == siteFill (asmOf s) (u - 8)

/-- A site differs from Table 1-2 (R28): EV_ASSEMBLY_MISMATCH with what was expected and what was found. -/
def siteMismatch (s : State) (p : Nat) : Bool := nth SiteKind.blank s.pkg.fill p != siteFill (asmOf s) p

/-- Code of a site's content for the census (Table 7-3). -/
def siteCode : SiteKind → Nat
  | .port => 1 | .stack => 2 | .blank => 3

/-- The census record (Table 7-3, slot 7): the die identities are the dies' own (log entry 1). -/
def censusRecord (s : State) : Bytes :=
  (List.range 18).flatMap (fun u =>
    let t := if u < 8 then 0 else siteCode (nth SiteKind.blank s.pkg.fill (u - 8))
    toLe 1 u ++ toLe 1 t ++ toLe 2 0 ++ (if t = 3 then List.replicate 8 0#8 else (List.range 8).map (Config.stdByte 40 [toLe 1 u])))

/-- EV_ASSEMBLY_MISMATCH of a site. -/
def mismatchLog (p : Nat) (s : State) : State :=
  logEvent 0x0103 (8 + p) (toLe 1 (siteCode (siteFill (asmOf s) p)) ++ toLe 1 (siteCode (nth SiteKind.blank s.pkg.fill p))) s

/-- The comparison of R28 and R168, then the power-up clear of R42. Every site that differs is logged (DESIGN CHOICE, log
entry 66). -/
def siteCompare (s : State) : State :=
  let r := censusRecord s
  let seen := s.boot.census
  let s := if seen.isNone then msLock 7 (msRecord 7 r { s with boot := { s.boot with census := some r } }) else s
  let bad := (List.range 10).filter (siteMismatch s)
  if !bad.isEmpty then quarantine 3 (bad.foldl (fun s p => mismatchLog p s) s)
  else if seen.isSome && seen != some r then quarantine 3 s
  else sqTable .powerUp { s with boot := { s.boot with bphase := .clear } }

/-- A unit verification fails in BRINGUP (R167, R485): each unit is logged; QCAUSE 0x0B where P0 is among them. -/
def verifyFail (us : List Nat) (typ code : Nat) (s : State) : State :=
  quarantine (if decide (8 ∈ us) then 0x0B else 4) (us.foldl (fun s u => logEvent 0x0301 u (toLe 1 typ ++ toLe 1 code) s) s)

/-- Link training is enabled on a port die after its census (R201). -/
def ltEnable (u : Nat) (s : State) : State := modFn (ordOfUnit s u) (fun f => { f with ltEn := true }) s

/-- The port rail is up and the port dies are released: their census (R165 step 1). A P0 that is no port die is QCAUSE 0x0B. -/
def portsUp (s : State) : State :=
  if siteMismatch s 0 then quarantine 0x0B (mismatchLog 0 s)
  else
    let us := (portUnits s).filter (present s)
    us.foldl (fun s u => ltEnable u (setU u .resetting s)) { s with boot := { s.boot with bphase := .portImg } }

/-- The tile rail is up and the tiles are released: their census, with TD_HLRES (R165 step 2, R485). -/
def tilesUp (s : State) : State :=
  let s := (List.range 8).foldl (fun s u => setU u .resetting s) { s with boot := { s.boot with bphase := .tileImg } }
  let bad := (List.range 8).filter (fun t => (nth ({} : TileP) s.pw.tiles t).hlres != 31)
  if bad.isEmpty then s else verifyFail bad 4 0 s

/-- A rails table of firmware's has ended (R165, R201). One that ended on an error is a failed unit verification (DESIGN
CHOICE, log entry 63). -/
def railsDone (p : SqPurpose) (s : State) : State :=
  let bad := s.sq.err || s.sq.aborted
  if p == .p0Up then (if bad || !(s.pkg.st == .recovery || s.pkg.st == .quarantine) then s else ltEnable 8 s)
  else if s.pkg.st != .bringup then s
  else if bad then quarantine (if p == .portUp then 0x0B else 4) s
  else if p == .portUp then portsUp s
  else if p == .tileUp then tilesUp s
  else { s with boot := { s.boot with bphase := .memImg } }

/-- A rail's power-good comes to match its enable (R558): the waiting RAIL step completes and its table goes on. Where the
rail has fallen, its units lose power, and a link that went down with it acts as PERST_N (Table 9-3). -/
def railGoodEv (rail : Nat) (hl : List Nat) (s : State) : State :=
  let p := s.pkg
  let s := { s with pkg := if rail = 0 then { p with portPg := p.portEn } else if rail = 1 then { p with tilePg := p.tileEn && p.mainOk }
    else { p with memPg := p.memEn && p.tilePg && p.mainOk } }
  let fell := !railPg s rail
  let s := if fell && rail = 0 then (List.range 4).foldl (fun s d => if (fnS s d).up then fnReset d s else s) s else s
  let s := if fell then railFall rail s else s
  match s.sq.wait with
  | .rail r on =>
    if s.sq.busy && r = rail && railPg s r == on then
      (let s := sqAdvance s
       if s.sq.purpose.rails then sqBurst hl 16 s else s)
    else s
  | _ => s

/-- Image type of a load: 0 PORT_FW, 1 TILE_FW, 2 MEMCTL_UC (Table 7-7), its slot and its units. -/
def loadType (k : Nat) : Nat := if k = 0 then 3 else if k = 1 then 4 else 2
/-- Measurement slot of a load. -/
def loadSlot (k : Nat) : Nat := if k = 0 then 4 else if k = 1 then 5 else 3
/-- Units of a load. -/
def loadUnits (k : Nat) (s : State) : List Nat :=
  if k = 0 then (portUnits s).filter (present s) else if k = 1 then List.range 8 else (stackTiles s).filter (fun t => present s (t + 9))
/-- e recorded for a load. -/
def loadE (k : Nat) (s : State) : Option Bytes := if k = 0 then s.boot.ePort else if k = 1 then s.boot.eTile else s.boot.eMem

/-- The chunks of a body, 64 KiB each (R166 step 2). -/
def chunks (b : Bytes) : List Bytes := (List.range ((b.length + 65535) / 65536)).map (fun i => (b.drop (65536 * i)).take 65536)

/-- One chunk into SRAM and, by a DIGEST step, into the digest engine (R166 steps 2 and 3). The buffer stands at
0x100D_0000 (DESIGN CHOICE, log entry 65). -/
def digestChunk (s : State) (b : Bytes) : State :=
  fwDo (digestTable b.length) { s with
    wd := { s.wd with sram := cellPuts 0#8 0xD0000 b s.wd.sram }, sq := { s.sq with args := s.sq.args.set 0 0x100D0000 } }

/-- The digest of a body as it is written (R166): whole blocks by DIGEST steps, the padded rest by firmware (R81). -/
def bodyDigest (b : Bytes) (s : State) : State :=
  let s := { s with dg := { s.dg with mode := 0, dest := false, dual := false, phase := .open, absorbed := [], buf := [], key := [], blocks := 0, result := [] } }
  let s := (chunks (b.take (b.length / 128 * 128))).foldl digestChunk s
  { s with dg := { s.dg with phase := .idle, absorbed := [], done := true, err := false, ecode := 0, result := Config.sha384 b,
                             blocks := (b.length + 17 + 127) / 128 } }

/-- A DIGEST step of a load that the engine ends on a bus error or an alarm: the load's digest is restarted once. -/
def digestFail (s : State) : State := sqError 8 (dgEnd 7 (sqStart .user (fwReady (digestTable 65536) s)))

/-- The code of Table 7-6 with which a unit load ends: checks 1 to 8, a second failed digest (as a read error), a window
bus error, check 9. -/
def loadCode (k : Nat) (x : LoadIn) (s : State) : Nat :=
  if x.flashErr then 10
  else
    let c := imgCheck8 s s.boot.chosen (loadType k)
    if c ≠ 0 then c
    else if 2 ≤ x.digestFails then 10
    else if x.windowErr.isSome then 11
    else if x.digestBad || (match readImg s s.boot.chosen (loadType k) with | some i => !imgBodyOk i | none => true) then 9 else 0

/-- The body of an accepted header goes to the image region of each unit (R166 steps 2 to 4). -/
def loadWrite (k : Nat) (x : LoadIn) (us : List Nat) (i : Img) (s : State) : State :=
  let s := if x.digestFails = 0 then s else digestFail s
  let s := bodyDigest i.body s
  us.foldl (fun s u => modUnit u (fun y => if k = 2 then { y with mcImage := i.body } else { y with image := i.body }) s) s

/-- GO with the entry offset (R166 step 5). -/
def loadGo (k u : Nat) (i : Img) (s : State) : State :=
  let e := field i.h 24 4 % 2 ^ 23 / 4 * 4
  modUnit u (fun y => if k = 2 then { y with mcGo := true, mcEntry := e, mcAwait := true } else { y with go := true, entry := e, awaitReady := true }) s

/-- Slot 9's record (Table 7-3). -/
def slot9 (u reason count : Nat) (e : Bytes) (s : State) : State :=
  msRecord 9 (toLe 1 u ++ [0#8] ++ toLe 1 (unitS s u).gen.toNat ++ toLe 1 reason ++ toLe 4 count ++ e) s

/-- The phase in which an image type is loaded, and the one that waits for READY. -/
def loadPhase (k : Nat) : BPhase := if k = 0 then .portImg else if k = 1 then .tileImg else .memImg
/-- The phase after a load. -/
def readyPhase (k : Nat) : BPhase := if k = 0 then .portReady else if k = 1 then .tileReady else .memReady

/-- The image's e is recorded in its slot at the first load (R159), or slot 9 takes a record for each PORT or TILE unit of
a repeated BRINGUP, once per unit (R168). -/
def loadMeasure (k : Nat) (us : List Nat) (i : Img) (s : State) : State :=
  let e := imgE i
  let b := s.boot
  let svn := b.runSvn.set ((svnCounter (loadType k)).getD 0) (field i.h 8 1)
  let t : State := { s with boot := { b with runSvn := svn, bphase := readyPhase k, eMem := if k = 2 then some e else b.eMem,
                                             ePort := if k = 0 then some e else b.ePort, eTile := if k = 1 then some e else b.eTile } }
  if (loadE k s).isNone then msLock (loadSlot k) (msExtend (loadSlot k) 1 (loadType k) e t)
  else if k = 2 then t else us.foldl (fun s u => slot9 u 2 (b.bringups - 1) e s) t

/-- A unit image load of BRINGUP (R166 to R168): GO on a match. A refused image names every unit it was for, a window bus
error the one unit; an e that differs from the recorded one is QCAUSE 0x04 for every type. -/
def unitLoad (k : Nat) (x : LoadIn) (s : State) : State :=
  let us := loadUnits k s
  if !(s.pkg.st == .bringup && s.boot.bphase == loadPhase k) || s.sq.busy then s
  else
    let c := loadCode k x s
    let bad := match x.windowErr with | some u => if c = 11 then [u] else us | none => us
    match readImg s s.boot.chosen (loadType k) with
    | none => verifyFail us (loadType k) c s
    | some i =>
      let s := if x.flashErr || imgCheck8 s s.boot.chosen (loadType k) ≠ 0 then s else loadWrite k x us i s
      if c ≠ 0 then verifyFail bad (loadType k) c s
      else if (loadE k s).isSome && loadE k s != some (imgE i) then
        quarantine 4 (us.foldl (fun s u => logEvent 0x0301 u (toLe 1 (loadType k) ++ toLe 1 0) s) s)
      else us.foldl (fun s u => loadGo k u i s) (loadMeasure k us i s)

/-- Lines a whole clear table samples (R327). -/
def linesSampled (s : State) : Nat := 2097152 * (stackTiles s).length + 86016 * 8 + 2048 * (portUnits s).length

/-- Units of BRINGUP's present phase have all posted READY: go on (R165). -/
def bringupReady (s : State) : State :=
  let all (l : List Nat) : Bool := l.all (fun u => !(unitS s u).awaitReady && !(unitS s u).mcAwait)
  match s.boot.bphase with
  | .portReady => if all (loadUnits 0 s) then sqTable .tileUp { s with boot := { s.boot with bphase := .tileRail } } else s
  | .tileReady =>
    if !all (List.range 8) then s
    else if isS0 s then siteCompare s else sqTable .memUp { s with boot := { s.boot with bphase := .memRail } }
  | .memReady =>
    if !all (List.range 8) then s
    else if (loadUnits 2 s).isEmpty then siteCompare s else { s with boot := { s.boot with bphase := .train } }
  | _ => s

/-- A stack has trained (R397). -/
def stackTrained (t : Nat) (s : State) : State :=
  if !(s.boot.bphase == .train && s.pkg.st == .bringup && decide (t ∈ loadUnits 2 s)) then s
  else
    let s := modMc t (fun m => { m with trained := true }) s
    if (loadUnits 2 s).all (fun t => (mcS s t).trained) then siteCompare s else s

/-- A restarted unit's image is loaded again (R169, R381 step 4, R501 step 2): the body, GO with the entry offset, slot 9. -/
def unitReload (u : Nat) (x : LoadIn) (s : State) : State :=
  let y := unitS s u
  let k := if u < 8 then 1 else 0
  if !(s.pkg.st.main && y.ustate == .resetting && !y.awaitReady && !y.go && !(if u < 8 then y.inReset else y.ctrlHeld) && s.pkg.st != .bringup)
    || s.sq.busy then s
  else
    let c := loadCode k x s
    match readImg s s.boot.chosen (loadType k) with
    | none => unitFail u (if u < 8 then 4 else 2) c s
    | some i =>
      let s := if x.flashErr || imgCheck8 s s.boot.chosen (loadType k) ≠ 0 then s else loadWrite k x [u] i s
      if c ≠ 0 || loadE k s != some (imgE i) || (decide (u < 8) && (tileP s u).hlres != 31) then unitFail u (if u < 8 then 4 else 2) c s
      else
        let s := loadGo k u i (modUnit u (fun y => { y with restarts := y.restarts + 1 }) s)
        trace 13 u (if u < 8 then 4 else 2) (unitS s u).gen.toNat (slot9 u 1 (unitS s u).restarts (imgE i) s)

/-- Image type whose READY a unit owes (R225). -/
def awaitedType (u : Nat) (s : State) : Nat := if (unitS s u).mcAwait then 2 else if u < 8 then 4 else 3

/-- READY (R225): a GEN other than the current one fails the unit in BRINGUP (R167), and is discarded elsewhere. A memory
controller's READY comes through its tile. A restarted tile goes on to its restore. -/
def unitReady (u gen version : Nat) (s : State) : State :=
  let y := unitS s u
  if !(unitUp s u && (y.awaitReady || y.mcAwait)) then s
  else if gen ≠ y.gen.toNat then (if s.pkg.st == .bringup then verifyFail [u] (awaitedType u s) 0 s else s)
  else if y.mcAwait then bringupReady (modUnit u (fun y => { y with mcAwait := false }) s)
  else
    let s := setU u .up (modUnit u (fun y => { y with awaitReady := false, hbAge := 0, version := version }) s)
    let s := if u < 8 then modTileJ u (fun t => { t with limit := 8, window := 1000, lock := true, restoring := s.pkg.st != .bringup }) s else s
    if s.pkg.st == .bringup then bringupReady s
    else logEvent 0x0303 u (toLe 1 y.gen.toNat ++ toLe 4 y.restarts) (if u < 8 then s else trace 13 u 4 y.gen.toNat s)

/-- No READY within t_rdy (R167; R502 for a restart). -/
def readyTimeout (u : Nat) (s : State) : State :=
  if !((unitS s u).awaitReady || (unitS s u).mcAwait) then s
  else if s.pkg.st == .bringup then verifyFail [u] (awaitedType u s) 0 s
  else unitFail u (if u < 8 then 4 else 2) 0 (modUnit u (fun y => { y with awaitReady := false }) s)

end Sys2Proof.Machine
end

