-- ==== Sys2Proof/Machine/Settle.lean ====
section
/-! DEFINITION. What firmware does when a sequencer table of its own ends (R42, R326, R381, R501), and the clear receipt
it leads to (R328, Table 14-9). -/

namespace Sys2Proof.Machine

/-- Bytes of RFLAGS (Table 14-9). -/
def rflags (w : Switch) : Nat := b2n w.closed + 2 * b2n w.stopped + 4 * b2n w.patfb + 8 * b2n w.unsigned

/-- Clear receipt body (Table 14-9). -/
def clearBody (s : State) : Bytes :=
  let w := s.tn.sw
  let tid := match recS s w.idx with | some r => r.tid | none => 0
  toLe 4 0x524C4354 ++ toLe 2 1 ++ toLe 1 w.cause ++ toLe 1 (rflags w) ++ toLe 8 w.epoch ++ toLe 8 tid ++ toLe 2 w.idx ++ toLe 2 0
    ++ toLe 1 s.otp.asm ++ toLe 1 s.otp.lc ++ toLe 1 s.pkg.mode.code ++ [0#8] ++ mfgId s ++ bootTag s
    ++ toLe 8 w.tBegin ++ toLe 8 w.tKeys ++ toLe 8 w.tEnd ++ (match s.sq.seed with | some d => Config.draw d 32 | none => List.replicate 32 0#8)
    ++ toLe 2 w.kslots ++ toLe 2 w.kports ++ toLe 4 0 ++ toLe 8 ((stackTiles s).length * 2 ^ 35) ++ toLe 8 (8 * 21 * 2 ^ 26)
    ++ toLe 8 ((portUnits s).length * 2 ^ 25) ++ toLe 8 (linesSampled s) ++ toLe 8 0
    ++ toLe 8 w.lastBatch ++ slice w.batchRoot 0 48 ++ slice w.resmeas 0 48 ++ toLe 4 s.ms.tgen ++ toLe 4 0

/-- The clear verified: build the receipt and queue its class 0 entry (R325 phase 8). -/
def switchCleared (s : State) : State :=
  let w0 : Switch := { s.tn.sw with tEnd := s.wd.time, phase := .receipt }
  let s := clearPortBufs { s with tn := { s.tn with sw := w0 } }
  let b := clearBody s
  let w1 : Switch := { s.tn.sw with body := toLe 4 272 ++ b }
  let s := { s with tn := { s.tn with sw := w1 } }
  pqAdd 0 .clearReceipt (signJobs s (toLe 4 272 ++ b)) s

/-- Both signatures of the clear receipt are complete (R328): held, queued for the ring, and the package enters IDLE. -/
def switchSigned (ec ml : Bytes) (s : State) : State :=
  let w := s.tn.sw
  if w.phase != .receipt then s
  else
    let r : ClearRcpt := ⟨w.epoch, w.body ++ ec ++ ml⟩
    let s := fqAdd (.ring r) { s with tn := { s.tn with pend := s.tn.pend ++ [r], sw := {} } }
    let s := logEvent 0x0404 0xFF (toLe 8 w.epoch ++ [0#8] ++ toLe 8 w.tEnd) s
    idleEntry (setState .idle 0 s)

/-- The power-up clear table has ended (R42). -/
def powerUpDone (s : State) : State :=
  if s.pkg.st != .bringup then s
  else if s.sq.err || s.sq.aborted then quarantine 0x0C s
  else
    let s := logEvent 0x0104 0xFF (toLe 1 (b2n s.sq.vfail) ++ toLe 8 (linesSampled s)) s
    if s.sq.vfail then quarantine 6 s
    else idleEntry (setState .idle 0 { s with boot := { s.boot with bphase := .none } })

/-- The switch's clear table has ended (R326). -/
def switchClearDone (s : State) : State :=
  if s.tn.sw.phase != .clear then s
  else if s.sq.err || s.sq.aborted then quarantine 0x0C s
  else if s.sq.vfail then quarantine 6 s else switchCleared s

/-- A tile's reset table has ended (R381 step 3): reload awaits, or QUARANTINE. -/
def tileTableDone (s : State) : State :=
  if s.sq.err || s.sq.aborted then quarantine 0x0C s
  else if s.sq.vfail then quarantine 6 s else s

/-- What firmware does at the end of the table it started for `p`. -/
def tableDone (p : SqPurpose) (s : State) : State :=
  match p with
  | .user => s
  | .powerUp => powerUpDone s
  | .switchClear => switchClearDone s
  | .tile _ => tileTableDone s
  | .port u => if s.sq.err || s.sq.aborted then unitFail u 1 s.sq.ecode s else s
  | .portUp => railsDone .portUp s
  | .tileUp => railsDone .tileUp s
  | .memUp => railsDone .memUp s
  | .p0Up => railsDone .p0Up s

/-- While the sequencer is free: what firmware started the ended table for goes on, then the next queued table starts (R76). -/
def settleN : Nat → State → State
  | 0, s => s
  | n + 1, s =>
    if s.sq.busy then s
    else if s.sq.purpose != .user then settleN n (tableDone s.sq.purpose { s with sq := { s.sq with purpose := .user } })
    else match s.sq.queue with
      | q :: r => settleN n (sqBegin q { s with sq := { s.sq with queue := r } })
      | [] => s

/-- A table has ended: an operation error raises the safety alarm CLRFAULT, and firmware goes on. -/
def settle (s0 s : State) : State :=
  if s.sq.busy then s
  else
    let s := if s0.sq.busy && s.sq.err && s.sq.ecode == 4 then setAlarm 19 s else s
    settleN (s.sq.queue.length + 8) s

/-- A fabric access in flight to a unit that is no longer up ends in a bus error (chapter 03). -/
def dropAccess (s : State) : State :=
  match s.wd.access with
  | some a => if unitUp s a.unit then s else { s with wd := { s.wd with access := none, last := .busError } }
  | none => s

/-- A sequencer event and what follows from the table's end. -/
def sqEvent (f : State → State) (s : State) : State := dropAccess (settle s (f s))

end Sys2Proof.Machine
end

