-- ==== Sys2Proof/Machine/HostLink.lean ====
section
/-! DEFINITION. The host's way in: functions and MSI-X (chapter 09), the channel handshake, the frame checks, windows
and the posting of responses (chapter 10). -/

namespace Sys2Proof.Machine

/-- The primary function answers BAR accesses: its link is up and it is in D0 (R202, R204). -/
def barOn (s : State) (d : Nat) : Bool := (fnS s d).up && !(fnS s d).d3

/-- CMD_FREE (R226). -/
def Chan.cmdFree (c : Chan) : Bool := !c.busy && !c.rspValid

/-- A function's interrupt registers and MSI-X state at reset (Table 9-7). -/
def fnRegsReset (d : Nat) (s : State) : State :=
  modFn d (fun f => { f with cause := 0, irqEn := 0, mask := 0xFFFFFFFFFFFFFFFF, pba := 0, table := [], d3 := false }) s

/-- PERST_N or FLR of a function: its registers and its effects (Table 9-3). -/
def fnDown (d : Nat) (s : State) : State :=
  fnReset d (fnRegsReset d s)

/-- Drop the MSI-X messages of a set of vectors: those pending and unmasked are sent (R204, R211). -/
def sendPending (d : Nat) (s : State) : State :=
  (List.range 64).foldl (fun s v =>
    let f := fnS s d
    if bit f.pba v && !bit f.mask v && !f.d3 && f.up then emit (.msix d v) (modFn d (fun f => { f with pba := setBit f.pba v false }) s) else s) s

/-- A host write to a command buffer (R202, R226). -/
def mbxWrite (ch off : Nat) (data : Bytes) (s : State) : State :=
  if 8 ≤ ch || !barOn s 0 then s
  else if 256 < data.length || 4096 < off + data.length then { s with hb := { s.hb with urs := s.hb.urs + 1 } }
  else if !(chanS s ch).cmdFree then s
  else modChan ch (fun c => { c with cmdBuf := cellPuts 0#8 off data c.cmdBuf }) s

/-- A doorbell (R226, Table 10-3 step 3). -/
def mbxDoorbell (ch len : Nat) (s : State) : State :=
  let c := chanS s ch
  if 8 ≤ ch || !barOn s 0 || !c.cmdFree || c.gen = 0 || len < 32 || 4096 < len then s
  else
    let s := modChan ch (fun c => { c with busy := true, pend := true, dbLen := len }) s
    let s := { s with mb := { s.mb with arrivals := s.mb.arrivals ++ [ch] } }
    if c.dbIrqEn then irq 4 s else s

/-- TAKE (R240): the mover starts to copy the latched length to WD_HMB_ADDR; the hardware takes no decision about the frame
(R221). DESIGN CHOICE (log entry 80): a TAKE or POST while the channel's mover is busy is ignored. -/
def hmbTake (ch : Nat) (s : State) : State :=
  if (chanS s ch).move.isSome then s
  else modChan ch (fun c => { c with move := some .take, mvDone := false, mvErr := false }) s

/-- The frame that lies in `n` bytes (Table 10-1). -/
def parseFrame (b : Bytes) : Frame :=
  let p := b.drop 32
  { opcode := field b 0 2, flags := field b 2 1, gen := field b 3 1, tag := field b 4 4, session := field b 12 4,
    dig := Config.sha384 p, payload := p }

/-- A response cached in a window, with STATUS ST_REPLAYED and the tag of the frame it answers (R229, R231). -/
def replayOf (tag : Nat) (b : Bytes) : Bytes :=
  slice b 0 4 ++ toLe 4 tag ++ slice b 8 4 ++ toLe 2 stReplayed ++ b.drop 14

/-- A replay whose bytes are gone: the header with EXPIRED set and no payload (R234). -/
def expired (op tag : Nat) : Bytes := rspFrame op 2 tag stReplayed []

/-- The replay of a window entry; RESULT_READ reads its object again (R233, R234). -/
def replayEntry (ch tag : Nat) (e : WinEntry) (s : State) : Option Bytes :=
  match e.posted, e.obj with
  | none, _ => none
  | some b, none => some (replayOf tag b)
  | some b, some h =>
    if e.opcode = 4 then
      (match lookupNat h (chanS s ch).objs with
       | some _ => some (replayOf tag b)
       | none => some (slice b 0 2 ++ toLe 1 (field b 2 1 / 2 * 2 + (if bit (field b 2 1) 1 then 0 else 2)) ++ slice b 3 1 ++ toLe 4 tag
           ++ toLe 4 0 ++ toLe 2 stReplayed ++ toLe 2 0 ++ (Config.sha384 []).take 16))
    else some (replayOf tag b)

/-- The response of the submission on channel `c` with tag `t` for a duplicate with tag `tag` (R231): that of its job window
entry, or of its tag window entry where the job window has been emptied. None: not yet posted. -/
def dupReply (op tag c t : Nat) (s : State) : Option Bytes :=
  match s.mb.jobWin.find? (fun e => e.ch == c && e.tag == t) with
  | some e => e.rsp.map (replayOf tag)
  | none =>
    match (chanS s c).win.find? (fun e => e.tag == t) with
    | some e => replayEntry c tag e s
    | none => some (expired op tag)

/-- Make a window entry (R228): the oldest leaves beyond K_TAG_WINDOW, and objects nothing refers to go with it (R232). -/
def winAdd (ch : Nat) (f : Frame) (s : State) : State :=
  modChan ch (fun c =>
    let w := c.win ++ [⟨f.tag, f.opcode, f.flags, f.session, f.dig, none, none⟩]
    if w.length ≤ Config.kTagWindow then { c with win := w }
    else
      let old := match w with | e :: _ => e.tag | [] => 0
      let w := w.tail
      { c with win := w, floor := max c.floor old,
               objs := c.objs.filter (fun o => w.any (fun e => e.tag == o.1 || e.obj == some o.1)) }) s

/-- Make a job window entry (R231). -/
def jobWinAdd (j : JobWin) (s : State) : State :=
  let l := s.mb.jobWin ++ [j]
  if l.length ≤ Config.kTagWindow * Config.kMbxChannels then { s with mb := { s.mb with jobWin := l } }
  else
    let old := match l with | e :: _ => e.job | [] => 0
    { s with mb := { s.mb with jobWin := l.tail, jobFloor := max s.mb.jobFloor old } }

/-- Largest result of a command (Table 11-2), 0 for one that creates no object. -/
def largest (op : Nat) : Nat :=
  match op with
  | 0x100 => 12288 | 0x101 => 12288 | 0x102 => 3856 | 0x103 => 1672 | 0x206 => 4112 | 0x207 => 6144
  | 0x601 => 8192 | 0x705 => 4104 | 0x900 => 8192 | 0x903 => 8192 | 0x904 => 6144
  | _ => 0

/-- Answer a frame that is rejected or replayed before execution. -/
def frameAnswer (ch : Nat) (b : Bytes) (s : State) : State := modChan ch (fun c => { c with built := some b }) s

/-- A frame that reaches execution enters its channel's window; a sealed one entered it when its seal passed (R228, R235). -/
def frameEnter (ch : Nat) (f : Frame) (isSealed : Bool) (s : State) : State := if isSealed then s else winAdd ch f s

/-- Checks 11 and 12 of Table 10-4 and execution: room in the result store (R232) and in the PKE queue (R152). -/
def frameLast (disp : Nat → HostCall → State → State) (ch : Nat) (f : Frame) (isSealed : Bool) (data : Bytes) (s : State) : State :=
  let c : HostCall := ⟨ch, f.tag, isSealed, data⟩
  let room := 16384 - (chanS s ch).objs.foldl (fun n o => n + o.2.length) 0
  if largest f.opcode ≠ 0 && room < largest f.opcode then buildRsp c f.opcode 0 stResultFull [] s
  else if !pqRoom (pkeNeed f.opcode data s) s then buildRsp c f.opcode 0 stBusy [] s
  else disp f.opcode c (frameEnter ch f isSealed
    (if f.opcode = 0x401 then jobWinAdd ⟨field data 0 8, ch, f.tag, f.dig, none⟩ s else s))

/-- Checks 6 to 12 of Table 10-4 and execution of the body (R227); check 10 is the job window (R231). -/
def frameRun (disp : Nat → HostCall → State → State) (ch : Nat) (f : Frame) (isSealed : Bool) (data : Bytes) (s : State) : State :=
  let c : HostCall := ⟨ch, f.tag, isSealed, data⟩
  match admission f.opcode isSealed data s with
  | some st => buildRsp c f.opcode 0 st [] s
  | none =>
    if f.opcode ≠ 0x401 then frameLast disp ch f isSealed data s
    else
      let j := field data 0 8
      match s.mb.jobWin.find? (fun e => e.job == j) with
      | some e =>
        if e.dig != f.dig then buildRsp c f.opcode 0 stTagConflict [] s
        else match e.rsp with
          | some b => frameAnswer ch (replayOf f.tag b) s
          | none => modChan ch (fun x => { x with dupOf := some (e.ch, e.tag) }) s
      | none => if j ≤ s.mb.jobFloor && j ≠ 0 then buildRsp c f.opcode 0 stJobStale [] s else frameLast disp ch f isSealed data s

/-- The frame checks of Table 10-4 on a moved frame (R227 to R235). -/
def frameChecks (disp : Nat → HostCall → State → State) (ch : Nat) (s : State) : State :=
  let c := chanS s ch
  let raw := cellGets 0#8 0 c.dbLen c.cmdBuf
  let f := parseFrame raw
  let s := trace 0 0xFF (ch + 65536 * f.opcode) f.tag
    (modChan ch (fun x => { x with frame := some f, quiet := bit f.flags 1, built := none, ref := none, dupOf := none }) s)
  let plain (st : Nat) (s : State) : State := frameAnswer ch (rspFrame f.opcode 0 f.tag st []) s
  let isSealed := bit f.flags 0
  if c.dbLen ≠ 32 + field raw 8 4 || 4064 < field raw 8 4 || f.tag = 0 || 0x8000 ≤ f.opcode || 4 ≤ f.flags || (!isSealed && f.session ≠ 0) then
    plain stMalformed s
  else if f.gen ≠ c.gen then plain stStaleGen s
  else if f.dig.take 16 != slice raw 16 16 then plain stMalformed s
  else match c.win.find? (fun e => e.tag == f.tag) with
    | some e =>
      if e.opcode = f.opcode && e.flags = f.flags && e.session = f.session && e.dig == f.dig then
        (match replayEntry ch f.tag e s with
         | some b => frameAnswer ch b s
         | none => modChan ch (fun x => { x with dupOf := some (ch, f.tag) }) s)
      else plain stTagConflict s
    | none =>
      if f.tag ≤ c.floor then plain stTagStale s
      else if !isSealed then frameRun disp ch f false f.payload s
      else match s.sd.sess with
        | none => plain stSealFail s
        | some x =>
          let p := f.payload
          let n := field p 12 2
          let ct := slice p 14 (n - 16)
          let mac := slice p (14 + (n - 16)) 16
          let key := sessKey s false
          let iv := sessIv s false x.rxSeq
          if !x.opened || f.session ≠ x.id || field p 0 4 ≠ f.session || field p 4 8 ≠ x.rxSeq || n < 16 || p.length ≠ 14 + n
              || !Config.gcmOk key iv (p.take 14) ct mac then plain stSealFail s
          else
            let s := winAdd ch f { s with sd := { s.sd with sess := some { x with rxSeq := x.rxSeq + 1 } } }
            frameRun disp ch f true ((List.range (n - 16)).map (Config.gcmByte false key iv (p.take 14) ct)) s

/-- The mover's access lies inside warden SRAM (R240). -/
def mvInside (c : Chan) (n : Nat) : Bool := 0x10000000 ≤ c.addr && c.addr + n ≤ 0x10100000

/-- Firmware begins the checks of frames that lie in SRAM, in arrival order, one at a time (R238): a frame that arrived earlier
and is still to be moved holds the later ones back. `n` bounds the frames. -/
def checkArrived (disp : Nat → HostCall → State → State) : Nat → State → State
  | 0, s => s
  | n + 1, s =>
    match s.mb.arrivals with
    | [] => s
    | ch :: r =>
      if !(chanS s ch).inSram then s
      else checkArrived disp n (frameChecks disp ch (modChan ch (fun x => { x with inSram := false }) { s with mb := { s.mb with arrivals := r } }))

/-- A move ends (R240): a TAKE brings the frame into SRAM, PEND falls and the checks run; a POST ends with MVDONE. A TAKE whose
access leaves SRAM ends with MVERR, and the frame is still to be taken. -/
def hmbMoveDone (disp : Nat → HostCall → State → State) (ch : Nat) (s : State) : State :=
  let c := chanS s ch
  match c.move with
  | none => s
  | some .post => modChan ch (fun c => { c with move := none, mvDone := true }) s
  | some .take =>
    if !mvInside c c.dbLen then modChan ch (fun c => { c with move := none, mvErr := true }) s
    else
      let s := { s with wd := { s.wd with sram := cellPuts 0#8 (c.addr - 0x10000000) (cellGets 0#8 0 c.dbLen c.cmdBuf) s.wd.sram } }
      let s := modChan ch (fun x => { x with move := none, mvDone := true, pend := false, inSram := x.inSram || x.pend }) s
      if fwWfw s then checkArrived disp Config.kMbxChannels s else s

/-- Advance the generation of one channel (R236, R237). -/
def genAdvance (ch : Nat) (s : State) : State :=
  let s := if s.mb.stageOwner == some ch then stageEmpty s else s
  modChan ch (fun c => { c with gen := if c.gen = 255 then 1 else c.gen + 1, win := [], floor := 0, objs := [] }) s

/-- The command of a call has succeeded and a warden reset follows its response (R102, R187, R267): at its POST, posted or
discarded; at once on the management path, whose response has left. -/
def resetAfterReply (c : HostCall) (code : Nat) (s : State) : State :=
  if c.ch < 8 then modChan c.ch (fun x => { x with reset := some code }) s else softReset code s

/-- A sealed response whose session has ended since it was built is posted as ST_SEAL_FAIL, SEALED clear, without payload (R235). -/
def sealLast (b : Bytes) (s : State) : Bytes :=
  if bit (field b 2 1) 0 && !(s.sd.sess.any (fun x => x.opened && x.id == field b 32 4)) then
    slice b 0 2 ++ [0#8] ++ slice b 3 1 ++ slice b 4 4 ++ toLe 4 0 ++ toLe 2 stSealFail ++ toLe 2 0 ++ (Config.sha384 []).take 16
  else b

/-- The bytes a POST copies: firmware's response with the channel's GEN, or `len` bytes at WD_HMB_ADDR; none outside SRAM. -/
def hmbRaw (c : Chan) (s : State) : Option Bytes :=
  match c.built with
  | some b =>
    let b := sealLast b s
    if mvInside c b.length then some (slice b 0 3 ++ toLe 1 c.gen ++ b.drop 4) else none
  | none => if mvInside c c.len && 32 ≤ c.len && c.len ≤ 4096 then some (cellGets 0#8 (c.addr - 0x10000000) c.len s.wd.sram) else none

/-- The channel after its response of `n` bytes left: free, and the mover busy with the copy. -/
def Chan.freed (n : Nat) (x : Chan) : Chan :=
  { x with busy := false, pend := false, inSram := false, frame := none, built := none, ref := none, dupOf := none, discard := false, reset := none,
           move := some .post, mvDone := false, len := n }

/-- A response becomes readable (Table 10-3 steps 5 and 6): its window entry is filled, its vector sent. -/
def hmbRespond (ch : Nat) (b : Bytes) (s : State) : State :=
  let c := chanS s ch
  let tag := field b 4 4
  let fill (e : WinEntry) : WinEntry := if e.tag = tag && e.posted.isNone then { e with posted := some b, obj := c.ref } else e
  let s := modChan ch (fun x => { x.freed b.length with win := x.win.map fill, rspBuf := b, rspLen := b.length, lastTag := tag, rspValid := true }) s
  let s := modFn 0 (fun f => { f with cause := setBit f.cause (16 + ch) true }) s
  let s := if c.irqEn && bit (fnS s 0).irqEn (16 + ch) && !c.quiet then sendVec 0 (1 + ch) s else s
  if c.resetAfter then modChan ch (fun x => { x with resetAfter := false, rspValid := false }) (genAdvance ch s) else s

/-- The job window entry of the submission that this response answers keeps it (R231). -/
def jobWinFill (ch : Nat) (b : Bytes) (s : State) : State :=
  let fill (e : JobWin) : JobWin := if e.ch = ch && e.tag = field b 4 4 && e.rsp.isNone then { e with rsp := some b } else e
  { s with mb := { s.mb with jobWin := s.mb.jobWin.map fill } }

/-- POST (R240, Table 10-3 steps 5 and 6): the window entry is filled, the response becomes readable, its vector is
sent. A discarded response only frees the channel (DESIGN CHOICE, log entry 80: BUSY stays 1 across PERST_N until then). Without
firmware's response the bytes at WD_HMB_ADDR are copied. -/
def hmbPost (ch : Nat) (s : State) : State :=
  let c := chanS s ch
  if !c.busy || c.move.isSome then s
  else match hmbRaw c s with
    | none => modChan ch (fun c => { c with mvErr := true }) s
    | some b =>
      let s := { s with wd := { s.wd with sram := cellPuts 0#8 (c.addr - 0x10000000) b s.wd.sram } }
      let s := trace 1 0xFF (ch + 65536 * field b 12 2) (field b 4 4) s
      let s := jobWinFill ch b { s with mb := { s.mb with arrivals := s.mb.arrivals.filter (· != ch) } }
      let s := if c.discard then modChan ch (Chan.freed b.length) s else hmbRespond ch b s
      match c.reset with
      | some k => softReset k s
      | none => s

/-- A duplicate that waits on another channel gets the first response once it is posted (R231). -/
def dupRelease (ch : Nat) (s : State) : State :=
  match (chanS s ch).dupOf, (chanS s ch).frame with
  | some (c, t), some f =>
    match dupReply f.opcode f.tag c t s with
    | some b => modChan ch (fun x => { x with dupOf := none, built := some b }) s
    | none => s
  | _, _ => s

/-- CHANNEL_RESET (R237, Table 11-4). -/
def channelResetBody : HostCall → State → CmdRes := sized 4 (fun c s =>
  let t := field c.payload 0 1
  if !allZero (slice c.payload 1 3) || 8 ≤ t then cmdFail s stMalformed 0
  else
    let g := (chanS s t).gen
    let ng := if g = 255 then 1 else g + 1
    let body := toLe 1 t ++ toLe 1 ng ++ toLe 2 0
    if t = c.ch then cmdOk (modChan t (fun x => { x with resetAfter := true }) s) body
    else if (chanS s t).busy then cmdFail s stBusy 0
    else cmdOk (modChan t (fun x => { x with rspValid := false }) (genAdvance t s)) body)

/-- FEATURE_OFFER (R206). -/
def featureOfferBody : HostCall → State → CmdRes := sized 0 (fun _ s => cmdOk s (toLe 16 s.hb.offer))

/-- FEATURE_ACCEPT (R207): outside IDLE only the mask in force is accepted. -/
def featureAcceptBody : HostCall → State → CmdRes := sized 16 (fun c s =>
  let m := field c.payload 0 16
  if m &&& s.hb.offer != m then cmdFail s stNotNegotiated 0
  else if m = s.hb.accept then cmdOk s (toLe 16 m)
  else if s.pkg.st != .idle then cmdFail s stBadState 0
  else cmdOk (extendMode { s with hb := { s.hb with accept := m } }) (toLe 16 m))

/-- RESULT_READ (R233): the object bytes alone, no prefix; at most 4,034 of them in a sealed frame (R254). -/
def resultRead (c : HostCall) (s : State) : State :=
  let p := c.payload
  let h := field p 0 4
  let off := field p 4 4
  let n := field p 8 4
  let fail (st : Nat) (s : State) : State := answer c 4 (stateWord s) st 0 [] s
  if p.length ≠ 16 || !allZero (slice p 12 4) || n = 0 || (if c.sealed then 4034 else 4064) < n then fail stMalformed s
  else match lookupNat h (chanS s c.ch).objs with
    | none => fail stBadHandle s
    | some o => if o.length < off + n then fail stMalformed s
      else buildRsp c 4 0 stOk (slice o off n) (modChan c.ch (fun x => { x with ref := some h }) s)

/-- RESULT_RELEASE (R232, R233): releasing again, or a handle with no object, has no effect and answers ST_OK (R248). -/
def resultReleaseBody : HostCall → State → CmdRes := sized 8 (fun c s =>
  let h := field c.payload 0 4
  if !allZero (slice c.payload 4 4) then cmdFail s stMalformed 0
  else cmdOk (modChan c.ch (fun x => { x with objs := dropKey h x.objs }) s) [])

/-- STAGE_PUT (R250); the management path has a stage of its own (R520). -/
def stagePutBody (c : HostCall) (s : State) : CmdRes :=
  let p := c.payload
  let off := field p 0 4
  let d := p.drop 8
  if p.length < 9 || 4064 < p.length || !allZero (slice p 4 4) then cmdFail s stMalformed 0
  else if c.ch ≠ mgCh && s.mb.stageOwner.isSome && s.mb.stageOwner != some c.ch then cmdFail s stBusy 0
  else if 32768 < off + d.length then cmdFail s stMalformed 0
  else if c.ch = mgCh then
    let hi := max s.mg.stageHigh (off + d.length)
    cmdOk { s with mg := { s.mg with stage := cellPuts 0#8 off d s.mg.stage, stageHigh := hi } } (toLe 4 hi ++ toLe 4 0)
  else
    let hi := max s.mb.stageHigh (off + d.length)
    cmdOk { s with mb := { s.mb with stage := cellPuts 0#8 off d s.mb.stage, stageHigh := hi, stageOwner := some c.ch } } (toLe 4 hi ++ toLe 4 0)

/-- STAGE_CLEAR (R250). -/
def stageClearBody : HostCall → State → CmdRes := sized 0 (fun c s =>
  if c.ch ≠ mgCh && s.mb.stageOwner.isSome && s.mb.stageOwner != some c.ch then cmdFail s stBusy 0 else cmdOk (stageClearFor c s) [])

end Sys2Proof.Machine
end

