-- ==== Sys2Proof/Machine/Transport.lean ====
section
/-! DEFINITION. Mode changes (R44, R45) and apertures (chapter 12): setup, descriptor writes, records, ending. -/

namespace Sys2Proof.Machine

/-- A mode change in IDLE (R45, R206, R208, R490, R506). -/
def modeChange (m : Mode) (s : State) : State :=
  let s := apEndAll s
  let s := s.xl.asts.foldl (fun (s : State) (a : Ast) =>
    modAst a.tag (fun a => { a with resid := [], mirror := none }) (invMark a.tag true 0 0 s)) s
  let s := setConf (setMode m s)
  let s := { s with
    hb := { s.hb with frSealed := s.hb.frSealed || m == .confidential, offer := offerMask s, accept := s.hb.accept &&& offerMask s },
    pw := { s.pw with quant := false }, lg := { s.lg with mask := 0 } }
  extendMode (emptyTenantLog s)

/-- MODE_SET (R44, Table 2-3): the group check has refused every state but IDLE. -/
def modeSetBody : HostCall → State → CmdRes := sized 4 (fun c s =>
  let v := field c.payload 0 1
  let m := if v = 1 then Mode.confidential else Mode.opened
  if !allZero (slice c.payload 1 3) || !(v = 1 || v = 2) then cmdFail s stMalformed 0
  else if v = 1 && lcOf s ≠ 2 then cmdFail s stUnavailable 0
  else if v = 2 && !feat s 1 then cmdFail s stNotNegotiated 0
  else
    let s := if s.pkg.mode = m then s else modeChange m s
    cmdOk s (toLe 1 v ++ toLe 3 0 ++ toLe 16 s.hb.offer))

/-- Bytes of an aperture's metadata range, rounded up to 64 KiB (R272). -/
def apMeta (len : Nat) : Nat := (len / 128 + 65535) / 65536 * 65536

/-- Two byte ranges meet. -/
def meets (a n b m : Nat) : Bool := decide (a < b + m) && decide (b < a + n)

/-- The record and metadata range of an aperture meet those of another valid aperture of the tag (Table 12-2). -/
def apOverlap (d a tag dbase len : Nat) (s : State) : Bool :=
  (List.range 4).any (fun e => (List.range 64).any (fun b =>
    let x := apS s e b
    !(e == d && b == a) && x.valid && x.ast == tag && meets dbase (len + apMeta len) x.dbase (x.len + apMeta x.len)))

/-- The first record-state entry with room for `n` entries (R292): the lowest free run. -/
def apRoom (d n : Nat) (s : State) : Option Nat :=
  let used := (pxS s d).aps.filter (fun x => x.valid && x.len != 0)
  let cand := (0 :: used.map (fun x => x.rtbase + x.len / 4096)).filter (fun b =>
    decide (b + n ≤ 262144) && used.all (fun x => !meets b n x.rtbase (x.len / 4096)))
  cand.foldl (fun m b => match m with | none => some b | some c => some (min c b)) none

/-- KGEN the next setup of an aperture takes in this session (R274). -/
def kgenNext (d a : Nat) (s : State) : Nat := (lookupNat (64 * d + a) s.sd.kgens).getD 0

/-- Derive and push an aperture's key (R273, R274): none without an open session whose slot 8 serves. The port may refuse the
push (R124): the KGEN counts as used all the same (DESIGN CHOICE, log entry 89). -/
def apKeyPush (d a : Nat) (outbound : Bool) (s : State) : Option State :=
  let g := kgenNext d a s
  let u := unitOfOrd s d
  if !sessOpen s || !slotServes (slotS s 8) 1 || 255 < g || !unitUp s u then none
  else
    match (List.range 7).find? (fun i => (slotS s (9 + i)).empty) with
    | none => none
    | some i =>
      let ctx := toLe 1 (64 * d + a) ++ toLe 1 g ++ toLe 1 (if outbound then 2 else 1)
      let s := derive 8 "tc4/aperture/v1" ctx 48 (9 + i) (2 ^ 10) false s
      let s := fwKpush (9 + i) u a s
      some { zeroSlot (9 + i) false s with sd := { s.sd with kgens := putKey (64 * d + a) (g + 1) s.sd.kgens } }

/-- Zero the record-state entries of a run. -/
def recStErase (d base n : Nat) (s : State) : State :=
  modPx d (fun x => { x with recst := x.recst.filter (fun p => decide (p.1 < base) || decide (base + n ≤ p.1)) }) s

/-- A descriptor as the warden writes it: keyed, counters of the key at 0 (R277). -/
def apWrite (d a : Nat) (out : Bool) (tag dbase len rt g : Nat) (s : State) : State :=
  recStErase d rt (len / 4096) (modAp d a (fun x => { x with
    valid := true, outbound := out, keyed := true, exh := false, kgen := g, ast := tag, dbase := dbase, len := len,
    invoc := 0, bytes := 0, rtbase := rt }) s)

/-- A region opened over aperture `a`: its record is written, and HB_AP_CTRL.EN of the die is set (R277). -/
def regionOpen (d a : Nat) (out : Bool) (tag dbase len rt g : Nat) (s : State) : State :=
  let s := apWrite d a out tag dbase len rt g s
  if d = 0 then { s with hb := { s.hb with apEn := true } } else modPx d (fun x => { x with apEn := true }) s

/-- REGION_SET (R277, Table 12-2). -/
def regionSetBody : HostCall → State → CmdRes := sized 24 (fun c s =>
  let p := c.payload
  let tag := field p 0 1
  let r := field p 1 1
  let apidx := field p 2 1
  let dbase := field p 8 8
  let len := field p 16 8
  let d := apidx / 64
  let a := apidx % 64
  let x := apS s d a
  if s.pkg.mode != .confidential then cmdFail s stBadState 0
  else if !allZero (slice p 3 5) || 2 < r || (r = 0 && (dbase ≠ 0 || len ≠ 0)) || (astS s tag).isNone then cmdFail s stMalformed 0
  else if !sessOpen s then cmdFail s stNoKey 0
  else if (portUnits s).length ≤ d || !(fnS s d).up then cmdFail s stUnavailable 0
  else if spillAp s d a then cmdFail s stExists 0
  else if r = 0 then cmdOk (apEnd d a s) []
  else if dbase % 65536 ≠ 0 || len % 65536 ≠ 0 || len < 65536 || 2 ^ 30 < len || 2 ^ 52 < dbase + len + apMeta len then cmdFail s stMalformed 0
  else if x.valid && x.outbound == (r == 2) && x.ast == tag && x.dbase == dbase && x.len == len && !decide (a ∈ (pxS s d).quiesce) then cmdOk s []
  else if apOverlap d a tag dbase len s then cmdFail s stMalformed 0
  else if x.valid then cmdFail s stExists 0
  else
    let g := kgenNext d a s
    if 255 < g then cmdFail s stLimit 0
    else match apRoom d (len / 4096) s with
      | none => cmdFail s stLimit 0
      | some rt =>
        match apKeyPush d a (r == 2) s with
        | none => cmdFail s stUnwrapFail 1
        | some s =>
          if (portKey s (unitOfOrd s d) a).isNone then cmdFail s stUnwrapFail 1
          else cmdOk (regionOpen d a (r == 2) tag dbase len rt g s) [])

/-- A running descriptor of die `d` whose extent in aperture `a` covers record `i`. -/
def apJob (d a i : Nat) (write : Bool) (s : State) : Option Nat :=
  let v := (apS s d a).dbase + 4096 * i
  (s.jb.list.find? (fun j => j.st == .running && j.die == d && j.ast == (apS s d a).ast
    && j.exts.any (fun e => e.kind == 1 && e.apidx == a && e.write == write)
    && (if write then meets v 4096 j.outVa j.outLen else meets v 4096 j.inVa j.inLen))).map (fun j => j.id)

/-- The descriptor on record `i` ends with a status (R280, R281, R283). -/
def apJobEnd (d a i : Nat) (write : Bool) (st : Nat) (s : State) : State :=
  match apJob d a i write s with
  | some j => jobEnd .aborted st 0 j s
  | none => s

/-- An inbound record (R280): the state, and 0 or the status that ends the descriptor. -/
def inRec (d a i : Nat) (x : RecIn) (s : State) : State × Nat :=
  let ap := apS s d a
  let auth (s : State) : State × Nat := (modAp d a (fun y => { y with authFail := min (y.authFail + 1) 65535 }) s, stIntegrity)
  match portKey s (unitOfOrd s d) a with
  | none => (s, stNoKey)
  | some k =>
    if !ap.keyed || decide (a ∈ (pxS s d).quiesce) then (s, stNoKey)
    else if ap.exh then (s, stLimit)
    else if x.rlen = 0 || 4096 < x.rlen || x.kgen ≠ ap.kgen || x.seq = 0 || x.rlen < x.reach then auth s
    else if x.seq ≤ recSt s d (ap.rtbase + i) then
      (modAp d a (fun y => { y with replay := min (y.replay + 1) 65535 }) s, stIntegrity)
    else
      let s := modAp d a (fun y => { y with invoc := y.invoc + 1, exh := decide (2 ^ 32 ≤ y.invoc + 1) }) s
      if !Config.gcmOk (k.take 32) (apIv k i x.seq) (apAad (64 * d + a) 1 ap.kgen i x.seq x.rlen) (slice x.ct 0 x.rlen) x.tag then auth s
      else
        let s := modAp d a (fun y => { y with bytes := y.bytes + x.rlen }) (setRecSt d (ap.rtbase + i) x.seq s)
        (perfAdd 0 3 x.rlen s, 0)

/-- An inbound record of aperture 63 of P0 while the spill pair stands (R404): IV, AAD and record state of aperture 62, SEQ equal
to the record's entry, which is not consumed. -/
def spillRec (i : Nat) (x : RecIn) (s : State) : State × Nat :=
  let auth (s : State) : State × Nat :=
    (modAp 0 63 (fun y => { y with authFail := min (y.authFail + 1) 65535 }) { s with sp := { s.sp with authf := min (s.sp.authf + 1) 0xFFFFFFFF } }, stIntegrity)
  match portKey s 8 63 with
  | none => (s, stNoKey)
  | some k =>
    if !(apS s 0 63).keyed || decide (63 ∈ (pxS s 0).quiesce) then (s, stNoKey)
    else if x.rlen = 0 || 4096 < x.rlen || x.kgen ≠ 0 || x.seq = 0 || x.rlen < x.reach || x.seq ≠ recSt s 0 ((apS s 0 62).rtbase + i)
      || !Config.gcmOk (k.take 32) (apIv k i x.seq) (apAad 62 2 0 i x.seq x.rlen) (slice x.ct 0 x.rlen) x.tag then auth s
    else (perfAdd 0 3 x.rlen (modAp 0 63 (fun y => { y with invoc := y.invoc + 1, bytes := y.bytes + x.rlen }) s), 0)

/-- A record lies in an aperture of the direction. -/
def apHas (d a i : Nat) (out : Bool) (s : State) : Bool :=
  let ap := apS s d a
  d < 4 && ap.valid && ap.outbound == out && decide (i < ap.len / 4096)

/-- INBOUND_RECORD. -/
def inboundRec (d a i : Nat) (x : RecIn) (s : State) : State :=
  if !apHas d a i false s then s
  else
    let r := if d = 0 && a = 63 && s.sp.paired then spillRec i x s else inRec d a i x s
    if r.2 = 0 then r.1 else apJobEnd d a i false r.2 r.1

/-- The job that writes record `i` runs on a tile whose gate is closed: no line of it leaves (R370, R371). -/
def apGated (d a i : Nat) (s : State) : Bool :=
  match (apJob d a i true s).bind (jobS s) with
  | some j => gateShut j s
  | none => false

/-- OUTBOUND_RECORD. -/
def outboundRec (d a i : Nat) (data : Bytes) (s : State) : State :=
  if !apHas d a i true s || data.isEmpty || 4096 < data.length || apGated d a i s then s
  else
    let r := outRec d a i data s
    if r.2 = 0 then r.1 else apJobEnd d a i true r.2 r.1

/-- VALID set by the host in OPEN mode (R278): the warden keys the aperture where it can. -/
def apHostValid (a : Nat) (s : State) : State :=
  let x := apS s 0 a
  let s := modAp 0 a (fun y => { y with valid := true }) s
  let g := kgenNext 0 a s
  match apRoom 0 (x.len / 4096) (modAp 0 a (fun y => { y with valid := false }) s) with
  | none => s
  | some rt =>
    match apKeyPush 0 a x.outbound s with
    | some s => if (portKey s 8 a).isNone then s else apWrite 0 a x.outbound x.ast x.dbase x.len rt g s
    | none => s

/-- Replace one half of a 64-bit field whose low 16 bits must be 0. -/
def halfWrite (old v : Nat) (high : Bool) : Nat :=
  let n := if high then old % 2 ^ 32 + v * 2 ^ 32 else old / 2 ^ 32 * 2 ^ 32 + v
  n / 65536 * 65536

/-- A host write to the aperture control block that is not taken: counted in HB_AP_STAT, saturating, in CONFIDENTIAL (Table
9-10). Before any mode is in force the block is RO as in CONFIDENTIAL, and
nothing is counted (DESIGN CHOICE, log entry 78). -/
def apDrop (s : State) : State :=
  if s.pkg.mode == .confidential then { s with hb := { s.hb with apDropped := min (s.hb.apDropped + 1) 0xFFFF } } else s

/-- A host write to descriptor `a` of P0 (R278, R286, R403). -/
def apDescWrite (a off : Nat) (value : Word) (s : State) : State :=
  let v := value.toNat
  let x := apS s 0 a
  if 64 ≤ a || !barOn s 0 then s
  else if s.pkg.mode != .opened then apDrop s
  else if spillAp s 0 a then { s with hb := { s.hb with apDropped := min (s.hb.apDropped + 1) 0xFFFF } }
  else if a ∈ (pxS s 0).quiesce then s
  else if off = 0 then
    (if x.valid then (if bit v 0 then s else apEnd 0 a s)
     else
       let s := modAp 0 a (fun y => { y with outbound := bit v 1, ast := bits v 16 8 }) s
       if bit v 0 then apHostValid a s else s)
  else if x.valid then s
  else if off = 8 then modAp 0 a (fun y => { y with dbase := halfWrite y.dbase v false }) s
  else if off = 12 then modAp 0 a (fun y => { y with dbase := halfWrite y.dbase v true }) s
  else if off = 16 then modAp 0 a (fun y => { y with len := halfWrite y.len v false }) s
  else if off = 20 then modAp 0 a (fun y => { y with len := halfWrite y.len v true }) s
  else s

/-- A word of descriptor `a` of P0 as the host reads it (Table 12-4). -/
def apDescRead (a off : Nat) (s : State) : Nat :=
  let x := apS s 0 a
  let half (v : Nat) : Nat := v / 2 ^ (32 * (off / 4 % 2)) % 2 ^ 32
  if off = 0 then b2n x.valid + 2 * b2n x.outbound + 4 * b2n x.keyed + 8 * b2n x.exh + 2 ^ 8 * x.kgen + 2 ^ 16 * x.ast
  else if off = 4 then min x.authFail 65535 + 2 ^ 16 * min x.replay 65535
  else if off = 0x30 then x.rtbase
  else match off / 8 with
    | 1 => half x.dbase
    | 2 => half x.len
    | 3 => half (x.dbase + x.len)
    | 4 => half x.invoc
    | 5 => half x.bytes
    | _ => 0

/-- The 40 µs of R284 are over. -/
def apQuiesced (d a : Nat) (s : State) : State := if a ∈ (pxS s d).quiesce then apClose d a s else s

/-- INBOUND_RECORD (R280). -/
def execInboundRecord (d a i : Nat) (x : RecIn) (s : State) : Res := .next (inboundRec d a i x s)
/-- OUTBOUND_RECORD (R281). -/
def execOutboundRecord (d a i : Nat) (data : Bytes) (s : State) : Res := .next (outboundRec d a i data s)
/-- APERTURE_QUIESCE_TIMEOUT (R284). -/
def execApertureQuiesceTimeout (d a : Nat) (s : State) : Res := .next (apQuiesced d a s)
/-- AP_DESCRIPTOR_WRITE (R278). -/
def execApDescriptorWrite (a off : Nat) (value : Word) (s : State) : Res := .next (apDescWrite a off value s)

end Sys2Proof.Machine
end

