-- ==== Sys2Proof/Machine/Walks.lean ====
section
/-! DEFINITION. Address translation (chapter 19): the table walk, fault batches, extents, and how a walk ends. -/

namespace Sys2Proof.Machine

/-- Pages of 64 KiB one entry of a level covers (Table 19-1). -/
def lvlPages (l : Nat) : Nat := if l = 3 then 2 ^ 23 else if l = 2 then 2 ^ 14 else 2 ^ 5

/-- A table entry at a level (Table 19-2): 0 invalid, 1 malformed, 2 next table, 3 page; with its address. -/
def entryKind (l e : Nat) : Nat × Nat :=
  let addr := bits e 8 44 * 256
  if !bit e 0 then (0, 0)
  else if bits e 2 6 ≠ 0 || bits e 52 12 ≠ 0 then (1, 0)
  else if bit e 1 then
    (let size := if l = 2 then 2 ^ 30 else if l = 1 then 2 ^ 21 else 2 ^ 16
     if l = 3 || addr % size ≠ 0 then (1, 0) else (3, addr))
  else
    (let al := if l = 1 then 256 else 4096
     if l = 0 || addr % al ≠ 0 then (1, 0) else (2, addr))

/-- Fault KIND of an invalid entry of a level (Table 19-4). -/
def invalidKind (l : Nat) : Nat := 4 - l

/-- A cached upper-level entry. -/
def upperGet (s : State) (tag l ix : Nat) : Option Nat :=
  (s.xl.upper.find? (fun e => e.1 == tag && e.2.1 == l && e.2.2.1 == ix)).map (fun e => e.2.2.2)

/-- Where the walk of a page stands: resolved, or a read of a level at an address. -/
inductive WStep where
  | res (r : PgRes)
  | read (level addr : Nat)
deriving DecidableEq, Repr

/-- Follow an L0 table that the cache holds or that is read. -/
def l0Step (s : State) (tag page table : Nat) : WStep :=
  match s.xl.l0.find? (fun e => e.1 == tag && e.2.1 == page / 32) with
  | some e =>
    (match entryKind 0 (nth 0 e.2.2 (page % 32)) with
     | (3, a) => .res (.host a)
     | _ => .read 0 table)
  | none => .read 0 table

/-- Follow an entry of level `l` of a page; `down` goes on below it. -/
def useEntry (l e page : Nat) (down : Nat → WStep) : WStep :=
  match entryKind l e with
  | (0, _) => .res (.fault (invalidKind l))
  | (2, a) => down a
  | (3, a) => .res (.host (a + page % lvlPages l * 65536))
  | _ => .res (.fault 5)

/-- Resolve a page from the residency map and the cache (R421): a read where the cache has no usable entry. -/
def pageStep (s : State) (a : Ast) (page : Nat) : WStep :=
  match a.resid.find? (fun r => r.page == page && r.st != .dying) with
  | some r => .res (if r.st == .transit then .transit else .dev r.ext)
  | none =>
    if 8191 ≤ page / 2 ^ 23 then .res (.fault 1)
    else
      match upperGet s a.tag 3 (page / 2 ^ 23) with
      | none => .read 3 (a.root + 8 * (page / 2 ^ 23))
      | some e3 => useEntry 3 e3 page (fun t2 =>
        match upperGet s a.tag 2 (page / 2 ^ 14) with
        | none => .read 2 (t2 + 8 * (page / 2 ^ 14 % 512))
        | some e2 => useEntry 2 e2 page (fun t1 =>
          match upperGet s a.tag 1 (page / 2 ^ 5) with
          | none => .read 1 (t1 + 8 * (page / 2 ^ 5 % 512))
          | some e1 => useEntry 1 e1 page (l0Step s a.tag page)))

/-- Resolve pages in order until one needs a read: what is done, what is left, and the read. -/
def walkRun (s : State) (a : Ast) : List (Nat × Bool) → List (Nat × Bool × PgRes) → List (Nat × Bool × PgRes) × List (Nat × Bool) × Nat × Nat
  | [], d => (d, [], 0, 0)
  | (p, w) :: r, d =>
    match pageStep s a p with
    | .res x => walkRun s a r (d ++ [(p, w, x)])
    | .read l ad => (d, (p, w) :: r, l, ad)

/-- Advance a walk from what is known; a finished walk that an invalidation overlaps starts again (R429). -/
def walkAdvance (w : Walk) (s : State) : Walk :=
  match astS s w.tag with
  | none => { w with todo := [], done := w.pages.map (fun p => (p.1, p.2, .fault 6)) }
  | some a =>
    let a := match w.for_ with | .back _ => { a with resid := [] } | _ => a
    let go (w : Walk) : Walk :=
      let r := walkRun s a w.todo w.done
      { w with done := r.1, todo := r.2.1, level := r.2.2.1, addr := r.2.2.2 }
    let w := go w
    if w.todo.isEmpty && w.overlap then go { w with todo := w.pages, done := [], ie := a.ie, overlap := false } else w

/-- Keep the newest `n` cached entries of the tags a die serves (R421: per TXU; which entry makes room is the model's choice, log
entry 93). -/
def cacheTrim {α : Type} (n : Nat) (mine : α → Bool) (l : List α) : List α :=
  if (l.filter mine).length ≤ n then l
  else match l.findIdx? mine with
    | some i => l.eraseIdx i
    | none => l

/-- Cache what a read returned (R421): valid upper entries, whole L0 tables. -/
def cacheFill (w : Walk) (entries : List Nat) (s : State) : State :=
  let page := match w.todo with | p :: _ => p.1 | [] => 0
  let die (t : Nat) : Nat := match astS s t with | some a => a.die | none => 4
  let mine := die w.tag
  if w.level = 0 then
    let l := s.xl.l0.filter (fun e => !(e.1 == w.tag && e.2.1 == page / 32)) ++ [(w.tag, page / 32, entries)]
    { s with xl := { s.xl with l0 := cacheTrim 1024 (fun e => die e.1 == mine) l } }
  else
    let e := nth 0 entries 0
    let k := (entryKind w.level e).1
    if k < 2 then s
    else { s with xl := { s.xl with
      upper := cacheTrim 4096 (fun e => die e.1 == mine) (s.xl.upper ++ [(w.tag, w.level, page / lvlPages w.level, e)]) } }

/-- What the entries of a read say of the page the walk stands at, where they end it with a fault; none: go on. -/
def readFault (w : Walk) (entries : List Nat) : Option Nat :=
  let page := match w.todo with | p :: _ => p.1 | [] => 0
  if entries.isEmpty then some 6
  else
    match entryKind w.level (nth 0 entries (if w.level = 0 then page % 32 else 0)) with
    | (0, _) => some (invalidKind w.level)
    | (1, _) => some 5
    | _ => none

/-- Record a fault of the page the walk stands at. -/
def walkFaultHere (k : Nat) (w : Walk) : Walk :=
  match w.todo with
  | (p, wr) :: r => { w with done := w.done ++ [(p, wr, .fault k)], todo := r }
  | [] => w

/-- Bytes of a fault entry (Table 19-4). -/
def faultBytes (batch slot count : Nat) (f : FEntry) : Bytes :=
  toLe 4 batch ++ toLe 2 slot ++ toLe 2 count ++ toLe 1 f.ast ++ toLe 1 f.kind ++ toLe 1 f.unit ++ toLe 1 f.flags
    ++ toLe 4 0 ++ toLe 8 f.va ++ toLe 8 f.job

/-- Write bytes of the fault ring (R424, R285): plain, or as OUTBOUND records of the P0 aperture HB_FR_CTRL names, each
holding every entry of its 128 slots. None while the aperture cannot take them. -/
def frWrite (l : List (Nat × Bytes)) (s : State) : Option State :=
  let pt := l.foldl (fun p e => putKey e.1 e.2 p) s.xl.frPt
  let s1 := { s with xl := { s.xl with frPt := pt } }
  if !s.hb.frSealed then some (l.foldl (fun s e => emit (.hostWrite 0 (s.hb.frBase + 32 * e.1) e.2) s) s1)
  else
    let ap := apS s 0 s.hb.frIdx
    let recs := (l.map (fun e => e.1 / 128)).eraseDups
    if !(ap.valid && ap.outbound && ap.keyed && !ap.exh) || recs.any (fun r => decide (ap.len / 4096 ≤ s.hb.frBase / 4096 + r)) then none
    else some (recs.foldl (fun s r =>
      let page := (List.range 128).flatMap (fun i => slice ((lookupNat (128 * r + i) pt).getD []) 0 32)
      (outRec 0 s.hb.frIdx (s.hb.frBase / 4096 + r) page s).1) s1)

/-- Entries the ring has room for: HEAD and TAIL count entries and wrap at 2^32, so that a ring of one batch can be full. -/
def frRoom (s : State) : Nat := 2 ^ s.hb.frSize - (s.hb.frHead + 2 ^ 32 - s.hb.frTail) % 2 ^ 32

/-- Write waiting batches while there is room (R424): a batch goes whole. -/
def frFlushN : Nat → State → State
  | 0, s => s
  | n + 1, s =>
    match s.xl.waiting with
    | [] => s
    | (num, es) :: r =>
      let size := 2 ^ s.hb.frSize
      let hold := { s with hb := { s.hb with frOvf := true } }
      if !s.hb.frEn || frRoom s < es.length then hold
      else
        let out := (List.range es.length).map (fun i => ((s.hb.frHead + i) % size, faultBytes num i es.length (nth ⟨0, 0, 0, 0, 0, 0⟩ es i)))
        match frWrite out s with
        | none => hold
        | some s =>
          let s := { s with
            xl := { s.xl with waiting := r, written := s.xl.written ++ [num] },
            hb := { s.hb with frHead := (s.hb.frHead + es.length) % 2 ^ 32, frDone := (s.hb.frDone + 1) % 65536 } }
          frFlushN n (raiseHost 0 1 9 s)

/-- Write what may be written. -/
def frFlush (s : State) : State := frFlushN s.xl.waiting.length s

/-- Close the open fault batch (R424). -/
def faultClose (s : State) : State :=
  if s.xl.cur.isEmpty then s
  else
    let s := trace 9 0xFF s.xl.cur.length s.xl.curNum s
    frFlush { s with xl := { s.xl with waiting := s.xl.waiting ++ [(s.xl.curNum, s.xl.cur)], cur := [], curNum := s.xl.curNum + 1 } }

/-- Post one entry (R424): the batch closes at K_FAULT_BATCH. The job remembers the batch. -/
def faultPost (f : FEntry) (s : State) : State :=
  let b := s.xl.curNum
  let s := perfAdd 0 7 1 { s with xl := { s.xl with cur := s.xl.cur ++ [f] } }
  let s := modJob f.job (fun j => { j with batches := if b ∈ j.batches then j.batches else j.batches ++ [b] }) s
  if Config.kFaultBatch ≤ s.xl.cur.length then faultClose s else s

/-- Faults of a finished walk. -/
def walkFaults (w : Walk) : List (Nat × Bool × Nat) :=
  w.done.filterMap (fun x => match x.2.2 with | .fault k => some (x.1, x.2.1, k) | _ => none)

/-- A job that has faulted or waits leaves its tile queues (R430): JOB_ABORT with reason WITHDRAW to each. -/
def withdraw (jid : Nat) (s : State) : State :=
  match jobS s jid with
  | some j => if j.st == .queued then ((List.range 8).filter (bit j.tiles)).foldl (fun s t => unitCmd t 0x8004 (toLe 8 jid ++ toLe 2 5) s) s else s
  | none => s

/-- Post a job's faults, at most 16, the last with MORE when there are others (R423), and park it. -/
def parkFault (jid : Nat) (w : Walk) (stale : Bool) (s : State) : State :=
  let fs := walkFaults w
  let n := fs.length
  let u := match astS s w.tag with | some a => unitOfOrd s a.die | none => 8
  let mir (p : Nat) : Bool := match astS s w.tag with
    | some a => (match a.mirror with | some (b, l) => decide (b ≤ p * 65536) && decide (p * 65536 < b + l) | none => false)
    | none => false
  let s := modJob jid (fun j => { j with st := .parked, park := .fault, batches := [], exts := [], stale := false }) (withdraw jid s)
  (List.range (min n 16)).foldl (fun s i =>
    let f := nth (0, false, 0) fs i
    faultPost ⟨w.tag, f.2.2, u, b2n f.2.1 + 2 * b2n (i == 15 && decide (16 < n)) + 4 * b2n (mir f.1) + 8 * b2n stale, f.1 * 65536, jid⟩ s) s

/-- Pages of a job with WRITE (Table 19-3 EFLAGS). -/
def jobWalkPages (j : Job) : List (Nat × Bool) :=
  (rangePages j.inVa j.inLen).map (·, false) ++ (rangePages j.outVa j.outLen).map (·, true) ++ (rangePages j.wsVa j.wsLen).map (·, true)

/-- The aperture of a tag whose record range holds a page, on the home die (R418). -/
def pageAp (s : State) (a : Ast) (page : Nat) : Option (Nat × Aper) :=
  ((List.range 64).find? (fun i =>
    let x := apS s a.die i
    x.valid && x.ast == a.tag && decide (x.dbase ≤ page * 65536) && decide (page * 65536 < x.dbase + x.len))).map (fun i => (i, apS s a.die i))

/-- One piece of a range inside one page. -/
structure Piece where
  va : Nat
  len : Nat
  chunk : Bool
deriving DecidableEq, Repr

/-- Cut a range at page boundaries and, for a receipted job, at chunk boundaries from its start (R353, R420). -/
def pieces (start stop : Nat) (receipt : Bool) : Nat → Nat → List Piece
  | 0, _ => []
  | n + 1, va =>
    if stop ≤ va then []
    else
      let pg := (va / 65536 + 1) * 65536
      let ck := if receipt then start + ((va - start) / 65536 + 1) * 65536 else stop
      let e := min stop (min pg ck)
      ⟨va, e - va, receipt && (va - start) % 65536 == 0⟩ :: pieces start stop receipt n e

/-- Merge a piece into the extents, newest first (R420). -/
def extAdd (x : Extent) : List Extent → List Extent
  | [] => [x]
  | y :: r =>
    if y.kind = x.kind && y.apidx = x.apidx && y.write == x.write && !x.chunk && y.addr + y.len = x.addr && y.len + x.len ≤ 2 ^ 30
    then { y with len := y.len + x.len } :: r else x :: y :: r

/-- Extents of one range of a job from the resolved pages. -/
def rangeExts (s : State) (a : Ast) (res : List (Nat × Bool × PgRes)) (va len : Nat) (receipt write : Bool) : List Extent :=
  let ps := pieces va (va + len) receipt (2 * (len / 65536 + 2)) va
  (ps.foldl (fun acc p =>
    let page := p.va / 65536
    let off := p.va % 65536
    match (res.find? (fun x => x.1 == page)).map (fun x => x.2.2) with
    | some (.dev e) => extAdd ⟨e + off, p.len, 3, 0, p.chunk, write⟩ acc
    | some (.host h) =>
      (match pageAp s a page with
       | some (i, _) => extAdd ⟨h + off, p.len, 1, i, p.chunk, write⟩ acc
       | none => extAdd ⟨h + off, p.len, 0, 0, p.chunk, write⟩ acc)
    | _ => acc) []).reverse

/-- The extents of a job (R420). -/
def jobExts (s : State) (j : Job) (res : List (Nat × Bool × PgRes)) : List Extent :=
  match astS s j.ast with
  | none => []
  | some a =>
    rangeExts s a res j.inVa j.inLen j.receipt false ++ rangeExts s a res j.outVa j.outLen j.receipt true
      ++ rangeExts s a res j.wsVa j.wsLen false true

/-- The views of CONFIDENTIAL mode (R418): inputs in INBOUND, outputs in OUTBOUND apertures from a record boundary, a
workspace wholly device-resident. -/
def viewOk (s : State) (j : Job) (res : List (Nat × Bool × PgRes)) : Bool :=
  match astS s j.ast with
  | none => false
  | some a =>
    let host (p : Nat) : Bool := match (res.find? (fun x => x.1 == p)).map (fun (x : Nat × Bool × PgRes) => x.2.2) with | some (PgRes.host _) => true | _ => false
    let side (va len : Nat) (out : Bool) : Bool := (rangePages va len).all (fun p => !host p ||
      (match pageAp s a p with | some (_, x) => x.outbound == out | none => false))
    let start (va len : Nat) : Bool := len == 0 || !host (va / 65536) || va % 4096 == 0
    s.pkg.mode != .confidential || (side j.inVa j.inLen false && side j.outVa j.outLen true && start j.inVa j.inLen && start j.outVa j.outLen
      && (rangePages j.wsVa j.wsLen).all (fun p => !host p))

/-- DETAIL of a failed extent check (R353, R418, R420); 0 when it passes. -/
def extCheck (s : State) (j : Job) (res : List (Nat × Bool × PgRes)) : Nat :=
  let ex := jobExts s j res
  if Config.kExtents < ex.length then 6
  else if j.receipt && (rangePages j.inVa j.inLen ++ rangePages j.outVa j.outLen).any (fun p =>
      match (res.find? (fun x => x.1 == p)).map (fun (x : Nat × Bool × PgRes) => x.2.2) with | some (PgRes.dev _) => true | _ => false) then 4
  else if !viewOk s j res then 5 else 0

/-- A live job holds a page through a HOST extent (R433). -/
def pageHeld (tag page : Nat) (s : State) : Bool :=
  s.jb.list.any (fun j => j.ast == tag && j.st.live && !j.exts.isEmpty && decide (page ∈ jobPages j))

/-- A page may be migrated in (R431, R435): M8 or M6, room of 64 KiB, and in CONFIDENTIAL mode an INBOUND aperture. -/
def mayMigrate (free : State → Nat) (a : Ast) (page : Nat) (s : State) : Bool :=
  !isS0 s && decide (65536 ≤ free s)
    && (s.pkg.mode != .confidential || (match pageAp s a page with | some (_, x) => !x.outbound | none => false))

/-- A page enters the residency map (R417) at a free external page. -/
def residAdd (tag page : Nat) (st : PgState) (s : State) : State :=
  let e := 65536 * extFree s
  let s := modAst tag (fun a => { a with resid := a.resid.filter (fun r => r.page != page) ++ [⟨page, e, st, false⟩] }) s
  if st == .transit then { s with xl := { s.xl with migr := s.xl.migr ++ [(tag, page)] } } else s

end Sys2Proof.Machine
end

