-- ==== Sys2Proof/Machine/Translate.lean ====
section
/-! DEFINITION. Address translation, continued (chapter 19): what a finished walk leads to, invalidation, migration, tags
and the translation commands. -/

namespace Sys2Proof.Machine

/-- Free weight capacity F (R399): Table 18-3 less what is reserved and, with stacks, what is device-resident. -/
def freeCap (s : State) : Nat :=
  let res := s.wk.hs.foldl (fun n w => n + w.reserved) 0
  if isS0 s then capS0 - res
  else extUsable s - 65536 * (s.xl.asts.foldl (fun n a => n + a.resid.length) 0) - res

/-- The lowest tile of a mask. -/
def leadTile (mask : Nat) : Nat := ((List.range 8).find? (bit mask)).getD 8

/-- A host command waits for a unit's response (R269). -/
def unitSend (u op : Nat) (call : Option (HostCall × Nat)) (arg : Nat) (s : State) : State :=
  { s with uw := s.uw ++ [⟨u, op, call, arg, s.wd.time⟩] }

/-- JOB_ENQUEUE goes to every assigned tile (R377, Table 17-6); the command, if one waits, is answered by the lowest tile. The
address of the job descriptor in the warden's memory is a free value (log entry 1). -/
def sendEnqueue (jid tiles : Nat) (call : Option (HostCall × Nat)) (s : State) : State :=
  match jobS s jid with
  | none => s
  | some j =>
    let p := toLe 8 j.order ++ toLe 8 jid ++ toLe 4 j.phandle ++ toLe 1 tiles ++ toLe 3 0 ++ toLe 8 (Config.freeNat s.draws)
    ((List.range 8).filter (bit tiles)).foldl (fun s t => unitCmd t 0x8003 p (unitSend t 0x8003 (if t = leadTile tiles then call else none) jid s))
      { s with draws := s.draws + 1 }

/-- A job enters QUEUED with the next order number (R377). -/
def jobQueue (jid : Nat) (call : Option (HostCall × Nat)) (s : State) : State :=
  match jobS s jid with
  | none => s
  | some j =>
    let o := s.jb.order
    let s := modJob jid (fun j => { j with st := .queued, order := o, park := .none, batches := [], stale := false }) { s with jb := { s.jb with order := o + 1 } }
    sendEnqueue jid j.tiles call (trace 2 0xFF o jid s)

/-- Pages of a finished walk that are in transit (R421). -/
def walkTransit (w : Walk) : Bool := w.done.any (fun x => x.2.2 == .transit)

/-- A page is advised MIGRATE_ON_FAULT (R432). -/
def advisedPage (a : Ast) (p : Nat) : Bool := a.advised.any (fun r => decide (r.1 ≤ p) && decide (p < r.1 + r.2))

/-- Host-resident pages of a walk that a submission marks IN_TRANSIT (R432, R433, R435). -/
def migrateOnFault (w : Walk) (s : State) : State × Bool :=
  w.done.foldl (fun p x =>
    match x.2.2, astS p.1 w.tag with
    | .host _, some a =>
      if feat p.1 6 && advisedPage a x.1 && mayMigrate freeCap a x.1 p.1 then (residAdd w.tag x.1 .transit p.1, true) else p
    | _, _ => p) (s, false)

/-- The answer of a JOB_SUBMIT: QPOS and STREAM. -/
def submitBody (qpos : Nat) (j : Job) : Bytes := toLe 4 qpos ++ toLe 2 j.stream ++ toLe 2 0

/-- The answer of a submission whose job is parked (R439). -/
def submitParked (jid : Nat) (c : HostCall) (s : State) : State :=
  match jobS s jid with
  | some j => answer c 0x401 (stateWord s) stOk 0 (submitBody 0xFFFFFFFF j) s
  | none => s

/-- A job leaves the list: its submission was refused after translation. -/
def jobDrop (jid : Nat) (s : State) : State := { s with jb := { s.jb with list := s.jb.list.filter (fun j => j.id != jid) } }

/-- A submission's walk has finished (R420 to R424, R432). -/
def submitWalked (jid : Nat) (c : HostCall) (w : Walk) (s : State) : State :=
  match jobS s jid with
  | none => s
  | some j =>
    if !j.st.live then submitParked jid c s
    else if !(walkFaults w).isEmpty then
      (if 8 ≤ s.xl.waiting.length then answer c 0x401 (stateWord s) stBusy 7 (List.replicate 8 0#8) (jobDrop jid s)
       else submitParked jid c (parkFault jid w false s))
    else
      let (s, moved) := migrateOnFault w s
      if moved || walkTransit w then submitParked jid c (modJob jid (fun j => { j with st := .parked, park := .transit }) s)
      else
        let d := extCheck s j w.done
        if d ≠ 0 then answer c 0x401 (stateWord s) stMalformed d (List.replicate 8 0#8) (jobDrop jid s)
        else jobQueue jid (some (c, stateWord s)) (modJob jid (fun j => { j with exts := jobExts s j w.done }) s)

/-- A job's walk after it was parked, stale or resumed has finished (R422, R425, R430). A resumed job waits for the
other jobs of its batch before it takes its order number. -/
def jobWalked (jid : Nat) (w : Walk) (s : State) : State :=
  match jobS s jid with
  | none => s
  | some j =>
    if !j.st.live || j.st == .running then s
    else if !(walkFaults w).isEmpty then parkFault jid w (j.st == .queued) s
    else if walkTransit w then modJob jid (fun j => { j with st := .parked, park := .transit, exts := [] }) (withdraw jid s)
    else
      let s := modJob jid (fun j => { j with exts := jobExts s j w.done, stale := false }) s
      if j.st == .queued then s
      else if s.uw.any (fun u => u.op == 0x505 && decide ((u.u - 1000) ∈ j.batches)) then modJob jid (fun j => { j with park := .none }) s
      else jobQueue jid none s

/-- The last walk of a resumed batch has finished (R425): its clean jobs take new order numbers in the order of their old
ones, and RESUMED counts them. -/
def resumeDone (s : State) : State :=
  match s.uw.find? (fun u => u.op == 0x505 && !s.xl.walks.any (fun w => match w.for_ with
      | .job j => (match jobS s j with | some x => x.st == .parked && decide ((u.u - 1000) ∈ x.batches) | none => false)
      | _ => false)) with
  | none => s
  | some u =>
    let ready := (s.jb.list.filter (fun j => j.st == .parked && j.park == .none && decide ((u.u - 1000) ∈ j.batches))).mergeSort (fun x y => decide (x.order ≤ y.order))
    let s := ready.foldl (fun s j => jobQueue j.id none s) { s with uw := s.uw.filter (fun (x : UnitWait) => !(x.op == 0x505 && x.u == u.u)) }
    match u.call with
    | some (c, word) => answer c 0x505 word stOk 0 (toLe 4 ready.length ++ toLe 4 0) s
    | none => s

/-- A program's page has an INBOUND aperture, or mode OPEN lets it pass in the clear (R279). -/
def progView (s : State) (w : Walk) : Bool :=
  s.pkg.mode != .confidential || (match astS s w.tag with
    | none => false
    | some a => w.done.all (fun x => match x.2.2 with
      | .host _ => (match pageAp s a x.1 with | some (_, ap) => !ap.outbound | none => false)
      | _ => true))

/-- PREFETCH: the mapped, host-resident pages of the range migrate in (R431, R432, R435). -/
def prefetchWalked (c : HostCall) (w : Walk) (s : State) : State :=
  let r := w.done.foldl (fun (p : State × Nat) x =>
    match x.2.2, astS p.1 w.tag with
    | .host _, some a => if mayMigrate freeCap a x.1 p.1 then (residAdd w.tag x.1 .transit p.1, p.2 + 1) else p
    | _, _ => p) (s, 0)
  answer c 0x503 (stateWord r.1) stOk 0 (toLe 4 r.2 ++ toLe 4 0) r.1

/-- A page leaves the residency map. -/
def residDrop (tag page : Nat) (s : State) : State := modAst tag (fun a => { a with resid := a.resid.filter (fun x => x.page != page) }) s

/-- A live job reaches a page of the residency map. -/
def pageUsed (tag page : Nat) (s : State) : Bool :=
  s.jb.list.any (fun j => j.ast == tag && j.st.live && !j.exts.isEmpty && decide (page ∈ jobPages j))

/-- The walk of a released DIRTY page has finished (R434): where the tables still map it, its bytes (what jobs wrote, a free
value, log entry 1) are written to its host page in plaintext; then it leaves the map. -/
def pageBack (page : Nat) (w : Walk) (s : State) : State :=
  match (astS s w.tag).bind (fun a => a.resid.find? (fun r => r.page == page)) with
  | none => s
  | some r =>
    if !(r.release && r.st == .dirty) || pageUsed w.tag page s then s
    else
      let s := residDrop w.tag page s
      match w.done, astS s w.tag with
      | (_, _, .host h) :: _, some a =>
        let b := drawBytes 65536 s
        emit (.hostWrite a.die h b.1) b.2
      | _, _ => s

/-- A walk has finished with no overlapping invalidation: what it serves goes on. -/
def walkFinish (w : Walk) (s : State) : State :=
  match w.for_ with
  | .submit j c => submitWalked j c w s
  | .job j => resumeDone (jobWalked j w s)
  | .prog c =>
    if !(walkFaults w).isEmpty then answer c 0x400 (stateWord s) stMalformed 3 (List.replicate 56 0#8) s
    else if !progView s w then answer c 0x400 (stateWord s) stMalformed 1 (List.replicate 56 0#8) s
    else { s with jb := { s.jb with progLoad := s.jb.progLoad ++ [(c, field c.payload 4 4, slice c.payload 16 48)] } }
  | .prefetch c => prefetchWalked c w s
  | .back p => pageBack p w s

/-- Put a walk back, or finish it when every page is resolved. -/
def walkPut (w : Walk) (s : State) : State :=
  let w := walkAdvance w s
  let s := { s with xl := { s.xl with walks := s.xl.walks.filter (fun x => x.id != w.id) } }
  if w.todo.isEmpty && !w.overlap then walkFinish w s else { s with xl := { s.xl with walks := s.xl.walks ++ [w] } }

/-- Start a walk over pages of a tag (R421, R429). -/
def walkStart (tag : Nat) (pages : List (Nat × Bool)) (f : WalkFor) (s : State) : State :=
  let ie := match astS s tag with | some a => a.ie | none => 0
  let w : Walk := ⟨s.xl.nextId, tag, f, ie, pages, pages, [], 0, 0, false⟩
  walkPut w (perfAdd 0 9 1 { s with xl := { s.xl with nextId := s.xl.nextId + 1 } })

/-- Walk a job again. -/
def jobRewalk (jid : Nat) (s : State) : State :=
  if s.xl.walks.any (fun w => w.for_ == .job jid) then s
  else match jobS s jid with
    | some j => walkStart j.ast (jobWalkPages j) (.job jid) s
    | none => s

/-- TABLE_READ_DONE (R421): an empty list is a read that ended with an error or poison. -/
def tableRead (id : Nat) (entries : List Nat) (s : State) : State :=
  match s.xl.walks.find? (fun w => w.id == id) with
  | none => s
  | some w =>
    match readFault w entries with
    | some k => walkPut (walkFaultHere k w) s
    | none => walkPut w (cacheFill w entries s)

/-- WALK_BUDGET_EXPIRY (R422): the submission posts, its job parked WALK, and the walk goes on. -/
def walkBudget (id : Nat) (s : State) : State :=
  match s.xl.walks.find? (fun w => w.id == id) with
  | some w =>
    (match w.for_ with
     | .submit j c => submitParked j c { s with xl := { s.xl with walks := s.xl.walks.map (fun (x : Walk) => if x.id = id then { x with for_ := WalkFor.job j } else x) } }
     | _ => s)
  | none => s

/-- Acceptance of an invalidation (R426, R427): the TXU's work, what completion waits for, and the walks that stale and
waiting jobs start anew (R430). -/
def invAccept (lane : Option Nat) (call : Option (HostCall × Nat)) (tag : Nat) (all : Bool) (page count : Nat) (s : State) : State :=
  let hit (p : Nat) : Bool := inRange all page count p
  let stale := invStale tag all page count s
  let moved : List Nat := match astS s tag with
    | some a => (a.resid.filter (fun r => r.st == .transit && hit r.page)).map (fun r => r.page)
    | none => []
  let load : List Nat := match s.wk.load with
    | some l => (match wpkS s l.handle with
      | some w => if w.ast == tag && (rangePages w.srcva w.pkglen).any hit then [w.loaded + 1] else []
      | none => [])
    | none => []
  let prog : List Nat := if s.jb.progLoad.isEmpty then [] else [0]
  let spill : List Nat := if s.sp.en && (apS s 0 63).ast == tag then
      (s.sp.fetching.filter (fun p => hit ((apS s 0 63).dbase / 65536 + p - s.sp.first))).map (2 ^ 40 + ·) else []
  let i : Inval := ⟨s.xl.nextId, lane, call, tag, all, page, count,
    (s.jb.list.filter (fun j => j.st == .running && j.ast == tag && (jobPages j).any hit)).map (fun j => j.id),
    (s.xl.walks.filter (fun w => w.tag == tag)).map (fun w => w.id), load ++ prog ++ spill, stale⟩
  let s := invMark tag all page count { s with xl := { s.xl with invs := s.xl.invs ++ [i], nextId := s.xl.nextId + 1 } }
  let q := (s.jb.list.filter (fun j => j.ast == tag && ((j.st == .queued && j.stale) || (j.st == .parked && j.park == .transit && (jobPages j).any (fun p => decide (p ∈ moved)))))).mergeSort
    (fun x y => decide (x.order ≤ y.order))
  q.foldl (fun s j => jobRewalk j.id s) s

/-- Whether what an invalidation waits for is over (R428); a lane completes in acceptance order (R426). -/
def invReady (i : Inval) (s : State) : Bool :=
  i.jobs.all (fun j => match jobS s j with | some x => x.st != .running | none => true)
    && i.walks.all (fun w => !s.xl.walks.any (fun x => x.id == w))
    && i.pages.all (fun p => if p = 0 then s.jb.progLoad.isEmpty else if 2 ^ 40 ≤ p then !decide (p - 2 ^ 40 ∈ s.sp.fetching) else
        match s.wk.load with | some l => (match wpkS s l.handle with | some w => decide (p ≤ w.loaded) | none => true) | none => true)
    && (match i.lane with
      | some n => (match s.xl.invs.find? (fun x => x.lane == some n) with | some x => x.id == i.id | none => true)
      | none => true)

/-- An invalidation completes (R428): DYING pages leave the map; the lane counts it or its command is answered; a
destroyed tag is gone (R436). -/
def invComplete (id : Nat) (s : State) : State :=
  match s.xl.invs.find? (fun i => i.id == id) with
  | none => s
  | some i =>
    if !invReady i s then s
    else
      let hit (p : Nat) : Bool := inRange i.all i.page i.count p
      let s := modAst i.tag (fun a => { a with resid := a.resid.filter (fun r => !(r.st == .dying && hit r.page)) }) s
      let done := match i.lane with | some n => modNth n (fun v => (v + 1) % 2 ^ 32) s.xl.invDone | none => s.xl.invDone
      let s := { s with xl := { s.xl with invs := s.xl.invs.filter (fun x => x.id != id), invDone := done } }
      let s := trace 11 0xFF i.tag i.stale s
      match i.call with
      | none => s
      | some (c, word) =>
        if c.payload.length = 8 then answer c 0x501 word stOk 0 [] { s with xl := { s.xl with asts := s.xl.asts.filter (fun a => a.tag != i.tag) } }
        else answer c 0x502 word stOk 0 (toLe 4 i.stale ++ toLe 4 0) s

/-- A lane doorbell of the primary function (R426, Table 9-10). -/
def invLane (n v : Nat) (s : State) : State :=
  if 64 ≤ n || !barOn s 0 then s
  else if 16 ≤ (s.xl.invs.filter (fun i => i.lane == some n)).length then s
  else
    let s := { s with xl := { s.xl with invReq := modNth n (fun x => (x + 1) % 2 ^ 32) s.xl.invReq } }
    let tag := bits v 0 8
    if (astS s tag).isNone then { s with xl := { s.xl with invDone := modNth n (fun x => (x + 1) % 2 ^ 32) s.xl.invDone } }
    else invAccept (some n) none tag (bit v 8) (bits v 16 36) (bits v 52 12 + 1) s

/-- HB_FR_TAIL (R424): waiting batches are written while there is room. -/
def frTailWrite (v : Nat) (s : State) : State :=
  if !barOn s 0 then s else frFlush { s with hb := { s.hb with frTail := v } }

/-- HB_FR_CTRL (Table 9-10): EN, the aperture, and SEALED, which stays 1 in CONFIDENTIAL mode. -/
def frCtrlWrite (v : Nat) (s : State) : State :=
  if !barOn s 0 then s
  else
    let s := { s with hb := { s.hb with frEn := bit v 0, frSealed := bit v 1 || s.pkg.mode == .confidential, frIdx := bits v 2 6 } }
    if s.hb.frEn then frFlush s else s

/-- A page lands (R431): its bytes, the host's (a free value, log entry 1), are in external memory, its entry becomes CLEAN and the
jobs parked on it are walked again. -/
def pageLanded (tag page : Nat) (s : State) : State :=
  if !decide ((tag, page) ∈ s.xl.migr) || pageHeld tag page s then s
  else
    let s := { s with xl := { s.xl with migr := s.xl.migr.filter (· != (tag, page)) } }
    let ext := match (astS s tag).bind (fun a => a.resid.find? (fun r => r.page == page)) with | some r => r.ext / 65536 | none => 0
    let b := drawBytes 65536 s
    let s := extWrite ext b.1 b.2
    let s := modAst tag (fun a => { a with resid := a.resid.map (fun (r : Resid) => if r.page = page && r.st == .transit then { r with st := .clean } else r) }) s
    (s.jb.list.filter (fun j => j.ast == tag && j.st == .parked && j.park == .transit && decide (page ∈ jobPages j))).foldl (fun s j => jobRewalk j.id s) s

/-- A held page's migration is abandoned (R433): the page stays host-resident. -/
def pageAbandon (tag page : Nat) (s : State) : State :=
  if !decide ((tag, page) ∈ s.xl.migr) then s
  else
    let s := { s with xl := { s.xl with migr := s.xl.migr.filter (· != (tag, page)) } }
    let s := modAst tag (fun a => { a with resid := a.resid.filter (fun r => !(r.page == page && r.st == .transit)) }) s
    (s.jb.list.filter (fun j => j.ast == tag && j.st == .parked && j.park == .transit && decide (page ∈ jobPages j))).foldl (fun s j => jobRewalk j.id s) s

/-- A released page that no job holds leaves the map (R434); in OPEN mode a DIRTY one is walked
first, and written back where the tables still map it. -/
def pageRelease (tag page : Nat) (s : State) : State :=
  match astS s tag with
  | none => s
  | some a =>
    match a.resid.find? (fun r => r.page == page) with
    | none => s
    | some r =>
      if !r.release || pageUsed tag page s || !(r.st == .clean || r.st == .dirty) then s
      else
        if s.pkg.mode == .opened && r.st == .dirty then
          (if s.xl.walks.any (fun w => w.for_ == .back page && w.tag == tag) then s else walkStart tag [(page, false)] (.back page) s)
        else residDrop tag page s

/-- A byte range that a command may name: not empty, below 2^52. -/
def rangeArg (va len : Nat) : Bool := len != 0 && decide (va + len ≤ 2 ^ 52)

/-- AST_CREATE (R436). -/
def astCreateBody : HostCall → State → CmdRes := sized 16 (fun c s =>
  let p := c.payload
  let tag := field p 0 1
  let ring := bits (field p 1 1) 0 4
  let root := field p 8 8
  let d := field p 2 1 / 64
  let i := field p 2 1 % 64
  if root = 0 || root % 65536 ≠ 0 || bits (field p 1 1) 4 4 ≠ 0 || !(ring = 0 || (8 ≤ ring && ring ≤ 14)) || !allZero (slice p 3 5)
      || (s.pkg.mode == .opened && i ≠ 0) then cmdFail s stMalformed 0
  else if (astS s tag).isSome then cmdFail s stExists 0
  else if (portUnits s).length ≤ d || !(fnS s d).up then cmdFail s stUnavailable 0
  else cmdOk { s with xl := { s.xl with asts := s.xl.asts ++ [⟨tag, root, d, ring, i, none, 0, [], [], 0, 0, [], []⟩] } } (toLe 1 tag ++ toLe 7 0))

/-- AST_DESTROY (R436): it posts after the invalidation completes. -/
def astDestroyBody : HostCall → State → CmdRes := sized 8 (fun c s =>
  let tag := field c.payload 0 1
  if !allZero (slice c.payload 1 7) then cmdFail s stMalformed 0
  else if (astS s tag).isNone then cmdOk s []
  else
    let word := stateWord s
    let s := jobsEnd .cancelled stCancelled 0 (jobIds (fun j => j.ast == tag && j.st != .running) s) s
    let s := invAccept none (some (c, word)) tag true 0 0 s
    let s := (List.range 4).foldl (fun s d => (List.range 64).foldl (fun s a =>
      if (apS s d a).valid && (apS s d a).ast == tag && !spillAp s d a then apEnd d a s else s) s) s
    cmdWait (modAst tag (fun a => { a with mirror := none }) s))

/-- AST_INVALIDATE (R426): it posts at completion. -/
def astInvalidateBody : HostCall → State → CmdRes := sized 16 (fun c s =>
  let p := c.payload
  let tag := field p 0 1
  let n := field p 4 4
  let va := field p 8 8
  if 2 ≤ field p 1 1 || !allZero (slice p 2 2) || (astS s tag).isNone || (field p 1 1 = 0 && (va % 65536 ≠ 0 || 2 ^ 52 ≤ va)) then cmdFail s stMalformed 0
  else cmdWait (invAccept none (some (c, stateWord s)) tag (field p 1 1 == 1) (va / 65536) (if n = 0 then 2 ^ 32 else n) s))

/-- PREFETCH (R431, R432). -/
def prefetchBody : HostCall → State → CmdRes := sized 24 (fun c s =>
  let p := c.payload
  let tag := field p 0 1
  if !allZero (slice p 1 7) || !rangeArg (field p 8 8) (field p 16 8) || (astS s tag).isNone then cmdFail s stMalformed 0
  else if isS0 s then cmdFail s stUnavailable 0
  else cmdWait (walkStart tag ((rangePages (field p 8 8) (field p 16 8)).map (·, false)) (.prefetch c) s))

/-- ADVISE (Table 19-5). -/
def adviseBody : HostCall → State → CmdRes := sized 24 (fun c s =>
  let p := c.payload
  let tag := field p 0 1
  let k := field p 1 1
  let va := field p 8 8
  let len := field p 16 8
  let ps := rangePages va len
  let hit (x : Nat) : Bool := decide (va / 65536 ≤ x) && decide (65536 * x < va + len)
  if !allZero (slice p 2 6) || !rangeArg va len || k = 0 || 4 < k then cmdFail s stMalformed 0
  else match astS s tag with
    | none => cmdFail s stMalformed 0
    | some a =>
      if isS0 s && (k = 2 || k = 3) then cmdFail s stUnavailable 0
      else if k = 1 then
        let s := modAst tag (fun a => { a with resid := a.resid.map (fun (r : Resid) => if hit r.page && (r.st == .clean || r.st == .dirty) then { r with release := true } else r) }) s
        cmdOk (ps.foldl (fun s x => pageRelease tag x s) s) []
      else if k = 2 then
        let new := ps.filter (fun x => !a.resid.any (fun r => r.page == x))
        if freeCap s < 65536 * new.length then cmdFail s stCapacity 0
        else cmdOk (new.foldl (fun s x => extWrite (extFree s) [] (residAdd tag x .dirty s)) s) []
      else if k = 3 then
        (if !feat s 6 then cmdFail s stNotNegotiated 0
         else if 64 ≤ a.advised.length then cmdFail s stLimit 0
         else cmdOk (modAst tag (fun a => { a with advised := a.advised ++ [(va / 65536, ps.length)] }) s) [])
      else cmdOk (modAst tag (fun a => { a with advised := a.advised.filter (fun r => !meets r.1 r.2 (va / 65536) ps.length) }) s) [])

/-- FAULT_RESUME (R425). -/
def faultResumeBody : HostCall → State → CmdRes := sized 8 (fun c s =>
  let b := field c.payload 0 4
  if !allZero (slice c.payload 4 4) then cmdFail s stMalformed 0
  else if !decide (b ∈ s.xl.written) then cmdFail s stNotFound 0
  else
    let js := s.jb.list.filter (fun j => j.st == .parked && j.park == .fault && decide (b ∈ j.batches))
    if js.isEmpty then cmdOk s (toLe 4 0 ++ toLe 4 0)
    else
      let s := unitSend (1000 + b) 0x505 (some (c, stateWord s)) 0 s
      cmdWait (js.foldl (fun s j => jobRewalk j.id s) s))

/-- MIRROR_SET (R419). -/
def mirrorSetBody : HostCall → State → CmdRes := sized 24 (fun c s =>
  let p := c.payload
  let tag := field p 0 1
  let b := field p 8 8
  let l := field p 16 8
  if s.pkg.mode != .opened then cmdFail s stBadState 0
  else if !allZero (slice p 1 7) || b % 65536 ≠ 0 || l % 65536 ≠ 0 || 2 ^ 52 < b + l || (astS s tag).isNone then cmdFail s stMalformed 0
  else cmdOk (modAst tag (fun a => { a with mirror := if l = 0 then none else some (b, l) }) s) [])

/-- TABLE_READ_DONE (R421). -/
def execTableReadDone (walk : Nat) (entries : List Nat) (s : State) : Res := .next (tableRead walk entries s)
/-- TABLE_READ_TIMEOUT (R421). -/
def execTableReadTimeout (walk : Nat) (s : State) : Res := .next (tableRead walk [] s)
/-- WALK_BUDGET_EXPIRY (R422). -/
def execWalkBudgetExpiry (walk : Nat) (s : State) : Res := .next (walkBudget walk s)
/-- FAULT_BATCH_WINDOW (R424). -/
def execFaultBatchWindow (s : State) : Res := .next (faultClose s)
/-- FAULT_RING_TAIL_WRITE (R424). -/
def execFaultRingTailWrite (value : Word) (s : State) : Res := .next (frTailWrite value.toNat s)
/-- HB_FR_CTRL_WRITE (R424). -/
def execHbFrCtrlWrite (value : Word) (s : State) : Res := .next (frCtrlWrite value.toNat s)
/-- MIGRATION_PAGE_LANDED (R431). -/
def execMigrationPageLanded (tag page : Nat) (s : State) : Res := .next (pageLanded tag page s)
/-- MIGRATION_ABANDON (R433). -/
def execMigrationAbandon (tag page : Nat) (s : State) : Res := .next (pageAbandon tag page s)
/-- PAGE_RELEASE (R434). -/
def execPageRelease (tag page : Nat) (s : State) : Res := .next (pageRelease tag page s)
/-- INV_LANE_DOORBELL (R426). -/
def execInvLaneDoorbell (lane value : Nat) (s : State) : Res := .next (invLane lane value s)
/-- INVALIDATION_COMPLETE (R428). -/
def execInvalidationComplete (id : Nat) (s : State) : Res := .next (invComplete id s)
/-- AST_CREATE (R436). -/
def execAstCreate (c : HostCall) (s : State) : Res := .next (runCmd 0x500 astCreateBody c s)
/-- AST_DESTROY (R436). -/
def execAstDestroy (c : HostCall) (s : State) : Res := .next (runCmd 0x501 astDestroyBody c s)
/-- AST_INVALIDATE (R427). -/
def execAstInvalidate (c : HostCall) (s : State) : Res := .next (runCmd 0x502 astInvalidateBody c s)
/-- PREFETCH (R432). -/
def execPrefetch (c : HostCall) (s : State) : Res := .next (runCmd 0x503 prefetchBody c s)
/-- ADVISE (R432). -/
def execAdvise (c : HostCall) (s : State) : Res := .next (runCmd 0x504 adviseBody c s)
/-- FAULT_RESUME (R425). -/
def execFaultResume (c : HostCall) (s : State) : Res := .next (runCmd 0x505 faultResumeBody c s)
/-- MIRROR_SET (R419). -/
def execMirrorSet (c : HostCall) (s : State) : Res := .next (runCmd 0x506 mirrorSetBody c s)
/-- REGION_SET (R277). -/
def execRegionSet (c : HostCall) (s : State) : Res := .next (runCmd 0x507 regionSetBody c s)
/-- MODE_SET (R45). -/
def execModeSet (c : HostCall) (s : State) : Res := .next (runCmd 0x002 modeSetBody c s)

end Sys2Proof.Machine
end

