-- ==== Sys2Proof/Machine/Jobs.lean ====
section
/-! DEFINITION. Tile programs and jobs (chapter 17), receipts' events (16): loading, submission, start, end, cancel, the
tile's internal commands, residue and ECC failures, completion rings. -/

namespace Sys2Proof.Machine

/-- Tiles whose USTATE is UP. -/
def upTiles (s : State) : List Nat := (List.range 8).filter (fun t => (unitS s t).ustate == .up)

/-- A program header keeps Table 17-4. -/
def progHeaderOk (b : Bytes) (plen : Nat) : Bool :=
  let n := field b 7 1
  field b 0 4 == 0x47525054 && field b 4 2 == 1 && field b 6 1 != 0 && decide (field b 6 1 < 32)
    && (n == 1 || n == 2 || n == 4 || n == 8) && 128 + field b 8 4 == plen && field b 12 4 % 4 == 0
    && decide (field b 12 4 < field b 8 4) && allZero (slice b 24 8) && allZero (slice b 80 48)

/-- PROG_LOAD up to its translation (R374). -/
def progLoadBody : HostCall → State → CmdRes := sized 64 (fun c s =>
  let p := c.payload
  let tag := field p 0 1
  let plen := field p 4 4
  let dig := slice p 16 48
  if !allZero (slice p 1 3) then cmdFail s stMalformed 0
  else match s.jb.progs.find? (fun x => x.dig == dig) with
    | some x => cmdOk s (progBody x.phandle dig)
    | none =>
      if 64 ≤ s.jb.progs.length then cmdFail s stLimit 0
      else if plen < 128 || Config.kWpkPage < plen || (astS s tag).isNone then cmdFail s stMalformed 0
      else cmdWait (walkStart tag ((rangePages (field p 8 8) plen).map (·, false)) (.prog c) s))

/-- A program's bytes and lane digest have arrived (R374): checks, the table entry, PROG_INSTALL and slot 18. -/
def progArrived (data : Bytes) (s : State) : State :=
  match s.jb.progLoad with
  | [] => s
  | (c, plen, dig) :: r =>
    let s := { s with jb := { s.jb with progLoad := r } }
    let fail (st : Nat) : State := answer c 0x400 (stateWord s) st 0 (List.replicate 56 0#8) s
    match s.jb.progs.find? (fun x => x.dig == dig) with
    | some x => answer c 0x400 (stateWord s) stOk 0 (progBody x.phandle dig) s
    | none =>
      if Config.sha384 data != dig then fail stIntegrity
      else if data.length ≠ plen || !progHeaderOk data plen then fail stMalformed
      else if 64 ≤ s.jb.progs.length then fail stLimit
      else
        let ph := s.jb.nextProg
        let e : Prog := ⟨ph, dig, field data 7 1, field data 16 8, slice data 32 48, plen⟩
        let s := { s with jb := { s.jb with progs := s.jb.progs ++ [e], nextProg := ph + 1 } }
        let s := msRecord 18 dig s
        if (upTiles s).isEmpty then answer c 0x400 (stateWord s) stOk 0 (progBody ph dig) s
        else
          (upTiles s).foldl (fun s t => unitCmd t 0x8002 (toLe 4 ph ++ toLe 4 plen ++ dig) (unitSend t 0x8002 none ph s))
            (unitSend 1000 0x8002 (some (c, stateWord s)) ph s)

/-- PROG_INSTALL at a tile (R374): the program is installed in its store. -/
def tileInstall (t ph : Nat) (s : State) : State :=
  modTileJ t (fun j => { j with store := if ph ∈ j.store then j.store else j.store ++ [ph] }) s

/-- A tile has acknowledged PROG_INSTALL: the last one of the tiles it was sent to answers the command. -/
def installAcked (t ph : Nat) (s : State) : State := installEnd ph (takeWaits t 0x8002 ph s).2

/-- Tiles of an aligned group of `n` from `k` (R376). -/
def groupMask (n k : Nat) : Nat := (2 ^ n - 1) * 2 ^ k

/-- A mask is an aligned group of `n` tiles. -/
def groupAligned (n m : Nat) : Bool := (List.range 8).any (fun k => k % n == 0 && decide (k + n ≤ 8) && m == groupMask n k)

/-- Jobs QUEUED on a tile. -/
def queuedOn (s : State) (t : Nat) : Nat := (s.jb.list.filter (fun j => j.st == .queued && bit j.tiles t)).length

/-- The group the warden chooses (R376): eligible tiles, fewest queued jobs, lowest first. -/
def chooseGroup (n : Nat) (s : State) : Option Nat :=
  let ok (t : Nat) : Bool := (tileJ s t).eligible && (unitS s t).ustate == .up
  let load (k : Nat) : Nat := (List.range n).foldl (fun a i => a + queuedOn s (k + i)) 0
  let ks := (List.range 8).filter (fun k => k % n == 0 && decide (k + n ≤ 8) && (List.range n).all (fun i => ok (k + i)))
  (ks.foldl (fun b k => match b with | none => some k | some x => if load k < load x then some k else b) none).map (groupMask n)

/-- JOB_SUBMIT (R375, Table 17-3). The stream number is a free value (log entry 1). -/
def jobSubmitBody : HostCall → State → CmdRes := sized 96 (fun c s =>
  let p := c.payload
  let id := field p 0 8
  let tag := field p 12 1
  let fl := field p 13 1
  let tm := field p 14 1
  let vec := field p 15 1
  let fail (st : Nat) : CmdRes := cmdFail s st 0
  match astS s tag with
  | none => fail stMalformed
  | some a =>
    if id = 0 || 2 ≤ fl || !(vec = 0 || (16 ≤ vec && vec ≤ 63)) || field p 24 8 = 0 || field p 40 8 = 0 then fail stMalformed
    else match s.jb.progs.find? (fun x => x.phandle == field p 8 4) with
      | none => fail stBadHandle
      | some g =>
        if field p 56 8 < g.wsmin then fail stMalformed
        else
          let bound := if allZero g.wroot then none else s.wk.hs.find? (fun w => w.ws == .runnable && w.root == g.wroot)
          if !allZero g.wroot && bound.isNone then fail stBadState
          else if fl = 1 && !feat s 2 then fail stNotNegotiated
          else if tm ≠ 0 && !groupAligned g.ntiles tm then fail stMalformed
          else
            let named := (List.range 8).filter (bit tm)
            if named.any (fun t => (unitS s t).ustate == .failed) then fail stUnavailable
            else if named.any (fun t => (unitS s t).ustate == .resetting) then fail stBusy
            else match (if tm = 0 then chooseGroup g.ntiles s else some tm) with
              | none => fail (if (List.range 8).any (fun t => (unitS s t).ustate == .resetting) then stBusy else stUnavailable)
              | some m =>
                let live := (s.jb.list.filter (fun j => j.st.live)).length
                if 1024 ≤ live || (List.range 8).any (fun t => bit m t && decide (128 ≤ queuedOn s t)) then fail stQueueFull
                else
                  let j : Job := {
                    id := id, ch := c.ch, ast := tag, phandle := g.phandle, receipt := fl == 1, tiles := m, vector := vec,
                    inVa := field p 16 8, inLen := field p 24 8, outVa := field p 32 8, outLen := field p 40 8, wsVa := field p 48 8, wsLen := field p 56 8,
                    args := slice p 64 32, st := .parked, status := 0, detail := 0, order := 0, die := a.die, stream := Config.freeNat s.draws % 62,
                    park := .walk, batches := [], stale := false, exts := [], handle := match bound with | some w => w.handle | none => 0,
                    prog := g.dig, wroot := g.wroot, meas := [], inDigs := [], outDigs := [], retry := false, ovf := false, spill := false, written := 0,
                    ending := false, rcptSeq := 0, record := [] }
                  let s := { s with draws := s.draws + 1, jb := { s.jb with list := s.jb.list.filter (fun x => x.id != id) ++ [j] } }
                  cmdWait (walkStart tag (jobWalkPages j) (.submit id c) s))

/-- JOB_ENQUEUE at a tile (R377): the job takes its place in order-number order, if it is still QUEUED with that order number. -/
def tileEnqueue (t order jid : Nat) (s : State) : State :=
  match jobS s jid with
  | none => s
  | some j =>
    if j.st == .queued && bit j.tiles t && j.order == order then
      modTileJ t (fun x =>
        let q := x.queue.filter (fun q => q.2 != jid)
        { x with queue := q.filter (fun e => decide (e.1 < order)) ++ [(order, jid)] ++ q.filter (fun e => decide (order < e.1)) }) s
    else s

/-- QPOS a tile answers (Table 11-8): the job's place in its queue, 0 at the head; 0xFFFF_FFFF where it is in none. -/
def queuePos (t jid : Nat) (s : State) : Nat :=
  let q := (tileJ s t).queue.map (fun q => q.2)
  if jid ∈ q then q.idxOf jid else 0xFFFFFFFF

/-- A tile has answered JOB_ENQUEUE: the submission that waits for it is answered. -/
def enqueueAcked (t jid qpos : Nat) (s : State) : State :=
  let (ws, s) := takeWaits t 0x8003 jid s
  match jobS s jid with
  | none => s
  | some j => ws.foldl (fun s w => match w.call with | some (c, word) => answer c 0x401 word stOk 0 (submitBody qpos j) s | none => s) s

/-- MEAS of a receipt context (R354): SHA-384 of all 32 slot values. -/
def measDigest (s : State) : Bytes := Config.sha384 (s.ms.slots.flatMap (fun x => x.val))

/-- A job that heads every assigned tile's queue becomes RUNNING (R377, R430, R433). -/
def jobStart (jid : Nat) (s : State) : State :=
  match jobS s jid with
  | none => s
  | some j =>
    let heads := (List.range 8).all (fun t => !bit j.tiles t || ((tileJ s t).eligible && !(unitS s t).clkStop
      && (match (tileJ s t).queue with | (_, x) :: _ => x == jid | [] => false)))
    if !(s.pkg.st == .active && j.st == .queued && !j.stale && heads) then s
    else
      let wr := (rangePages j.outVa j.outLen ++ rangePages j.wsVa j.wsLen)
      let s := modJob jid (fun j => { j with st := .running, meas := measDigest s }) s
      let s := { s with jb := { s.jb with tiles := s.jb.tiles.map (fun (t : TileJ) => { t with queue := t.queue.filter (fun q => q.2 != jid) }) } }
      let s := modAst j.ast (fun a => { a with resid := a.resid.map (fun (r : Resid) => if r.st == .clean && decide (r.page ∈ wr) then { r with st := .dirty } else r) }) s
      trace 3 0xFF j.tiles jid s

/-- Chunks of a range (R353). -/
def chunksOf (len : Nat) : Nat := (len + 65535) / 65536

/-- Bytes of a chunk of a range: 64 KiB, the last one shorter (R276, R353). -/
def chunkLen (len chunk : Nat) : Nat := min 65536 (len - 65536 * chunk)

/-- Every chunk digest of a receipted job is in. -/
def digestsIn (j : Job) : Bool := j.inDigs.length == chunksOf j.inLen && j.outDigs.length == chunksOf j.outLen

/-- Every assigned tile has reported the end of a RUNNING job (R352, R378, Table 17-2). -/
def jobFinal (jid : Nat) (x : JobEnd) (s : State) : State :=
  match jobS s jid with
  | none => s
  | some j =>
    if j.st != .running || j.ending || (x.status = stOk && gateShut j s) then s
    else
      let s := modJob jid (fun j => { j with retry := j.retry || x.retry, ovf := x.ovf, written := x.written }) s
      if x.status ≠ stOk then jobEnd .aborted x.status x.detail jid s
      else if !j.receipt then jobEnd .done stOk 0 jid s
      else if digestsIn j then recMake jid (modJob jid (fun j => { j with ending := true }) s)
      else modJob jid (fun j => { j with ending := true }) s

/-- A lane's chunk digest reaches a receipted job (R276, R352, R353). -/
def laneJob (jid chunk : Nat) (out : Bool) (data : Bytes) (s : State) : State :=
  match jobS s jid with
  | none => s
  | some j =>
    if j.st != .running || !j.receipt || data.isEmpty || data.length ≠ chunkLen (if out then j.outLen else j.inLen) chunk then s
    else
      let d := Config.sha384 data
      let s := modJob jid (fun j => if out then { j with outDigs := putKey chunk d j.outDigs } else { j with inDigs := putKey chunk d j.inDigs }) s
      match jobS s jid with
      | some k => if k.ending && digestsIn k && !digestsIn j then recMake jid s else s
      | none => s

/-- A job's state as its host may see it: at the last grid point while quantisation is in force (R490). -/
def jobView (j : Job) (s : State) : JState :=
  if s.pw.quant then (lookupNat j.id s.jb.gridView).getD (if j.st.live then j.st else .running) else j.st

/-- JOB_CANCEL (R379): a QUEUED job's lead tile decides. -/
def jobCancelBody : HostCall → State → CmdRes := sized 8 (fun c s =>
  let id := field c.payload 0 8
  match jobS s id with
  | none => cmdOk s (toLe 8 0)
  | some j =>
    match j.st with
    | .queued =>
      let t := leadTile j.tiles
      cmdWait (unitCmd t 0x8004 (toLe 8 id ++ toLe 2 Config.abortReason) (unitSend t 0x8004 (some (c, stateWord s)) id s))
    | .parked => cmdOk (jobEnd .cancelled stCancelled 0 id s) (toLe 1 JState.cancelled.code ++ toLe 7 0)
    | .running => ⟨s, some (stOk, 1, toLe 1 JState.running.code ++ toLe 7 0), false⟩
    | _ =>
      let v := jobView j s
      ⟨s, some (stOk, if v == .running then 1 else 0, toLe 1 v.code ++ toLe 7 0), false⟩)

/-- JOB_ABORT at a tile (R379, R430): WITHDRAW takes the job from the queue without ending it; any other reason ends a job that
has not started. -/
def tileAbort (t jid reason : Nat) (s : State) : State :=
  match jobS s jid with
  | none => s
  | some j =>
    if reason = 5 then
      (if j.st == .queued then s else modTileJ t (fun x => { x with queue := x.queue.filter (fun q => q.2 != jid) }) s)
    else if j.st == .queued || j.st == .parked then jobEnd .cancelled stCancelled 0 jid s
    else s

/-- Job state as a tile reports it. -/
def jobCode (jid : Nat) (s : State) : Nat := match jobS s jid with | some j => j.st.code | none => 0

/-- A tile has answered JOB_ABORT: the JOB_CANCEL that waits for it is answered with the state at the handling (R379). -/
def abortAcked (t jid code : Nat) (s : State) : State :=
  let (ws, s) := takeWaits t 0x8004 jid s
  ws.foldl (fun s w => match w.call with
    | some (c, word) => answer c 0x402 word stOk (if code = JState.running.code then 1 else 0) (toLe 1 code ++ toLe 7 0) s
    | none => s) s

/-- JOB_STATUS (R262): a job in the job window, or UNKNOWN. -/
def jobStatusBody : HostCall → State → CmdRes := sized 8 (fun c s =>
  let id := field c.payload 0 8
  match jobS s id with
  | some j =>
    if !s.mb.jobWin.any (fun e => e.job == id) then cmdOk s (toLe 16 0)
    else
      let v := jobView j s
      let fin := !v.live
      cmdOk s (toLe 1 v.code ++ toLe 1 j.tiles ++ toLe 2 (if fin then j.status else 0) ++ toLe 4 0 ++ toLe 8 (if fin then j.rcptSeq else 0))
  | none => cmdOk s (toLe 16 0))

/-- RCPT_FLUSH (R262, R356, R358): a closure due during a hold answers when it takes place. -/
def rcptFlushBody : HostCall → State → CmdRes := sized 0 (fun c s =>
  match s.rc.cur with
  | none => cmdOk s (toLe 8 (lastBatch s) ++ toLe 8 0)
  | some b =>
    if s.rc.waiting.isSome then cmdWait (unitSend 1000 0x404 (some (c, stateWord s)) 0 (closeDue 4 s))
    else cmdOk (closeBatch 4 .batch s) (toLe 8 (batchNum s) ++ toLe 4 b.records ++ toLe 4 0))

/-- TILE_ENTER (R323, Table 17-6): the tile takes the epoch and empties its queues and its program store; after a restore
the store keeps the programs just copied (DEDUCED, log entry 20). -/
def tileEnter (t epoch : Nat) (s : State) : State :=
  let keep := (tileJ s t).restoring && s.pkg.st != .loading
  modTileJ t (fun x => { x with epoch := epoch, queue := [], store := if keep then x.store else [], eligible := false, restoring := keep }) s

/-- A tile's program store has been restored (R381 step 5). -/
def tileRestored (t : Nat) (s : State) : Bool := (tileJ s t).restoring && s.jb.progs.all (fun p => decide (p.phandle ∈ (tileJ s t).store))

/-- A restored tile is to take the epoch (R381 step 6). -/
def tileEnterSend (t : Nat) (s : State) : State :=
  if tileRestored t s then unitCmd t 0x8001 (toLe 8 (epochOf s)) (trace 13 t 6 (unitS s t).gen.toNat s) else s

/-- A tile has acknowledged TILE_ENTER: after a restore it is to run SELFTEST (R381 step 6). -/
def enterAcked (t : Nat) (s : State) : State := if tileRestored t s && (tileJ s t).epoch == epochOf s then unitCmd t 0x8005 [] s else s

/-- The lowest-numbered UP tile that is not itself under restore copies every program of the table (R381 step 5). With no such
tile the restore does not begin, and the tile is not eligible (DESIGN CHOICE, log entry 95). -/
def restoreTile (t : Nat) (s : State) : State :=
  let s := trace 13 t 5 (unitS s t).gen.toNat s
  if s.jb.progs.isEmpty then tileEnterSend t s
  else match (upTiles s).find? (fun k => !(tileJ s k).restoring) with
    | some k => s.jb.progs.foldl (fun s p => unitCmd k 0x8007 (toLe 1 t ++ toLe 3 0 ++ toLe 4 p.phandle) s) s
    | none => s

/-- The result of SELFTEST (R323 phase 3, R381 step 6). -/
def tileSelftest (t : Nat) (pass : Bool) (s : State) : State :=
  let x := tileJ s t
  if s.pkg.st == .loading && s.tn.ld.phase == .selftest && decide (t ∈ s.tn.ld.waiting) then
    (if pass then { s with tn := { s.tn with ld := { s.tn.ld with waiting := s.tn.ld.waiting.filter (· != t) } } }
     else loadFail 3 t stIntegrity s)
  else if tileRestored t s && x.epoch == epochOf s then
    (if pass then modTileJ t (fun x => { x with restoring := false, eligible := s.pkg.st == .active }) s else unitFail t 6 stIntegrity s)
  else s

/-- PROG_COPY (R381 step 5): a supervisor copies a program to a tile under restore, whose digest of it must match. -/
def progCopy (target ph : Nat) (good : Bool) (s : State) : State :=
  if !(tileJ s target).restoring || !s.jb.progs.any (fun p => p.phandle == ph) then s
  else if good then modTileJ target (fun x => { x with store := if ph ∈ x.store then x.store else x.store ++ [ph] }) s
  else unitFail target 5 stIntegrity s

/-- A failed residue or dual-lane check (R369, R371): the step is re-executed once; a second failure ends the job. -/
def residueFail (t jid step : Nat) (s : State) : State :=
  match jobS s jid with
  | none => s
  | some j =>
    if 8 ≤ t || j.st != .running || !bit j.tiles t || (tileJ s t).gateClosed then s
    else
      let x := tileJ s t
      let fs := s.wd.time :: x.fails.filter (fun f => decide (s.wd.time - f < x.window * 100000))
      let s := modTileJ t (fun x => { x with rescnt := min (x.rescnt + 1) 0xFFFFFFFF, fails := fs }) s
      let s := logEvent 0x0307 t (toLe 8 jid ++ toLe 4 step) s
      if (jid, step) ∈ x.rexec then
        jobEnd .aborted stIntegrity 0x10 jid (modTileJ t (fun x => { x with rexec := x.rexec.filter (fun r => r.1 != jid) }) s)
      else
        let s := modTileJ t (fun x => { x with rexec := x.rexec ++ [(jid, step)] }) s
        perfAdd (t + 1) 7 1 (modJob jid (fun j => { j with retry := true }) s)

/-- The residue alarm (R371, R474): more than LIMIT failures within WINDOW close the gate, and a partial reset starts. -/
def residueAlarm (t : Nat) (s : State) : State :=
  let x := tileJ s t
  if 8 ≤ t || x.gateClosed then s
  else if (x.fails.filter (fun f => decide (s.wd.time - f < x.window * 100000))).length ≤ x.limit then s
  else unitCrash t 4 (setNotice 15 (modTileJ t (fun x => { x with gateClosed := true }) s))

/-- 64-byte lines of a region of a tile (Tables 1-5, 3-6). -/
def regionLines (r : Nat) : Nat :=
  (match r with | 0 => SramLevel.base.tileBytes | 1 => SramLevel.cluster.tileBytes | 2 => SramLevel.scratch.tileBytes | _ => 0) / 64

/-- The handle whose weight page holds a line of a tile's SRAM (R372, R400). -/
def weightAt (t r line : Nat) (s : State) : Option Nat :=
  let has : WPlace → Bool
    | .base u n => u == t && r == 0 && decide (Config.weightLine ≤ line) && (line - Config.weightLine) / 1024 == n
    | .cluster u n => u == t && r == 1 && line / 1024 == n
    | _ => false
  (s.wk.hs.find? (fun w => w.places.any has)).map (fun w => w.handle)

/-- A double-bit SRAM error of a tile (R372): its line poisoned, the job that reads it and the handle whose page it holds lost. -/
def eccUe (t region line : Nat) (job handle : Option Nat) (s : State) : State :=
  if 8 ≤ t || !unitUp s t || regionLines region ≤ line then s
  else
    let s := modTileJ t (fun x => { x with ue := min (x.ue + 1) 0xFFFFFFFF, eccAddr := line, poison := if (region, line) ∈ x.poison then x.poison else x.poison ++ [(region, line)] }) s
    let s := logEvent 0x0306 t (toLe 1 region ++ toLe 8 line) s
    let s := match job with
      | some j => (match jobS s j with | some k => if k.st == .running && bit k.tiles t then jobEnd .aborted stIntegrity 0x11 j s else s | none => s)
      | none => s
    match handle with
    | some h => (match wpkS s h with
      | some w => if w.ws == .failed || !w.places.any (placeIn t region) then s else wpkFail h (logEvent 0x0405 0xFF (toLe 4 h) s)
      | none => s)
    | none => s

/-- A DMA stream begins a job's descriptor (R275, R279): one at a time, streams 62 and 63 carry no job (R403, R431). -/
def dmaStart (d stream jid : Nat) (s : State) : State :=
  match jobS s jid with
  | none => s
  | some j =>
    if 4 ≤ d || j.die ≠ d || j.st != .running || 62 ≤ stream || j.stream ≠ stream || (lookupNat stream (pxS s d).streams).isSome then s
    else if (pxS s d).conf && j.exts.any (fun e => e.kind == 0) then jobEnd .aborted stMalformed 1 jid s
    else modPx d (fun x => { x with streams := putKey stream ⟨jid, 0⟩ x.streams }) s

/-- CTAIL was read again (R438): held records are written while there is room. -/
def ringRoom (tag ctail : Nat) (s : State) : State :=
  match astS s tag with
  | some a => if a.ring = 0 then s else ringFlush false tag (modAst tag (fun x => { x with ctail := ctail }) s)
  | none => s

/-- A grid point of completion quantisation (R490). -/
def quantGrid (s : State) : State :=
  if !s.pw.quant then s
  else
    let s := s.xl.asts.foldl (fun (s : State) (a : Ast) => ringFlush true a.tag s) s
    { s with jb := { s.jb with gridView := s.jb.list.map (fun j => (j.id, j.st)) } }

/-- PROG_LOAD (R374). -/
def execProgLoad (c : HostCall) (s : State) : Res := .next (runCmd 0x400 progLoadBody c s)
/-- JOB_SUBMIT (R375). -/
def execJobSubmit (c : HostCall) (s : State) : Res := .next (runCmd 0x401 jobSubmitBody c s)
/-- JOB_CANCEL (R379). -/
def execJobCancel (c : HostCall) (s : State) : Res := .next (runCmd 0x402 jobCancelBody c s)
/-- JOB_STATUS (R262). -/
def execJobStatus (c : HostCall) (s : State) : Res := .next (runCmd 0x403 jobStatusBody c s)
/-- RCPT_FLUSH (R262). -/
def execRcptFlush (c : HostCall) (s : State) : Res := .next (runCmd 0x404 rcptFlushBody c s)
/-- JOB_START (R377). -/
def execJobStart (job : Nat) (s : State) : Res := .next (jobStart job s)
/-- RESIDUE_CHECK_FAIL (R369). -/
def execResidueCheckFail (t job step : Nat) (s : State) : Res := .next (residueFail t job step s)
/-- RESIDUE_ALARM (R371). -/
def execResidueAlarm (t : Nat) (s : State) : Res := .next (residueAlarm t s)
/-- ECC_UNCORRECTABLE (R372). -/
def execEccUncorrectable (t region line : Nat) (job handle : Option Nat) (s : State) : Res := .next (eccUe t region line job handle s)
/-- JOB_FINAL (R378). -/
def execJobFinal (job : Nat) (x : JobEnd) (s : State) : Res := .next (jobFinal job x s)
/-- COMPLETION_RING_ROOM (R438). -/
def execCompletionRingRoom (tag ctail : Nat) (s : State) : Res := .next (ringRoom tag ctail s)
/-- COMPLETION_QUANT_GRID (R490). -/
def execCompletionQuantGrid (s : State) : Res := .next (quantGrid s)
/-- DMA_DESCRIPTOR_START (R275). -/
def execDmaDescriptorStart (d stream job : Nat) (s : State) : Res := .next (dmaStart d stream job s)
/-- RCPT_BATCH_TIMEOUT (R356). -/
def execRcptBatchTimeout (s : State) : Res := .next (closeDue 2 s)

end Sys2Proof.Machine
end

