-- ==== Sys2Proof/Machine/Weights.lean ====
section
/-! DEFINITION. Weight packages (chapter 15), capacity, spill and stack memory (18), and the binding records that releases
name (R303). -/

namespace Sys2Proof.Machine

/-- The binding record that the present state would make (R303): unit states, restarts, epoch and update status. -/
def bindNow (serial : Nat) (s : State) : Bind :=
  ⟨serial, if (residentIx s).isSome then epochOf s else 0, (List.range 18).map (fun u => (uState s u, (unitS s u).restarts)), s.upd.status, false⟩

/-- A serial is current (R303). -/
def serialCurrent (n : Nat) (s : State) : Bool := s.idn.binds.any (fun b => b.serial == n && b == bindNow n s)

/-- An open handle. -/
def wpkOpen (s : State) (h : Nat) : Option Wpk := s.wk.hs.find? (fun w => w.handle == h && !w.closed)

/-- Policy bytes of the resident tenant. -/
def resPolicy (s : State) : Bytes := match residentIx s with | some i => (match recS s i with | some r => r.policy | none => []) | none => []

/-- The first spill condition of Table 18-5 that fails, 0 when spill is permitted. -/
def spillCheck (short : Nat) (s : State) : Nat :=
  if !feat s 4 || !bit (field (resPolicy s) 1 1) 0 then 1
  else if 2 ^ 30 < short then 2
  else if s.sp.en || s.wk.hs.any (fun w => w.short != 0) || (apS s 0 62).valid || (apS s 0 63).valid then 3
  else if (apRoom 0 (short / 4096) s).isNone then 4 else 0

/-- Set up the spill pair (R403, R404): key from the memory root, both ports, both descriptors, PD_SPILL_CTRL. -/
def spillSetup (tag pages short srcva pkglen : Nat) (s : State) : State :=
  let rt := (apRoom 0 (short / 4096) s).getD 0
  let s := derive 3 "tc4/spill/v1" (s.boot.bootNonce ++ toLe 8 (epochOf s)) 48 19 (2 ^ 10) false s
  let s := zeroSlot 19 false (fwKpush 19 8 63 (fwKpush 19 8 62 s))
  let base := (srcva + pkglen + 65535) / 65536 * 65536
  let s := apWrite 0 63 false tag base short rt 0 (apWrite 0 62 true tag base short rt 0 s)
  { s with sp := { en := true, paired := true, pages := short / 65536, first := pages - short / 65536 } }

/-- The answer of WPK_OPEN. -/
def openBody (h pages bnd spill short : Nat) : Bytes := toLe 4 h ++ toLe 4 pages ++ toLe 1 bnd ++ toLe 1 spill ++ toLe 2 0 ++ toLe 8 short

/-- WPK_OPEN (R341, R401 to R403). -/
def wpkOpenBody : HostCall → State → CmdRes := staged 48 0 (fun h c s =>
  let p := c.payload
  let tag := field p 24 1
  let srcva := field p 32 8
  let pkglen := field p 40 8
  let plain := field h 32 8
  let pages := field h 40 4
  let bnd := field h 6 1
  let fail (st d : Nat) : CmdRes := cmdFail s st d
  let auth := !allZero (slice h 112 48) && !allZero (slice h 160 48)
  if h.length ≠ 256 || field h 0 4 ≠ 0x4B505754 || field h 4 2 ≠ 1 || !(bnd = 1 || bnd = 2) || !allZero (slice h 7 1) || !allZero (slice h 44 4)
      || !allZero (slice h 60 4) || !allZero (slice h 208 48) || plain = 0 || pages ≠ (plain + 65535) / 65536 || pkglen ≠ plain + 16 * pages
      || srcva % 16 ≠ 0 || (astS s tag).isNone || !allZero (slice p 25 7)
      || (bnd = 1 && !allZero (slice h 112 96)) || (bnd = 2 && !auth) then fail stMalformed 1
  else if bnd = 2 && !feat s 9 then fail stNotNegotiated 2
  else if field h 8 8 ≠ resTid s then fail stPolicy 3
  else
    let hdig := Config.sha384 (h.take 112)
    match s.wk.hs.find? (fun w => !w.closed && w.hdig == hdig) with
    | some w => ⟨s, some (stExists, 4, openBody w.handle 0 0 0 0), false⟩
    | none =>
      if 16 ≤ (s.wk.hs.filter (fun w => !w.closed)).length then fail stLimit 5
      else
        let need := pages * 65536
        let free := freeCap s
        let short := need - free
        let d := if short = 0 then 0 else if isS0 s then 6 else spillCheck short s
        if d ≠ 0 then ⟨s, some (stCapacity, d, openBody 0 0 0 0 short), false⟩
        else
          let n := s.wk.next
          let w : Wpk := ⟨n, hdig, slice h 64 48, slice h 112 48, slice h 160 48, slice h 48 12, bnd, .opened, pages, plain, 0, tag, srcva, pkglen,
            need - short, short, [], false, []⟩
          let s := { s with wk := { s.wk with hs := s.wk.hs ++ [w], next := n + 1 } }
          let s := if short = 0 then s else spillSetup tag pages short srcva pkglen s
          cmdOk s (openBody n pages bnd (b2n (short != 0)) short))

/-- Plaintext bytes of page `i` (R335). -/
def pageLen (w : Wpk) (i : Nat) : Nat := min 65536 (w.plainlen - 65536 * i)

/-- WPK_LOAD (R344): pages already loaded are skipped; the others come one by one (row WPK_PAGE_FOLD). -/
def wpkLoadBody : HostCall → State → CmdRes := sized 16 (fun c s =>
  let p := c.payload
  let h := field p 0 4
  let first := field p 4 4
  let count := field p 8 4
  match wpkOpen s h with
  | none => cmdFail s stBadHandle 0
  | some w =>
    let fail (st : Nat) : CmdRes := ⟨s, some (st, 0, loadBody w.loaded 0), false⟩
    if !allZero (slice p 12 4) then fail stMalformed
    else if s.wk.load.any (fun l => l.handle == h) then fail stBusy
    else if !(w.ws == .keyed || w.ws == .loading) then fail stBadState
    else if count = 0 || w.pages < first + count || w.loaded < first then fail stMalformed
    else if first + count ≤ w.loaded then cmdOk s (loadBody w.loaded 0)
    else cmdWait { s with wk := { s.wk with load := some ⟨h, c, first + count⟩ } })

/-- The plaintext of a spill page leaves through aperture 62 as records with SEQ 1 (R404). -/
def spillOut (w : Wpk) (i : Nat) (pt : Bytes) (s : State) : State :=
  let n := (pt.length + 4095) / 4096
  (List.range n).foldl (fun s k => (outRec 0 62 (16 * (i - (w.pages - w.short / 65536)) + k) ((pt.drop (4096 * k)).take 4096) s).1) s

/-- A page of the load in execution has been read (R344, R336): tag, place, digest, fold. -/
def wpkPage (x : PageIn) (s : State) : State :=
  match s.wk.load with
  | none => s
  | some l =>
    match wpkS s l.handle with
    | none => s
    | some w =>
      let i := w.loaded
      let plen := pageLen w i
      if x.srcFault then loadEnd stMalformed 3 i s
      else match portKey s 8 0x40 with
        | none => loadEnd stNoKey 0 i s
        | some k =>
          let iv := List.zipWith (· ^^^ ·) w.nsalt (toLe 4 i ++ toLe 8 0)
          let aad := w.hdig ++ toLe 4 i ++ toLe 4 plen
          let ct := slice x.ct 0 plen
          if !Config.gcmOk k iv aad ct x.tag then
            let s := contentKeyEnd (modWpk w.handle (fun w => { w with ws := .failed }) s)
            loadEnd stIntegrity 0 i s
          else
            let pt := (List.range plen).map (Config.gcmByte false k iv aad ct)
            let pl := pagePlace w i s
            let s := match pl with
              | .spill => spillOut w i pt s
              | .ext n => extWrite n pt s
              | _ => s
            let s := modWpk w.handle (fun w => { w with ws := .loading, loaded := i + 1, places := w.places ++ [pl], stack := mthPush 1 (Config.sha384 pt) w.stack }) s
            if l.stop ≤ i + 1 then loadEnd stOk 0 0 s else s

/-- WPK_FINISH (R345). -/
def wpkFinishBody : HostCall → State → CmdRes := sized 8 (fun c s =>
  let h := field c.payload 0 4
  match wpkOpen s h with
  | none => cmdFail s stBadHandle 0
  | some w =>
    let body (x : WState) (r : Bytes) : Bytes := toLe 1 x.code ++ toLe 7 0 ++ slice r 0 48
    if !allZero (slice c.payload 4 4) then cmdFail s stMalformed 0
    else if s.wk.load.any (fun l => l.handle == h) then cmdFail s stBusy 0
    else if w.ws != .loading || w.loaded ≠ w.pages then cmdFail s stBadState 0
    else
      let r := mthClose w.stack
      if r == w.root then
        cmdOk (msRecord 19 w.root (contentKeyEnd (modWpk h (fun w => { w with ws := .runnable }) s))) (body .runnable r)
      else ⟨contentKeyEnd (modWpk h (fun w => { w with ws := .failed }) s), some (stIntegrity, 0, body .failed r), false⟩)

/-- WPK_STATUS (R261). -/
def wpkStatusBody : HostCall → State → CmdRes := sized 8 (fun c s =>
  match wpkOpen s (field c.payload 0 4) with
  | none => cmdFail s stBadHandle 0
  | some w =>
    if !allZero (slice c.payload 4 4) then cmdFail s stMalformed 0
    else cmdOk s (toLe 1 w.ws.code ++ toLe 1 w.bind ++ toLe 1 (b2n (w.short != 0)) ++ [0#8] ++ toLe 4 w.loaded ++ toLe 4 w.pages))

/-- WPK_CLOSE (R347): a RUNNABLE handle keeps its pages and reservation; a load in execution ends with its handle. A handle
that has ended already is closed again without effect (R248). -/
def wpkCloseBody : HostCall → State → CmdRes := sized 8 (fun c s =>
  let h := field c.payload 0 4
  match wpkOpen s h with
  | none => if !allZero (slice c.payload 4 4) then cmdFail s stMalformed 0
            else if h = 0 || s.wk.next ≤ h then cmdFail s stBadHandle 0 else cmdOk s []
  | some w =>
    if !allZero (slice c.payload 4 4) then cmdFail s stMalformed 0
    else if w.ws == .runnable then cmdOk (modWpk h (fun w => { w with closed := true }) s) []
    else
      let s := if s.wk.load.any (fun l => l.handle == h) then loadEnd stBadHandle 0 0 s else s
      let s := if w.ws == .keyed || w.ws == .loading then contentKeyEnd s else s
      cmdOk { s with wk := { s.wk with hs := s.wk.hs.filter (fun x => x.handle != h) } } [])

/-- The answer of a key release: HANDLE and WSTATE. -/
def releaseBody (h : Nat) (x : WState) : Bytes := toLe 4 h ++ toLe 1 x.code ++ toLe 3 0

/-- Checks 1 to 4 of Table 15-4. -/
def releaseCheck (h bnd : Nat) (s : State) : Option Nat :=
  match wpkOpen s h with
  | none => some stBadHandle
  | some w =>
    if w.bind ≠ bnd || w.ws == .failed then some stBadState
    else if w.ws != .opened then some stExists
    else if s.wk.hs.any (fun x => x.ws == .keyed || x.ws == .loading)
      || (s.pq.wait ++ s.pq.run.toList).any (fun e => match e.purp with | .release .. => true | .setAuth .. => true | _ => false) then some stBusy
    else none

/-- The unwrap entry (R342): the ephemeral or the static pair. -/
def releaseJobs (ct qp : Bytes) (set : Bool) : List PkJobD :=
  [⟨0x22, [ct], some (if set then 60 else 58), some 56, 2⟩, ⟨0x11, [ecWire2 qp], some (if set then 61 else 59), some 57, 2⟩]

/-- EPH, the tc4-ephemeral claim (Table 15-2). -/
def ephDigest (s : State) : Bytes := match s.idn.eph with | some (ek, qe) => Config.sha384 (ek ++ qe) | none => List.replicate 48 0#8

/-- KEY_RELEASE (R342, Table 15-4). -/
def keyReleaseBody : HostCall → State → CmdRes := sized 1720 (fun c s =>
  let p := c.payload
  let h := field p 0 4
  match releaseCheck h 1 s with
  | some st => cmdFail s st 0
  | none =>
    if !allZero (slice p 4 4) then cmdFail s stMalformed 0
    else if !serialCurrent (field p 8 8) s then cmdFail s stNotBindable 0
    else if s.idn.eph.isNone || (slotS s 58).empty || (slotS s 59).empty then cmdFail s stNoKey 0
    else
      let hdig := match wpkOpen s h with | some w => w.hdig | none => []
      let ct := slice p 16 1568
      let qp := slice p 1584 96
      let t := Config.sha384 (ascii "tc4/release/v1" ++ [0#8] ++ hdig ++ ephDigest s ++ slice p 8 8 ++ ct ++ qp)
      cmdWait (pqAdd 1 (.release c (stateWord s) h t (slice p 1680 40) false [] []) (releaseJobs ct qp false) s))

/-- Entries of a manifest (Table 15-4a). -/
def manEntries (m : Bytes) : List Bytes := (List.range (field m 6 2)).map (fun k => slice m (2704 + 48 * k) 48)
/-- The signed part of a manifest. -/
def manSigned (m : Bytes) : Bytes := slice m 0 (2704 + 48 * field m 6 2)

/-- A manifest keeps Table 15-4a. -/
def manOk (m : Bytes) : Bool :=
  let n := field m 6 2
  let es := manEntries m
  field m 0 4 == 0x4E414D54 && field m 4 2 == 1 && decide (1 ≤ n) && decide (n ≤ Config.kSetMax) && allZero (slice m 8 8)
    && m.length == 7427 + 48 * n && (List.zip es es.tail).all (fun p => bytesLt p.1 p.2)

/-- UEID of the package (R293). -/
def ueid (s : State) : Bytes := [0x01#8] ++ (Config.sha384 (identQ s)).take 32

/-- SKD, the set key digest (R339). -/
def skd (s : State) : Bytes := match s.idn.setPair with | some (ek, q) => Config.sha384 (ueid s ++ ek ++ q) | none => List.replicate 48 0#8

/-- KEY_RELEASE_SET (R343, Table 15-4): the membership signatures run as an entry of their own. -/
def keyReleaseSetBody : HostCall → State → CmdRes := staged 32 8 (fun b c s =>
  let p := c.payload
  let h := field p 0 4
  let m := b.drop 1728
  match releaseCheck h 2 s with
  | some st => cmdFail s st 0
  | none =>
    if !allZero (slice p 4 4) || field b 0 4 ≠ 0x4C525354 || field b 4 2 ≠ 1 || !allZero (slice b 6 2) || !allZero (slice b 1720 8) || !manOk m then
      cmdFail s stMalformed 0
    else if !serialCurrent (field b 8 8) s then cmdFail s stNotBindable 0
    else if s.idn.setPair.isNone || (slotS s 60).empty || (slotS s 61).empty then cmdFail s stNoKey 0
    else
      let w := wpkOpen s h
      let sa := match w with | some w => w.setauth | none => []
      let md := match w with | some w => w.mdig | none => []
      let key := slice m 16 2688
      if Config.sha384 key != sa || Config.sha384 (manSigned m) != md || !decide (skd s ∈ manEntries m) then cmdFail s stAuthFail 0
      else
        let n := 2704 + 48 * field m 6 2
        cmdWait (pqAdd 2 (.setAuth c (stateWord s) h b)
          (verifyJobs (slice key 0 96) (slice key 96 2592) (manSigned m) (slice m n 96) (slice m (n + 96) 4627)) s))

/-- The membership entry has ended: the unwrap follows, or the release fails. -/
def setAuthDone (c : HostCall) (word h : Nat) (b : Bytes) (e : Nat) (ok : Bool) (s : State) : State :=
  if e ≠ 0 then answer c 0x302 word stPkeError e (List.replicate 8 0#8) s
  else if !ok then answer c 0x302 word stAuthFail 0 (List.replicate 8 0#8) s
  else match wpkOpen s h with
    | none => answer c 0x302 word stBadHandle 0 (List.replicate 8 0#8) s
    | some w =>
      if !pqRoom 2 s then answer c 0x302 word stBusy 0 (List.replicate 8 0#8) s else
      let ct := slice b 16 1568
      let qp := slice b 1584 96
      let t := Config.sha384 (ascii "tc4/release-set/v1" ++ [0#8] ++ w.hdig ++ w.mdig ++ skd s ++ ct ++ qp)
      pqAdd 1 (.release c word h t (slice b 1680 40) true w.mdig (manEntries (b.drop 1728))) (releaseJobs ct qp true) s

/-- The unwrap entry has ended (R342, R338): KEK, content key, push, KEYED. `e` is the ECODE that ended it, 0 for none. -/
def releaseDone (c : HostCall) (word h e : Nat) (t wkey : Bytes) (set : Bool) (mdig : Bytes) (entries : List Bytes) (s : State) : State :=
  let op := if set then 0x302 else 0x301
  let fail (st d : Nat) (s : State) : State := answer c op word st d (List.replicate 8 0#8) (zeroSlots [56, 57] s)
  if e ≠ 0 then fail stUnwrapFail e s
  else match wpkOpen s h with
    | none => fail stBadHandle 0 s
    | some w =>
      if w.ws != .opened then fail stBadState 0 s
      else
        let kek := kdf ((slotS s 56).content ++ (slotS s 57).content) "tc4/wpk_kek/v1" t 32
        if !(slotS s 24).empty || !(slotS s 25).empty then fail stUnwrapFail 3 s
        else
          let s := commitSlot 24 kek 2 8 false s
          if !Config.kwOk kek wkey then answer c op word stUnwrapFail 7 (List.replicate 8 0#8) (zeroSlots [56, 57, 24] s)
          else
            let ck := (List.range 32).map (Config.kwByte kek wkey)
            let s := zeroSlots [56, 57, 24] (commitSlot 25 ck 4 2048 true s)
            if !unitUp s 8 then answer c op word stUnwrapFail 0 (List.replicate 8 0#8) (zeroSlot 25 false s)
            else
              let s := fwKpush 25 8 0x40 s
              if portKey s 8 0x40 != some ck then answer c op word stUnwrapFail 0 (List.replicate 8 0#8) (zeroSlot 25 false s) else
              let s := if set then msRecord 20 mdig { s with wk := { s.wk with manifests := lastN 4 (s.wk.manifests.filter (fun m => m.1 != mdig) ++ [(mdig, entries)]) } } else s
              answer c op word stOk 0 (releaseBody h .keyed) (modWpk h (fun w => { w with ws := .keyed }) s)

/-- Stack-local address of data line `n` (R389). -/
def lineAddr (n : Nat) : Nat := 64 * n
/-- Stack-local address of its tag, in the carve-out above the data region (R389). -/
def tagAddr (n : Nat) : Nat := 30 * 2 ^ 30 + 4 * n

/-- The tweak of a line (R391), which the tag's counter block shares (R392): L, site unit number, zeros, tenant epoch. -/
def lineTweak (t n : Nat) (s : State) : Bytes := toLe 5 n ++ toLe 1 (t + 9) ++ toLe 2 0 ++ toLe 8 (epochOf s)

/-- A line as it stands in the stack (R391): the XTS data unit under the key of port 0x00. -/
def lineCell (t n : Nat) (s : State) : Bytes :=
  let v := slice ((lookupNat n (mcS s t).lines).getD []) 0 64
  (List.range 64).map (Config.xtsByte true ((portKey s t 0).getD []) (lineTweak t n s) v)

/-- Multiplication of GHASH (NIST SP 800-38D), bit 0 of the standard being the most significant. -/
def gfMul (x y : BitVec 128) : BitVec 128 :=
  ((List.range 128).foldl (fun (p : BitVec 128 × BitVec 128) i =>
    (if x.getMsbD i then p.1 ^^^ p.2 else p.1, if p.2.getLsbD 0 then (p.2 >>> 1) ^^^ (0xE1#128 <<< 120) else p.2 >>> 1)) (0#128, y)).1

/-- A block as GHASH reads it. -/
def gfBlock (b : Bytes) : BitVec 128 := b.foldl (fun (x : BitVec 128) v => (x <<< 8) ||| v.setWidth 128) 0#128

/-- The tag of a line (R392): 4 bytes of GHASH over the ciphertext and its length block, and E_K of the tweak. -/
def lineTag (t n : Nat) (s : State) : Bytes :=
  let k := (portKey s t 1).getD []
  let enc (b : Bytes) : Bytes := (List.range 16).map (Config.aesByte k b)
  let c := lineCell t n s
  let h := gfBlock (enc (List.replicate 16 0#8))
  let g := ((List.range 4).map (fun i => gfBlock (slice c (16 * i) 16)) ++ [512#128]).foldl (fun y x => gfMul (y ^^^ x) h) 0#128
  let v := g ^^^ gfBlock (enc (lineTweak t n s))
  (List.range 4).map (fun i => (v >>> (120 - 8 * i)).setWidth 8)

/-- A line fails its tag or its on-die ECC (R394): latched, alarm, QUARANTINE with QCAUSE 0x08. -/
def tagFailure (t addr : Nat) (onDie : Bool) (s : State) : State :=
  if !hasStack s t || !s.pkg.memPg then s
  else
    let s := modMc t (fun m => { m with
      failAddr := if m.tagFail || m.ueFail then m.failAddr else addr, tagFail := m.tagFail || !onDie, ueFail := m.ueFail || onDie,
      tagf := if onDie then m.tagf else min (m.tagf + 1) 0xFFFFFFFF }) s
    let s := logEvent 0x0501 (t + 9) (toLe 8 addr) (setAlarm 16 s)
    if s.pkg.st == .active || s.pkg.st == .loading then quarantine 8 s else s

/-- A tile reads or writes a stack line (R393): a line of an uninitialised block reads zero; a first write initialises
its block. The controller serves only while its two ports hold keys; without REFCLK_LINK the access is a tag failure (chapter 25). -/
def stackLine (t line : Nat) (write : Option Bytes) (s : State) : State :=
  let m := mcS s t
  let blk := line / 64
  if !hasStack s t || !s.pkg.memPg || 30 * 2 ^ 24 ≤ line || (portKey s t 0).isNone || (portKey s t 1).isNone || m.heat = 2 then s
  else if !s.pkg.refLink then
    quarantine 8 (logEvent 0x0501 (t + 9) (toLe 8 (64 * line)) (setAlarm 16 (modMc t (fun m => { m with
      failAddr := if m.tagFail || m.ueFail then m.failAddr else 64 * line, tagFail := true, tagf := min (m.tagf + 1) 0xFFFFFFFF }) s)))
  else match write with
    | none =>
      let v := if blk ∈ m.init then slice ((lookupNat line m.lines).getD []) 0 64 else List.replicate 64 0#8
      modMc t (fun m => { m with last := v }) s
    | some b =>
      let v := slice b 0 64
      linePut t line v s

/-- A stack temperature reading (R480): from 95 degrees C half the requests, from 105 none until 100 or below. -/
def stackTemp (t temp : Nat) (s : State) : State :=
  if !hasStack s t || !s.pkg.memPg then s
  else
    let h := (mcS s t).heat
    let n := if 105 ≤ temp || (h = 2 && 100 < temp) then 2 else if 95 ≤ temp then 1 else 0
    let s : State := { s with pw := { s.pw with stackTj := s.pw.stackTj.set t (10 * temp), perStack := modNth t (fun x => max x (10 * temp)) s.pw.perStack } }
    let s := modMc t (fun m => { m with temp := temp % 256, heat := n }) s
    let s := if 95 ≤ temp then setNotice 9 s else s
    if 105 ≤ temp then setNotice 10 s else s

/-- A tile reads a SPILL page (R405): a frame, a fetch under way, or a new fetch with read-ahead. -/
def spillRead (page jid : Nat) (s : State) : State :=
  match jobS s jid with
  | none => s
  | some j =>
    if !s.sp.en || page < s.sp.first || s.sp.first + s.sp.pages ≤ page || j.st != .running then s
    else if page ∈ s.sp.frames then
      perfAdd 0 5 1 (modJob jid (fun j => { j with spill := true }) { s with sp := { s.sp with hit := s.sp.hit + 1 } })
    else
      let s := { s with sp := { s.sp with waiting := s.sp.waiting ++ [(page, jid)] } }
      if page ∈ s.sp.fetching then s
      else
        let new := ((List.range 64).map (· + page)).filter (fun p => decide (p < s.sp.first + s.sp.pages) && !decide (p ∈ s.sp.frames) && !decide (p ∈ s.sp.fetching))
        perfAdd 0 6 new.length { s with sp := { s.sp with fetching := s.sp.fetching ++ new, miss := s.sp.miss + new.length } }

/-- A fetch ends (R405, R406): the page takes the oldest frame and its requests are served, or its jobs end. -/
def spillFetched (page : Nat) (ok : Bool) (s : State) : State :=
  if !decide (page ∈ s.sp.fetching) then s
  else
    let js := (s.sp.waiting.filter (fun w => w.1 == page)).map (fun w => w.2)
    let s := { s with sp := { s.sp with fetching := s.sp.fetching.filter (· != page), waiting := s.sp.waiting.filter (fun w => w.1 != page) } }
    if ok then
      js.foldl (fun s j => modJob j (fun x => { x with spill := true }) s) { s with sp := { s.sp with frames := lastN 256 (s.sp.frames ++ [page]) } }
    else
      let s := modAp 0 63 (fun a => { a with authFail := min (a.authFail + 1) 65535 }) { s with sp := { s.sp with authf := min (s.sp.authf + 1) 0xFFFFFFFF } }
      jobsEnd .aborted stIntegrity 0 js s

/-- A digest lane's result (R276): a job's chunk, or a program's bytes. A page of a package is folded by its own row. -/
def laneResult (dest : LaneDest) (chunk : Nat) (data : Bytes) (s : State) : State :=
  match dest with
  | .jobIn j => laneJob j chunk false data s
  | .jobOut j => laneJob j chunk true data s
  | .prog => progArrived data s
  | .wpk => s

/-- WPK_OPEN (R341). -/
def execWpkOpen (c : HostCall) (s : State) : Res := .next (runCmd 0x300 wpkOpenBody c s)
/-- KEY_RELEASE (R342). -/
def execKeyRelease (c : HostCall) (s : State) : Res := .next (runCmd 0x301 keyReleaseBody c s)
/-- KEY_RELEASE_SET (R343). -/
def execKeyReleaseSet (c : HostCall) (s : State) : Res := .next (runCmd 0x302 keyReleaseSetBody c s)
/-- WPK_LOAD (R344). -/
def execWpkLoad (c : HostCall) (s : State) : Res := .next (runCmd 0x303 wpkLoadBody c s)
/-- WPK_PAGE_FOLD (R344). -/
def execWpkPageFold (x : PageIn) (s : State) : Res := .next (wpkPage x s)
/-- WPK_FINISH (R345). -/
def execWpkFinish (c : HostCall) (s : State) : Res := .next (runCmd 0x304 wpkFinishBody c s)
/-- WPK_STATUS (R261). -/
def execWpkStatus (c : HostCall) (s : State) : Res := .next (runCmd 0x305 wpkStatusBody c s)
/-- WPK_CLOSE (R347). -/
def execWpkClose (c : HostCall) (s : State) : Res := .next (runCmd 0x306 wpkCloseBody c s)
/-- TAG_FAILURE (R394). -/
def execTagFailure (t addr : Nat) (onDie : Bool) (s : State) : Res := .next (tagFailure t addr onDie s)
/-- STACK_LINE_ACCESS (R393). -/
def execStackLineAccess (t line : Nat) (write : Option Bytes) (s : State) : Res := .next (stackLine t line write s)
/-- STACK_TEMP_THRESHOLD (R480). -/
def execStackTempThreshold (t temp : Nat) (s : State) : Res := .next (stackTemp t temp s)
/-- SPILL_PAGE_READ (R405). -/
def execSpillPageRead (page job : Nat) (s : State) : Res := .next (spillRead page job s)
/-- SPILL_FETCH_DONE (R405). -/
def execSpillFetchDone (page : Nat) (ok : Bool) (s : State) : Res := .next (spillFetched page ok s)
/-- DIGEST_LANE_RESULT (R276). -/
def execDigestLaneResult (dest : LaneDest) (chunk : Nat) (data : Bytes) (s : State) : Res := .next (laneResult dest chunk data s)

end Sys2Proof.Machine
end

