-- ==== Sys2Proof/Machine/Attest.lean ====
section
/-! DEFINITION. Identity and attestation (chapter 13): the claims map (RFC 8949 encoding), the compact record, reports,
certificates, the measurement log and the ephemeral keys. -/

namespace Sys2Proof.Machine

/-- Head of a CBOR item: major type and argument in the shortest form (R300). -/
def cborHead (maj n : Nat) : Bytes :=
  let m := maj * 32
  if n < 24 then toLe 1 (m + n)
  else if n < 256 then toLe 1 (m + 24) ++ toLe 1 n
  else if n < 65536 then toLe 1 (m + 25) ++ toBe 2 n
  else if n < 2 ^ 32 then toLe 1 (m + 26) ++ toBe 4 n
  else toLe 1 (m + 27) ++ toBe 8 n

/-- An unsigned integer. -/
def cbUint (n : Nat) : Bytes := cborHead 0 n
/-- The integer −n, n ≥ 1. -/
def cbNeg (n : Nat) : Bytes := cborHead 1 (n - 1)
/-- A byte string. -/
def cbBytes (b : Bytes) : Bytes := cborHead 2 b.length ++ b
/-- A text string. -/
def cbText (t : String) : Bytes := cborHead 3 (ascii t).length ++ ascii t
/-- An array. -/
def cbArr (l : List Bytes) : Bytes := cborHead 4 l.length ++ l.flatMap id
/-- A map, its pairs in key order. -/
def cbMap (l : List (Bytes × Bytes)) : Bytes := cborHead 5 l.length ++ l.flatMap (fun p => p.1 ++ p.2)
/-- A Boolean. -/
def cbBool (b : Bool) : Bytes := if b then [0xF5#8] else [0xF4#8]

/-- The ROOT group is valid: OT_ASM is readable (R305). -/
def rootOk (s : State) : Bool := nth 0 s.otp.grp 3 != 2

/-- hwmodel (Table 13-4). -/
def hwmodel (s : State) : String :=
  match asmOf s with
  | some .m8 => "TC-4/M8"
  | some .m6 => "TC-4/M6"
  | some .s0 => "TC-4/S0"
  | none => ""

/-- Unit type codes of tc4-units and UNIT_STATUS. -/
def typeCode (s : State) (u : Nat) : Nat := match unitType s u with | .tile => 0 | .port => 1 | .stack => 2 | .blank => 3

/-- The image slot of a unit is locked (Table 13-7 bit 1). -/
def slotLocked (s : State) (i : Nat) : Bool := (nth {} s.ms.slots i).locked

/-- Condition UNIT of Table 13-7. -/
def unitBad (s : State) : Bool :=
  (List.range 18).any (fun u => match unitType s u with
    | .tile => uState s u != .up || !slotLocked s 5
    | .port => uState s u != .up || !slotLocked s 4
    | .stack => uState s u != .up || !slotLocked s 3
    | .blank => false)

/-- BREASON (Table 13-7). -/
def breason (unsigned : Bool) (s : State) : Nat :=
  b2n (!(s.pkg.st == .idle || s.pkg.st == .active)) + 2 * b2n (unitBad s) + 4 * b2n (s.upd.status == 5 || s.upd.status == 6)
    + 8 * b2n unsigned + 16 * b2n (s.ms.lostP || s.ms.lostT) + 32 * b2n (lcOf s == 1)

/-- SAFETY flags (Table 13-5). -/
def safetyFlags (s : State) : Nat :=
  b2n (s.pw.tiles.any (fun t => t.throt)) + 2 * b2n (!s.pw.brakeN)
    + 4 * b2n (s.pw.tjt != s.otp.tjt || s.pw.tjs != s.otp.tjs || s.pw.vcm != s.otp.vcm) + 8 * b2n (s.otp.grp.any (· == 1))

/-- Jobs completed as a report gives them (R308). -/
def jobsReported (s : State) : Nat := if s.pkg.mode == .confidential then s.idn.jobsDone / Config.kRcptBatch * Config.kRcptBatch else s.idn.jobsDone

/-- Handles a report lists: the open ones, at most 16. -/
def listedWpks (s : State) : List Wpk := (s.wk.hs.filter (fun w => !w.closed)).take 16

/-- Any open handle spills. -/
def spillOn (s : State) : Bool := s.wk.hs.any (fun w => !w.closed && w.short != 0)

/-- A record is RESIDENT. -/
def isResident (s : State) : Bool := (residentIx s).isSome

/-- Its index and TID. -/
def resIx (s : State) : Nat := (residentIx s).getD 0
/-- Its TID. -/
def resTid' (s : State) : Nat := match residentIx s with | some i => (match recS s i with | some r => r.tid | none => 0) | none => 0

/-- Effective limits in the OT_LIMITS layout. -/
def limitsNow (s : State) : Nat := limitsReg s.pw.tjt s.pw.tjs s.pw.vcm

/-- Degraded reports (R305). -/
def degradedState (s : State) : Bool := s.pkg.st == .quarantine || s.pkg.st == .recovery

/-- The claims map (R300, Table 13-4), keys in deterministic order. -/
def claims (nonce : Bytes) (serial br : Nat) (s : State) : Bytes :=
  let k (n : Nat) : Bytes := cbNeg n
  let opt (b : Bool) (p : Bytes × Bytes) : List (Bytes × Bytes) := if b then [p] else []
  let res := isResident s
  let wfw := fwWfw s && s.boot.inited
  cbMap ([(cbUint 10, cbBytes nonce)]
    ++ opt s.idn.ident.isSome (cbUint 256, cbBytes (ueid s))
    ++ opt (rootOk s) (cbUint 259, cbBytes (ascii (hwmodel s)))
    ++ [(cbUint 263, cbUint 4), (cbUint 265, cbText "urn:valarin:tc4:eat:1"), (k 70001, cbUint serial), (k 70002, cbUint (lcOf s)),
        (k 70003, cbUint (stateWord s)), (k 70004, cbArr [cbUint (b2n (br == 0)), cbUint br]),
        (k 70005, cbArr (s.ms.slots.map (fun x => cbBytes x.val))), (k 70006, cbArr (s.ms.slots.map (fun x => cbUint x.count))),
        (k 70007, cbArr ((s.otp.svn ++ s.boot.runSvn).map cbUint)), (k 70008, cbUint s.boot.wardenVersion)]
    ++ opt wfw (k 70009, cbBytes (bootTag s))
    ++ [(k 70010, cbBytes (toLe 16 s.hb.accept)), (k 70011, cbArr [cbUint s.upd.status, cbBytes (stagedDigest s)])]
    ++ opt s.idn.eph.isSome (k 70012, cbBytes (ephDigest s))
    ++ opt res (k 70013, cbArr [cbBytes (toLe 8 (resTid' s)), cbUint (resIx s), cbUint (epochOf s)])
    ++ opt res (k 70014, cbArr (s.jb.progs.map (fun p => cbBytes p.dig)))
    ++ opt res (k 70015, cbArr ((listedWpks s).map (fun w => cbArr [cbUint w.handle, cbUint w.ws.code, cbUint w.bind, cbBytes w.root])))
    ++ opt res (k 70016, cbBool (spillOn s))
    ++ [(k 70017, cbArr ((List.range 18).map (fun u => cbArr [cbUint u, cbUint (typeCode s u), cbUint (uState s u).code, cbUint (unitS s u).gen.toNat, cbUint (unitS s u).restarts]))),
        (k 70018, cbArr [cbUint (limitsNow s), cbUint (safetyFlags s), cbUint s.pkg.qcause]),
        (k 70019, cbArr [cbUint s.hb.tele.pwr, cbUint s.hb.tele.tjmax, cbUint (jobsReported s), cbUint s.idn.batches])]
    ++ opt (degradedState s) (k 70020, cbUint s.pkg.qcause))

/-- The claim record, block 33 (Table 13-5). -/
def claimRecord (nonce : Bytes) (serial br : Nat) (unsigned pq : Bool) (s : State) : Bytes :=
  let res := isResident s
  let ws := if res then listedWpks s else []
  let ps := if res then s.jb.progs else []
  toLe 4 0x50524354 ++ toLe 2 1 ++ toLe 1 (b2n (br == 0))
    ++ toLe 1 (b2n unsigned + 2 * b2n pq + 4 * b2n (degradedState s) + 8 * b2n (spillOn s) + 16 * b2n s.ms.lostP + 32 * b2n s.ms.lostT)
    ++ toLe 8 serial ++ slice nonce 0 32 ++ toLe 4 (stateWord s) ++ toLe 1 s.otp.asm ++ toLe 1 (lcOf s) ++ toLe 1 s.upd.status ++ toLe 1 br
    ++ (if nth 0 s.otp.grp 4 = 2 then toLe 8 0 else slice (mfgId s) 0 8) ++ toLe 16 s.hb.accept ++ s.otp.svn.flatMap (toLe 1) ++ s.boot.runSvn.flatMap (toLe 1)
    ++ toLe 4 s.boot.wardenVersion ++ (if s.boot.inited then bootTag s else toLe 16 0) ++ stagedDigest s
    ++ ephDigest s ++ toLe 8 (resTid' s) ++ toLe 8 (if res then epochOf s else 0) ++ toLe 2 (if res then resIx s else 0xFFFF)
    ++ toLe 2 s.hb.tele.pwr ++ toLe 1 s.hb.tele.tjmax ++ toLe 1 (safetyFlags s) ++ toLe 2 s.pkg.qcause ++ toLe 4 (limitsNow s)
    ++ toLe 8 (jobsReported s) ++ toLe 8 s.idn.batches
    ++ (List.range 18).flatMap (fun u => toLe 1 u ++ toLe 1 (typeCode s u) ++ toLe 1 (uState s u).code ++ toLe 1 (unitS s u).gen.toNat ++ toLe 4 (unitS s u).restarts)
    ++ toLe 2 ps.length ++ toLe 2 ws.length ++ toLe 4 0 ++ ps.flatMap (fun p => p.dig)
    ++ ws.flatMap (fun w => toLe 4 w.handle ++ toLe 1 w.ws.code ++ toLe 1 w.bind ++ toLe 2 0 ++ w.root)

/-- Value type of a measurement block (Table 13-6). -/
def blockType (n : Nat) : Nat :=
  if n = 1 || n = 8 then 2 else if n = 2 || (4 ≤ n && n ≤ 6) then 1 else if n = 3 || n = 7 || n = 9 then 3 else if n = 33 then 0x84 else 4

/-- One measurement block (R301). -/
def measBlock (n : Nat) (v : Bytes) : Bytes := toLe 1 n ++ [0x01#8] ++ toLe 2 (v.length + 3) ++ toLe 1 (blockType n) ++ toLe 2 v.length ++ v

/-- The measurement record of the 33 blocks. -/
def measRecord (block33 : Bytes) (s : State) : Bytes :=
  (List.range 32).flatMap (fun i => measBlock (i + 1) (nth {} s.ms.slots i).val) ++ measBlock 33 block33

/-- Identifiers of the two keys (R293). -/
def kidEc (s : State) : Bytes := (Config.sha384 (identQ s)).take 16
/-- kid_ML. -/
def kidMl (s : State) : Bytes := (Config.sha384 (identPk s)).take 16

/-- Protected headers of a signed EAT (R298). -/
def bodyProt : Bytes := cbMap [(cbUint 3, cbText "application/cwt")]
/-- Of the ECDSA signature. -/
def ecProt (s : State) : Bytes := cbMap [(cbUint 1, cbNeg 35), (cbUint 4, cbBytes (kidEc s))]
/-- Of the ML-DSA signature. -/
def mlProt (s : State) : Bytes := cbMap [(cbUint 1, cbNeg 65587), (cbUint 4, cbBytes (kidMl s))]

/-- ToBeSigned of RFC 9052 (R298). -/
def toBeSigned (prot payload : Bytes) : Bytes := cbArr [cbText "Signature", cbBytes bodyProt, cbBytes prot, cbBytes [], cbBytes payload]

/-- A signed EAT (R298). -/
def eatSigned (payload ec ml : Bytes) (pq : Bool) (s : State) : Bytes :=
  let sig (p x : Bytes) : Bytes := cbArr [cbBytes p, cbMap [], cbBytes x]
  [0xD8#8, 0x62#8] ++ cbArr [cbBytes bodyProt, cbMap [], cbBytes payload, cbArr ([sig (ecProt s) ec] ++ if pq then [sig (mlProt s) ml] else [])]

/-- The answer of ATT_REPORT. -/
def reportBody (serial br : Nat) (r : Bytes) : Bytes := toLe 8 serial ++ toLe 1 (b2n (br == 0)) ++ toLe 3 0 ++ toLe 4 r.length ++ r

/-- ATT_REPORT (R298 to R306): the claims are captured and a serial issued; the signatures run as one class 1 entry. -/
def attReportBody : HostCall → State → CmdRes := sized 36 (fun c s =>
  let p := c.payload
  let nonce := slice p 0 32
  let form := field p 32 1
  let unsigned := field p 33 1 == 1
  if 2 ≤ form || 2 ≤ field p 33 1 || !allZero (slice p 34 2) then cmdFail s stMalformed 0
  else
    let serial := s.idn.serial + 1
    let br := breason unsigned s
    let pq := feat s 3 && !unsigned
    let s := { s with idn := { s.idn with serial := serial } }
    let cl := claims nonce serial br s
    let record := measRecord (claimRecord nonce serial br unsigned pq s) s
    let cp := toLe 4 record.length ++ record
    if unsigned then cmdOk s (reportBody serial br (if form = 0 then [0xD9#8, 0x02#8, 0x59#8] ++ cl else cp))
    else
      let b := if br = 0 then some (bindNow serial s) else none
      let jobs : List PkJobD := if form = 0 then
          [⟨0x12, [Config.sha384 (toBeSigned (ecProt s) cl)], some 1, none, 0⟩, ⟨0x24, [mldsaMu (identPk s) (toBeSigned (mlProt s) cl)], some 2, none, 0⟩]
        else signJobs s cp
      cmdWait (pqAdd 1 (.report c (stateWord s) serial form pq (if form = 0 then cl else cp) b) jobs s))

/-- A report's entry has ended (R306): the report, its binding record, or ST_PKE_ERROR. -/
def reportDone (c : HostCall) (word serial form : Nat) (pq : Bool) (payload : Bytes) (b : Option Bind) (e : Nat) (ec ml : Bytes) (s : State) : State :=
  if e ≠ 0 then answer c 0x100 word stPkeError e (List.replicate 16 0#8) s
  else
    let r := if form = 0 then eatSigned payload ec ml pq s else payload ++ ec ++ (if pq then ml else [])
    let s := match b with | some x => { s with idn := { s.idn with binds := lastN 16 (s.idn.binds ++ [x]) } } | none => s
    answer c 0x100 word stOk 0 (reportBody serial (if b.isSome then 0 else 1) r) s

/-- The certificate record of a scheme, where it is valid (R296). -/
def certOf (scheme : Nat) (s : State) : Option Bytes :=
  match lookupNat scheme s.idn.certs with
  | some (lc, kd, der) => if s.idn.ident.isSome && lc == lcOf s && kd == Config.sha384 (if scheme = 0 then identQ s else identPk s) then some der else none
  | none => none

/-- ATT_CERTS (R259, R295, R296). -/
def attCertsBody : HostCall → State → CmdRes := sized 4 (fun c s =>
  let w := field c.payload 0 1
  if 2 ≤ w || !allZero (slice c.payload 1 3) then cmdFail s stMalformed 0
  else if w = 1 && !feat s 3 then cmdFail s stNotNegotiated 0
  else if s.pkg.st == .quarantine && s.pkg.qcause = 1 then cmdFail s stNoKey 0
  else match certOf w s with
    | some d => cmdOk s (toLe 4 d.length ++ toLe 4 0 ++ d)
    | none => cmdFail s stNotFound 0)

/-- ATT_MEAS_LOG (R304): entries of a slot from index FIRST, 0 the first (DEDUCED, log entry 21). -/
def attMeasLogBody : HostCall → State → CmdRes := sized 16 (fun c s =>
  let p := c.payload
  let slot := field p 0 1
  let first := field p 4 4
  let n := field p 8 4
  if 32 ≤ slot || !allZero (slice p 1 3) || !allZero (slice p 12 4) || n = 0 || 60 < n then cmdFail s stMalformed 0
  else if (nth {} s.ms.slots slot).count < first then cmdFail s stNotFound 0
  else
    let es := (((s.ms.logP ++ s.ms.logT).filter (fun e => e.slot == slot)).drop first).take n
    cmdOk s (toLe 4 es.length ++ toLe 4 0 ++ es.flatMap mlogBytes))

/-- ATT_EPHEMERAL (R259): the first execution of a boot draws the private inputs and runs the two entries of Table 6-6. -/
def attEphemeralBody : HostCall → State → CmdRes := sized 0 (fun c s =>
  match s.idn.eph with
  | some (ek, qe) => cmdOk s (ek ++ qe)
  | none =>
    if !s.ks.drbgOk then cmdFail s stPkeError 4
    else
      let fill (i : Nat) (s : State) : State :=
        if (slotS s i).empty then (let (b, s) := drawBytes 64 s; commitSlot i b 3 16 false s) else s
      let w := stateWord s
      let s := fill 59 (fill 58 s)
      cmdWait (pqAdd 1 (.ephemeral c w []) [⟨0x20, [], some 58, none, 0⟩] s))

/-- An ephemeral entry has ended with result `r`: EK of MLKEM_KEYGEN, after which ECKEYGEN is queued, or QE. -/
def ephemeralDone (c : HostCall) (word : Nat) (ek : Bytes) (e : Nat) (r : Bytes) (s : State) : State :=
  let fail (st d : Nat) : State := answer c 0x103 word st d (List.replicate 1664 0#8) (zeroSlots [58, 59] s)
  match s.idn.eph with
  | some (k, q) => answer c 0x103 word stOk 0 (k ++ q) s
  | none =>
    if e ≠ 0 then fail stPkeError e
    else if ek.isEmpty then
      (if !pqRoom 1 s then fail stBusy 0
       else pqAdd 1 (.ephemeral c word (slice r 0 1568)) [⟨0x10, [], some 59, none, 0⟩] s)
    else
      let qe := ecWire2 r
      answer c 0x103 word stOk 0 (ek ++ qe) { s with idn := { s.idn with eph := some (ek, qe) } }

/-- ATT_REPORT (R306). -/
def execAttReport (c : HostCall) (s : State) : Res := .next (runCmd 0x100 attReportBody c s)
/-- ATT_CERTS (R259). -/
def execAttCerts (c : HostCall) (s : State) : Res := .next (runCmd 0x101 attCertsBody c s)
/-- ATT_MEAS_LOG (R304). -/
def execAttMeasLog (c : HostCall) (s : State) : Res := .next (runCmd 0x102 attMeasLogBody c s)
/-- ATT_EPHEMERAL (R259). -/
def execAttEphemeral (c : HostCall) (s : State) : Res := .next (runCmd 0x103 attEphemeralBody c s)

end Sys2Proof.Machine
end

