-- ==== Sys2Proof/Machine/Store.lean ====
section
/-! DEFINITION. What warden firmware keeps in flash beside images: the sealed roster and link record (R314, R315, R462),
the clear receipt ring (R329, Table 14-11), the persistent log (R507, Table 22-8) and the certificate store (R309). -/

namespace Sys2Proof.Machine

/-- EV_FLASH_ERROR (Table 22-1); the operation code is the model's (log entry 88). -/
def flashErrorEv (off op : Nat) (s : State) : State := logEvent 0x0801 0xFF (toLe 4 off ++ toLe 1 op) s

/-- Offset of copy 0 of a sealed container by its INDEX (Table 14-2, R462); copy 1 is the next sector. -/
def sealBase (i : Nat) : Nat :=
  if i = 0xFFFF then 0x140000 else if i = 0xFFFE then 0x9C2000 else 0x142000 + 0x2000 * i

/-- The copy and WGEN of a container's next write (R315): the copy not in force, one above the valid WGEN; copy 0 with WGEN 1
where none is valid. -/
def sealNext (i : Nat) (s : State) : Nat × Nat :=
  match lookupNat i s.tn.gens with
  | some (c, g) => (1 - c, g + 1)
  | none => (0, 1)

/-- Offset of a container's next write. -/
def sealOff (i : Nat) (s : State) : Nat := sealBase i + 0x1000 * (sealNext i s).1

/-- A sealed container (Table 14-5): AES-256-GCM under slot 6, the head as AAD. -/
def sealBytes (i gen : Nat) (iv pt : Bytes) (s : State) : Bytes :=
  let head := toLe 4 0x54535254 ++ toLe 2 i ++ toLe 2 1 ++ toLe 8 gen ++ slice s.tn.ro.rid 0 8 ++ iv ++ toLe 4 0
  head ++ (List.range (pt.length + 16)).map (Config.gcmByte true (slotS s 6).content iv head pt)

/-- Header plaintext (R331). -/
def hdrPlain (s : State) : Bytes := toLe 1 (lcOf s) ++ toLe 3 0 ++ toLe 4 s.tn.ro.boots ++ toLe 8 0

/-- Record plaintext (R331). -/
def recPlain (i : Nat) (r : TRec) : Bytes :=
  toLe 8 r.tid ++ toLe 2 i ++ toLe 1 r.state.code ++ toLe 1 0 ++ toLe 4 r.switches ++ toLe 8 r.lastEpoch
    ++ slice r.policy 0 64 ++ slice r.tpkEc 0 96 ++ slice r.tpkMl 0 2592 ++ toLe 40 0

/-- Link record plaintext (R462). -/
def linkPlain (s : State) : Bytes :=
  slice s.ln.rak 0 48 ++ (List.range 4).flatMap (fun d => toLe 2 (nth 0 s.ln.mapout d)) ++ toLe 8 0

/-- Erase a sector range and program it from its start. -/
def flashPut (off size : Nat) (b : Bytes) (s : State) : State := flashProg off b (flashErase off size s)

/-- A write whose read-back fails: erased, then programmed with bytes that are a free value (log entry 1). -/
def flashSpoil (off size n : Nat) (s : State) : State :=
  let r := drawBytes n (flashErase off size s)
  flashProg off r.1 r.2

/-- Write a sealed container (R315): the copy not in force is erased and programmed under a drawn IV, and governs. -/
def sealWrite (i : Nat) (pt : Bytes) (s : State) : State :=
  let g := sealNext i s
  let r := drawBytes 12 s
  let s := flashPut (sealBase i + 0x1000 * g.1) 4096 (sealBytes i g.2 r.1 pt r.2) r.2
  { s with tn := { s.tn with gens := putKey i g s.tn.gens } }

/-- A container write that fails leaves the old copy in force (R315) and is logged. -/
def sealFail (i n : Nat) (s : State) : State := flashErrorEv (sealOff i s) 1 (flashSpoil (sealOff i s) 4096 (n + 56) s)

/-- A roster record is in flash (R315). -/
def recCommit (i : Nat) (r : TRec) (s : State) : State :=
  let s := sealWrite i (recPlain i r) s
  match s.tn.fl with
  | some f => { s with tn := { s.tn with fl := some { f with recs := putKey i r f.recs } } }
  | none => s

/-- The header of this boot is in flash (R316): under a new RID every earlier copy counts as absent. -/
def hdrCommit (s : State) : State :=
  let ro := s.tn.ro
  let same : Bool := match s.tn.fl with | some f => f.rid == ro.rid | none => false
  let old := match s.tn.fl with | some f => if same then f.recs else [] | none => []
  let s := sealWrite 0xFFFF (hdrPlain s) { s with tn := { s.tn with gens := if same then s.tn.gens else [] } }
  let f : FlRoster := ⟨s.otp.root, ro.rid, lcOf s, ro.boots, old⟩
  { s with tn := { s.tn with ro := { ro with hdr := HdrState.committed }, fl := some f } }

/-- Offset of the ring entry of the next receipt: entry n mod 64 holds the n-th (R329). -/
def ringOff (s : State) : Nat := 0x942000 + 0x2000 * ((s.tn.ringN + 1) % 64)

/-- A ring entry (Table 14-11). -/
def ringBytes (r : ClearRcpt) : Bytes :=
  toLe 4 0x52524354 ++ toLe 4 r.obj.length ++ toLe 8 r.serial ++ toLe 4 (crc32c r.obj) ++ toLe 12 0 ++ r.obj

/-- A clear receipt is in the ring (R329). -/
def ringCommit (r : ClearRcpt) (s : State) : State :=
  let s := flashPut (ringOff s) 0x2000 (ringBytes r) s
  { s with tn := { s.tn with pend := s.tn.pend.filter (fun x => x != r), ring := lastN 64 (s.tn.ring ++ [r]), ringN := s.tn.ringN + 1 } }

/-- A ring write that fails: the entry it replaced is gone, the receipt stays held and is written again (R329). -/
def ringFail (r : ClearRcpt) (s : State) : State :=
  let s := flashErrorEv (ringOff s) 1 (flashSpoil (ringOff s) 0x2000 5031 s)
  { s with fq := { s.fq with q := s.fq.q ++ [FJob.ring r] }, tn := { s.tn with ring := lastN 63 s.tn.ring } }

/-- The link record is in flash (R462). -/
def linkCommit (s : State) : State :=
  let s := sealWrite 0xFFFE (linkPlain s) s
  { s with ln := { s.ln with flRec := some (s.tn.ro.rid, s.ln.rak, s.ln.mapout) } }

/-- One log entry of 48 bytes (Table 22-6). -/
def logBytes (e : LogEntry) : Bytes :=
  toLe 8 e.seq ++ toLe 8 e.time ++ toLe 4 e.st ++ toLe 2 e.code ++ toLe 1 e.sev ++ toLe 1 e.flags ++ toLe 1 e.unit ++ toLe 1 0 ++ slice e.data 0 22

/-- Offset of the persistent log's next sector: 512 sectors round-robin (R507). -/
def sectorOff (s : State) : Nat := 0xA00000 + 0x1000 * ((s.lg.wseq - 1) % 512)

/-- A persistent log sector (Table 22-8). -/
def sectorBytes (x : LogSector) : Bytes :=
  let head := toLe 4 0x474F4C54 ++ toLe 2 1 ++ toLe 2 x.entries.length ++ toLe 8 x.wseq ++ toLe 4 x.boots ++ toLe 4 0 ++ slice x.boot 0 16
    ++ toLe 8 (match x.entries with | e :: _ => e.seq | [] => 0) ++ toLe 12 0
  let es := x.entries.flatMap logBytes
  head ++ toLe 4 (crc32c (head ++ es)) ++ es

/-- A sector of the persistent log is in flash (R507). -/
def sectorCommit (es : List LogEntry) (s : State) : State :=
  let x : LogSector := ⟨s.lg.wseq, s.tn.ro.boots, bootTag s, es⟩
  let s := flashPut (sectorOff s) 4096 (sectorBytes x) s
  { s with lg := { s.lg with sectors := lastN 512 (s.lg.sectors ++ [x]), wseq := s.lg.wseq + 1 } }

/-- A sector write that fails: the sector it replaced is gone, and its entries are written again in the next one (R507). -/
def sectorFail (es : List LogEntry) (s : State) : State :=
  let off := sectorOff s
  let s := flashSpoil off 4096 (64 + 48 * es.length) s
  flashErrorEv off 1 { s with lg := { s.lg with waiting := es ++ s.lg.waiting, sectors := lastN 511 s.lg.sectors } }

/-- A background write has committed. -/
def flashCommit (j : FJob) (s : State) : State :=
  match j with
  | .header => hdrCommit s
  | .record i r => recCommit i r s
  | .ring r => ringCommit r s
  | .link => linkCommit s
  | .sector es => sectorCommit es s

/-- A background write has failed. -/
def flashFailed (j : FJob) (s : State) : State :=
  match j with
  | .header => sealFail 0xFFFF 16 { s with tn := { s.tn with ro := { s.tn.ro with hdr := HdrState.failed } } }
  | .record i _ => sealFail i 2816 s
  | .ring r => ringFail r s
  | .link => sealFail 0xFFFE 64 s
  | .sector es => sectorFail es s

/-- The background queue goes on (R317): its next write runs unless a synchronous operation does. -/
def flashNext (s : State) : State := { s with fq := { s.fq with busy := !s.fq.q.isEmpty && s.fq.sync.isNone } }

/-- The outcome of a sealed write: it fails too where slot 6 holds no key or was destroyed while it ran, and the note ends
with it. -/
def sealedOk (ok : Bool) (s : State) : Bool × State := (ok && !s.fq.bad && slotServes (slotS s 6) 2, { s with fq := { s.fq with bad := false } })

/-- FLASH_WRITE_DONE (R317). -/
def flashDone (ok : Bool) (s : State) : State :=
  if !s.fq.busy then s
  else match s.fq.q with
    | [] => s
    | j :: r =>
      let s := { s with fq := { s.fq with q := r } }
      let p := if jobSealed j then sealedOk ok s else (ok, s)
      flashNext (if p.1 then flashCommit j p.2 else flashFailed j p.2)

/-- A certificate store record (Table 13-8). -/
def certBytes (scheme lc : Nat) (kd der : Bytes) : Bytes :=
  let head := toLe 4 0x54524354 ++ toLe 1 scheme ++ toLe 1 lc ++ toLe 2 0 ++ toLe 4 der.length ++ slice kd 0 48
  head ++ toLe 4 (crc32c (head ++ der)) ++ der

/-- Offset of the certificate store record of a scheme (R296). -/
def certOff (scheme : Nat) : Nat := 0x100000 + 0x20000 * scheme

end Sys2Proof.Machine
end

