-- ==== Sys2Proof/Machine/TenantOps.lean ====
section
/-! DEFINITION. Tenants (chapter 14): enrollment, staging, loading, eviction, revocation, the background flash queue and
the switch's first phases. -/

namespace Sys2Proof.Machine

/-- Roster writes are refused (R316): the header of this boot has not committed, or has failed. -/
def hdrCheck (s : State) : Option Nat :=
  match s.tn.ro.hdr with
  | .committed => none
  | .failed => some stFlashError
  | _ => some stBusy

/-- A roster or ring write, or another synchronous flash operation, runs or is due before this one (R317; log entry 88). -/
def rosterBusy (s : State) : Bool := s.fq.sync.isSome || s.fq.q.any jobRoster

/-- Start a synchronous flash operation. -/
def flashSync (f : FSync) (s : State) : State := { s with fq := { s.fq with sync := some f } }

/-- A statement in the stage keeps check 1 of R320 or R321. -/
def stmtOk (b : Bytes) (op tid : Nat) : Bool :=
  b.length == 7499 && field b 0 4 == 0x524E4554 && field b 4 2 == 1 && field b 6 2 == op && field b 8 8 == tid && tid != 0
    && (if op = 1 then field b 24 1 != 0 && decide (field b 24 1 < 4) && decide (field b 25 1 < 16) && decide (field b 26 1 < 8)
          && allZero (slice b 27 1) && allZero (slice b 32 8)
        else allZero (slice b 24 64))

/-- Index of the record of a TID. -/
def tidIx (tid : Nat) (s : State) : Option Nat := s.tn.ro.recs.findIdx? (fun r => r.tid == tid)

/-- INDEX and RSTATE of an answer. -/
def recBody (i : Nat) (st : RState) : Bytes := toLe 2 i ++ toLe 1 st.code

/-- TENANT_ENROLL (R320). -/
def tenantEnrollBody : HostCall → State → CmdRes := staged 32 8 (fun b c s =>
  let tid := field c.payload 0 8
  let fail (st d : Nat) : CmdRes := cmdFail s st d
  if !stmtOk b 1 tid then fail stMalformed 1
  else match hdrCheck s with
    | some st => fail st 0
    | none =>
      if (tidIx tid s).isSome then fail stExists 2
      else if Config.kTenants ≤ s.tn.ro.recs.length then fail stLimit 3
      else if slice b 16 8 != mfgId s then fail stAuthFail 4
      else if rosterBusy s then fail stBusy 0
      else
        let r : TRec := ⟨tid, .enrolled, 0, 0, slice b 24 64, slice b 88 96, slice b 184 2592⟩
        cmdWait (pqAdd 2 (.enroll c (stateWord s) r) (verifyJobs r.tpkEc r.tpkMl (b.take 2776) (slice b 2776 96) (slice b 2872 4627)) s))

/-- The enrollment's signatures have been checked. -/
def enrollDone (c : HostCall) (word : Nat) (r : TRec) (e : Nat) (ok : Bool) (s : State) : State :=
  let fail (st d : Nat) : State := answer c 0x200 word st d [] s
  if e ≠ 0 then fail stPkeError e
  else if !ok then fail stAuthFail 5
  else if (tidIx r.tid s).isSome then fail stExists 2
  else if rosterBusy s then fail stBusy 0
  else flashSync (.enroll c word r) s

/-- TENANT_REVOKE (R321): a revoked record answers ST_OK without effect. -/
def tenantRevokeBody : HostCall → State → CmdRes := staged 32 8 (fun b c s =>
  let tid := field c.payload 0 8
  let fail (st d : Nat) : CmdRes := cmdFail s st d
  if !stmtOk b 2 tid then fail stMalformed 1
  else match tidIx tid s with
    | none => fail stNotFound 0
    | some i =>
      match recS s i with
      | none => fail stNotFound 0
      | some r =>
        if r.state == .revoked then cmdOk s (recBody i .revoked ++ toLe 5 0)
        else match hdrCheck s with
          | some st => fail st 0
          | none =>
            if slice b 16 8 != mfgId s then fail stAuthFail 4
            else if rosterBusy s then fail stBusy 0
            else
              let same := slice b 88 96 == r.tpkEc && slice b 184 2592 == r.tpkMl
              cmdWait (pqAdd 2 (.revoke c (stateWord s) i same) (verifyJobs r.tpkEc r.tpkMl (b.take 2776) (slice b 2776 96) (slice b 2872 4627)) s))

/-- The revocation's signatures have been checked. -/
def revokeDone (c : HostCall) (word i : Nat) (same : Bool) (e : Nat) (ok : Bool) (s : State) : State :=
  let fail (st d : Nat) : State := answer c 0x204 word st d [] s
  if e ≠ 0 then fail stPkeError e
  else if !ok then fail stAuthFail 5
  else if !same then fail stAuthFail 0
  else if rosterBusy s then fail stBusy 0
  else flashSync (.revoke c word i) s

/-- A policy admits the package (R322): ASMMASK and MINSVN, MEMCTL_UC of S0 counting as 0. -/
def policyFits (p : Bytes) (s : State) : Bool :=
  let a := s.otp.asm
  decide (1 ≤ a) && decide (a ≤ 3) && bit (field p 2 1) (a - 1)
    && (List.range 4).all (fun c => decide (field p (4 + c) 1 ≤ (if c = 3 && isS0 s then 0 else nth 0 s.boot.runSvn c)))

/-- TENANT_STAGE (R322). -/
def tenantStageBody : HostCall → State → CmdRes := sized 8 (fun c s =>
  let fail (st : Nat) : CmdRes := cmdFail s st 0
  match tidIx (field c.payload 0 8) s with
  | none => fail stNotFound
  | some i =>
    match recS s i with
    | none => fail stNotFound
    | some r =>
      match r.state with
      | .revoked => fail stRevoked
      | .staged => cmdOk s (recBody i .staged ++ toLe 5 0)
      | .resident => fail stBadState
      | _ =>
        match hdrCheck s with
        | some st => fail st
        | none =>
          if !policyFits r.policy s then fail stPolicy
          else if rosterBusy s then fail stBusy
          else cmdWait (flashSync (.stage c (stateWord s) i) s))

/-- A record write of a command ends (R317): ST_FLASH_ERROR where it failed, and the old copy stands. -/
def recordSync (c : HostCall) (op word i : Nat) (ok : Bool) (done : State → State) (s : State) : State :=
  let p := sealedOk ok s
  if p.1 then done p.2 else answer c op word stFlashError 0 [] (sealFail i 2816 p.2)

/-- A record takes a new state, in SRAM and in flash. -/
def recSet (i : Nat) (st : RState) (s : State) : State :=
  let s := modRec i (fun r => { r with state := st }) s
  match recS s i with | some r => recCommit i r s | none => s

/-- The synchronous roster writes end (R317). -/
def rosterSync (f : FSync) (ok : Bool) (s : State) : State :=
  match f with
  | .enroll c word r =>
    let i := s.tn.ro.recs.length
    recordSync c 0x200 word i ok (fun s =>
      let s := recCommit i r { s with tn := { s.tn with ro := { s.tn.ro with recs := s.tn.ro.recs ++ [r] } } }
      answer c 0x200 word stOk 0 (recBody i .enrolled ++ toLe 5 0) s) s
  | .stage c word i =>
    recordSync c 0x201 word i ok (fun s => answer c 0x201 word stOk 0 (recBody i .staged ++ toLe 5 0) (recSet i .staged s)) s
  | .revoke c word i =>
    recordSync c 0x204 word i ok (fun s =>
      let was : Bool := match recS s i with | some r => r.state == .resident | none => false
      let s := answer c 0x204 word stOk 0 (recBody i .revoked ++ toLe 5 0) (recSet i .revoked s)
      if was then startSwitch 2 (bindsMove s) else s) s
  | _ => s

/-- The checks 2 to 7 of Table 14-6. -/
def loadCheck (r : TRec) (s : State) : Option Nat :=
  let pf := field r.policy 1 1
  let conf := s.pkg.mode == .confidential
  if s.upd.status = 5 || s.upd.status = 6 then some stBusy
  else match hdrCheck s with
    | some st => some st
    | none =>
      if 4 ≤ s.tn.pend.length then some stBusy
      else if !bit (field r.policy 0 1) (if conf then 0 else 1) then some stPolicy
      else if conf && !feat s 0 then some stNotNegotiated
      else if conf && !sessOpen s then some stNoKey
      else if (bit pf 1 && !feat s 2) || (bit pf 2 && !feat s 3) || (bit pf 3 && !feat s 7) || !policyFits r.policy s then some stPolicy
      else if 0xFFFFFFFF ≤ s.tn.ro.res then some stLimit
      else none

/-- Entry to LOADING (R323): the next epoch, an empty job window, program table and handle numbering. -/
def loadStart (i : Nat) (s : State) : State :=
  let l : Loading := { phase := LdPhase.entry, idx := i, waiting := coreUnits s }
  let s := { s with
    tn := { s.tn with ro := { s.tn.ro with res := s.tn.ro.res + 1 }, ld := l },
    mb := { s.mb with jobWin := [], jobFloor := 0 },
    jb := { s.jb with list := [], progs := [], nextProg := 1, order := 1, gridView := [] },
    wk := { s.wk with hs := [], next := 1, manifests := [] },
    idn := { s.idn with jobsDone := 0 },
    rc := { s.rc with seq := 1, archive := [] } }
  (coreUnits s).foldl (fun s u => unitCmd u (if u < 8 then 0x8001 else 0x8101) (toLe 8 (epochOf s)) s) (setState .loading 0 s)

/-- TENANT_LOAD (R323, Table 14-6). -/
def tenantLoadBody : HostCall → State → CmdRes := sized 8 (fun c s =>
  match tidIx (field c.payload 0 8) s with
  | none => cmdFail s stNotFound 0
  | some i =>
    match recS s i with
    | none => cmdFail s stNotFound 0
    | some r =>
      if s.pkg.st != .idle || r.state != .staged then cmdFail s stBadState 0
      else match loadCheck r s with
        | some st => cmdFail s st 0
        | none =>
          let s := loadStart i s
          ⟨s, some (stOk, 0, recBody i r.state ++ [0#8] ++ toLe 8 (epochOf s)), true⟩)

/-- Record digest of slot 16 (R330). -/
def recDigest (i : Nat) (r : TRec) (s : State) : Bytes :=
  Config.sha384 (toLe 8 r.tid ++ toLe 2 i ++ toLe 2 0 ++ toLe 8 (epochOf s) ++ Config.sha384 (r.tpkEc ++ r.tpkMl))

/-- Phase 2 of loading (R323, R324): epoch keys, their pushes, measurements, the record RESIDENT. -/
def loadKeys (s : State) : State :=
  let i := s.tn.ld.idx
  let ctx := s.boot.bootNonce ++ toLe 8 (epochOf s)
  let stk := stackTiles s
  let s := if stk.isEmpty then s else
    derive 3 "tc4/mem_tag/v1" ctx 32 17 512 false (derive 3 "tc4/mem_xts/v1" ctx 64 16 256 false s)
  let s := derive 3 "tc4/residence/v1" ctx 32 18 1 false s
  let keyed := !(slotS s 18).empty && (stk.isEmpty || (slotServes (slotS s 16) 8 && slotServes (slotS s 17) 9 && stk.all (fun t => unitUp s t)))
  if !keyed then loadFail 2 0xFF stNoKey s
  else
    let s := stk.foldl (fun s t => fwKpush 17 t 1 (fwKpush 16 t 0 s)) s
    match recS s i with
    | none => s
    | some r =>
      let s := msRecord 17 r.policy (msExtend 16 2 0 (recDigest i r s) s)
      let s := recQueue i (bindsMove (modRec i (fun r => { r with state := RState.resident }) s))
      let l : Loading := { phase := LdPhase.selftest, idx := i, waiting := List.range 8 }
      (List.range 8).foldl (fun s t => unitCmd t 0x8005 [] s) { s with tn := { s.tn with ld := l } }

/-- A unit has taken the epoch, and its acknowledgement has been taken. -/
def unitEntered (u : Nat) (s : State) : Bool :=
  (unitS s u).cmdOut.isNone &&
  if u < 8 then (tileJ s u).epoch == epochOf s else (pxS s (ordOfUnit s u)).epoch == epochOf s

/-- LOADING_UNIT_ACK (R323): the last acknowledgement leads to phase 2. -/
def loadAck (u : Nat) (s : State) : State :=
  if !(s.pkg.st == .loading && s.tn.ld.phase == .entry && decide (u ∈ s.tn.ld.waiting) && unitEntered u s) then s
  else
    let w := s.tn.ld.waiting.filter (· != u)
    let s := { s with tn := { s.tn with ld := { s.tn.ld with waiting := w } } }
    if w.isEmpty then loadKeys s else s

/-- LOADING_ACK_TIMEOUT (R323). -/
def loadTimeout (s : State) : State :=
  if s.pkg.st != .loading then s
  else match s.tn.ld.phase, s.tn.ld.waiting with
    | .entry, u :: _ => loadFail 1 u stUnitAbort s
    | .selftest, u :: _ => loadFail 3 u stUnitAbort s
    | _, _ => s

/-- LOADING_SELFTEST_PASS (R323): every tile has passed; the package enters ACTIVE. -/
def loadPass (s : State) : State :=
  if !(s.pkg.st == .loading && s.tn.ld.phase == .selftest && s.tn.ld.waiting.isEmpty) then s
  else
    let l : Loading := { s.tn.ld with phase := LdPhase.none }
    let s := { s with tn := { s.tn with ld := l }, jb := { s.jb with tiles := s.jb.tiles.map (fun (t : TileJ) => { t with eligible := true }) } }
    setState .active 0 s

/-- TENANT_EVICT (R260). -/
def tenantEvictBody : HostCall → State → CmdRes := sized 8 (fun c s =>
  match residentIx s with
  | some i =>
    if s.pkg.st != .active then cmdFail s stBadState 0
    else if (match recS s i with | some r => r.tid != field c.payload 0 8 | none => true) then cmdFail s stNotFound 0
    else ⟨startSwitch 1 s, some (stOk, 0, recBody i .resident ++ [0#8] ++ toLe 8 (epochOf s)), true⟩
  | none => cmdFail s (if s.pkg.st == .active then stNotFound else stBadState) 0)

/-- TENANT_STATUS (R260). -/
def tenantStatusBody : HostCall → State → CmdRes := sized 8 (fun c s =>
  let tid := field c.payload 0 8
  match (if tid = 0 then residentIx s else tidIx tid s) with
  | none => cmdFail s stNotFound 0
  | some i =>
    match recS s i with
    | none => cmdFail s stNotFound 0
    | some r => cmdOk s (recBody i r.state ++ [0#8] ++ toLe 8 (if r.state == .resident then epochOf s else r.lastEpoch) ++ toLe 4 r.switches))

/-- TENANT_LIST (R260). -/
def tenantListBody : HostCall → State → CmdRes := sized 8 (fun c s =>
  let p := c.payload
  let first := field p 0 2
  let n := field p 2 2
  if n = 0 || 256 < n || !allZero (slice p 4 4) then cmdFail s stMalformed 0
  else
    let l := ((List.zipIdx s.tn.ro.recs).drop first).take n
    cmdOk s (toLe 4 l.length ++ toLe 4 0 ++ l.flatMap (fun e => toLe 8 e.1.tid ++ recBody e.2 e.1.state ++ toLe 5 0)))

/-- TENANT_CLEAR_RECEIPT (R329): without FB_PQ_SIG the object ends after SIG_EC (R328). -/
def tenantReceiptBody : HostCall → State → CmdRes := sized 8 (fun c s =>
  let n := field c.payload 0 8
  let all := s.tn.ring ++ s.tn.pend
  match (if n = 0 then all.getLast? else all.find? (fun r => r.serial == n)) with
  | some r => cmdOk s (if feat s 3 then r.obj else r.obj.take 372)
  | none => cmdFail s stNotFound 0)

/-- PORT_ENTER (R323, R501): the die takes the epoch; in LOADING it also resets its streams and record-state table. -/
def portEnter (u epoch : Nat) (s : State) : State :=
  if s.pkg.st == .loading && s.tn.ld.phase == .entry then modPx (ordOfUnit s u) (fun x => { x with epoch := epoch, streams := [], recst := [] }) s
  else modPx (ordOfUnit s u) (fun x => { x with epoch := epoch }) s

/-- TENANT_ENROLL (R320). -/
def execTenantEnroll (c : HostCall) (s : State) : Res := .next (runCmd 0x200 tenantEnrollBody c s)
/-- TENANT_STAGE (R322). -/
def execTenantStage (c : HostCall) (s : State) : Res := .next (runCmd 0x201 tenantStageBody c s)
/-- TENANT_LOAD (R323). -/
def execTenantLoad (c : HostCall) (s : State) : Res := .next (runCmd 0x202 tenantLoadBody c s)
/-- TENANT_EVICT (R260). -/
def execTenantEvict (c : HostCall) (s : State) : Res := .next (runCmd 0x203 tenantEvictBody c s)
/-- TENANT_REVOKE (R321). -/
def execTenantRevoke (c : HostCall) (s : State) : Res := .next (runCmd 0x204 tenantRevokeBody c s)
/-- TENANT_STATUS (R260). -/
def execTenantStatus (c : HostCall) (s : State) : Res := .next (runCmd 0x205 tenantStatusBody c s)
/-- TENANT_LIST (R260). -/
def execTenantList (c : HostCall) (s : State) : Res := .next (runCmd 0x206 tenantListBody c s)
/-- TENANT_CLEAR_RECEIPT (R329). -/
def execTenantClearReceipt (c : HostCall) (s : State) : Res := .next (runCmd 0x207 tenantReceiptBody c s)
/-- LOADING_UNIT_ACK (R323). -/
def execLoadingUnitAck (u : Nat) (s : State) : Res := .next (loadAck u s)
/-- LOADING_ACK_TIMEOUT (R323). -/
def execLoadingAckTimeout (s : State) : Res := .next (loadTimeout s)
/-- LOADING_SELFTEST_PASS (R323). -/
def execLoadingSelftestPass (s : State) : Res := .next (loadPass s)
/-- SWITCH_HALT_DONE (R325). -/
def execSwitchHaltDone (s : State) : Res := .next (if drained s then switchHalted s else s)
/-- SWITCH_HALT_TIMEOUT (R325). -/
def execSwitchHaltTimeout (s : State) : Res := .next (switchHalted s)
/-- FLASH_WRITE_DONE (R317). -/
def execFlashWriteDone (ok : Bool) (s : State) : Res := .next (flashDone ok s)

end Sys2Proof.Machine
end

