-- ==== Sys2Proof/Machine/Links.lean ====
section
/-! DEFINITION. Linya links (chapter 20) and their routes (R534): training, flits and messages, map-out, job keys, and the
commands of Table 11-11. -/

namespace Sys2Proof.Machine

/-- Port die of ordinal `d` on its Linya side. -/
def ldS (s : State) (d : Nat) : LDie := nth {} s.ln.dies d
/-- A port carries flits. -/
def LState.carries (x : LState) : Bool := x == .up || x == .degraded

/-- A unit and port name a port of the assembly (R445). -/
def lportOk (s : State) (u p : Nat) : Bool := unitType s u == .port && decide (p < Config.kLinkPorts)

/-- Set a port's state, and trace it (Table 22-5 LINK_STATE). -/
def setLState (u p : Nat) (x : LState) (s : State) : State :=
  traceLink u p (modLport (ordOfUnit s u) p (fun y => { y with st := x }) s)

/-- The neighbour tag of a port: the first 8 bytes of HMAC-SHA-384 under slot 7 (R454). -/
def ownNtag (u p : Nat) (s : State) : Bytes :=
  (Config.hmac384 (slotS s 7).content (ascii "nbr" ++ toLe 1 u ++ toLe 1 p)).take 8

/-- A port trains (R454): its hello will carry its neighbour tag. -/
def trainStart (u p : Nat) (s : State) : State :=
  setLState u p .training (modLport (ordOfUnit s u) p (fun y => { y with hello := ownNtag u p s }) s)

/-- The BX-36 build a device address names (R531, R533): modules, and the torus width and height. -/
def buildOf (daddr : Nat) : Option (Nat × Nat × Nat) :=
  if daddr / 256 = 1 then some (128, 8, 16) else if daddr / 256 = 2 then some (72, 6, 12) else none

/-- Mask of a direction: 0 +x, 1 −x, 2 +y, 3 −y (Table 24-3). -/
def dirMask (dir : Nat) (s : State) : Nat :=
  if asmOf s == some .m8 then nth 0 [0x3F, 0xFC0, 0x3F000, 0xFC0000] dir
  else nth 0 [0xFFF, 0xFFF000, 0xFFF000000, 0xFFF000000000] dir

/-- Ports of a mask in a state that carries flits. -/
def maskPorts (m : Nat) (ok : LState → Bool) (s : State) : List Nat :=
  (List.range 48).filter (fun b => bit m b && ok (lportS s (b / 12) (b % 12)).st)

/-- A direction has a port UP or DEGRADED. -/
def dirLive (dir : Nat) (s : State) : Bool := !(maskPorts (dirMask dir s) LState.carries s).isEmpty

/-- The direction of one ring toward a distance (R534 steps 1 and 2); `base` is 0 for x and 2 for y. -/
def ringDir (base dist size : Nat) : Nat := if dist ≤ size / 2 then base else base + 1

/-- A ring's live direction toward a distance, or the opposite one (R534 step 3). -/
def ringLive (base dist size : Nat) (s : State) : Option Nat :=
  let a := ringDir base dist size
  let b := 2 * base + 1 - a
  if dist = 0 then none else if dirLive a s then some a else if dirLive b s then some b else none

/-- The direction toward module `m` from module `me` (R534). With no live direction the first choice of steps 1 and 2
stands (DEDUCED). -/
def routeDir (me m w h : Nat) (s : State) : Nat :=
  let dx := (m % w + w - me % w) % w
  let dy := (m / w + h - me / w) % h
  match ringLive 0 dx w s with
  | some d => d
  | none => match ringLive 2 dy h s with
    | some d => d
    | none => if dx ≠ 0 then ringDir 0 dx w else ringDir 2 dy h

/-- Recompute the route table (R534). -/
def routesSet (s : State) : State :=
  let own := s.ln.daddr
  match buildOf own with
  | none => { s with ln := { s.ln with routes := [] } }
  | some (n, w, h) =>
    if own % 256 = 0 || n < own % 256 then { s with ln := { s.ln with routes := [] } }
    else
      let me := own % 256 - 1
      { s with ln := { s.ln with routes := ((List.range n).filter (· != me)).map (fun m => (own / 256 * 256 + m + 1, dirMask (routeDir me m w h s) s)) } }

/-- MG_DADDR_SET takes effect (R446, R522, R534): an address that names no module of a build empties the table. -/
def daddrSet (a : Nat) (s : State) : State :=
  let old := s.ln.daddr
  let s := routesSet { s with ln := { s.ln with daddr := a } }
  match buildOf a with
  | some (n, _, _) => if a % 256 = 0 || n < a % 256 then logEvent 0x0601 0xFF (toLe 1 0 ++ toLe 2 old ++ toLe 2 0) s else s
  | none => logEvent 0x0601 0xFF (toLe 1 0 ++ toLe 2 old ++ toLe 2 0) s

/-- The jobs concerned by a port's unacknowledged flits end (R461), and its buffer is discarded. -/
def portDrop (d p : Nat) (s : State) : State :=
  let js := (lportS s d p).concerned
  let s := modLport d p (fun x => { x with replay := [], queue := [], jobs := [], resends := 0, asm := [], holding := false }) s
  jobsEnd .aborted stUnitAbort 0x20 js { s with ln := { s.ln with pins := s.ln.pins.filter (fun x => x.2 != 12 * d + p) } }

/-- A port is mapped out (R460, R461): electrical idle, no route, its buffer gone. -/
def mapOut (u p : Nat) (s : State) : State :=
  let d := ordOfUnit s u
  if !lportOk s u p || (lportS s d p).st == .mappedOut then s else routesSet (setLState u p .mappedOut (portDrop d p s))

/-- The warden learns of a map-out (R461) with the cause row of Table 20-7a: EV_LINK_MAPOUT and the link record. -/
def mapOutSeen (u p cause : Nat) (s : State) : State :=
  let d := ordOfUnit s u
  if !lportOk s u p || bit (nth 0 s.ln.mapout d) p then s
  else fqAdd .link (logEvent 0x0602 u (toLe 1 p ++ toLe 1 cause) { s with ln := { s.ln with mapout := modNth d (fun m => setBit m p true) s.ln.mapout } })

/-- PORT_FW of a unit runs: ports train (R454). -/
def portFwRuns (s : State) (u : Nat) : Bool :=
  unitType s u == .port && unitUp s u && (unitS s u).ustate == .up && s.pkg.st != .quarantine && s.pkg.st != .recovery && s.pkg.refLink

/-- LINK_SIGNAL_DETECT (R454). -/
def linkSignal (u p : Nat) (s : State) : State :=
  if lportOk s u p && portFwRuns s u && (lportS s (ordOfUnit s u) p).st == .down then trainStart u p s else s

/-- Flits enter the replay buffer with the next LSEQ while it has room for them (R456: 4,096), and leave on a port that carries
flits. The first LSEQ is 1, and ACK is 0 before a flit has come (DESIGN CHOICE, log entry 94). -/
def lportPump (x : LPort) : LPort :=
  if !x.st.carries then x
  else (x.queue.take (4096 - x.replay.length)).foldl (fun x f =>
    let seq := (x.txLseq + 1) % 65536
    let body := f.head ++ toLe 2 seq ++ slice f.payload 0 240
    { x with txLseq := seq, queue := x.queue.drop 1,
             jobs := (match f.job with | some j => x.jobs ++ [(j, seq)] | none => x.jobs),
             replay := x.replay ++ [body ++ toLe 4 (crc32c body) ++ toLe 2 x.rxLseq ++ [0x01#8, 0x00#8]] }) x

/-- Training and hello complete (R454): UP; a neighbour other than the last one is logged, routes see the port again, and the
flits that waited follow the held ones (R456). -/
def linkHello (u p daddr : Nat) (ntag : Bytes) (s : State) : State :=
  let d := ordOfUnit s u
  let x := lportS s d p
  if !(lportOk s u p && portFwRuns s u && x.st == .training) then s
  else
    let tag := slice ntag 0 8
    let s := modLport d p (fun y => { y with lanes := 4, attempts := 0, uncorr := 0, holding := false }) s
    let s := match lookupNat (12 * d + p) s.ln.nbrs with
      | some (old, oa) => if old != tag then logEvent 0x0601 u (toLe 1 p ++ toLe 2 oa ++ toLe 2 (daddr % 4096)) s else s
      | none => s
    let s := { s with ln := { s.ln with nbrs := putKey (12 * d + p) (tag, daddr % 4096) s.ln.nbrs } }
    routesSet (modLport d p lportPump (setLState u p .up s))

/-- A training attempt fails with signal on every lane (R460): the third in a row is a cause of a map-out. -/
def linkTrainFail (u p : Nat) (s : State) : State :=
  let d := ordOfUnit s u
  let x := lportS s d p
  if !(lportOk s u p && x.st == .training) then s
  else
    let s := modLport d p (fun y => { y with attempts := y.attempts + 1 }) s
    if 3 ≤ x.attempts + 1 then mapOut u p s else s

/-- Signal is lost (R456): flits are kept for t_hold. -/
def linkLost (u p : Nat) (s : State) : State :=
  let d := ordOfUnit s u
  let x := lportS s d p
  if !lportOk s u p || !(x.st.carries || x.st == .training) then s
  else traceLink u p (modLport d p LPort.leave s)

/-- t_hold expires with the port still down (R456). -/
def linkHoldEnd (u p : Nat) (s : State) : State :=
  let d := ordOfUnit s u
  let x := lportS s d p
  if !lportOk s u p || !x.holding || x.st.carries then s else portDrop d p s

/-- The port a flow takes (R449): the one it keeps, else one of the route's UP ports, else of its DEGRADED ones; which of
several is a free value (log entry 1). -/
def flowPort (key mask : Nat) (s : State) : Option Nat × State :=
  let keep := match lookupNat key s.ln.pins with
    | some b => let x := lportS s (b / 12) (b % 12)
                if x.st.carries || x.holding then some b else none
    | none => none
  match keep with
  | some b => (some b, s)
  | none =>
    let ups := maskPorts mask (· == .up) s
    let l := if ups.isEmpty then maskPorts mask (· == .degraded) s else ups
    match l with
    | [] => (none, s)
    | a :: _ =>
      let b := nth a l (Config.freeNat s.draws % l.length)
      (some b, { s with draws := s.draws + 1, ln := { s.ln with pins := putKey key b s.ln.pins } })

/-- A flit (Table 20-2) without its hop fields. -/
def flitHead (daddr saddr ftype key : Nat) : Bytes := toLe 2 daddr ++ toLe 2 saddr ++ toLe 1 ftype ++ toLe 1 key

/-- Send a flit on a port, behind those that wait (R449, R456); `job` names the message it ends. -/
def flitSend (b : Nat) (head payload : Bytes) (job : Option Nat) (s : State) : State :=
  modLport (b / 12) (b % 12) (fun x => lportPump { x with queue := x.queue ++ [⟨head, payload, job⟩] }) s

/-- Split a message stream into flit payloads of 240 bytes. -/
def flitParts (m : Bytes) : List Bytes := (List.range ((m.length + 239) / 240)).map (fun i => (m.drop (240 * i)).take 240)

/-- Type of flit `i` of `n`. -/
def flitType (i n : Nat) : Nat := if n = 1 then 4 else if i = 0 then 1 else if i + 1 = n then 3 else 2

/-- Count flits without a route. -/
def noRoute (d n : Nat) (s : State) : State := modLd d (fun x => { x with noroute := min (x.noroute + n) 0xFFFFFFFF }) s

/-- Count messages dropped under R453. -/
def plainDrop (d : Nat) (s : State) : State := modLd d (fun x => { x with plain := min (x.plain + 1) 0xFFFFFFFF }) s

/-- A message header (R448). -/
def msgHead (job mseq len chan daddr saddr : Nat) : Bytes :=
  toLe 8 job ++ toLe 8 mseq ++ toLe 4 len ++ toLe 2 chan ++ toLe 2 daddr ++ toLe 2 saddr ++ toLe 6 0

/-- IV of a message (R452). -/
def msgIv (job mseq : Nat) : Bytes := toLe 4 job ++ toLe 8 mseq

/-- Transmit or receive key of an entry (R450). -/
def linkKey (s : State) (u n : Nat) (swap tx : Bool) : Option Bytes :=
  (portKey s u (0x80 + n)).map (fun k => if swap == tx then slice k 32 32 else slice k 0 32)

/-- Update entry `n` on every port die: its counters advance for the package (R450, DEDUCED). -/
def modLke (n : Nat) (f : LKey → LKey) (s : State) : State :=
  { s with ln := { s.ln with dies := s.ln.dies.map (fun (x : LDie) => { x with lke := modNth n f x.lke }) } }

/-- Send a message stream on the flow's port (R449). -/
def msgSend (d key daddr job : Nat) (msg : Bytes) (s : State) : State :=
  let parts := flitParts msg
  let own := s.ln.daddr
  let r := flowPort (4096 * own + daddr) ((lookupNat daddr s.ln.routes).getD 0) s
  match r.1 with
  | none => noRoute d parts.length r.2
  | some b =>
    (List.zipIdx parts).foldl (fun s x => flitSend b (flitHead daddr own (flitType x.2 parts.length) key) x.1
      (if x.2 + 1 = parts.length then some job else none) s) r.2

/-- A tile program sends a message (R448, R452, R453). -/
def linkSend (x : SendIn) (s : State) : State :=
  let d := ordOfUnit s x.u
  let running := match jobS s x.job with | some j => j.st == .running | none => false
  let own := s.ln.daddr
  let da := x.daddr % 4096
  if unitType s x.u != .port || !unitUp s x.u || !running || own = 0 || x.body.isEmpty || 65536 < x.body.length then s
  else if !x.enc then
    (if (pxS s d).conf then plainDrop d s
     else msgSend d (x.entry % 64) da x.job (msgHead x.job 0 x.body.length x.chan da own ++ x.body) s)
  else
    let n := x.entry % 64
    let e := nth ({} : LKey) (ldS s d).lke n
    match linkKey s x.u n e.swap true with
    | none => s
    | some k =>
      if !e.valid || e.job ≠ x.job || 0xFFFFFFFF ≤ e.txseq then s
      else
        let q := e.txseq + 1
        let h := msgHead x.job q x.body.length x.chan da own
        let ct := (List.range (x.body.length + 16)).map (Config.gcmByte true k (msgIv x.job q) h x.body)
        msgSend d (n + 128) da x.job (h ++ ct) (modLke n (fun e => { e with txseq := q }) s)

/-- A complete message has arrived (R452, R453, R461). -/
def msgRecv (u key : Nat) (m : Bytes) (s : State) : State :=
  let d := ordOfUnit s u
  let job := field m 0 8
  let mseq := field m 8 8
  let len := field m 16 4
  let chan := field m 20 2
  let enc := bit key 7
  if len = 0 || 65536 < len || m.length < 32 + len + (if enc then 16 else 0) then s
  else if !enc then
    (if (pxS s d).conf then plainDrop d s else { s with ln := { s.ln with recv := (job, chan, slice m 32 len) :: s.ln.recv } })
  else
    match (List.zipIdx (ldS s d).lke).find? (fun e => e.1.valid && e.1.job == job && e.1.peer == field m 24 2 % 4096) with
    | none => plainDrop d s
    | some (e, n) =>
      match linkKey s u n e.swap false with
      | none => plainDrop d s
      | some k =>
        let h := slice m 0 32
        let ct := slice m 32 len
        if mseq ≠ e.rxseq + 1 then jobEnd .aborted stIntegrity 0x21 job s
        else if !Config.gcmOk k (msgIv job mseq) h ct (slice m (32 + len) 16) then s
        else
          let s := modLke n (fun e => { e with rxseq := mseq }) s
          { s with ln := { s.ln with recv := (job, chan, (List.range len).map (Config.gcmByte false k (msgIv job mseq) h ct)) :: s.ln.recv } }

/-- The partner has received every flit up to `a` in order (R447, R456): they leave the buffer, and waiting ones enter it. -/
def flitAck (a : Nat) (x : LPort) : LPort :=
  if x.replay.any (fun f => field f 6 2 == a) then
    let gone := a :: (x.replay.takeWhile (fun f => field f 6 2 != a)).map (fun f => field f 6 2)
    lportPump { x with replay := (x.replay.dropWhile (fun f => field f 6 2 != a)).tail, resends := 0,
                       jobs := x.jobs.filter (fun j => !decide (j.2 ∈ gone)) }
  else x

/-- A flit arrives (R447 to R449): CRC, acknowledgement, order, then forwarding or assembly. A control flit takes no LSEQ
(DEDUCED). -/
def flitRecv (u p : Nat) (f : Bytes) (s : State) : State :=
  let d := ordOfUnit s u
  if !lportOk s u p || !(lportS s d p).st.carries || f.length ≠ 256 || field f 248 4 ≠ crc32c (f.take 248) then s
  else
    let s := if bit (field f 254 1) 0 then modLport d p (flitAck (field f 252 2)) s else s
    let t := field f 4 1 % 16
    if t = 8 || field f 6 2 ≠ ((lportS s d p).rxLseq + 1) % 65536 then s
    else
      let s := modLport d p (fun x => { x with rxLseq := field f 6 2 }) s
      let da := field f 0 2 % 4096
      let own := s.ln.daddr
      if own = 0 then s
      else if da ≠ own then
        let r := flowPort (4096 * (field f 2 2 % 4096) + da) ((lookupNat da s.ln.routes).getD 0) s
        match r.1 with
        | none => noRoute d 1 r.2
        | some b => flitSend b (f.take 6) (slice f 8 240) none r.2
      else
        let pl := slice f 8 240
        let key := field f 5 1
        if t = 4 then msgRecv u key pl s
        else if t = 1 then modLport d p (fun x => { x with asm := pl }) s
        else if t = 2 then modLport d p (fun x => { x with asm := x.asm ++ pl }) s
        else if t = 3 then
          let m := (lportS s d p).asm ++ pl
          msgRecv u key m (modLport d p (fun x => { x with asm := [] }) s)
        else s

/-- 2 µs without acknowledgement of the oldest flit (R456, R460): it and every later one are resent; after eight resends the
port is mapped out. -/
def ackTimeout (u p : Nat) (s : State) : State :=
  let d := ordOfUnit s u
  let x := lportS s d p
  if !lportOk s u p || !x.st.carries || x.replay.isEmpty then s
  else if 8 ≤ x.resends then mapOut u p s
  else modLport d p (fun x => { x with resends := x.resends + 1 }) s

/-- A DEGRADED cause appears (R460). -/
def linkDegrade (u p : Nat) (s : State) : State :=
  if lportOk s u p && (lportS s (ordOfUnit s u) p).st == .up then setLState u p .degraded s else s

/-- The DEGRADED cause goes away within 10 s. -/
def linkRecover (u p : Nat) (s : State) : State :=
  if lportOk s u p && (lportS s (ordOfUnit s u) p).st == .degraded then setLState u p .up s else s

/-- PD_LPCTL.RETRAIN (Table 20-7): a carrying port retrains as after a loss of signal. -/
def linkRetrain (u p : Nat) (s : State) : State :=
  let d := ordOfUnit s u
  let x := lportS s d p
  if !lportOk s u p || !portFwRuns s u || x.st == .mappedOut then s
  else trainStart u p (modLport d p (fun y => { y with lanes := 0, holding := y.holding || x.st.carries }) s)

/-- Clamp a value to a hardware range. -/
def clampTo (lo hi v : Nat) : Nat := max lo (min hi v)

/-- Bounds clamped to the hardware ranges of Table 20-3 (R455). -/
def clampBounds (b : Bytes) : Bytes :=
  let f (i lo hi : Nat) : Bytes := toLe 1 (clampTo lo hi (field b i 1))
  f 0 0 40 ++ f 1 0 40 ++ f 2 0 32 ++ f 3 0 32 ++ f 4 0 48 ++ f 5 50 100 ++ toLe 2 (clampTo 0x0A00 0x1800 (field b 6 2)) ++ f 8 1 99 ++ f 9 3 8 ++ f 10 0 255 ++ [0x00#8]

/-- LINK_CFG at a port controller (R455): the bounds, clamped. -/
def linkCfg (u p : Nat) (b : Bytes) (s : State) : State :=
  if lportOk s u p then modLport (ordOfUnit s u) p (fun x => { x with bounds := clampBounds b }) s else s

/-- A port controller has acknowledged LINK_CFG for a port: the LINK_BOUNDS that waits for it is answered. -/
def cfgAcked (u p : Nat) (b : Bytes) (s : State) : State :=
  let mine (w : UnitWait) : Bool := w.u == u && w.op == 0x603 && w.arg == p && (match w.call with | some (c, _) => slice c.payload 4 12 == slice b 0 12 | none => true)
  (s.uw.filter mine).foldl (fun s w => match w.call with | some (c, word) => answer c 0x603 word stOk 0 [] s | none => s) { s with uw := s.uw.filter (fun w => !mine w) }

/-- LINK_CFG to a port controller (Table 20-9). -/
def cfgSend (u p : Nat) (b : Bytes) (s : State) : State := unitCmd u 0x8102 (toLe 1 p ++ toLe 3 0 ++ slice b 0 12) s

/-- A restarted port controller is set up again (R501 step 3): PORT_ENTER, LINK_CFG for every port, LINK_TRAIN. -/
def restorePort (u : Nat) (s : State) : State :=
  let s := unitCmd u 0x8101 (toLe 8 (epochOf s)) s
  let s := (List.range 12).foldl (fun s p => cfgSend u p (lportS s (ordOfUnit s u) p).bounds s) s
  unitCmd u 0x8103 (toLe 2 0xFFF ++ toLe 2 0) (trace 13 u 3 (unitS s u).gen.toNat s)

/-- LINK_TRAIN at a port controller (R454). -/
def linkTrain (u mask : Nat) (s : State) : State :=
  if !portFwRuns s u then s
  else (List.range 12).foldl (fun s p => if bit mask p && (lportS s (ordOfUnit s u) p).st == .down then trainStart u p s else s) s

/-- LINK_STATUS (R264): relayed to a port controller that is UP; otherwise the warden's view with DETAIL 0x0001 (R246). -/
def linkStatusBody : HostCall → State → CmdRes := sized 4 (fun c s =>
  let u := field c.payload 0 1
  if unitType s u != .port || !allZero (slice c.payload 1 3) then cmdFail s stMalformed 0
  else if (unitS s u).ustate == .up then cmdWait (unitCmd u 0x8104 [] (unitSend u 0x600 (some (c, stateWord s)) 0 s))
  else ⟨s, some (stOk, 1, linkBody u s), false⟩)

/-- LINK_JOB_END (R459): ENTRIES counts the key ports cleared. -/
def linkJobEndBody : HostCall → State → CmdRes := sized 8 (fun c s =>
  let j := field c.payload 0 8
  let n := (s.ln.inst.filter (fun p => p.job == j)).length * (portUnits s).length
  cmdOk (linkJobEnd j s) (toLe 4 n ++ toLe 4 0))

/-- LINK_BOUNDS (R455): one LINK_CFG for each port named, the last of which answers the command. -/
def linkBoundsBody : HostCall → State → CmdRes := sized 16 (fun c s =>
  let u := field c.payload 0 1
  let p := field c.payload 1 1
  if unitType s u != .port || !(decide (p < 12) || p == 0xFF) || !allZero (slice c.payload 2 2) || !allZero (slice c.payload 15 1) then cmdFail s stMalformed 0
  else if (unitS s u).ustate != .up then cmdFail s stUnitAbort 0
  else if p = 0xFF then
    cmdWait ((List.range 12).foldl (fun s k => cfgSend u k (slice c.payload 4 12) s) (unitSend u 0x603 (some (c, stateWord s)) 11 s))
  else cmdWait (cfgSend u p (slice c.payload 4 12) (unitSend u 0x603 (some (c, stateWord s)) p s)))

/-- The link identity digest of the package (R451). -/
def ownLid (s : State) : Bytes := Config.sha384 (identQ s ++ identPk s)

/-- Entries of a bound manifest. -/
def boundManifest (mdig : Bytes) (s : State) : Option (List Bytes) := (s.wk.manifests.find? (fun m => m.1 == mdig)).map (fun m => m.2)

/-- A free link key entry: the lowest one neither installed nor promised to a pending exchange. -/
def freeLke (s : State) : Option Nat :=
  (List.range 64).find? (fun n => !(nth ({} : LKey) (ldS s 0).lke n).valid && !s.ln.pend.any (fun p => p.entry == n) && !s.ln.inst.any (fun p => p.entry == n))

/-- A free slot of 32 to 55: the lowest one neither used nor reserved by a pending exchange. -/
def freeLinkSlot (s : State) : Option Nat :=
  ((List.range 24).map (· + 32)).find? (fun i => (slotS s i).empty && !s.ln.pend.any (fun p => p.slot == i))

/-- The peer's LID and SKD from a link stage. -/
def peerLid (b : Bytes) : Bytes := Config.sha384 (slice b 72 2688)
/-- SKD of the peer (R339) under the UEID its Q gives. -/
def peerSkd (b : Bytes) : Bytes := Config.sha384 ([0x01#8] ++ (Config.sha384 (slice b 72 96)).take 32 ++ slice b 2760 1664)

/-- The part of INIT or RESP that its signatures cover. -/
def keyxHead (magic job serial : Nat) (mdig a b tail : Bytes) : Bytes :=
  toLe 4 magic ++ toLe 2 1 ++ toLe 2 0 ++ toLe 8 job ++ toLe 8 serial ++ mdig ++ a ++ b ++ tail

/-- Check 8 of Table 20-6 on the message the stage carries. -/
def keyxMsgOk (job : Nat) (b : Bytes) (s : State) : Bool :=
  let m := b.drop 4424
  let step := field b 6 1
  let head := field m 4 2 == 1 && allZero (slice m 6 2) && field m 8 8 == job && slice m 24 48 == slice b 24 48
    && slice m 72 48 == peerLid b && slice m 120 48 == ownLid s
  if step = 1 then true
  else if step = 2 then field m 0 4 == 0x494B4C54 && head
  else field m 0 4 == 0x524B4C54 && head && (match s.ln.pend.find? (fun p => p.job == job && p.peerLid == peerLid b) with
    | some p => slice m 168 48 == Config.sha384 p.init
    | none => false)

/-- LINK_KEYX (R458, Table 20-6). -/
def linkKeyxBody : HostCall → State → CmdRes := staged 32 8 (fun b c s =>
  let job := field c.payload 0 8
  let step := field b 6 1
  let lid := peerLid b
  let fail (st n : Nat) : CmdRes := cmdFail s st n
  let low := bytesLt (ownLid s) lid
  let st := match jobS s job with | some j => j.st == .queued || j.st == .parked | none => true
  if field b 0 4 ≠ 0x4B4E4C54 || field b 4 2 ≠ 1 || !allZero (slice b 7 1) || !allZero (slice b 10 6) || 4096 ≤ field b 8 2
      || !(step = 1 && b.length = 4424 && low || step = 2 && b.length = 10883 && !low || step = 3 && b.length = 9363 && low) then fail stMalformed 1
  else if !st then fail stBadState 2
  else if s.ln.inst.any (fun p => p.job == job && p.peerLid == lid) then fail stExists 3
  else if step = 1 && s.ln.pend.any (fun p => p.job == job && p.peerLid == lid) then fail stExists 1
  else if step ≠ 3 && !serialCurrent (field b 16 8) s then fail stNotBindable 4
  else if !slotServes (slotS s 60) 4 || !slotServes (slotS s 61) 4 then fail stNoKey 5
  else match boundManifest (slice b 24 48) s with
    | none => fail stNoKey 5
    | some es =>
      if !decide (lid ∈ es) || !decide (peerSkd b ∈ es) then fail stAuthFail 6
      else if (step ≠ 3 && (freeLke s).isNone) || (step = 1 && (freeLinkSlot s).isNone) then fail stLimit 7
      else if !keyxMsgOk job b s then fail stAuthFail 8
      else
        let m := b.drop 4424
        let n := if step = 2 then 1736 else 216
        if step = 1 then
          let p : KeyxPend := ⟨job, (freeLinkSlot s).getD 32, (freeLke s).getD 0, field b 8 2, lid, []⟩
          let s := { s with ln := { s.ln with pend := s.ln.pend ++ [p] } }
          cmdWait (pqAdd 1 (.keyx c (stateWord s) 1 b) [⟨0x21, [slice b 2760 1568], none, some 56, 2⟩] s)
        else cmdWait (pqAdd 1 (.keyx c (stateWord s) step b) (verifyJobs (slice b 72 96) (slice b 168 2592) (m.take n) (slice m n 96) (slice m (n + 96) 4627)) s))

/-- Push the job key of an exchange to its entry of every port die, set the metadata, and measure the peer once in a
residence (R450, R458). -/
def keyxInstall (p : KeyxPend) (swap : Bool) (s : State) : State :=
  let s := (portUnits s).foldl (fun s u => fwKpush p.slot u (0x80 + p.entry) s) s
  let s := modLke p.entry (fun _ => { valid := true, swap := swap, peer := p.daddr, job := p.job, txseq := 0, rxseq := 0 }) s
  let i : KeyxInst := ⟨p.job, p.peerLid, p.entry⟩
  let s := { s with ln := { s.ln with inst := s.ln.inst ++ [i] } }
  if p.peerLid ∈ s.ln.measured then s else msRecord 20 p.peerLid { s with ln := { s.ln with measured := s.ln.measured ++ [p.peerLid] } }

/-- Every port die took the key of an entry. -/
def keyxPushed (n : Nat) (s : State) : Bool := (portUnits s).all (fun u => (portKey s u (0x80 + n)).isSome)

/-- An installed entry ends by itself (R459). -/
def keyxEnd (p : KeyxPend) (s : State) : State :=
  let s := lkeEnd p.entry s
  { s with ln := { s.ln with inst := s.ln.inst.filter (fun i => i.entry != p.entry) } }

/-- Context of the job key (R451). -/
def keyxCtx (job : Nat) (lid : Bytes) (s : State) : Bytes :=
  let o := ownLid s
  toLe 8 job ++ (if bytesLt o lid then o ++ lid else lid ++ o)

/-- Both shared secrets as one key (R118). -/
def dualKey (s : State) : Bytes := (slotS s 56).content ++ (slotS s 57).content

/-- A pending exchange ends (R459). -/
def keyxDrop (p : KeyxPend) (s : State) : State := zeroSlot p.slot false { s with ln := { s.ln with pend := s.ln.pend.filter (fun q => q != p) } }

/-- The ECDH of slot 61 with the peer's QS into slot 57, an entry of its own (Table 6-6). -/
def keyxEcdh (b : Bytes) : List PkJobD := [⟨0x11, [ecWire2 (slice b 4328 96)], some 61, some 57, 2⟩]

/-- Steps 2 and 3 end with the key installed and its slot zeroed (Table 20-5). A port die that refuses the push (R124) ends the
entry, with ST_UNIT_ABORT (DESIGN CHOICE, log entry 94). -/
def keyxFinish (c : HostCall) (word : Nat) (p : KeyxPend) (swap : Bool) (body : Bytes) (s : State) : State :=
  let s := keyxDrop p (keyxInstall p swap s)
  if keyxPushed p.entry s then answer c 0x601 word stOk p.entry body s
  else answer c 0x601 word stUnitAbort 0 [] (keyxEnd p s)

/-- An entry of LINK_KEYX has ended (R458, Table 6-6). `step` is 1, 2 or 3 for the first entry of that step, 20 for
MLKEM_DECAPS, 12 and 21 for the ECDH, 11 and 22 for the signatures of steps 1 and 2; `r` holds the results of its jobs, `e`
the ECODE that ended it. A next entry that does not fit ends the command with ST_BUSY (R152). -/
def keyxDone (c : HostCall) (word step : Nat) (b : Bytes) (e : Nat) (ok : Bool) (r : List Bytes) (s : State) : State :=
  let job := field c.payload 0 8
  let lid := peerLid b
  let da := field b 8 2
  let pend := s.ln.pend.find? (fun p => p.job == job && p.peerLid == lid)
  let fail (st n : Nat) (s : State) : State :=
    answer c 0x601 word st n [] (zeroSlots [56, 57] (match pend with
      | some p => if step ∈ [1, 12, 11, 22] then keyxDrop p s else s
      | none => s))
  if e ≠ 0 then fail stPkeError 10 s
  else if step = 1 then
    (if !pqRoom 1 s then fail stBusy 0 s else pqAdd 1 (.keyx c word 12 (b ++ slice (nth [] r 0) 0 1568)) (keyxEcdh b) s)
  else if step = 12 then
    match pend with
    | none => fail stBadState 2 s
    | some p =>
      if !pqRoom 2 s then fail stBusy 0 s else
      let s := zeroSlots [56, 57] (commitSlot p.slot (kdf (dualKey s) "tc4/link/v1" (keyxCtx job lid s) 64) 2 4096 false s)
      let init := keyxHead 0x494B4C54 job (field b 16 8) (slice b 24 48) (ownLid s) lid (b.drop 4424)
      let q : KeyxPend := { p with init := init }
      let s := { s with ln := { s.ln with pend := s.ln.pend.map (fun x => if x = p then q else x) } }
      pqAdd 1 (.keyx c word 11 b) (signJobs s init) s
  else if step = 11 then
    match pend with
    | none => fail stBadState 2 s
    | some p =>
      let q : KeyxPend := { p with init := p.init ++ slice (nth [] r 0) 0 96 ++ slice (nth [] r 1) 0 4627 }
      answer c 0x601 word stOk 0 q.init { s with ln := { s.ln with pend := s.ln.pend.map (fun x => if x = p then q else x) } }
  else if step = 2 then
    if !ok then fail stAuthFail 9 s
    else if !pqRoom 1 s then fail stBusy 0 s
    else pqAdd 1 (.keyx c word 20 b) [⟨0x22, [slice b (4424 + 168) 1568], some 60, some 56, 2⟩] s
  else if step = 20 then
    (if !pqRoom 1 s then fail stBusy 0 s else pqAdd 1 (.keyx c word 21 b) (keyxEcdh b) s)
  else if step = 21 then
    match freeLinkSlot s, freeLke s with
    | some i, some n =>
      if pend.isSome || s.ln.inst.any (fun i => i.job == job && i.peerLid == lid) then answer c 0x601 word stExists 3 [] (zeroSlots [56, 57] s)
      else if !pqRoom 2 s then fail stBusy 0 s else
      let s := zeroSlots [56, 57] (commitSlot i (kdf (dualKey s) "tc4/link/v1" (keyxCtx job lid s) 64) 2 4096 false s)
      let p : KeyxPend := ⟨job, i, n, da, lid, []⟩
      let s := { s with ln := { s.ln with pend := s.ln.pend ++ [p] } }
      let resp := keyxHead 0x524B4C54 job (field b 16 8) (slice b 24 48) (ownLid s) lid (Config.sha384 (b.drop 4424))
      pqAdd 1 (.keyx c word 22 (b ++ resp)) (signJobs s resp) s
    | _, _ => fail stLimit 7 s
  else if step = 22 then
    match pend with
    | some p => keyxFinish c word p true (b.drop 10883 ++ slice (nth [] r 0) 0 96 ++ slice (nth [] r 1) 0 4627) s
    | none => fail stBadState 2 s
  else
    match pend with
    | none => fail stAuthFail 8 s
    | some p =>
      if !ok then fail stAuthFail 9 s
      else keyxFinish c word p false [] s

/-- A pending step 1 is 10 s old (R459). -/
def keyxTimeout (job : Nat) (s : State) : State := (s.ln.pend.filter (fun p => p.job == job)).foldl (fun s p => keyxDrop p s) s

/-- LINK_CLEAR (R463, Table 20-8): its own fields, then the token's checks in the order of R252; the nonce ends when they
begin. -/
def linkClearBody : HostCall → State → CmdRes := staged 32 8 (fun b c s =>
  let u := field c.payload 0 1
  let p := field c.payload 1 1
  let n := s.idn.nonce
  let t := { s with idn := { s.idn with nonce := none } }
  let fail (st d : Nat) : CmdRes := cmdFail t st d
  if !lportOk s u p || !allZero (slice c.payload 2 6) then cmdFail s stMalformed 0
  else if b.length ≠ 7475 || field b 0 4 ≠ 0x544E4D54 || field b 4 2 ≠ 1 || !allZero (slice b 7 1) || !allZero (slice b 10 6) || !allZero (slice b 56 8)
      || 4096 ≤ field b 8 2 then fail stMalformed 1
  else if field b 6 1 ≠ u || !bit (field b 8 2) p then fail stAuthFail 2
  else if slice b 16 8 != mfgId s then fail stAuthFail 3
  else if n != some (slice b 24 32) then fail stAuthFail 4
  else if allZero s.ln.rak || s.ln.rak.isEmpty || Config.sha384 (slice b 64 2688) != s.ln.rak then fail stAuthFail 5
  else cmdWait (pqAdd 2 (.linkClear c (stateWord s) u p)
    (verifyJobs (slice b 64 96) (slice b 160 2592) (b.take 2752) (slice b 2752 96) (slice b 2848 4627)) t))

/-- The maintenance token has been verified (R463): the port is back in service and trains at once. -/
def linkClearDone (c : HostCall) (word u p e : Nat) (ok : Bool) (s : State) : State :=
  if e ≠ 0 then answer c 0x604 word stPkeError e (toLe 4 0) s
  else if !ok then answer c 0x604 word stAuthFail 6 (toLe 4 0) s
  else
    let d := ordOfUnit s u
    let s := if (lportS s d p).st != .mappedOut then s
      else
        let s := { s with ln := { s.ln with mapout := modNth d (fun m => setBit m p false) s.ln.mapout } }
        let s := modLport d p (fun x => { x with attempts := 0, uncorr := 0, lanes := 0 }) s
        fqAdd .link (routesSet (unitCmd u 0x8103 (toLe 2 (2 ^ p) ++ toLe 2 0) (if portFwRuns s u then trainStart u p s else setLState u p .down s)))
    answer c 0x604 word stOk 0 (toLe 1 (lportS s d p).st.code ++ toLe 3 0) s

/-- LINK_STATUS (R264). -/
def execLinkStatus (c : HostCall) (s : State) : Res := .next (runCmd 0x600 linkStatusBody c s)
/-- LINK_KEYX (R458). -/
def execLinkKeyx (c : HostCall) (s : State) : Res := .next (runCmd 0x601 linkKeyxBody c s)
/-- LINK_JOB_END (R459). -/
def execLinkJobEnd (c : HostCall) (s : State) : Res := .next (runCmd 0x602 linkJobEndBody c s)
/-- LINK_BOUNDS (R455). -/
def execLinkBounds (c : HostCall) (s : State) : Res := .next (runCmd 0x603 linkBoundsBody c s)
/-- LINK_CLEAR (R463). -/
def execLinkClear (c : HostCall) (s : State) : Res := .next (runCmd 0x604 linkClearBody c s)
/-- LINK_SIGNAL_DETECT (R454). -/
def execLinkSignalDetect (u p : Nat) (s : State) : Res := .next (linkSignal u p s)
/-- LINK_HELLO_COMPLETE (R454). -/
def execLinkHelloComplete (u p daddr : Nat) (ntag : Bytes) (s : State) : Res := .next (linkHello u p daddr ntag s)
/-- LINK_SIGNAL_LOST (R456). -/
def execLinkSignalLost (u p : Nat) (s : State) : Res := .next (linkLost u p s)
/-- LINK_HOLD_EXPIRY (R456). -/
def execLinkHoldExpiry (u p : Nat) (s : State) : Res := .next (linkHoldEnd u p s)
/-- FLIT_RECEIVED (R447). -/
def execFlitReceived (u p : Nat) (flit : Bytes) (s : State) : Res := .next (flitRecv u p flit s)
/-- LINK_MESSAGE_SEND (R448). -/
def execLinkMessageSend (x : SendIn) (s : State) : Res := .next (linkSend x s)
/-- LINK_DEGRADED (R460). -/
def execLinkDegraded (u p : Nat) (s : State) : Res := .next (linkDegrade u p s)
/-- LINK_DEGRADED_RECOVERY (R460). -/
def execLinkDegradedRecovery (u p : Nat) (s : State) : Res := .next (linkRecover u p s)
/-- LINK_RETRAIN_WRITE (R464). -/
def execLinkRetrainWrite (u p : Nat) (s : State) : Res := .next (linkRetrain u p s)
/-- KEYX_PENDING_TIMEOUT (R459). -/
def execKeyxPendingTimeout (job : Nat) (s : State) : Res := .next (keyxTimeout job s)

end Sys2Proof.Machine
end

