-- ==== Sys2Proof/Machine/Power.lean ====
section
/-! DEFINITION. Power, thermal and safety (chapter 21): hardware loops, brake, power cap loop, telemetry page and the
power commands of Table 11-12. -/

namespace Sys2Proof.Machine

/-- BRAKE_N is asserted, or the brake is held after it (R481). -/
def brakeOn (s : State) : Bool := s.pw.brakeForce || (!s.pw.brakeN && s.pkg.tilePg)

/-- f_brk (R472, R481). -/
def fBrk (s : State) : Nat := if brakeOn s then 400 else s.pw.fbrk

/-- TCLK of a tile in MHz (R472). -/
def tileClk (s : State) (t : Nat) : Nat :=
  let x := tileP s t
  max 400 (min (min x.freq x.favs) (min x.fthr (fBrk s)))

/-- Tile clocks can run: a state with main rails, and the tile rail good. -/
def clocksRun (s : State) : Bool := s.pkg.st.main && s.pkg.tilePg

/-- A comparator stops a tile's clock (R475): no firmware starts it again (R25), and HBAGE holds at zero (R73). -/
def clkHalt (t : Nat) (s : State) : State :=
  modUnit t (fun x => { x with clkStop := true, hbAge := 0 }) (modTileP t (fun x => { x with tripped := true }) s)

/-- The MAC arrays issue on at most one TCLK in two (R481): while the brake is in force, and on the ramp up to 0.80 GHz. -/
def issueLimited (s : State) : Bool := brakeOn s || s.pw.issueHalf

/-- The largest difference of a sensor pair at a conversion, tenths of a degree: a free value (log entry 1). -/
def pairReading (t : Nat) (s : State) : State :=
  let d := Config.freeNat s.draws % 2560
  modTileP t (fun x => { x with pairDiff := d }) { s with draws := s.draws + 1 }

/-- Shutdown of a tile by its Tj (R475, R486): clock stop, TJSD, clock stops of every tile, QUARANTINE 0x09. -/
def tjTrip (t : Nat) (s : State) : State :=
  if 8 ≤ t || !s.pkg.tilePg then s
  else quarantine 9 (stopTiles (setAlarm t (clkHalt t s)))

/-- The VCORE comparator (R475): clock stop, tile rail enable low until a warden reset, VMAX, QUARANTINE 0x0A. -/
def vcoreTrip (t : Nat) (s : State) : State :=
  if 8 ≤ t || !s.pkg.tilePg then s
  else
    let s := clkHalt t s
    let s := { s with pkg := { s.pkg with tileEn := false }, pw := { s.pw with tileEnHeld := true } }
    quarantine 0x0A (stopTiles (setAlarm (8 + t) s))

/-- A sensor pair differs at two conversions (R479): as at shutdown, with SENSOR. -/
def sensorTrip (t : Nat) (s : State) : State :=
  if 8 ≤ t || !s.pkg.tilePg then s
  else quarantine 9 (stopTiles (setAlarm 20 (modTileP t (fun x => { x with pairBad := true }) (clkHalt t s))))

/-- A sensor conversion of a tile (R471, R478, R475): the throttle engages or deepens; a reading at TJS trips. -/
def conversion (t tenths : Nat) (s : State) : State :=
  if 8 ≤ t || !s.pkg.tilePg then s
  else
    let clk := tileClk s t
    let s := modTileP t (fun x => { x with tj := tenths, perTj := max x.perTj tenths }) (pairReading t s)
    let s :=
      if tenths < 10 * s.pw.tjt then s
      else
        let x := tileP s t
        let f := max 400 ((if x.throt then x.fthr else clk) - 100)
        let s := setNotice t (modTileP t (fun x => { x with throt := true, perThrot := true, fthr := f }) s)
        if x.throt then s else logEvent 0x0701 t (toLe 1 (tenths / 10) ++ toLe 2 f) s
    if 10 * s.pw.tjs ≤ tenths then tjTrip t s else s

/-- A 50 us step of the throttle release (R478): the throttle ends at 1.90 GHz. -/
def throttleRelease (t : Nat) (s : State) : State :=
  let x := tileP s t
  if !x.throt || 10 * s.pw.tjt < x.tj + 30 then s
  else modTileP t (fun x => { x with fthr := min 1900 (x.fthr + 100), throt := decide (x.fthr + 100 < 1900) }) s

/-- A 50 us step of adaptive voltage scaling (R476): at most 25 mV toward the target the monitors give, from 600 mV to
VMAX in force less 25 mV. -/
def avsStep (t target favs : Nat) (s : State) : State :=
  if 8 ≤ t || !s.pkg.tilePg then s
  else modTileP t (fun x =>
    let v := if x.setpoint ≤ target then min target (x.setpoint + 25) else max target (x.setpoint - 25)
    let v := max 600 (min (s.pw.vcm - 25) v)
    { x with setpoint := v, vcore := v, favs := favs }) s

/-- A droop event (R477): counted, DROOP set, the set 0 counter of Table 21-4. -/
def droop (t : Nat) (s : State) : State :=
  if 8 ≤ t || !clocksRun s then s
  else perfAdd 0 12 1 (setNotice 12 (modTileP t (fun x => { x with droops := min 65535 (x.droops + 1) }) s))

/-- The PLDM event of sensor 23 (R525); in CONFIDENTIAL it follows the telemetry period (R488). -/
def brakeEvent (v : Nat) (s : State) : State := if s.pkg.mode == .confidential then s else pldmEvent 23 v s

/-- BRAKE_N asserts (R481): counted; with tile clocks running the brake is in force. -/
def brakeAssert (s : State) : State :=
  if !s.pw.brakeN then s
  else
    let s := { s with pw := { s.pw with brakeN := false, brakeCount := min 65535 (s.pw.brakeCount + 1) } }
    if clocksRun s then
      brakeEvent 2 <| logEvent 0x0702 0xFF [1#8] (setNotice 8 { s with pw := { s.pw with
        brakeForce := true, brakeRamp := false, fbrk := 400, issueHalf := true, perBrake := true } })
    else s

/-- BRAKE_N deasserts (R481): the brake stays in force for 1 ms. -/
def brakeDeassert (s : State) : State :=
  if s.pw.brakeN then s
  else if brakeOn s then
    brakeEvent 1 <| logEvent 0x0702 0xFF [0#8] { s with pw := { s.pw with
      brakeN := true, brakeForce := true, brakeRamp := false, fbrk := 400, issueHalf := true } }
  else { s with pw := { s.pw with brakeN := true } }

/-- After the hold f_brk rises 0.10 GHz; the issue limit ends when it passes 0.80 GHz (R481). -/
def brakeRamp (s : State) : State :=
  if !s.pw.brakeN || !(s.pw.brakeForce || s.pw.brakeRamp) then s
  else
    let f := min 1900 (s.pw.fbrk + 100)
    { s with pw := { s.pw with brakeForce := false, brakeRamp := decide (f < 1900), fbrk := f, issueHalf := s.pw.issueHalf && decide (f ≤ 800) } }

/-- The standby and warden temperature readings that come with a sample: free values (log entry 1). -/
def standbySample (s : State) : State :=
  let v := Config.freeNat s.draws % 65536
  let w := Config.freeNat (s.draws + 1) % 256
  { s with draws := s.draws + 2, pw := { s.pw with
    stby := v, wtj := w, perStby := s.pw.perStby + v, perStbyN := s.pw.perStbyN + 1, perWtj := max s.pw.perWtj w } }

/-- A 100 us sample of the power monitor (R471, Table 21-3), or a reading that failed (R482). -/
def powerSample (watts : Option Nat) (s : State) : State :=
  let s := standbySample s
  match watts with
  | none => { s with pw := { s.pw with monGood := 0 } }
  | some w =>
    let l := (w :: s.pw.samples).take 10000
    { s with pw := { s.pw with pwr := w % 65536, samples := l, mean := l.foldl (· + ·) 0 / l.length % 65536, monGood := min 2 (s.pw.monGood + 1) } }

/-- P_cap in force (R473). -/
def pCap (s : State) : Nat :=
  let r := rating s
  min (min r (s.pw.pHost.getD r)) (min (s.pw.pMgmt.getD r) (if s.mg.orphan then Config.kOrphanW else r))

/-- f_req of every tile (R483): the lower request, 0.40 GHz at least; trace point 15. -/
def setReqs (s : State) : State :=
  let l := s.pw.samples.take 10
  let p := if l.isEmpty then 0 else l.foldl (· + ·) 0 / l.length
  (List.range 8).foldl (fun s t =>
    let x := tileP s t
    let f := max 400 (min x.capReq x.thermReq)
    trace 15 t (t + 65536 * f) p (modTileP t (fun x => { x with freq := f }) s)) s

/-- Every tile's cap request. -/
def mapCap (f : Nat → Nat) (s : State) : State :=
  { s with pw := { s.pw with tiles := s.pw.tiles.map (fun (x : TileP) => { x with capReq := f x.capReq }) } }

/-- The 1 ms power cap loop (R482) on the mean of the last ten samples. -/
def capLoop (s : State) : State :=
  if !clocksRun s || !fwWfw s then s
  else if s.pw.monGood < 2 then setReqs (mapCap (fun _ => 400) s)
  else
    let l := s.pw.samples.take 10
    let n := l.length
    let sum := l.foldl (· + ·) 0
    let cap := pCap s
    if n = 0 then s
    else if n * cap < sum then
      if s.pw.tiles.all (fun x => x.capReq == 400) then
        logEvent 0x0703 0xFF (toLe 2 (sum / n) ++ toLe 2 cap) (setNotice 13 s)
      else
        let k := (sum - n * cap + 50 * n - 1) / (50 * n)
        setReqs (mapCap (fun c => max 400 (c - 50 * k)) s)
    else if 20 * sum < 19 * n * cap then setReqs (mapCap (fun c => min 1900 (c + 50)) s)
    else setReqs s

/-- e of R483 in whole degrees, rounded up, 0 when not above the target. -/
def overBy (tenths target : Nat) : Nat := (tenths - 10 * target + 9) / 10

/-- The hottest stack, in tenths of a degree. -/
def hotStack (s : State) : Nat := (stackTiles s).foldl (fun m t => max m (nth 0 s.pw.stackTj t)) 0

/-- The 10 ms thermal loop (R483). -/
def thermLoop (s : State) : State :=
  if !clocksRun s || !fwWfw s then s
  else
    let target := s.pw.tjt - 8
    let st := overBy (hotStack s) 90
    setReqs { s with pw := { s.pw with tiles := s.pw.tiles.map (fun (x : TileP) =>
      let d := max (overBy x.tj target) st
      { x with thermReq :=
        if 0 < d then max 400 (x.thermReq - 50 * d)
        else if x.tj + 20 ≤ 10 * target then min 1900 (x.thermReq + 50) else x.thermReq }) } }

/-- Round down to a multiple. -/
def floorTo (k n : Nat) : Nat := n / k * k

/-- Whether power and temperatures are coarsened (R488). -/
def coarse (s : State) : Bool := s.pkg.mode == .confidential

/-- A threshold kind that stands crossed on the page (TELEM_THRESH): 0 power, 1 temperature; 0 disables. -/
def threshHit (s : State) (k : Nat) : Bool :=
  let v := (lookupNat k s.hb.thresh).getD 0
  v != 0 && decide (v ≤ if k = 0 then s.hb.tele.pwr else s.hb.tele.tjmax)

/-- Compare the page with the thresholds: a newly crossed one sends vector 13. -/
def threshCheck (s : State) : State :=
  let now := [0, 1].filter (threshHit s)
  let new := now.any (fun k => !decide (k ∈ s.hb.crossed))
  let s := { s with hb := { s.hb with crossed := now } }
  if new then raiseHost 0 4 13 s else s

/-- The telemetry page at a period's end (R212, R220, R488). -/
def telemUpdate (s : State) : State :=
  if !fwWfw s then s
  else
    let c := coarse s
    let deg (x : Nat) : Nat := if c then floorTo Config.kTempStepC (x / 10) else x / 10
    let tjOf (x : TileP) : Nat := deg (if c then max x.perTj x.tj else x.tj)
    let stkOf (t : Nat) : Nat := if !hasStack s t || !s.pkg.memPg then 0
      else deg (if c then max (nth 0 s.pw.perStack t) (nth 0 s.pw.stackTj t) else nth 0 s.pw.stackTj t)
    let tj := s.pw.tiles.map tjOf
    let n := (s.pw.tiles.filter (fun x => if c then x.perThrot || x.throt else x.throt)).length
    let brk := brakeOn s || (c && s.pw.perBrake)
    let stk := (List.range 8).map stkOf
    let page : Telem := { seq := s.hb.tele.seq + 2, coarse := c, perfHidden := c, valid := true,
                          period := if c then Config.kPwrAvgMs else 10,
                          pwr := if c then floorTo Config.kPwrStepW s.pw.mean else s.pw.pwr,
                          pcap := pCap s, tjmax := tj.foldl max 0, throt := n, brake := brk, tj := tj, stk := stk,
                          stby := if c then (if s.pw.perStbyN = 0 then s.hb.tele.stby else floorTo 100 (s.pw.perStby / s.pw.perStbyN)) else s.pw.stby, wtj := if c then floorTo Config.kTempStepC (max s.pw.perWtj s.pw.wtj) else s.pw.wtj }
    let s := if c && s.hb.tele.brake != brk then pldmEvent 23 (if brk then 2 else 1) s else s
    threshCheck { s with
      hb := { s.hb with tele := page },
      pw := { s.pw with perBrake := false, perStack := List.replicate 8 0, perWtj := 0, perStby := 0, perStbyN := 0,
                        tiles := s.pw.tiles.map (fun (x : TileP) => { x with perTj := 0, perThrot := false }) } }

/-- PWR_STATUS (R265): exact in OPEN, the page's values in CONFIDENTIAL (R488). -/
def pwrStatusBody : HostCall → State → CmdRes := sized 0 (fun _ s =>
  let c := coarse s
  let t := s.hb.tele
  let hot := s.pw.tiles.foldl (fun m x => max m (x.tj / 10)) 0
  let n := (s.pw.tiles.filter (fun x => x.throt)).length
  cmdOk s (toLe 2 (if c then t.pwr else s.pw.pwr) ++ toLe 2 (pCap s) ++ toLe 1 (if c then t.tjmax else hot)
    ++ toLe 1 (if c then t.throt else n) ++ toLe 2 (b2n c + 2 * b2n (if c then t.brake else brakeOn s)) ++ toLe 4 (limitsNow s)))

/-- PWR_CAP_SET (R265, R473). -/
def pwrCapBody : HostCall → State → CmdRes := sized 4 (fun c s =>
  let w := field c.payload 0 2
  if !allZero (slice c.payload 2 2) || rating s < w then cmdFail s stMalformed 0
  else
    let w := max Config.kBrakeW w
    cmdOk { s with pw := { s.pw with pHost := some w } } (toLe 2 w ++ toLe 2 0))

/-- LIMIT_TIGHTEN (R470): each field takes the lower value. -/
def limitBody : HostCall → State → CmdRes := sized 4 (fun c s =>
  let tjt := field c.payload 0 1
  let tjs := field c.payload 1 1
  let vm := field c.payload 2 2
  if tjs ≤ tjt || tjt < 60 || 110 < tjs || vm < 600 || 950 < vm then cmdFail s stMalformed 0
  else
    let s := { s with pw := { s.pw with tjt := min s.pw.tjt tjt, tjs := min s.pw.tjs tjs, vcm := min s.pw.vcm vm } }
    cmdOk s (toLe 4 (limitsNow s)))

/-- MEM_TELEM (R265): a tile with a stack, or the stack's own unit. -/
def memTelemBody : HostCall → State → CmdRes := sized 4 (fun c s =>
  let u := field c.payload 0 1
  let t := if u < 8 then u else u - 9
  if !allZero (slice c.payload 1 3) || 18 ≤ u then cmdFail s stMalformed 0
  else if !(if u < 8 then hasStack s u else unitType s u == .stack) then cmdFail s stUnavailable 0
  else if !unitUp s t then cmdFail s stUnitAbort 0
  else
    let m := mcS s t
    cmdOk s (toLe 1 (if coarse s then nth 0 s.hb.tele.stk t else m.temp) ++ toLe 3 0 ++ toLe 4 m.corr ++ toLe 4 m.tagf))

/-- The bytes of a performance counter set (R492, Table 21-4). -/
def perfSet (set : Nat) (s : State) : Bytes := (List.range 512).flatMap (fun i => toLe 8 ((lookupNat (512 * set + i) s.pw.perf).getD 0))

/-- PERF_READ (R489, R492). -/
def perfReadBody : HostCall → State → CmdRes := sized 4 (fun c s =>
  let n := field c.payload 0 1
  if !allZero (slice c.payload 1 3) || 12 < n then cmdFail s stMalformed 0 else cmdOk s (perfSet n s))

/-- POWER_DOWN (R41, R265): IDLE to WARDEN; the response shows the new state (R257). -/
def powerDownBody : HostCall → State → CmdRes := sized 0 (fun _ s =>
  if s.pkg.st != .idle then cmdFail s stBadState 0 else { cmdOk (toWarden s) [] with after := true })

/-- TELEM_THRESH (R265): thresholds for later comparisons. -/
def telemThreshBody : HostCall → State → CmdRes := sized 4 (fun c s =>
  if !allZero (slice c.payload 3 1) then cmdFail s stMalformed 0
  else cmdOk { s with hb := { s.hb with thresh := [(0, field c.payload 0 2), (1, field c.payload 2 1)], crossed := [] } } [])

/-- IRQ_QUANT (R490): PERIOD 0 lets held records be written at once. -/
def irqQuantBody : HostCall → State → CmdRes := sized 4 (fun c s =>
  let p := field c.payload 0 1
  if !allZero (slice c.payload 1 3) || 1 < p then cmdFail s stMalformed 0
  else if p = 1 then
    let v := if s.pw.quant then s.jb.gridView else s.jb.list.map (fun j => (j.id, j.st))
    cmdOk { s with pw := { s.pw with quant := true }, jb := { s.jb with gridView := v } } (toLe 1 1 ++ toLe 3 0)
  else
    let s := { s with pw := { s.pw with quant := false }, jb := { s.jb with gridView := [] } }
    cmdOk (s.xl.asts.foldl (fun (s : State) (a : Ast) => ringFlush false a.tag s) s) (toLe 1 0 ++ toLe 3 0))

/-- PWR_STATUS. -/
def execPwrStatus (c : HostCall) (s : State) : Res := .next (runCmd 0x700 pwrStatusBody c s)
/-- PWR_CAP_SET. -/
def execPwrCapSet (c : HostCall) (s : State) : Res := .next (runCmd 0x701 pwrCapBody c s)
/-- LIMIT_TIGHTEN. -/
def execLimitTighten (c : HostCall) (s : State) : Res := .next (runCmd 0x702 limitBody c s)
/-- MEM_TELEM. -/
def execMemTelem (c : HostCall) (s : State) : Res := .next (runCmd 0x704 memTelemBody c s)
/-- PERF_READ. -/
def execPerfRead (c : HostCall) (s : State) : Res := .next (runCmd 0x705 perfReadBody c s)
/-- POWER_DOWN. -/
def execPowerDown (c : HostCall) (s : State) : Res := .next (runCmd 0x706 powerDownBody c s)
/-- TELEM_THRESH. -/
def execTelemThresh (c : HostCall) (s : State) : Res := .next (runCmd 0x707 telemThreshBody c s)
/-- IRQ_QUANT. -/
def execIrqQuant (c : HostCall) (s : State) : Res := .next (runCmd 0x708 irqQuantBody c s)
/-- TJ_SHUTDOWN_TRIP (R475). -/
def execTjShutdownTrip (t : Nat) (s : State) : Res := .next (tjTrip t s)
/-- VCORE_CEILING_TRIP (R475). -/
def execVcoreCeilingTrip (t : Nat) (s : State) : Res := .next (vcoreTrip t s)
/-- SENSOR_MISMATCH (R479). -/
def execSensorMismatch (t : Nat) (s : State) : Res := .next (sensorTrip t s)
/-- THROTTLE_CONVERSION (R478). -/
def execThrottleConversion (t tenths : Nat) (s : State) : Res := .next (conversion t tenths s)
/-- THROTTLE_RELEASE_STEP (R478). -/
def execThrottleReleaseStep (t : Nat) (s : State) : Res := .next (throttleRelease t s)
/-- AVS_LOOP_STEP (R476). -/
def execAvsLoopStep (t target favs : Nat) (s : State) : Res := .next (avsStep t target favs s)
/-- DROOP_EVENT (R477). -/
def execDroopEvent (t : Nat) (s : State) : Res := .next (droop t s)
/-- BRAKE_N_ASSERT (R481). -/
def execBrakeNAssert (s : State) : Res := .next (brakeAssert s)
/-- BRAKE_N_DEASSERT (R481). -/
def execBrakeNDeassert (s : State) : Res := .next (brakeDeassert s)
/-- BRAKE_RAMP_STEP (R481). -/
def execBrakeRampStep (s : State) : Res := .next (brakeRamp s)
/-- POWER_MONITOR_SAMPLE (R471). -/
def execPowerMonitorSample (watts : Option Nat) (s : State) : Res := .next (powerSample watts s)
/-- POWER_CAP_LOOP (R482). -/
def execPowerCapLoop (s : State) : Res := .next (capLoop s)
/-- TELEMETRY_UPDATE (R220). -/
def execTelemetryUpdate (s : State) : Res := .next (telemUpdate s)

end Sys2Proof.Machine
end

