-- ==== Sys2Proof/Machine/Units.lean ====
section
/-! DEFINITION. Units as the warden meets them: the fabric window (R69, R70) with the registers of Tables 3-10, 17-7,
18-6, 18-7, 20-7 and 21-3a, the internal mailboxes (R71, R72, R224), heartbeats (R73), the three views (R499, R504). -/

namespace Sys2Proof.Machine

/-- Word `w` (0 low, 1 high) of a 64-bit value. -/
def half (w v : Nat) : Nat := v / 2 ^ (32 * w) % 2 ^ 32

/-- Replace word `w` of a 64-bit value. -/
def setHalf (w v x : Nat) : Nat := if w = 0 then v / 2 ^ 32 * 2 ^ 32 + x % 2 ^ 32 else v % 2 ^ 32 + x % 2 ^ 32 * 2 ^ 32

/-- A tile's registers in its window (Tables 17-7, 18-6, 21-3a); an offset no table names reads a free value. -/
def tileRegRead (t off : Nat) (s : State) : Nat :=
  let x := tileJ s t
  let m := mcS s t
  let keys := (portKey s t 0).isSome && (portKey s t 1).isSome
  match off with
  | 0x0 => 0x00010001
  | 0x8 => le ((List.range 4).map (Config.stdByte 40 [toLe 1 t]))
  | 0xC => le ((List.range 4).map (fun i => Config.stdByte 40 [toLe 1 t] (i + 4)))
  | 0x10 => tileClk s t + 65536 * (Config.freeNat s.draws % 2)
  | 0x20 => b2n x.gateClosed + 256 * (x.rexec.length % 256)
  | 0x24 => x.rescnt
  | 0x28 => x.limit + 256 * x.window + 2 ^ 31 * b2n x.lock
  | 0x30 => x.ce
  | 0x34 => x.ue
  | 0x38 => half 0 x.eccAddr
  | 0x3C => half 1 x.eccAddr
  | 0x40 => (tileP s t).hlres
  | 0xE0000 => 0
  | 0xE0004 => 0
  | _ =>
    if 0x10000 ≤ off && off < 0x10020 && hasStack s t then
      (match off - 0x10000 with
       | 0x0 => b2n m.trained + 2 * b2n keys + 4 * b2n m.tagFail + 8 * b2n m.ueFail + 256 * (t + 9)
       | 0x4 => m.corr
       | 0x8 => m.tagf
       | 0x10 => half 0 m.failAddr
       | 0x14 => half 1 m.failAddr
       | 0x18 => m.init.length % 2 ^ 32
       | 0x1C => m.temp
       | _ => 0)
    else Config.freeNat s.draws % 2 ^ 32

/-- Word `w` of link key entry `n` (Table 20-7). -/
def lkeRead (n w : Nat) (d : LDie) : Nat :=
  let k := nth ({} : LKey) d.lke n
  match w with
  | 0 => b2n k.valid + 2 * b2n k.swap + 65536 * (k.peer % 4096)
  | 2 => half 0 k.job
  | 3 => half 1 k.job
  | 4 => half 0 k.txseq
  | 5 => half 1 k.txseq
  | 6 => half 0 k.rxseq
  | 7 => half 1 k.rxseq
  | _ => 0

/-- The Linya block of a port die (Table 20-7). -/
def linyaRead (u off : Nat) (s : State) : Nat :=
  let d := ldS s (ordOfUnit s u)
  if off = 0 then s.ln.daddr % 4096
  else if off = 4 then d.noroute
  else if off = 8 then d.plain
  else if 0x100 ≤ off && off < 0x1C0 then
    let p := nth ({} : LPort) d.ports ((off - 0x100) / 16)
    (match (off - 0x100) % 16 / 4 with
     | 0 => p.st.code + 16 * p.lanes + 256 * p.attempts + 65536 * p.uncorr
     | 1 => b2n (p.st == .mappedOut)
     | 2 => le (slice p.bounds 0 4)
     | _ => le (slice p.bounds 4 4))
  else if 0x200 ≤ off && off < 0x8200 then half ((off - 0x200) / 4 % 2) ((lookupNat ((off - 0x200) / 8) s.ln.routes).getD 0)
  else if 0x10000 ≤ off && off < 0x10800 then lkeRead ((off - 0x10000) / 32) ((off - 0x10000) % 32 / 4) d
  else 0

/-- P0's spill block (Table 18-7). -/
def spillRead32 (off : Nat) (s : State) : Nat :=
  match off with
  | 0x0 => b2n s.sp.en + 2 * b2n s.sp.paired
  | 0x4 => s.sp.pages
  | 0x8 => s.sp.first
  | 0x10 => half 0 s.sp.hit
  | 0x14 => half 1 s.sp.hit
  | 0x18 => half 0 s.sp.miss
  | 0x1C => half 1 s.sp.miss
  | 0x20 => s.sp.authf
  | _ => 0

/-- A read through the fabric window that the unit answers; an image region reads a free value where nothing was written. -/
def unitRead (u off : Nat) (s : State) : Nat :=
  if 0xF0000 ≤ off && off < 0xF1000 then le (slice (unitS s u).inbox (off - 0xF0000) 4)
  else if off = 0xF1000 then (unitS s u).doorbell
  else if 0x400000 ≤ off && off < 0x600000 && off - 0x400000 < (unitS s u).image.length then le (slice (unitS s u).image (off - 0x400000) 4)
  else if 0x800000 ≤ off && off < 0x880000 && u < 8 && off - 0x800000 < (unitS s u).mcImage.length then
    le (slice (unitS s u).mcImage (off - 0x800000) 4)
  else if u < 8 then tileRegRead u off s
  else if off = 0xE0000 then 0
  else if 0x20000 ≤ off && off < 0x20024 && u = 8 then spillRead32 (off - 0x20000) s
  else if 0x30000 ≤ off && off < 0x41000 then linyaRead u (off - 0x30000) s
  else Config.freeNat s.draws % 2 ^ 32

/-- A write to the Linya block (Table 20-7): RW fields only. -/
def linyaWrite (u off v : Nat) (s : State) : State :=
  let d := ordOfUnit s u
  if off = 0 then { s with ln := { s.ln with daddr := v % 4096 } }
  else if 0x100 ≤ off && off < 0x1C0 then
    let p := (off - 0x100) / 16
    (match (off - 0x100) % 16 / 4 with
     | 1 =>
       let s := if bit v 0 && (lportS s d p).st != .mappedOut then setLState u p .mappedOut s else s
       if bit v 1 then linkRetrain u p s else s
     | 2 => modLport d p (fun x => { x with bounds := clampBounds (toLe 4 v ++ x.bounds.drop 4) }) s
     | 3 => modLport d p (fun x => { x with bounds := clampBounds (x.bounds.take 4 ++ toLe 4 v ++ x.bounds.drop 8) }) s
     | _ => s)
  else if 0x200 ≤ off && off < 0x8200 then
    let k := (off - 0x200) / 8
    let n := setHalf ((off - 0x200) / 4 % 2) ((lookupNat k s.ln.routes).getD 0) v % 2 ^ 48
    { s with ln := { s.ln with routes := if n = 0 then dropKey k s.ln.routes else putKey k n s.ln.routes } }
  else if 0x10000 ≤ off && off < 0x10800 then
    let n := (off - 0x10000) / 32
    let f (k : LKey) : LKey := match (off - 0x10000) % 32 / 4 with
      | 0 => { k with valid := bit v 0, swap := bit v 1, peer := bits v 16 12 }
      | 2 => { k with job := setHalf 0 k.job v }
      | 3 => { k with job := setHalf 1 k.job v }
      | _ => k
    modLd d (fun x => { x with lke := modNth n f x.lke }) s
  else s

/-- A word written into an image region. -/
def imageWrite (b : Bytes) (off v : Nat) : Bytes := overlay (slice b 0 (max b.length (off + 4))) off (toLe 4 v)

/-- A write through the fabric window that the unit takes: inbox, doorbell, image regions until GO (Table 7-7, R166), boot
control with GO and the entry offset [22:2], and the writable registers. -/
def unitWrite (u off v : Nat) (s : State) : State :=
  if 0xF0000 ≤ off && off < 0xF1000 then
    modUnit u (fun x => { x with inbox := overlay (slice x.inbox 0 4096) (off - 0xF0000) (toLe 4 v) }) s
  else if off = 0xF1000 then modUnit u (fun x => { x with doorbell := v, rung := true, cmdOut := some (field x.inbox 4 4) }) s
  else if 0x400000 ≤ off && off < 0x600000 then
    (if (unitS s u).go then s
     else modUnit u (fun x => { x with image := imageWrite x.image (off - 0x400000) v }) s)
  else if 0x800000 ≤ off && off < 0x880000 && hasStack s u then
    (if (unitS s u).mcGo then s else modUnit u (fun x => { x with mcImage := imageWrite x.mcImage (off - 0x800000) v }) s)
  else if off = 0xE0000 then
    (if bit v 0 && !(unitS s u).go then modUnit u (fun x => { x with go := true, entry := bits v 2 21 * 4, awaitReady := true }) s else s)
  else if off = 0xE0004 && hasStack s u then
    (if bit v 0 && !(unitS s u).mcGo && s.pkg.memPg then modUnit u (fun x => { x with mcGo := true, mcEntry := bits v 2 21 * 4, mcAwait := true }) s else s)
  else if u < 8 then
    (if off = 0x28 && !(tileJ s u).lock then
      modTileJ u (fun x => { x with limit := clampTo 1 16 (v % 256), window := clampTo 1 1000 (bits v 8 16), lock := bit v 31 }) s
     else s)
  else if 0x20000 ≤ off && off < 0x2000C && u = 8 then
    (match off - 0x20000 with
     | 0x0 => { s with sp := { s.sp with en := bit v 0, paired := bit v 1 } }
     | 0x4 => { s with sp := { s.sp with pages := v % 2 ^ 15 } }
     | _ => { s with sp := { s.sp with first := v % 2 ^ 32 } })
  else if 0x30000 ≤ off && off < 0x41000 then linyaWrite u (off - 0x30000) v s
  else s

/-- FABRIC_WINDOW_ACCESS (R70). -/
def fabricAccess (u off : Nat) (write : Bool) (v : Nat) (answered : Bool) (s : State) : State :=
  if !s.wd.coreRun || s.wd.access.isSome then s
  else if !unitUp s u || 2 ^ 24 ≤ off || off % 4 ≠ 0 then { s with wd := { s.wd with last := .busError } }
  else if !answered then { s with wd := { s.wd with access := some ⟨u, off, write, v⟩ } }
  else if write then unitWrite u off v { s with wd := { s.wd with last := .ok 0 } }
  else { s with wd := { s.wd with last := .ok (unitRead u off s) }, draws := s.draws + 1 }

/-- FABRIC_WINDOW_TIMEOUT (R70): the access ends in a bus error. -/
def fabricTimeout (s : State) : State :=
  if s.wd.access.isSome then { s with wd := { s.wd with access := none, last := .busError } } else s

/-- IMB_COMMAND_DOORBELL (R71): the frame into the inbox, its length to the doorbell. -/
def imbSend (u : Nat) (frame : Bytes) (s : State) : State :=
  if !s.wd.coreRun then s
  else if !unitUp s u then { s with wd := { s.wd with last := .busError } }
  else modUnit u (fun x => { x with inbox := frame.take 4096, doorbell := frame.length, rung := true, cmdOut := some (field frame 4 4) })
    { s with wd := { s.wd with last := .ok 0 } }

/-- H of R499: what the hardware shows of a unit; none with its rail off. -/
def hView (u : Nat) (s : State) : Option UState :=
  let x := unitS s u
  if !railGood s u then none
  else if !unitUp s u then some .resetting
  else if decide (x.hbLim < x.hbAge) || (decide (u < 8) && (tileJ s u).gateClosed) then some .resetting
  else if x.clkStop then some .stopped
  else some .up

/-- Flags of H as EV_VIEW_CONFLICT carries them: UNIT_UP, CLKSTOP, heartbeat over its limit, gate closed. -/
def hFlags (u : Nat) (s : State) : Nat :=
  let x := unitS s u
  b2n (unitUp s u) + 2 * b2n x.clkStop + 4 * b2n (decide (x.hbLim < x.hbAge)) + 8 * b2n (decide (u < 8) && (tileJ s u).gateClosed)

/-- A difference of views is logged (R504). -/
def viewLog (u : Nat) (w : UState) (v : Option UState) (res : UState) (source : Nat) (s : State) : State :=
  let s := { s with lg := { s.lg with conflicts := if u ∈ s.lg.conflicts then s.lg.conflicts else s.lg.conflicts ++ [u] } }
  logEvent 0x0305 u (toLe 1 w.code ++ toLe 1 (hFlags u s) ++ toLe 1 (match v with | some x => x.code | none => 0xFF)
    ++ toLe 1 res.code ++ toLe 1 source) s

/-- The comparison of W, H and U and what a difference leads to (R504, Table 22-2). A unit under restart that is out
of reset is no conflict. A P0 die that is found in reset is lost: QCAUSE 0x0B (Table 2-7). -/
def viewCheck (u : Nat) (v : Option UState) (source : Nat) (s : State) : State :=
  let t := unitType s u
  if !fwWfw s || !(t == .tile || t == .port) then s
  else
    let s := { s with lg := { s.lg with conflicts := s.lg.conflicts.filter (· != u) } }
    match hView u s with
    | none => s
    | some h =>
      let x := unitS s u
      let w := x.ustate
      if w == .absent then s
      else if w.rank < h.rank then
        let s := viewLog u w v h source s
        if h == .resetting && unitUp s u then unitCrash u (if u < 8 && (tileJ s u).gateClosed then 4 else 1) s
        else
          let s := setU u h s
          let s := if h == .stopped then { s with lg := { s.lg with stops := putKey u s.wd.time s.lg.stops } } else s
          if u = 8 && h == .resetting && s.pkg.st.main then quarantine 0x0B s else s
      else if (w == .failed || w == .stopped) && h.rank < w.rank && !x.ctrlHeld && unitUp s u then
        fwHold u (viewLog u w v w source s)
      else match v with
        | none => s
        | some y =>
          if w.rank < y.rank then unitCrash u 3 (viewLog u w v y source s)
          else if y.rank < w.rank then viewLog u w v w source s
          else s

/-- An EVENT from a unit (Tables 17-6, 20-9): job final, uncorrectable ECC, residue failure; a port's map-out; any other
kind is the unit's report of its own failure (R500). -/
def eventHandle (u : Nat) (p : Bytes) (s : State) : State :=
  let k := field p 0 1
  if u < 8 && k = 1 then
    let id := field p 1 8
    match jobS s id with
    | none => s
    | some j =>
      if leadTile j.tiles ≠ u then s
      else
        let st := field p 9 2
        jobFinal id ⟨st, field p 11 2, bit (field p 13 1) 1, bit (field p 13 1) 3, if st = 0 then j.outLen else 0⟩ s
  else if u < 8 && k = 2 then eccUe u (field p 1 1) (field p 2 8) none (weightAt u (field p 1 1) (field p 2 8) s) s
  else if u < 8 && k = 3 then residueFail u (field p 1 8) (field p 9 4) s
  else if 8 ≤ u && k = 0x10 then (if field p 2 1 = 4 then mapOutSeen u (field p 1 1) (field p 3 1) (mapOut u (field p 1 1) s) else s)
  else unitCrash u 3 s

/-- USTATE by its code (R265). -/
def ustateOf (n : Nat) : Option UState :=
  match n with
  | 1 => some .up
  | 2 => some .resetting
  | 3 => some .stopped
  | 4 => some .failed
  | _ => none

/-- The commands that wait for a unit's view are answered. -/
def viewAnswer (u : Nat) (s : State) : State :=
  let r := takeWaits u 0x703 0 s
  r.1.foldl (fun s w => match w.call with | some (c, word) => answer c 0x703 word stOk 0 (unitBody u s) s | none => s) r.2

/-- The LINK_STATUS commands that wait for a port die are answered. -/
def linkAnswer (u : Nat) (s : State) : State :=
  let r := takeWaits u 0x600 0 s
  r.1.foldl (fun s w => match w.call with | some (c, word) => answer c 0x600 word stOk 0 (linkBody u s) s | none => s) r.2

/-- What firmware does with the response `p` to the command of opcode `op` that it sent with payload `q`. -/
def respHandle (u op : Nat) (cmd p : Bytes) (s : State) : State :=
  match op with
  | 0x8001 => enterAcked u s
  | 0x8002 => installAcked u (field cmd 0 4) s
  | 0x8003 => enqueueAcked u (field cmd 8 8) (field p 0 4) s
  | 0x8004 => abortAcked u (field cmd 0 8) (field p 0 1) s
  | 0x8005 => tileSelftest u (field p 0 1 == 1) s
  | 0x8006 => viewAnswer u (viewCheck u (ustateOf (field p 0 1)) 1 s)
  | 0x8007 => tileEnterSend (field cmd 0 1) s
  | 0x8102 => cfgAcked u (field cmd 0 1) (slice cmd 4 12) s
  | 0x8104 => viewAnswer u (linkAnswer u (viewCheck u (some .up) 1 s))
  | _ => s

/-- READY of a unit that owes one (R225, R167); a restarted unit is then set up again (R381, R501). -/
def readyHandle (u gen version : Nat) (s : State) : State :=
  let t := unitReady u gen version s
  if s.pkg.st == .bringup || !(unitS s u).awaitReady || (unitS t u).ustate != .up then t
  else if u < 8 then restoreTile u t else restorePort u t

/-- Firmware takes a unit's frame (R72, R224, R500): discarded when its GEN is the one before, a crash when its GEN was
never issued to the present or the previous release. The GEN of a READY that is owed is judged by R167 and R225. A response to
another command than the one outstanding is told from it by its tag and dropped. -/
def imbHandle (u gen : Nat) (f : Bytes) (s : State) : State :=
  if !fwWfw s then s
  else
    let x := unitS s u
    let g := x.gen.toNat
    let op := field f 0 2
    let tag := field f 4 4
    let p := f.drop 32
    if tag = 0 && op = 0xFF01 && (x.awaitReady || x.mcAwait) then
      readyHandle u (if gen = g then field p 2 1 else gen) (field p 4 4) s
    else if gen = (g + 255) % 256 then s
    else if gen ≠ g then unitCrash u 2 s
    else if tag = 0 then (if op = 0xFF02 then viewCheck u none 1 (eventHandle u p s) else s)
    else if x.cmdOut != some tag then viewCheck u none 1 s
    else
      let s := respHandle u op (x.inbox.drop 32) p (modUnit u (fun x => { x with cmdOut := none }) s)
      unitPump u (if op = 0x8006 || op = 0x8104 then s else viewCheck u none 1 s)

/-- A frame reaches the response port (R71): at most 896 bytes; kept by the unit, behind those it already keeps, while RSP_VALID
is 1. -/
def imbPost (u gen : Nat) (frame : Bytes) (s : State) : State :=
  if !unitUp s u then s
  else
    let f := frame.take 896
    let x := unitS s u
    if x.rspValid then modUnit u (fun x => { x with held := x.held ++ [(BitVec.ofNat 8 gen, f)] }) s
    else
      let s := modUnit u (fun x => { x with rspValid := true, rspLen := f.length, rspBuf := f }) s
      imbHandle u gen f (if x.irqEn then irq 3 s else s)

/-- RSP_VALID is cleared (R71): the oldest frame the unit kept arrives. -/
def imbClear (u : Nat) (s : State) : State :=
  let s := modUnit u (fun x => { x with rspValid := false }) s
  match (unitS s u).held with
  | (g, f) :: r => imbPost u g.toNat f (modUnit u (fun x => { x with held := r }) s)
  | [] => s

/-- `f` may map port `p` out (R461): if it does, the port die posts EVENT kind 0x10 with the port, LSTATE and the cause row of
Table 20-7a (R464). -/
def mapOutBy (u p cause : Nat) (f : State → State) (s : State) : State :=
  let t := f s
  if (lportS s (ordOfUnit s u) p).st != .mappedOut && (lportS t (ordOfUnit s u) p).st == .mappedOut then
    imbPost u (unitS t u).gen.toNat (unitFrame 0xFF02 0 (unitS t u).gen.toNat ([0x10#8] ++ toLe 1 p ++ toLe 1 4 ++ toLe 1 cause)) t
  else t

/-- A unit takes the command of opcode `op` in its inbox and answers it (R224): `f` is what it does with the payload and the
payload of its response, none where the frame is not the command that the row names. A command whose GEN or PDIG is wrong is
discarded and not answered. -/
def unitHandles (u op : Nat) (f : Bytes → State → Option (Bytes × State)) (s : State) : State :=
  let x := unitS s u
  let took : State := modUnit u (fun x => { x with rung := false }) s
  match unitTakes s u op with
  | some p =>
    (match f p took with
     | some (r, t) => imbPost u x.gen.toNat (unitFrame op (field x.inbox 4 4) x.gen.toNat r) t
     | none => s)
  | none => if unitRung s u op then took else s

/-- What a tile reports of itself (Table 17-6): its view, queue depth, TD_RESCNT and TD_ECC_UE. -/
def tileView (t : Nat) (s : State) : Bytes :=
  let j := tileJ s t
  toLe 1 (if (unitS s t).awaitReady then 2 else 1) ++ toLe 4 j.queue.length ++ toLe 4 j.rescnt ++ toLe 4 j.ue

/-- The PD_LPORT words of a port die (Table 20-9). -/
def lportWords (u : Nat) (s : State) : Bytes := (List.range 12).flatMap (fun p => toLe 4 (linyaRead u (0x100 + 16 * p) s))

/-- UNIT_STATUS (R265, R504): a unit that is UP is asked; otherwise the warden's view with DETAIL 0x0001. -/
def unitStatusBody : HostCall → State → CmdRes := sized 4 (fun c s =>
  let u := field c.payload 0 1
  if 18 ≤ u || !allZero (slice c.payload 1 3) then cmdFail s stMalformed 0
  else
    let t := unitType s u
    if t == .stack || t == .blank then cmdOk s (unitBody u s)
    else
      let s := viewCheck u none 2 s
      if (unitS s u).ustate == .up then cmdWait (unitCmd u (if u < 8 then 0x8006 else 0x8104) [] (unitSend u 0x703 (some (c, stateWord s)) 0 s))
      else ⟨s, some (stOk, 1, unitBody u s), false⟩)

/-- A heartbeat (R73). -/
def heartbeat (u : Nat) (s : State) : State :=
  if unitUp s u && !(unitS s u).clkStop then modUnit u (fun x => { x with hbAge := 0, hbCnt := (x.hbCnt + 1) % 2 ^ 32 }) s else s

/-- HBAGE exceeds HBLIM (R73, R500). -/
def heartbeatOver (u : Nat) (s : State) : State :=
  let x := unitS s u
  if !unitUp s u || x.hbAge ≤ x.hbLim then s
  else
    let s := if x.hbIrqEn then irq 3 s else s
    if fwWfw s && x.hbIrqEn then unitCrash u 1 s else s

/-- LINK_TRAINING_FAIL (R460). -/
def execLinkTrainingFail (u p : Nat) (s : State) : Res := .next (sqEvent (mapOutBy u p 1 (linkTrainFail u p)) s)
/-- FLIT_ACK_TIMEOUT (R456). -/
def execFlitAckTimeout (u p : Nat) (s : State) : Res := .next (sqEvent (mapOutBy u p 3 (ackTimeout u p)) s)
/-- LINK_UNCORR_LIMIT (R460). -/
def execLinkUncorrLimit (u p : Nat) (s : State) : Res :=
  .next (sqEvent (mapOutBy u p 2 (fun s => if lportOk s u p && (lportS s (ordOfUnit s u) p).st.carries then mapOut u p s else s)) s)
/-- LINK_DEGRADED_TIMEOUT (R460). -/
def execLinkDegradedTimeout (u p : Nat) (s : State) : Res :=
  .next (sqEvent (mapOutBy u p 4 (fun s => if lportOk s u p && (lportS s (ordOfUnit s u) p).st == .degraded then mapOut u p s else s)) s)
/-- FABRIC_WINDOW_ACCESS (R70). -/
def execFabricWindowAccess (u off : Nat) (write : Bool) (value : Word) (answered : Bool) (s : State) : Res :=
  .next (fabricAccess u off write value.toNat answered s)
/-- FABRIC_WINDOW_TIMEOUT (R70). -/
def execFabricWindowTimeout (s : State) : Res := .next (fabricTimeout s)
/-- IMB_COMMAND_DOORBELL (R71). -/
def execImbCommandDoorbell (u : Nat) (frame : Bytes) (s : State) : Res := .next (imbSend u frame s)
/-- IMB_RESPONSE (R71). -/
def execImbResponse (u gen : Nat) (frame : Bytes) (s : State) : Res := .next (sqEvent (imbPost u gen frame) s)
/-- IMB_RSP_CLEAR (R71). -/
def execImbRspClear (u : Nat) (s : State) : Res := .next (sqEvent (imbClear u) s)
/-- UNIT_EVENT (R224). -/
def execUnitEvent (u gen : Nat) (payload : Bytes) (s : State) : Res := .next (sqEvent (imbPost u gen (unitFrame 0xFF02 0 gen payload)) s)
/-- UNIT_READY (R225): the READY frame with unit number, GEN and VERSION reaches the response port. -/
def execUnitReady (u gen version : Nat) (s : State) : Res :=
  .next (sqEvent (imbPost u gen (unitFrame 0xFF01 0 gen (toLe 1 u ++ [0#8] ++ toLe 1 gen ++ [0#8] ++ toLe 4 version))) s)
/-- UNIT_HEARTBEAT (R73). -/
def execUnitHeartbeat (u : Nat) (s : State) : Res := .next (heartbeat u s)
/-- HEARTBEAT_LIMIT (R73). -/
def execHeartbeatLimit (u : Nat) (s : State) : Res := .next (heartbeatOver u s)
/-- TILE_ENTER (R323). -/
def execTileEnter (t : Nat) (s : State) : Res := .next (sqEvent (unitHandles t 0x8001 (fun p s => some ([], tileEnter t (field p 0 8) s))) s)
/-- PROG_INSTALL (R374): the response carries the store's digest of the program. -/
def execProgInstall (t phandle : Nat) (s : State) : Res :=
  .next (sqEvent (unitHandles t 0x8002 (fun p s => if field p 0 4 = phandle then some (slice p 8 48, tileInstall t phandle s) else none)) s)
/-- JOB_ENQUEUE (R377). -/
def execJobEnqueue (t job : Nat) (s : State) : Res :=
  .next (sqEvent (unitHandles t 0x8003 (fun p s => if field p 8 8 = job then
    (let r := tileEnqueue t (field p 0 8) job s; some (toLe 4 (queuePos t job r), r)) else none)) s)
/-- JOB_ABORT (R379, R430). -/
def execJobAbort (t job reason : Nat) (s : State) : Res :=
  .next (sqEvent (unitHandles t 0x8004 (fun p s => if field p 0 8 = job && field p 8 2 = reason then
    (let r := tileAbort t job reason s; some (toLe 1 (jobCode job r), r)) else none)) s)
/-- SELFTEST (R323): pass or fail, and of a failure the cluster, a free value (log entry 1). -/
def execSelftest (t : Nat) (pass : Bool) (s : State) : Res :=
  .next (sqEvent (unitHandles t 0x8005 (fun _ s => some ([if pass then 1#8 else 0#8, BitVec.ofNat 8 (Config.freeNat s.draws)], { s with draws := s.draws + 1 }))) s)
/-- TILE_STATUS (Table 17-6). -/
def execTileStatus (t : Nat) (s : State) : Res := .next (sqEvent (unitHandles t 0x8006 (fun _ s => some (tileView t s, s))) s)
/-- PROG_COPY (R381 step 5): `good` says whether the target's digest of the copy is the table's. -/
def execProgCopy (src target phandle : Nat) (good : Bool) (s : State) : Res :=
  .next (sqEvent (unitHandles src 0x8007 (fun p s => if field p 0 1 = target && field p 4 4 = phandle then some ([], progCopy target phandle good s) else none)) s)
/-- PORT_ENTER (R323, R501). -/
def execPortEnter (u : Nat) (s : State) : Res := .next (sqEvent (unitHandles u 0x8101 (fun p s => some ([], portEnter u (field p 0 8) s))) s)
/-- LINK_CFG (R455). -/
def execLinkCfg (u port : Nat) (bounds : Bytes) (s : State) : Res :=
  .next (sqEvent (unitHandles u 0x8102 (fun p s => if field p 0 1 = port && slice p 4 12 == slice bounds 0 12 then some ([], linkCfg u port bounds s) else none)) s)
/-- LINK_TRAIN (R454). -/
def execLinkTrain (u mask : Nat) (s : State) : Res :=
  .next (sqEvent (unitHandles u 0x8103 (fun p s => if field p 0 2 = mask then some ([], linkTrain u mask s) else none)) s)
/-- LINK_QUERY (Table 20-9). -/
def execLinkQuery (u : Nat) (s : State) : Res := .next (sqEvent (unitHandles u 0x8104 (fun _ s => some (lportWords u s, s))) s)
/-- UNIT_STATUS (R265). -/
def execUnitStatus (c : HostCall) (s : State) : Res := .next (runCmd 0x703 unitStatusBody c s)
/-- THERMAL_LOOP (R483, R504). -/
def execThermalLoop (s : State) : Res := .next ((coreUnits s).foldl (fun s u => viewCheck u none 3 s) (thermLoop s))

end Sys2Proof.Machine
end

