-- ==== Sys2Proof/Machine/HostCmds.lean ====
section
/-! DEFINITION. Firmware update (chapter 08, Table 11-13), logs and trace (22, Table 11-14), receipt batches (R359) and
the life-cycle and service commands (R102, R157, R252, R253, R267). -/

namespace Sys2Proof.Machine

/-- A selector copy (Table 8-2). -/
def selBytes (gen pref st : Nat) (tgt : List Nat) (sd : Bytes) : Bytes :=
  let b := toLe 4 0x4C455354 ++ toLe 4 gen ++ toLe 1 pref ++ toLe 1 st ++ toLe 1 3 ++ toLe 1 0 ++ (tgt.take 4).flatMap (toLe 1) ++ slice sd 0 48 ++ toLe 60 0
  b ++ toLe 4 (crc32c b)

/-- SVN_TGT of the selector in force; zeros with none (R187). -/
def selTgt (s : State) : List Nat := match selector s with | some (_, c) => (List.range 4).map (fun i => field c (12 + i) 1) | none => [0, 0, 0, 0]

/-- Commit a selector (R186): the attempt log and the other copy are erased, the new generation is programmed. -/
def commitSel (pref st : Nat) (tgt : List Nat) (sd : Bytes) (s : State) : State :=
  let p : Nat × Nat := match selector s with | some (k, c) => (1 - k, (field c 4 4 + 1) % 2 ^ 32) | none => (0, 0)
  flashProg (0x1000 * p.1) (selBytes p.2 pref st tgt sd) (flashErase (0x1000 * p.1) 4096 (flashErase 0x2000 4096 s))

/-- A commit whose read-back fails (R186): steps 2 to 5 have run on the other copy, which is not valid; its bytes beside
MAGIC are a free value (log entry 1). The copy in force still governs. -/
def commitFail (s : State) : State :=
  let k := match selector s with | some (k, _) => 1 - k | none => 0
  let r := drawBytes 124 (flashErase (0x1000 * k) 4096 (flashErase 0x2000 4096 s))
  flashErrorEv (0x1000 * k) 1 (flashProg (0x1000 * k + 4) r.1 r.2)

/-- Write the update record (Table 8-3); the ROM writes none (Table 8-1, R193). -/
def writeUpd (target st len : Nat) (s : State) : State :=
  if s.wd.fw == .rom then s else
  let b := toLe 4 0x44505554 ++ toLe 1 target ++ toLe 1 st ++ toLe 2 0 ++ toLe 4 len ++ toLe 16 0
  flashProg 0x3000 (b ++ toLe 4 (crc32c b)) (flashErase 0x3000 4096 s)

/-- Change the update status (R183): vector 12 (Table 9-8) and PLDM sensor 2 (R525). -/
def setUpd (st : Nat) (s : State) : State :=
  if s.upd.status = st then s
  else raiseHost 0 3 12 (pldmEvent 2 (st + 1) { bindsMove s with upd := { s.upd with status := st } })

/-- Add a programmed range, keeping the list disjoint and rising. -/
def rangeAdd (a n : Nat) : List (Nat × Nat) → List (Nat × Nat)
  | [] => [(a, n)]
  | (b, m) :: r =>
    if b + m < a then (b, m) :: rangeAdd a n r
    else if a + n < b then (a, n) :: (b, m) :: r
    else rangeAdd (min a b) (max (a + n) (b + m) - min a b) r

/-- PROGRAMMED of Table 11-13. -/
def programmed (s : State) : Nat := s.upd.prog.foldl (fun n p => n + p.2) 0

/-- Whether a byte of the download is programmed already. -/
def isProg (s : State) (o : Nat) : Bool := s.upd.prog.any (fun p => decide (p.1 ≤ o) && decide (o < p.1 + p.2))

/-- End of the last image a region's directory names. -/
def bundleEnd (k : Nat) (s : State) : Nat :=
  (bundleTypes k).foldl (fun n t => match dirEntry s k t with | some (o, l) => max n (o + l) | none => n) 0

/-- A recovery transfer alone is admitted in QUARANTINE (R193). -/
def updTargetOk (target : Nat) (s : State) : Bool := s.pkg.st != .quarantine || target == 2

/-- The checks of UPD_BEGIN (R177, R184, R189). -/
def updBeginCheck (target len : Nat) (s : State) : Option Nat :=
  if 2 < target || target = s.boot.chosen || len = 0 || regionSize target < len then some stMalformed
  else if !updTargetOk target s then some stBadState
  else if !(s.upd.status = 0 || s.upd.status = 2 || s.upd.status = 3) then some stBadState
  else if rosterBusy s then some stBusy
  else none

/-- The checks of UPD_DATA (R184). -/
def updDataCheck (off : Nat) (d : Bytes) (s : State) : Option Nat :=
  if s.upd.status ≠ 1 || !updTargetOk s.upd.target s then some stBadState
  else if s.upd.length < off + d.length then some stMalformed
  else
    let old := flashRead s (regionBase s.upd.target + off) d.length
    if (List.range d.length).any (fun i => isProg s (off + i) && nth 0#8 d i != nth 0#8 old i) then some stMalformed
    else if rosterBusy s then some stBusy else none

/-- UPD_STATUS (R183). -/
def updStatusBody : HostCall → State → CmdRes := sized 0 (fun _ s =>
  let u := s.upd
  cmdOk s (toLe 1 u.status ++ toLe 1 u.target ++ toLe 2 0 ++ toLe 4 (programmed s) ++ stagedDigest s ++ toLe 1 u.rtype ++ toLe 1 u.rcode ++ toLe 2 0))

/-- UPD_BEGIN (R184). -/
def updBeginBody : HostCall → State → CmdRes := sized 8 (fun c s =>
  let t := field c.payload 0 1
  let len := field c.payload 4 4
  if !allZero (slice c.payload 1 3) then cmdFail s stMalformed 0
  else if s.upd.pldm then cmdFail s stBusy 0
  else match updBeginCheck t len s with
    | some st => cmdFail s st 0
    | none => cmdWait (flashSync (.updBegin (some c) (stateWord s) t len) s))

/-- UPD_DATA (R184). -/
def updDataBody (c : HostCall) (s : State) : CmdRes :=
  let d := c.payload.drop 8
  if c.payload.length < 9 || 4064 < c.payload.length || !allZero (slice c.payload 4 4) then cmdFail s stMalformed 0
  else if s.upd.pldm then cmdFail s stBusy 0
  else match updDataCheck (field c.payload 0 4) d s with
    | some st => cmdFail s st 0
    | none => cmdWait (flashSync (.updData (some c) (stateWord s) (field c.payload 0 4) d) s)

/-- UPD_END (R184); a repeat in STAGED or VERIFIED changes nothing (Table 8-5). -/
def updEndBody : HostCall → State → CmdRes := sized 0 (fun c s =>
  if s.upd.pldm then cmdFail s stBusy 0
  else if s.upd.status = 2 || s.upd.status = 3 then cmdOk s (toLe 1 s.upd.status ++ toLe 3 0)
  else if s.upd.status ≠ 1 || !updTargetOk s.upd.target s || programmed s ≠ s.upd.length then cmdFail s stBadState 0
  else if rosterBusy s then cmdFail s stBusy 0
  else cmdWait (flashSync (.updEnd (some c) (stateWord s)) s))

/-- A message the PLDM update agent sends of itself (DSP0267). -/
def pldmReq (cmd : Nat) (d : Bytes) (s : State) : State :=
  mgOut ([0x01#8, 0x80#8, 0x05#8] ++ toLe 1 cmd ++ d) s

/-- RequestFirmwareData for the next part of the component (R196). -/
def pldmAsk (s : State) : State :=
  let u := s.upd
  pldmReq 0x15 (toLe 4 u.pldmOff ++ toLe 4 (min u.pldmMax (u.length - u.pldmOff))) s

/-- The end of a verify (R185): the answer, or VerifyComplete and ApplyComplete on the PLDM path (Table 8-6). -/
def updVerifyEnd (c : HostCall) (word : Nat) (st detail typ code : Nat) (s : State) : State :=
  let s := { s with upd := { s.upd with rtype := typ, rcode := code } }
  if c.ch = pldmCh then
    let u := { s.upd with pldmSt := if st = 0 then 2 else 4, pldmRes := code }
    let s := pldmReq 0x17 (toLe 1 (if st = 0 then 0 else 1)) { s with upd := u }
    if st = 0 then pldmReq 0x18 (toLe 3 0) s else s
  else answer c 0x804 word st detail (toLe 1 s.upd.status ++ toLe 1 typ ++ toLe 1 code ++ toLe 1 0) s

/-- Every image passed (R185): VERIFIED; for a recovery bundle the update record is erased next (R187). -/
def updVerified (c : HostCall) (word : Nat) (s : State) : State :=
  let s := setUpd 3 s
  if s.upd.target = 2 then flashSync (.updVerified c word) s else updVerifyEnd c word stOk 0 0 0 s

/-- The next image of a verify: checks 1 to 6, then its class 2 entry (R185). -/
def updVerifyNext (c : HostCall) (word : Nat) (left : List Nat) (s : State) : State :=
  match left with
  | [] => updVerified c word s
  | t :: _ =>
    let code := imgCheck8 s s.upd.target t
    if 1 ≤ code && code ≤ 6 then updVerifyEnd c word stVerifyFail 0 t code (setUpd 2 s)
    else match readImg s s.upd.target t with
      | none => updVerifyEnd c word stVerifyFail 0 t 2 (setUpd 2 s)
      | some i =>
        let k := slice i.h 128 2688
        pqAdd 2 (.updVerify c word left) (verifyJobs (slice k 0 96) (slice k 96 2592) (i.h.take 2816) (slice i.h 2816 96) (slice i.h 2912 4627)) s

/-- An image's signatures have been checked (checks 7 and 8), then check 9 on the body as flash holds it. -/
def updVerifyDone (c : HostCall) (word : Nat) (left : List Nat) (e : Nat) (ec ml : Bool) (s : State) : State :=
  match left with
  | [] => s
  | t :: r =>
    let bodyOk : Bool := match readImg s s.upd.target t with | some i => imgBodyOk i | none => false
    let code := if !ec then 7 else if !ml then 8 else if !bodyOk then 9 else 0
    if !(s.upd.status = 2 || s.upd.status = 3) then updVerifyEnd c word stBadState 0 0 0 s
    else if e ≠ 0 then updVerifyEnd c word stPkeError e t 0 (setUpd 2 s)
    else if code ≠ 0 then updVerifyEnd c word stVerifyFail 0 t code (setUpd 2 s)
    else updVerifyNext c word r s

/-- The type of a directory entry that the bundle may not hold (R176, R185). -/
def bundleExtra (k : Nat) (s : State) : Option Nat :=
  ((dirEntries s k).map (fun e => field e 0 1)).find? (fun t => t != 0 && !decide (t ∈ bundleTypes k))

/-- A verify begins (R185): a bundle that holds another type is refused with code 0x2. -/
def updVerifyBegin (c : HostCall) (word : Nat) (s : State) : State :=
  match bundleExtra s.upd.target s with
  | some t => updVerifyEnd c word stVerifyFail 0 t 2 (setUpd 2 s)
  | none => updVerifyNext c word (bundleTypes s.upd.target) s

/-- UPD_VERIFY (R185). -/
def updVerifyBody : HostCall → State → CmdRes := sized 0 (fun c s =>
  if s.upd.pldm then cmdFail s stBusy 0
  else if !(s.upd.status = 2 || s.upd.status = 3) || !updTargetOk s.upd.target s then cmdFail s stBadState 0
  else cmdWait (updVerifyBegin c (stateWord s) s))

/-- The checks of UPD_ACTIVATE (R187). -/
def updActivateCheck (s : State) : Option Nat :=
  if s.upd.status ≠ 3 || 2 ≤ s.upd.target || !(s.pkg.st == .idle || s.pkg.st == .recovery) then some stBadState
  else if rosterBusy s then some stBusy else none

/-- UPD_ACTIVATE (R187). -/
def updActivateBody : HostCall → State → CmdRes := sized 4 (fun c s =>
  let f := field c.payload 0 1
  if !allZero (slice c.payload 1 3) || 1 < f then cmdFail s stMalformed 0
  else if s.upd.pldm then cmdFail s stBusy 0
  else match updActivateCheck s with
    | some st => cmdFail s st 0
    | none => cmdWait (flashSync (.updActivate (some c) (stateWord s) (f == 1)) s))

/-- The checks of UPD_CANCEL (R192); none with NONE, which a repeat meets. -/
def updCancelCheck (s : State) : Option Nat :=
  if 5 ≤ s.upd.status || (s.upd.status = 4 && s.pkg.st != .idle) || !updTargetOk s.upd.target s then some stBadState
  else if rosterBusy s then some stBusy else none

/-- UPD_CANCEL (R192). -/
def updCancelBody : HostCall → State → CmdRes := sized 0 (fun c s =>
  if s.upd.pldm then cmdFail s stBusy 0
  else if s.upd.status = 0 then cmdOk s (toLe 4 0)
  else match updCancelCheck s with
    | some st => cmdFail s st 0
    | none => cmdWait (flashSync (.updCancel (some c) (stateWord s)) s))

/-- USTAT ‖ reserved. -/
def ustat (s : State) : Bytes := toLe 1 s.upd.status ++ toLe 3 0

/-- The end of a PLDM stage by a flash failure: TransferComplete with a result other than 0 (R196). -/
def pldmFail (s : State) : State := pldmReq 0x16 (toLe 1 0x02) { s with upd := { s.upd with pldmSt := 3, pldmRes := 2 } }

/-- UPD_BEGIN's flash work is done (R184): the record and the erased blocks. -/
def updBegun (c : Option HostCall) (word target len : Nat) (ok : Bool) (s : State) : State :=
  if !ok then
    let s := flashErrorEv 0x3000 1 s
    match c with | some c => answer c 0x801 word stFlashError 0 (toLe 4 0) s | none => pldmFail s
  else
    let s := flashErase (regionBase target) ((len + 65535) / 65536 * 65536) (writeUpd target 1 len s)
    let s := setUpd 1 { s with upd := { s.upd with target := target, length := len, prog := [], rtype := 0, rcode := 0 } }
    match c with | some c => answer c 0x801 word stOk 0 (ustat s) s | none => pldmAsk { s with upd := { s.upd with pldmSt := 3, pldmOff := 0 } }

/-- UPD_END's flash work is done: the record reads COMPLETE. The PLDM path verifies at once (Table 8-6). -/
def updEnded (c : Option HostCall) (word : Nat) (ok : Bool) (s : State) : State :=
  if !ok then
    let s := flashErrorEv 0x3000 1 s
    match c with | some c => answer c 0x803 word stFlashError 0 (toLe 4 0) s | none => pldmFail s
  else
    let s := setUpd 2 (writeUpd s.upd.target 2 s.upd.length s)
    match c with
    | some c => answer c 0x803 word stOk 0 (ustat s) s
    | none =>
      let s := pldmReq 0x16 [0#8] { s with upd := { s.upd with pldmSt := 4 } }
      if s.wd.fw == .rom then
        -- The ROM checks the recovery image itself and then requests a warden reset (R163, R193).
        (let code := if (bundleExtra 2 s).isSome then 2 else imgCheck s 2 5
         let s := updVerifyEnd ⟨pldmCh, 0, false, []⟩ 0 (if code = 0 then stOk else stVerifyFail) 0 (if code = 0 then 0 else 5) code s
         if code = 0 then softReset 0 s else s)
      else updVerifyBegin ⟨pldmCh, 0, false, []⟩ 0 s

/-- UPD_DATA's flash work is done (R184). -/
def updProgrammed (c : Option HostCall) (word off : Nat) (d : Bytes) (ok : Bool) (s : State) : State :=
  if !ok then
    let s := flashErrorEv (regionBase s.upd.target + off) 1 s
    match c with | some c => answer c 0x802 word stFlashError 0 (toLe 8 0) s | none => pldmFail s
  else
    let s := flashProg (regionBase s.upd.target + off) d s
    let s := { s with upd := { s.upd with prog := rangeAdd off d.length s.upd.prog } }
    match c with
    | some c => answer c 0x802 word stOk 0 (toLe 4 (programmed s) ++ toLe 4 0) s
    | none =>
      let s := { s with upd := { s.upd with pldmOff := off + d.length } }
      if s.upd.length ≤ s.upd.pldmOff then flashSync (.updEnd none 0) s else pldmAsk s

/-- UPD_ACTIVATE's commit is done (R187): TRIAL selector, record erased, PENDING; a reset follows without DEFER. -/
def updActivated (c : Option HostCall) (word : Nat) (defer ok : Bool) (s : State) : State :=
  if !ok then
    let s := commitFail s
    match c with | some c => answer c 0x805 word stFlashError 0 (toLe 4 0) s | none => s
  else
    let s := commitSel s.upd.target 2 (selTgt s) (setDigest s.upd.target s) s
    let s := setUpd 4 (flashErase 0x3000 4096 s)
    match c with
    | some c =>
      let s := answer c 0x805 word stOk 0 (ustat s) s
      if defer then s else resetAfterReply c 3 s
    | none => if defer then { s with upd := { s.upd with pldm := false, pldmSt := 0 } } else softReset 3 s

/-- The warden reset that an activated update was to take no longer follows (R192). -/
def noUpdReset (s : State) : State :=
  { s with mb := { s.mb with chans := s.mb.chans.map (fun x => if x.reset == some 3 then { x with reset := none } else x) } }

/-- UPD_CANCEL's flash work is done (R192). -/
def updCancelled (c : Option HostCall) (word : Nat) (ok : Bool) (s : State) : State :=
  if !ok then
    let s := if s.upd.status = 4 then commitFail s else flashErrorEv 0x3000 1 s
    match c with | some c => answer c 0x806 word stFlashError 0 (toLe 4 0) s | none => s
  else
    let s := if s.upd.status = 4 then
        setUpd 2 (noUpdReset (commitSel s.boot.chosen 1 (selTgt s) (setDigest s.boot.chosen s) s))
      else setUpd 0 (flashErase 0x3000 4096 s)
    match c with | some c => answer c 0x806 word stOk 0 (ustat s) s | none => s

/-- The update record names the slot that was abandoned, COMPLETE (R189, R191). -/
def recordAbandoned (slot : Nat) (s : State) : State :=
  let n := bundleEnd slot s
  let s := writeUpd slot 2 n s
  { s with upd := { s.upd with target := slot, length := n, prog := [(0, n)], awaitCommit := false } }

/-- A confirming, falling-back or reverting selector is committed (R189, R191). -/
def selCommitted (slot st : Nat) (reset ok : Bool) (s : State) : State :=
  if !ok then commitFail s
  else if reset then
    let s := recordAbandoned s.boot.chosen (commitSel slot 1 (selTgt s) (setDigest slot s) s)
    softReset 4 (logEvent 0x0803 0xFF (toLe 1 2 ++ toLe 1 s.boot.chosen) s)
  else if st = 1 then
    let sd := match selector s with | some (_, c) => slice c 16 48 | none => s.boot.setDigest
    let s := burnSvn s.boot.runSvn [] (commitSel s.boot.pref 1 s.boot.runSvn sd s)
    setUpd 0 (logEvent 0x0802 0xFF ((s.boot.runSvn.take 4).flatMap (toLe 1)) { s with upd := { s.upd with awaitCommit := false } })
  else
    let s := commitSel s.boot.chosen 1 (selTgt s) (setDigest s.boot.chosen s) s
    setUpd 2 (recordAbandoned (1 - s.boot.chosen) (logEvent 0x0803 0xFF (toLe 1 1 ++ toLe 1 s.boot.chosen) s))

/-- A health check has failed (R191): the entry actions of R47 run first in a main-rail state, then the reverting selector. -/
def trialFail (s : State) : State :=
  if !s.pkg.st.main then revert s
  else
    let s := quarHalt s
    { s with pkg := { s.pkg with quarClr := true }, upd := { s.upd with revertDue := true } }

/-- A trial or fallback may be judged now (R189). -/
def trialReady (s : State) : Bool :=
  fwWfw s && s.pkg.st == .idle && s.upd.awaitCommit && !s.upd.revertDue && s.fq.sync.isNone

/-- Every check has passed: the confirming selector, or in FALLBACK the one for the boot slot (R189). -/
def trialPass (s : State) : State :=
  if trialReady s then flashSync (.selector s.boot.chosen (if s.upd.status = 5 then 1 else 2) false) s else s

/-- The message of the known-answer entry: a constant whose value the spec does not give (log entry 1). -/
def katMsg : Bytes := Config.std 42 []

/-- The soak of R189 ends; `ok` says that every heartbeat kept within its limit through it. The DRBG's health and the units
are looked at, and the known-answer signatures are queued (class 1: DESIGN CHOICE, log entry 70). -/
def trialCheck (ok : Bool) (s : State) : State :=
  let beats := (coreUnits s).all (fun u => unitUp s u && decide ((unitS s u).hbAge ≤ (unitS s u).hbLim))
  if !trialReady s || (s.pq.wait ++ s.pq.run.toList).any (fun e => e.purp == .health false || e.purp == .health true) then s
  else if !(ok && beats && s.ks.drbgOk) then trialFail s
  else pqAdd 1 (.health false) (signJobs s katMsg) s

/-- A known-answer entry has ended (R189): the verifies follow the signatures. -/
def healthDone (verify : Bool) (e : Nat) (ec ml : Bytes) (ok : Bool) (s : State) : State :=
  if !trialReady s then s
  else if e ≠ 0 then trialFail s
  else if !verify then pqAdd 1 (.health true) (verifyJobs (identQ s) (identPk s) katMsg ec ml) s
  else if ok then trialPass s else trialFail s

/-- The update group's synchronous flash operations end. -/
def updSync (f : FSync) (ok : Bool) (s : State) : State :=
  match f with
  | .updBegin c word t n => updBegun c word t n ok s
  | .updData c word off d => updProgrammed c word off d ok s
  | .updEnd c word => updEnded c word ok s
  | .updActivate c word defer => updActivated c word defer ok s
  | .updCancel c word => updCancelled c word ok s
  | .updVerified c word =>
    if ok then updVerifyEnd c word stOk 0 0 0 (setUpd 0 (flashErase 0x3000 4096 s))
    else updVerifyEnd c word stFlashError 0 0 0 (flashErrorEv 0x3000 1 s)
  | .selector slot st reset => selCommitted slot st reset ok s
  | _ => s

/-- One trace record of 32 bytes (Table 22-7). -/
def traceBytes (r : TraceRec) : Bytes :=
  toLe 8 r.seq ++ toLe 8 r.time ++ toLe 1 r.point ++ toLe 1 r.unit ++ toLe 2 0 ++ toLe 4 r.a ++ toLe 8 r.b

/-- What a ring read answers (R505): entries from a sequence number on, or ST_NOT_FOUND with the oldest held. -/
def ringRead (l : List (Nat × Bytes)) (nextSeq from' max : Nat) (s : State) : CmdRes :=
  let oldest := match l with | e :: _ => e.1 | [] => nextSeq
  if from' < oldest then ⟨s, some (stNotFound, 1, toLe 8 0 ++ toLe 8 oldest), false⟩
  else
    let es := (l.filter (fun e => decide (from' ≤ e.1))).take max
    cmdOk s (toLe 4 es.length ++ toLe 4 0 ++ toLe 8 (from' + es.length) ++ es.flatMap (fun e => e.2))

/-- LOG_READ (R505, R508). -/
def logReadBody : HostCall → State → CmdRes := sized 16 (fun c s =>
  let p := c.payload
  let from' := field p 0 8
  let n := field p 8 2
  let sc := field p 10 1
  if n = 0 || 128 < n || 1 < sc || !allZero (slice p 11 5) then cmdFail s stMalformed 0
  else if sc = 1 then ringRead (s.lg.ten.map (fun e => (e.seq, logBytes e))) s.lg.tenSeq from' n s
  else
    let r := ringRead (s.lg.pkg.map (fun e => (e.seq, logBytes e))) s.lg.pkgSeq from' n s
    match r.reply with
    | some (st, _, body) =>
      if st = stOk && c.ch ≠ mgCh then { r with s := { s with lg := { s.lg with next := field body 8 8, vecSent := false } } } else r
    | none => r)

/-- LOG_CONFIG (R505). -/
def logConfigBody : HostCall → State → CmdRes := sized 4 (fun c s =>
  if !allZero (slice c.payload 2 2) then cmdFail s stMalformed 0
  else cmdOk (logVector { s with lg := { s.lg with thresh := field c.payload 0 2 } }) [])

/-- TRACE_CONFIG (R509). -/
def traceConfigBody : HostCall → State → CmdRes := sized 8 (fun c s =>
  let m := field c.payload 0 8
  if 2 ^ 16 ≤ m then cmdFail s stMalformed 0 else cmdOk { s with lg := { s.lg with mask := m } } (toLe 8 m))

/-- TRACE_READ (R509). -/
def traceReadBody : HostCall → State → CmdRes := sized 16 (fun c s =>
  let n := field c.payload 8 2
  if n = 0 || 128 < n || !allZero (slice c.payload 10 6) then cmdFail s stMalformed 0
  else ringRead (s.lg.trace.map (fun e => (e.seq, traceBytes e))) s.lg.traceSeq (field c.payload 0 8) n s)

/-- RCPT_BATCH (R359). -/
def rcptBatchBody : HostCall → State → CmdRes := sized 8 (fun c s =>
  let n := field c.payload 0 8
  let all := s.rc.archive ++ s.rc.last.toList
  match all.find? (fun b => b.1 == n) with
  | some b => cmdOk s (if feat s 3 then b.2 else b.2.take (b.2.length - 4627))
  | none =>
    if s.rc.waiting.any (fun b => b.num == n) || s.rc.signing.any (fun b => b.num == n) then cmdFail s stBusy 0
    else cmdFail s stNotFound 0)

/-- SVC_NONCE (R253). -/
def svcNonceBody : HostCall → State → CmdRes := sized 0 (fun _ s =>
  let (n, s) := drawBytes 32 s
  cmdOk { s with idn := { s.idn with nonce := some n } } (n ++ mfgId s))

/-- The service token's checks 1 to 5 (R252), then its class 2 entry; the nonce is consumed when they begin. -/
def tokenCheck (op arg : Nat) (b : Bytes) (c : HostCall) (s : State) : CmdRes :=
  let n := s.idn.nonce
  let s := { s with idn := { s.idn with nonce := none } }
  let fail (st d : Nat) : CmdRes := cmdFail s st d
  let vk := field b 56 1
  if b.length ≠ 7475 || field b 0 4 ≠ 0x43565354 || field b 4 2 ≠ 1 || !allZero (slice b 57 7) then fail stMalformed 1
  else if field b 6 2 ≠ op || field b 8 8 ≠ arg then fail stAuthFail 2
  else if slice b 16 8 != mfgId s then fail stAuthFail 3
  else if n != some (slice b 24 32) then fail stAuthFail 4
  else if 3 < vk || !vkeyUsable s vk || Config.sha384 (slice b 64 2688) != vkh s vk then fail stAuthFail 5
  else cmdWait (pqAdd 2 (.token c (stateWord s) op arg)
    (verifyJobs (slice b 64 96) (slice b 160 2592) (b.take 2752) (slice b 2752 96) (slice b 2848 4627)) s)

/-- Whether a life-cycle transition is permitted in the package state (R102). -/
def lcPermitted (sel : Nat) (s : State) : Bool :=
  lcAllowed s.otp sel && (if sel = 2 then s.pkg.st == .idle else s.pkg.st == .idle || s.pkg.st == .quarantine || s.pkg.st == .recovery)

/-- LC_ADVANCE (R102, R252). -/
def lcAdvanceBody : HostCall → State → CmdRes := staged 32 8 (fun b c s =>
  let sel := field c.payload 0 1
  if !allZero (slice c.payload 1 7) || !(2 ≤ sel && sel ≤ 4) then cmdFail s stMalformed 0
  else if !lcPermitted sel s then cmdFail s stBadState 0
  else tokenCheck 1 sel b c s)

/-- VKEY_REVOKE (R157, R252). -/
def vkeyRevokeBody : HostCall → State → CmdRes := staged 32 8 (fun b c s =>
  let k := field c.payload 0 1
  if !allZero (slice c.payload 1 7) || 3 < k then cmdFail s stMalformed 0
  else tokenCheck 2 k b c s)

/-- Another usable vendor key slot remains (R157). -/
def otherVkey (k : Nat) (s : State) : Bool := (List.range 4).any (fun i => i != k && vkeyUsable s i)

/-- OT_STATUS (Table 4-8). -/
def otStatus (o : Otp) : Nat := b2n o.busy + 2 * b2n o.done + 4 * b2n o.err + 8 * b2n o.weak + 256 * o.ecode + 4096 * o.pulses

/-- The OTP controller has ended a command that a service command waits for (R102, R157). -/
def tokenOtpEnd (s : State) : State :=
  let ws := s.uw.filter (fun w => w.u == 2000)
  let s := { s with uw := s.uw.filter (fun w => w.u != 2000) }
  ws.foldl (fun s w =>
    match w.call with
    | none => s
    | some (c, word) =>
      if w.op = 0xB10 then answer c w.op word stOk 0 (toLe 4 (otStatus s.otp)) s
      else if s.otp.err then answer c w.op word stUnitAbort 0 [] s
      else if w.op = 0xA02 then answer c w.op word stOk 0 (toLe 1 s.otp.revoke ++ toLe 3 0) s
      else
        let s := answer c w.op word stOk 0 (toLe 1 w.arg ++ toLe 3 0) (logEvent 0x0203 0xFF (toLe 1 s.otp.lc ++ toLe 1 w.arg) s)
        resetAfterReply c 2 s) s

/-- The token's signatures have been checked (R252 check 6): LC_ADVANCE destroys every slot and burns the marker
(R102), VKEY_REVOKE burns the slot's cells (R157). -/
def tokenDone (c : HostCall) (word op arg e : Nat) (ok : Bool) (s : State) : State :=
  let code := if op = 1 then 0xA01 else 0xA02
  let fail (st d : Nat) (s : State) : State := answer c code word st d (toLe 4 0) s
  if e ≠ 0 then fail stPkeError e s
  else if !ok then fail stAuthFail 6 s
  else if op = 1 then
    if !lcPermitted arg s then fail stBadState 0 s
    else
      let s := otLc arg (zeroAllSlots s)
      let s := unitSend 2000 0xA01 (some (c, word)) arg s
      if s.otp.job.isSome then s else tokenOtpEnd s
  else if !otherVkey arg s then fail stLimit 0 s
  else
    let s := unitSend 2000 0xA02 (some (c, word)) arg (otRevoke arg s)
    if s.otp.job.isSome then s else tokenOtpEnd s

/-- SVC_QUARANTINE (R267): QCAUSE 0x0D, REASON in an EV_STATE entry (log entry 37). RECOVERY has no transition to QUARANTINE by
command (R41), so there it answers ST_BAD_STATE (DESIGN CHOICE, log entry 37). -/
def svcQuarantineBody : HostCall → State → CmdRes := sized 4 (fun c s =>
  if s.pkg.st == .recovery then cmdFail s stBadState 0
  else if s.pkg.st == .quarantine then { cmdOk s [] with after := true }
  else
    let old := stateWord s
    let s := quarantine 0x0D s
    { cmdOk (logEvent 0x0102 0xFF (toLe 4 old ++ toLe 1 0x0D ++ slice c.payload 0 4) s) [] with after := true })

/-- WARDEN_RESET (R267): the reset follows the posted response. -/
def wardenResetBody : HostCall → State → CmdRes := sized 0 (fun c s => cmdOk (if c.ch < 8 then resetAfterReply c 5 s else s) [])

/-- UPD_STATUS. -/
def execUpdStatus (c : HostCall) (s : State) : Res := .next (runCmd 0x800 updStatusBody c s)
/-- UPD_BEGIN. -/
def execUpdBegin (c : HostCall) (s : State) : Res := .next (runCmd 0x801 updBeginBody c s)
/-- UPD_DATA. -/
def execUpdData (c : HostCall) (s : State) : Res := .next (runCmd 0x802 updDataBody c s)
/-- UPD_END. -/
def execUpdEnd (c : HostCall) (s : State) : Res := .next (runCmd 0x803 updEndBody c s)
/-- UPD_VERIFY. -/
def execUpdVerify (c : HostCall) (s : State) : Res := .next (runCmd 0x804 updVerifyBody c s)
/-- UPD_ACTIVATE. -/
def execUpdActivate (c : HostCall) (s : State) : Res := .next (runCmd 0x805 updActivateBody c s)
/-- UPD_CANCEL. -/
def execUpdCancel (c : HostCall) (s : State) : Res := .next (runCmd 0x806 updCancelBody c s)
/-- TRIAL_HEALTH_CHECK (R189). -/
def execTrialHealthCheck (ok : Bool) (s : State) : Res := .next (trialCheck ok s)
/-- LOG_READ. -/
def execLogRead (c : HostCall) (s : State) : Res := .next (runCmd 0x900 logReadBody c s)
/-- LOG_CONFIG. -/
def execLogConfig (c : HostCall) (s : State) : Res := .next (runCmd 0x901 logConfigBody c s)
/-- TRACE_CONFIG. -/
def execTraceConfig (c : HostCall) (s : State) : Res := .next (runCmd 0x902 traceConfigBody c s)
/-- TRACE_READ. -/
def execTraceRead (c : HostCall) (s : State) : Res := .next (runCmd 0x903 traceReadBody c s)
/-- RCPT_BATCH. -/
def execRcptBatch (c : HostCall) (s : State) : Res := .next (runCmd 0x904 rcptBatchBody c s)
/-- SVC_NONCE. -/
def execSvcNonce (c : HostCall) (s : State) : Res := .next (runCmd 0xA00 svcNonceBody c s)
/-- LC_ADVANCE. -/
def execLcAdvance (c : HostCall) (s : State) : Res := .next (runCmd 0xA01 lcAdvanceBody c s)
/-- VKEY_REVOKE. -/
def execVkeyRevoke (c : HostCall) (s : State) : Res := .next (runCmd 0xA02 vkeyRevokeBody c s)
/-- SVC_QUARANTINE. -/
def execSvcQuarantine (c : HostCall) (s : State) : Res := .next (runCmd 0xA03 svcQuarantineBody c s)
/-- WARDEN_RESET. -/
def execWardenReset (c : HostCall) (s : State) : Res := .next (runCmd 0xA04 wardenResetBody c s)
/-- OT_CMD_COMPLETE (R93): a service command that waits for it goes on. -/
def execOtCmdComplete (x : List PulseOut) (s : State) : Res :=
  .next (if s.otp.job.isSome then tokenOtpEnd (otComplete x s) else s)
/-- STANDBY_PROG_WINDOW_EXIT (R94): a pulse in progress is cut, its command ends, PROGWIN is set. -/
def execStandbyProgWindowExit (s : State) : Res :=
  .next (if s.pkg.standby && s.pkg.progWin then
      if s.otp.job.isSome then tokenOtpEnd (setNotice 14 (otWindowExit s)) else setNotice 14 (otWindowExit s)
    else s)
/-- PERSISTENT_LOG_FLUSH (R507). -/
def execPersistentLogFlush (s : State) : Res := .next (if fwWfw s then logFlush s else s)

end Sys2Proof.Machine
end

