-- ==== Sys2Proof/Machine/HostExec.lean ====
section
/-! DEFINITION. Functions and links (R204, R218), the mailbox rows (R202, R226, R240), and which body each opcode of
Tables 11-4 to 11-14 runs. -/

namespace Sys2Proof.Machine

/-- A function exists: a port die of the assembly. -/
def fnExists (s : State) (d : Nat) : Bool := decide (d < (portUnits s).length)

/-- PERST_N of an endpoint (R204, Table 9-3): its registers, its effects, and its link. -/
def perstAssert (d : Nat) (s : State) : State :=
  if !fnExists s d || !(fnS s d).perstN then s
  else fnDown d (modFn d (fun f => { f with perstN := false, up := false }) s)

/-- The Data Link Layer goes down (R204): as PERST_N. -/
def dllDown (d : Nat) (s : State) : State :=
  if !fnExists s d || !(fnS s d).up then s else fnDown d (modFn d (fun f => { f with up := false }) s)

/-- FLR (R204): as PERST_N on its function; the link stays. -/
def flr (d : Nat) (s : State) : State := if fnExists s d && (fnS s d).up then fnDown d s else s

/-- An endpoint reaches L0 (R218): training enabled, port rail good, PERST_N deasserted, REFCLK_PCIE running. Requests
that stand are published again (R523). The rate, one of six, and the width are what both partners support; FLIT mode is
certain at 64 GT/s and else the partner's matter, a free value (Table 9-2). -/
def linkUp (d gen width : Nat) (s : State) : State :=
  let f := fnS s d
  if !fnExists s d || f.up || !f.ltEn || !f.perstN || !s.pkg.portPg || !s.pkg.refPcie || !unitUp s (unitOfOrd s d) || 6 ≤ gen || !decide (width ∈ Config.linkWidths) then s
  else
    let flit := gen == 5 || Config.freeNat s.draws % 2 == 1
    let s := modFn d (fun f => { f with up := true, gen := gen, width := width, flit := flit }) { s with draws := s.draws + 1 }
    if d = 0 && s.mg.mreq ≠ 0 then raiseHost 0 6 0 s else s

/-- RESULT_READ after its admission (R233). -/
def resultReadRun (c : HostCall) (s : State) : State :=
  match admission 4 c.sealed c.payload s with
  | some st => buildRsp c 4 0 st [] s
  | none => resultRead c s

/-- The bodies of the mailbox commands by opcode, groups 0x00 to 0x03. -/
def bodyLow (op : Nat) : Option (HostCall → State → CmdRes) :=
  match op with
  | 0x000 => some featureOfferBody
  | 0x001 => some featureAcceptBody
  | 0x002 => some modeSetBody
  | 0x003 => some channelResetBody
  | 0x005 => some resultReleaseBody
  | 0x006 => some stagePutBody
  | 0x007 => some stageClearBody
  | 0x100 => some attReportBody
  | 0x101 => some attCertsBody
  | 0x102 => some attMeasLogBody
  | 0x103 => some attEphemeralBody
  | 0x200 => some tenantEnrollBody
  | 0x201 => some tenantStageBody
  | 0x202 => some tenantLoadBody
  | 0x203 => some tenantEvictBody
  | 0x204 => some tenantRevokeBody
  | 0x205 => some tenantStatusBody
  | 0x206 => some tenantListBody
  | 0x207 => some tenantReceiptBody
  | 0x300 => some wpkOpenBody
  | 0x301 => some keyReleaseBody
  | 0x302 => some keyReleaseSetBody
  | 0x303 => some wpkLoadBody
  | 0x304 => some wpkFinishBody
  | 0x305 => some wpkStatusBody
  | 0x306 => some wpkCloseBody
  | _ => none

/-- The bodies of groups 0x04 to 0x07. -/
def bodyMid (op : Nat) : Option (HostCall → State → CmdRes) :=
  match op with
  | 0x400 => some progLoadBody
  | 0x401 => some jobSubmitBody
  | 0x402 => some jobCancelBody
  | 0x403 => some jobStatusBody
  | 0x404 => some rcptFlushBody
  | 0x500 => some astCreateBody
  | 0x501 => some astDestroyBody
  | 0x502 => some astInvalidateBody
  | 0x503 => some prefetchBody
  | 0x504 => some adviseBody
  | 0x505 => some faultResumeBody
  | 0x506 => some mirrorSetBody
  | 0x507 => some regionSetBody
  | 0x600 => some linkStatusBody
  | 0x601 => some linkKeyxBody
  | 0x602 => some linkJobEndBody
  | 0x603 => some linkBoundsBody
  | 0x604 => some linkClearBody
  | 0x700 => some pwrStatusBody
  | 0x701 => some pwrCapBody
  | 0x702 => some limitBody
  | 0x703 => some unitStatusBody
  | 0x704 => some memTelemBody
  | 0x705 => some perfReadBody
  | 0x706 => some powerDownBody
  | 0x707 => some telemThreshBody
  | 0x708 => some irqQuantBody
  | _ => none

/-- The bodies of groups 0x08 to 0x0A. -/
def bodyHigh (op : Nat) : Option (HostCall → State → CmdRes) :=
  match op with
  | 0x800 => some updStatusBody
  | 0x801 => some updBeginBody
  | 0x802 => some updDataBody
  | 0x803 => some updEndBody
  | 0x804 => some updVerifyBody
  | 0x805 => some updActivateBody
  | 0x806 => some updCancelBody
  | 0x900 => some logReadBody
  | 0x901 => some logConfigBody
  | 0x902 => some traceConfigBody
  | 0x903 => some traceReadBody
  | 0x904 => some rcptBatchBody
  | 0xA00 => some svcNonceBody
  | 0xA01 => some lcAdvanceBody
  | 0xA02 => some vkeyRevokeBody
  | 0xA03 => some svcQuarantineBody
  | 0xA04 => some wardenResetBody
  | _ => none

/-- Run the command an opcode names (R243). -/
def hostDispatch (op : Nat) (c : HostCall) (s : State) : State :=
  if op = 4 then resultReadRun c s
  else match (bodyLow op).or ((bodyMid op).or (bodyHigh op)) with
    | some f => runCmd op f c s
    | none => buildRsp c op 0 stUnknownOpcode [] s

/-- PERST_N_ASSERT (R204). -/
def execPerstNAssert (d : Nat) (s : State) : Res := .next (perstAssert d s)
/-- PERST_N_DEASSERT (R218). -/
def execPerstNDeassert (d : Nat) (s : State) : Res := .next (if fnExists s d then modFn d (fun f => { f with perstN := true }) s else s)
/-- FUNCTION_LEVEL_RESET (R204). -/
def execFunctionLevelReset (d : Nat) (s : State) : Res := .next (flr d s)
/-- DATA_LINK_LAYER_DOWN (R204). -/
def execDataLinkLayerDown (d : Nat) (s : State) : Res := .next (dllDown d s)
/-- REFCLK_PCIE_LOSS (R562): every endpoint's Data Link Layer goes down, handled as PERST_N. -/
def execRefclkPcieLoss (s : State) : Res :=
  .next ((List.range 4).foldl (fun s d => dllDown d s) { s with pkg := { s.pkg with refPcie := false } })
/-- LINK_UP (R218). -/
def execLinkUp (x : LinkIn) (s : State) : Res := .next (linkUp x.d x.gen x.width s)
/-- D3HOT_ENTRY (R204). -/
def execD3hotEntry (d : Nat) (s : State) : Res := .next (if (fnS s d).up then modFn d (fun f => { f with d3 := true }) s else s)
/-- D0_ENTRY (R204). -/
def execD0Entry (d : Nat) (s : State) : Res := .next (sendPending d (modFn d (fun f => { f with d3 := false }) s))
/-- MSIX_UNMASK (R211). -/
def execMsixUnmask (d vector : Nat) (s : State) : Res :=
  .next (if barOn s d && decide (vector < 64) then sendPending d (modFn d (fun f => { f with mask := setBit f.mask vector false }) s) else s)
/-- MBX_BUFFER_WRITE (R202). -/
def execMbxBufferWrite (ch off : Nat) (data : Bytes) (s : State) : Res := .next (mbxWrite ch off data s)
/-- MBX_DOORBELL (R226). -/
def execMbxDoorbell (ch len : Nat) (s : State) : Res := .next (mbxDoorbell ch len s)
/-- MBX_RSP_ACK (R226). -/
def execMbxRspAck (ch : Nat) (s : State) : Res :=
  .next (if barOn s 0 then modChan ch (fun c => { c with rspValid := false }) s else s)
/-- HMB_TAKE (R240). -/
def execHmbTake (ch : Nat) (s : State) : Res := .next (hmbTake ch s)
/-- HMB_MOVE_DONE (R227, R240). -/
def execHmbMoveDone (ch : Nat) (s : State) : Res := .next (hmbMoveDone hostDispatch ch s)
/-- JOB_DUPLICATE_RELEASE (R231). -/
def execJobDuplicateRelease (ch : Nat) (s : State) : Res := .next (dupRelease ch s)
/-- HMB_POST (R240). -/
def execHmbPost (ch : Nat) (s : State) : Res := .next (hmbPost ch s)
/-- HMB_CLRRSP (R240). -/
def execHmbClrrsp (ch : Nat) (s : State) : Res := .next (modChan ch (fun c => { c with rspValid := false }) s)
/-- FEATURE_OFFER (R206). -/
def execFeatureOffer (c : HostCall) (s : State) : Res := .next (runCmd 0x000 featureOfferBody c s)
/-- FEATURE_ACCEPT (R207). -/
def execFeatureAccept (c : HostCall) (s : State) : Res := .next (runCmd 0x001 featureAcceptBody c s)
/-- CHANNEL_RESET (R237). -/
def execChannelReset (c : HostCall) (s : State) : Res := .next (runCmd 0x003 channelResetBody c s)
/-- RESULT_READ (R233). -/
def execResultRead (c : HostCall) (s : State) : Res := .next (resultReadRun c s)
/-- RESULT_RELEASE (R232). -/
def execResultRelease (c : HostCall) (s : State) : Res := .next (runCmd 0x005 resultReleaseBody c s)
/-- STAGE_PUT (R250). -/
def execStagePut (c : HostCall) (s : State) : Res := .next (runCmd 0x006 stagePutBody c s)
/-- STAGE_CLEAR (R250). -/
def execStageClear (c : HostCall) (s : State) : Res := .next (runCmd 0x007 stageClearBody c s)

end Sys2Proof.Machine
end

