-- ==== Sys2Proof/Machine/Spdm.lean ====
section
/-! DEFINITION. The DOE capability of the primary function and the SPDM responder (R213 to R219, R307). Codes and
layouts of requests and responses are those of DSP0274 version 1.3, of secured messages those of DSP0277, and of data
objects those of PCIe DOE (PRESUMED, log entry 12); transcript selection and key schedule are opaque (log entry 2). -/

namespace Sys2Proof.Machine

/-- The bytes of a request as they enter the transcript. -/
def spdmBytes (code : Nat) (m : SpdmMsg) : Bytes := [0x13#8] ++ toLe 1 code ++ toLe 1 m.p1 ++ toLe 1 m.p2 ++ m.body
/-- A response: version 1.3, code, parameters, body. -/
def spdmRsp (code p1 p2 : Nat) (body : Bytes) : Bytes := [0x13#8] ++ toLe 1 code ++ toLe 1 p1 ++ toLe 1 p2 ++ body
/-- An ERROR response. -/
def spdmErr (code : Nat) : Bytes := spdmRsp 0x7F code 0 []

/-- Handshake key of a direction (DSP0277; log entry 2). -/
def hsKey (s : State) (rsp : Bool) : Bytes := Config.std (if rsp then 14 else 13) [(slotS s 8).content, s.sd.transcript]

/-- Key and IV of secured message `n` of a direction: data keys once the session is open, handshake keys before (R216). -/
def secKey (x : Sess) (rsp : Bool) (n : Nat) (s : State) : Bytes × Bytes :=
  if x.opened then (sessKey s rsp, sessIv s rsp n) else (hsKey s rsp, Config.std 15 [hsKey s rsp, toLe 8 n])

/-- The secured message over DOE that carries a response (R216): session ID, sequence number, length, then under the key the
application data length, the data and no random data, and the MAC (DSP0277). -/
def spdmSeal (x : Sess) (p : Bytes) (s : State) : Bytes :=
  let pt := toLe 2 p.length ++ p
  let head := toLe 4 x.id ++ toLe 8 x.txSeq ++ toLe 2 (pt.length + 16)
  let k := secKey x true x.txSeq s
  head ++ (List.range (pt.length + 16)).map (Config.gcmByte true k.1 k.2 head pt)

/-- A data object (PCIe DOE): vendor 0x0001, type, length in dwords, content padded to a dword. -/
def doeObj (ty : Nat) (p : Bytes) : Bytes :=
  let n := (p.length + 3) / 4
  toLe 4 (1 + 2 ^ 16 * ty) ++ toLe 4 (n + 2) ++ slice p 0 (4 * n)

/-- The object in progress ends with a response: vector 11 (R211, R213). -/
def doeReply (ty : Nat) (p : Bytes) (s : State) : State :=
  let o := doeObj ty p
  raiseHost 0 5 11 (emit (.doe o) { s with sd := { s.sd with busy := false, obj := [], resp := o :: s.sd.resp } })

/-- Answer an SPDM request: a request inside the session is answered in a secured message. The response joins the
transcript. -/
def spdmReply (secured : Bool) (p : Bytes) (s : State) : State :=
  let s := { s with sd := { s.sd with transcript := s.sd.transcript ++ p } }
  match secured, s.sd.sess with
  | true, some x =>
    let r := spdmSeal x p s
    doeReply 2 r { s with sd := { s.sd with sess := some { x with txSeq := x.txSeq + 1 } } }
  | _, _ => doeReply 1 p s

/-- The requests "GET_VERSION to GET_CERTIFICATE" of R217. -/
def spdmEarly (code : Nat) : Bool := code == 0x84 || code == 0xE1 || code == 0xE3 || code == 0x81 || code == 0x82

/-- R217: whether the responder answers at all, and the error code of a refusal. -/
def spdmGate (code : Nat) (signed : Bool) (s : State) : Option (Option Nat) :=
  match s.pkg.st with
  | .idle => some none
  | .loading => some none
  | .active => some none
  | .switching => some none
  | .bringup => some (if spdmEarly code then none else some 3)
  | .quarantine =>
    some (if s.pkg.qcause == 1 && (code == 0x81 || code == 0x82) then some 5
      else if spdmEarly code || (code == 0xE0 && !signed) then none else some 5)
  | .recovery => some (if spdmEarly code || (code == 0xE0 && !signed) then none else some 5)
  | _ => none

/-- Begin an SPDM request: it joins the transcript, a secured one consumes its sequence number. -/
def spdmBegin (code : Nat) (m : SpdmMsg) (s : State) : State :=
  let s := { s with sd := { s.sd with busy := true, tok := s.sd.tok + 1, transcript := s.sd.transcript ++ spdmBytes code m } }
  match m.secured, s.sd.sess with
  | true, some x => { s with sd := { s.sd with sess := some { x with rxSeq := x.rxSeq + 1 } } }
  | _, _ => s

/-- A request reaches the responder: the port must be linked and no object in execution; R217 first. -/
def spdmRequest (code : Nat) (m : SpdmMsg) (signed : Bool) (f : State → State) (s : State) : State :=
  if !(fnS s 0).up || s.sd.busy then s
  else match spdmGate code signed s with
    | none => s
    | some r =>
      let s := spdmBegin code m s
      if m.secured && s.sd.sess.isNone then spdmReply false (spdmErr 2) s
      else match r with
        | some e => spdmReply m.secured (spdmErr e) s
        | none => f s

/-- Requests of R215 after the negotiation: UnexpectedRequest before it. -/
def spdmNegotiated (m : SpdmMsg) (f : State → State) (s : State) : State :=
  if s.sd.stage < 3 then spdmReply m.secured (spdmErr 4) s else f s

/-- GET_VERSION (R214, R216): outside the session it ends the session; inside, it is unexpected. -/
def spdmVersion (m : SpdmMsg) (s : State) : State :=
  spdmRequest 0x84 m false (fun s =>
    if m.secured then spdmReply true (spdmErr 4) s
    else
      let s := sessEnd s
      spdmReply false ([0x10#8] ++ toLe 1 0x04 ++ toLe 2 0 ++ [0#8, 1#8] ++ toLe 2 0x1300)
        { s with sd := { s.sd with stage := 1, transcript := [0x10#8, 0x84#8] ++ toLe 1 m.p1 ++ toLe 1 m.p2 ++ m.body } }) s

/-- GET_CAPABILITIES (Table 9-12). -/
def spdmCaps (m : SpdmMsg) (s : State) : State :=
  spdmRequest 0xE1 m false (fun s =>
    if s.sd.stage ≠ 1 || m.secured then spdmReply m.secured (spdmErr 4) s
    else spdmReply false (spdmRsp 0x61 0 0 ([0#8] ++ toLe 1 18 ++ toLe 2 0 ++ toLe 4 0x2D6 ++ toLe 4 4096 ++ toLe 4 4096))
      { s with sd := { s.sd with stage := 2 } }) s

/-- NEGOTIATE_ALGORITHMS (Table 9-12): DMTF measurements, SHA-384, ECDSA P-384, secp384r1, AES-256-GCM. -/
def spdmAlgs (m : SpdmMsg) (s : State) : State :=
  spdmRequest 0xE3 m false (fun s =>
    if s.sd.stage ≠ 2 || m.secured then spdmReply m.secured (spdmErr 4) s
    else spdmReply false (spdmRsp 0x63 3 0 (toLe 2 48 ++ toLe 1 1 ++ toLe 1 2 ++ toLe 4 4 ++ toLe 4 0x80 ++ toLe 4 2 ++ toLe 12 0 ++ toLe 4 0
        ++ [2#8, 0x20#8] ++ toLe 2 0x10 ++ [3#8, 0x20#8] ++ toLe 2 2 ++ [5#8, 0x20#8] ++ toLe 2 1))
      { s with sd := { s.sd with stage := 3 } }) s

/-- The chain of slot 0 as SPDM carries it: length, root hash, the ECDSA chain of the certificate store (R296). -/
def spdmChain (s : State) : Option Bytes :=
  (certOf 0 s).map (fun d => toLe 2 (d.length + 52) ++ toLe 2 0 ++ slice (Config.std 16 [d]) 0 48 ++ d)

/-- GET_DIGESTS (R215): slot 0 only; with no chain written, Unspecified. -/
def spdmDigests (m : SpdmMsg) (s : State) : State :=
  spdmRequest 0x81 m false (spdmNegotiated m (fun s =>
    match spdmChain s with
    | some ch => spdmReply m.secured (spdmRsp 0x01 1 1 (Config.sha384 ch)) s
    | none => spdmReply m.secured (spdmErr 5) s)) s

/-- GET_CERTIFICATE (R215): a portion of slot 0's chain. -/
def spdmCert (m : SpdmMsg) (s : State) : State :=
  spdmRequest 0x82 m false (spdmNegotiated m (fun s =>
    let off := field m.body 0 2
    let len := field m.body 2 2
    if m.p1 % 16 ≠ 0 || m.body.length ≠ 4 then spdmReply m.secured (spdmErr 1) s
    else match spdmChain s with
      | none => spdmReply m.secured (spdmErr 5) s
      | some ch =>
        if ch.length ≤ off then spdmReply m.secured (spdmErr 1) s
        else
          let n := min (min len 4088) (ch.length - off)
          spdmReply m.secured (spdmRsp 0x02 0 0 (toLe 2 n ++ toLe 2 (ch.length - off - n) ++ slice ch off n)) s)) s

/-- What the responder signs: the DSP0274 prefix of the context and the hash of the transcript it selects. -/
def spdmSigned (ctx : String) (tr : Bytes) : Bytes := Config.sha384 (Config.std 17 [ascii ctx] ++ Config.sha384 (Config.std 18 [ascii ctx, tr]))

/-- The ECDSA signature of a response: one class 1 entry (Table 6-6); Busy where the queue lacks room (R219). `p` is the
response without its signature. -/
def spdmSign (ctx : String) (secured : Bool) (p : Bytes) (s : State) : State :=
  if !pqRoom 1 s then spdmReply secured (spdmErr 3) s
  else pqAdd 1 (.spdm s.sd.tok 0 secured p) [⟨0x12, [spdmSigned ctx (s.sd.transcript ++ p)], some 1, none, 0⟩] s

/-- Measurement summary hash of a CHALLENGE or KEY_EXCHANGE (DSP0274): none, or over the blocks asked for. -/
def summaryHash (ty : Nat) (s : State) : Bytes :=
  if ty = 0 then [] else Config.sha384 ((List.range 32).flatMap (fun i => measBlock (i + 1) (nth {} s.ms.slots i).val))

/-- CHALLENGE (R219). -/
def spdmChallenge (m : SpdmMsg) (s : State) : State :=
  spdmRequest 0x83 m true (spdmNegotiated m (fun s =>
    if m.p1 ≠ 0 || m.body.length ≠ 40 || !(m.p2 = 0 || m.p2 = 1 || m.p2 = 0xFF) then spdmReply m.secured (spdmErr 1) s
    else match spdmChain s with
      | none => spdmReply m.secured (spdmErr 5) s
      | some ch =>
        let (nonce, s) := drawBytes 32 s
        spdmSign "responder-challenge_auth signing" m.secured
          (spdmRsp 0x03 0 1 (Config.sha384 ch ++ nonce ++ summaryHash m.p2 s ++ toLe 2 0 ++ slice m.body 32 8)) s)) s

/-- GET_MEASUREMENTS (R307): index 0 the count, 1 to 33 a block, 0xFF all; block 33 carries SERIAL 0. -/
def spdmMeas (m : SpdmMsg) (s : State) : State :=
  let signed := m.p1 % 2 == 1
  spdmRequest 0xE0 m signed (spdmNegotiated m (fun s =>
    if m.body.length ≠ (if signed then 41 else 8) || (signed && field m.body 32 1 ≠ 0) || !(m.p2 ≤ 33 || m.p2 = 0xFF) then
      spdmReply m.secured (spdmErr 1) s
    else
      let nonce := if signed then slice m.body 0 32 else List.replicate 32 0#8
      let ctx := if signed then slice m.body 33 8 else m.body
      let b33 := claimRecord nonce 0 (breason (!signed) s) (!signed) false s
      let r : Bytes := if m.p2 = 0 then [] else if m.p2 = 0xFF then measRecord b33 s
        else if m.p2 = 33 then measBlock 33 b33 else measBlock m.p2 (nth {} s.ms.slots (m.p2 - 1)).val
      let n := if m.p2 = 0 then 0 else if m.p2 = 0xFF then 33 else 1
      let (mine, s) := drawBytes 32 s
      let p := spdmRsp 0x60 (if m.p2 = 0 then 33 else 0) 0 (toLe 1 n ++ toLe 3 r.length ++ r ++ mine ++ toLe 2 0 ++ ctx)
      if signed then spdmSign "responder-measurements signing" m.secured p s else spdmReply m.secured p s)) s

/-- KEY_EXCHANGE (R216, Table 6-6): three entries, the first over a fresh input in scratch slot 62 with use PKE_PRIV
(DESIGN CHOICE, log entry 23: Table 5-4 plans no slot for it). -/
def spdmKeyExchange (m : SpdmMsg) (s : State) : State :=
  spdmRequest 0xE4 m true (spdmNegotiated m (fun s =>
    if s.sd.sess.isSome then spdmReply m.secured (spdmErr 0x0A) s
    else if m.p2 ≠ 0 || !(m.p1 = 0 || m.p1 = 1 || m.p1 = 0xFF) || m.body.length < 134 || m.body.length ≠ 134 + field m.body 132 2 then
      spdmReply false (spdmErr 1) s
    else if (spdmChain s).isNone || !s.ks.drbgOk || !(slotS s 62).empty then spdmReply false (spdmErr 5) s
    else if !pqRoom 1 s then spdmReply false (spdmErr 3) s
    else
      let (d, s) := drawBytes 64 s
      pqAdd 1 (.spdm s.sd.tok 1 false (toLe 1 m.p1 ++ m.body)) [⟨0x10, [], some 62, none, 0⟩] (commitSlot 62 d 3 16 false s))) s

/-- FINISH (R216): the session opens when the requester's verify data is right. -/
def spdmFinish (m : SpdmMsg) (s : State) : State :=
  spdmRequest 0xE5 m true (spdmNegotiated m (fun s =>
    match m.secured, s.sd.sess with
    | true, some x =>
      if x.opened then spdmReply true (spdmErr 4) s
      else if !Config.stdOk 19 [(slotS s 8).content, s.sd.transcript, m.body] then sessEnd (spdmReply true (spdmErr 6) s)
      else
        let s := spdmReply true (spdmRsp 0x65 0 0 []) s
        let ms := slice (Config.std 20 [(slotS s 8).content, s.sd.transcript]) 0 48
        commitSlot 8 ms 2 6 false { s with sd := { s.sd with sess := some { x with opened := true, rxSeq := 0, txSeq := 0 }, sessCount := s.sd.sessCount + 1, kgens := [] } }
    | _, _ => spdmReply m.secured (spdmErr 0x0B) s)) s

/-- END_SESSION (R216). -/
def spdmEnd (m : SpdmMsg) (s : State) : State :=
  spdmRequest 0xEC m true (spdmNegotiated m (fun s =>
    if m.secured && s.sd.sess.any (fun x => x.opened) then sessEnd (spdmReply true (spdmRsp 0x6C 0 0 []) s)
    else spdmReply m.secured (spdmErr 0x0B) s)) s

/-- Any other request code (R215): UnsupportedRequest in every state in which the responder answers (DESIGN CHOICE, log entry
79: "the others" of R217's table are taken as those of R215's list); a secured one is answered in the session (R216). -/
def spdmOther (code : Nat) (m : SpdmMsg) (s : State) : State :=
  if !(fnS s 0).up || s.sd.busy || (spdmGate code false s).isNone then s
  else spdmReply m.secured (spdmErr 7) (spdmBegin code m s)

/-- An SPDM request by its code. -/
def spdmDispatch (code : Nat) (m : SpdmMsg) (s : State) : State :=
  match code with
  | 0x84 => spdmVersion m s
  | 0xE1 => spdmCaps m s
  | 0xE3 => spdmAlgs m s
  | 0x81 => spdmDigests m s
  | 0x82 => spdmCert m s
  | 0x83 => spdmChallenge m s
  | 0xE0 => spdmMeas m s
  | 0xE4 => spdmKeyExchange m s
  | 0xE5 => spdmFinish m s
  | 0xEC => spdmEnd m s
  | _ => spdmOther code m s

/-- An SPDM message by its bytes: GET_VERSION comes as version 1.0, every other request as 1.3 (VersionMismatch). -/
def spdmMessage (secured : Bool) (b : Bytes) (s : State) : State :=
  let code := field b 1 1
  let m : SpdmMsg := ⟨field b 2 1, field b 3 1, b.drop 4, secured⟩
  if b.length < 4 || field b 0 1 ≠ (if code = 0x84 then 0x10 else 0x13) then
    (if !(fnS s 0).up || s.sd.busy || (spdmGate code false s).isNone then s
     else spdmReply secured (spdmErr (if b.length < 4 then 1 else 0x41)) (spdmBegin code m s))
  else spdmDispatch code m s

/-- A secured message (R216, R235): session ID, next sequence number, MAC; one that fails is answered DecryptError. -/
def spdmSecured (b : Bytes) (s : State) : State :=
  match s.sd.sess with
  | none => if (spdmGate 0xEC false s).isNone then { s with sd := { s.sd with obj := [] } } else doeReply 1 (spdmErr 2) s
  | some x =>
    let n := field b 12 2
    let k := secKey x false x.rxSeq s
    let ct := slice b 14 (n - 16)
    if n < 18 || b.length < 14 + n || field b 0 4 ≠ x.id || field b 4 8 ≠ x.rxSeq
        || !Config.gcmOk k.1 k.2 (b.take 14) ct (slice b (14 + (n - 16)) 16) then
      doeReply 1 (spdmErr 6) s
    else
      let pt := (List.range (n - 16)).map (Config.gcmByte false k.1 k.2 (b.take 14) ct)
      spdmMessage true ((pt.drop 2).take (field pt 0 2)) s

/-- A DOE data object (R213): Discovery, CMA/SPDM, Secured CMA/SPDM; an object of another length than it says, or above
4,160 bytes, puts the mailbox in error, and one of another type is dropped. -/
def doeObject (ws : List Word) (s : State) : State :=
  let h := (nth 0#32 ws 0).toNat
  let body := (ws.drop 2).flatMap (fun w => toLe 4 w.toNat)
  if !(fnS s 0).up || s.sd.busy || s.sd.err then s
  else if ws.length < 2 || 1040 < ws.length || (nth 0#32 ws 1).toNat % 2 ^ 18 ≠ ws.length then { s with sd := { s.sd with err := true } }
  else if h % 2 ^ 16 ≠ 1 then s
  else
    let s := { s with sd := { s.sd with obj := ws } }
    match h / 2 ^ 16 % 256 with
    | 0 =>
      let i := field body 0 1
      doeReply 0 (if i ≤ 2 then toLe 2 1 ++ toLe 1 i ++ toLe 1 ((i + 1) % 3) else toLe 4 0xFFFF) s
    | 1 => spdmMessage false body s
    | 2 => spdmSecured body s
    | _ => { s with sd := { s.sd with obj := [] } }

/-- DOE Abort (R213): the object in progress and its response are discarded; a PKE entry it started runs to its end. -/
def doeAbort (s : State) : State := { s with sd := { s.sd with busy := false, obj := [], err := false } }

/-- An SPDM entry has ended: `e` is the ECODE that ended it, `r` its job's results. A discarded object has none. -/
def spdmDone (tok step : Nat) (secured : Bool) (p : Bytes) (e : Nat) (r : List Bytes) (s : State) : State :=
  let wipe (s : State) : State := zeroSlots ([57, 62].filter (fun i => !(slotS s i).empty)) s
  let undo (s : State) : State := if step = 0 then s else if step = 3 then sessEnd s else wipe s
  if !s.sd.busy || s.sd.tok ≠ tok then undo s
  else if e ≠ 0 then spdmReply secured (spdmErr 5) (undo s)
  else
    let sig := ecWire (nth [] r 0) ++ ecWire (nth [] r 1)
    match step with
    | 0 => spdmReply secured (p ++ sig) s
    | 1 =>
      if !pqRoom 1 s then spdmReply secured (spdmErr 3) (wipe s)
      else pqAdd 1 (.spdm tok 2 secured (p ++ ecWire2 (nth [] r 0))) [⟨0x11, [ecWire2 (slice p 37 96)], some 62, some 57, 2⟩] s
    | 2 =>
      let sec := (slotS s 57).content
      let s := wipe s
      if !pqRoom 1 s then spdmReply secured (spdmErr 3) s
      else if !(slotS s 8).empty then spdmReply secured (spdmErr 5) s
      else
        let s := commitSlot 8 (Config.hmac384 (List.replicate 48 0#8) sec) 2 6 false s
        let (rnd, s) := drawBytes 32 s
        let id := 2 ^ 16 * ((s.sd.sessCount + 1) % 2 ^ 16) + field p 1 2
        let q := spdmRsp 0x64 0 0 (toLe 2 (s.sd.sessCount + 1) ++ toLe 2 0 ++ rnd ++ p.drop (p.length - 96) ++ summaryHash (field p 0 1) s ++ toLe 2 0)
        pqAdd 1 (.spdm tok 3 secured q) [⟨0x12, [spdmSigned "responder-key_exchange_rsp signing" (s.sd.transcript ++ q)], some 1, none, 0⟩]
          { s with sd := { s.sd with sess := some ⟨id, false, 0, 0⟩ } }
    | _ =>
      let p := p ++ sig
      spdmReply secured (p ++ slice (Config.std 21 [(slotS s 8).content, s.sd.transcript ++ p]) 0 48) s

/-- DOE_OBJECT (R213). -/
def execDoeObject (words : List Word) (s : State) : Res := .next (doeObject words s)
/-- DOE_ABORT (R213). -/
def execDoeAbort (s : State) : Res := .next (doeAbort s)
/-- GET_VERSION (R214). -/
def execGetVersion (m : SpdmMsg) (s : State) : Res := .next (spdmVersion m s)
/-- GET_CAPABILITIES (R214). -/
def execGetCapabilities (m : SpdmMsg) (s : State) : Res := .next (spdmCaps m s)
/-- NEGOTIATE_ALGORITHMS (R214). -/
def execNegotiateAlgorithms (m : SpdmMsg) (s : State) : Res := .next (spdmAlgs m s)
/-- GET_DIGESTS (R215). -/
def execGetDigests (m : SpdmMsg) (s : State) : Res := .next (spdmDigests m s)
/-- GET_CERTIFICATE (R215). -/
def execGetCertificate (m : SpdmMsg) (s : State) : Res := .next (spdmCert m s)
/-- CHALLENGE (R219). -/
def execChallenge (m : SpdmMsg) (s : State) : Res := .next (spdmChallenge m s)
/-- GET_MEASUREMENTS (R307). -/
def execGetMeasurements (m : SpdmMsg) (s : State) : Res := .next (spdmMeas m s)
/-- KEY_EXCHANGE (R216). -/
def execKeyExchange (m : SpdmMsg) (s : State) : Res := .next (spdmKeyExchange m s)
/-- FINISH (R216). -/
def execFinish (m : SpdmMsg) (s : State) : Res := .next (spdmFinish m s)
/-- END_SESSION (R216). -/
def execEndSession (m : SpdmMsg) (s : State) : Res := .next (spdmEnd m s)
/-- SPDM_UNSUPPORTED_REQUEST (R215). -/
def execSpdmUnsupportedRequest (x : SpdmCode) (s : State) : Res := .next (spdmOther x.code x.m s)

end Sys2Proof.Machine
end

