-- ==== Sys2Proof/Machine/Mgmt.lean ====
section
/-! DEFINITION. The management path (chapter 23): bindings, MCTP, vendor messages, management-only commands, and the
orphan timer. Codes and layouts of MCTP control messages are those of DSP0236 (PRESUMED, log entry 12). -/

namespace Sys2Proof.Machine

/-- The message in progress and the stage are lost (chapter 23, "When things coincide"). -/
def mgDiscard (s : State) : State := mgStageEmpty { s with mg := { s.mg with reasm := none } }

/-- A dynamic address is given or removed (R516): a change of the binding discards the message in progress. -/
def mgAddress (da : Nat) (s : State) : State :=
  let was := s.mg.da
  let s := { s with mg := { s.mg with da := da % 128 } }
  if (was = 0) ≠ (da % 128 = 0) then mgDiscard s else s

/-- Answer an MCTP control request. -/
def ctlReply (cmd cc : Nat) (d : Bytes) (s : State) : State :=
  mgSend ([0#8] ++ toLe 1 (s.mg.peerInst % 32) ++ toLe 1 cmd ++ toLe 1 cc ++ d) s

/-- Set Endpoint ID (R518): the EID holds until the next warden reset. -/
def ctlSetEid (b : Bytes) (s : State) : State :=
  let e := field b 1 1
  if b.length ≠ 2 then ctlReply 1 3 [] s
  else if e < 8 || e = 0xFF || 1 < field b 0 1 % 4 then ctlReply 1 2 [] s
  else ctlReply 1 0 ([0#8] ++ toLe 1 e ++ [0#8]) { s with mg := { s.mg with eid := e } }

/-- Get Endpoint ID. -/
def ctlGetEid (b : Bytes) (s : State) : State :=
  if b.length ≠ 0 then ctlReply 2 3 [] s else ctlReply 2 0 (toLe 1 s.mg.eid ++ [0#8, 0#8]) s

/-- Get Endpoint UUID: 16 bytes the spec leaves open (log entry 2). -/
def ctlUuid (b : Bytes) (s : State) : State :=
  if b.length ≠ 0 then ctlReply 3 3 [] s else ctlReply 3 0 (slice (Config.std 30 [mfgId s]) 0 16) s

/-- Get MCTP Version Support: version 1.3 (R518). -/
def ctlVersion (b : Bytes) (s : State) : State :=
  let t := field b 0 1
  if b.length ≠ 1 then ctlReply 4 3 [] s
  else if !(t = 0xFF || t = 0 || t = 1 || t = 0x7E) then ctlReply 4 0x80 [] s
  else ctlReply 4 0 ([1#8, 0xF1#8, 0xF3#8, 0xFF#8, 0x00#8]) s

/-- Get Message Type Support: types 0x00, 0x01 and 0x7E (R518). -/
def ctlTypes (b : Bytes) (s : State) : State :=
  if b.length ≠ 0 then ctlReply 5 3 [] s else ctlReply 5 0 [3#8, 0#8, 1#8, 0x7E#8] s

/-- Get Vendor Defined Message Support: one set, PCI vendor 0x1D7B (R518). -/
def ctlVendor (b : Bytes) (s : State) : State :=
  if b.length ≠ 1 then ctlReply 6 3 [] s
  else if field b 0 1 ≠ 0 then ctlReply 6 2 [] s
  else ctlReply 6 0 ([0xFF#8, 0#8, 0x1D#8, 0x7B#8] ++ slice (Config.std 31 []) 0 2) s

/-- An MCTP control request (R518, R527). -/
def mgControl (m : Bytes) (s : State) : State :=
  let cmd := field m 2 1
  let b := m.drop 3
  if s.pkg.st == .retired then ctlReply cmd 4 [] s
  else match cmd with
    | 1 => ctlSetEid b s
    | 2 => ctlGetEid b s
    | 3 => ctlUuid b s
    | 4 => ctlVersion b s
    | 5 => ctlTypes b s
    | 6 => ctlVendor b s
    | _ => ctlReply cmd 5 [] s

/-- MG_KEEPALIVE (R526): arms and restarts the orphan timer; ORPHAN is the condition the keepalive ends. -/
def mgKeepaliveBody : HostCall → State → CmdRes := sized 0 (fun _ s =>
  let was := s.mg.orphan
  let s := { s with mg := { s.mg with orphanArmed := true, orphan := false } }
  let s := if was then pldmEvent 26 1 s else s
  cmdOk s (toLe 1 (b2n was) ++ [0#8] ++ toLe 2 (pCap s)))

/-- P_mgmt (R473, Table 23-5). -/
def mgCap (w : Nat) (s : State) : State := { s with pw := { s.pw with pMgmt := some (max Config.kBrakeW w) } }

/-- MG_CAP_SET. -/
def mgCapBody : HostCall → State → CmdRes := sized 4 (fun c s =>
  let w := field c.payload 0 2
  if !allZero (slice c.payload 2 2) || rating s < w then cmdFail s stMalformed 0
  else cmdOk (mgCap w s) (toLe 2 (max Config.kBrakeW w) ++ toLe 2 0))

/-- MG_HOLD: writes WD_MG_HOLD. -/
def mgHoldBody : HostCall → State → CmdRes := sized 4 (fun c s =>
  let h := field c.payload 0 1
  if !allZero (slice c.payload 1 3) || 1 < h then cmdFail s stMalformed 0
  else cmdOk { s with mg := { s.mg with hold := h == 1 } } (toLe 1 h ++ toLe 3 0))

/-- MG_DADDR_SET (R446). -/
def mgDaddrBody : HostCall → State → CmdRes := sized 4 (fun c s =>
  let a := field c.payload 0 2
  if !allZero (slice c.payload 2 2) || 4096 ≤ a then cmdFail s stMalformed 0
  else if !(s.pkg.st == .warden || s.pkg.st == .bringup || s.pkg.st == .idle || s.pkg.st == .quarantine) then cmdFail s stBadState 0
  else cmdOk (daddrSet a s) [])

/-- RAK becomes the digest of a key (R462), and the link record write is queued (R317). -/
def rakPut (key : Bytes) (s : State) : State := fqAdd .link { s with ln := { s.ln with rak := Config.sha384 key } }

/-- MG_RAK_SET (Table 23-5): the first authority key needs no token; a later one a maintenance token under the current RAK
with UNIT 0xFF and PORTS 0, checked in the order of R252 (R463). -/
def mgRakBody : HostCall → State → CmdRes := staged 24 0 (fun t c s =>
  let key := t.take 2688
  let b := t.drop 2688
  match hdrCheck s with
  | some st => cmdFail s st 0
  | none =>
    if s.ln.rak.isEmpty || allZero s.ln.rak then
      (if t.length ≠ 2688 then cmdFail s stMalformed 0 else cmdOk (rakPut key s) [])
    else
      let n := s.idn.nonce
      let s := { s with idn := { s.idn with nonce := none } }
      if b.length ≠ 7475 || field b 0 4 ≠ 0x544E4D54 || field b 4 2 ≠ 1 || !allZero (slice b 7 1) || !allZero (slice b 10 6) || !allZero (slice b 56 8) then
        cmdFail s stMalformed 1
      else if field b 6 1 ≠ 0xFF || field b 8 2 ≠ 0 then cmdFail s stAuthFail 2
      else if slice b 16 8 != mfgId s then cmdFail s stAuthFail 3
      else if n != some (slice b 24 32) then cmdFail s stAuthFail 4
      else if Config.sha384 (slice b 64 2688) != s.ln.rak then cmdFail s stAuthFail 5
      else if !pqRoom 2 s then cmdFail s stBusy 0
      else
        let w := stateWord s
        let _ := c
        cmdWait (pqAdd 2 (.rakSet w key) (verifyJobs (slice b 64 96) (slice b 160 2592) (b.take 2752) (slice b 2752 96) (slice b 2848 4627)) s))

/-- The management path's command, for an answer that comes later. -/
def mgCall : HostCall := ⟨mgCh, 0, false, []⟩

/-- The token of MG_RAK_SET has been verified. -/
def rakDone (word : Nat) (key : Bytes) (e : Nat) (ok : Bool) (s : State) : State :=
  if e ≠ 0 then answer mgCall 0xB04 word stPkeError e [] s
  else if !ok then answer mgCall 0xB04 word stAuthFail 6 [] s
  else answer mgCall 0xB04 word stOk 0 [] (rakPut key s)

/-- CertificationRequestInfo of a scheme (R297, R295; log entry 2). -/
def csrInfo (scheme : Nat) (s : State) : Bytes :=
  Config.std 23 [toLe 1 scheme, mfgId s, toLe 1 s.otp.asm, toLe 1 (lcOf s), if scheme = 0 then identQ s else identPk s]

/-- MG_CSR (R297): signed by the identity key of its scheme. -/
def mgCsrBody : HostCall → State → CmdRes := sized 4 (fun c s =>
  let k := field c.payload 0 1
  if 1 < k || !allZero (slice c.payload 1 3) then cmdFail s stMalformed 0
  else if s.pkg.st != .idle || !(lcOf s = 2 || lcOf s = 3) then cmdFail s stBadState 0
  else if s.idn.ident.isNone then cmdFail s stNoKey 0
  else if !pqRoom 1 s then cmdFail s stBusy 0
  else
    let m := csrInfo k s
    let job : PkJobD := if k = 0 then ⟨0x12, [Config.sha384 m], some 1, none, 0⟩ else ⟨0x24, [mldsaMu (identPk s) m], some 2, none, 0⟩
    cmdWait (pqAdd 1 (.csr (stateWord s) k m) [job] s))

/-- The request is signed. -/
def csrDone (word scheme : Nat) (m : Bytes) (e : Nat) (r : List Bytes) (s : State) : State :=
  if e ≠ 0 then answer mgCall 0xB05 word stPkeError e [] s
  else
    let sig := if scheme = 0 then ecWire (nth [] r 0) ++ ecWire (nth [] r 1) else slice (nth [] r 0) 0 4627
    answer mgCall 0xB05 word stOk 0 (Config.std 24 [m, sig]) s

/-- A chain is the package's own for a scheme (R297): leaf key, MFG_ID, assembly and life cycle. -/
def certFits (scheme : Nat) (der : Bytes) (s : State) : Bool :=
  Config.stdOk 25 [toLe 1 scheme, der, if scheme = 0 then identQ s else identPk s, mfgId s, toLe 1 s.otp.asm, toLe 1 (lcOf s)]

/-- MG_CERT_WRITE (R297, Table 13-8). -/
def mgCertBody : HostCall → State → CmdRes := staged 28 4 (fun der c s =>
  let k := field c.payload 0 1
  if 1 < k || !allZero (slice c.payload 1 3) || 65472 < der.length then cmdFail s stMalformed 0
  else if s.idn.ident.isNone then cmdFail s stNoKey 0
  else if !certFits k der s then cmdFail s stAuthFail 0
  else if rosterBusy s then cmdFail s stBusy 0
  else cmdWait (flashSync (.cert (stateWord s) k der) s))

/-- The certificate record is written and read back (R297). -/
def certDone (word scheme : Nat) (der : Bytes) (ok : Bool) (s : State) : State :=
  if !ok then answer mgCall 0xB06 word stFlashError 0 [] (flashErrorEv (certOff scheme) 1 (flashSpoil (certOff scheme) 0x20000 (64 + der.length)
    { s with idn := { s.idn with certs := dropKey scheme s.idn.certs } }))
  else
    let kd := Config.sha384 (if scheme = 0 then identQ s else identPk s)
    let s := flashPut (certOff scheme) 0x20000 (certBytes scheme (lcOf s) kd der) s
    answer mgCall 0xB06 word stOk 0 [] { s with idn := { s.idn with certs := putKey scheme (lcOf s, kd, der) s.idn.certs } }

/-- The signed part of the set key statement (Table 15-6). -/
def setKeyBody (s : State) : Bytes :=
  let p := s.idn.setPair.getD ([], [])
  toLe 4 0x534B5354 ++ toLe 2 1 ++ toLe 2 0 ++ slice (ueid s) 0 33 ++ toLe 7 0 ++ mfgId s ++ slice p.1 0 1568 ++ slice p.2 0 96

/-- MG_SETKEY: MISSION only (R339). -/
def mgSetkeyBody : HostCall → State → CmdRes := sized 0 (fun _ s =>
  if lcOf s ≠ 2 then cmdFail s stUnavailable 0
  else if s.idn.setPair.isNone || s.idn.ident.isNone then cmdFail s stNoKey 0
  else if !pqRoom 2 s then cmdFail s stBusy 0
  else
    let m := setKeyBody s
    cmdWait (pqAdd 1 (.setKey (stateWord s) m) (signJobs s m) s))

/-- Both signatures of the set key statement are made. -/
def setKeyDone (word : Nat) (m : Bytes) (e : Nat) (ec ml : Bytes) (s : State) : State :=
  if e ≠ 0 then answer mgCall 0xB07 word stPkeError e [] s else answer mgCall 0xB07 word stOk 0 (m ++ ec ++ ml) s

/-- MG_REQUEST (R523): a bit of HB_MREQ, cause bit 6, vector 0. -/
def mgRequestBody : HostCall → State → CmdRes := sized 4 (fun c s =>
  let r := field c.payload 0 1
  if 3 < r || !allZero (slice c.payload 1 3) then cmdFail s stMalformed 0
  else cmdOk (raiseHost 0 6 0 { s with mg := { s.mg with mreq := setBit s.mg.mreq r true } }) [])

/-- A data row of a TMR group holds a burned cell. -/
def groupBegun (o : Otp) (g : Nat × Nat × Nat) : Bool := (List.range (3 * g.2.2)).any (fun i => nomRow o (g.2.1 + i) != 0)

/-- The order of R103: PROG waits for GEN of UDS and MISSION_ROOT (words 0 to 15), a digest row waits for data in every
group, LC_ADVANCE for the digests (Table 4-5). The ROM refuses what comes too early (DEDUCED, log entry 72). -/
def provOrder (op row : Nat) (o : Otp) : Bool :=
  op != 2 || ((List.range 16).all (fun w => tmrWord o (1, 32, 25) w != 0)
    && (match groupOfRow row with
        | some g => decide (row < g.2.1 + 3 * g.2.2) || tmrGroups.all (groupBegun o)
        | none => true))

/-- MG_PROVISION (R103): the ROM in BLANK drives OT_CMD; the answer shows OT_STATUS at the command's end. -/
def mgProvisionBody : HostCall → State → CmdRes := sized 8 (fun c s =>
  let op := field c.payload 0 1
  if s.wd.fw != .rom || lcOf s ≠ 0 then cmdFail s stBadState 0
  else if op = 0 || 3 < op || !allZero (slice c.payload 1 1) then cmdFail s stMalformed 0
  else if !provOrder op (field c.payload 2 2 % 512) s.otp then cmdFail s stBadState 0
  else
    let s := { s with otp := { s.otp with addr := field c.payload 2 2 % 512, wdata := field c.payload 4 4 } }
    let w := stateWord s
    let s := if op = 1 then otGen s else if op = 2 then otProg s else otLc 1 s
    let s := unitSend 2000 0xB10 (some (c, w)) op s
    cmdWait (if s.otp.job.isSome then s else tokenOtpEnd s))

/-- The management-only commands (Table 23-5). -/
def mgBody (op : Nat) : Option (HostCall → State → CmdRes) :=
  match op with
  | 0xB00 => some mgKeepaliveBody
  | 0xB01 => some mgCapBody
  | 0xB02 => some mgHoldBody
  | 0xB03 => some mgDaddrBody
  | 0xB04 => some mgRakBody
  | 0xB05 => some mgCsrBody
  | 0xB06 => some mgCertBody
  | 0xB07 => some mgSetkeyBody
  | 0xB08 => some mgRequestBody
  | 0xB10 => some mgProvisionBody
  | _ => none

/-- Run a management-only command: prefix of R244 and body (R519). -/
def mgRun (op : Nat) (f : HostCall → State → CmdRes) (c : HostCall) (s : State) : State :=
  let r := f c s
  match r.reply with
  | none => r.s
  | some (st, d, body) => answer c op (stateWord s) st d body r.s

/-- The mailbox commands of Table 23-4. -/
def mgAdmits (op : Nat) : Bool :=
  op ∈ [0x100, 0x101, 0x102, 0x205, 0x206, 0x207, 0x700, 0x702, 0x703, 0x704, 0x600, 0x900, 0x800, 0x903, 0x705,
        0x006, 0x007, 0xA00, 0xA01, 0xA02, 0x604, 0xA03, 0xA04, 0x706]

/-- The conditions of Table 23-4 that fail: ST_BAD_STATE. -/
def mgRefuses (op : Nat) (p : Bytes) (s : State) : Bool :=
  (s.pkg.mode == .confidential && (op == 0x903 || op == 0x705 || (op == 0x900 && field p 10 1 == 1)))
    || (op == 0xA04 && !(s.pkg.st == .idle || s.pkg.st == .quarantine || s.pkg.st == .recovery))
    || (op == 0x706 && s.pkg.st != .idle)

/-- What a vendor opcode does while the ROM runs (R527). With QCAUSE 0x02 the ROM also serves its log entries (R163): ATT_MEAS_LOG
reads them (DESIGN CHOICE, log entry 73). -/
def mgRomOp (op : Nat) (s : State) : Bool :=
  op == 0xB00 || op == 0xB02 || (op == 0xB10 && lcOf s == 0) || (op == 0x102 && s.pkg.st == .quarantine && s.pkg.qcause == 2)

/-- A vendor message (R519, R521, R522, R527); one of another vendor is dropped. The reset of WARDEN_RESET follows the
response of a well-formed request (R267). -/
def mgVendor (m : Bytes) (s : State) : State :=
  let op := field m 3 2
  let p := m.drop 8
  let c : HostCall := ⟨mgCh, 0, false, p⟩
  if m.length < 8 || field m 1 1 ≠ 0x1D || field m 2 1 ≠ 0x7B then { s with mg := { s.mg with busy := false } }
  else if s.pkg.st == .retired || (s.wd.fw == .rom && !mgRomOp op s) then buildRsp c op 0 stBadState [] s
  else if !allZero (slice m 5 3) then buildRsp c op 0 stMalformed [] s
  else match mgBody op with
    | some f => mgRun op f c s
    | none =>
      if !mgAdmits op then buildRsp c op 0 stUnknownOpcode [] s
      else if mgRefuses op p s then buildRsp c op 0 stBadState [] s
      else
        let s := hostDispatch op c s
        if op = 0xA04 && p.isEmpty then softReset 5 s else s

/-- A vendor request by its opcode and payload (Table 23-3). -/
def mgVendorMsg (op : Nat) (p : Bytes) : Bytes := [0x7E#8, 0x1D#8, 0x7B#8] ++ toLe 2 op ++ toLe 3 0 ++ p

/-- The orphan condition begins (R526). -/
def orphanExpiry (s : State) : State :=
  if !s.mg.orphanArmed || s.mg.orphan then s else pldmEvent 26 2 { s with mg := { s.mg with orphan := true } }

end Sys2Proof.Machine
end

