-- ==== Sys2Proof/Machine/Pldm.lean ====
section
/-! DEFINITION. PLDM on the management path (R524, R525), PLDM firmware update (R196, Table 8-6), and the path of a
management message from its packets to its answer (R517, R518). Codes and layouts are those of DSP0240, DSP0248 and
DSP0267 (PRESUMED, log entry 12). -/

namespace Sys2Proof.Machine

/-- Answer a PLDM request: type, command, completion code, data. -/
def pldmReply (ty cmd cc : Nat) (d : Bytes) (s : State) : State :=
  mgSend ([0x01#8] ++ toLe 1 (s.mg.peerInst % 32) ++ toLe 1 ty ++ toLe 1 cmd ++ toLe 1 cc ++ d) s

/-- GetTID. -/
def pldmGetTid (b : Bytes) (s : State) : State :=
  if b.length ≠ 0 then pldmReply 0 2 3 [] s else pldmReply 0 2 0 (toLe 1 s.mg.tid) s

/-- SetTID: 0x00 and 0xFF are no terminus IDs. -/
def pldmSetTid (b : Bytes) (s : State) : State :=
  let t := field b 0 1
  if b.length ≠ 1 then pldmReply 0 1 3 [] s
  else if t = 0 || t = 0xFF then pldmReply 0 1 2 [] s
  else pldmReply 0 1 0 [] { s with mg := { s.mg with tid := t } }

/-- GetPLDMVersion of types 0, 2 and 5; the version codes are opaque (log entry 2). -/
def pldmVersion (b : Bytes) (s : State) : State :=
  let ty := field b 5 1
  if b.length ≠ 6 then pldmReply 0 3 3 [] s
  else if !(ty = 0 || ty = 2 || ty = 5) then pldmReply 0 3 0x83 [] s
  else pldmReply 0 3 0 (toLe 4 0 ++ [5#8] ++ slice (Config.std 32 [toLe 1 ty]) 0 8) s

/-- GetPLDMTypes: 0, 2 and 5. -/
def pldmTypes (b : Bytes) (s : State) : State :=
  if b.length ≠ 0 then pldmReply 0 4 3 [] s else pldmReply 0 4 0 (toLe 8 0x25) s

/-- The commands of a type as a bit mask (R524). -/
def pldmCmdMask (ty : Nat) : Nat :=
  let l := if ty = 0 then [1, 2, 3, 4, 5] else if ty = 2 then [0x04, 0x0B, 0x11, 0x21, 0x31, 0x39, 0x50, 0x51]
    else [0x10, 0x13, 0x14, 0x1A, 0x1B, 0x1C, 0x1D]
  l.foldl (fun m i => m + 2 ^ i) 0

/-- GetPLDMCommands. -/
def pldmCommands (b : Bytes) (s : State) : State :=
  let ty := field b 0 1
  if b.length ≠ 5 then pldmReply 0 5 3 [] s
  else if !(ty = 0 || ty = 2 || ty = 5) then pldmReply 0 5 0x83 [] s
  else pldmReply 0 5 0 (toLe 32 (pldmCmdMask ty)) s

/-- Whether the assembly has a sensor (Table 23-6). -/
def sensorHas (s : State) (i : Nat) : Bool := (1 ≤ i && i ≤ 13) || (14 ≤ i && i ≤ 21 && hasStack s (i - 14)) || (22 ≤ i && i ≤ 26)
/-- State sensors. -/
def sensorState (i : Nat) : Bool := i == 1 || i == 2 || i == 23 || i == 26

/-- A reading (Table 23-6): in CONFIDENTIAL the values of the period's end (R488). -/
def sensorRead (s : State) (i : Nat) : Nat :=
  let c := coarse s
  let t := s.hb.tele
  if i = 1 then s.pkg.st.code + 1
  else if i = 2 then s.upd.status + 1
  else if i = 3 then (if c then t.pwr else s.pw.pwr)
  else if i = 4 then pCap s
  else if i = 5 then (if c then t.tjmax else s.pw.tiles.foldl (fun m x => max m (x.tj / 10)) 0)
  else if i ≤ 13 then (if c then nth 0 t.tj (i - 6) else (tileP s (i - 6)).tj / 10)
  else if i ≤ 21 then (if c then nth 0 t.stk (i - 14) else nth 0 s.pw.stackTj (i - 14) / 10)
  else if i = 22 then (if c then t.throt else (s.pw.tiles.filter (fun x => x.throt)).length)
  else if i = 23 then 1 + b2n (if c then t.brake else brakeOn s)
  else if i = 24 then (if c then t.stby else s.pw.stby)
  else if i = 25 then (if c then t.wtj else s.pw.wtj)
  else 1 + b2n s.mg.orphan

/-- The PDRs (R524): one per sensor the assembly has, then the two effecters. -/
def pdrList (s : State) : List Nat := ((List.range 27).filter (sensorHas s)) ++ [0x101, 0x102]

/-- A PDR's bytes; the record formats are DSP0248's (log entry 2). -/
def pdrBytes (s : State) (h : Nat) : Bytes := Config.std 33 [toLe 4 h, toLe 2 (nth 0 (pdrList s) (h - 1))]

/-- GetPDRRepositoryInfo. -/
def pdrInfo (b : Bytes) (s : State) : State :=
  if b.length ≠ 0 then pldmReply 2 0x50 3 [] s
  else
    let l := (List.range (pdrList s).length).map (fun i => (pdrBytes s (i + 1)).length)
    pldmReply 2 0x50 0 ([0#8] ++ toLe 13 0 ++ toLe 13 0 ++ toLe 4 l.length ++ toLe 4 (l.foldl (· + ·) 0) ++ toLe 4 (l.foldl max 0) ++ [0#8]) s

/-- GetPDR: a record whole; handle 0 names the first. -/
def pdrGet (b : Bytes) (s : State) : State :=
  let n := (pdrList s).length
  let h := max 1 (field b 0 4)
  if b.length ≠ 13 then pldmReply 2 0x51 3 [] s
  else if n < h then pldmReply 2 0x51 0x82 [] s
  else
    let r := pdrBytes s h
    pldmReply 2 0x51 0 (toLe 4 (if h = n then 0 else h + 1) ++ toLe 4 0 ++ [5#8] ++ toLe 2 r.length ++ r) s

/-- GetSensorReading of a numeric sensor; while the ROM runs none is served (R527). -/
def pldmSensor (b : Bytes) (s : State) : State :=
  let i := field b 0 2
  if b.length ≠ 3 then pldmReply 2 0x11 3 [] s
  else if !sensorHas s i || sensorState i then pldmReply 2 0x11 0x80 [] s
  else pldmReply 2 0x11 0 ([4#8, 0#8, 0#8, 1#8, 1#8, 1#8] ++ toLe 4 (sensorRead s i)) s

/-- GetStateSensorReadings. -/
def pldmState (b : Bytes) (s : State) : State :=
  let i := field b 0 2
  if b.length ≠ 4 then pldmReply 2 0x21 3 [] s
  else if !sensorHas s i || !sensorState i then pldmReply 2 0x21 0x80 [] s
  else
    let v := sensorRead s i
    pldmReply 2 0x21 0 ([1#8, 0#8] ++ toLe 1 v ++ toLe 1 v ++ toLe 1 v) s

/-- SetNumericEffecterValue: effecter 1 is MG_CAP_SET (Table 23-7). -/
def pldmNumEff (b : Bytes) (s : State) : State :=
  let w := field b 3 (b.length - 3)
  if b.length < 4 || 7 < b.length then pldmReply 2 0x31 3 [] s
  else if field b 0 2 ≠ 1 then pldmReply 2 0x31 0x80 [] s
  else if rating s < w then pldmReply 2 0x31 2 [] s
  else pldmReply 2 0x31 0 [] (mgCap w s)

/-- SetStateEffecterStates: effecter 2 is MG_HOLD (Table 23-7). -/
def pldmStateEff (b : Bytes) (s : State) : State :=
  let v := field b 4 1
  if b.length ≠ 5 || field b 2 1 ≠ 1 then pldmReply 2 0x39 3 [] s
  else if field b 0 2 ≠ 2 then pldmReply 2 0x39 0x80 [] s
  else if field b 3 1 = 0 then pldmReply 2 0x39 0 [] s
  else if !(v = 1 || v = 2) then pldmReply 2 0x39 0x81 [] s
  else pldmReply 2 0x39 0 [] { s with mg := { s.mg with hold := v == 2 } }

/-- SetEventReceiver (R525): enable 0 removes the receiver. -/
def pldmReceiver (b : Bytes) (s : State) : State :=
  if b.length < 3 then pldmReply 2 4 3 [] s
  else if 3 < field b 0 1 || field b 1 1 ≠ 0 then pldmReply 2 4 2 [] s
  else pldmReply 2 4 0 [] { s with mg := { s.mg with
    evtRcv := if field b 0 1 = 0 then none else some (field b 2 1), events := if field b 0 1 = 0 then [] else s.mg.events } }

/-- PollForPlatformEventMessage: acknowledges the event polled last, and gives the oldest. -/
def pldmPoll (b : Bytes) (s : State) : State :=
  let ack := field b 6 2
  if b.length ≠ 8 then pldmReply 2 0x0B 3 [] s
  else
    let s := if ack ≠ 0 && ack ≠ 0xFFFF then { s with mg := { s.mg with pollQ := s.mg.pollQ.drop 1 } } else s
    match s.mg.pollQ with
    | [] => pldmReply 2 0x0B 0 (toLe 1 s.mg.tid ++ toLe 2 0) s
    | e :: _ => pldmReply 2 0x0B 0 (toLe 1 s.mg.tid ++ toLe 2 1 ++ toLe 4 0 ++ [5#8, 0#8] ++ toLe 4 4 ++ toLe 2 e.sensor ++ toLe 2 e.value) s

/-- 250 ms without an acknowledgement of the oldest event (R525): resent twice, then dropped. -/
def eventResend (s : State) : State :=
  match s.mg.events with
  | [] => s
  | e :: r =>
    if 2 ≤ e.resends then { s with mg := { s.mg with events := r } }
    else emit (.pldm e.sensor e.value) { s with mg := { s.mg with events := { e with resends := e.resends + 1 } :: r } }

/-- The target of a PLDM component (R196): 0x0001 the inactive slot, 0x0002 the recovery region. -/
def compTarget (id : Nat) (s : State) : Nat := if id = 2 then 2 else 1 - s.boot.chosen

/-- While the ROM runs, PLDM firmware update serves a recovery bundle with QCAUSE 0x02 alone (R527). -/
def romUpdate (s : State) : Bool := s.wd.fw != .rom || (s.pkg.st == .quarantine && s.pkg.qcause == 2)

/-- A host UPD_BEGIN that has been accepted is still erasing (R184). -/
def hostBegin (s : State) : Bool :=
  match s.fq.sync with
  | some (.updBegin (some _) _ _ _) => true
  | _ => false

/-- RequestUpdate (R196): one update runs at a time, on either path. -/
def fwRequest (b : Bytes) (s : State) : State :=
  if b.length < 11 then pldmReply 5 0x10 3 [] s
  else if s.upd.pldm || s.upd.status ≠ 0 || hostBegin s then pldmReply 5 0x10 0x81 [] s
  else pldmReply 5 0x10 0 (toLe 3 0) { s with upd := { s.upd with
    pldm := true, pldmSt := 1, pldmMax := max 32 (field b 0 4), pldmOff := 0, pldmRes := 0 } }

/-- PassComponentTable (R196): the table's end leads to READY XFER. -/
def fwTable (b : Bytes) (s : State) : State :=
  let id := field b 3 2
  if !s.upd.pldm then pldmReply 5 0x13 0x80 [] s
  else if s.upd.pldmSt ≠ 1 then pldmReply 5 0x13 0x84 [] s
  else if b.length < 12 then pldmReply 5 0x13 3 [] s
  else
    let okId := id = 1 || (id = 2)
    let s := if bit (field b 0 1) 2 then { s with upd := { s.upd with pldmSt := 2 } } else s
    pldmReply 5 0x13 0 (if okId then [0#8, 0#8] else [1#8, 6#8]) s

/-- UpdateComponent (R196, Table 8-6): UPD_BEGIN for the component's target. -/
def fwUpdate (b : Bytes) (s : State) : State :=
  let id := field b 2 2
  let n := field b 9 4
  let t := compTarget id s
  if !s.upd.pldm then pldmReply 5 0x14 0x80 [] s
  else if s.upd.pldmSt ≠ 2 then pldmReply 5 0x14 0x84 [] s
  else if b.length < 19 then pldmReply 5 0x14 3 [] s
  else if !(id = 1 || id = 2) || (s.wd.fw == .rom && id ≠ 2) then pldmReply 5 0x14 0 ([1#8, 6#8] ++ toLe 6 0) s
  else match updBeginCheck t n s with
    | some _ => pldmReply 5 0x14 0 ([1#8, 1#8] ++ toLe 6 0) s
    | none => flashSync (.updBegin none 0 t n) (pldmReply 5 0x14 0 ([0#8, 0#8] ++ toLe 6 0) { s with upd := { s.upd with pldmComp := id } })

/-- The answer to a RequestFirmwareData (R196, Table 8-6): UPD_DATA; an answer that fails ends the transfer. -/
def fwData (b : Bytes) (s : State) : State :=
  let d := b.drop 1
  let want := min s.upd.pldmMax (s.upd.length - s.upd.pldmOff)
  if !s.upd.pldm || s.upd.pldmSt ≠ 3 || s.fq.sync.isSome then s
  else if field b 0 1 ≠ 0 || d.length < want then pldmFail s
  else match updDataCheck s.upd.pldmOff (d.take want) s with
    | some _ => pldmFail s
    | none => flashSync (.updData none 0 s.upd.pldmOff (d.take want)) s

/-- ActivateFirmware (R196, Table 8-6): UPD_ACTIVATE; a recovery bundle has no slot to activate. -/
def fwActivate (b : Bytes) (s : State) : State :=
  if !s.upd.pldm then pldmReply 5 0x1A 0x80 [] s
  else if s.upd.pldmSt ≠ 2 then pldmReply 5 0x1A 0x84 [] s
  else if b.length ≠ 1 || 1 < field b 0 1 then pldmReply 5 0x1A 3 [] s
  else if s.upd.pldmComp = 2 && s.upd.status = 0 then pldmReply 5 0x1A 0 (toLe 2 0) { s with upd := { s.upd with pldm := false, pldmSt := 0 } }
  else match updActivateCheck s with
    | some _ => pldmReply 5 0x1A 0x85 [] s
    | none => flashSync (.updActivate none 0 (field b 0 1 == 0)) (pldmReply 5 0x1A 0 (toLe 2 0) { s with upd := { s.upd with pldmSt := 6 } })

/-- The part of a cancel both commands share (Table 8-6): UPD_CANCEL, which changes nothing with status NONE. -/
def fwCancel (s : State) : State := if s.upd.status = 0 then s else flashSync (.updCancel none 0) s

/-- CancelUpdateComponent (R196): back to READY XFER. -/
def fwCancelComp (s : State) : State :=
  if !s.upd.pldm then pldmReply 5 0x1C 0x80 [] s
  else if s.upd.pldmSt < 3 then pldmReply 5 0x1C 0x84 [] s
  else if s.upd.status ≠ 0 && (updCancelCheck s).isSome then pldmReply 5 0x1C 0x86 [] s
  else fwCancel (pldmReply 5 0x1C 0 [] { s with upd := { s.upd with pldmSt := 2, pldmOff := 0 } })

/-- CancelUpdate (R196): the update ends. -/
def fwCancelAll (s : State) : State :=
  if !s.upd.pldm then pldmReply 5 0x1D 0x80 [] s
  else if s.upd.status ≠ 0 && (updCancelCheck s).isSome then pldmReply 5 0x1D 0x86 [] s
  else fwCancel (pldmReply 5 0x1D 0 (toLe 9 0) { s with upd := { s.upd with pldm := false, pldmSt := 0 } })

/-- GetStatus: current state, progress, the result of the last stage, and the update status (R183) as the vendor-defined
AuxStateStatus 0x70 + status (PRESUMED, log entry 12). -/
def fwStatus (s : State) : State :=
  let u := s.upd
  let pct := if u.length = 0 then 0 else 100 * min u.pldmOff u.length / u.length
  pldmReply 5 0x1B 0 (toLe 1 u.pldmSt ++ toLe 1 u.pldmSt ++ toLe 1 (if u.pldmRes = 0 then 3 else 2) ++ toLe 1 (0x70 + u.status) ++ toLe 1 pct ++ toLe 1 u.pldmRes ++ toLe 4 0) s

/-- PLDM base commands (Type 0). -/
def pldmBase (cmd : Nat) (b : Bytes) (s : State) : State :=
  match cmd with
  | 1 => pldmSetTid b s
  | 2 => pldmGetTid b s
  | 3 => pldmVersion b s
  | 4 => pldmTypes b s
  | 5 => pldmCommands b s
  | _ => pldmReply 0 cmd 5 [] s

/-- Platform monitoring and control (Type 2). -/
def pldmPlatform (cmd : Nat) (b : Bytes) (s : State) : State :=
  match cmd with
  | 0x04 => pldmReceiver b s
  | 0x0B => pldmPoll b s
  | 0x11 => pldmSensor b s
  | 0x21 => pldmState b s
  | 0x31 => pldmNumEff b s
  | 0x39 => pldmStateEff b s
  | 0x50 => pdrInfo b s
  | 0x51 => pdrGet b s
  | _ => pldmReply 2 cmd 5 [] s

/-- Firmware update (Type 5). -/
def pldmUpdate (cmd : Nat) (b : Bytes) (s : State) : State :=
  match cmd with
  | 0x10 => fwRequest b s
  | 0x13 => fwTable b s
  | 0x14 => fwUpdate b s
  | 0x1A => fwActivate b s
  | 0x1B => fwStatus s
  | 0x1C => fwCancelComp s
  | 0x1D => fwCancelAll s
  | _ => pldmReply 5 cmd 5 [] s

/-- What a PLDM request may do in the present state (R527): in RETIRED sensor 1 alone; while the ROM runs Type 0,
sensor 1 and the recovery update. -/
def pldmReady (ty cmd : Nat) (b : Bytes) (s : State) : Bool :=
  let one := ty == 2 && cmd == 0x21 && field b 0 2 == 1
  if s.pkg.st == .retired then one
  else if s.wd.fw == .rom then ty == 0 || one || (ty == 5 && romUpdate s)
  else true

/-- A PLDM message: a response acknowledges an event or carries firmware data; a request is answered. -/
def mgPldm (m : Bytes) (s : State) : State :=
  let ty := field m 2 1 % 64
  let cmd := field m 3 1
  let b := m.drop 4
  if field m 1 1 < 128 then
    let s := { s with mg := { s.mg with busy := false } }
    if ty = 2 && cmd = 0x0A then { s with mg := { s.mg with events := s.mg.events.drop 1 } }
    else if ty = 5 && cmd = 0x15 then fwData b s else s
  else if !pldmReady ty cmd b s then pldmReply ty cmd 4 [] s
  else match ty with
    | 0 => pldmBase cmd b s
    | 2 => pldmPlatform cmd b s
    | 5 => pldmUpdate cmd b s
    | _ => pldmReply ty cmd 0x20 [] s

/-- A request begins (R518): its endpoint, tag and instance, then its message type; another type is dropped. -/
def mgStart (r : MgReq) (s : State) : State :=
  let s := { s with mg := { s.mg with busy := true, peer := r.peer, peerTag := r.tag, peerInst := field r.body 1 1 } }
  match field r.body 0 1 % 128 with
  | 0x00 => mgControl r.body s
  | 0x01 => mgPldm r.body s
  | 0x7E => mgVendor r.body s
  | _ => { s with mg := { s.mg with busy := false } }

/-- Waiting requests begin in order while none is in execution (R518). -/
def mgPump : Nat → State → State
  | 0, s => s
  | n + 1, s =>
    if s.mg.busy then s
    else match s.mg.queue with
      | [] => s
      | r :: q => mgPump n (mgStart r { s with mg := { s.mg with queue := q } })

/-- A whole message arrives while firmware runs (R518): up to 4 requests wait, a fifth is dropped. -/
def mgMessage (peer tag : Nat) (m : Bytes) (s : State) : State :=
  if s.wd.fw == .nothing || !s.pkg.standby then s
  else if 4 ≤ s.mg.queue.length then s
  else mgPump 5 { s with mg := { s.mg with queue := s.mg.queue ++ [⟨peer, tag, m⟩] } }

/-- A message of the row's own sender: the endpoint and tag of the last one. -/
def mgRow (m : Bytes) (s : State) : State := mgMessage s.mg.peer s.mg.peerTag m s

/-- A packet joins the message of its endpoint and tag (R518, DSP0236): SOM begins one, EOM completes it; one out of
sequence discards it. -/
def mgPacket (p : Bytes) (s : State) : State :=
  let fl := field p 3 1
  let src := field p 2 1
  let tag := fl % 16
  let sq := fl / 16 % 4
  let d := p.drop 4
  let dst := field p 1 1
  if p.length < 5 || field p 0 1 % 16 ≠ 1 || 64 < d.length || !(dst = s.mg.eid || dst = 0 || dst = 0xFF) then s
  else
    let r : Option Reasm :=
      if bit fl 7 then some ⟨src, tag, sq, d⟩
      else match s.mg.reasm with
        | some r => if r.peer = src && r.tag = tag && (r.seqNo + 1) % 4 = sq then some ⟨src, tag, sq, r.body ++ d⟩ else none
        | none => none
    match r with
    | none => if s.mg.reasm.any (fun r => r.peer == src && r.tag == tag) then { s with mg := { s.mg with reasm := none } } else s
    | some r =>
      if 4160 < r.body.length then { s with mg := { s.mg with reasm := none } }
      else if bit fl 6 then mgMessage r.peer (r.tag % 8) r.body { s with mg := { s.mg with reasm := none } }
      else { s with mg := { s.mg with reasm := some r } }

/-- Firmware takes the packets of the receive ring (R517). -/
def mgDrain (s : State) : State :=
  if s.wd.fw == .nothing then s
  else s.mg.rx.foldl (fun s p => mgPacket p s) { s with mg := { s.mg with rx := [], rxv := false } }

/-- MCTP_PACKET_RX (R517, R518): the receive ring of 48, RXV, source 4; firmware takes the packet. -/
def mctpRx (p : Bytes) (s : State) : State :=
  if !s.pkg.standby || 48 ≤ s.mg.rx.length then s
  else
    let s := { s with mg := { s.mg with rxv := true, rx := s.mg.rx ++ [p] } }
    mgDrain (if s.mg.irqEn then irq 4 s else s)

/-- A message is not completed within 100 ms (R518): discarded, and the stage with it. -/
def mctpTimeout (s : State) : State := if s.mg.reasm.isSome then mgDiscard s else s

/-- A PLDM request's bytes. -/
def pldmMsg (ty cmd : Nat) (b : Bytes) : Bytes := [0x01#8, 0x80#8] ++ toLe 1 ty ++ toLe 1 cmd ++ b
/-- An MCTP control request's bytes. -/
def ctlMsg (cmd : Nat) (b : Bytes) : Bytes := [0x00#8, 0x80#8] ++ toLe 1 cmd ++ b

/-- MG_KEEPALIVE (R526). -/
def execMgKeepalive (b : Bytes) (s : State) : Res := .next (mgRow (mgVendorMsg 0xB00 b) s)
/-- MG_CAP_SET (R522). -/
def execMgCapSet (b : Bytes) (s : State) : Res := .next (mgRow (mgVendorMsg 0xB01 b) s)
/-- MG_HOLD (R522). -/
def execMgHold (b : Bytes) (s : State) : Res := .next (mgRow (mgVendorMsg 0xB02 b) s)
/-- MG_DADDR_SET (R446). -/
def execMgDaddrSet (b : Bytes) (s : State) : Res := .next (mgRow (mgVendorMsg 0xB03 b) s)
/-- MG_RAK_SET (R462). -/
def execMgRakSet (b : Bytes) (s : State) : Res := .next (mgRow (mgVendorMsg 0xB04 b) s)
/-- MG_CSR (R297). -/
def execMgCsr (b : Bytes) (s : State) : Res := .next (mgRow (mgVendorMsg 0xB05 b) s)
/-- MG_CERT_WRITE (R297). -/
def execMgCertWrite (b : Bytes) (s : State) : Res := .next (mgRow (mgVendorMsg 0xB06 b) s)
/-- MG_SETKEY (R339). -/
def execMgSetkey (b : Bytes) (s : State) : Res := .next (mgRow (mgVendorMsg 0xB07 b) s)
/-- MG_REQUEST (R523). -/
def execMgRequest (b : Bytes) (s : State) : Res := .next (mgRow (mgVendorMsg 0xB08 b) s)
/-- MG_PROVISION (R103). -/
def execMgProvision (b : Bytes) (s : State) : Res := .next (mgRow (mgVendorMsg 0xB10 b) s)
/-- I3C_ADDRESS_ASSIGN (R516). -/
def execI3cAddressAssign (da : Nat) (s : State) : Res := .next (mgAddress da s)
/-- MCTP_PACKET_RX (R518). -/
def execMctpPacketRx (pkt : Bytes) (s : State) : Res := .next (mctpRx pkt s)
/-- MCTP_REASSEMBLY_TIMEOUT (R518). -/
def execMctpReassemblyTimeout (s : State) : Res := .next (mctpTimeout s)
/-- WD_MG_TXGO_WRITE (R517). -/
def execWdMgTxgoWrite (n : Nat) (s : State) : Res := .next (mgTxgo n s)
/-- SET_ENDPOINT_ID (R518). -/
def execSetEndpointId (b : Bytes) (s : State) : Res := .next (mgRow (ctlMsg 1 b) s)
/-- GET_ENDPOINT_ID (R518). -/
def execGetEndpointId (b : Bytes) (s : State) : Res := .next (mgRow (ctlMsg 2 b) s)
/-- GET_ENDPOINT_UUID (R518). -/
def execGetEndpointUuid (b : Bytes) (s : State) : Res := .next (mgRow (ctlMsg 3 b) s)
/-- GET_MCTP_VERSION_SUPPORT (R518). -/
def execGetMctpVersionSupport (b : Bytes) (s : State) : Res := .next (mgRow (ctlMsg 4 b) s)
/-- GET_MESSAGE_TYPE_SUPPORT (R518). -/
def execGetMessageTypeSupport (b : Bytes) (s : State) : Res := .next (mgRow (ctlMsg 5 b) s)
/-- GET_VENDOR_MESSAGE_SUPPORT (R518). -/
def execGetVendorMessageSupport (b : Bytes) (s : State) : Res := .next (mgRow (ctlMsg 6 b) s)
/-- GET_TID (R524). -/
def execGetTid (b : Bytes) (s : State) : Res := .next (mgRow (pldmMsg 0 2 b) s)
/-- SET_TID (R524). -/
def execSetTid (b : Bytes) (s : State) : Res := .next (mgRow (pldmMsg 0 1 b) s)
/-- GET_PLDM_VERSION (R524). -/
def execGetPldmVersion (b : Bytes) (s : State) : Res := .next (mgRow (pldmMsg 0 3 b) s)
/-- GET_PLDM_TYPES (R524). -/
def execGetPldmTypes (b : Bytes) (s : State) : Res := .next (mgRow (pldmMsg 0 4 b) s)
/-- GET_PLDM_COMMANDS (R524). -/
def execGetPldmCommands (b : Bytes) (s : State) : Res := .next (mgRow (pldmMsg 0 5 b) s)
/-- GET_PDR_REPOSITORY_INFO (R524). -/
def execGetPdrRepositoryInfo (b : Bytes) (s : State) : Res := .next (mgRow (pldmMsg 2 0x50 b) s)
/-- GET_PDR (R524). -/
def execGetPdr (b : Bytes) (s : State) : Res := .next (mgRow (pldmMsg 2 0x51 b) s)
/-- GET_SENSOR_READING (R524). -/
def execGetSensorReading (b : Bytes) (s : State) : Res := .next (mgRow (pldmMsg 2 0x11 b) s)
/-- GET_STATE_SENSOR_READINGS (R524). -/
def execGetStateSensorReadings (b : Bytes) (s : State) : Res := .next (mgRow (pldmMsg 2 0x21 b) s)
/-- SET_NUMERIC_EFFECTER_VALUE (R524). -/
def execSetNumericEffecterValue (b : Bytes) (s : State) : Res := .next (mgRow (pldmMsg 2 0x31 b) s)
/-- SET_STATE_EFFECTER_STATES (R524). -/
def execSetStateEffecterStates (b : Bytes) (s : State) : Res := .next (mgRow (pldmMsg 2 0x39 b) s)
/-- SET_EVENT_RECEIVER (R525). -/
def execSetEventReceiver (b : Bytes) (s : State) : Res := .next (mgRow (pldmMsg 2 0x04 b) s)
/-- POLL_PLATFORM_EVENT_MESSAGE (R524). -/
def execPollPlatformEventMessage (b : Bytes) (s : State) : Res := .next (mgRow (pldmMsg 2 0x0B b) s)
/-- PLATFORM_EVENT_RESEND (R525). -/
def execPlatformEventResend (s : State) : Res := .next (eventResend s)
/-- REQUEST_UPDATE (R196). -/
def execRequestUpdate (b : Bytes) (s : State) : Res := .next (mgRow (pldmMsg 5 0x10 b) s)
/-- PASS_COMPONENT_TABLE (R196). -/
def execPassComponentTable (b : Bytes) (s : State) : Res := .next (mgRow (pldmMsg 5 0x13 b) s)
/-- UPDATE_COMPONENT (R196). -/
def execUpdateComponent (b : Bytes) (s : State) : Res := .next (mgRow (pldmMsg 5 0x14 b) s)
/-- FIRMWARE_DATA_RESPONSE (R196): a PLDM response, completion code first. -/
def execFirmwareDataResponse (b : Bytes) (s : State) : Res := .next (mgRow ([0x01#8, 0x00#8, 0x05#8, 0x15#8] ++ b) s)
/-- ACTIVATE_FIRMWARE (R196). -/
def execActivateFirmware (b : Bytes) (s : State) : Res := .next (mgRow (pldmMsg 5 0x1A b) s)
/-- CANCEL_UPDATE_COMPONENT (R196). -/
def execCancelUpdateComponent (b : Bytes) (s : State) : Res := .next (mgRow (pldmMsg 5 0x1C b) s)
/-- CANCEL_UPDATE (R196). -/
def execCancelUpdate (b : Bytes) (s : State) : Res := .next (mgRow (pldmMsg 5 0x1D b) s)
/-- GET_STATUS (R196). -/
def execGetStatus (b : Bytes) (s : State) : Res := .next (mgRow (pldmMsg 5 0x1B b) s)
/-- ORPHAN_TIMER_EXPIRY (R526). -/
def execOrphanTimerExpiry (s : State) : Res := .next (orphanExpiry s)

end Sys2Proof.Machine
end

