-- ==== Sys2Proof/Machine/Complete.lean ====
section
/-! DEFINITION. What firmware does when a PKE job ends (R152, Table 6-6) and when a synchronous flash operation ends
(R317): the next job of the entry, then what the entry or the operation was for. -/

namespace Sys2Proof.Machine

/-- Results of a job that ended with `e`: its outputs, or the verdict of a verify as one byte. -/
def pkResults (r : PkRun) (e : Nat) : List Bytes :=
  if e ≠ 0 then []
  else if r.op = 0x13 || r.op = 0x25 then [[BitVec.ofNat 8 (b2n (pkVerdict r.op r.ins))]]
  else match pkShape r.op 6 false with
    | some sh => (List.range sh.res.length).map (fun i => pkOut r i (nth 0 sh.res i))
    | none => []

/-- A batch entry has ended (R358 to R361): the object is archived; a batch that failed twice is abandoned, or at phase 3
of a switch left for the clear receipt to sign (R325). -/
def batchDone (e : Nat) (ec ml : Bytes) (s : State) : State :=
  match s.rc.signing with
  | none => s
  | some b =>
    let last := s.tn.sw.phase == .batch && s.tn.sw.closed && b.num == s.tn.sw.lastBatch
    let s := { s with rc := { s.rc with signing := none } }
    let s :=
      if e = 0 then
        let o := toLe 4 1288 ++ b.body ++ ec ++ ml
        logEvent 0x0406 0xFF (toLe 8 b.num ++ toLe 4 b.records) { s with
          rc := { s.rc with archive := lastN 64 (s.rc.archive ++ [(b.num, o)]),
                            last := if last then some (b.num, o) else none },
          idn := { s.idn with batches := s.idn.batches + 1 } }
      else if last then
        (let w : Switch := { s.tn.sw with unsigned := true }
         { s with tn := { s.tn with sw := w } })
      else logEvent 0x0407 0xFF (toLe 8 b.num ++ toLe 4 b.records) s
    switchBatches s

/-- An entry has ended: `e` is the ECODE that ended it, 0 for none; `r` the results of its jobs in order. -/
def entryDone (p : Purp) (e : Nat) (r : List Bytes) (s : State) : State :=
  let ec := ecWire (nth [] r 0) ++ ecWire (nth [] r 1)
  let ml := slice (nth [] r 2) 0 4627
  let v1 := field (nth [] r 0) 0 1 == 1
  let v2 := field (nth [] r 1) 0 1 == 1
  match p with
  | .batch => batchDone e ec ml s
  | .clearReceipt => if e = 0 then switchSigned ec ml s else s
  | .report c word serial form pq payload b => reportDone c word serial form pq payload b e ec ml s
  | .enroll c word rec => enrollDone c word rec e (v1 && v2) s
  | .revoke c word i same => revokeDone c word i same e (v1 && v2) s
  | .token c word op arg => tokenDone c word op arg e (v1 && v2) s
  | .linkClear c word u port => linkClearDone c word u port e (v1 && v2) s
  | .release c word h t wkey set mdig entries => releaseDone c word h e t wkey set mdig entries s
  | .setAuth c word h b => setAuthDone c word h b e (v1 && v2) s
  | .ephemeral c word ek => ephemeralDone c word ek e (nth [] r 0) s
  | .keyx c word step b =>
    keyxDone c word step b e (v1 && v2) (if step = 11 || step = 22 then [ec, ml] else r) s
  | .updVerify c word left => updVerifyDone c word left e v1 v2 s
  | .spdm tok step secured msg => spdmDone tok step secured msg e r s
  | .setKey word m => setKeyDone word m e ec ml s
  | .csr word k m => csrDone word k m e r s
  | .rakSet word key => rakDone word key e (v1 && v2) s
  | .health v => healthDone v e ec ml (v1 && v2) s

/-- Start the first job of an entry that runs (again). -/
def entryRun (x : PqEntry) (s : State) : State :=
  match x.left with
  | [] => s
  | j :: _ => pqStartJob j { s with pq := { s.pq with run := some x } }

/-- A batch or clear-receipt entry is retried (R358, R325): the batch once, the clear receipt until it is signed. -/
def entryAgain (x : PqEntry) : Bool := (x.purp == .batch && !x.again) || x.purp == .clearReceipt

/-- The job of the running entry has ended: MLDSA_SIGN with ECODE 7 is repeated with fresh randomness, then the entry's next
job, or its end (R152). -/
def entryStep (x : PqEntry) (e : Nat) (res : List Bytes) (s : State) : State :=
  match x.left with
  | [] => { s with pq := { s.pq with run := none } }
  | j :: rest =>
    if e = 7 && j.op = 0x24 then entryRun x s
    else if e ≠ 0 then
      (if entryAgain x then entryRun { x with left := x.jobs, results := [], again := true } s
       else entryDone x.purp e [] { s with pq := { s.pq with run := none } })
    else
      let y : PqEntry := { x with left := rest, results := x.results ++ res }
      if rest.isEmpty then entryDone y.purp 0 y.results { s with pq := { s.pq with run := none } } else entryRun y s

/-- EV_PKE_ERROR (Table 22-1), but for a repeated MLDSA_SIGN. -/
def pkErrorEv (op e : Nat) (s : State) : State :=
  if e = 0 || (e = 7 && op = 0x24) then s else logEvent 0x0205 0xFF (toLe 1 op ++ toLe 1 e ++ toLe 4 s.pk.eaddr) s

/-- PKE_JOB_COMPLETE (R138, R146, R152): a STREAM error is also an uncorrectable SRAM error (SWCODE 0x01). -/
def pkComplete (x : PkEnd) (s : State) : State :=
  match s.pk.run with
  | none => s
  | some r =>
    let e := pkOutcome r x s
    let res := pkResults r e
    let s := pkErrorEv r.op e (pkFinish x s)
    let s := match s.pq.run with | some en => entryStep en e res s | none => s
    if e = 6 then softReset 1 s else rcResume (pqDispatch s)

/-- SPI_FLASH_OP_DONE (R317): the command that waits goes on, then the background queue. -/
def spiDone (ok : Bool) (s : State) : State :=
  match s.fq.sync with
  | none => s
  | some f =>
    let s := irq 10 { s with fq := { s.fq with sync := none } }
    let s := match f with
      | .enroll c w r => rosterSync (.enroll c w r) ok s
      | .stage c w i => rosterSync (.stage c w i) ok s
      | .revoke c w i => rosterSync (.revoke c w i) ok s
      | .cert w k der => certDone w k der ok s
      | f => updSync f ok s
    flashNext s

/-- PKE_JOB_COMPLETE (R138). -/
def execPkeJobComplete (x : PkEnd) (s : State) : Res := .next (pkComplete x s)
/-- SPI_FLASH_OP_DONE (R317). -/
def execSpiFlashOpDone (ok : Bool) (s : State) : Res := .next (spiDone ok s)

end Sys2Proof.Machine
end

