-- ==== Sys2Proof/Machine/ExecBoot.lean ====
section
/-! DEFINITION. Meanings of power, reset and boot events (chapters 02, 03, 04, 07, 25). -/

namespace Sys2Proof.Machine

/-- STANDBY_GOOD (R41, R557): the power-on warden reset, unless WARDEN_RST_N is low. -/
def standbyUp (progWin : Bool) (s : State) : State :=
  if s.pkg.standby then s
  else
    let s := { s with pkg := { s.pkg with standby := true, progWin := progWin } }
    let s := if s.pkg.rstN then wardenReset { por := true } 0 s else s
    if progWin then s else setNotice 14 s

/-- STANDBY_GOOD (R41). -/
def execStandbyGood (progWin : Bool) (s : State) : Res := .next (standbyUp progWin s)

/-- Loss of standby (R560): power-on reset held, every enable dropped, COLD; a power hold is not kept. -/
def standbyDown (s : State) : State :=
  if !s.pkg.standby then s
  else
    let s := wardenReset { por := true } 0 s
    { s with pkg := { s.pkg with st := .cold, standby := false, progWin := false }, mg := { s.mg with hold := false } }

/-- STANDBY_LOST (R560). -/
def execStandbyLost (s : State) : Res := .next (standbyDown s)
/-- STANDBY_OVERVOLTAGE (R555): the standby domain is switched off, as a loss. -/
def execStandbyOvervoltage (s : State) : Res := .next (standbyDown s)

/-- WARDEN_RST_N_ASSERT (R65, R66): cause EXT; the core stays held while the pin is low. -/
def execWardenRstNAssert (s : State) : Res :=
  .next (if s.pkg.rstN then
      let s := { s with pkg := { s.pkg with rstN := false } }
      if s.pkg.standby && s.pkg.st != .cold then wardenReset { ext := true } 0 s else s
    else s)

/-- WARDEN_RST_N_DEASSERT (R41). -/
def execWardenRstNDeassert (s : State) : Res :=
  .next (if s.pkg.rstN then s
    else
      let s := { s with pkg := { s.pkg with rstN := true } }
      if s.pkg.st == .cold && s.pkg.standby then wardenReset { por := true } 0 s else s)

/-- CORE_RESET_RELEASE (R65): the core pair starts at the ROM entry point. -/
def execCoreResetRelease (s : State) : Res :=
  .next (if s.pkg.st != .cold && s.pkg.rstN && !s.wd.coreRun then { s with wd := { s.wd with coreRun := true, fw := .rom } } else s)

/-- SRAM_INIT_DONE (R67): a core store that stalled completes. -/
def execSramInitDone (s : State) : Res :=
  .next (if s.wd.coreRun && !s.wd.sramReady then
      let s := { s with wd := { s.wd with sramReady := true, sram := [], flips := [] } }
      match s.wd.stall with
      | some (a, v) => if a < 0x20000000 then
          { s with wd := { s.wd with stall := none, last := .ok 0, sram := cellPuts 0#8 (a - 0x10000000) (toLe 4 v) [] } } else s
      | none => s
    else s)

/-- PKE_BANK_ZERO_DONE (R145): a core store that stalled completes. -/
def execPkeBankZeroDone (s : State) : Res :=
  .next (if s.pk.zeroing then
      pqDispatch (pkStallDone (pkZeroDone s))
    else s)

/-- Oscillator trim of CONFIG word 0 (Table 4-2); none where the group failed its check: untrimmed (R61, R100). -/
def oscTrim (o : Otp) : Option Nat := if nth 0 o.grp 4 = 2 then none else some (tmrWord o (2, 120, 3) 0 % 65536)

/-- OTP_AUTOLOAD (R97 to R100, R469): the limits in force become the effective ones, and the oscillator takes its trim. -/
def execOtpAutoload (s : State) : Res :=
  .next (if s.otp.loaded || s.pkg.st == .cold then s
    else
      let o := autoLoad s.otp
      { s with otp := o, pw := { s.pw with tjt := o.tjt, tjs := o.tjs, vcm := o.vcm }, wd := { s.wd with trim := oscTrim o } })

/-- ROM_BOOT (R162, R163, R181). -/
def execRomBoot (x : RomIn) (s : State) : Res := .next (romBoot x s)
/-- WFW_INIT (R164, R190, R293, R503). -/
def execWfwInit (x : List PulseOut) (s : State) : Res := .next (sqEvent (wfwInit x) s)
/-- BRINGUP_START (R41, R165). -/
def execBringupStart (s : State) : Res := .next (sqEvent bringupStart s)
/-- RAIL_POWER_GOOD (R558); `hlres` is TD_HLRES of each tile that its table releases (R485). -/
def execRailPowerGood (x : RailIn) (s : State) : Res := .next (sqEvent (railGoodEv x.rail x.hlres) s)
/-- UNIT_IMAGE_LOAD (R166). -/
def execUnitImageLoad (kind : Nat) (x : LoadIn) (s : State) : Res := .next (unitLoad kind x s)
/-- UNIT_READY_TIMEOUT (R167). -/
def execUnitReadyTimeout (u : Nat) (s : State) : Res := .next (readyTimeout u s)
/-- STACK_TRAINING_DONE (R397). -/
def execStackTrainingDone (t : Nat) (s : State) : Res := .next (stackTrained t s)
/-- STACK_TRAINING_TIMEOUT (R397). -/
def execStackTrainingTimeout (t : Nat) (s : State) : Res :=
  .next (if s.boot.bphase == .train && s.pkg.st == .bringup && hasStack s t && !(mcS s t).trained then quarantine 5 s else s)

/-- MAIN_INPUT_GOOD (R556). -/
def execMainInputGood (s : State) : Res := .next { s with pkg := { s.pkg with mainOk := true } }
/-- MAIN_OK falls (R556, R559): MAINLOW and source 0, whatever WD_SM_NEN holds. -/
def mainOkFalls (s : State) : State :=
  if s.pkg.mainOk then
    mainLost (irq 0 { s with pkg := { s.pkg with mainOk := false }, pw := { s.pw with notice := setBit s.pw.notice 16 true } })
  else s

/-- MAIN_INPUT_LOST (R43, R559). -/
def execMainInputLost (s : State) : Res := .next (mainOkFalls s)
/-- MAIN_OVERVOLTAGE (R555): the regulators shut down and MAIN_OK falls. -/
def execMainOvervoltage (s : State) : Res := .next (mainOkFalls s)

/-- Every Linya port goes DOWN (R562): unacknowledged flits are held as for a lost signal (R456). -/
def linksDown (s : State) : State :=
  (portUnits s).foldl (fun s u => portsLeave u s) s

/-- Every trained memory controller reports the loss of lock of its MCLK PLL as a tag failure (chapter 25, R394). -/
def mclkLost (s : State) : State :=
  let ts := (stackTiles s).filter (fun t => (mcS s t).trained)
  if ts.isEmpty then s
  else ts.foldl (fun s t => logEvent 0x0501 (t + 9) (toLe 8 (mcS s t).failAddr)
    (modMc t (fun m => { m with tagFail := true, tagf := min (m.tagf + 1) 0xFFFFFFFF }) s)) (setAlarm 16 s)

/-- REFCLK_LINK_LOSS (R562, chapter 25): the ports go DOWN; with stacks in use by a residence QUARANTINE with QCAUSE 0x08,
otherwise at the next stack access. A switch is taken as the residence it ends (DEDUCED, log entry 97). -/
def execRefclkLinkLoss (s : State) : Res :=
  .next (let s := linksDown { s with pkg := { s.pkg with refLink := false } }
    if (s.pkg.st == .loading || s.pkg.st == .active || s.pkg.st == .switching) && (stackTiles s).any (fun t => (mcS s t).trained) then
      quarantine 8 (mclkLost s)
    else s)

/-- QUARANTINE_CLEAR_DONE (R47 steps 3 to 5). -/
def execQuarantineClearDone (s : State) : Res := .next (quarCleared s)
/-- LOCKSTEP_MISMATCH (R62). -/
def execLockstepMismatch (s : State) : Res := .next (if s.wd.coreRun then wardenReset { lockstep := true } 0 s else s)
/-- SRAM_UNCORRECTABLE_ERROR (R64): a bus error, and firmware resets the warden with software code 0x01. -/
def execSramUncorrectableError (_addr : Nat) (s : State) : Res :=
  .next (if s.wd.coreRun then
      let s := { s with wd := { s.wd with last := .busError } }
      if s.wd.fw == .rom then s else softReset 1 s
    else s)

/-- WD_SWRST_WRITE (R65, Table 3-11): another key is ignored. -/
def execWdSwrstWrite (value : Word) (s : State) : Res :=
  .next (if s.wd.coreRun && value.toNat % 65536 = 0x5AC3 then softReset (bits value.toNat 16 8) s else s)
/-- WATCHDOG_KICK (R74). -/
def execWatchdogKick (value : Word) (s : State) : Res :=
  .next (if value.toNat = 0x0000C3A5 then { s with wd := { s.wd with wdtCount := s.wd.wdtLoad } }
    else { s with wd := { s.wd with badKick := min (s.wd.badKick + 1) 255 } })
/-- WATCHDOG_STAGE1 (R74). -/
def execWatchdogStage1 (s : State) : Res :=
  .next (if s.wd.wdtEn && s.wd.wdtS1 then irq 1 { s with wd := { s.wd with wdtCount := min s.wd.wdtCount (s.wd.wdtLoad / 8) } } else
    if s.wd.wdtEn then { s with wd := { s.wd with wdtCount := min s.wd.wdtCount (s.wd.wdtLoad / 8) } } else s)
/-- WATCHDOG_STAGE2 (R74): the warden is reset with cause WDT. -/
def execWatchdogStage2 (s : State) : Res := .next (if s.wd.wdtEn then wardenReset { wdt := true } 0 s else s)
/-- TIMER_COMPARE (R63): WD_TIME reaches the compare value. -/
def execTimerCompare (s : State) : Res := .next (irq 9 { s with wd := { s.wd with time := max s.wd.time s.wd.cmp } })
/-- HB_TICK_INCREMENT (R210): while warden firmware runs. -/
def execHbTickIncrement (s : State) : Res :=
  .next (if fwWfw s then { s with wd := { s.wd with hbTick := (s.wd.hbTick + 1) % 2 ^ 32 } } else s)
/-- UNIT_RESTART_RELOAD (R169). -/
def execUnitRestartReload (u : Nat) (x : LoadIn) (s : State) : Res := .next (unitReload u x s)
/-- WD_CLKSTOP_WRITE (R78). -/
def execWdClkstopWrite (tiles : Nat) (s : State) : Res :=
  .next { s with wd := { s.wd with stopReq := s.wd.stopReq ||| (tiles % 256) } }
/-- CLKSTOP_CONFIRM_TIMEOUT (R484): CLKFAIL, the tile rail is dropped, QCAUSE 0x0C. -/
def execClkstopConfirmTimeout (s : State) : Res :=
  .next (if s.wd.stopReq = 0 then s else clkFail s)
end Sys2Proof.Machine
end

