-- ==== Sys2Proof/Machine/ExecCrypto.lean ====
section
/-! DEFINITION. Meanings of the OTP, digest engine, key store, PKE start and measurement families (chapters 04 to 07). -/

namespace Sys2Proof.Machine

/-- OT_READ (R90). -/
def execOtRead (s : State) : Res := .next (otRead s)
/-- OT_PROG (R95). -/
def execOtProg (s : State) : Res := .next (otProg s)
/-- OT_GEN (R95). -/
def execOtGen (s : State) : Res := .next (otGen s)
/-- OT_INCR_TO (R96). -/
def execOtIncrTo (sel value : Nat) (s : State) : Res := .next (otIncr sel value s)
/-- OT_REVOKE (R96). -/
def execOtRevoke (sel : Nat) (s : State) : Res := .next (otRevoke sel s)
/-- OT_LC_ADVANCE (R101). -/
def execOtLcAdvance (sel : Nat) (s : State) : Res := .next (otLc sel s)
/-- OT_REPAIR (R98). -/
def execOtRepair (s : State) : Res := .next (otRepair s)

/-- OT_ILLEGAL_CMD (R104, Table 4-8): ECODE 1 while BUSY, ECODE 9 for a command Table 4-7 does not list. A listed
command of an idle controller is no illegal command and has its own row. -/
def execOtIllegalCmd (cmd : Nat) (s : State) : Res :=
  .next (if s.otp.busy then otBusy s
    else if 1 ≤ cmd % 16 && cmd % 16 ≤ 7 then s
    else otEnd 9 s)


/-- DG_START (R116). -/
def execDgStart (s : State) : Res := .next (dgStart s)
/-- DG_DATA_WRITE (R116, R117). -/
def execDgDataWrite (value : Word) (s : State) : Res := .next (dgData value s)
/-- DG_BLOCK_ABSORBED (R116). -/
def execDgBlockAbsorbed (s : State) : Res := .next (dgAbsorbed s)
/-- DG_FINISH (R116). -/
def execDgFinish (s : State) : Res := .next (dgFinish s)
/-- DG_OUTER_PASS_DONE (R119). -/
def execDgOuterPassDone (s : State) : Res := .next (dgOuter s)
/-- DG_CLEAR (R128). -/
def execDgClear (s : State) : Res := .next (dgClear s)
/-- DG_ROOTKDF (R113). -/
def execDgRootkdf (s : State) : Res := .next (dgRootKdf s)

/-- KS_GEN (R120). -/
def execKsGen (slot : Nat) (s : State) : Res := .next (ksGen slot s)
/-- KS_UNWRAP (R121). -/
def execKsUnwrap (slot kek : Nat) (s : State) : Res := .next (ksUnwrap slot kek s)
/-- KS_ZERO (R125). -/
def execKsZero (slot : Nat) (bad : Bool) (s : State) : Res := .next (ksZero slot bad s)
/-- KS_ZERO_ALL (R125). -/
def execKsZeroAll (bad : List Nat) (s : State) : Res := .next (ksZeroAll bad s)
/-- KS_SETUSE (R123). -/
def execKsSetuse (slot : Nat) (s : State) : Res := .next (ksSetUse slot s)
/-- KS_LOCK (R123). -/
def execKsLock (slot : Nat) (s : State) : Res := .next (ksLock slot s)
/-- KS_LOAD (R122). -/
def execKsLoad (slot : Nat) (s : State) : Res := .next (ksLoad slot s)
/-- KS_RECHECK (R127, R129): one pass at once. -/
def execKsRecheck (s : State) : Res := .next (if s.ks.busy then ksBusy s else ksJob 8 0 0 (kcvPass s))
/-- KS_CMD_COMPLETE (R129). -/
def execKsCmdComplete (s : State) : Res := .next (ksComplete s)

/-- KCV_RECHECK_PASS (R127, R111): an upset of one bit of one slot, where one occurred, then the pass. -/
def execKcvRecheckPass (upset' : Option (Nat × Nat)) (s : State) : Res :=
  .next (match upset' with
    | some (i, b) => kcvPass (upset i b s)
    | none => kcvPass s)

/-- DRBG_HEALTH_FAILURE (R120, R140). -/
def execDrbgHealthFailure (s : State) : Res := .next (drbgFail s)

/-- PK_START (R138). -/
def execPkStart (streamErr : Option Nat) (s : State) : Res := .next (pkStart streamErr s)

/-- MS_EXTEND (R158). -/
def execMsExtend (slot : Nat) (s : State) : Res := .next (msCmdExtend slot s)
/-- MS_LOCK (R158). -/
def execMsLock (slot : Nat) (s : State) : Res := .next (msCmdLock slot s)
/-- MS_TZERO (R158). -/
def execMsTzero (s : State) : Res := .next (msCmdTzero s)
/-- MS_CMD_COMPLETE (R171). -/
def execMsCmdComplete (s : State) : Res := .next (msComplete s)

end Sys2Proof.Machine
end

