-- ==== Sys2Proof/Machine/ExecSeq.lean ====
section
/-! DEFINITION. Meanings of the sequencer family (chapter 03, R76 to R84). -/

namespace Sys2Proof.Machine

/-- SQ_START (R76): a write of START. -/
def execSqStart (s : State) : Res := .next (sqStart .user s)
/-- SQ_ABORT (R76). -/
def execSqAbort (s : State) : Res := .next (sqEvent sqAbort s)
/-- SQ_NOP (R80). -/
def execSqNop (s : State) : Res := .next (sqEvent (sqRun 0x00 quietStep) s)
/-- SQ_END (R76). -/
def execSqEnd (s : State) : Res := .next (sqEvent (sqRun 0x01 quietStep) s)
/-- SQ_SKIP (R80, R82). -/
def execSqSkip (s : State) : Res := .next (sqEvent (sqRun 0x02 quietStep) s)
/-- SQ_DELAY (R80). -/
def execSqDelay (s : State) : Res := .next (sqEvent (sqRun 0x03 quietStep) s)
/-- SQ_DELAY_EXPIRY (R80). -/
def execSqDelayExpiry (s : State) : Res :=
  .next (sqEvent (fun s => match s.sq.wait with | .delay _ => if s.sq.busy then sqAdvance s else s | _ => s) s)
/-- SQ_SETARG (R80). -/
def execSqSetarg (s : State) : Res := .next (sqEvent (sqRun 0x04 quietStep) s)
/-- SQ_SETFLAG (R80). -/
def execSqSetflag (s : State) : Res := .next (sqEvent (sqRun 0x05 quietStep) s)
/-- SQ_IRQ (R80). -/
def execSqIrq (s : State) : Res := .next (sqEvent (sqRun 0x06 quietStep) s)
/-- SQ_JOIN (R80). -/
def execSqJoin (s : State) : Res := .next (sqEvent (sqRun 0x07 quietStep) s)
/-- SQ_CLEAR (R80). -/
def execSqClear (s : State) : Res := .next (sqEvent (sqRun 0x10 quietStep) s)
/-- SQ_VERIFY (R327). -/
def execSqVerify (s : State) : Res := .next (sqEvent (sqRun 0x11 quietStep) s)
/-- UNIT_OP_COMPLETE (R80): a failed unit operation ends the table with ECODE 4. -/
def execUnitOpComplete (u nonzero : Nat) (fault : Bool) (s : State) : Res := .next (sqEvent (unitOpDone u nonzero fault) s)
/-- SQ_KPUSH (R124). -/
def execSqKpush (corrupt : Bool) (s : State) : Res := .next (sqEvent (sqRun 0x20 { quietStep with corrupt := corrupt }) s)
/-- SQ_KPZERO (R80, R124). -/
def execSqKpzero (s : State) : Res := .next (sqEvent (sqRun 0x21 quietStep) s)
/-- SQ_KSZERO (R125). -/
def execSqKszero (s : State) : Res := .next (sqEvent sqKszeroRun s)
/-- SQ_DIGEST (R81). -/
def execSqDigest (busErr : Bool) (s : State) : Res := .next (sqEvent (sqRun 0x30 { quietStep with busErr := busErr }) s)
/-- SQ_RESET (R80, R485, R501). -/
def execSqReset (hlres : Nat) (s : State) : Res := .next (sqEvent (sqRun 0x40 { quietStep with hlres := hlres }) s)
/-- SQ_CLOCK (R80). -/
def execSqClock (s : State) : Res := .next (sqEvent (sqRun 0x41 quietStep) s)
/-- SQ_RAIL (R80, R558). -/
def execSqRail (s : State) : Res := .next (sqEvent (sqRun 0x42 quietStep) s)
/-- SQ_ILLEGAL_STEP (R82). -/
def execSqIllegalStep (s : State) : Res := .next (sqEvent sqIllegal s)
/-- SQ_STEP_TIMEOUT (R83). -/
def execSqStepTimeout (s : State) : Res := .next (sqEvent sqTimeout s)

end Sys2Proof.Machine
end

