-- ==== Sys2Proof/Machine/RackEv.lean ====
section
/-! DEFINITION. The part of a BX-36 rack that reaches the module (chapter 24): shelves, pumps, and what the rack managers
do to it over the management path. Every module of the rack has this module's rating (log entry 13). -/

namespace Sys2Proof.Machine

/-- Trays (Table 24-2). -/
inductive Tray where
  | d | c | h
deriving DecidableEq, Repr

/-- The tray of a bay, 0 to 35 from the bottom (Table 24-1); build 1 is BX-36D, 2 BX-36C. -/
def trayAt (build bay : Nat) : Tray := if build = 2 then .c else if 16 ≤ bay && bay ≤ 19 then .h else .d

/-- Modules of a tray (Table 24-2). -/
def Tray.modules : Tray → Nat
  | .d => 4 | .c => 2 | .h => 0
/-- Host sockets of a tray. -/
def Tray.sockets : Tray → Nat
  | .d => 0 | .c => 2 | .h => 4
/-- P_tray, W (R530). -/
def Tray.power : Tray → Nat
  | .d => 150 | .c => 1750 | .h => 3000

/-- The sum of a figure over the 36 bays. -/
def baySum (build : Nat) (f : Tray → Nat) : Nat := ((List.range 36).map (fun b => f (trayAt build b))).foldl (· + ·) 0

/-- Port-die sites a host socket is cabled to on a module (R530, Table 24-2): P0, and in BX-36C P9 too. -/
def hostSites (build : Nat) : List Nat := if build = 2 then [0, 9] else [0]

/-- A rack's fill is one kind of port count (R529): M8 only, or M6 and S0. -/
def fillOk (l : List Asm) : Bool := l.all (· == .m8) || l.all (· != .m8)

/-- Module number of slot `slot` of bay `bay` (R531). -/
def moduleNo (build bay slot : Nat) : Nat := if build = 2 then 2 * bay + slot else 4 * (if bay ≤ 15 then bay else bay - 4) + slot

/-- DADDR and EID the rack manager gives module `m` (R531). -/
def moduleDaddr (build m : Nat) : Nat := 256 * build + m + 1
/-- EID of module `m`. -/
def moduleEid (m : Nat) : Nat := 0x20 + m

/-- Neighbour of module `m` in a direction, 0 +x, 1 −x, 2 +y, 3 −y, on the torus of `w` by `h` (R533). -/
def torusNext (w h dir m : Nat) : Nat :=
  let x := m % w
  let y := m / w
  match dir with
  | 0 => w * y + (x + 1) % w
  | 1 => w * y + (x + w - 1) % w
  | 2 => w * ((y + 1) % h) + x
  | _ => w * ((y + h - 1) % h) + x

/-- First port, by bit index 12d + p, and number of ports of a direction (Table 24-3). -/
def dirPorts (m8 : Bool) (dir : Nat) : Nat × Nat := if m8 then (6 * dir, 6) else (12 * dir, 12)

/-- The far end of port `k` of a direction (R533): the same port of the opposite direction. -/
def torusPeer (m8 : Bool) (dir k : Nat) : Nat := (dirPorts m8 (if dir % 2 = 0 then dir + 1 else dir - 1)).1 + k

/-- Modules of the build (Table 24-1). -/
def rackModules (s : State) : Nat := baySum s.rk.build Tray.modules
/-- P_fixed (R536): the trays, the rack managers and the bridges. -/
def rackFixed (s : State) : Nat := baySum s.rk.build Tray.power + 600
/-- P_brk and P_orph (R536). -/
def rackBrake (s : State) : Nat := rackModules s * Config.kBrakeW + rackFixed s
/-- P_orph. -/
def rackOrphan (s : State) : Nat := rackModules s * Config.kOrphanW + rackFixed s

/-- A shelf event with `n` shelves left is ridden through (R549), loads in W and the brake's time in hundredths of a
microsecond: 20 us of the BBC and 802.01 us of R494, against 400 J. -/
def rideThrough (load n : Nat) (s : State) : Bool :=
  decide ((load - 75000 * n) * 82201 ≤ 400 * 100000000) && decide (rackBrake s ≤ 60000 * n)

/-- P_rated (R536). -/
def rackRated (s : State) : Nat := rackModules s * rating s + rackFixed s
/-- N_full (R536). -/
def rackFull (s : State) : Nat := (rackRated s + 59999) / 60000

/-- The shelf cap of R542 for `n` shelves in regulation. -/
def shelfCap (n : Nat) (s : State) : Nat := min (rating s) (floorTo 10 ((57000 * n - rackFixed s) / rackModules s))

/-- The cooling fraction f in percent (R537). -/
def coolPct (pumps : Nat) : Nat := nth 120 [0, 35, 70, 100, 120] pumps

/-- The pump cap of R543. -/
def pumpCap (n : Nat) (s : State) : Nat := min (rating s) (max Config.kBrakeW (floorTo 10 (coolPct n * rating s / 100)))

/-- The cap the rules in force give together: the lower one, the rating with none (chapter 24, "When things coincide"). -/
def rackCap (s : State) : Nat := min ((s.rk.capShelf).getD (rating s)) ((s.rk.capPump).getD (rating s))

/-- The active manager sends MG_CAP_SET. -/
def rackSend (s : State) : State := mgRow (mgVendorMsg 0xB01 (toLe 2 (rackCap s) ++ toLe 2 0)) s

/-- The active manager posts a request with MG_REQUEST (R545). -/
def rackPost (r : Nat) (s : State) : State := mgRow (mgVendorMsg 0xB08 (toLe 1 r ++ toLe 3 0)) s

/-- The rack BRAKE line is released. -/
def brakeLineOff (s : State) : State := brakeDeassert { s with rk := { s.rk with brakeLine := false, waitRelease := false } }

/-- A shelf leaves regulation (R541): BRAKE, and t_bh restarts. -/
def shelfEvent (n : Nat) (s : State) : State :=
  brakeAssert { s with rk := { s.rk with shelves := min 8 n, brakeLine := true, holding := true, waitRelease := false } }

/-- t_bh is over (R541). -/
def bbcHoldEnd (s : State) : State :=
  if !s.rk.holding then s
  else
    let s := { s with rk := { s.rk with holding := false } }
    if rackRated s ≤ s.rk.shelves * 60000 then brakeLineOff s else { s with rk := { s.rk with waitRelease := true } }

/-- The active manager applies the caps of R542, then writes release; the BBC releases once t_bh is over. With fewer than
two shelves there is no cap and no release (Table 24-5). -/
def rmRelease (s : State) : State :=
  if !s.rk.activeAlive || s.rk.shelves < 2 then s
  else
    let s := if s.rk.shelves < rackFull s then rackSend { s with rk := { s.rk with capShelf := some (shelfCap s.rk.shelves s) } } else s
    if s.rk.waitRelease then brakeLineOff s else s

/-- A pump is lost (R543, Table 24-7). -/
def pumpLost (n : Nat) (s : State) : State :=
  if s.rk.pumps ≤ n then s
  else
    let s := { s with rk := { s.rk with pumps := n } }
    if !s.rk.activeAlive then s
    else
      let s := rackSend (rackPost 0 { s with rk := { s.rk with capPump := some (pumpCap n s) } })
      let s := if n ≤ 1 then rackPost 1 s else s
      if n = 0 then rackPost 2 s else s

/-- A pump returns (R543): the caps rise to match the new f. -/
def pumpBack (n : Nat) (s : State) : State :=
  if min 4 n ≤ s.rk.pumps then s
  else
    let s := { s with rk := { s.rk with pumps := min 4 n } }
    if !s.rk.activeAlive then s
    else rackSend { s with rk := { s.rk with capPump := if 3 ≤ min 4 n then none else some (pumpCap (min 4 n) s) } }

/-- A shelf returns (R542): at N_full every cap is the rating again. -/
def shelfBack (n : Nat) (s : State) : State :=
  if min 8 n ≤ s.rk.shelves then s
  else
    let s := { s with rk := { s.rk with shelves := min 8 n } }
    if !s.rk.activeAlive || s.rk.capShelf.isNone then s
    else rackSend { s with rk := { s.rk with capShelf := if rackFull s ≤ min 8 n then none else some (shelfCap (min 8 n) s) } }

/-- The standby manager takes over (R538): keepalives resume; it posts no request, and the caps in force are set again. -/
def rmFailover (s : State) : State :=
  if !s.rk.standbyAlive then s
  else
    let s := mgRow (mgVendorMsg 0xB00 []) { s with rk := { s.rk with activeAlive := true, standbyAlive := false } }
    if s.rk.capShelf.isSome || s.rk.capPump.isSome then rackSend s else s

/-- BBC_SHELF_EVENT (R541). -/
def execBbcShelfEvent (shelves : Nat) (s : State) : Res := .next (shelfEvent shelves s)
/-- BBC_HOLD_EXPIRY (R541). -/
def execBbcHoldExpiry (s : State) : Res := .next (bbcHoldEnd s)
/-- RM_BRAKE_RELEASE (R542). -/
def execRmBrakeRelease (s : State) : Res := .next (rmRelease s)
/-- PUMP_LOSS (R543). -/
def execPumpLoss (pumps : Nat) (s : State) : Res := .next (pumpLost pumps s)
/-- RM_FAILOVER (R538). -/
def execRmFailover (s : State) : Res := .next (rmFailover s)
/-- PUMP_RESTORED (R543). -/
def execPumpRestored (pumps : Nat) (s : State) : Res := .next (pumpBack pumps s)
/-- SHELF_RESTORED (R542). -/
def execShelfRestored (shelves : Nat) (s : State) : Res := .next (shelfBack shelves s)

end Sys2Proof.Machine
end

