-- ==== Sys2Proof/Machine/Regs.lean ====
section
/-! DEFINITION. REGISTER_WRITE: the warden's address map (Table 3-2) and the host's BAR0 (Tables 9-4 to 9-10), one
function per block. RO and HW fields ignore a write, RW1C fields clear where a 1 is written (Table 0-3), reserved fields
are ignored (R12). How `addr` names a host register: log entry 22. -/

namespace Sys2Proof.Machine

/-- A write-1-to-clear field: what it holds after bit `i` of `v` is written. -/
def w1c (v i : Nat) (f : Bool) : Bool := f && !bit v i

/-- OTP controller (Tables 4-6 to 4-8). -/
def otpReg (off v : Nat) (s : State) : State :=
  let sel := bits v 4 4
  match off with
  | 0x0 =>
    (match bits v 0 4 with
     | 1 => otRead s
     | 2 => otProg s
     | 3 => otGen s
     | 4 => otIncr sel (bits v 8 7) s
     | 5 => otRevoke sel s
     | 6 => otLc sel s
     | 7 => otRepair s
     | _ => if s.otp.busy then otBusy s else otEnd 9 s)
  | 0x4 => modOtp (fun o => { o with addr := v % 512 }) s
  | 0x8 => modOtp (fun o => { o with wdata := v }) s
  | 0x10 => modOtp (fun o => { o with margin := bit v 0 }) s
  | 0x14 => modOtp (fun o => { o with done := w1c v 1 o.done, err := w1c v 2 o.err }) s
  | 0x18 => modOtp (fun o => { o with pulse := clampTo 2000 8000 (v % 2 ^ 14) }) s
  | _ => s

/-- DG_CTRL (Table 5-6): ignored while a message is open. -/
def dgCtrl (v : Nat) (s : State) : State :=
  if s.dg.phase ≠ .idle then s
  else { s with dg := { s.dg with
    mode := bits v 0 4, dest := bit v 4, dual := bit v 5, outlen := bits v 6 7, keyslot := bits v 13 6,
    keyslot2 := bits v 19 6, dstslot := bits v 25 6 } }

/-- DG_DSTCFG (Table 5-6). -/
def dgDstcfg (v : Nat) (s : State) : State :=
  { s with dg := { s.dg with doff := bits v 0 2, dlen1 := bits v 2 2, commit := bit v 4, lock := bit v 5, use := bits v 16 16 } }

/-- DG_CMD (Table 5-6): the bits act in bit order. -/
def dgCmd (v : Nat) (s : State) : State :=
  let s := if bit v 0 then dgStart s else s
  let s := if bit v 1 then dgFinish s else s
  let s := if bit v 2 then dgClear s else s
  if bit v 3 then dgRootKdf s else s

/-- Digest engine (Tables 5-6, 5-7). -/
def dgReg (off v : Nat) (s : State) : State :=
  match off with
  | 0x0 => dgGuard (dgCtrl v) s
  | 0x4 => dgGuard (dgDstcfg v) s
  | 0x8 => dgCmd v s
  | 0xC => dgData (BitVec.ofNat 32 v) s
  | 0x10 => dgGuard (fun s => { s with dg := { s.dg with done := w1c v 2 s.dg.done, err := w1c v 3 s.dg.err } }) s
  | _ => s

/-- Measurement bank (Table 7-8). -/
def msReg (off v : Nat) (s : State) : State :=
  if off = 0 then
    (match bits v 0 2 with
     | 1 => msCmdExtend (bits v 8 5) s
     | 2 => msCmdLock (bits v 8 5) s
     | 3 => msCmdTzero s
     | _ => if s.ms.job.isSome then msBusy s else msJob 0 2 s)
  else if off = 4 then { s with ms := { s.ms with done := w1c v 1 s.ms.done, err := w1c v 2 s.ms.err } }
  else if 0x40 ≤ off && off < 0x70 then { s with ms := { s.ms with msIn := overlay (slice s.ms.msIn 0 48) (off - 0x40) (toLe 4 v) } }
  else s

/-- PKE (Tables 6-2, 6-4). While BUSY is 1 only PK_CMD and the RW1C bits of PK_STATUS take a write (R139); the result
selectors PK_RES0 and PK_RES1 count among the operand registers (DESIGN CHOICE, log entry 75). -/
def pkReg (off v : Nat) (s : State) : State :=
  let k := s.pk
  let put (k : Pke) : State := { s with pk := k }
  if k.busy && off ≠ 4 && off ≠ 8 then s
  else if off = 0 then (put { k with len := clampTo Config.kPkeSlotMin Config.kPkeSlotMax (v % 256) })
  else if off = 4 then (if bit v 0 then pkStart none s else s)
  else if off = 8 then put { k with done := w1c v 1 k.done, err := w1c v 2 k.err, ovr := w1c v 3 k.ovr }
  else if off = 0xC then
    put { k with op := bits v 0 8, kslot := bits v 8 6, ksin := bit v 14, ord := bit v 15, dslot := bits v 16 6, ksout := bit v 22 }
  else if off = 0x10 then put { k with dstUse := bits v 0 16, dstLock := bit v 16 }
  else if off = 0x14 then put { k with nw := bits v 0 8, ebits := bits v 8 13 }
  else if 0x20 ≤ off && off < 0x30 then
    put { k with opnds := modNth ((off - 0x20) / 4) (fun o => { o with slot := bits v 0 11, wipe := bit v 11, stream := bit v 31 }) k.opnds }
  else if 0x30 ≤ off && off < 0x40 then put { k with opnds := modNth ((off - 0x30) / 4) (fun o => { o with saddr := v }) k.opnds }
  else if off = 0x40 then put { k with res0 := v % 2048 }
  else if off = 0x44 then put { k with res1 := v % 2048 }
  else s

/-- KS_CMD (Table 5-8). -/
def ksCmd (v : Nat) (s : State) : State :=
  let i := bits v 4 6
  match bits v 0 4 with
  | 1 => ksGen i s
  | 2 => ksUnwrap i (bits v 10 6) s
  | 3 => ksZero i false s
  | 4 => ksZeroAll [] s
  | 5 => ksSetUse i s
  | 6 => ksLock i s
  | 7 => ksLoad i s
  | 8 => if s.ks.busy then ksBusy s else ksJob 8 0 0 (kcvPass s)
  | n => if s.ks.busy then ksBusy s else ksJob n i 2 s

/-- Key store control (Table 5-8). -/
def ksReg (off v : Nat) (s : State) : State :=
  let k := s.ks
  let put (k : KeyStore) : State := { s with ks := k }
  if off = 0 then ksCmd v s
  else if off = 4 then put { k with argUse := bits v 0 16, argLock := bit v 16, argLen := bits v 17 2 }
  else if off = 8 then
    put { k with done := w1c v 1 k.done, err := w1c v 2 k.err, kcverr := w1c v 3 k.kcverr, patfb := w1c v 4 k.patfb }
  else if off = 0xC then put { k with kcvper := clampTo 1 Config.kKcvUs (v % 65536) }
  else if off = 0x10 then put { k with tlock := k.tlock || bit v 0 }
  else if off = 0x18 then (if k.tlock then s else put { k with tenant := setHalf 0 k.tenant v })
  else if off = 0x1C then (if k.tlock then s else put { k with tenant := setHalf 1 k.tenant v })
  else if 0x40 ≤ off && off < 0x90 then put { k with wbuf := overlay (slice k.wbuf 0 80) (off - 0x40) (toLe 4 v) }
  else s

/-- Sequencer control (Tables 3-8, 3-9). DESIGN CHOICE (log entry 59): START and ABORT written together act in bit order,
START first; a BOUND above 4,096 is taken as 4,096. -/
def sqReg (off v : Nat) (s : State) : State :=
  let q := s.sq
  let put (q : Seqr) : State := { s with sq := q }
  if off = 0 then put { q with entry := v % 4096 }
  else if off = 4 then
    let s := if bit v 0 then sqStart .user s else s
    if bit v 1 then sqEvent sqAbort s else s
  else if off = 8 then put { q with done := w1c v 1 q.done, err := w1c v 2 q.err, aborted := w1c v 3 q.aborted, ovr := w1c v 4 q.ovr }
  else if off = 0xC then put { q with sw := bits v 24 8 }
  else if off = 0x10 then put { q with tmo := max 1 (v % 2 ^ 24) }
  else if off = 0x14 then (if q.lock then s else put { q with bound := min Config.kSteps (v % 2 ^ 13), lock := bit v 31 })
  else if 0x20 ≤ off && off < 0x40 then
    put { q with args := modNth ((off - 0x20) / 8) (fun a => setHalf ((off - 0x20) / 4 % 2) a v % 2 ^ 40) q.args }
  else s

/-- Host channel `c` (Table 10-5). -/
def hmbReg (c off v : Nat) (s : State) : State :=
  match off with
  | 0x0 => modChan c (fun x => if x.busy then x else { x with gen := bits v 8 8 }) s
  | 0x4 =>
    let s := if bit v 0 then hmbTake c s else s
    let s := if bit v 1 then hmbPost c s else s
    if bit v 2 then modChan c (fun x => { x with rspValid := false }) s else s
  | 0x8 => modChan c (fun x => { x with addr := v / 8 * 8 }) s
  | 0xC => modChan c (fun x => { x with len := v % 2 ^ 13 }) s
  | 0x10 => modChan c (fun x => { x with mvDone := w1c v 1 x.mvDone, mvErr := w1c v 2 x.mvErr }) s
  | 0x14 => modChan c (fun x => { x with dbIrqEn := bit v 0 }) s
  | _ => s

/-- Internal mailbox of unit `u` (Table 3-10). -/
def imbReg (u off v : Nat) (s : State) : State :=
  if unitType s u != .tile && unitType s u != .port then s
  else match off with
  | 0x0 => if bit v 0 then sqEvent (imbClear u) s else s
  | 0x4 => modUnit u (fun x => { x with irqEn := bit v 0, hbIrqEn := bit v 1 }) s
  | 0xC => modUnit u (fun x => { x with hbLim := v }) s
  | _ => s

/-- A packet of the transmit ring after a word of its entry is written: the length at 0, the packet from 4. -/
def txPut (off v : Nat) (p : Bytes) : Bytes :=
  if off < 4 then slice p 0 (min 124 (v % 65536))
  else overlay (slice p 0 (max p.length off)) (off - 4) (toLe 4 v)

/-- Management registers (Table 23-2). -/
def mgReg (off v : Nat) (s : State) : State :=
  let g := s.mg
  let put (g : Mgmt) : State := { s with mg := g }
  if off = 0 then put { g with rxv := w1c v 0 g.rxv }
  else if off = 4 then put { g with irqEn := bit v 0, ibiEn := bit v 1 }
  else if off = 8 then mgTxgo (v % 64) s
  else if off = 0x10 then put { g with hold := bit v 0 }
  else if 0x1C00 ≤ off && off < 0x3400 then
    let i := (off - 0x1C00) / 128
    put { g with tx := modNth i (txPut ((off - 0x1C00) % 128) v) (g.tx ++ List.replicate (i + 1 - g.tx.length) []) }
  else s

/-- Mailbox hardware: channels, internal mailboxes, management registers. -/
def mbReg (off v : Nat) (s : State) : State :=
  if off < 0x8000 then hmbReg (off / 0x1000) (off % 0x1000) v s
  else if off < 0xC800 then imbReg ((off - 0x8000) / 0x400) ((off - 0x8000) % 0x400) v s
  else mgReg (off - 0xC800) v s

/-- Safety monitor (Table 21-3). -/
def smReg (off v : Nat) (s : State) : State :=
  let p := s.pw
  let put (p : Power) : State := { s with pw := p }
  let clear (m : Nat) : Nat := m ^^^ (m &&& v)
  if off = 0 then put { p with alarm := clear p.alarm }
  else if off = 4 then put { p with notice := clear p.notice }
  else if off = 8 then put { p with nen := v % 65536 }
  else if off = 0x14 then put { p with tjt := min p.tjt (bits v 0 8), tjs := min p.tjs (bits v 8 8), vcm := min p.vcm (bits v 16 12) }
  else if 0x108 ≤ off && off < 0x188 && (off - 0x108) % 16 = 0 then
    modTileP ((off - 0x108) / 16) (fun x => { x with freq := clampTo 400 1900 (v % 4096) }) s
  else s

/-- Timers, watchdog and reset (Tables 3-11, 3-12). DESIGN CHOICE (log entry 68): setting EN in WD_WDT_CTRL does not reload
the count. -/
def tmReg (off v : Nat) (s : State) : State :=
  let w := s.wd
  let put (w : Warden) : State := { s with wd := w }
  match off with
  | 0x10 => put { w with cmp := setHalf 0 w.cmp v }
  | 0x14 => put { w with cmp := setHalf 1 w.cmp v }
  | 0x20 => if w.wdtLock then s else put { w with wdtEn := bit v 0, wdtLock := bit v 1, wdtS1 := bit v 2 }
  | 0x24 => if w.wdtLock then s else put { w with wdtLoad := max 1000 (v % 2 ^ 24) }
  | 0x28 => if v = 0xC3A5 then put { w with wdtCount := w.wdtLoad } else put { w with badKick := min (w.badKick + 1) 255 }
  | 0x30 => put { w with por := w1c v 0 w.por, ext := w1c v 1 w.ext, wdt := w1c v 2 w.wdt, lockstep := w1c v 3 w.lockstep, swrst := w1c v 4 w.swrst }
  | 0x34 => if v % 65536 = 0x5AC3 then softReset (bits v 16 8) s else s
  | 0x38 => put { w with stopReq := w.stopReq ||| v % 256 }
  | 0x40 => put { w with fwto := max 1 (v % 65536) }
  | _ => s

/-- A write to step RAM (R77). -/
def stepRamWrite (off v : Nat) (s : State) : State :=
  let i := off / 8
  if s.sq.busy || (s.sq.lock && decide (i < s.sq.bound)) then wdBusError s
  else wdOk (ramPut i (BitVec.ofNat 64 (setHalf (off / 4 % 2) (stepAt s i).toNat v)) s)

/-- The register blocks of Table 3-2 whose registers the spec gives, by the address bits above 16. -/
def blockReg (blk off v : Nat) (s : State) : Option State :=
  if blk = 0x2000 then some (otpReg off v s)
  else if blk = 0x2001 then some (if off < 0x8000 then dgReg off v s else msReg (off - 0x8000) v s)
  else if blk = 0x2002 then some (pkReg off v s)
  else if blk = 0x2005 then some (ksReg off v s)
  else if blk = 0x2006 then some (sqReg off v s)
  else if blk = 0x2007 then some (mbReg off v s)
  else if blk = 0x2008 then some (smReg off v s)
  else if blk = 0x2009 then some (tmReg off v s)
  else none

/-- The blocks whose registers the spec does not give: AES engine, TRNG and DRBG, SPI flash controller. -/
def undescribed (a : Nat) : Bool := a / 65536 == 0x2003 || a / 65536 == 0x2004 || a / 65536 == 0x4000

/-- A core write of a word (R64): its end is `last`. A store to SRAM before the initialisation engine has finished stalls
(R67). DESIGN CHOICE (log entry 67): Table 3-2 gives the fabric window the End 0x311F_FFFF and the Size 288 MiB; the windows
of R69 for units 0 to 15 are taken whole, and from 0x4000_0000 the rows of the SPI flash decode, so that the windows of units
16 and 17 are reached by FABRIC_WINDOW_ACCESS alone. -/
def coreWrite (a v : Nat) (s : State) : State :=
  if a % 4 ≠ 0 then wdBusError s
  else if 0x10000000 ≤ a && a < 0x10100000 then
    (if s.wd.sramReady then wdOk { s with wd := { s.wd with
        sram := cellPuts 0#8 (a - 0x10000000) (toLe 4 v) s.wd.sram, flips := s.wd.flips.filter (· != a) } }
     else wdStall a v s)
  else if 0x21000000 ≤ a && a < 0x21010000 then pkMemWrite (a - 0x21000000) v s
  else if 0x22000000 ≤ a && a < 0x22008000 then stepRamWrite (a - 0x22000000) v s
  else if 0x30000000 ≤ a && a < 0x40000000 then fabricAccess ((a - 0x30000000) / 2 ^ 24) (a % 2 ^ 24) true v true s
  else if 0x40010000 ≤ a && a < 0x41000000 then wdOk s
  else match blockReg (a / 65536) (a % 65536) v (wdOk s) with
    | some t => t
    | none => wdBusError s

/-- A write to HB_IRQ_EN, HB_IRQ_CAUSE or the MSI-X table of function `d` (Tables 9-7, 9-8). -/
def irqBlock (d off v : Nat) (s : State) : State :=
  if off = 0 then modFn d (fun f => { f with cause := f.cause ^^^ (f.cause &&& v) }) s
  else if off = 4 then modFn d (fun f => { f with irqEn := v &&& 0x00FF007F }) s
  else if 0x1000 ≤ off && off < 0x1400 then
    let k := (off - 0x1000) / 16
    let s := modFn d (fun f => { f with table := putKey ((off - 0x1000) / 4) v f.table }) s
    if off % 16 = 12 then sendPending d (modFn d (fun f => { f with mask := setBit f.mask k (bit v 0) }) s) else s
  else s

/-- A write to a mailbox channel of the primary function (Table 9-9). -/
def mbxReg (c off v : Nat) (s : State) : State :=
  if off = 0 then (if bit v 1 then modChan c (fun x => { x with rspValid := false }) s else s)
  else if off = 8 then modChan c (fun x => { x with irqEn := bit v 0 }) s
  else s

/-- A write to the fault-ring block (Table 9-10). -/
def frReg (off v : Nat) (s : State) : State :=
  let h := s.hb
  match off with
  | 0x0 => frCtrlWrite v s
  | 0x8 => { s with hb := { h with frBase := setHalf 0 h.frBase v / 4096 * 4096 } }
  | 0xC => { s with hb := { h with frBase := setHalf 1 h.frBase v } }
  | 0x10 => if h.frEn || v % 32 < 9 || 16 < v % 32 then s else { s with hb := { h with frSize := v % 32 } }
  | 0x18 => frTailWrite v s
  | 0x1C => { s with hb := { h with frOvf := w1c v 0 h.frOvf } }
  | _ => s

/-- A write to the aperture block (Table 9-10, R278): dropped and counted in CONFIDENTIAL. -/
def apReg (off v : Nat) (s : State) : State :=
  if off = 0 then
    (if s.pkg.mode == .opened then { s with hb := { s.hb with apEn := bit v 0 } } else apDrop s)
  else if 0x1000 ≤ off && off < 0x2000 then apDescWrite ((off - 0x1000) / 64) (off % 64) (BitVec.ofNat 32 v) s
  else apDrop s

/-- A write AER logs as an Unsupported Request (R202). -/
def aerUr (s : State) : State := { s with hb := { s.hb with urs := s.hb.urs + 1 } }

/-- A host write of an aligned word at BAR0 offset `o` of function `d` (R203, R210). -/
def bar0Word32 (d o v : Nat) (s : State) : State :=
  if 0x1000 ≤ o && o < 0x3000 then irqBlock d (o - 0x1000) v s
  else if d ≠ 0 then s
  else if o = 0x40 then { s with mg := { s.mg with mreq := s.mg.mreq ^^^ (s.mg.mreq &&& v) } }
  else if 0x10000 ≤ o && o < 0x30000 then mbxReg ((o - 0x10000) / 0x4000) (o % 0x4000) v s
  else if 0x100000 ≤ o && o < 0x108000 && o % 0x1000 = 0 then mbxDoorbell ((o - 0x100000) / 0x1000) v s
  else if 0x200000 ≤ o && o < 0x201000 then frReg (o - 0x200000) v s
  else if 0x300000 ≤ o && o < 0x302000 then apReg (o - 0x300000) v s
  else s

/-- The mailbox buffer an offset of the primary function's BAR0 lies in (Table 9-9): its channel, whether it is the response
buffer, and the offset in it. -/
def mbxBuffer (o : Nat) : Option (Nat × Bool × Nat) :=
  let k := o % 0x4000
  if o < 0x10000 || 0x30000 ≤ o then none
  else if 0x1000 ≤ k && k < 0x2000 then some ((o - 0x10000) / 0x4000, false, k - 0x1000)
  else if 0x2000 ≤ k && k < 0x3000 then some ((o - 0x10000) / 0x4000, true, k - 0x2000)
  else none

/-- A host write of `n` bytes, its byte enables whole or not (R202): the register blocks take 32 or 64 bits naturally aligned, the
low word first; any other is dropped and logged in AER. A 64-bit doorbell of an invalidation lane acts with both words
(INVALIDATION_DOORBELL). BAR2 is read-only. -/
def hostWrite (d : Nat) (bar2 : Bool) (o n v : Nat) (whole : Bool) (s : State) : State :=
  if !barOn s d then s
  else match if bar2 || d ≠ 0 then none else mbxBuffer o with
  | some (c, rsp, k) => if rsp then s else mbxWrite c k (toLe n v) s
  | none =>
  if !whole || !(n = 4 || n = 8) || o % n ≠ 0 then aerUr s
  else if bar2 then s
  else if n = 4 then bar0Word32 d o (v % 2 ^ 32) s
  else if d = 0 && 0x110000 ≤ o && o < 0x150000 then (if o % 0x1000 = 0 then invLane ((o - 0x110000) / 0x1000) v s else s)
  else bar0Word32 d (o + 4) (v / 2 ^ 32) (bar0Word32 d o (v % 2 ^ 32) s)

/-- REGISTER_WRITE: below 2^32 a write of the warden core, else a host write: [26:0] offset, [27] BAR2, [29:28] function, [30] a
write of 64 bits, [31] one of another length or without all byte enables, [64:33] the upper word (log entry 22). -/
def regWrite (a v : Nat) (s : State) : State :=
  if 2 ^ 32 ≤ a then
    hostWrite (bits a 28 2) (bit a 27) (bits a 0 27) (if bit a 30 then 8 else 4) (v + 2 ^ 32 * bits a 33 32) (!bit a 31) s
  else if !s.wd.coreRun || s.wd.access.isSome || s.wd.stall.isSome then s
  else coreWrite a v s

/-- REGISTER_WRITE (R11, R64, R202): refused at a register of a unit whose registers the spec does not give. -/
def execRegisterWrite (addr : Nat) (value : Word) (s : State) : Res :=
  if addr < 2 ^ 32 && undescribed addr && addr % 4 == 0 && s.wd.coreRun then .refused .registerOfUndescribedUnit
  else .next (regWrite addr value.toNat s)

end Sys2Proof.Machine
end

