-- ==== Sys2Proof/Machine/Dispatch.lean ====
section
/-! DEFINITION. The dispatch: one arm for each command. -/

namespace Sys2Proof.Machine

/-- The effect of a command on everything but the queue of waiting commands. -/
def exec (i : Instr) (s : State) : Host.Outcome State Fault Refusal :=
  match i with
  | .standbyGood progWin => Sys2Proof.Machine.execStandbyGood progWin s
  | .standbyLost => Sys2Proof.Machine.execStandbyLost s
  | .standbyOvervoltage => Sys2Proof.Machine.execStandbyOvervoltage s
  | .wardenRstNAssert => Sys2Proof.Machine.execWardenRstNAssert s
  | .coreResetRelease => Sys2Proof.Machine.execCoreResetRelease s
  | .sramInitDone => Sys2Proof.Machine.execSramInitDone s
  | .pkeBankZeroDone => Sys2Proof.Machine.execPkeBankZeroDone s
  | .otpAutoload => Sys2Proof.Machine.execOtpAutoload s
  | .romBoot x => Sys2Proof.Machine.execRomBoot x s
  | .wfwInit x => Sys2Proof.Machine.execWfwInit x s
  | .bringupStart => Sys2Proof.Machine.execBringupStart s
  | .railPowerGood x => Sys2Proof.Machine.execRailPowerGood x s
  | .unitImageLoad kind x => Sys2Proof.Machine.execUnitImageLoad kind x s
  | .unitReady u gen version => Sys2Proof.Machine.execUnitReady u gen version s
  | .unitReadyTimeout u => Sys2Proof.Machine.execUnitReadyTimeout u s
  | .stackTrainingDone t => Sys2Proof.Machine.execStackTrainingDone t s
  | .stackTrainingTimeout t => Sys2Proof.Machine.execStackTrainingTimeout t s
  | .mainInputGood => Sys2Proof.Machine.execMainInputGood s
  | .mainInputLost => Sys2Proof.Machine.execMainInputLost s
  | .mainOvervoltage => Sys2Proof.Machine.execMainOvervoltage s
  | .refclkPcieLoss => Sys2Proof.Machine.execRefclkPcieLoss s
  | .refclkLinkLoss => Sys2Proof.Machine.execRefclkLinkLoss s
  | .quarantineClearDone => Sys2Proof.Machine.execQuarantineClearDone s
  | .lockstepMismatch => Sys2Proof.Machine.execLockstepMismatch s
  | .sramUncorrectableError addr => Sys2Proof.Machine.execSramUncorrectableError addr s
  | .wdSwrstWrite value => Sys2Proof.Machine.execWdSwrstWrite value s
  | .watchdogKick value => Sys2Proof.Machine.execWatchdogKick value s
  | .watchdogStage1 => Sys2Proof.Machine.execWatchdogStage1 s
  | .watchdogStage2 => Sys2Proof.Machine.execWatchdogStage2 s
  | .timerCompare => Sys2Proof.Machine.execTimerCompare s
  | .hbTickIncrement => Sys2Proof.Machine.execHbTickIncrement s
  | .registerWrite addr value => Sys2Proof.Machine.execRegisterWrite addr value s
  | .fabricWindowAccess u off write value answered => Sys2Proof.Machine.execFabricWindowAccess u off write value answered s
  | .fabricWindowTimeout => Sys2Proof.Machine.execFabricWindowTimeout s
  | .imbCommandDoorbell u frame => Sys2Proof.Machine.execImbCommandDoorbell u frame s
  | .imbResponse u gen frame => Sys2Proof.Machine.execImbResponse u gen frame s
  | .imbRspClear u => Sys2Proof.Machine.execImbRspClear u s
  | .unitEvent u gen payload => Sys2Proof.Machine.execUnitEvent u gen payload s
  | .unitHeartbeat u => Sys2Proof.Machine.execUnitHeartbeat u s
  | .heartbeatLimit u => Sys2Proof.Machine.execHeartbeatLimit u s
  | .sqStart => Sys2Proof.Machine.execSqStart s
  | .sqAbort => Sys2Proof.Machine.execSqAbort s
  | .sqNop => Sys2Proof.Machine.execSqNop s
  | .sqEnd => Sys2Proof.Machine.execSqEnd s
  | .sqSkip => Sys2Proof.Machine.execSqSkip s
  | .sqDelay => Sys2Proof.Machine.execSqDelay s
  | .sqDelayExpiry => Sys2Proof.Machine.execSqDelayExpiry s
  | .sqSetarg => Sys2Proof.Machine.execSqSetarg s
  | .sqSetflag => Sys2Proof.Machine.execSqSetflag s
  | .sqIrq => Sys2Proof.Machine.execSqIrq s
  | .sqJoin => Sys2Proof.Machine.execSqJoin s
  | .sqClear => Sys2Proof.Machine.execSqClear s
  | .sqVerify => Sys2Proof.Machine.execSqVerify s
  | .unitOpComplete u nonzero fault => Sys2Proof.Machine.execUnitOpComplete u nonzero fault s
  | .sqKpush corrupt => Sys2Proof.Machine.execSqKpush corrupt s
  | .sqKpzero => Sys2Proof.Machine.execSqKpzero s
  | .sqKszero => Sys2Proof.Machine.execSqKszero s
  | .sqDigest busErr => Sys2Proof.Machine.execSqDigest busErr s
  | .sqReset hlres => Sys2Proof.Machine.execSqReset hlres s
  | .sqClock => Sys2Proof.Machine.execSqClock s
  | .sqRail => Sys2Proof.Machine.execSqRail s
  | .sqIllegalStep => Sys2Proof.Machine.execSqIllegalStep s
  | .sqStepTimeout => Sys2Proof.Machine.execSqStepTimeout s
  | .wdClkstopWrite tiles => Sys2Proof.Machine.execWdClkstopWrite tiles s
  | .clkstopConfirmTimeout => Sys2Proof.Machine.execClkstopConfirmTimeout s
  | .otRead => Sys2Proof.Machine.execOtRead s
  | .otProg => Sys2Proof.Machine.execOtProg s
  | .otGen => Sys2Proof.Machine.execOtGen s
  | .otIncrTo sel value => Sys2Proof.Machine.execOtIncrTo sel value s
  | .otRevoke sel => Sys2Proof.Machine.execOtRevoke sel s
  | .otLcAdvance sel => Sys2Proof.Machine.execOtLcAdvance sel s
  | .otRepair => Sys2Proof.Machine.execOtRepair s
  | .otIllegalCmd cmd => Sys2Proof.Machine.execOtIllegalCmd cmd s
  | .otCmdComplete x => Sys2Proof.Machine.execOtCmdComplete x s
  | .dgStart => Sys2Proof.Machine.execDgStart s
  | .dgDataWrite value => Sys2Proof.Machine.execDgDataWrite value s
  | .dgBlockAbsorbed => Sys2Proof.Machine.execDgBlockAbsorbed s
  | .dgFinish => Sys2Proof.Machine.execDgFinish s
  | .dgOuterPassDone => Sys2Proof.Machine.execDgOuterPassDone s
  | .dgClear => Sys2Proof.Machine.execDgClear s
  | .dgRootkdf => Sys2Proof.Machine.execDgRootkdf s
  | .ksGen slot => Sys2Proof.Machine.execKsGen slot s
  | .ksUnwrap slot kek => Sys2Proof.Machine.execKsUnwrap slot kek s
  | .ksZero slot bad => Sys2Proof.Machine.execKsZero slot bad s
  | .ksZeroAll bad => Sys2Proof.Machine.execKsZeroAll bad s
  | .ksSetuse slot => Sys2Proof.Machine.execKsSetuse slot s
  | .ksLock slot => Sys2Proof.Machine.execKsLock slot s
  | .ksLoad slot => Sys2Proof.Machine.execKsLoad slot s
  | .ksRecheck => Sys2Proof.Machine.execKsRecheck s
  | .kcvRecheckPass upset => Sys2Proof.Machine.execKcvRecheckPass upset s
  | .pkStart streamErr => Sys2Proof.Machine.execPkStart streamErr s
  | .pkeJobComplete x => Sys2Proof.Machine.execPkeJobComplete x s
  | .msExtend slot => Sys2Proof.Machine.execMsExtend slot s
  | .msLock slot => Sys2Proof.Machine.execMsLock slot s
  | .msTzero => Sys2Proof.Machine.execMsTzero s
  | .unitRestartReload u x => Sys2Proof.Machine.execUnitRestartReload u x s
  | .trialHealthCheck ok => Sys2Proof.Machine.execTrialHealthCheck ok s
  | .perstNAssert d => Sys2Proof.Machine.execPerstNAssert d s
  | .perstNDeassert d => Sys2Proof.Machine.execPerstNDeassert d s
  | .functionLevelReset d => Sys2Proof.Machine.execFunctionLevelReset d s
  | .dataLinkLayerDown d => Sys2Proof.Machine.execDataLinkLayerDown d s
  | .linkUp x => Sys2Proof.Machine.execLinkUp x s
  | .d3hotEntry d => Sys2Proof.Machine.execD3hotEntry d s
  | .d0Entry d => Sys2Proof.Machine.execD0Entry d s
  | .msixUnmask d vector => Sys2Proof.Machine.execMsixUnmask d vector s
  | .mbxBufferWrite ch off data => Sys2Proof.Machine.execMbxBufferWrite ch off data s
  | .mbxDoorbell ch len => Sys2Proof.Machine.execMbxDoorbell ch len s
  | .mbxRspAck ch => Sys2Proof.Machine.execMbxRspAck ch s
  | .hmbTake ch => Sys2Proof.Machine.execHmbTake ch s
  | .hmbMoveDone ch => Sys2Proof.Machine.execHmbMoveDone ch s
  | .jobDuplicateRelease ch => Sys2Proof.Machine.execJobDuplicateRelease ch s
  | .hmbPost ch => Sys2Proof.Machine.execHmbPost ch s
  | .hmbClrrsp ch => Sys2Proof.Machine.execHmbClrrsp ch s
  | .featureOffer c => Sys2Proof.Machine.execFeatureOffer c s
  | .featureAccept c => Sys2Proof.Machine.execFeatureAccept c s
  | .modeSet c => Sys2Proof.Machine.execModeSet c s
  | .channelReset c => Sys2Proof.Machine.execChannelReset c s
  | .resultRead c => Sys2Proof.Machine.execResultRead c s
  | .resultRelease c => Sys2Proof.Machine.execResultRelease c s
  | .stagePut c => Sys2Proof.Machine.execStagePut c s
  | .stageClear c => Sys2Proof.Machine.execStageClear c s
  | .attReport c => Sys2Proof.Machine.execAttReport c s
  | .attCerts c => Sys2Proof.Machine.execAttCerts c s
  | .attMeasLog c => Sys2Proof.Machine.execAttMeasLog c s
  | .attEphemeral c => Sys2Proof.Machine.execAttEphemeral c s
  | .tenantEnroll c => Sys2Proof.Machine.execTenantEnroll c s
  | .tenantStage c => Sys2Proof.Machine.execTenantStage c s
  | .tenantLoad c => Sys2Proof.Machine.execTenantLoad c s
  | .loadingUnitAck u => Sys2Proof.Machine.execLoadingUnitAck u s
  | .loadingAckTimeout => Sys2Proof.Machine.execLoadingAckTimeout s
  | .loadingSelftestPass => Sys2Proof.Machine.execLoadingSelftestPass s
  | .tenantEvict c => Sys2Proof.Machine.execTenantEvict c s
  | .tenantRevoke c => Sys2Proof.Machine.execTenantRevoke c s
  | .tenantStatus c => Sys2Proof.Machine.execTenantStatus c s
  | .tenantList c => Sys2Proof.Machine.execTenantList c s
  | .tenantClearReceipt c => Sys2Proof.Machine.execTenantClearReceipt c s
  | .switchHaltDone => Sys2Proof.Machine.execSwitchHaltDone s
  | .switchHaltTimeout => Sys2Proof.Machine.execSwitchHaltTimeout s
  | .flashWriteDone ok => Sys2Proof.Machine.execFlashWriteDone ok s
  | .wpkOpen c => Sys2Proof.Machine.execWpkOpen c s
  | .keyRelease c => Sys2Proof.Machine.execKeyRelease c s
  | .keyReleaseSet c => Sys2Proof.Machine.execKeyReleaseSet c s
  | .wpkLoad c => Sys2Proof.Machine.execWpkLoad c s
  | .wpkPageFold x => Sys2Proof.Machine.execWpkPageFold x s
  | .wpkFinish c => Sys2Proof.Machine.execWpkFinish c s
  | .wpkStatus c => Sys2Proof.Machine.execWpkStatus c s
  | .wpkClose c => Sys2Proof.Machine.execWpkClose c s
  | .progLoad c => Sys2Proof.Machine.execProgLoad c s
  | .jobSubmit c => Sys2Proof.Machine.execJobSubmit c s
  | .jobCancel c => Sys2Proof.Machine.execJobCancel c s
  | .jobStatus c => Sys2Proof.Machine.execJobStatus c s
  | .rcptFlush c => Sys2Proof.Machine.execRcptFlush c s
  | .astCreate c => Sys2Proof.Machine.execAstCreate c s
  | .astDestroy c => Sys2Proof.Machine.execAstDestroy c s
  | .astInvalidate c => Sys2Proof.Machine.execAstInvalidate c s
  | .prefetch c => Sys2Proof.Machine.execPrefetch c s
  | .advise c => Sys2Proof.Machine.execAdvise c s
  | .faultResume c => Sys2Proof.Machine.execFaultResume c s
  | .mirrorSet c => Sys2Proof.Machine.execMirrorSet c s
  | .regionSet c => Sys2Proof.Machine.execRegionSet c s
  | .linkStatus c => Sys2Proof.Machine.execLinkStatus c s
  | .linkKeyx c => Sys2Proof.Machine.execLinkKeyx c s
  | .linkJobEnd c => Sys2Proof.Machine.execLinkJobEnd c s
  | .linkBounds c => Sys2Proof.Machine.execLinkBounds c s
  | .linkClear c => Sys2Proof.Machine.execLinkClear c s
  | .pwrStatus c => Sys2Proof.Machine.execPwrStatus c s
  | .pwrCapSet c => Sys2Proof.Machine.execPwrCapSet c s
  | .limitTighten c => Sys2Proof.Machine.execLimitTighten c s
  | .unitStatus c => Sys2Proof.Machine.execUnitStatus c s
  | .memTelem c => Sys2Proof.Machine.execMemTelem c s
  | .perfRead c => Sys2Proof.Machine.execPerfRead c s
  | .powerDown c => Sys2Proof.Machine.execPowerDown c s
  | .telemThresh c => Sys2Proof.Machine.execTelemThresh c s
  | .irqQuant c => Sys2Proof.Machine.execIrqQuant c s
  | .updStatus c => Sys2Proof.Machine.execUpdStatus c s
  | .updBegin c => Sys2Proof.Machine.execUpdBegin c s
  | .updData c => Sys2Proof.Machine.execUpdData c s
  | .updEnd c => Sys2Proof.Machine.execUpdEnd c s
  | .updVerify c => Sys2Proof.Machine.execUpdVerify c s
  | .updActivate c => Sys2Proof.Machine.execUpdActivate c s
  | .updCancel c => Sys2Proof.Machine.execUpdCancel c s
  | .logRead c => Sys2Proof.Machine.execLogRead c s
  | .logConfig c => Sys2Proof.Machine.execLogConfig c s
  | .traceConfig c => Sys2Proof.Machine.execTraceConfig c s
  | .traceRead c => Sys2Proof.Machine.execTraceRead c s
  | .rcptBatch c => Sys2Proof.Machine.execRcptBatch c s
  | .svcNonce c => Sys2Proof.Machine.execSvcNonce c s
  | .lcAdvance c => Sys2Proof.Machine.execLcAdvance c s
  | .vkeyRevoke c => Sys2Proof.Machine.execVkeyRevoke c s
  | .svcQuarantine c => Sys2Proof.Machine.execSvcQuarantine c s
  | .wardenReset c => Sys2Proof.Machine.execWardenReset c s
  | .mgKeepalive body => Sys2Proof.Machine.execMgKeepalive body s
  | .mgCapSet body => Sys2Proof.Machine.execMgCapSet body s
  | .mgHold body => Sys2Proof.Machine.execMgHold body s
  | .mgDaddrSet body => Sys2Proof.Machine.execMgDaddrSet body s
  | .mgRakSet body => Sys2Proof.Machine.execMgRakSet body s
  | .mgCsr body => Sys2Proof.Machine.execMgCsr body s
  | .mgCertWrite body => Sys2Proof.Machine.execMgCertWrite body s
  | .mgSetkey body => Sys2Proof.Machine.execMgSetkey body s
  | .mgRequest body => Sys2Proof.Machine.execMgRequest body s
  | .mgProvision body => Sys2Proof.Machine.execMgProvision body s
  | .tileEnter t => Sys2Proof.Machine.execTileEnter t s
  | .progInstall t phandle => Sys2Proof.Machine.execProgInstall t phandle s
  | .jobEnqueue t job => Sys2Proof.Machine.execJobEnqueue t job s
  | .jobAbort t job reason => Sys2Proof.Machine.execJobAbort t job reason s
  | .selftest t pass => Sys2Proof.Machine.execSelftest t pass s
  | .tileStatus t => Sys2Proof.Machine.execTileStatus t s
  | .progCopy src target phandle good => Sys2Proof.Machine.execProgCopy src target phandle good s
  | .portEnter u => Sys2Proof.Machine.execPortEnter u s
  | .linkCfg u port bounds => Sys2Proof.Machine.execLinkCfg u port bounds s
  | .linkTrain u mask => Sys2Proof.Machine.execLinkTrain u mask s
  | .linkQuery u => Sys2Proof.Machine.execLinkQuery u s
  | .jobStart job => Sys2Proof.Machine.execJobStart job s
  | .residueCheckFail t job step => Sys2Proof.Machine.execResidueCheckFail t job step s
  | .residueAlarm t => Sys2Proof.Machine.execResidueAlarm t s
  | .eccUncorrectable t region line job handle => Sys2Proof.Machine.execEccUncorrectable t region line job handle s
  | .jobFinal job x => Sys2Proof.Machine.execJobFinal job x s
  | .completionRingRoom tag ctail => Sys2Proof.Machine.execCompletionRingRoom tag ctail s
  | .completionQuantGrid => Sys2Proof.Machine.execCompletionQuantGrid s
  | .tagFailure t addr onDie => Sys2Proof.Machine.execTagFailure t addr onDie s
  | .stackLineAccess t line write => Sys2Proof.Machine.execStackLineAccess t line write s
  | .stackTempThreshold t temp => Sys2Proof.Machine.execStackTempThreshold t temp s
  | .spillPageRead page job => Sys2Proof.Machine.execSpillPageRead page job s
  | .spillFetchDone page ok => Sys2Proof.Machine.execSpillFetchDone page ok s
  | .dmaDescriptorStart d stream job => Sys2Proof.Machine.execDmaDescriptorStart d stream job s
  | .inboundRecord d a ix x => Sys2Proof.Machine.execInboundRecord d a ix x s
  | .outboundRecord d a ix data => Sys2Proof.Machine.execOutboundRecord d a ix data s
  | .apertureQuiesceTimeout d a => Sys2Proof.Machine.execApertureQuiesceTimeout d a s
  | .apDescriptorWrite a off value => Sys2Proof.Machine.execApDescriptorWrite a off value s
  | .digestLaneResult dest chunk data => Sys2Proof.Machine.execDigestLaneResult dest chunk data s
  | .rcptBatchTimeout => Sys2Proof.Machine.execRcptBatchTimeout s
  | .invLaneDoorbell lane value => Sys2Proof.Machine.execInvLaneDoorbell lane value s
  | .invalidationComplete id => Sys2Proof.Machine.execInvalidationComplete id s
  | .tableReadDone walk entries => Sys2Proof.Machine.execTableReadDone walk entries s
  | .tableReadTimeout walk => Sys2Proof.Machine.execTableReadTimeout walk s
  | .walkBudgetExpiry walk => Sys2Proof.Machine.execWalkBudgetExpiry walk s
  | .faultBatchWindow => Sys2Proof.Machine.execFaultBatchWindow s
  | .faultRingTailWrite value => Sys2Proof.Machine.execFaultRingTailWrite value s
  | .migrationPageLanded tag page => Sys2Proof.Machine.execMigrationPageLanded tag page s
  | .migrationAbandon tag page => Sys2Proof.Machine.execMigrationAbandon tag page s
  | .pageRelease tag page => Sys2Proof.Machine.execPageRelease tag page s
  | .linkSignalDetect u p => Sys2Proof.Machine.execLinkSignalDetect u p s
  | .linkHelloComplete u p daddr ntag => Sys2Proof.Machine.execLinkHelloComplete u p daddr ntag s
  | .linkTrainingFail u p => Sys2Proof.Machine.execLinkTrainingFail u p s
  | .linkSignalLost u p => Sys2Proof.Machine.execLinkSignalLost u p s
  | .linkHoldExpiry u p => Sys2Proof.Machine.execLinkHoldExpiry u p s
  | .flitReceived u p flit => Sys2Proof.Machine.execFlitReceived u p flit s
  | .linkMessageSend x => Sys2Proof.Machine.execLinkMessageSend x s
  | .flitAckTimeout u p => Sys2Proof.Machine.execFlitAckTimeout u p s
  | .linkUncorrLimit u p => Sys2Proof.Machine.execLinkUncorrLimit u p s
  | .linkDegraded u p => Sys2Proof.Machine.execLinkDegraded u p s
  | .linkDegradedTimeout u p => Sys2Proof.Machine.execLinkDegradedTimeout u p s
  | .linkRetrainWrite u p => Sys2Proof.Machine.execLinkRetrainWrite u p s
  | .keyxPendingTimeout job => Sys2Proof.Machine.execKeyxPendingTimeout job s
  | .tjShutdownTrip t => Sys2Proof.Machine.execTjShutdownTrip t s
  | .vcoreCeilingTrip t => Sys2Proof.Machine.execVcoreCeilingTrip t s
  | .sensorMismatch t => Sys2Proof.Machine.execSensorMismatch t s
  | .throttleConversion t tenths => Sys2Proof.Machine.execThrottleConversion t tenths s
  | .throttleReleaseStep t => Sys2Proof.Machine.execThrottleReleaseStep t s
  | .avsLoopStep t target favs => Sys2Proof.Machine.execAvsLoopStep t target favs s
  | .droopEvent t => Sys2Proof.Machine.execDroopEvent t s
  | .brakeNAssert => Sys2Proof.Machine.execBrakeNAssert s
  | .brakeNDeassert => Sys2Proof.Machine.execBrakeNDeassert s
  | .brakeRampStep => Sys2Proof.Machine.execBrakeRampStep s
  | .powerCapLoop => Sys2Proof.Machine.execPowerCapLoop s
  | .thermalLoop => Sys2Proof.Machine.execThermalLoop s
  | .telemetryUpdate => Sys2Proof.Machine.execTelemetryUpdate s
  | .persistentLogFlush => Sys2Proof.Machine.execPersistentLogFlush s
  | .doeObject words => Sys2Proof.Machine.execDoeObject words s
  | .doeAbort => Sys2Proof.Machine.execDoeAbort s
  | .getVersion m => Sys2Proof.Machine.execGetVersion m s
  | .getCapabilities m => Sys2Proof.Machine.execGetCapabilities m s
  | .negotiateAlgorithms m => Sys2Proof.Machine.execNegotiateAlgorithms m s
  | .getDigests m => Sys2Proof.Machine.execGetDigests m s
  | .getCertificate m => Sys2Proof.Machine.execGetCertificate m s
  | .challenge m => Sys2Proof.Machine.execChallenge m s
  | .getMeasurements m => Sys2Proof.Machine.execGetMeasurements m s
  | .keyExchange m => Sys2Proof.Machine.execKeyExchange m s
  | .finish m => Sys2Proof.Machine.execFinish m s
  | .endSession m => Sys2Proof.Machine.execEndSession m s
  | .spdmUnsupportedRequest x => Sys2Proof.Machine.execSpdmUnsupportedRequest x s
  | .i3cAddressAssign da => Sys2Proof.Machine.execI3cAddressAssign da s
  | .mctpPacketRx pkt => Sys2Proof.Machine.execMctpPacketRx pkt s
  | .mctpReassemblyTimeout => Sys2Proof.Machine.execMctpReassemblyTimeout s
  | .wdMgTxgoWrite n => Sys2Proof.Machine.execWdMgTxgoWrite n s
  | .setEndpointId body => Sys2Proof.Machine.execSetEndpointId body s
  | .getEndpointId body => Sys2Proof.Machine.execGetEndpointId body s
  | .getEndpointUuid body => Sys2Proof.Machine.execGetEndpointUuid body s
  | .getMctpVersionSupport body => Sys2Proof.Machine.execGetMctpVersionSupport body s
  | .getMessageTypeSupport body => Sys2Proof.Machine.execGetMessageTypeSupport body s
  | .getVendorMessageSupport body => Sys2Proof.Machine.execGetVendorMessageSupport body s
  | .getTid body => Sys2Proof.Machine.execGetTid body s
  | .setTid body => Sys2Proof.Machine.execSetTid body s
  | .getPldmVersion body => Sys2Proof.Machine.execGetPldmVersion body s
  | .getPldmTypes body => Sys2Proof.Machine.execGetPldmTypes body s
  | .getPldmCommands body => Sys2Proof.Machine.execGetPldmCommands body s
  | .getPdrRepositoryInfo body => Sys2Proof.Machine.execGetPdrRepositoryInfo body s
  | .getPdr body => Sys2Proof.Machine.execGetPdr body s
  | .getSensorReading body => Sys2Proof.Machine.execGetSensorReading body s
  | .getStateSensorReadings body => Sys2Proof.Machine.execGetStateSensorReadings body s
  | .setNumericEffecterValue body => Sys2Proof.Machine.execSetNumericEffecterValue body s
  | .setStateEffecterStates body => Sys2Proof.Machine.execSetStateEffecterStates body s
  | .setEventReceiver body => Sys2Proof.Machine.execSetEventReceiver body s
  | .pollPlatformEventMessage body => Sys2Proof.Machine.execPollPlatformEventMessage body s
  | .platformEventResend => Sys2Proof.Machine.execPlatformEventResend s
  | .requestUpdate body => Sys2Proof.Machine.execRequestUpdate body s
  | .passComponentTable body => Sys2Proof.Machine.execPassComponentTable body s
  | .updateComponent body => Sys2Proof.Machine.execUpdateComponent body s
  | .firmwareDataResponse body => Sys2Proof.Machine.execFirmwareDataResponse body s
  | .activateFirmware body => Sys2Proof.Machine.execActivateFirmware body s
  | .cancelUpdateComponent body => Sys2Proof.Machine.execCancelUpdateComponent body s
  | .cancelUpdate body => Sys2Proof.Machine.execCancelUpdate body s
  | .getStatus body => Sys2Proof.Machine.execGetStatus body s
  | .orphanTimerExpiry => Sys2Proof.Machine.execOrphanTimerExpiry s
  | .bbcShelfEvent shelves => Sys2Proof.Machine.execBbcShelfEvent shelves s
  | .bbcHoldExpiry => Sys2Proof.Machine.execBbcHoldExpiry s
  | .rmBrakeRelease => Sys2Proof.Machine.execRmBrakeRelease s
  | .pumpLoss pumps => Sys2Proof.Machine.execPumpLoss pumps s
  | .rmFailover => Sys2Proof.Machine.execRmFailover s
  | .ksCmdComplete => Sys2Proof.Machine.execKsCmdComplete s
  | .msCmdComplete => Sys2Proof.Machine.execMsCmdComplete s
  | .spiFlashOpDone ok => Sys2Proof.Machine.execSpiFlashOpDone ok s
  | .standbyProgWindowExit => Sys2Proof.Machine.execStandbyProgWindowExit s
  | .wardenRstNDeassert => Sys2Proof.Machine.execWardenRstNDeassert s
  | .powerMonitorSample watts => Sys2Proof.Machine.execPowerMonitorSample watts s
  | .linkDegradedRecovery u p => Sys2Proof.Machine.execLinkDegradedRecovery u p s
  | .drbgHealthFailure => Sys2Proof.Machine.execDrbgHealthFailure s
  | .hbFrCtrlWrite value => Sys2Proof.Machine.execHbFrCtrlWrite value s
  | .pumpRestored pumps => Sys2Proof.Machine.execPumpRestored pumps s
  | .shelfRestored shelves => Sys2Proof.Machine.execShelfRestored shelves s

end Sys2Proof.Machine
end

