-- ==== Sys2Proof/Machine/Reads.lean ====
section
/-! DEFINITION. What a read answers: the warden core's loads (Table 3-2), the host's reads of BAR0 and BAR2 (Tables 9-5 to
9-11) and of configuration space (Tables 9-1, 9-2). The opcode table has no row for a read, so no command runs these; they
say what each register shows of the state (log entry 77). WO registers and reserved fields read zero (Table 0-3, R12). -/

namespace Sys2Proof.Machine

/-- Word `k` of a byte string. -/
def wordOf (b : Bytes) (k : Nat) : Nat := field b (4 * k) 4

/-- A mask of `n` flags, the first at bit 0. -/
def maskOf (n : Nat) (f : Nat → Bool) : Nat := (List.range n).foldl (fun m i => if f i then m + 2 ^ i else m) 0

/-- OTP controller (Tables 4-6, 4-8). -/
def otpRead (off : Nat) (s : State) : Nat :=
  let o := s.otp
  if 0x30 ≤ off && off < 0x40 then nth 0 o.svn ((off - 0x30) / 4)
  else match off with
  | 0x4 => o.addr
  | 0x8 => o.wdata
  | 0xC => o.rdata
  | 0x10 => b2n o.margin
  | 0x14 => b2n o.busy + 2 * b2n o.done + 4 * b2n o.err + 8 * b2n o.weak + 2 ^ 8 * o.ecode + 2 ^ 12 * o.pulses
  | 0x18 => o.pulse
  | 0x20 => o.lc + 16 * o.partials
  | 0x24 => o.root + 16 * b2n o.disabled
  | 0x28 => (List.range 7).foldl (fun n i => n + 4 ^ i * nth 0 o.grp i) 0
  | 0x40 => o.revoke
  | 0x44 => o.asm
  | 0x48 => limitsReg o.tjt o.tjs o.vcm
  | 0x4C => o.repairs + 2 ^ 16 * o.stillMarg
  | 0x50 => o.tmrdis
  | _ => 0

/-- Digest engine (Tables 5-6, 5-7): READY while a message is open, BUSY while a block is in the engine (R116). -/
def dgRead (off : Nat) (s : State) : Nat :=
  let d := s.dg
  let ready := d.phase != .idle
  let busy := d.phase == .keyBlock || d.phase == .absorbing || d.phase == .outer
  if 0x40 ≤ off && off < 0x80 then (if d.dest then 0 else wordOf d.result ((off - 0x40) / 4))
  else match off with
  | 0x0 => d.mode + 16 * b2n d.dest + 32 * b2n d.dual + 2 ^ 6 * d.outlen + 2 ^ 13 * d.keyslot + 2 ^ 19 * d.keyslot2 + 2 ^ 25 * d.dstslot
  | 0x4 => d.doff + 4 * d.dlen1 + 16 * b2n d.commit + 32 * b2n d.lock + 2 ^ 16 * d.use
  | 0x10 => b2n busy + 2 * b2n ready + 4 * b2n d.done + 8 * b2n d.err + 2 ^ 8 * d.ecode + 2 ^ 16 * (d.buf.length / 4)
  | 0x14 => d.blocks
  | _ => 0

/-- Measurement bank (Table 7-8). -/
def msRead (off : Nat) (s : State) : Nat :=
  let m := s.ms
  if 0x100 ≤ off && off < 0x180 then (nth {} m.slots ((off - 0x100) / 4)).count
  else if 0x200 ≤ off && off < 0xA00 then wordOf (nth {} m.slots ((off - 0x200) / 64)).val ((off - 0x200) % 64 / 4)
  else match off with
  | 0x4 => b2n m.job.isSome + 2 * b2n m.done + 4 * b2n m.err + 2 ^ 8 * m.ecode
  | 0x8 => maskOf 32 (fun i => (nth {} m.slots i).locked)
  | 0xC => m.tgen
  | _ => 0

/-- PKE (Tables 6-2, 6-4). -/
def pkRead (off : Nat) (s : State) : Nat :=
  let k := s.pk
  let opnd (i : Nat) : PkOpnd := nth {} k.opnds i
  if 0x20 ≤ off && off < 0x30 then
    let x := opnd ((off - 0x20) / 4)
    x.slot + 2 ^ 11 * b2n x.wipe + 2 ^ 31 * b2n x.stream
  else if 0x30 ≤ off && off < 0x40 then (opnd ((off - 0x30) / 4)).saddr
  else match off with
  | 0x0 => k.len + 2 ^ 8 * (4096 / k.len)
  | 0x8 => b2n k.busy + 2 * b2n k.done + 4 * b2n k.err + 8 * b2n k.ovr + 16 * b2n k.snap + 32 * b2n k.wiping + 64 * b2n k.valid
      + 128 * b2n k.alarm + 256 * b2n k.kscut + 512 * b2n k.wipefail + 2 ^ 12 * k.ecode + 2 ^ 16 * k.iter
  | 0xC => k.op + 2 ^ 8 * k.kslot + 2 ^ 14 * b2n k.ksin + 2 ^ 15 * b2n k.ord + 2 ^ 16 * k.dslot + 2 ^ 22 * b2n k.ksout
  | 0x10 => k.dstUse + 2 ^ 16 * b2n k.dstLock
  | 0x14 => k.nw + 2 ^ 8 * k.ebits
  | 0x40 => k.res0
  | 0x44 => k.res1
  | 0x50 => k.eaddr
  | 0x54 => k.cycles
  | 0x58 => k.jobs
  | _ => 0

/-- LEN code of Table 5-8: 0 for 16 bytes to 3 for 64. -/
def lenCode (n : Nat) : Nat := n / 16 - 1

/-- Key store control (Table 5-8): no slot content; the input buffer reads zero. -/
def ksRead (off : Nat) (s : State) : Nat :=
  let k := s.ks
  if 0x100 ≤ off && off < 0x300 then
    let x := slotS s ((off - 0x100) / 8)
    if off % 8 = 4 then x.kcv
    else x.use + 2 ^ 16 * x.origin + 2 ^ 19 * b2n x.lock + 2 ^ 20 * lenCode x.len + 2 ^ 22 * b2n x.pending + 2 ^ 23 * b2n x.dead
  else match off with
  | 0x4 => k.argUse + 2 ^ 16 * b2n k.argLock + 2 ^ 17 * k.argLen
  | 0x8 => b2n k.busy + 2 * b2n k.done + 4 * b2n k.err + 8 * b2n k.kcverr + 16 * b2n k.patfb + 2 ^ 8 * k.ecode + 2 ^ 12 * k.kcvslot
  | 0xC => k.kcvper
  | 0x10 => b2n k.tlock
  | 0x18 => k.tenant % 2 ^ 32
  | 0x1C => k.tenant / 2 ^ 32
  | 0x20 => occMask s % 2 ^ 32
  | 0x24 => occMask s / 2 ^ 32
  | _ => 0

/-- Sequencer control (Tables 3-8, 3-9); SQ_FLAGS as Table 3-7. -/
def sqRead (off : Nat) (s : State) : Nat :=
  let q := s.sq
  if 0x20 ≤ off && off < 0x40 then nth 0 q.args ((off - 0x20) / 8) / 2 ^ (32 * ((off - 0x20) / 4 % 2)) % 2 ^ 32
  else match off with
  | 0x0 => q.entry
  | 0x8 => q.status
  | 0xC => maskOf 32 (sqFlag s)
  | 0x10 => q.tmo
  | 0x14 => q.bound + 2 ^ 31 * b2n q.lock
  | 0x18 => q.irqcode
  | 0x1C => q.steps
  | _ => 0

/-- Host channel registers (Table 10-5). -/
def hmbRead (c off : Nat) (s : State) : Nat :=
  let x := chanS s c
  match off with
  | 0x0 => b2n x.pend + 2 * b2n x.busy + 4 * b2n x.rspValid + 2 ^ 8 * x.gen + 2 ^ 16 * x.dbLen
  | 0x8 => x.addr
  | 0xC => x.len
  | 0x10 => b2n x.move.isSome + 2 * b2n x.mvDone + 4 * b2n x.mvErr
  | 0x14 => b2n x.dbIrqEn
  | _ => 0

/-- Internal mailbox of a unit (Table 3-10); STACK and BLANK units read zero. -/
def imbRead (u off : Nat) (s : State) : Nat :=
  let x := unitS s u
  if unitType s u != .tile && unitType s u != .port then 0
  else if 0x80 ≤ off && off < 0x400 then wordOf x.rspBuf ((off - 0x80) / 4)
  else match off with
  | 0x0 => b2n x.rspValid + 2 * b2n (unitUp s u) + 4 * b2n x.clkStop + 2 ^ 8 * x.gen.toNat + 2 ^ 16 * x.rspLen
  | 0x4 => b2n x.irqEn + 2 * b2n x.hbIrqEn
  | 0x8 => x.hbAge
  | 0xC => x.hbLim
  | 0x10 => x.hbCnt
  | _ => 0

/-- A word of a ring entry of 128 bytes: length, two reserved bytes, the packet (Table 23-2). -/
def ringWord (ring : List Bytes) (off : Nat) : Nat :=
  let p := nth [] ring (off / 128)
  wordOf (toLe 2 p.length ++ toLe 2 0 ++ p) (off % 128 / 4)

/-- Management target (Table 23-2). -/
def mgRead (off : Nat) (s : State) : Nat :=
  let g := s.mg
  if 0x400 ≤ off && off < 0x1C00 then ringWord g.rx (off - 0x400)
  else if 0x1C00 ≤ off && off < 0x3400 then ringWord g.tx (off - 0x1C00)
  else match off with
  | 0x0 => b2n g.rxv + 2 * b2n g.txBusy + 4 * b2n (decide (g.da ≠ 0)) + 2 ^ 8 * g.da + 2 ^ 16 * (g.rx.length % 64)
  | 0x4 => b2n g.irqEn + 2 * b2n g.ibiEn
  | 0x10 => b2n g.hold
  | 0x14 => g.rackid
  | _ => 0

/-- Mailbox hardware. -/
def mbRead (off : Nat) (s : State) : Nat :=
  if off < 0x8000 then hmbRead (off / 0x1000) (off % 0x1000) s
  else if off < 0xC800 then imbRead ((off - 0x8000) / 0x400) ((off - 0x8000) % 0x400) s
  else mgRead (off - 0xC800) s

/-- The per-tile words of the safety monitor (Table 21-3). -/
def smTileRead (t k : Nat) (s : State) : Nat :=
  let x := tileP s t
  match k with
  | 0 => x.tj / 10 + 2 ^ 8 * (x.pairDiff / 10) + 2 ^ 16 * tileClk s t + 2 ^ 28 * b2n x.throt + 2 ^ 29 * b2n (brakeOn s) + 2 ^ 30 * b2n (unitS s t).clkStop
  | 1 => x.vcore + 2 ^ 16 * x.setpoint
  | 2 => x.freq
  | _ => min x.droops 65535 + 2 ^ 16 * min x.residue 65535

/-- Safety monitor (Table 21-3). -/
def smRead (off : Nat) (s : State) : Nat :=
  let p := s.pw
  if 0x100 ≤ off && off < 0x180 then smTileRead ((off - 0x100) / 16) (off % 16 / 4) s
  else match off with
  | 0x0 => p.alarm
  | 0x4 => p.notice
  | 0x8 => p.nen
  | 0x10 => limitsReg s.otp.tjt s.otp.tjs s.otp.vcm
  | 0x14 => limitsReg p.tjt p.tjs p.vcm
  | 0x18 => p.stby + 2 ^ 16 * b2n (decide (11400 ≤ p.stby) && decide (p.stby ≤ 12600))
  | 0x1C => p.sramce
  | 0x20 => p.pwr + 2 ^ 16 * p.mean
  | 0x24 => b2n (!p.brakeN) + 2 * b2n (brakeOn s) + 2 ^ 16 * p.brakeCount
  | 0x28 => p.wtj % 256
  | _ => 0

/-- Timers, watchdog and reset (Tables 3-11, 3-12). -/
def tmRead (off : Nat) (s : State) : Nat :=
  let w := s.wd
  match off with
  | 0x0 => w.time % 2 ^ 32
  | 0x4 => w.timeHi
  | 0x10 => w.cmp % 2 ^ 32
  | 0x14 => w.cmp / 2 ^ 32
  | 0x20 => b2n w.wdtEn + 2 * b2n w.wdtLock + 4 * b2n w.wdtS1 + 2 ^ 8 * w.badKick
  | 0x24 => w.wdtLoad
  | 0x2C => w.wdtCount
  | 0x30 => b2n w.por + 2 * b2n w.ext + 4 * b2n w.wdt + 8 * b2n w.lockstep + 16 * b2n w.swrst + 2 ^ 8 * b2n w.keys
      + 2 ^ 12 * w.rstState + 2 ^ 16 * w.swcode
  | 0x40 => w.fwto
  | _ => 0

/-- What a core load of a register answers, by block (Table 3-2); none where the spec does not give the block's registers. -/
def blockRead (blk off : Nat) (s : State) : Option Nat :=
  if blk = 0x2000 then some (otpRead off s)
  else if blk = 0x2001 then some (if off < 0x8000 then dgRead off s else msRead (off - 0x8000) s)
  else if blk = 0x2002 then some (pkRead off s)
  else if blk = 0x2005 then some (ksRead off s)
  else if blk = 0x2006 then some (sqRead off s)
  else if blk = 0x2007 then some (mbRead off s)
  else if blk = 0x2008 then some (smRead off s)
  else if blk = 0x2009 then some (tmRead off s)
  else none

/-- A load ends well with data `v`. -/
def readOk (v : Nat) (s : State) : State := { s with wd := { s.wd with last := .ok v } }

/-- A load of an SRAM word: a single-bit error in it is corrected, counted and written back (R64). -/
def sramRead (off : Nat) (s : State) : State := readOk (le (cellGets 0#8 off 4 s.wd.sram)) (sramScrub (0x10000000 + off) 4 s)

/-- A load of PKE slot memory (R136): KEEP with BUSY 0; a bus error while BUSY; the WIPE bank reads zero. -/
def pkMemRead (off : Nat) (s : State) : State :=
  if 0x8000 ≤ off then readOk 0 s
  else if s.pk.busy then wdBusError s
  else readOk (le (cellGets 0#8 off 4 s.pk.keep)) s

/-- A load of the warden core (R64): a bus error outside every range. A ROM word is a free value, but for the row of the TEST
root, which is not on the core bus and whose address, which the spec does not give, is not told from the others. A read of
WD_TIME_LO latches the high word (Table 3-11). A load of SRAM or of slot memory that is being zeroed stalls (R67, R145) and
changes nothing here. A block whose registers the spec does not give answers a free value. -/
def coreRead (a : Nat) (answered : Bool) (s : State) : State :=
  if a % 4 ≠ 0 then wdBusError s
  else if a < 0x20000 then readOk (Config.freeNat s.draws % 2 ^ 32) { s with draws := s.draws + 1 }
  else if 0x10000000 ≤ a && a < 0x10100000 then (if s.wd.sramReady then sramRead (a - 0x10000000) s else s)
  else if 0x21000000 ≤ a && a < 0x21010000 then (if s.pk.zeroing then s else pkMemRead (a - 0x21000000) s)
  else if 0x22000000 ≤ a && a < 0x22008000 then
    readOk ((stepAt s ((a - 0x22000000) / 8)).toNat / 2 ^ (32 * ((a - 0x22000000) / 4 % 2)) % 2 ^ 32) s
  else if 0x30000000 ≤ a && a < 0x40000000 then fabricAccess ((a - 0x30000000) / 2 ^ 24) (a % 2 ^ 24) false 0 answered s
  else if 0x41000000 ≤ a && a < 0x50000000 then readOk (le (cellGets 0xFF#8 (a - 0x41000000) 4 s.fl.mem)) s
  else if undescribed a || (decide (0x40010000 ≤ a) && decide (a < 0x41000000)) then
    readOk (Config.freeNat s.draws % 2 ^ 32) { s with draws := s.draws + 1 }
  else match blockRead (a / 65536) (a % 65536) s with
    | some v =>
      let s := if a = 0x20090000 then { s with wd := { s.wd with timeHi := s.wd.time / 2 ^ 32 } } else s
      readOk v s
    | none => wdBusError s

/-- Identity and feature page of function `d` (Table 9-6); HB_MREQ of R523 on the primary function. -/
def idPage (d o : Nat) (s : State) : Nat :=
  match o with
  | 0x00 => 0x1D7B + 2 ^ 16 * deviceId s
  | 0x04 => 0x0101
  | 0x08 => s.boot.wardenVersion
  | 0x0C => b2n (decide (d = 0)) + 2 ^ 8 * unitOfOrd s d
  | 0x10 => stateWord s
  | 0x14 => s.otp.asm + 16 * s.otp.lc
  | 0x18 => Config.kMbxChannels + 16 * (portUnits s).length + 2 ^ 8 * (stackTiles s).length + 2 ^ 12 * (Config.kMsix - 1)
  | 0x1C => s.wd.hbTick
  | 0x40 => if d = 0 then s.mg.mreq else 0
  | _ =>
    if 0x20 ≤ o && o < 0x30 then s.hb.offer / 2 ^ (8 * (o - 0x20)) % 2 ^ 32
    else if 0x30 ≤ o && o < 0x40 then s.hb.accept / 2 ^ (8 * (o - 0x30)) % 2 ^ 32
    else 0

/-- Interrupt block, MSI-X table and PBA of a function (Table 9-7). The mask bit of a vector is bit 0 of its entry's last
word, 1 after reset as PCIe says; the other words of the table are 0 until written (log entry 6). -/
def irqRead (d o : Nat) (s : State) : Nat :=
  let f := fnS s d
  if 0x1000 ≤ o && o < 0x1400 then
    let v := (lookupNat ((o - 0x1000) / 4) f.table).getD 0
    if o % 16 = 12 then v / 2 * 2 + b2n (bit f.mask ((o - 0x1000) / 16)) else v
  else match o with
  | 0x0 => f.cause
  | 0x4 => f.irqEn
  | 0x8 => b2n s.pw.quant + 2 ^ 8 * (if s.pw.quant then Config.kCompletionQMs else 0)
  | 0x2000 => f.pba % 2 ^ 32
  | 0x2004 => f.pba / 2 ^ 32
  | _ => 0

/-- Registers of a mailbox channel as the host sees them (Table 9-9). -/
def mbxRead (c o : Nat) (s : State) : Nat :=
  let x := chanS s c
  match o with
  | 0x0 => b2n x.cmdFree + 2 * b2n x.rspValid + 4 * b2n x.busy + 2 ^ 8 * x.gen
  | 0x4 => x.rspLen
  | 0x8 => b2n x.irqEn
  | 0xC => x.lastTag
  | _ => 0

/-- Doorbell page (Table 9-10): the doorbells are WO; each lane shows its two counts. -/
def laneRead (o : Nat) (s : State) : Nat :=
  let n := (o - 0x110000) / 0x1000
  if o < 0x110000 || 64 ≤ n then 0
  else match o % 0x1000 with
  | 0x8 => nth 0 s.xl.invReq n
  | 0xC => nth 0 s.xl.invDone n
  | _ => 0

/-- Fault-ring registers (Table 9-10). -/
def frRead (o : Nat) (s : State) : Nat :=
  let h := s.hb
  match o with
  | 0x0 => b2n h.frEn + 2 * b2n h.frSealed + 4 * h.frIdx
  | 0x8 => h.frBase % 2 ^ 32
  | 0xC => h.frBase / 2 ^ 32
  | 0x10 => h.frSize
  | 0x14 => h.frHead
  | 0x18 => h.frTail
  | 0x1C => b2n h.frOvf + 2 ^ 16 * (h.frDone % 2 ^ 16)
  | _ => 0

/-- Aperture control and descriptors of P0 (Tables 9-10, 12-4). -/
def apRead (o : Nat) (s : State) : Nat :=
  if o = 0 then b2n s.hb.apEn
  else if o = 4 then s.hb.apDropped
  else if 0x1000 ≤ o && o < 0x2000 then apDescRead ((o - 0x1000) / 64) (o % 64) s
  else 0

/-- A naturally aligned word of BAR0 of function `d`, outside the mailbox buffers (R203, R210): a secondary function's
mailbox, doorbell, fault-ring and aperture blocks read zero. -/
def bar0Word (d o : Nat) (s : State) : Nat :=
  if o < 0x1000 then idPage d o s
  else if o < 0x10000 then irqRead d (o - 0x1000) s
  else if d ≠ 0 then 0
  else if o < 0x30000 then mbxRead ((o - 0x10000) / 0x4000) (o % 0x4000) s
  else if 0x100000 ≤ o && o < 0x200000 then laneRead o s
  else if 0x200000 ≤ o && o < 0x201000 then frRead (o - 0x200000) s
  else if 0x300000 ≤ o && o < 0x302000 then apRead (o - 0x300000) s
  else 0

/-- A word of the telemetry page (Table 9-11); the performance counter area reads zero in CONFIDENTIAL. -/
def bar2Word (o : Nat) (s : State) : Nat :=
  let t := s.hb.tele
  if 0x20 ≤ o && o < 0x40 then nth 0 t.tj ((o - 0x20) / 4)
  else if 0x40 ≤ o && o < 0x60 then nth 0 t.stk ((o - 0x40) / 4)
  else if 0x1000 ≤ o && o < 0x2000 then
    (if coarse s then 0 else (lookupNat ((o - 0x1000) / 8) s.pw.perf).getD 0 / 2 ^ (32 * (o / 4 % 2)) % 2 ^ 32)
  else match o with
  | 0x0 => t.seq
  | 0x4 => b2n t.coarse + 2 * b2n t.perfHidden + 4 * b2n t.valid
  | 0x8 => t.period
  | 0x10 => t.pwr
  | 0x14 => t.pcap
  | 0x18 => t.tjmax
  | 0x1C => t.throt + 2 ^ 8 * b2n t.brake
  | 0x60 => limitsReg s.otp.tjt s.otp.tjs s.otp.vcm
  | _ => 0

/-- A host read of `n` bytes at offset `o` of BAR0 or BAR2 of function `d` (R202, R203): its bytes; none, Unsupported Request.
Registers are read with 32 or 64 bits naturally aligned; the mailbox buffers with any length up to 256 bytes inside the
buffer. The command buffer reads as long as CMD_FREE is 1, and as zero otherwise (DESIGN CHOICE, log entry 77). -/
def hostRead (d : Nat) (bar2 : Bool) (o n : Nat) (s : State) : Option Bytes :=
  if !barOn s d || (if bar2 then 0x10000 else 0x1000000) < o + n then none
  else match if bar2 || d ≠ 0 then none else mbxBuffer o with
  | some (c, rsp, k) =>
    if 256 < n || 4096 < k + n then none
    else if rsp then some (slice (chanS s c).rspBuf k n)
    else some (if (chanS s c).cmdFree then cellGets 0#8 k n (chanS s c).cmdBuf else List.replicate n 0#8)
  | none =>
    if (n = 4 || n = 8) && o % n = 0 then
      some ((List.range (n / 4)).flatMap (fun k => toLe 4 (if bar2 then bar2Word (o + 4 * k) s else bar0Word d (o + 4 * k) s)))
    else none

/-- The identity fields of configuration space (Table 9-1). -/
inductive CfgField where
  | vendor | device | revision | classCode | subVendor | subsystem | serial | bar0Size | bar2Size | bar4Size | romSize
deriving DecidableEq, Repr

/-- What function `d` presents (R32, R198): every function the same. The serial number is MFG_ID, zero if CONFIG failed. -/
def cfgRead (f : CfgField) (s : State) : Nat :=
  match f with
  | .vendor => 0x1D7B
  | .device => deviceId s
  | .revision => 0x01
  | .classCode => 0x120000
  | .subVendor => 0x1D7B
  | .subsystem => 0x0004
  | .serial => if nth 0 s.otp.grp 4 = 2 then 0 else le (mfgId s)
  | .bar0Size => 16 * 2 ^ 20
  | .bar2Size => 64 * 2 ^ 10
  | .bar4Size => 0
  | .romSize => 0

/-- PCIe features (Table 9-2). -/
inductive PcieFeature where
  | flit | tags10 | tags14 | relaxedOrdering | idOrdering | d0 | d3hot | noSoftReset | flr | perst | aer | ecrc | msix
  | phy16 | phy32 | phy64 | laneMargining | doe
  | ide | tdisp | ats | pri | pasid | sriov | resizableBar | msi | intx | aspm | l0p | ltr | obff | ptm | atomics | cxl
deriving DecidableEq, Repr

/-- Whether function `d` supports a feature (R199): DOE on the primary function alone. -/
def pcieHas (d : Nat) (f : PcieFeature) : Bool :=
  match f with
  | .doe => decide (d = 0)
  | .ide | .tdisp | .ats | .pri | .pasid | .sriov | .resizableBar | .msi | .intx | .aspm | .l0p | .ltr | .obff | .ptm
  | .atomics | .cxl => false
  | _ => true

/-- WAKE_N[d] is low (Table 25-3): function `d` is in D3hot with an enabled cause bit set. -/
def wakeLow (s : State) (d : Nat) : Bool :=
  s.pkg.st != .cold && fnExists s d && (fnS s d).d3 && decide ((fnS s d).cause &&& (fnS s d).irqEn ≠ 0)

/-- THERMTRIP_N and FAULT_N are low (R486); in COLD every open-drain output floats (R561). -/
def thermtripPin (s : State) : Bool := s.pkg.st != .cold && s.pw.thermtripLow
/-- FAULT_N is low. -/
def faultPin (s : State) : Bool := s.pkg.st != .cold && faultNLow s

/-- A power input in mV stays good by its rising and falling thresholds (R555, Table 25-2): main 39.0 and 38.0 V, off above
63.0 V; standby 10.8 and 10.5 V, off above 13.8 V. -/
def inputGood (main was : Bool) (mv : Nat) : Bool :=
  if main then decide ((if was then 38000 else 39000) ≤ mv) && decide (mv ≤ 63000)
  else decide ((if was then 10500 else 10800) ≤ mv) && decide (mv ≤ 13800)

/-- Hold-up after the main input crosses its falling threshold, in tenths of a microsecond, at a power in W (R566):
2,200 uF from 38.0 V to 30.0 V. -/
def holdUp (p : Nat) : Nat := 2200 * (38 * 38 - 30 * 30) * 10 / (2 * p)

/-- The bound of R565 on the hottest tile, in thousandths of a degree: inlet temperature, case-to-coolant resistance in
thousandths of K/W (18 at 2.0 L/min, 24 at 1.4 L/min), power. -/
def tjBound (tin theta p : Nat) : Nat := 1000 * tin + theta * p + 3000

/-- A Linya port's position on J2 (Table 25-4): ordinal-major. -/
def j2Port (d p : Nat) : Nat := 12 * d + p

/-- Max Payload Size, bytes (Table 9-2). -/
def maxPayload : Nat := 512
/-- The largest Max Read Request Size, bytes (Table 9-2). -/
def maxReadReq : Nat := 4096

end Sys2Proof.Machine
end

