-- ==== Sys2Proof/Machine/Tick.lean ====
section
/-! DEFINITION. The clock of an idle block: what a microsecond with no command changes (log entry 10). The events that
the counts lead to (watchdog stages, heartbeat limits, compare) are commands of their own. -/

namespace Sys2Proof.Machine

/-- A unit whose heartbeat count runs: up, and its clock not stopped (R73). -/
def hbRuns (s : State) (u : Nat) : Bool := unitUp s u && !(unitS s u).clkStop && !bit s.wd.stopReq u

/-- One unit after 1 us: HBAGE counts up (R73); a clock stop that was requested is confirmed (R78, R484), and the
warden's record of the tile is STOPPED (R499). -/
def tickUnit (s : State) (u : Nat) : UnitS :=
  let x := unitS s u
  let x : UnitS := if bit s.wd.stopReq u && railGood s u then
      { x with clkStop := true, hbAge := 0, ustate := if x.ustate == .up then .stopped else x.ustate }
    else x
  if hbRuns s u then { x with hbAge := min (x.hbAge + 1) 0xFFFFFFFF } else x

/-- The counters of 1 us: WD_TIME at 100 MHz (Table 3-11), the watchdog (R74), the units. -/
def tickCounts (s : State) : State :=
  let s := if (List.range 8).any (fun u => bit s.wd.stopReq u && railGood s u && (unitS s u).ustate == .up) then bindsMove s else s
  { s with
    wd := { s.wd with
      stopReq := 0,
      time := (s.wd.time + 100) % 2 ^ 64,
      wdtCount := if s.wd.wdtEn then s.wd.wdtCount - 1 else s.wd.wdtCount },
    units := (List.range s.units.length).map (tickUnit s) }

/-- The performance counters that count microseconds (Table 21-4): throttled, summed over tiles, and braked. -/
def tickPerf (s : State) : State :=
  perfAdd 0 11 (b2n (brakeOn s)) (perfAdd 0 10 ((List.range 8).foldl (fun n t => n + b2n (tileP s t).throt) 0) s)

/-- t_unit of R269 in counts of WD_TIME: 1 ms. -/
def unitLimit : Nat := 100000

/-- A command has waited on a unit longer than t_unit (R269). -/
def waitOver (s : State) (w : UnitWait) : Bool := decide (w.u < 18) && decide (unitLimit < s.wd.time - w.since)

/-- The host commands whose wait is over are answered, and firmware goes on to the unit's next command. -/
def tickWaits (s : State) : State :=
  (s.uw.filter (waitOver s)).foldl (fun s w => unitPump w.u (modUnit w.u (fun x => { x with cmdOut := none }) (unitWaitEnd w s))) { s with uw := s.uw.filter (fun w => !waitOver s w) }

/-- The DRBG's reseed request (R63 source 8). -/
def tickDrbg (s : State) : State := if Config.drbgReseed s.wd.time then irq 8 s else s

/-- Clock stops that nothing explains (R504): still in force 50 us after they were found, they are a CLKFAIL. -/
def tickStops (s : State) : State :=
  let l := s.lg.stops.filter (fun p => (unitS s p.1).clkStop)
  if l.any (fun p => decide (p.2 + 5000 ≤ s.wd.time)) then clkFail { s with lg := { s.lg with stops := [] } }
  else { s with lg := { s.lg with stops := l } }

/-- 1 us with no command: the counters, the waits that are over, packets of the management path and its next request (R518). -/
def tick (s : State) : State :=
  let s := tickStops (tickDrbg (tickWaits (tickPerf (tickCounts s))))
  let s := { s with mg := { s.mg with txBusy := false } }
  if s.wd.fw == .nothing then s else mgPump 5 (mgDrain s)

end Sys2Proof.Machine
end

