-- ==== Sys2Proof/Safety.lean ====
section
/-! DEFINITION. What the statements are written with: a command that completes, what a warden reset leaves, the point a
step table stands at, the response a command ends with, and `Inv`, the invariant every step keeps. -/

namespace Sys2Proof
open Machine

/-- Command `c` completes from `s` in a next state of which `p` holds. -/
def Runs (c : Instr) (s : State) (p : State → Prop) : Prop := ∃ t, exec c s = .next t ∧ p t

/-- What a warden reset leaves (R65, R66): rails, units, keys, engines, sequencer and every volatile table as at reset;
flash, OTP cells, always-on state, host-side tables in flash and the queue as they were, and source 2 raised where a table
ran (R76). -/
def WardenReset (s t : State) : Prop :=
  t = { s with pkg := t.pkg, wd := t.wd, units := List.replicate 18 {}, sq := { ram := s.sq.ram }, otp := { rows := t.otp.rows }, dg := {},
               ks := {}, pk := {}, ms := {}, boot := {}, upd := {}, pw := t.pw, lg := { sectors := s.lg.sectors, wseq := s.lg.wseq },
               mg := { hold := s.mg.hold, rackid := s.mg.rackid, eid := 0x10 + s.mg.rackid },
               hb := { fns := s.hb.fns.map (fun f => { perstN := f.perstN }) }, mb := {}, px := List.replicate 4 {}, sp := {}, sd := {},
               idn := { certs := s.idn.certs }, tn := { fl := s.tn.fl, ring := s.tn.ring, ringN := s.tn.ringN, gens := s.tn.gens }, wk := {}, rc := {}, jb := {}, xl := {},
               ln := { flRec := s.ln.flRec }, pq := {}, fq := {}, uw := [],
               outs := if s.sq.busy then .wirq 2 :: s.outs else s.outs, draws := t.draws }
  ∧ (s.otp.job = none → t.otp.rows = s.otp.rows ∧ t.draws = s.draws)
  ∧ t.pkg.st = .rom ∧ t.pkg.mode = .none ∧ t.pkg.portEn = false ∧ t.pkg.tileEn = false ∧ t.pkg.memEn = false ∧ t.pkg.mainOk = s.pkg.mainOk
  ∧ t.wd.coreRun = false ∧ t.wd.sramReady = false

/-- The sequencer is at a legal step of opcode `op` that is not the last of step RAM, no ABORT waits, and no fabric access
is in flight. -/
def SqAt (op : Nat) (s : State) : Prop :=
  sqReady op s = true ∧ s.sq.abortReq = false ∧ s.sq.nextIx + 1 < Config.kSteps ∧ s.wd.access = none

/-- No table runs or waits to run, and no fabric access is in flight. -/
def SqFree (s : State) : Prop := s.sq.busy = false ∧ s.sq.purpose = .user ∧ s.sq.queue = [] ∧ s.wd.access = none

/-- The step the sequencer is at. -/
def sqStep (s : State) : Step64 := stepAt s s.sq.nextIx

/-- The sequencer past the step it is at: PC, the next index and the count of steps (R76). -/
def sqPast (s : State) : State := { s with sq := { s.sq with pc := s.sq.nextIx, nextIx := s.sq.nextIx + 1, steps := s.sq.steps + 1 } }

/-- A user table that ends in `f` of its registers: BUSY falls, source 2 is raised (R76). -/
def sqEnded (f : Seqr → Seqr) (s : State) : State :=
  let t := { s with sq := f { s.sq with busy := false, wait := .none, abortReq := false } }
  irq 2 (trace 8 0xFF t.sq.status t.sq.steps t)

/-- An OTP programming command under way: BUSY, its flags clear, its targets to pulse (R93, R104). -/
def otRuns (cmd sel : Nat) (ts : List (Nat × Nat)) (s : State) : State :=
  { s with otp := { s.otp with done := false, err := false, weak := false, ecode := 0, pulses := 0, busy := true, job := some ⟨cmd, sel, ts⟩ } }

/-- A key store command under way that will end with `e` (R129). -/
def ksRuns (cmd slot e : Nat) (s : State) : State := { s with ks := { s.ks with busy := true, job := some ⟨cmd, slot, e⟩ } }

/-- Slot `i` holds `x`; every other slot and all else as in `s`. -/
def slotIs (i : Nat) (x : Slot) (s : State) : State := { s with ks := { s.ks with slots := s.ks.slots.set i x } }

/-- A slot as a commit leaves it: key, use, origin, lock, and the KCV of R126. -/
def committed (key : Bytes) (origin use : Nat) (lock : Bool) : Slot :=
  let x : Slot := { content := key, use := use, origin := origin, lock := lock, len := key.length }
  { x with kcv := slotKcv x }

/-- The command has passed checks 6 to 9 of Table 10-4 and there is room for its PKE entries (R152, R254, R255). -/
def Admitted (op : Nat) (c : HostCall) (s : State) : Prop :=
  admission op c.sealed c.payload s = none ∧ pqRoom (pkeNeed op c.payload s) s = true

/-- Opcode and frame of a mailbox command row (Tables 11-4 to 11-14). -/
def hostOp : Instr → Option (Nat × HostCall)
  | .featureOffer c => some (0x000, c)
  | .featureAccept c => some (0x001, c)
  | .modeSet c => some (0x002, c)
  | .channelReset c => some (0x003, c)
  | .resultRead c => some (0x004, c)
  | .resultRelease c => some (0x005, c)
  | .stagePut c => some (0x006, c)
  | .stageClear c => some (0x007, c)
  | .attReport c => some (0x100, c)
  | .attCerts c => some (0x101, c)
  | .attMeasLog c => some (0x102, c)
  | .attEphemeral c => some (0x103, c)
  | .tenantEnroll c => some (0x200, c)
  | .tenantStage c => some (0x201, c)
  | .tenantLoad c => some (0x202, c)
  | .tenantEvict c => some (0x203, c)
  | .tenantRevoke c => some (0x204, c)
  | .tenantStatus c => some (0x205, c)
  | .tenantList c => some (0x206, c)
  | .tenantClearReceipt c => some (0x207, c)
  | .wpkOpen c => some (0x300, c)
  | .keyRelease c => some (0x301, c)
  | .keyReleaseSet c => some (0x302, c)
  | .wpkLoad c => some (0x303, c)
  | .wpkFinish c => some (0x304, c)
  | .wpkStatus c => some (0x305, c)
  | .wpkClose c => some (0x306, c)
  | .progLoad c => some (0x400, c)
  | .jobSubmit c => some (0x401, c)
  | .jobCancel c => some (0x402, c)
  | .jobStatus c => some (0x403, c)
  | .rcptFlush c => some (0x404, c)
  | .astCreate c => some (0x500, c)
  | .astDestroy c => some (0x501, c)
  | .astInvalidate c => some (0x502, c)
  | .prefetch c => some (0x503, c)
  | .advise c => some (0x504, c)
  | .faultResume c => some (0x505, c)
  | .mirrorSet c => some (0x506, c)
  | .regionSet c => some (0x507, c)
  | .linkStatus c => some (0x600, c)
  | .linkKeyx c => some (0x601, c)
  | .linkJobEnd c => some (0x602, c)
  | .linkBounds c => some (0x603, c)
  | .linkClear c => some (0x604, c)
  | .pwrStatus c => some (0x700, c)
  | .pwrCapSet c => some (0x701, c)
  | .limitTighten c => some (0x702, c)
  | .unitStatus c => some (0x703, c)
  | .memTelem c => some (0x704, c)
  | .perfRead c => some (0x705, c)
  | .powerDown c => some (0x706, c)
  | .telemThresh c => some (0x707, c)
  | .irqQuant c => some (0x708, c)
  | .updStatus c => some (0x800, c)
  | .updBegin c => some (0x801, c)
  | .updData c => some (0x802, c)
  | .updEnd c => some (0x803, c)
  | .updVerify c => some (0x804, c)
  | .updActivate c => some (0x805, c)
  | .updCancel c => some (0x806, c)
  | .logRead c => some (0x900, c)
  | .logConfig c => some (0x901, c)
  | .traceConfig c => some (0x902, c)
  | .traceRead c => some (0x903, c)
  | .rcptBatch c => some (0x904, c)
  | .svcNonce c => some (0xA00, c)
  | .lcAdvance c => some (0xA01, c)
  | .vkeyRevoke c => some (0xA02, c)
  | .svcQuarantine c => some (0xA03, c)
  | .wardenReset c => some (0xA04, c)
  | _ => none

/-- The response of a command that ends with ST_OK, with STATE as the command found it (R244, R257). -/
def replied (op : Nat) (c : HostCall) (s : State) (body : Bytes) (t : State) : State := answer c op (stateWord s) stOk 0 body t
/-- The response of a command that ends with a failing status: every byte of its body zero (R244). -/
def failed (op : Nat) (c : HostCall) (s : State) (st detail : Nat) (t : State) : State :=
  answer c op (stateWord s) st detail [] t

/-- Firmware takes a management request at once: WFW or the recovery image runs, nothing is in execution or waits (R518, R527). -/
def MgIdle (s : State) : Prop :=
  fwWfw s = true ∧ s.pkg.standby = true ∧ s.pkg.st ≠ .retired ∧ s.mg.busy = false ∧ s.mg.queue = []

/-- Unit `u` with its doorbell clear: it has taken the command in its inbox (R224). -/
def tookCmd (u : Nat) (s : State) : State := modUnit u (fun x => { x with rung := false }) s
/-- Unit `u` posts the response with payload `r` to the command of opcode `op` in its inbox, `t` being the state after what
the command does (R71, R224). -/
def unitPosts (u op : Nat) (r : Bytes) (s t : State) : State :=
  imbPost u (unitS s u).gen.toNat (unitFrame op (field (unitS s u).inbox 4 4) (unitS s u).gen.toNat r) t
/-- The row of a command inside the package ends: its effect `t`, then the response, and what firmware does with it. -/
def unitDone (u op : Nat) (r : Bytes) (s t : State) : State := sqEvent (fun _ => unitPosts u op r s t) s

/-- A management request of the row's sender in execution; `i` is its second byte, which a reply's instance takes. -/
def mgBegun (i : Nat) (s : State) : State := { s with mg := { s.mg with queue := [], busy := true, peerInst := i } }

/-- A vendor request as the management path hands it to a command. -/
def mgWith (b : Bytes) : HostCall := ⟨mgCh, 0, false, b⟩

/-- The vendor response of a management request (R519): status, detail, STATE as the command found it, body. -/
def mgReplied (op : Nat) (s : State) (st d : Nat) (body : Bytes) (t : State) : State :=
  answer (mgWith []) op (stateWord s) st d body t

/-- The SPDM responder takes any request: the primary port is linked, no object is in execution, and the state is one
of those R217 does not limit. -/
def SpdmOn (s : State) : Prop :=
  (fnS s 0).up = true ∧ s.sd.busy = false ∧ (s.pkg.st = .idle ∨ s.pkg.st = .loading ∨ s.pkg.st = .active ∨ s.pkg.st = .switching)

end Sys2Proof

namespace Sys2Proof.Machine

/-- The SRAM keeps its canonical form, and the timeouts their least values (Table 3-11). -/
def WdOk (w : Warden) : Prop := cellsWf 0#8 w.sram = true ∧ 1 ≤ w.fwto ∧ 1000 ≤ w.wdtLoad
/-- BOUND lies within step RAM and a step timeout is not zero (Table 3-8). -/
def SqOk (q : Seqr) : Prop := q.bound ≤ 4096 ∧ 1 ≤ q.tmo
/-- The pulse width stays within its limits (Table 4-6). -/
def OtOk (o : Otp) : Prop := 2000 ≤ o.pulse ∧ o.pulse ≤ 8000
/-- 64 slots, and a recheck period within K_KCV_MS (R127). -/
def KsOk (k : KeyStore) : Prop := k.slots.length = 64 ∧ 1 ≤ k.kcvper ∧ k.kcvper ≤ 10000
/-- Both banks keep their canonical form and LEN stays between K_PKE_SLOT_MIN and K_PKE_SLOT_MAX (Table 6-2). -/
def PkOk (k : Pke) : Prop := cellsWf 0#8 k.keep = true ∧ cellsWf 0#8 k.wipeMem = true ∧ 4 ≤ k.len ∧ k.len ≤ 128
/-- Flash keeps its canonical form. -/
def FlOk (f : Flash) : Prop := cellsWf 0xFF#8 f.mem = true
/-- The management stage keeps its canonical form. -/
def MgOk (m : Mgmt) : Prop := cellsWf 0#8 m.stage = true
/-- The stage and every command buffer keep their canonical form, and there are K_MBX_CHANNELS channels (R221). -/
def MbOk (m : Mbx) : Prop := cellsWf 0#8 m.stage = true ∧ m.chans.length = 8 ∧ ∀ c ∈ m.chans, cellsWf 0#8 c.cmdBuf = true

/-- The invariant of the block: every byte memory is in canonical form, the fixed numbers of units, slots and channels
stand, and the bounded registers hold values their tables allow. -/
def Inv (s : State) : Prop :=
  WdOk s.wd ∧ s.units.length = 18 ∧ SqOk s.sq ∧ OtOk s.otp ∧ KsOk s.ks ∧ PkOk s.pk ∧ s.ms.slots.length = 32 ∧ FlOk s.fl
    ∧ MgOk s.mg ∧ MbOk s.mb

end Sys2Proof.Machine
end

