-- ==== Sys2Proof/Certificates/Slice0/Obligations.lean ====
section
/-! DEFINITION. The statements for the provers: the queue and the step, the invariant, reset, and for every family of
commands what its rows do. Each docstring names the rules of spec/ it follows. -/

open Sys2Proof Sys2Proof.Machine

/-- A step runs the command at the front of the queue with the queue's rest; on an empty queue a microsecond passes (the
idle tick is the model's choice, log entry 10; the queue is the block's command interface, log entry 56). -/
def Obligations.StepRunsTheFrontCommand : Prop :=
  (∀ (c : Instr) (r : List Instr) (s : State), s.pending = c :: r → step s = exec c { s with pending := r }) ∧
  (∀ s : State, s.pending = [] → step s = .next (tick s))

/-- The invariant `Inv` of Safety.lean is kept by every step from every state (Tables 3-8, 3-11, 4-6, 5-8, 6-2; R109,
R127, R158, R221): the bounds of those registers hold whatever is written to them. -/
def Obligations.EveryStepKeepsTheInvariant : Prop :=
  ∀ s t : State, Inv s → step s = .next t → Inv t

/-- No command adds to or takes from the queue of waiting commands: only the step does (R221, log entry 56). -/
def Obligations.NoCommandTouchesTheQueue : Prop :=
  ∀ (c : Instr) (s t : State), exec c s = .next t → t.pending = s.pending

/-- The state after reset meets the invariant. -/
def Obligations.ResetMeetsTheInvariant : Prop := Inv State.reset

/-- Every command but REGISTER_WRITE answers a next state in every state, and REGISTER_WRITE does outside the ranges of
the units that Table 3-2 places and no chapter describes (log entries 3 and 14). -/
def Obligations.EveryCommandIsAnswered : Prop :=
  (∀ (c : Instr) (s : State), (∀ a v, c ≠ .registerWrite a v) → ∃ t, exec c s = .next t) ∧
  (∀ (a : Nat) (v : Word) (s : State), undescribed a = false ∨ 2 ^ 32 ≤ a → ∃ t, exec (.registerWrite a v) s = .next t)

/-- The values the spec gives for reset (R41, R66, R208, Tables 3-8, 3-10, 3-11, 4-4, 4-6, 5-8, 6-2, 9-10; the package
word of Table 2-6 reads 0x0000_0001). -/
def Obligations.ResetLeavesTheStatedValues : Prop :=
  let s := State.reset
  stateWord s = 1 ∧ s.pkg.portEn = false ∧ s.pkg.tileEn = false ∧ s.pkg.memEn = false
  ∧ s.wd.time = 0 ∧ s.wd.cmp = 0xFFFFFFFFFFFFFFFF ∧ s.wd.wdtEn = false ∧ s.wd.wdtLock = false ∧ s.wd.wdtLoad = 2000000
  ∧ s.wd.fwto = 4000 ∧ s.wd.por = true ∧ s.wd.coreRun = false
  ∧ (∀ u < 18, (unitS s u).rspValid = false ∧ (unitS s u).gen = 0#8 ∧ (unitS s u).hbAge = 0 ∧ (unitS s u).hbLim = 0xFFFFFFFF
      ∧ (unitS s u).ports = [] ∧ (unitS s u).inReset = true)
  ∧ s.sq.tmo = 0xF4240 ∧ s.sq.busy = false ∧ s.sq.lock = false ∧ s.sq.bound = 0
  ∧ s.otp.pulse = 4000 ∧ s.pw.tjt = 90 ∧ s.pw.tjs = 100 ∧ s.pw.vcm = 750
  ∧ s.ks.kcvper = 10000 ∧ s.ks.tlock = false ∧ (∀ i < 64, (slotS s i).empty = true)
  ∧ s.pk.len = 128 ∧ s.pk.keep = [] ∧ s.pk.wipeMem = []
  ∧ s.ms.slots = List.replicate 32 {} ∧ s.hb.accept = 0 ∧ s.hb.frSize = 9 ∧ s.hb.frSealed = true
  ∧ s.pending = []

/-- R82 and Table 3-7: what each flag of SKIP reads; a reserved flag reads 0, and a SKIP on one with POL = 0 goes on with
the next step. -/
def Obligations.SkipTestsTheFlagsOfTheTable : Prop :=
  (∀ s : State, sqFlag s 0 = s.sq.vfail ∧ sqFlag s 1 = s.sq.kperr ∧ sqFlag s 2 = (asmOf s == some .m8) ∧ sqFlag s 3 = (asmOf s == some .m6)
    ∧ sqFlag s 4 = (asmOf s == some .s0 || asmOf s == none) ∧ sqFlag s 5 = (s.otp.lc == 2) ∧ sqFlag s 6 = (s.otp.lc == 1) ∧ sqFlag s 7 = (s.otp.lc == 3)
    ∧ sqFlag s 8 = (s.pkg.mode == .confidential) ∧ sqFlag s 9 = tkeys s ∧ (∀ f, 10 ≤ f → f ≤ 23 → sqFlag s f = false)
    ∧ (∀ k < 8, sqFlag s (24 + k) = bit s.sq.sw k)) ∧
  (∀ s : State, SqAt 0x02 s → 10 ≤ stepA (sqStep s) → stepA (sqStep s) ≤ 23 → stepB (sqStep s) = 0 → exec .sqSkip s = .next (sqPast s))

/-- R120: GEN fills an EMPTY slot with the bytes KS_ARG.LEN asks for from the DRBG and commits it with origin DRBG (3); a
health failure before it ends leaves the slot zero, commits nothing, and GEN ends with ECODE 6. -/
def Obligations.GenFillsAnEmptySlotOrCommitsNothing : Prop :=
  ∀ (i : Nat) (s : State), s.ks.busy = false → i < 64 → s.ks.slots.length = 64 → (slotS s i).empty = true → originAllows 3 s.ks.argUse = true →
    (s.ks.drbgOk = true →
      (∃ t, exec (.ksGen i) s = .next t ∧ slotS t i = committed (Config.draw s.draws (16 * (s.ks.argLen + 1))) 3 s.ks.argUse s.ks.argLock
        ∧ (∀ j, j ≠ i → slotS t j = slotS s j) ∧ t.ks.job = some ⟨1, i, 0⟩
        ∧ (∃ u, exec .ksCmdComplete t = .next u ∧ u.ks.slots = t.ks.slots ∧ u.ks.ecode = 0 ∧ u.ks.done = true ∧ u.ks.busy = false)
        ∧ (∃ u v, exec .drbgHealthFailure t = .next u ∧ exec .ksCmdComplete u = .next v ∧ slotS v i = {}
            ∧ (∀ j, j ≠ i → slotS v j = slotS s j) ∧ v.ks.err = true ∧ v.ks.ecode = 6 ∧ v.ks.busy = false))) ∧
    (s.ks.drbgOk = false → ∃ t, exec (.ksGen i) s = .next t ∧ t.ks.slots = s.ks.slots ∧ t.ks.job = some ⟨1, i, 6⟩)

/-- Standby power and WARDEN_RST_N (R41, R65, R66, R94, R555, R557, R560). Points the model
chooses: log entries 3, 5. -/
def Obligations.StandbyAndResetPin : Prop :=
  (∀ (w : Bool) (s : State), s.pkg.standby = false → s.pkg.rstN = true →
    exec (.standbyGood w) s = .next (
      let r := wardenReset { por := true } 0 { s with pkg := { s.pkg with standby := true, progWin := w } }
      if w then r else setNotice 14 r)) ∧
  (∀ s : State, s.pkg.standby = true → Runs .standbyLost s fun t => exec .standbyOvervoltage s = .next t ∧ ∃ r, WardenReset s r ∧ r.wd.por = true ∧
    t = { r with pkg := { r.pkg with st := .cold, standby := false, progWin := false }, mg := { r.mg with hold := false } }) ∧
  (∀ s : State, s.pkg.rstN = true → s.pkg.standby = true → s.pkg.st ≠ .cold →
    Runs .wardenRstNAssert s fun t => WardenReset s t ∧ t.pkg.rstN = false ∧ t.wd.ext = true ∧ t.wd.time = s.wd.time ∧ t.wd.por = s.wd.por) ∧
  (∀ s : State, s.pkg.rstN = false → s.pkg.st = .cold → s.pkg.standby = true →
    Runs .wardenRstNDeassert s fun t => WardenReset s t ∧ t.pkg.rstN = true ∧ t.wd.por = true ∧ t.wd.ext = false ∧ t.wd.time = 0) ∧
  (∀ s : State, s.pkg.standby = true → s.pkg.progWin = true →
    (s.otp.job = none → s.otp.busy = false →
      exec .standbyProgWindowExit s = .next (setNotice 14 { s with pkg := { s.pkg with progWin := false } })) ∧
    (s.otp.job.isSome = true → s.otp.busy = true → s.otp.loaded = true → s.uw = [] →
      exec .standbyProgWindowExit s = .next (setNotice 14 (otEnd 7 (otCut { s with pkg := { s.pkg with progWin := false } })))))

/-- The causes of a warden reset (R62, R64, R65, R74): each row's reset leaves what R66 says and sets its cause. -/
def Obligations.EveryResetCauseResetsTheWarden : Prop :=
  (∀ s : State, s.wd.coreRun = true →
    Runs .lockstepMismatch s fun t => WardenReset s t ∧ t.wd.lockstep = true ∧ t.wd.swrst = s.wd.swrst) ∧
  (∀ s : State, s.wd.wdtEn = true →
    Runs .watchdogStage2 s fun t => WardenReset s t ∧ t.wd.wdt = true ∧ t.wd.keys = tkeys s ∧ t.wd.rstState = s.pkg.st.code) ∧
  (∀ (s : State) (v : Word), s.wd.coreRun = true → v.toNat % 65536 = 0x5AC3 →
    Runs (.wdSwrstWrite v) s fun t => WardenReset s t ∧ t.wd.swrst = true ∧ t.wd.swcode = bits v.toNat 16 8) ∧
  (∀ (s : State) (v : Word), v.toNat % 65536 ≠ 0x5AC3 → exec (.wdSwrstWrite v) s = .next s) ∧
  (∀ (s : State) (a : Nat), s.wd.coreRun = true → s.wd.fw ≠ .rom →
    Runs (.sramUncorrectableError a) s fun t => WardenReset { s with wd := { s.wd with last := .busError } } t ∧ t.wd.swcode = 1 ∧ t.wd.swrst = true)

/-- Core release, SRAM and PKE initialisation, OTP autoload (R65, R67, R97, R100, R145, R469). -/
def Obligations.ResetReleaseRunsTheInitialisers : Prop :=
  (∀ s : State, s.pkg.st ≠ .cold → s.pkg.rstN = true → s.wd.coreRun = false →
    exec .coreResetRelease s = .next { s with wd := { s.wd with coreRun := true, fw := .rom } }) ∧
  (∀ s : State, s.wd.coreRun = true → s.wd.sramReady = false →
    (s.wd.stall = none → exec .sramInitDone s = .next { s with wd := { s.wd with sramReady := true, sram := [], flips := [] } }) ∧
    (∀ a v, s.wd.stall = some (a, v) → a < 0x20000000 → exec .sramInitDone s = .next { s with wd := { s.wd with
      sramReady := true, flips := [], stall := none, last := .ok 0, sram := cellPuts 0#8 (a - 0x10000000) (toLe 4 v) [] } })) ∧
  (∀ s : State, s.pk.zeroing = true → s.pq.wait = [] → s.wd.stall = none →
    Runs .pkeBankZeroDone s fun t => t.pk.zeroing = false ∧ t.pk.keep = [] ∧ t.pk.wipeMem = [] ∧ t = { s with pk := t.pk }) ∧
  (∀ s : State, s.otp.loaded = false → s.pkg.st ≠ .cold →
    Runs .otpAutoload s fun t => t.otp = autoLoad s.otp ∧ t.otp.rows = s.otp.rows ∧ t.otp.loaded = true ∧ t.otp.busy = false
      ∧ t.pw.tjt = t.otp.tjt ∧ t.pw.tjs = t.otp.tjs ∧ t.pw.vcm = t.otp.vcm ∧ t.wd.trim = oscTrim t.otp
      ∧ t = { s with otp := t.otp, pw := t.pw, wd := { s.wd with trim := t.wd.trim } })

/-- Watchdog, timer, heartbeat and clock-stop registers (R63, R74, R78, R210). Points the model
chooses: log entries 3, 10, 19, 68. -/
def Obligations.WatchdogTimerAndClockStop : Prop :=
  (∀ (s : State) (v : Word), v.toNat = 0x0000C3A5 →
    exec (.watchdogKick v) s = .next { s with wd := { s.wd with wdtCount := s.wd.wdtLoad } }) ∧
  (∀ (s : State) (v : Word), v.toNat ≠ 0x0000C3A5 →
    exec (.watchdogKick v) s = .next { s with wd := { s.wd with badKick := min (s.wd.badKick + 1) 255 } }) ∧
  (∀ s : State, s.wd.wdtEn = true → s.wd.wdtS1 = true →
    Runs .watchdogStage1 s fun t => t = { s with wd := { s.wd with wdtCount := min s.wd.wdtCount (s.wd.wdtLoad / 8) }, outs := .wirq 1 :: s.outs }) ∧
  (∀ s : State, s.wd.time ≤ s.wd.cmp →
    exec .timerCompare s = .next { s with wd := { s.wd with time := s.wd.cmp }, outs := .wirq 9 :: s.outs }) ∧
  (∀ s : State, s.wd.fw = .wfw ∨ s.wd.fw = .recovery →
    exec .hbTickIncrement s = .next { s with wd := { s.wd with hbTick := (s.wd.hbTick + 1) % 2 ^ 32 } }) ∧
  (∀ s : State, s.wd.fw ≠ .wfw → s.wd.fw ≠ .recovery → exec .hbTickIncrement s = .next s) ∧
  (∀ (s : State) (m : Nat), exec (.wdClkstopWrite m) s = .next { s with wd := { s.wd with stopReq := s.wd.stopReq ||| m % 256 } })

/-- ROM_BOOT and WFW_INIT (R41, R51, R75, R115, R162, R163, R164, R201). ROM_BOOT by life cycle; with an accepted image in
slot A and no selector it starts that image, and with no image accepted it enters QUARANTINE with QCAUSE 0x02. WFW_INIT sets
the registers of R164, locks the step tables and `tlock`; after a WDT or LOCKSTEP reset with KEYS set it enters QUARANTINE
with QCAUSE 0x07. Points the model
chooses: log entries 11, 38, 51, 58, 64, 65, 96. -/
def Obligations.RomAndFirmwareStart : Prop :=
  (∀ (x : RomIn) (s : State), s.wd.fw = .rom → s.pkg.st = .rom → s.otp.loaded = true → s.wd.sramReady = true →
    let r := romPrepare x s
    let m := romRecord (romMeasure r)
    (r.otp.lc = 4 → exec (.romBoot x) s = .next (setState .retired 0 (otComplete [] (otLc 4 r)))) ∧
    (r.otp.lc = 0 → exec (.romBoot x) s = .next r) ∧
    (r.otp.lc ≠ 0 → r.otp.lc ≠ 4 → (r.otp.lc = 7 ∨ nth 0 r.otp.grp 3 = 2) → exec (.romBoot x) s = .next (romSelect x (quarantine 1 (romMeasure r)))) ∧
    (r.otp.lc ≠ 0 → r.otp.lc ≠ 4 → r.otp.lc ≠ 7 → nth 0 r.otp.grp 3 ≠ 2 → selector r = none →
      (∀ i, x.errA = false → imgCheck8 m 0 1 = 0 → readImg m 0 1 = some i → imgBodyOk i = true →
        Runs (.romBoot x) s fun t => t.pkg.st = .warden ∧ t.wd.fw = .wfw ∧ t.wd.entry = 0x10000000 + field i.h 20 4 + field i.h 24 4
          ∧ t.boot.chosen = 0 ∧ t.boot.tried = 1 ∧ t.boot.eWarden = imgE i ∧ t.boot.wardenVersion = field i.h 12 4) ∧
      (x.errA = true → x.errB = true → x.errRec = true → nth 2 r.otp.grp 1 ≠ 2 →
        Runs (.romBoot x) s fun t => t.pkg.st = .quarantine ∧ t.pkg.qcause = 2 ∧ t.wd.fw = .rom))) ∧
  (∀ (x : List PulseOut) (s : State), s.wd.fw = .wfw → s.boot.inited = false → s.pkg.st = .warden → SqFree s → s.units.length = 18 →
    (s.wd.keys = false ∨ (s.wd.wdt = false ∧ s.wd.lockstep = false) →
      Runs (.wfwInit x) s fun t => t.pkg.st = .warden ∧ t.boot.inited = true ∧ t.wd.wdtEn = true ∧ t.wd.wdtLock = true ∧ t.wd.wdtS1 = true
        ∧ t.wd.wdtLoad = 100000 ∧ t.ks.tenant = 0x00FFFFFFFFFF0000 ∧ t.ks.tlock = true ∧ t.sq.lock = true
        ∧ (∀ u < 18, (unitS t u).hbLim = Config.kHeartbeatUs ∧ (unitS t u).hbIrqEn = true ∧ (unitS t u).irqEn = true)) ∧
    (s.wd.keys = true → s.wd.wdt = true ∨ s.wd.lockstep = true →
      Runs (.wfwInit x) s fun t => t.pkg.st = .quarantine ∧ t.pkg.qcause = 7 ∧ t.boot.inited = true)) ∧
  (∀ (x : List PulseOut) (s : State), SqFree s → (s.wd.fw ≠ .wfw ∧ s.wd.fw ≠ .recovery) ∨ s.boot.inited = true → exec (.wfwInit x) s = .next s)

/-- BRINGUP, its rails and its stacks (R41, R42, R165, R206, R208, R279, R316, R397, R558). BRINGUP_START enters the state
and starts the port rail's table where step RAM holds it as WFW_INIT left it; RAIL_POWER_GOOD ends the RAIL step that waits;
a stack that trains, or does not. Points the model
chooses: log entries 51, 58, 63, 66. -/
def Obligations.BringupSteps : Prop :=
  (∀ s : State, s.pkg.st = .warden → s.boot.inited = true → s.pkg.mainOk = true → s.mg.hold = false → SqFree s → s.pkg.portPg = false →
    stepAt s (fwEntry portUpTable s) = railStep 0 true →
    Runs .bringupStart s fun t => t.pkg.st = .bringup ∧ t.pkg.mode = defaultMode s ∧ t.pkg.portEn = true ∧ t.boot.bphase = .portRail
      ∧ t.boot.bringups = s.boot.bringups + 1 ∧ t.hb.accept = 0 ∧ t.hb.offer = offerMask { s with pkg := { s.pkg with mode := defaultMode s } }
      ∧ t.tn.ro.opened = true ∧ t.sq.busy = true ∧ t.sq.wait = .rail 0 true ∧ t.sq.purpose = .portUp) ∧
  (∀ s : State, SqFree s → s.mg.hold = true → exec .bringupStart s = .next s) ∧
  (∀ (hl : List Nat) (s : State), s.sq.busy = true → s.sq.purpose = .user → s.sq.abortReq = false → s.sq.nextIx < Config.kSteps → s.wd.access = none →
    (s.sq.wait = .rail 0 true → s.pkg.portEn = true →
      exec (.railPowerGood ⟨0, hl⟩) s = .next { s with pkg := { s.pkg with portPg := true }, sq := { s.sq with wait := .none } }) ∧
    (s.sq.wait = .rail 1 true → s.pkg.tileEn = true → s.pkg.mainOk = true →
      exec (.railPowerGood ⟨1, hl⟩) s = .next { s with pkg := { s.pkg with tilePg := true }, sq := { s.sq with wait := .none } }) ∧
    (s.sq.wait = .rail 2 true → s.pkg.memEn = true → s.pkg.tilePg = true → s.pkg.mainOk = true →
      exec (.railPowerGood ⟨2, hl⟩) s = .next { s with pkg := { s.pkg with memPg := true }, sq := { s.sq with wait := .none } })) ∧
  (∀ (hl : List Nat) (s : State), s.pkg.st = .bringup → s.sq.busy = true → s.sq.purpose = .memUp → s.sq.queue = [] → s.sq.abortReq = false →
    s.sq.wait = .rail 2 true → s.pkg.memEn = true → s.pkg.tilePg = true → s.pkg.mainOk = true → s.sq.nextIx + 1 < Config.kSteps →
    stepAt s s.sq.nextIx = endStep → s.sq.err = false → s.sq.aborted = false → s.wd.access = none →
    Runs (.railPowerGood ⟨2, hl⟩) s fun t => t.pkg.memPg = true ∧ t.boot.bphase = .memImg ∧ t.sq.busy = false ∧ t.sq.done = true) ∧
  (∀ (t : Nat) (s : State), s.boot.bphase = .train → s.pkg.st = .bringup → t ∈ loadUnits 2 s →
    let r := modMc t (fun m => { m with trained := true }) s
    ((loadUnits 2 r).all (fun t => (mcS r t).trained) = false → exec (.stackTrainingDone t) s = .next r) ∧
    ((loadUnits 2 r).all (fun t => (mcS r t).trained) = true → exec (.stackTrainingDone t) s = .next (siteCompare r))) ∧
  (∀ (t : Nat) (s : State), s.boot.bphase = .train → s.pkg.st = .bringup → hasStack s t = true → (mcS s t).trained = false →
    exec (.stackTrainingTimeout t) s = .next (quarantine 5 s) ∧ ∃ q, exec (.stackTrainingTimeout t) s = .next q ∧ q.pkg.st = .quarantine ∧ q.pkg.qcause = 5)

/-- Unit images, READY and a restarted unit's reload (R166, R167, R168, R169, R225). An accepted image goes to the image
region of every unit of its type with GO and the entry offset, at the first BRINGUP and at a repeated one where its e is the
recorded one; a refused one ends BRINGUP (QCAUSE 0x04, or 0x0B with P0 among the units). READY is a frame of the unit's
response buffer; with the unit's GEN it brings the unit UP. Points the model
chooses: log entries 51, 63, 65, 69. -/
def Obligations.UnitImageLoadAndReady : Prop :=
  (∀ (k : Nat) (x : LoadIn) (s : State), k < 3 → s.pkg.st = .bringup → s.boot.bphase = loadPhase k → s.sq.busy = false → s.units.length = 18 →
    (x.flashErr = true → exec (.unitImageLoad k x) s = .next (verifyFail (loadUnits k s) (loadType k) 10 s)) ∧
    (x.flashErr = false → x.windowErr = none → imgCheck8 s s.boot.chosen (loadType k) ≠ 0 →
      exec (.unitImageLoad k x) s = .next (verifyFail (loadUnits k s) (loadType k) (imgCheck8 s s.boot.chosen (loadType k)) s)) ∧
    (∀ i, x.flashErr = false → x.digestFails = 0 → x.windowErr = none → x.digestBad = false → imgCheck8 s s.boot.chosen (loadType k) = 0 →
      readImg s s.boot.chosen (loadType k) = some i → imgBodyOk i = true →
      (loadE k s = none ∨ loadE k s = some (imgE i) →
        Runs (.unitImageLoad k x) s fun t => t.boot.bphase = readyPhase k ∧ loadE k t = some (imgE i)
          ∧ t.boot.runSvn = s.boot.runSvn.set ((svnCounter (loadType k)).getD 0) (field i.h 8 1)
          ∧ (∀ u ∈ loadUnits k s, if k = 2
              then (unitS t u).mcImage = i.body ∧ (unitS t u).mcGo = true ∧ (unitS t u).mcAwait = true ∧ (unitS t u).mcEntry = field i.h 24 4 % 2 ^ 23 / 4 * 4
              else (unitS t u).image = i.body ∧ (unitS t u).go = true ∧ (unitS t u).awaitReady = true ∧ (unitS t u).entry = field i.h 24 4 % 2 ^ 23 / 4 * 4)) ∧
      (∀ e, loadE k s = some e → e ≠ imgE i → Runs (.unitImageLoad k x) s fun t => t.pkg.st = .quarantine ∧ t.pkg.qcause = 4))) ∧
  (∀ (u gen v : Nat) (s : State), fwWfw s = true → unitUp s u = true → (unitS s u).rspValid = false → (unitS s u).awaitReady = true → (unitS s u).mcAwait = false →
    gen = (unitS s u).gen.toNat → v < 2 ^ 32 → u < 18 → s.units.length = 18 → SqFree s →
    (s.pkg.st = .active →
      Runs (.unitReady u gen v) s fun t => (unitS t u).ustate = .up ∧ (unitS t u).awaitReady = false ∧ (unitS t u).hbAge = 0 ∧ (unitS t u).version = v
        ∧ (unitS t u).rspValid = true ∧ (unitS t u).rspLen = 40) ∧
    (s.pkg.st = .bringup → (∃ k w, k < 2 ∧ s.boot.bphase = readyPhase k ∧ w ∈ loadUnits k s ∧ w ≠ u ∧ (unitS s w).awaitReady = true) →
      Runs (.unitReady u gen v) s fun t => (unitS t u).ustate = .up ∧ (unitS t u).awaitReady = false ∧ (unitS t u).hbAge = 0 ∧ (unitS t u).version = v
        ∧ (unitS t u).rspValid = true ∧ (unitS t u).rspLen = 40 ∧ t.boot.bphase = s.boot.bphase)) ∧
  (∀ (u v : Nat) (s : State), s.wd.fw = .wfw → unitUp s u = true → (unitS s u).rspValid = true → SqFree s →
    ∀ gen, exec (.unitReady u gen v) s = .next (modUnit u (fun y => { y with held := y.held ++ [(BitVec.ofNat 8 gen,
      unitFrame 0xFF01 0 gen (toLe 1 u ++ [0#8] ++ toLe 1 gen ++ [0#8] ++ toLe 4 v))] }) s)) ∧
  (∀ (u : Nat) (s : State), (unitS s u).awaitReady = true ∨ (unitS s u).mcAwait = true →
    (s.pkg.st = .bringup → exec (.unitReadyTimeout u) s = .next (verifyFail [u] (awaitedType u s) 0 s)
      ∧ ∃ t, exec (.unitReadyTimeout u) s = .next t ∧ t.pkg.st = .quarantine ∧ t.pkg.qcause = if u = 8 then 0x0B else 4) ∧
    (s.pkg.st ≠ .bringup → exec (.unitReadyTimeout u) s = .next (unitFail u (if u < 8 then 4 else 2) 0 (modUnit u (fun y => { y with awaitReady := false }) s)))) ∧
  (∀ (u : Nat) (x : LoadIn) (s : State), u < 18 → s.units.length = 18 → s.pkg.st = .active → s.sq.busy = false → (unitS s u).ustate = .resetting →
    (unitS s u).awaitReady = false → (unitS s u).go = false → (if u < 8 then (unitS s u).inReset else (unitS s u).ctrlHeld) = false →
    let k := if u < 8 then 1 else 0
    (x.flashErr = true → exec (.unitRestartReload u x) s = .next (unitFail u (if u < 8 then 4 else 2) 10 s)) ∧
    (∀ i, x.flashErr = false → x.digestFails = 0 → x.windowErr = none → x.digestBad = false → imgCheck8 s s.boot.chosen (loadType k) = 0 →
      readImg s s.boot.chosen (loadType k) = some i → imgBodyOk i = true → loadE k s = some (imgE i) → (u < 8 → (tileP s u).hlres = 31) →
      Runs (.unitRestartReload u x) s fun t => (unitS t u).image = i.body ∧ (unitS t u).go = true ∧ (unitS t u).awaitReady = true
        ∧ (unitS t u).entry = field i.h 24 4 % 2 ^ 23 / 4 * 4 ∧ (unitS t u).restarts = (unitS s u).restarts + 1 ∧ t.pkg = s.pkg))

/-- Main input, reference clocks, the quarantine's clear engines and the clock-stop timeout (R43, R47, R456, R484, R555, R556,
R559, R562). Loss of the main input in a main-rail state destroys the tenant keys and leaves WARDEN; loss of the link
reference clock takes every Linya port DOWN, and QUARANTINE 0x08 follows in a residence with trained stacks. Points the model
chooses: log entries 50, 52, 58, 97. -/
def Obligations.MainPowerAndClockLoss : Prop :=
  (∀ s : State, exec .mainInputGood s = .next { s with pkg := { s.pkg with mainOk := true } }) ∧
  (∀ s : State, s.pkg.mainOk = true →
    let r := { s with pkg := { s.pkg with mainOk := false }, pw := { s.pw with notice := setBit s.pw.notice 16 true }, outs := .wirq 0 :: s.outs }
    (s.pkg.st.main = false → exec .mainInputLost s = .next r ∧ exec .mainOvervoltage s = .next r) ∧
    (s.pkg.st.main = true → exec .mainInputLost s = .next (mainLost r) ∧ exec .mainOvervoltage s = .next (mainLost r) ∧
      Runs .mainInputLost s fun t => t.pkg.st = .warden ∧ t.pkg.mode = .none ∧ t.pkg.mainOk = false ∧ t.pkg.tileEn = false ∧ t.pkg.memEn = false
        ∧ t.pkg.portEn = false ∧ (∀ i, s.ks.slots.length = 64 → tkeys s = true → 16 ≤ i → i < 56 → (slotS s i).dead = false → slotS t i = {}))) ∧
  (∀ s : State, (stackTiles s).all (fun t => !(mcS s t).trained) = true →
    Runs .refclkLinkLoss s fun t => t.pkg = { s.pkg with refLink := false }
      ∧ t = { s with pkg := t.pkg, ln := { s.ln with dies := t.ln.dies }, lg := t.lg }
      ∧ (∀ u ∈ portUnits s, ∀ p < 12, lportS t (ordOfUnit s u) p =
          if (lportS s (ordOfUnit s u) p).st = .down then lportS s (ordOfUnit s u) p else (lportS s (ordOfUnit s u) p).leave)) ∧
  (∀ s : State, s.pkg.st = .loading ∨ s.pkg.st = .active ∨ s.pkg.st = .switching → (stackTiles s).any (fun t => (mcS s t).trained) = true →
    Runs .refclkLinkLoss s fun t => t.pkg.st = .quarantine ∧ t.pkg.qcause = 8) ∧
  (∀ s : State, exec .refclkPcieLoss s = .next (dllDown 3 (dllDown 2 (dllDown 1 (dllDown 0 { s with pkg := { s.pkg with refPcie := false } }))))) ∧
  (∀ s : State, s.pkg.st = .quarantine → s.pkg.quarClr = true →
    exec .quarantineClearDone s = .next (revertDue (quarRails
      { s with units := s.units.map (fun x => { x with baseHeld := false, clusterHeld := false, scratchHeld := false }) })) ∧
    Runs .quarantineClearDone s fun t => t.pkg.st = .quarantine ∧ t.pkg.quarClr = false ∧ t.pkg.tileEn = false ∧ t.pkg.memEn = false
      ∧ (p0Healthy s = false → t.pkg.portEn = false) ∧ (p0Healthy s = true → t.pkg.portEn = s.pkg.portEn)) ∧
  (∀ s : State, s.wd.stopReq ≠ 0 →
    (s.pkg.st.main = false → exec .clkstopConfirmTimeout s = .next (driveRail 1 false (setAlarm 21 s))) ∧
    (s.pkg.st.main = true → exec .clkstopConfirmTimeout s = .next (quarantine 0x0C (driveRail 1 false (setAlarm 21 s))) ∧
      Runs .clkstopConfirmTimeout s fun t => t.pkg.st = .quarantine ∧ t.pkg.qcause = 0x0C)) ∧
  (∀ s : State, s.wd.stopReq = 0 → exec .clkstopConfirmTimeout s = .next s)

/-- The fabric window (R69, R70) and REGISTER_WRITE's one refusal. Points the model
chooses: log entries 14, 16, 22, 34, 55, 67. -/
def Obligations.FabricWindowAndRegisterWrites : Prop :=
  (∀ (u off : Nat) (w a : Bool) (v : Word) (s : State), s.wd.coreRun = true → s.wd.access = none →
    ((unitUp s u = false ∨ 2 ^ 24 ≤ off ∨ off % 4 ≠ 0) → exec (.fabricWindowAccess u off w v a) s = .next { s with wd := { s.wd with last := .busError } }) ∧
    (unitUp s u = true → off < 2 ^ 24 → off % 4 = 0 →
      (a = false → exec (.fabricWindowAccess u off w v a) s = .next { s with wd := { s.wd with access := some ⟨u, off, w, v.toNat⟩ } }) ∧
      (a = true → w = false → exec (.fabricWindowAccess u off w v a) s = .next { s with wd := { s.wd with last := .ok (unitRead u off s) }, draws := s.draws + 1 }) ∧
      (a = true → w = true → exec (.fabricWindowAccess u off w v a) s = .next (unitWrite u off v.toNat { s with wd := { s.wd with last := .ok 0 } })))) ∧
  (∀ (s : State) (x : FwAccess), s.wd.access = some x →
    exec .fabricWindowTimeout s = .next { s with wd := { s.wd with access := none, last := .busError } }) ∧
  (∀ (a : Nat) (v : Word) (s : State), a < 2 ^ 32 → undescribed a = true → a % 4 = 0 → s.wd.coreRun = true →
    exec (.registerWrite a v) s = .refused .registerOfUndescribedUnit) ∧
  (∀ (a : Nat) (v : Word) (s : State), a < 2 ^ 32 → undescribed a = false → s.wd.coreRun = true → s.wd.access = none → s.wd.stall = none →
    exec (.registerWrite a v) s = .next (coreWrite a v.toNat s)) ∧
  (∀ (a : Nat) (v : Word) (s : State), 0x10000000 ≤ a → a < 0x10100000 → a % 4 = 0 → s.wd.coreRun = true → s.wd.access = none → s.wd.stall = none →
    (s.wd.sramReady = true → exec (.registerWrite a v) s = .next { s with wd := { s.wd with
      sram := cellPuts 0#8 (a - 0x10000000) (toLe 4 v.toNat) s.wd.sram, flips := s.wd.flips.filter (· != a), last := .ok 0 } }) ∧
    (s.wd.sramReady = false → exec (.registerWrite a v) s = .next { s with wd := { s.wd with stall := some (a, v.toNat) } })) ∧
  (∀ (a : Nat) (v : Word) (s : State), 2 ^ 32 ≤ a →
    exec (.registerWrite a v) s = .next (hostWrite (bits a 28 2) (bit a 27) (bits a 0 27) (if bit a 30 then 8 else 4) (v.toNat + 2 ^ 32 * bits a 33 32) (!bit a 31) s)) ∧
  (∀ (d o v : Nat) (s : State), barOn s d = true → mbxBuffer o = none → o % 4 = 0 → hostWrite d false o 4 v true s = bar0Word32 d o (v % 2 ^ 32) s) ∧
  (∀ (d o n v : Nat) (b w : Bool) (s : State), barOn s d = true → mbxBuffer o = none → w = false ∨ o % n ≠ 0 → hostWrite d b o n v w s = aerUr s)

/-- Internal mailboxes, unit events and heartbeats (R71, R72, R73, R224, R500). Points the model
chooses: log entries 3, 35, 69. -/
def Obligations.InternalMailboxesAndHeartbeats : Prop :=
  (∀ (u : Nat) (f : Bytes) (s : State), s.wd.coreRun = true →
    (unitUp s u = false → exec (.imbCommandDoorbell u f) s = .next { s with wd := { s.wd with last := .busError } }) ∧
    (unitUp s u = true → exec (.imbCommandDoorbell u f) s = .next
      { s with wd := { s.wd with last := .ok 0 }, units := modNth u (fun x => { x with inbox := f.take 4096, doorbell := f.length, rung := true, cmdOut := some (field f 4 4) }) s.units })) ∧
  (∀ (u g : Nat) (f : Bytes) (s : State), unitUp s u = true →
    ((unitS s u).rspValid = true → SqFree s → exec (.imbResponse u g f) s = .next
      { s with units := modNth u (fun x => { x with held := x.held ++ [(BitVec.ofNat 8 g, f.take 896)] }) s.units }) ∧
    ((unitS s u).rspValid = false → (unitS s u).irqEn = true → exec (.imbResponse u g f) s = .next
      (sqEvent (fun s => imbHandle u g (f.take 896) { s with units := modNth u (fun x => { x with rspValid := true, rspLen := (f.take 896).length, rspBuf := f.take 896 }) s.units, outs := .wirq 3 :: s.outs }) s))) ∧
  (∀ (u g : Nat) (f : Bytes) (s : State), unitUp s u = false → SqFree s → exec (.imbResponse u g f) s = .next s) ∧
  (∀ (u g : Nat) (f : Bytes) (s : State), s.wd.fw = .wfw → field f 0 2 ≠ 0xFF01 → g = ((unitS s u).gen.toNat + 255) % 256 → imbHandle u g f s = s) ∧
  (∀ (u : Nat) (s : State),
    ((unitS s u).held = [] → SqFree s → exec (.imbRspClear u) s = .next { s with units := modNth u (fun x => { x with rspValid := false }) s.units }) ∧
    (∀ g f r, (unitS s u).held = (g, f) :: r → exec (.imbRspClear u) s = .next (sqEvent (fun s =>
      imbPost u g.toNat f (modUnit u (fun x => { x with held := r }) (modUnit u (fun x => { x with rspValid := false }) s))) s))) ∧
  (∀ (u g : Nat) (p : Bytes) (s : State), exec (.unitEvent u g p) s = exec (.imbResponse u g (unitFrame 0xFF02 0 g p)) s) ∧
  (∀ (u g : Nat) (p : Bytes) (s : State), unitUp s u = true → (unitS s u).rspValid = false → (unitS s u).irqEn = true →
    exec (.unitEvent u g p) s = .next (sqEvent (fun s => imbHandle u g ((unitFrame 0xFF02 0 g p).take 896)
      { s with units := modNth u (fun x => { x with rspValid := true, rspLen := ((unitFrame 0xFF02 0 g p).take 896).length, rspBuf := (unitFrame 0xFF02 0 g p).take 896 }) s.units, outs := .wirq 3 :: s.outs }) s)) ∧
  (∀ (u : Nat) (s : State), unitUp s u = true → (unitS s u).clkStop = false →
    exec (.unitHeartbeat u) s = .next { s with units := modNth u (fun x => { x with hbAge := 0, hbCnt := (x.hbCnt + 1) % 2 ^ 32 }) s.units }) ∧
  (∀ (u : Nat) (s : State), unitUp s u = true → (unitS s u).hbLim < (unitS s u).hbAge → (unitS s u).hbIrqEn = true → fwWfw s = true →
    exec (.heartbeatLimit u) s = .next (unitCrash u 1 { s with outs := .wirq 3 :: s.outs })) ∧
  (∀ (u : Nat) (s : State), (unitS s u).hbAge ≤ (unitS s u).hbLim → exec (.heartbeatLimit u) s = .next s)

/-- How a step table starts, runs and ends (R76, R80, R82, R83). Points the model
chooses: log entries 3, 59, 62. -/
def Obligations.StepTablesStartRunAndEnd : Prop :=
  (∀ s : State, (s.sq.busy = true → exec .sqStart s = .next { s with sq := { s.sq with ovr := true } }) ∧
    (s.sq.busy = false → exec .sqStart s = .next (trace 7 0xFF s.sq.entry 0 { s with sq := { s.sq with
      busy := true, vfail := false, kperr := false, wait := .none, abortReq := false, ecode := 0,
      nextIx := s.sq.entry, pc := s.sq.entry, steps := 0, purpose := .user, seed := none } }))) ∧
  (∀ s : State, s.sq.busy = true → s.wd.access = none → s.sq.purpose = .user → s.sq.queue = [] → s.sq.ecode ≠ 4 →
    (s.sq.wait = .none → exec .sqAbort s = .next (sqEnded (fun q => { q with aborted := true }) s)) ∧
    (s.sq.wait ≠ .none → exec .sqAbort s = .next { s with sq := { s.sq with abortReq := true } })) ∧
  (∀ s : State, SqAt 0x00 s → exec .sqNop s = .next (sqPast s)) ∧
  (∀ s : State, SqAt 0x01 s → s.sq.purpose = .user → s.sq.queue = [] → s.sq.ecode ≠ 4 →
    exec .sqEnd s = .next (sqEnded (fun q => { q with done := true }) (sqPast s))) ∧
  (∀ s : State, SqAt 0x02 s → s.sq.nextIx + 1 + stepC (sqStep s) < Config.kSteps →
    ((sqFlag s (stepA (sqStep s)) == (stepB (sqStep s) == 0)) = true →
      exec .sqSkip s = .next { sqPast s with sq := { (sqPast s).sq with nextIx := s.sq.nextIx + 1 + stepC (sqStep s) } }) ∧
    ((sqFlag s (stepA (sqStep s)) == (stepB (sqStep s) == 0)) = false → exec .sqSkip s = .next (sqPast s))) ∧
  (∀ s : State, SqAt 0x03 s → exec .sqDelay s = .next { sqPast s with sq := { (sqPast s).sq with wait := .delay (stepC (sqStep s)) } }) ∧
  (∀ (s : State) (n : Nat), s.sq.busy = true → s.sq.wait = .delay n → s.sq.abortReq = false → s.sq.nextIx < Config.kSteps → s.wd.access = none →
    exec .sqDelayExpiry s = .next { s with sq := { s.sq with wait := .none } }) ∧
  (∀ s : State, s.sq.busy = true → s.sq.wait = .none → stepLegal (sqStep s) = false → s.wd.access = none → s.sq.purpose = .user → s.sq.queue = [] →
    exec .sqIllegalStep s = .next (sqEnded (fun q => { q with err := true, ecode := 1 }) (sqPast s))) ∧
  (∀ s : State, s.sq.busy = true → (s.sq.wait = .join ∨ ∃ n, s.sq.wait = .delay n) → s.wd.access = none → s.sq.purpose = .user → s.sq.queue = [] →
    exec .sqStepTimeout s = .next (sqEnded (fun q => { q with err := true, ecode := 3 }) s)) ∧
  (∀ (s : State) (u : Nat), s.sq.busy = true → s.sq.wait = .start u → s.wd.access = none → exec .sqStepTimeout s = .next s)

/-- Steps that set the sequencer's own registers, its rails, clocks and resets (R72, R80, R485, R501, R558). Points the model
chooses: log entries 58, 60. -/
def Obligations.SettingStepsRailsClocksAndResets : Prop :=
  (∀ s : State, SqAt 0x04 s → exec .sqSetarg s = .next { sqPast s with sq := { (sqPast s).sq with args := s.sq.args.set (stepA (sqStep s)) (stepC (sqStep s)) } }) ∧
  (∀ s : State, SqAt 0x05 s → exec .sqSetflag s = .next
    { sqPast s with sq := { (sqPast s).sq with sw := setBit s.sq.sw (stepA (sqStep s) - 24) (stepB (sqStep s) == 1) } }) ∧
  (∀ s : State, SqAt 0x06 s → exec .sqIrq s = .next
    { sqPast s with sq := { (sqPast s).sq with irqcode := stepC (sqStep s) }, outs := .wirq 2 :: s.outs }) ∧
  (∀ s : State, SqAt 0x07 s →
    (opsOut s = true → exec .sqJoin s = .next { sqPast s with sq := { (sqPast s).sq with wait := .join } }) ∧
    (opsOut s = false → exec .sqJoin s = .next (sqPast s))) ∧
  (∀ s : State, SqAt 0x42 s →
    let r := driveRail (stepA (sqStep s)) (stepB (sqStep s) == 1) (sqPast s)
    exec .sqRail s = .next (if railPg s (stepA (sqStep s)) == (stepB (sqStep s) == 1) then r
      else { r with sq := { r.sq with wait := .rail (stepA (sqStep s)) (stepB (sqStep s) == 1) } })) ∧
  (∀ s : State, SqAt 0x41 s →
    (engineUp s (stepA (sqStep s)) = true →
      (stepB (sqStep s) = 0 → exec .sqClock s = .next { sqPast s with
        units := modNth (stepA (sqStep s)) (fun x => { x with clkStop := true, hbAge := 0 }) s.units, wd := { s.wd with stopReq := setBit s.wd.stopReq (stepA (sqStep s)) false } }) ∧
      (stepB (sqStep s) = 1 → (tileP s (stepA (sqStep s))).tripped = false →
        exec .sqClock s = .next { sqPast s with units := modNth (stepA (sqStep s)) (fun x => { x with clkStop := false }) s.units }) ∧
      (stepB (sqStep s) = 1 → (tileP s (stepA (sqStep s))).tripped = true → exec .sqClock s = .next (sqPast s))) ∧
    (engineUp s (stepA (sqStep s)) = false → s.sq.purpose = .user → s.sq.queue = [] →
      exec .sqClock s = .next (sqEnded (fun q => { q with err := true, ecode := 5 }) (sqPast s)))) ∧
  (∀ (s : State) (h : Nat), SqAt 0x40 s →
    let u := stepA (sqStep s)
    (u < 8 ∨ unitType s u = .port →
      (stepB (sqStep s) = 0 → exec (.sqReset h) s = .next (assertReset u (sqPast s))) ∧
      (stepB (sqStep s) = 1 → exec (.sqReset h) s = .next (releaseReset u h (sqPast s)))) ∧
    (unitType s u = .port → u < s.units.length →
      (stepB (sqStep s) = 3 → Runs (.sqReset h) s fun t => t.sq = (sqPast s).sq ∧ unitS t u =
        { unitS s u with ctrlHeld := false, gen := (unitS s u).gen + 1#8, hbCnt := 0, hbAge := 0, go := false, rung := false, cmdOut := none, outQ := [], tag := 1 }) ∧
      (stepB (sqStep s) = 2 → Runs (.sqReset h) s fun t => t.sq = (sqPast s).sq ∧ (unitS t u).ctrlHeld = true ∧ (unitS t u).go = false ∧ (unitS t u).cmdOut = none
        ∧ ∀ p < 12, (lportS t (ordOfUnit s u) p).st ≠ .up ∧ (lportS t (ordOfUnit s u) p).st ≠ .degraded)) ∧
    ((u < 8 ∧ 2 ≤ stepB (sqStep s)) ∨ (8 ≤ u ∧ unitType s u ≠ .port) → s.sq.purpose = .user → s.sq.queue = [] →
      exec (.sqReset h) s = .next (sqEnded (fun q => { q with err := true, ecode := 1 }) (sqPast s))))

/-- Steps toward units, key ports, slots and the digest engine (R80, R81, R124, R125, R327). Points the model
chooses: log entries 61. -/
def Obligations.UnitKeyAndDigestSteps : Prop :=
  (∀ s : State, SqAt 0x10 s → regionOk s (stepA (sqStep s)) (stepB (sqStep s)) = true → engineUp s (stepA (sqStep s)) = true →
    ((unitS s (stepA (sqStep s))).op.isSome = true → exec .sqClear s = .next { sqPast s with sq := { (sqPast s).sq with wait := .start (stepA (sqStep s)) } }) ∧
    ((unitS s (stepA (sqStep s))).op = none → exec .sqClear s = .next
      { sqPast s with units := modNth (stepA (sqStep s)) (fun x => { x with op := some (.clear (stepB (sqStep s)) (stepC (sqStep s) == 1)) }) s.units })) ∧
  (∀ s : State, SqAt 0x11 s → regionOk s (stepA (sqStep s)) (stepB (sqStep s)) = true → engineUp s (stepA (sqStep s)) = true →
    ((unitS s (stepA (sqStep s))).op.isSome = true → exec .sqVerify s = .next { sqPast s with sq := { (sqPast s).sq with wait := .start (stepA (sqStep s)) } }) ∧
    ((unitS s (stepA (sqStep s))).op = none → s.sq.seed = none → exec .sqVerify s = .next { sqPast s with
      sq := { (sqPast s).sq with seed := some s.draws }, draws := s.draws + 1,
      units := modNth (stepA (sqStep s)) (fun x => { x with op := some (.verify (stepB (sqStep s))) }) s.units }) ∧
    ((unitS s (stepA (sqStep s))).op = none → s.sq.seed.isSome = true → exec .sqVerify s = .next { sqPast s with
      units := modNth (stepA (sqStep s)) (fun x => { x with op := some (.verify (stepB (sqStep s))) }) s.units })) ∧
  (∀ (s : State) (op : Nat), (op = 0x10 ∧ SqAt 0x10 s) ∨ (op = 0x11 ∧ SqAt 0x11 s) → s.sq.purpose = .user → s.sq.queue = [] →
    let i := if op = 0x10 then Instr.sqClear else Instr.sqVerify
    (regionOk s (stepA (sqStep s)) (stepB (sqStep s)) = false → exec i s = .next (sqEnded (fun q => { q with err := true, ecode := 1 }) (sqPast s))) ∧
    (regionOk s (stepA (sqStep s)) (stepB (sqStep s)) = true → engineUp s (stepA (sqStep s)) = false →
      exec i s = .next (sqEnded (fun q => { q with err := true, ecode := 5 }) (sqPast s)))) ∧
  (∀ (u n : Nat) (s : State), SqFree s →
    (∀ r p, (unitS s u).op = some (.clear r p) → exec (.unitOpComplete u n false) s = .next
      (poisonClear u r { s with units := modNth u (regionCleared r p (decide (u < 8))) (modNth u (fun x => { x with op := none }) s.units) })) ∧
    (∀ r, (unitS s u).op = some (.verify r) → exec (.unitOpComplete u n false) s = .next
      { s with units := modNth u (fun x => { x with op := none }) s.units, sq := { s.sq with vfail := s.sq.vfail || n ≠ 0 } }) ∧
    ((unitS s u).op.isSome = true → exec (.unitOpComplete u n true) s = .next { s with units := modNth u (fun x => { x with op := none }) s.units })) ∧
  (∀ (u n : Nat) (s : State), s.sq.busy = true → s.wd.access = none → s.sq.purpose = .user → s.sq.queue = [] → (unitS s u).op.isSome = true →
    exec (.unitOpComplete u n true) s = .next (setAlarm 19 (sqEnded (fun q => { q with err := true, ecode := 4 })
      { s with units := modNth u (fun x => { x with op := none }) s.units }))) ∧
  (∀ (s : State) (cls len : Nat), SqAt 0x20 s → keyPort s (stepB (sqStep s)) (stepC (sqStep s)) = some (cls, len) → portUp s (stepB (sqStep s)) = true →
    (stepB (sqStep s) < 8 → s.pkg.memPg = true) →
    let x := slotS s (stepA (sqStep s))
    (slotServes x cls = true → slotKcv x = x.kcv →
      exec (.sqKpush false) s = .next (kpInstall (stepB (sqStep s)) (stepC (sqStep s)) (slice x.content 0 len) (sqPast s))) ∧
    (∀ k, k = true ∨ slotServes x cls = false ∨ slotKcv x ≠ x.kcv →
      exec (.sqKpush k) s = .next { sqPast s with sq := { (sqPast s).sq with kperr := true } })) ∧
  (∀ s : State, SqAt 0x21 s → (keyPort s (stepB (sqStep s)) (stepC (sqStep s))).isSome = true → portUp s (stepB (sqStep s)) = true →
    (stepB (sqStep s) < 8 → s.pkg.memPg = true) →
    exec .sqKpzero s = .next (kpZero (stepB (sqStep s)) (stepC (sqStep s)) (sqPast s))) ∧
  (∀ (s : State) (k : Bool), SqAt 0x20 s → s.sq.purpose = .user → s.sq.queue = [] →
    keyPort s (stepB (sqStep s)) (stepC (sqStep s)) = none ∨ (stepB (sqStep s) < 8 ∧ s.pkg.memPg = false) →
    exec (.sqKpush k) s = .next (sqEnded (fun q => { q with err := true, ecode := 1 }) (sqPast s))) ∧
  (∀ s : State, SqAt 0x22 s → stepA (sqStep s) ≠ 0xFF → s.dg.phase = .idle → s.pk.run = none → s.ks.drbgOk = true → s.ks.slots.length = 64 →
    (slotS s (stepA (sqStep s))).dead = false →
    Runs .sqKszero s fun t => if stepA (sqStep s) ∈ ksZeroBad s.draws
      then slotS t (stepA (sqStep s)) = { dead := true } ∧ t.ks.err = true ∧ t.ks.ecode = 8 ∧ bit t.pw.alarm 17 = true
      else t = { sqPast s with
        ks := { s.ks with slots := s.ks.slots.set (stepA (sqStep s)) {}, done := true, ecode := 0 }, draws := s.draws + 2, outs := .wirq 7 :: s.outs }) ∧
  (∀ s : State, SqAt 0x22 s → stepA (sqStep s) = 0xFF → s.ks.slots.length = 64 →
    Runs .sqKszero s fun t =>
      (∀ i < 64, (slotS s i).dead = false → slotS t i = { dead := decide (i ∈ ksZeroBad s.draws) }) ∧
      (∀ i < 64, (slotS s i).dead = true → (slotS s i).pending = false → slotS t i = slotS s i) ∧
      ((∀ i < 64, i ∈ ksZeroBad s.draws → (slotS s i).dead = true) → t.sq = (sqPast s).sq ∧ t.ks.done = true ∧ t.ks.ecode = 0) ∧
      ((∃ i < 64, i ∈ ksZeroBad s.draws ∧ (slotS s i).dead = false) → t.ks.err = true ∧ t.ks.ecode = 8 ∧ bit t.pw.alarm 17 = true)) ∧
  (∀ s : State, SqAt 0x22 s → stepA (sqStep s) ≠ 0xFF → s.ks.slots.length = 64 → (slotS s (stepA (sqStep s))).dead = false →
    Runs .sqKszero s fun t => slotS t (stepA (sqStep s)) = { dead := decide (stepA (sqStep s) ∈ ksZeroBad s.draws) } ∧
      (stepA (sqStep s) ∈ ksZeroBad s.draws → t.ks.err = true ∧ t.ks.ecode = 8 ∧ bit t.pw.alarm 17 = true)) ∧
  (∀ (s : State) (data : Bytes), SqAt 0x30 s → stepC (sqStep s) % dgBlock s.dg.mode = 0 → readMap s (nth 0 s.sq.args 0) (stepC (sqStep s)) = some data →
    s.dg.phase = .open → s.dg.buf = [] → s.wd.flips = [] →
    exec (.sqDigest false) s = .next { sqPast s with
      dg := { s.dg with absorbed := s.dg.absorbed ++ data, blocks := s.dg.blocks + data.length / dgBlock s.dg.mode } })

/-- OTP commands (R86, R90, R93 to R96, R98, R101, R104). Points the model
chooses: log entries 17, 71, 72. -/
def Obligations.OtpCommandsRunAndEnd : Prop :=
  (∀ s : State, s.otp.busy = false → exec .otRead s = .next { s with otp := { s.otp with
    weak := false, pulses := 0,
    rdata := if secretRow s.otp.addr then 0 else if s.otp.margin then strRow s.otp s.otp.addr else nomRow s.otp s.otp.addr,
    done := true, err := false, ecode := 0, job := none, busy := false }, outs := .wirq 11 :: s.outs }) ∧
  (∀ (s : State) (g : Nat × Nat × Nat), s.otp.busy = false → s.otp.lc = 0 → groupOfRow s.otp.addr = some g →
    (progLocked s.otp g s.otp.addr = true → exec .otProg s = .next (otEnd 3 (otAccept s))) ∧
    (progLocked s.otp g s.otp.addr = false → needs s.otp s.otp.addr s.otp.wdata ≠ 0 →
      exec .otProg s = .next (if s.pkg.progWin then otRuns 2 0 [(s.otp.addr, needs s.otp s.otp.addr s.otp.wdata)] s else otEnd 7 (otAccept s))) ∧
    (progLocked s.otp g s.otp.addr = false → needs s.otp s.otp.addr s.otp.wdata = 0 → exec .otProg s = .next (otEnd 0 (otAccept s)))) ∧
  (∀ s : State, s.otp.busy = false → s.otp.lc = 0 → groupOfRow s.otp.addr = none → exec .otProg s = .next (otEnd 3 (otAccept s))) ∧
  (∀ s : State, s.otp.busy = false → s.otp.lc ≠ 0 → exec .otProg s = .next (otEnd 2 (otAccept s)) ∧ exec .otGen s = .next (otEnd 2 (otAccept s))) ∧
  (∀ s : State, s.otp.busy = false → s.otp.lc = 0 → s.otp.addr % 32 < 16 → groupLocked s.otp (1, 32, 25) = false → s.pkg.progWin = true →
    let w := s.otp.addr % 32
    let ts := targetsOf ((List.range 3).map fun k => (32 + 25 * k + w, needs s.otp (32 + 25 * k + w) (le (Config.draw s.draws 4))))
    ts ≠ [] → exec .otGen s = .next { otRuns 3 0 ts s with draws := s.draws + 1 }) ∧
  (∀ (c v : Nat) (s : State), s.otp.busy = false → 1 ≤ s.otp.lc → s.otp.lc ≤ 3 → c ≤ 3 → v ≤ 64 → s.pkg.progWin = true →
    (svnValue s.otp c < v → exec (.otIncrTo c v) s = .next (otRuns 4 c (incrTargets c (svnValue s.otp c) v) s)) ∧
    (v ≤ svnValue s.otp c → exec (.otIncrTo c v) s = .next (otEnd 0 (otAccept s)))) ∧
  (∀ (c v k : Nat) (s : State), s.otp.busy = false →
    (¬ (1 ≤ s.otp.lc ∧ s.otp.lc ≤ 3) → exec (.otIncrTo c v) s = .next (otEnd 2 (otAccept s)) ∧ exec (.otRevoke k) s = .next (otEnd 2 (otAccept s))) ∧
    (1 ≤ s.otp.lc → s.otp.lc ≤ 3 → c ≤ 3 → 64 < v → exec (.otIncrTo c v) s = .next (otEnd 4 (otAccept s)))) ∧
  (∀ (k : Nat) (s : State), s.otp.busy = false → 1 ≤ s.otp.lc → s.otp.lc ≤ 3 → k ≤ 3 → s.pkg.progWin = true →
    let ts := targetsOf [(24, needs s.otp 24 (15 * 16 ^ k)), (25, needs s.otp 25 (15 * 16 ^ k))]
    ts ≠ [] → exec (.otRevoke k) s = .next (otRuns 5 k ts s)) ∧
  (∀ (sel : Nat) (s : State), s.otp.busy = false →
    ((¬ (1 ≤ sel ∧ sel ≤ 4) ∨ lcAllowed s.otp sel = false) → exec (.otLcAdvance sel) s = .next (otEnd 5 (otAccept s))) ∧
    (1 ≤ sel → sel ≤ 4 → lcAllowed s.otp sel = true → occMask s ≠ 0 → exec (.otLcAdvance sel) s = .next (otEnd 6 (otAccept s))) ∧
    (1 ≤ sel → sel ≤ 4 → lcAllowed s.otp sel = true → occMask s = 0 → s.pkg.progWin = true → lcTargets s.otp sel ≠ [] →
      exec (.otLcAdvance sel) s = .next (otRuns 6 sel (lcTargets s.otp sel) { s with otp := { s.otp with disabled := true } }))) ∧
  (∀ s : State, s.otp.busy = false → s.pkg.progWin = true → repairTargets s.otp ≠ [] →
    exec .otRepair s = .next (otRuns 7 0 (repairTargets s.otp) { s with otp := { s.otp with stillMarg := 0 } })) ∧
  (∀ s : State, s.otp.busy = false → repairTargets s.otp = [] →
    exec .otRepair s = .next (otEnd 0 (otAccept { s with otp := { s.otp with stillMarg := 0 } }))) ∧
  (∀ (c : Nat) (s : State), s.otp.busy = false → (c % 16 = 0 ∨ 7 < c % 16) → exec (.otIllegalCmd c) s = .next (otEnd 9 s)) ∧
  (∀ s : State, s.otp.busy = true → ∀ c v, exec (.otIncrTo c v) s = .next { s with otp := { s.otp with err := true, ecode := 1 }, outs := .wirq 11 :: s.outs })

/-- OT_CMD_COMPLETE burns what was to be burned and never unburns a cell (R86, R93). Points the model
chooses: log entries 1, 71. -/
def Obligations.OtpCellsBurnAndStayBurned : Prop :=
  (∀ (j : OtpJob) (s : State), s.otp.job = some j → (∀ w ∈ s.uw, w.u ≠ 2000) → Runs (.otCmdComplete []) s fun t =>
    t.otp.busy = false ∧ t.otp.job = none ∧ t.otp.done = true ∧ t = { s with otp := t.otp, outs := .wirq 11 :: s.outs } ∧
    (∀ p ∈ j.targets, nomRow t.otp p.1 &&& p.2 = p.2) ∧ ∀ r, (∀ p ∈ j.targets, p.1 ≠ r) → nomRow t.otp r = nomRow s.otp r) ∧
  (∀ (x : List PulseOut) (s : State) (r : Nat), (∀ w ∈ s.uw, w.u ≠ 2000) → Runs (.otCmdComplete x) s fun t => nomRow s.otp r &&& nomRow t.otp r = nomRow s.otp r)

/-- The digest engine's message (R113, R116, R117, R119, R128). Points the model
chooses: log entries 2, 18, 74. -/
def Obligations.DigestMessageOpensAbsorbsAndDelivers : Prop :=
  (∀ s : State, s.otp.loaded = true → s.dg.phase = .idle → dgCfgOk s.dg = true → dgKeyOk s = true → dgDstOk s = true →
    exec .dgStart s = .next { s with dg := { s.dg with
      phase := if isHmac s.dg.mode then .keyBlock else .open, buf := [], absorbed := [], blocks := 0,
      key := if isHmac s.dg.mode then dgKey s else [] } }) ∧
  (∀ s : State, s.otp.loaded = true →
    (s.dg.phase ≠ .idle → exec .dgStart s = .next (dgEnd 3 s)) ∧
    (s.dg.phase = .idle → dgCfgOk s.dg = false → exec .dgStart s = .next (dgEnd 1 s)) ∧
    (s.dg.phase = .idle → dgCfgOk s.dg = true → dgKeyOk s = false → exec .dgStart s = .next (dgEnd 5 s)) ∧
    (s.dg.phase = .idle → dgCfgOk s.dg = true → dgKeyOk s = true → dgDstOk s = false → exec .dgStart s = .next (dgEnd 6 s))) ∧
  (∀ (w : Word) (s : State), s.otp.loaded = true → s.dg.phase = .open →
    let b := s.dg.buf ++ toLe 4 w.toNat
    exec (.dgDataWrite w) s = .next { s with dg := { s.dg with buf := b, phase := if dgBlock s.dg.mode ≤ b.length then .absorbing else .open } }) ∧
  (∀ s : State, s.dg.phase = .keyBlock → exec .dgBlockAbsorbed s = .next { s with dg := { s.dg with phase := .open }, outs := .wirq 6 :: s.outs }) ∧
  (∀ s : State, s.dg.phase = .absorbing → exec .dgBlockAbsorbed s = .next { s with dg := { s.dg with
      phase := .open, absorbed := s.dg.absorbed ++ s.dg.buf, buf := [], blocks := s.dg.blocks + 1 }, outs := .wirq 6 :: s.outs }) ∧
  (∀ s : State, s.otp.loaded = true → s.dg.phase = .open → s.dg.buf = [] →
    (isHmac s.dg.mode = true → exec .dgFinish s = .next { s with dg := { s.dg with phase := .outer } }) ∧
    (isHmac s.dg.mode = false → s.dg.dest = false → exec .dgFinish s = .next { s with dg := { s.dg with
      phase := .idle, done := true, result := slice (dgResult s.dg) 0 64, key := [], buf := [], absorbed := [] }, outs := .wirq 6 :: s.outs })) ∧
  (∀ s : State, s.otp.loaded = true → s.dg.phase = .open → s.dg.buf ≠ [] → exec .dgFinish s = .next (dgEnd 4 s)) ∧
  (∀ s : State, s.dg.phase = .outer → s.dg.dest = false → exec .dgOuterPassDone s = .next { s with dg := { s.dg with
      phase := .idle, done := true, result := slice (dgResult s.dg) 0 64, key := [], buf := [], absorbed := [] }, outs := .wirq 6 :: s.outs }) ∧
  (∀ s : State, s.dg.phase = .outer → s.dg.dest = true → s.dg.commit = true → dgCfgOk s.dg = true → dgDstOk s = true →
    let x := slotS s s.dg.dstslot
    let w := (dgResult s.dg).take (16 * (s.dg.dlen1 + 1))
    let top := max x.len ((16 * s.dg.doff + w.length + 15) / 16 * 16)
    let key := slice (overlay x.content (16 * s.dg.doff) w) 0 top
    exec .dgOuterPassDone s = .next { slotIs s.dg.dstslot (committed key 2 s.dg.use s.dg.lock) s with
      dg := { s.dg with phase := .idle, done := true, result := [], key := [], buf := [], absorbed := [] }, outs := .wirq 6 :: s.outs }) ∧
  (∀ s : State, s.otp.loaded = true →
    (s.dg.phase ≠ .idle → s.dg.dest = false ∨ (slotS s s.dg.dstslot).pending = false → exec .dgClear s = .next
      { s with dg := { s.dg with phase := .idle, buf := [], absorbed := [], key := [], result := [] } }) ∧
    (s.dg.phase ≠ .idle → s.dg.dest = true → (slotS s s.dg.dstslot).pending = true → exec .dgClear s = .next
      { slotIs s.dg.dstslot {} s with dg := { s.dg with phase := .idle, buf := [], absorbed := [], key := [], result := [] } }) ∧
    (s.dg.phase = .idle → exec .dgClear s = .next s)) ∧
  (∀ s : State, s.otp.loaded = true → s.dg.phase = .idle →
    ((s.otp.root = 0 ∨ s.otp.disabled = true ∨ (slotS s 0).empty = false) → exec .dgRootkdf s = .next (dgEnd 9 s)) ∧
    (s.otp.root ≠ 0 → s.otp.disabled = false → (slotS s 0).empty = true → exec .dgRootkdf s = .next
      { slotIs 0 (committed (k0 s.otp) 1 2 true) s with dg := { s.dg with done := true }, outs := .wirq 6 :: s.outs })) ∧
  (∀ s : State, s.otp.loaded = false → ∀ w, exec (.dgDataWrite w) s = .next { s with dg := { s.dg with ecode := 10 } })

/-- Key store commands (R120 to R123, R125, R129). Points the model
chooses: log entries 2, 17. -/
def Obligations.KeyStoreCommands : Prop :=
  (∀ (i : Nat) (s : State), s.ks.busy = false → i < 64 →
    ((slotS s i).empty = true → originAllows 3 s.ks.argUse = true → s.ks.drbgOk = true → exec (.ksGen i) s = .next
      { ksRuns 1 i 0 (slotIs i (committed (Config.draw s.draws (16 * (s.ks.argLen + 1))) 3 s.ks.argUse s.ks.argLock) s) with draws := s.draws + 1 }) ∧
    ((slotS s i).empty = false → exec (.ksGen i) s = .next (ksRuns 1 i 3 s) ∧ exec (.ksLoad i) s = .next (ksRuns 7 i 3 s)) ∧
    ((slotS s i).empty = true → originAllows 6 s.ks.argUse = true → exec (.ksLoad i) s = .next
      (ksRuns 7 i 0 (slotIs i (committed (slice s.ks.wbuf 0 (16 * (s.ks.argLen + 1))) 6 s.ks.argUse s.ks.argLock) s))) ∧
    ((slotS s i).dead = false → s.dg.phase = .idle → s.pk.run = none → s.ks.drbgOk = true →
      exec (.ksZero i false) s = .next { ksRuns 3 i 0 (slotIs i {} s) with draws := s.draws + 1 } ∧
      exec (.ksZero i true) s = .next (setAlarm 17 { ksRuns 3 i 8 (slotIs i { dead := true } s) with draws := s.draws + 1 })) ∧
    ((slotS s i).dead = true → exec (.ksZero i false) s = .next (ksRuns 3 i 3 s))) ∧
  (∀ (i k : Nat) (s : State), s.ks.busy = false → i < 64 → k < 64 → (slotS s i).empty = true → originAllows 4 s.ks.argUse = true →
    let n := 16 * (s.ks.argLen + 1)
    let w := slice s.ks.wbuf 0 (n + 8)
    (slotServes (slotS s k) 3 = false → exec (.ksUnwrap i k) s = .next (ksRuns 2 i 4 s)) ∧
    (slotServes (slotS s k) 3 = true → exec (.ksUnwrap i k) s = .next (
      if Config.kwOk (slotS s k).content w then
        ksRuns 2 i 0 (slotIs i (committed ((List.range n).map (Config.kwByte (slotS s k).content w)) 4 s.ks.argUse s.ks.argLock) s)
      else ksRuns 2 i 7 s))) ∧
  (∀ (i : Nat) (s : State), s.ks.busy = false → i < 64 → (slotS s i).origin ≠ 0 → (slotS s i).pending = false → (slotS s i).dead = false → (slotS s i).lock = false →
    let y := { slotS s i with lock := true }
    let z := { slotS s i with use := s.ks.argUse }
    exec (.ksLock i) s = .next (ksRuns 6 i 0 (slotIs i { y with kcv := slotKcv y } s)) ∧
    (s.ks.argUse &&& (slotS s i).use = s.ks.argUse → exec (.ksSetuse i) s = .next (ksRuns 5 i 0 (slotIs i { z with kcv := slotKcv z } s))) ∧
    (s.ks.argUse &&& (slotS s i).use ≠ s.ks.argUse → exec (.ksSetuse i) s = .next (ksRuns 5 i 5 s))) ∧
  (∀ (i : Nat) (s : State), s.ks.busy = false → 64 ≤ i → exec (.ksGen i) s = .next (ksRuns 1 i 2 s)) ∧
  (∀ s : State, s.ks.busy = false → s.dg.phase = .idle → s.pk.run = none → s.ks.slots.length = 64 → (∀ i, (slotS s i).dead = false) → Runs (.ksZeroAll []) s fun t =>
    t.ks.slots = List.replicate 64 {} ∧ t.ks.job = some ⟨4, 0, 0⟩ ∧ t = { s with ks := t.ks, draws := t.draws }) ∧
  (∀ (j : KsJob) (s : State), s.ks.job = some j → exec .ksCmdComplete s = .next { s with
      ks := { s.ks with
        busy := false, job := none, wbuf := [], done := s.ks.done || j.ecode == 0, err := s.ks.err || j.ecode != 0, ecode := j.ecode },
      outs := .wirq 7 :: s.outs }) ∧
  (∀ (i : Nat) (s : State), s.ks.busy = true → exec (.ksLock i) s = .next { s with ks := { s.ks with err := true, ecode := 1, wbuf := [] }, outs := .wirq 7 :: s.outs })

/-- The KCV recheck and the DRBG's health (R111, R120, R127). -/
def Obligations.KcvRecheckAndDrbgHealth : Prop :=
  (∀ s : State, kcvBad s = [] → exec (.kcvRecheckPass none) s = .next s ∧
    (s.ks.busy = false → exec .ksRecheck s = .next (ksRuns 8 0 0 s))) ∧
  (∀ (i : Nat) (s : State), kcvBad s = [i] → exec (.kcvRecheckPass none) s = .next
    (kcvReact i { s with ks := { s.ks with kcverr := true, kcvslot := i }, outs := .wirq 7 :: s.outs })) ∧
  (∀ (i b : Nat) (s : State), exec (.kcvRecheckPass (some (i, b))) s = exec (.kcvRecheckPass none) (upset i b s)) ∧
  (∀ (i : Nat) (s : State), fwWfw s = true → s.dg.phase = .idle → s.pk.run = none → s.ks.drbgOk = true → i < 64 → i ≠ 6 → i < s.ks.slots.length →
    (slotS s i).dead = false → (slotS s i).origin ∉ [1, 2] →
    kcvReact i s = logEvent 0x0204 0xFF (toLe 1 i ++ [0#8]) { slotIs i {} s with draws := s.draws + 1 }) ∧
  (∀ (i : Nat) (s : State), fwWfw s = false → kcvReact i s = s) ∧
  (∀ s : State, s.ks.job = none → exec .drbgHealthFailure s = .next { s with ks := { s.ks with drbgOk := false }, outs := .wirq 8 :: s.outs }) ∧
  (∀ (i : Nat) (s : State), s.ks.job = some ⟨1, i, 0⟩ → exec .drbgHealthFailure s = .next
    { s with ks := { s.ks with drbgOk := false, job := some ⟨1, i, 6⟩, slots := s.ks.slots.set i {} }, outs := .wirq 8 :: s.outs })

/-- PKE jobs and measurement commands (R134, R137, R138, R146, R148, R158, R171). Points the model
chooses: log entries 2, 75, 76. -/
def Obligations.PkeJobsAndMeasurementCommands : Prop :=
  (∀ (x : Option Nat) (s : State), s.pk.busy = true → exec (.pkStart x) s = .next { s with pk := { s.pk with ovr := true } }) ∧
  (∀ (x : Option Nat) (s : State), s.pk.busy = false → s.pk.wipefail = true → exec (.pkStart x) s = .next { s with pk := { s.pk with err := true, ecode := 1 } }) ∧
  (∀ (s : State) (sh : PkShape), s.pk.busy = false → s.pk.wipefail = false → pkShape s.pk.op s.pk.nw s.pk.ord = some sh → bit s.lg.mask 5 = false →
    let began (r : PkRun) : State := { s with draws := s.draws + 1, pk := { s.pk with busy := true, alarm := false, kscut := false, jobs := s.pk.jobs + 1, run := some r } }
    let run (e : Nat) (ins : List Bytes) : PkRun := {
      op := s.pk.op, ins := ins, kslot := if s.pk.ksin then some s.pk.kslot else none
      dslot := if s.pk.ksout then some s.pk.dslot else none, draw := s.draws, ebits := s.pk.ebits, ord := s.pk.ord, early := e }
    let ins := (List.range sh.ins.length).map (fun i => pkOpndBytes s (nth {} s.pk.opnds i) (nth 0 sh.ins i))
    (pkCheck s = 0 → (sh.random = true → s.ks.drbgOk = true) → s.pk.snap = false → s.wd.flips = [] →
      exec (.pkStart none) s = .next (began (run 0 (ins ++ (if sh.priv.isSome then [(slotS s s.pk.kslot).content] else []))))) ∧
    (∀ x, pkCheck s ≠ 0 → exec (.pkStart x) s = .next (began (run (pkCheck s) []))) ∧
    (∀ x, pkCheck s = 0 → sh.random = true → s.ks.drbgOk = false → exec (.pkStart x) s = .next (began (run 4 []))) ∧
    (∀ a, pkCheck s = 0 → (sh.random = true → s.ks.drbgOk = true) → (pkStreams s.pk sh).any (fun p => decide (p.1 ≤ a) && decide (a < p.1 + p.2)) = true →
      exec (.pkStart (some a)) s = .next (let b := began (run 6 []); { b with pk := { b.pk with eaddr := a } }))) ∧
  (∀ (x : Option Nat) (s : State), s.pk.busy = false → s.pk.wipefail = false → pkShape s.pk.op s.pk.nw s.pk.ord = none →
    Runs (.pkStart x) s fun t => t.pk.busy = true ∧ t.pk.run = some (pkRunOf 2 [] s)) ∧
  (∀ (r : PkRun) (x : PkEnd) (s : State), s.pk.run = some r → s.pq.run = none → s.pq.wait = [] → s.rc.waiting = none → s.rc.due = none → s.rc.held = [] →
    x.wipeBad = false → s.pk.zeroing = false → bit s.lg.mask 6 = false →
    let e := pkOutcome r x s
    let p := if e = 0 then pkCommit r s else s
    let cut := match r.dslot with | some d => !(slotS s d).empty | none => false
    let q : Pke := { p.pk with
      busy := false, run := none, wipeMem := [], wiping := false, done := p.pk.done || e == 0, err := p.pk.err || e != 0, ecode := e
      kscut := p.pk.kscut || cut, valid := if pkVerdictOp r.op then e == 0 && pkVerdict r.op r.ins else p.pk.valid, iter := pkIter r x e p.pk.iter, cycles := x.cycles }
    (e ≠ 6 → exec (.pkeJobComplete x) s = .next (pkErrorEv r.op e { p with pk := q, outs := .wirq 5 :: p.outs })) ∧
    (e = 6 → Runs (.pkeJobComplete x) s fun t => WardenReset (pkErrorEv r.op e { p with pk := q, outs := .wirq 5 :: p.outs }) t ∧ t.wd.swcode = 1)) ∧
  (∀ (n : Nat) (s : State), s.ms.job = none →
    (32 ≤ n → exec (.msExtend n) s = .next { s with ms := { s.ms with job := some ⟨1, 2⟩ } } ∧ exec (.msLock n) s = .next { s with ms := { s.ms with job := some ⟨2, 2⟩ } }) ∧
    (n < 32 → (nth {} s.ms.slots n).locked = false → s.ms.slots.length = 32 → Runs (.msExtend n) s fun t =>
      (nth {} t.ms.slots n).val = Config.sha384 ((nth {} s.ms.slots n).val ++ slice s.ms.msIn 0 48) ∧
      (nth {} t.ms.slots n).count = min ((nth {} s.ms.slots n).count + 1) 0xFFFFFFFF ∧
      (∀ m, m ≠ n → nth {} t.ms.slots m = nth {} s.ms.slots m) ∧ t.ms.job = some ⟨1, 0⟩ ∧ t = { s with ms := t.ms }) ∧
    (n < 32 → exec (.msLock n) s = .next { s with ms := { s.ms with job := some ⟨2, 0⟩, slots := modNth n (fun x => { x with locked := true }) s.ms.slots } })) ∧
  (∀ s : State, s.ms.job = none →
    (tkeys s = true → let r := logEvent 0x0106 0xFF [0x10, 0x04] s; exec .msTzero s = .next { r with ms := { r.ms with job := some ⟨3, 4⟩ } }) ∧
    (tkeys s = false → exec .msTzero s = .next { s with ms := { s.ms with job := some ⟨3, 0⟩, slots := s.ms.slots.take 16 ++ List.replicate 16 {}, tgen := (s.ms.tgen + 1) % 2 ^ 32, logT := [], lostT := false } })) ∧
  (∀ (n : Nat) (s : State), s.ms.job.isSome = true →
    let r := { s with ms := { s.ms with err := true, ecode := 1, msIn := [] } }
    exec (.msExtend n) s = .next r ∧ exec (.msLock n) s = .next r ∧ exec .msTzero s = .next r) ∧
  (∀ (j : MsJob) (s : State), s.ms.job = some j → exec .msCmdComplete s = .next { s with ms := { s.ms with
      job := none, msIn := [], done := s.ms.done || j.ecode == 0, err := s.ms.err || j.ecode != 0, ecode := j.ecode } })

/-- Functions, their resets and their links (R204, R211, R218). Points the model
chooses: log entries 6, 48, 54. -/
def Obligations.FunctionsResetsAndLinks : Prop :=
  (∀ (d : Nat) (s : State), d < (portUnits s).length → (fnS s d).perstN = true →
    exec (.perstNAssert d) s = .next (fnReset d (modFn d (fun f =>
      { f with perstN := false, up := false, cause := 0, irqEn := 0, mask := 0xFFFFFFFFFFFFFFFF, pba := 0, table := [], d3 := false }) s))) ∧
  (∀ (d : Nat) (s : State), d < (portUnits s).length → (fnS s d).up = true →
    let clr (f : HostFn) : HostFn := { f with cause := 0, irqEn := 0, mask := 0xFFFFFFFFFFFFFFFF, pba := 0, table := [], d3 := false }
    exec (.functionLevelReset d) s = .next (fnReset d (modFn d clr s)) ∧
    exec (.dataLinkLayerDown d) s = .next (fnReset d (modFn d (fun f => clr { f with up := false }) s))) ∧
  (∀ (c : Instr) (s : State), 0 < (portUnits s).length → (c = .perstNAssert 0 ∧ (fnS s 0).perstN = true) ∨ (c = .functionLevelReset 0 ∧ (fnS s 0).up = true) ∨
      (c = .dataLinkLayerDown 0 ∧ (fnS s 0).up = true) →
    Runs c s fun t => t.hb.accept = 0 ∧ t.sd.sess = none ∧ t.pw.quant = false ∧ t.hb.frEn = false ∧ t.hb.frSealed = true ∧ t.hb.apEn = false ∧ t.sd.busy = false) ∧
  (∀ (d : Nat) (s : State), 1 ≤ d → (jobIds (fun j => j.st == .running && j.die == d) (apEndDie d s)) = [] →
    fnReset d s = modPx d (fun x => { x with streams := [] }) (apEndDie d s)) ∧
  (∀ (d : Nat) (s : State), d < (portUnits s).length → exec (.perstNDeassert d) s = .next
    { s with hb := { s.hb with fns := modNth d (fun f => { f with perstN := true }) s.hb.fns } }) ∧
  (∀ (d : Nat) (s : State), d < (portUnits s).length → (fnS s d).up = false → (fnS s d).ltEn = true → (fnS s d).perstN = true →
    s.pkg.portPg = true → s.pkg.refPcie = true → unitUp s (unitOfOrd s d) = true → (d ≠ 0 ∨ s.mg.mreq = 0) → ∀ gen w, gen < 6 → w ∈ Config.linkWidths →
    ∃ b, (gen = 5 → b = true) ∧ exec (.linkUp ⟨d, gen, w⟩) s = .next { s with
      draws := s.draws + 1, hb := { s.hb with fns := modNth d (fun f => { f with up := true, gen := gen, width := w, flit := b }) s.hb.fns } }) ∧
  (∀ (d gen w : Nat) (s : State), (fnS s d).perstN = false → exec (.linkUp ⟨d, gen, w⟩) s = .next s) ∧
  (∀ (d : Nat) (s : State), (fnS s d).up = true → exec (.d3hotEntry d) s = .next
    { s with hb := { s.hb with fns := modNth d (fun f => { f with d3 := true }) s.hb.fns } }) ∧
  (∀ (d : Nat) (s : State), (fnS s d).pba = 0 → exec (.d0Entry d) s = .next
    { s with hb := { s.hb with fns := modNth d (fun f => { f with d3 := false }) s.hb.fns } }) ∧
  (∀ (d v : Nat) (s : State), (fnS s d).up = true → (fnS s d).d3 = false → d < s.hb.fns.length → v < 64 → (fnS s d).pba = 2 ^ v → Runs (.msixUnmask d v) s fun t =>
    (fnS t d).pba = 0 ∧ t.outs = .msix d v :: s.outs ∧ bit (fnS t d).mask v = false)

/-- The channel handshake and the mover (R202, R226, R227, R231, R240). Points the model
chooses: log entries 47, 48, 80. -/
def Obligations.ChannelHandshakeAndMover : Prop :=
  (∀ (ch off : Nat) (data : Bytes) (s : State), ch < 8 → barOn s 0 = true → data.length ≤ 256 → off + data.length ≤ 4096 →
    exec (.mbxBufferWrite ch off data) s = .next (if (chanS s ch).cmdFree
      then { s with mb := { s.mb with chans := modNth ch (fun c => { c with cmdBuf := cellPuts 0#8 off data c.cmdBuf }) s.mb.chans } } else s)) ∧
  (∀ (ch off : Nat) (data : Bytes) (s : State), ch < 8 → barOn s 0 = true → 256 < data.length ∨ 4096 < off + data.length →
    exec (.mbxBufferWrite ch off data) s = .next { s with hb := { s.hb with urs := s.hb.urs + 1 } }) ∧
  (∀ (ch len : Nat) (s : State), ch < 8 → barOn s 0 = true → 32 ≤ len → len ≤ 4096 →
    ((chanS s ch).cmdFree = false → exec (.mbxDoorbell ch len) s = .next s) ∧
    ((chanS s ch).gen = 0 → exec (.mbxDoorbell ch len) s = .next s) ∧
    ((chanS s ch).cmdFree = true → (chanS s ch).gen ≠ 0 → (chanS s ch).dbIrqEn = true → exec (.mbxDoorbell ch len) s = .next { s with
      mb := { s.mb with chans := modNth ch (fun c => { c with busy := true, pend := true, dbLen := len }) s.mb.chans, arrivals := s.mb.arrivals ++ [ch] },
      outs := .wirq 4 :: s.outs })) ∧
  (∀ (ch : Nat) (s : State), barOn s 0 = true → exec (.mbxRspAck ch) s = .next
    { s with mb := { s.mb with chans := modNth ch (fun c => { c with rspValid := false }) s.mb.chans } }) ∧
  (∀ (ch : Nat) (s : State), exec (.hmbClrrsp ch) s = .next
    { s with mb := { s.mb with chans := modNth ch (fun c => { c with rspValid := false }) s.mb.chans } }) ∧
  (∀ (ch : Nat) (s : State), (chanS s ch).move = none → exec (.hmbTake ch) s = .next
    { s with mb := { s.mb with chans := modNth ch (fun c => { c with move := some .take, mvDone := false, mvErr := false }) s.mb.chans } }) ∧
  (∀ (ch : Nat) (s : State), (chanS s ch).move.isSome = true → exec (.hmbTake ch) s = .next s) ∧
  (∀ (ch : Nat) (s : State), (chanS s ch).move = some .take → mvInside (chanS s ch) (chanS s ch).dbLen = false → exec (.hmbMoveDone ch) s = .next
    { s with mb := { s.mb with chans := modNth ch (fun c => { c with move := none, mvErr := true }) s.mb.chans } }) ∧
  (∀ (ch : Nat) (s : State), (chanS s ch).move = some .take → mvInside (chanS s ch) (chanS s ch).dbLen = true → fwWfw s = true →
    exec (.hmbMoveDone ch) s = .next (checkArrived hostDispatch 8 { s with
      wd := { s.wd with sram := cellPuts 0#8 ((chanS s ch).addr - 0x10000000) (cellGets 0#8 0 (chanS s ch).dbLen (chanS s ch).cmdBuf) s.wd.sram },
      mb := { s.mb with chans := modNth ch (fun c => { c with move := none, mvDone := true, pend := false, inSram := c.inSram || c.pend }) s.mb.chans } })) ∧
  (∀ (n ch : Nat) (r : List Nat) (s : State), s.mb.arrivals = ch :: r →
    ((chanS s ch).inSram = true → checkArrived hostDispatch (n + 1) s = checkArrived hostDispatch n (frameChecks hostDispatch ch
      { s with mb := { s.mb with arrivals := r, chans := modNth ch (fun c => { c with inSram := false }) s.mb.chans } })) ∧
    ((chanS s ch).inSram = false → checkArrived hostDispatch (n + 1) s = s)) ∧
  (∀ (ch : Nat) (s : State), (chanS s ch).move = some .post → exec (.hmbMoveDone ch) s = .next
    { s with mb := { s.mb with chans := modNth ch (fun c => { c with move := none, mvDone := true }) s.mb.chans } }) ∧
  (∀ (ch : Nat) (b : Bytes) (s : State), (chanS s ch).busy = true → (chanS s ch).move = none → hmbRaw (chanS s ch) s = some b → bit s.lg.mask 1 = false →
    let r := jobWinFill ch b { s with wd := { s.wd with sram := cellPuts 0#8 ((chanS s ch).addr - 0x10000000) b s.wd.sram },
                                      mb := { s.mb with arrivals := s.mb.arrivals.filter (· != ch) } }
    ((chanS s ch).reset = none →
      exec (.hmbPost ch) s = .next (if (chanS s ch).discard then modChan ch (Chan.freed b.length) r else hmbRespond ch b r)) ∧
    (∀ k, (chanS s ch).reset = some k → Runs (.hmbPost ch) s fun t =>
      WardenReset (if (chanS s ch).discard then modChan ch (Chan.freed b.length) r else hmbRespond ch b r) t ∧ t.wd.swcode = k ∧ t.wd.swrst = true)) ∧
  (∀ (ch : Nat) (s : State), (chanS s ch).busy = true → (chanS s ch).move = none → hmbRaw (chanS s ch) s = none →
    exec (.hmbPost ch) s = .next { s with mb := { s.mb with chans := modNth ch (fun c => { c with mvErr := true }) s.mb.chans } }) ∧
  (∀ (ch : Nat) (b : Bytes) (s : State), ch < s.mb.chans.length → (chanS s ch).irqEn = false → (chanS s ch).resetAfter = false →
    Runs (.hmbClrrsp ch) (hmbRespond ch b s) fun t => (chanS t ch).cmdFree = true ∧ (chanS t ch).rspBuf = b ∧ (chanS t ch).rspLen = b.length) ∧
  (∀ (ch c t : Nat) (f : Frame) (b : Bytes) (s : State), (chanS s ch).dupOf = some (c, t) → (chanS s ch).frame = some f → dupReply f.opcode f.tag c t s = some b →
    exec (.jobDuplicateRelease ch) s = .next { s with mb := { s.mb with chans := modNth ch (fun x => { x with dupOf := none, built := some b }) s.mb.chans } })

/-- Restart reload and the health check (R169, R189, R191). A reload that differs from the recorded image fails the unit; the
health check of an image not yet confirmed queues the known-answer entry, whose two verified signatures confirm it. Points the model
chooses: log entries 36, 70, 95. -/
def Obligations.RestartReloadAndHealthCheck : Prop :=
  (∀ (u : Nat) (x : LoadIn) (s : State) (i : Img), u < 18 → (s.pkg.st = .idle ∨ s.pkg.st = .active) → s.sq.busy = false → (unitS s u).ustate = .resetting →
    (unitS s u).awaitReady = false → (unitS s u).go = false → (if u < 8 then (unitS s u).inReset else (unitS s u).ctrlHeld) = false →
    let k := if u < 8 then 1 else 0
    readImg s s.boot.chosen (loadType k) = some i →
    (x.flashErr = false → imgCheck8 s s.boot.chosen (loadType k) = 0 → loadCode k x s ≠ 0 ∨ loadE k s ≠ some (imgE i) →
      exec (.unitRestartReload u x) s = .next (unitFail u (if u < 8 then 4 else 2) (loadCode k x s) (loadWrite k x [u] i s))) ∧
    (x.flashErr = true ∨ imgCheck8 s s.boot.chosen (loadType k) ≠ 0 →
      exec (.unitRestartReload u x) s = .next (unitFail u (if u < 8 then 4 else 2) (loadCode k x s) s))) ∧
  (∀ s : State, trialReady s = true → (s.pq.wait ++ s.pq.run.toList).any (fun e => e.purp == .health false || e.purp == .health true) = false →
    ((∀ u ∈ coreUnits s, unitUp s u = true ∧ (unitS s u).hbAge ≤ (unitS s u).hbLim) → s.ks.drbgOk = true →
      exec (.trialHealthCheck true) s = .next (pqAdd 1 (.health false) (signJobs s katMsg) s)) ∧
    (exec (.trialHealthCheck false) s = .next (trialFail s)) ∧
    (∀ ok, s.ks.drbgOk = false → exec (.trialHealthCheck ok) s = .next (trialFail s))) ∧
  (∀ s : State, trialReady s = true → (∀ ec ml, healthDone true 0 ec ml true s = flashSync (.selector s.boot.chosen (if s.upd.status = 5 then 1 else 2) false) s)
    ∧ ∀ ec ml, healthDone true 0 ec ml false s = trialFail s) ∧
  (∀ (ok : Bool) (s : State), s.upd.awaitCommit = false → exec (.trialHealthCheck ok) s = .next s)

/-- Admission of a mailbox command (R54, R152, R254, R255), and how its response is laid out (R223, R232, R244, R245). Points the model
chooses: log entries 82. -/
def Obligations.HostCommandsAnswerTheirFirstFailingCheck : Prop :=
  (∀ (i : Instr) (op : Nat) (c : HostCall) (s : State) (st : Nat), hostOp i = some (op, c) → admission op c.sealed c.payload s = some st →
    exec i s = .next (buildRsp c op 0 st [] s)) ∧
  (∀ (op : Nat) (b : Bool) (p : Bytes) (s : State), opKnown op = true →
    (sealNeeded op p s = true → admission op false p s = some 0x0207) ∧
    (sealNeeded op p s = false → groupOk op p s.pkg.st = false → awaits op p s.pkg.st = true → admission op b p s = some 0x0100) ∧
    (sealNeeded op p s = false → groupOk op p s.pkg.st = false → awaits op p s.pkg.st = false → admission op b p s = some 0x0300)) ∧
  (∀ (op : Nat) (p : Bytes) (st : PState), st ∈ [.idle, .active, .quarantine, .recovery] → awaits op p st = false) ∧
  (∀ (op : Nat) (b : Bool) (p : Bytes) (s : State), opKnown op = false → admission op b p s = some 0x0205) ∧
  (∀ (c : HostCall) (op w st d : Nat) (body : Bytes) (s : State), c.ch < 8 → c.sealed = false → namesStage op = false → (chanS s c.ch).discard = false →
    let p := toLe 2 st ++ toLe 2 d ++ toLe 4 w ++ (if st = 0 then body else body ++ List.replicate (bodyLen op - body.length) 0#8)
    (p.length ≤ 224 → answer c op w st d body s = modChan c.ch (fun x => { x with built := some (rspFrame op 0 c.tag st p) }) s) ∧
    (224 < p.length → let h := toLe 4 c.tag ++ toLe 4 p.length ++ (Config.sha384 p).take 8
      answer c op w st d body s = modChan c.ch (fun x => { x with objs := x.objs ++ [(c.tag, p)], ref := some c.tag, built := some (rspFrame op 4 c.tag st h) }) s))

/-- The base group of commands (R44, R206, R207, R232, R233, R237, R250). Points the model
chooses: log entries 46, 47, 82, 83, 85. -/
def Obligations.BaseGroupCommands : Prop :=
  (∀ (c : HostCall) (s : State), Admitted 0x000 c s → c.payload = [] → exec (.featureOffer c) s = .next (replied 0x000 c s (toLe 16 s.hb.offer) s)) ∧
  (∀ (c : HostCall) (s : State), Admitted 0x001 c s → c.payload.length = 16 →
    let m := field c.payload 0 16
    (m &&& s.hb.offer ≠ m → exec (.featureAccept c) s = .next (failed 0x001 c s 0x0301 0 s)) ∧
    (m &&& s.hb.offer = m → m ≠ s.hb.accept → s.pkg.st = .idle →
      exec (.featureAccept c) s = .next (replied 0x001 c s (toLe 16 m) (extendMode { s with hb := { s.hb with accept := m } }))) ∧
    (m = s.hb.accept → m &&& s.hb.offer = m → exec (.featureAccept c) s = .next (replied 0x001 c s (toLe 16 m) s)) ∧
    (m &&& s.hb.offer = m → m ≠ s.hb.accept → s.pkg.st ≠ .idle → exec (.featureAccept c) s = .next (failed 0x001 c s 0x0300 0 s))) ∧
  (∀ (c : HostCall) (s : State), Admitted 0x002 c s →
    (c.payload = [2, 0, 0, 0] → feat s 1 = true → s.pkg.mode ≠ .opened →
      exec (.modeSet c) s = .next (replied 0x002 c s (toLe 1 2 ++ toLe 3 0 ++ toLe 16 (modeChange .opened s).hb.offer) (modeChange .opened s))) ∧
    (c.payload = [2, 0, 0, 0] → feat s 1 = true → s.pkg.mode = .opened →
      exec (.modeSet c) s = .next (replied 0x002 c s (toLe 1 2 ++ toLe 3 0 ++ toLe 16 s.hb.offer) s)) ∧
    (c.payload = [2, 0, 0, 0] → feat s 1 = false → exec (.modeSet c) s = .next (failed 0x002 c s 0x0301 0 s)) ∧
    (c.payload = [1, 0, 0, 0] → s.otp.lc = 2 → s.pkg.mode ≠ .confidential →
      exec (.modeSet c) s = .next (replied 0x002 c s (toLe 1 1 ++ toLe 3 0 ++ toLe 16 (modeChange .confidential s).hb.offer) (modeChange .confidential s))) ∧
    (c.payload = [1, 0, 0, 0] → s.otp.lc ≠ 2 → exec (.modeSet c) s = .next (failed 0x002 c s 0x0302 0 s)) ∧
    (c.payload = [1, 0, 0, 0] → s.otp.lc = 2 → s.pkg.mode = .confidential →
      exec (.modeSet c) s = .next (replied 0x002 c s (toLe 1 1 ++ toLe 3 0 ++ toLe 16 s.hb.offer) s))) ∧
  (∀ (c : HostCall) (n : Nat) (s : State), Admitted 0x003 c s → c.payload = [BitVec.ofNat 8 n, 0, 0, 0] → n < 8 →
    (n = c.ch → exec (.channelReset c) s = .next (replied 0x003 c s
      (toLe 1 n ++ toLe 1 (if (chanS s n).gen = 255 then 1 else (chanS s n).gen + 1) ++ toLe 2 0) (modChan n (fun x => { x with resetAfter := true }) s))) ∧
    (n ≠ c.ch → (chanS s n).busy = true → exec (.channelReset c) s = .next (failed 0x003 c s 0x0100 0 s)) ∧
    (n ≠ c.ch → (chanS s n).busy = false → s.mb.stageOwner ≠ some n → exec (.channelReset c) s = .next (replied 0x003 c s
      (toLe 1 n ++ toLe 1 (if (chanS s n).gen = 255 then 1 else (chanS s n).gen + 1) ++ toLe 2 0)
      (modChan n (fun x => { x with gen := if x.gen = 255 then 1 else x.gen + 1, win := [], floor := 0, objs := [], rspValid := false }) s)))) ∧
  (∀ (c : HostCall) (s : State) (o : Bytes), Admitted 0x004 c s → c.payload.length = 16 → allZero (slice c.payload 12 4) = true →
    field c.payload 8 4 ≠ 0 → field c.payload 8 4 ≤ (if c.sealed then 4034 else 4064) → lookupNat (field c.payload 0 4) (chanS s c.ch).objs = some o →
    (field c.payload 4 4 + field c.payload 8 4 ≤ o.length →
      exec (.resultRead c) s = .next (buildRsp c 4 0 0 (slice o (field c.payload 4 4) (field c.payload 8 4))
        (modChan c.ch (fun x => { x with ref := some (field c.payload 0 4) }) s))) ∧
    (o.length < field c.payload 4 4 + field c.payload 8 4 → exec (.resultRead c) s = .next (answer c 4 (stateWord s) 0x0200 0 [] s))) ∧
  (∀ (c : HostCall) (s : State), Admitted 0x005 c s → c.payload.length = 8 → allZero (slice c.payload 4 4) = true →
    exec (.resultRelease c) s = .next (replied 0x005 c s [] (modChan c.ch (fun x => { x with objs := dropKey (field c.payload 0 4) x.objs }) s))) ∧
  (∀ (c : HostCall) (s : State), Admitted 0x006 c s → c.ch < 8 → 9 ≤ c.payload.length → c.payload.length ≤ 4064 → allZero (slice c.payload 4 4) = true →
    field c.payload 0 4 + (c.payload.length - 8) ≤ 32768 →
    let n := field c.payload 0 4 + (c.payload.length - 8)
    ((∃ o, o ≠ c.ch ∧ s.mb.stageOwner = some o) → exec (.stagePut c) s = .next (failed 0x006 c s 0x0100 0 s)) ∧
    (s.mb.stageOwner = none ∨ s.mb.stageOwner = some c.ch → exec (.stagePut c) s = .next (replied 0x006 c s (toLe 4 (max s.mb.stageHigh n) ++ toLe 4 0)
      { s with mb := { s.mb with stage := cellPuts 0#8 (field c.payload 0 4) (c.payload.drop 8) s.mb.stage, stageHigh := max s.mb.stageHigh n, stageOwner := some c.ch } }))) ∧
  (∀ (c : HostCall) (s : State), Admitted 0x007 c s → c.ch < 8 → c.payload = [] →
    (s.mb.stageOwner = some c.ch → exec (.stageClear c) s = .next (replied 0x007 c s [] { s with mb := { s.mb with stage := [], stageHigh := 0, stageOwner := none } })) ∧
    (s.mb.stageOwner = none → exec (.stageClear c) s = .next (replied 0x007 c s [] s)) ∧
    ((∃ o, o ≠ c.ch ∧ s.mb.stageOwner = some o) → exec (.stageClear c) s = .next (failed 0x007 c s 0x0100 0 s)))

/-- Attestation and roster reads (R259, R260, R296, R298, R304, R306, R328, R329). Points the model
chooses: log entries 2, 21. -/
def Obligations.AttestationAndRosterReads : Prop :=
  (∀ (c : HostCall) (s : State), Admitted 0x100 c s → c.payload.length = 36 → field c.payload 32 1 < 2 → allZero (slice c.payload 34 2) = true →
    let n := s.idn.serial + 1
    let t := { s with idn := { s.idn with serial := n } }
    (field c.payload 33 1 = 1 → field c.payload 32 1 = 0 → exec (.attReport c) s = .next (replied 0x100 c s
      (reportBody n (breason true s) ([0xD9#8, 0x02#8, 0x59#8] ++ claims (slice c.payload 0 32) n (breason true s) t)) t)) ∧
    (field c.payload 33 1 = 1 → field c.payload 32 1 = 1 →
      let mr := measRecord (claimRecord (slice c.payload 0 32) n (breason true s) true false t) t
      exec (.attReport c) s = .next (replied 0x100 c s (reportBody n (breason true s) (toLe 4 mr.length ++ mr)) t)) ∧
    (field c.payload 33 1 = 0 → field c.payload 32 1 = 1 →
      let mr := measRecord (claimRecord (slice c.payload 0 32) n (breason false s) false (feat s 3) t) t
      exec (.attReport c) s = .next (pqAdd 1 (.report c (stateWord s) n 1 (feat s 3) (toLe 4 mr.length ++ mr) (if breason false s = 0 then some (bindNow n t) else none))
        (signJobs t (toLe 4 mr.length ++ mr)) t)) ∧
    (field c.payload 33 1 = 0 → field c.payload 32 1 = 0 →
      let cl := claims (slice c.payload 0 32) n (breason false s) t
      exec (.attReport c) s = .next (pqAdd 1 (.report c (stateWord s) n 0 (feat s 3) cl (if breason false s = 0 then some (bindNow n t) else none))
        [⟨0x12, [Config.sha384 (toBeSigned (ecProt s) cl)], some 1, none, 0⟩, ⟨0x24, [mldsaMu (identPk s) (toBeSigned (mlProt s) cl)], some 2, none, 0⟩] t))) ∧
  (∀ (c : HostCall) (s : State) (w : Nat), Admitted 0x101 c s → c.payload = [BitVec.ofNat 8 w, 0, 0, 0] → w < 2 → (w = 1 → feat s 3 = true) →
    ¬ (s.pkg.st = .quarantine ∧ s.pkg.qcause = 1) →
    (certOf w s = none → exec (.attCerts c) s = .next (failed 0x101 c s 0x0501 0 s)) ∧
    (∀ d, certOf w s = some d → exec (.attCerts c) s = .next (replied 0x101 c s (toLe 4 d.length ++ toLe 4 0 ++ d) s))) ∧
  (∀ (c : HostCall) (s : State), Admitted 0x102 c s → c.payload.length = 16 → field c.payload 0 1 < 32 → allZero (slice c.payload 1 3) = true →
    allZero (slice c.payload 12 4) = true → 1 ≤ field c.payload 8 4 → field c.payload 8 4 ≤ 60 →
    let es := (((s.ms.logP ++ s.ms.logT).filter (fun e => e.slot == field c.payload 0 1)).drop (field c.payload 4 4)).take (field c.payload 8 4)
    ((nth {} s.ms.slots (field c.payload 0 1)).count < field c.payload 4 4 → exec (.attMeasLog c) s = .next (failed 0x102 c s 0x0501 0 s)) ∧
    (field c.payload 4 4 ≤ (nth {} s.ms.slots (field c.payload 0 1)).count → exec (.attMeasLog c) s = .next (replied 0x102 c s
      (toLe 4 es.length ++ toLe 4 0 ++ es.flatMap mlogBytes) s))) ∧
  (∀ (c : HostCall) (s : State), Admitted 0x103 c s → c.payload = [] →
    (∀ k q, s.idn.eph = some (k, q) → exec (.attEphemeral c) s = .next (replied 0x103 c s (k ++ q) s)) ∧
    (s.idn.eph = none → s.ks.drbgOk = true → (slotS s 58).empty = true → (slotS s 59).empty = true → s.ks.slots.length = 64 →
      exec (.attEphemeral c) s = .next (pqAdd 1 (.ephemeral c (stateWord s) []) [⟨0x20, [], some 58, none, 0⟩]
        { slotIs 59 (committed (Config.draw (s.draws + 1) 64) 3 16 false) (slotIs 58 (committed (Config.draw s.draws 64) 3 16 false) s) with draws := s.draws + 2 }))) ∧
  (∀ (c : HostCall) (s : State), Admitted 0x205 c s → c.payload.length = 8 →
    let ix := if field c.payload 0 8 = 0 then residentIx s else tidIx (field c.payload 0 8) s
    (ix = none → exec (.tenantStatus c) s = .next (failed 0x205 c s 0x0501 0 s)) ∧
    (∀ i r, ix = some i → recS s i = some r → exec (.tenantStatus c) s = .next (replied 0x205 c s
      (toLe 2 i ++ toLe 1 r.state.code ++ [0#8] ++ toLe 8 (if r.state == .resident then epochOf s else r.lastEpoch) ++ toLe 4 r.switches) s))) ∧
  (∀ (c : HostCall) (s : State), Admitted 0x206 c s → c.payload.length = 8 → 1 ≤ field c.payload 2 2 → field c.payload 2 2 ≤ 256 → allZero (slice c.payload 4 4) = true →
    let l := ((List.zipIdx s.tn.ro.recs).drop (field c.payload 0 2)).take (field c.payload 2 2)
    exec (.tenantList c) s = .next (replied 0x206 c s
      (toLe 4 l.length ++ toLe 4 0 ++ l.flatMap (fun e => toLe 8 e.1.tid ++ (toLe 2 e.2 ++ toLe 1 e.1.state.code) ++ toLe 5 0)) s)) ∧
  (∀ (c : HostCall) (s : State), Admitted 0x207 c s → c.payload.length = 8 → field c.payload 0 8 ≠ 0 →
    ((s.tn.ring ++ s.tn.pend).find? (fun r => r.serial == field c.payload 0 8) = none → exec (.tenantClearReceipt c) s = .next (failed 0x207 c s 0x0501 0 s)) ∧
    (∀ r, (s.tn.ring ++ s.tn.pend).find? (fun r => r.serial == field c.payload 0 8) = some r →
      exec (.tenantClearReceipt c) s = .next (replied 0x207 c s (if feat s 3 then r.obj else r.obj.take 372) s))) ∧
  (∀ (c : HostCall) (s : State) (r : ClearRcpt), Admitted 0x207 c s → c.payload.length = 8 → field c.payload 0 8 = 0 → (s.tn.ring ++ s.tn.pend).getLast? = some r →
    exec (.tenantClearReceipt c) s = .next (replied 0x207 c s (if feat s 3 then r.obj else r.obj.take 372) s))

/-- Roster changes and the flash writes they wait for (R260, R316, R317, R320 to R323). Points the model
chooses: log entries 8, 36, 82, 88. -/
def Obligations.RosterChangesCommitInFlash : Prop :=
  (∀ (c : HostCall) (s : State), Admitted 0x200 c s → c.ch < 8 → c.payload.length = 32 → stageOk c 8 s = true → allZero (slice c.payload 12 4) = true →
    let b := stageBytes c s
    let r : TRec := ⟨field c.payload 0 8, .enrolled, 0, 0, slice b 24 64, slice b 88 96, slice b 184 2592⟩
    (stmtOk b 1 (field c.payload 0 8) = false → exec (.tenantEnroll c) s = .next (failed 0x200 c s 0x0200 1 s)) ∧
    (stmtOk b 1 (field c.payload 0 8) = true → s.tn.ro.hdr = .committed → (tidIx (field c.payload 0 8) s).isSome = true →
      exec (.tenantEnroll c) s = .next (failed 0x200 c s 0x0502 2 s)) ∧
    (stmtOk b 1 (field c.payload 0 8) = true → s.tn.ro.hdr = .committed → tidIx (field c.payload 0 8) s = none → s.tn.ro.recs.length < 1024 →
      slice b 16 8 = mfgId s → rosterBusy s = false → exec (.tenantEnroll c) s = .next (pqAdd 2 (.enroll c (stateWord s) r)
        (verifyJobs r.tpkEc r.tpkMl (b.take 2776) (slice b 2776 96) (slice b 2872 4627)) s))) ∧
  (∀ (c : HostCall) (i : Nat) (r : TRec) (s : State), Admitted 0x201 c s → c.payload.length = 8 → tidIx (field c.payload 0 8) s = some i → recS s i = some r →
    (r.state = .revoked → exec (.tenantStage c) s = .next (failed 0x201 c s 0x0405 0 s)) ∧
    (r.state = .resident → exec (.tenantStage c) s = .next (failed 0x201 c s 0x0300 0 s)) ∧
    (r.state = .staged → exec (.tenantStage c) s = .next (replied 0x201 c s (toLe 2 i ++ toLe 1 2 ++ toLe 5 0) s)) ∧
    (r.state = .enrolled ∨ r.state = .evicted → s.tn.ro.hdr = .committed → policyFits r.policy s = false → exec (.tenantStage c) s = .next (failed 0x201 c s 0x0401 0 s)) ∧
    (r.state = .enrolled ∨ r.state = .evicted → s.tn.ro.hdr = .committed → policyFits r.policy s = true → rosterBusy s = false →
      exec (.tenantStage c) s = .next { s with fq := { s.fq with sync := some (.stage c (stateWord s) i) } })) ∧
  (∀ (c : HostCall) (i : Nat) (r : TRec) (s : State), Admitted 0x204 c s → c.ch < 8 → c.payload.length = 32 → stageOk c 8 s = true → allZero (slice c.payload 12 4) = true →
    let b := stageBytes c s
    stmtOk b 2 (field c.payload 0 8) = true → tidIx (field c.payload 0 8) s = some i → recS s i = some r → r.state ≠ .revoked → s.tn.ro.hdr = .committed →
    slice b 16 8 = mfgId s → rosterBusy s = false →
    exec (.tenantRevoke c) s = .next (pqAdd 2 (.revoke c (stateWord s) i (slice b 88 96 == r.tpkEc && slice b 184 2592 == r.tpkMl))
      (verifyJobs r.tpkEc r.tpkMl (b.take 2776) (slice b 2776 96) (slice b 2872 4627)) s)) ∧
  (∀ (c : HostCall) (i : Nat) (r : TRec) (s : State), Admitted 0x204 c s → c.payload.length = 32 → stageOk c 8 s = true → allZero (slice c.payload 12 4) = true →
    stmtOk (stageBytes c s) 2 (field c.payload 0 8) = true → tidIx (field c.payload 0 8) s = some i → recS s i = some r → r.state = .revoked →
    exec (.tenantRevoke c) s = .next (replied 0x204 c s (toLe 2 i ++ toLe 1 5 ++ toLe 5 0) s)) ∧
  (∀ (c : HostCall) (w i : Nat) (s : State), s.fq.sync = some (.stage c w i) → s.fq.q = [] →
    let a := irq 10 { s with fq := { s.fq with sync := none, bad := false } }
    (∀ ok, ok = false ∨ s.fq.bad = true ∨ slotServes (slotS s 6) 2 = false →
      exec (.spiFlashOpDone ok) s = .next (flashNext (answer c 0x201 w 0x0602 0 [] (sealFail i 2816 a)))) ∧
    (∀ r, s.fq.bad = false → slotServes (slotS s 6) 2 = true → recS s i = some r →
      exec (.spiFlashOpDone true) s = .next (flashNext (answer c 0x201 w 0 0 (toLe 2 i ++ toLe 1 2 ++ toLe 5 0) (recCommit i { r with state := .staged }
        { a with tn := { a.tn with ro := { a.tn.ro with recs := modNth i (fun r => { r with state := .staged }) s.tn.ro.recs } } }))))) ∧
  (∀ (i : Nat) (pt : Bytes) (s : State), lookupNat i (sealWrite i pt s).tn.gens = some (sealNext i s)) ∧
  (∀ (ok : Bool) (s : State), s.fq.busy = false → exec (.flashWriteDone ok) s = .next s) ∧
  (∀ (j : FJob) (q : List FJob) (s : State), s.fq.busy = true → s.fq.q = j :: q →
    (jobSealed j = true → s.fq.bad = false → slotServes (slotS s 6) 2 = true →
      exec (.flashWriteDone true) s = .next (flashNext (flashCommit j { s with fq := { s.fq with q := q, bad := false } }))) ∧
    (jobSealed j = false → ∀ ok, exec (.flashWriteDone ok) s = .next (flashNext (if ok then flashCommit j { s with fq := { s.fq with q := q } }
      else flashFailed j { s with fq := { s.fq with q := q } }))) ∧
    (jobSealed j = true → ∀ ok, ok = false ∨ s.fq.bad = true ∨ slotServes (slotS s 6) 2 = false →
      exec (.flashWriteDone ok) s = .next (flashNext (flashFailed j { s with fq := { s.fq with q := q, bad := false } })))) ∧
  (∀ (c : HostCall) (i : Nat) (r : TRec) (s : State), Admitted 0x202 c s → c.payload.length = 8 → tidIx (field c.payload 0 8) s = some i → recS s i = some r →
    ((s.pkg.st ≠ .idle ∨ r.state ≠ .staged) → exec (.tenantLoad c) s = .next (failed 0x202 c s 0x0300 0 s)) ∧
    (∀ st, s.pkg.st = .idle → r.state = .staged → loadCheck r s = some st → exec (.tenantLoad c) s = .next (failed 0x202 c s st 0 s)) ∧
    (s.pkg.st = .idle → r.state = .staged → loadCheck r s = none → let t := loadStart i s
      exec (.tenantLoad c) s = .next (answer c 0x202 (stateWord t) 0 0 (toLe 2 i ++ toLe 1 2 ++ [0#8] ++ toLe 8 (epochOf t)) t))) ∧
  (∀ (c : HostCall) (i : Nat) (r : TRec) (s : State), Admitted 0x203 c s → c.payload.length = 8 → residentIx s = some i → recS s i = some r → s.pkg.st = .active →
    (r.tid ≠ field c.payload 0 8 → exec (.tenantEvict c) s = .next (failed 0x203 c s 0x0501 0 s)) ∧
    (r.tid = field c.payload 0 8 → let t := startSwitch 1 s
      exec (.tenantEvict c) s = .next (answer c 0x203 (stateWord t) 0 0 (toLe 2 i ++ toLe 1 3 ++ [0#8] ++ toLe 8 (epochOf s)) t)))

/-- Loading a tenant, and the first phases of a switch (R323, R325, R381). Points the model
chooses: log entries 20, 48, 81. -/
def Obligations.LoadingAcknowledgementsAndSwitchHalt : Prop :=
  (∀ (t : Nat) (p : Bytes) (s : State), unitTakes s t 0x8001 = some p →
    let keep := (tileJ s t).restoring && s.pkg.st != .loading
    exec (.tileEnter t) s = .next (unitDone t 0x8001 [] s { tookCmd t s with
      jb := { s.jb with tiles := modNth t (fun x => { x with epoch := field p 0 8, queue := [], store := if keep then x.store else [], eligible := false, restoring := keep }) s.jb.tiles } })) ∧
  (∀ (u : Nat) (p : Bytes) (s : State), unitTakes s u 0x8101 = some p →
    (s.pkg.st = .loading → s.tn.ld.phase = .entry → exec (.portEnter u) s = .next (unitDone u 0x8101 [] s { tookCmd u s with
      px := modNth (ordOfUnit s u) (fun x => { x with epoch := field p 0 8, streams := [], recst := [] }) s.px })) ∧
    (s.pkg.st ≠ .loading → exec (.portEnter u) s = .next (unitDone u 0x8101 [] s { tookCmd u s with
      px := modNth (ordOfUnit s u) (fun x => { x with epoch := field p 0 8 }) s.px }))) ∧
  (∀ (t : Nat) (pass : Bool) (p : Bytes) (s : State), unitTakes s t 0x8005 = some p →
    exec (.selftest t pass) s = .next (unitDone t 0x8005 [if pass then 1#8 else 0#8, BitVec.ofNat 8 (Config.freeNat s.draws)] s { tookCmd t s with draws := s.draws + 1 })) ∧
  (∀ (t : Nat) (p : Bytes) (s : State), unitTakes s t 0x8006 = some p →
    exec (.tileStatus t) s = .next (unitDone t 0x8006 (tileView t (tookCmd t s)) s (tookCmd t s))) ∧
  (∀ (u op : Nat) (r : Bytes) (s t : State), unitUp t u = true → (unitS t u).rspValid = true →
    unitPosts u op r s t = modUnit u (fun x => { x with held := x.held ++ [(BitVec.ofNat 8 (unitS s u).gen.toNat,
      (unitFrame op (field (unitS s u).inbox 4 4) (unitS s u).gen.toNat r).take 896)] }) t) ∧
  (∀ (u : Nat) (f : Bytes) (s : State), s.wd.fw = .wfw → (unitS s u).cmdOut = some (field f 4 4) → field f 4 4 ≠ 0 →
    field f 0 2 ≠ 0x8006 → field f 0 2 ≠ 0x8104 →
    imbHandle u (unitS s u).gen.toNat f s = unitPump u (viewCheck u none 1 (respHandle u (field f 0 2) ((unitS s u).inbox.drop 32) (f.drop 32)
      (modUnit u (fun x => { x with cmdOut := none }) s)))) ∧
  (∀ (u v : Nat) (r : List Nat) (s : State), s.pkg.st = .loading → s.tn.ld.phase = .entry → unitEntered u s = true → u ∈ s.tn.ld.waiting →
    (s.tn.ld.waiting.filter (· != u) = v :: r → exec (.loadingUnitAck u) s = .next { s with tn := { s.tn with ld := { s.tn.ld with waiting := v :: r } } }) ∧
    (s.tn.ld.waiting.filter (· != u) = [] → exec (.loadingUnitAck u) s = .next (loadKeys { s with tn := { s.tn with ld := { s.tn.ld with waiting := [] } } }))) ∧
  (∀ (u : Nat) (s : State), u ∉ s.tn.ld.waiting → exec (.loadingUnitAck u) s = .next s) ∧
  (∀ (u : Nat) (r : List Nat) (s : State), s.pkg.st = .loading → s.tn.ld.waiting = u :: r →
    (s.tn.ld.phase = .entry → exec .loadingAckTimeout s = .next (startSwitch 4 (logEvent 0x0403 u (toLe 1 1 ++ toLe 1 u ++ toLe 2 0x0600) s))) ∧
    (s.tn.ld.phase = .selftest → exec .loadingAckTimeout s = .next (startSwitch 4 (logEvent 0x0403 u (toLe 1 3 ++ toLe 1 u ++ toLe 2 0x0600) s)))) ∧
  (∀ (t : Nat) (q p : Bytes) (s : State), s.pkg.st = .loading → s.tn.ld.phase = .selftest → t ∈ s.tn.ld.waiting →
    (field p 0 1 = 1 → respHandle t 0x8005 q p s = { s with tn := { s.tn with ld := { s.tn.ld with waiting := s.tn.ld.waiting.filter (· != t) } } }) ∧
    (field p 0 1 ≠ 1 → respHandle t 0x8005 q p s = startSwitch 4 (logEvent 0x0403 t (toLe 1 3 ++ toLe 1 t ++ toLe 2 0x0404) s))) ∧
  (∀ (t : Nat) (q p : Bytes) (s : State), s.pkg.st ≠ .loading → (tileJ s t).restoring = true → (tileJ s t).epoch = epochOf s →
    (∀ x ∈ s.jb.progs, x.phandle ∈ (tileJ s t).store) →
    respHandle t 0x8001 q p s = unitCmd t 0x8005 [] s ∧
    (field p 0 1 = 1 → respHandle t 0x8005 q p s = { s with jb := { s.jb with tiles := modNth t (fun x => { x with restoring := false, eligible := s.pkg.st == .active }) s.jb.tiles } }) ∧
    (field p 0 1 ≠ 1 → respHandle t 0x8005 q p s = unitFail t 6 0x0404 s)) ∧
  (∀ s : State, s.pkg.st = .loading → s.tn.ld.phase = .selftest → s.tn.ld.waiting = [] → exec .loadingSelftestPass s = .next (setState .active 0
    { s with tn := { s.tn with ld := { s.tn.ld with phase := .none } }, jb := { s.jb with tiles := s.jb.tiles.map (fun t => { t with eligible := true }) } })) ∧
  (∀ s : State, s.tn.sw.phase = .halt → s.rc.cur = none → s.rc.waiting = none → s.rc.signing = none →
    let t := switchKeys { s with
      xl := { s.xl with asts := s.xl.asts.map (fun a => { a with held := [] }) }, rc := { s.rc with held := [] },
      tn := { s.tn with sw := { s.tn.sw with phase := .batch } } }
    exec .switchHaltTimeout s = .next t ∧ (drained s = true → exec .switchHaltDone s = .next t)) ∧
  (∀ (b : Batch) (s : State), s.tn.sw.phase = .halt → s.rc.cur = some b → s.rc.waiting = none → drained s = true →
    exec .switchHaltDone s = .next (switchBatches (closeBatch 5 .batch { s with
      xl := { s.xl with asts := s.xl.asts.map (fun a => { a with held := [] }) }, rc := { s.rc with held := [] },
      tn := { s.tn with sw := { s.tn.sw with phase := .batch, closed := true, lastBatch := batchNum s, batchRoot := mthClose b.stack } } }))) ∧
  (∀ s : State, drained s = false → exec .switchHaltDone s = .next s)

/-- Programs: loading, installing, copying (R374, R381). Points the model
chooses: log entries 20, 45, 91. -/
def Obligations.ProgramsLoadInstallAndCopy : Prop :=
  (∀ (c : HostCall) (s : State), Admitted 0x400 c s → c.payload.length = 64 → allZero (slice c.payload 1 3) = true →
    (∀ x, s.jb.progs.find? (fun x => x.dig == slice c.payload 16 48) = some x →
      exec (.progLoad c) s = .next (replied 0x400 c s (toLe 4 x.phandle ++ toLe 4 0 ++ slice c.payload 16 48) s)) ∧
    (s.jb.progs.find? (fun x => x.dig == slice c.payload 16 48) = none →
      (64 ≤ s.jb.progs.length → exec (.progLoad c) s = .next (failed 0x400 c s 0x0503 0 s)) ∧
      (s.jb.progs.length < 64 → field c.payload 4 4 < 128 → exec (.progLoad c) s = .next (failed 0x400 c s 0x0200 0 s)) ∧
      (s.jb.progs.length < 64 → 128 ≤ field c.payload 4 4 → field c.payload 4 4 ≤ 65536 → (astS s (field c.payload 0 1)).isSome = true →
        exec (.progLoad c) s = .next (walkStart (field c.payload 0 1) ((rangePages (field c.payload 8 8) (field c.payload 4 4)).map (·, false)) (.prog c) s)))) ∧
  (∀ (t ph : Nat) (p : Bytes) (s : State), unitTakes s t 0x8002 = some p → field p 0 4 = ph →
    exec (.progInstall t ph) s = .next (unitDone t 0x8002 (slice p 8 48) s { tookCmd t s with
      jb := { s.jb with tiles := modNth t (fun j => { j with store := if ph ∈ j.store then j.store else j.store ++ [ph] }) s.jb.tiles } })) ∧
  (∀ (t ph word d e : Nat) (c : HostCall) (x : Prog) (q p : Bytes) (s : State), t < 8 → s.jb.progs.find? (fun x => x.phandle == ph) = some x →
    s.uw = [⟨1000, 0x8002, some (c, word), ph, d⟩, ⟨t, 0x8002, none, ph, e⟩] → field q 0 4 = ph →
    respHandle t 0x8002 q p s = answer c 0x400 word 0 0 (toLe 4 ph ++ toLe 4 0 ++ x.dig) { s with uw := [] }) ∧
  (∀ (t k ph word d e g : Nat) (c : HostCall) (q p : Bytes) (s : State), t < 8 → k < 8 → k ≠ t →
    s.uw = [⟨1000, 0x8002, some (c, word), ph, d⟩, ⟨t, 0x8002, none, ph, e⟩, ⟨k, 0x8002, none, ph, g⟩] → field q 0 4 = ph →
    respHandle t 0x8002 q p s = { s with uw := [⟨1000, 0x8002, some (c, word), ph, d⟩, ⟨k, 0x8002, none, ph, g⟩] }) ∧
  (∀ (src t ph : Nat) (p : Bytes) (s : State), unitTakes s src 0x8007 = some p → field p 0 1 = t → field p 4 4 = ph →
    (tileJ s t).restoring = true → s.jb.progs.any (fun p => p.phandle == ph) = true →
    exec (.progCopy src t ph true) s = .next (unitDone src 0x8007 [] s { tookCmd src s with
      jb := { s.jb with tiles := modNth t (fun j => { j with store := if ph ∈ j.store then j.store else j.store ++ [ph] }) s.jb.tiles } }) ∧
    exec (.progCopy src t ph false) s = .next (unitDone src 0x8007 [] s (unitFail t 5 0x0404 (tookCmd src s)))) ∧
  (∀ (src t : Nat) (q p : Bytes) (s : State), field q 0 1 = t →
    (tileRestored t s = true → respHandle src 0x8007 q p s = unitCmd t 0x8001 (toLe 8 (epochOf s)) (trace 13 t 6 (unitS s t).gen.toNat s)) ∧
    (tileRestored t s = false → respHandle src 0x8007 q p s = s))

/-- The life of a job (R262, R373, R375 to R379). Points the model
chooses: log entries 1, 41, 42, 81. -/
def Obligations.JobsSubmitQueueRunAndEnd : Prop :=
  (∀ (c : HostCall) (s : State), Admitted 0x401 c s → c.payload.length = 96 →
    (astS s (field c.payload 12 1) = none → exec (.jobSubmit c) s = .next (failed 0x401 c s 0x0200 0 s)) ∧
    (∀ a, astS s (field c.payload 12 1) = some a → field c.payload 0 8 = 0 → exec (.jobSubmit c) s = .next (failed 0x401 c s 0x0200 0 s)) ∧
    (∀ a g, astS s (field c.payload 12 1) = some a → field c.payload 0 8 ≠ 0 → field c.payload 13 1 = 0 → field c.payload 15 1 = 0 →
      field c.payload 24 8 ≠ 0 → field c.payload 40 8 ≠ 0 → s.jb.progs.find? (fun x => x.phandle == field c.payload 8 4) = some g →
      g.wsmin ≤ field c.payload 56 8 → allZero g.wroot = true → field c.payload 14 1 ≠ 0 → groupAligned g.ntiles (field c.payload 14 1) = true →
      (∀ t < 8, (unitS s t).ustate = .up) → (s.jb.list.filter (fun j => j.st.live)).length < 1024 → (∀ t < 8, queuedOn s t < 128) →
      Runs (.jobSubmit c) s fun r => ∃ j : Job, r = walkStart (field c.payload 12 1) (jobWalkPages j) (.submit (field c.payload 0 8) c)
          { s with draws := s.draws + 1, jb := { s.jb with list := s.jb.list.filter (fun x => x.id != field c.payload 0 8) ++ [j] } } ∧
        j.id = field c.payload 0 8 ∧ j.ast = field c.payload 12 1 ∧ j.tiles = field c.payload 14 1 ∧ j.st = .parked ∧ j.phandle = g.phandle ∧ j.receipt = false ∧
        j.inVa = field c.payload 16 8 ∧ j.inLen = field c.payload 24 8 ∧ j.outVa = field c.payload 32 8 ∧ j.outLen = field c.payload 40 8 ∧ j.die = a.die)) ∧
  (∀ (t jid : Nat) (j : Job) (p : Bytes) (s : State), unitTakes s t 0x8003 = some p → field p 8 8 = jid → field p 0 8 = j.order →
    jobS s jid = some j → j.st = .queued → bit j.tiles t = true →
    let r : State := { tookCmd t s with jb := { s.jb with tiles := modNth t (fun x =>
      let q := x.queue.filter (fun q => q.2 != jid)
      { x with queue := q.filter (fun e => decide (e.1 < j.order)) ++ [(j.order, jid)] ++ q.filter (fun e => decide (j.order < e.1)) }) s.jb.tiles } }
    exec (.jobEnqueue t jid) s = .next (unitDone t 0x8003 (toLe 4 (queuePos t jid r)) s r)) ∧
  (∀ (t jid w d : Nat) (c : HostCall) (j : Job) (q p : Bytes) (s : State), s.uw = [⟨t, 0x8003, some (c, w), jid, d⟩] → jobS s jid = some j → field q 8 8 = jid →
    respHandle t 0x8003 q p s = answer c 0x401 w 0 0 (toLe 4 (field p 0 4) ++ toLe 2 j.stream ++ toLe 2 0) { s with uw := [] }) ∧
  (∀ (jid : Nat) (s : State) (j : Job), jobS s jid = some j → s.pkg.st = .active → j.st = .queued → j.stale = false → bit s.lg.mask 3 = false →
    (∀ t < 8, bit j.tiles t = true → (tileJ s t).eligible = true ∧ (unitS s t).clkStop = false ∧ ∃ o r, (tileJ s t).queue = (o, jid) :: r) →
    Runs (.jobStart jid) s fun r => r.jb.list = s.jb.list.map (fun j => if j.id = jid then { j with st := .running, meas := measDigest s } else j) ∧
      r.jb.tiles = s.jb.tiles.map (fun t => { t with queue := t.queue.filter (fun q => q.2 != jid) }) ∧ r = { s with jb := r.jb, xl := r.xl }) ∧
  (∀ (jid : Nat) (x : JobEnd) (j : Job) (s : State), jobS s jid = some j → j.st = .running → j.ending = false →
    let r := modJob jid (fun j => { j with retry := j.retry || x.retry, ovf := x.ovf, written := x.written }) s
    (x.status ≠ 0 → exec (.jobFinal jid x) s = .next (jobEnd .aborted x.status x.detail jid r)) ∧
    (x.status = 0 → gateShut j s = true → exec (.jobFinal jid x) s = .next s) ∧
    (x.status = 0 → gateShut j s = false → j.receipt = false → exec (.jobFinal jid x) s = .next (jobEnd .done 0 0 jid r)) ∧
    (x.status = 0 → gateShut j s = false → j.receipt = true → digestsIn j = false → exec (.jobFinal jid x) s = .next (modJob jid (fun j => { j with ending := true }) r)) ∧
    (x.status = 0 → gateShut j s = false → j.receipt = true → digestsIn j = true → exec (.jobFinal jid x) s = .next (recMake jid (modJob jid (fun j => { j with ending := true }) r)))) ∧
  (∀ (c : HostCall) (j : Job) (s : State), Admitted 0x402 c s → c.payload.length = 8 → jobS s (field c.payload 0 8) = some j →
    (j.st = .parked → exec (.jobCancel c) s = .next (replied 0x402 c s (toLe 1 6 ++ toLe 7 0) (jobEnd .cancelled 0x0604 0 (field c.payload 0 8) s))) ∧
    (j.st = .running → exec (.jobCancel c) s = .next (answer c 0x402 (stateWord s) 0 1 (toLe 1 3 ++ toLe 7 0) s)) ∧
    (j.st = .queued → exec (.jobCancel c) s = .next (unitCmd (leadTile j.tiles) 0x8004 (toLe 8 (field c.payload 0 8) ++ toLe 2 Config.abortReason)
      (unitSend (leadTile j.tiles) 0x8004 (some (c, stateWord s)) (field c.payload 0 8) s)))) ∧
  (∀ (c : HostCall) (s : State), Admitted 0x402 c s → c.payload.length = 8 → jobS s (field c.payload 0 8) = none →
    exec (.jobCancel c) s = .next (replied 0x402 c s (toLe 8 0) s)) ∧
  (∀ (t jid n : Nat) (j : Job) (p : Bytes) (s : State), unitTakes s t 0x8004 = some p → field p 0 8 = jid → field p 8 2 = n → jobS s jid = some j →
    (n ≠ 5 → j.st = .queued ∨ j.st = .parked →
      let r := jobEnd .cancelled 0x0604 0 jid (tookCmd t s)
      exec (.jobAbort t jid n) s = .next (unitDone t 0x8004 (toLe 1 (jobCode jid r)) s r)) ∧
    (n ≠ 5 → j.st ≠ .queued → j.st ≠ .parked → exec (.jobAbort t jid n) s = .next (unitDone t 0x8004 (toLe 1 j.st.code) s (tookCmd t s))) ∧
    (n = 5 → j.st ≠ .queued → exec (.jobAbort t jid n) s = .next (unitDone t 0x8004 (toLe 1 j.st.code) s { tookCmd t s with
      jb := { s.jb with tiles := modNth t (fun x => { x with queue := x.queue.filter (fun q => q.2 != jid) }) s.jb.tiles } }))) ∧
  (∀ (t jid w d : Nat) (c : HostCall) (q p : Bytes) (s : State), s.uw = [⟨t, 0x8004, some (c, w), jid, d⟩] → field q 0 8 = jid →
    (field p 0 1 = 3 → respHandle t 0x8004 q p s = answer c 0x402 w 0 1 (toLe 1 3 ++ toLe 7 0) { s with uw := [] }) ∧
    (field p 0 1 ≠ 3 → respHandle t 0x8004 q p s = answer c 0x402 w 0 0 (toLe 1 (field p 0 1) ++ toLe 7 0) { s with uw := [] })) ∧
  (∀ (c : HostCall) (j : Job) (s : State), Admitted 0x403 c s → c.payload.length = 8 → jobS s (field c.payload 0 8) = some j → s.pw.quant = false →
    s.mb.jobWin.any (fun e => e.job == field c.payload 0 8) = true →
    exec (.jobStatus c) s = .next (replied 0x403 c s (toLe 1 j.st.code ++ toLe 1 j.tiles ++ toLe 2 (if j.st.live then 0 else j.status) ++ toLe 4 0
      ++ toLe 8 (if j.st.live then 0 else j.rcptSeq)) s)) ∧
  (∀ (c : HostCall) (s : State), Admitted 0x403 c s → c.payload.length = 8 → jobS s (field c.payload 0 8) = none →
    exec (.jobStatus c) s = .next (replied 0x403 c s (toLe 16 0) s))

/-- Tile checks, completion rings and receipt batches (R262, R356, R358, R369, R371, R372, R438, R490). Points the model
chooses: log entries 47, 95. -/
def Obligations.TileChecksRingsAndBatches : Prop :=
  (∀ (t jid step : Nat) (j : Job) (s : State), jobS s jid = some j → t < 8 → j.st = .running → bit j.tiles t = true → (tileJ s t).gateClosed = false →
    let x := tileJ s t
    let r := logEvent 0x0307 t (toLe 8 jid ++ toLe 4 step) (modTileJ t (fun y => { y with
      rescnt := min (y.rescnt + 1) 0xFFFFFFFF, fails := s.wd.time :: x.fails.filter (fun f => decide (s.wd.time - f < x.window * 100000)) }) s)
    ((jid, step) ∈ x.rexec → exec (.residueCheckFail t jid step) s = .next
      (jobEnd .aborted 0x0404 0x10 jid (modTileJ t (fun y => { y with rexec := y.rexec.filter (fun r => r.1 != jid) }) r))) ∧
    ((jid, step) ∉ x.rexec → exec (.residueCheckFail t jid step) s = .next
      (perfAdd (t + 1) 7 1 (modJob jid (fun j => { j with retry := true }) (modTileJ t (fun y => { y with rexec := y.rexec ++ [(jid, step)] }) r))))) ∧
  (∀ (t : Nat) (s : State), t < 8 → (tileJ s t).gateClosed = false →
    let n := ((tileJ s t).fails.filter (fun f => decide (s.wd.time - f < (tileJ s t).window * 100000))).length
    (n ≤ (tileJ s t).limit → exec (.residueAlarm t) s = .next s) ∧
    ((tileJ s t).limit < n → exec (.residueAlarm t) s = .next (unitCrash t 4 (setNotice 15 (modTileJ t (fun x => { x with gateClosed := true }) s))))) ∧
  (∀ (t region line : Nat) (s : State), t < 8 → unitUp s t = true → line < regionLines region →
    let r := logEvent 0x0306 t (toLe 1 region ++ toLe 8 line) (modTileJ t (fun x => { x with
      ue := min (x.ue + 1) 0xFFFFFFFF, eccAddr := line, poison := if (region, line) ∈ x.poison then x.poison else x.poison ++ [(region, line)] }) s)
    exec (.eccUncorrectable t region line none none) s = .next r ∧
    (∀ (jid : Nat) (j : Job), jobS r jid = some j → j.st = .running → bit j.tiles t = true →
      exec (.eccUncorrectable t region line (some jid) none) s = .next (jobEnd .aborted 0x0404 0x11 jid r)) ∧
    (∀ (h : Nat) (w : Wpk), wpkS r h = some w → w.ws ≠ .failed → w.places.any (placeIn t region) = true →
      exec (.eccUncorrectable t region line none (some h)) s = .next (wpkFail h (logEvent 0x0405 0xFF (toLe 4 h) r)))) ∧
  (∀ (t region line : Nat) (j h : Option Nat) (s : State), regionLines region ≤ line → exec (.eccUncorrectable t region line j h) s = .next s) ∧
  (∀ (tag ct : Nat) (a : Ast) (s : State), astS s tag = some a →
    (a.ring = 0 → exec (.completionRingRoom tag ct) s = .next s) ∧
    (a.ring ≠ 0 → a.held = [] → a.tag = tag → exec (.completionRingRoom tag ct) s = .next (modAst tag (fun x => { x with ctail := ct }) s))) ∧
  (∀ s : State, s.pw.quant = false → exec .completionQuantGrid s = .next s) ∧
  (∀ s : State, s.pw.quant = true → s.xl.asts = [] → exec .completionQuantGrid s = .next { s with jb := { s.jb with gridView := s.jb.list.map (fun j => (j.id, j.st)) } }) ∧
  (∀ (c : HostCall) (s : State), Admitted 0x404 c s → c.payload = [] →
    (s.rc.cur = none → exec (.rcptFlush c) s = .next (replied 0x404 c s (toLe 8 (lastBatch s) ++ toLe 8 0) s)) ∧
    (∀ b, s.rc.cur = some b → s.rc.waiting = none → exec (.rcptFlush c) s = .next
      (replied 0x404 c s (toLe 8 (batchNum s) ++ toLe 4 b.records ++ toLe 4 0) (closeBatch 4 .batch s))) ∧
    (∀ b, s.rc.cur = some b → s.rc.waiting.isSome = true → exec (.rcptFlush c) s = .next (unitSend 1000 0x404 (some (c, stateWord s)) 0 (closeDue 4 s)))) ∧
  (∀ (b : Batch) (s : State), s.rc.cur = some b →
    (s.rc.waiting = none → exec .rcptBatchTimeout s = .next (closeBatch 2 .batch s)) ∧
    (s.rc.waiting.isSome = true → s.rc.due = none → exec .rcptBatchTimeout s = .next { s with rc := { s.rc with due := some 2 } })) ∧
  (∀ s : State, s.rc.cur = none → exec .rcptBatchTimeout s = .next s)

/-- Stack memory and the spill pair (R393, R394, R405, R406, R480). Points the model
chooses: log entries 9, 43, 44. -/
def Obligations.StackMemoryAndSpill : Prop :=
  (∀ (t addr : Nat) (od : Bool) (s : State), hasStack s t = true → s.pkg.memPg = true →
    let r := logEvent 0x0501 (t + 9) (toLe 8 addr) (setAlarm 16 (modMc t (fun m => { m with
      failAddr := if m.tagFail || m.ueFail then m.failAddr else addr, tagFail := m.tagFail || !od, ueFail := m.ueFail || od, tagf := if od then m.tagf else min (m.tagf + 1) 0xFFFFFFFF }) s))
    exec (.tagFailure t addr od) s = .next (if r.pkg.st == .active || r.pkg.st == .loading then quarantine 8 r else r)) ∧
  (∀ (t line : Nat) (s : State), hasStack s t = true → s.pkg.memPg = true → line < 30 * 2 ^ 24 → (portKey s t 0).isSome = true → (portKey s t 1).isSome = true →
    (mcS s t).heat ≠ 2 → s.pkg.refLink = true → (line / 64 ∉ (mcS s t).init → exec (.stackLineAccess t line none) s = .next
      { s with jb := { s.jb with mc := modNth t (fun m => { m with last := List.replicate 64 0#8 }) s.jb.mc } }) ∧
    (∀ (b : Bytes), b.length = 64 → allZero b = false → t < s.jb.mc.length →
      Runs (.stackLineAccess t line (some b)) s fun r => Runs (.stackLineAccess t line none) r fun q =>
        (mcS q t).last = b ∧ ∀ u, u ≠ t → mcS q u = mcS s u)) ∧
  (∀ (t line : Nat) (w : Option Bytes) (s : State), (portKey s t 0) = none → exec (.stackLineAccess t line w) s = .next s) ∧
  (∀ (t temp : Nat) (s : State), hasStack s t = true → s.pkg.memPg = true → temp < 95 → (mcS s t).heat ≠ 2 →
    exec (.stackTempThreshold t temp) s = .next { s with
      pw := { s.pw with stackTj := s.pw.stackTj.set t (10 * temp), perStack := modNth t (fun x => max x (10 * temp)) s.pw.perStack },
      jb := { s.jb with mc := modNth t (fun m => { m with temp := temp % 256, heat := 0 }) s.jb.mc } }) ∧
  (∀ (t temp : Nat) (s : State), hasStack s t = true → s.pkg.memPg = true → 105 ≤ temp → t < s.jb.mc.length → Runs (.stackTempThreshold t temp) s fun r =>
    (mcS r t).heat = 2 ∧ bit r.pw.notice 9 = true ∧ bit r.pw.notice 10 = true) ∧
  (∀ (page jid : Nat) (j : Job) (s : State), jobS s jid = some j → s.sp.en = true → s.sp.first ≤ page → page < s.sp.first + s.sp.pages → j.st = .running →
    (page ∈ s.sp.frames → exec (.spillPageRead page jid) s = .next
      (perfAdd 0 5 1 (modJob jid (fun j => { j with spill := true }) { s with sp := { s.sp with hit := s.sp.hit + 1 } }))) ∧
    (page ∉ s.sp.frames → page ∈ s.sp.fetching → exec (.spillPageRead page jid) s = .next { s with sp := { s.sp with waiting := s.sp.waiting ++ [(page, jid)] } }) ∧
    (page ∉ s.sp.frames → page ∉ s.sp.fetching →
      let new := ((List.range 64).map (· + page)).filter (fun p => decide (p < s.sp.first + s.sp.pages) && !decide (p ∈ s.sp.frames) && !decide (p ∈ s.sp.fetching))
      exec (.spillPageRead page jid) s = .next (perfAdd 0 6 new.length
        { s with sp := { s.sp with waiting := s.sp.waiting ++ [(page, jid)], fetching := s.sp.fetching ++ new, miss := s.sp.miss + new.length } }))) ∧
  (∀ (page : Nat) (s : State), page ∈ s.sp.fetching → (∀ w ∈ s.sp.waiting, w.1 ≠ page) →
    exec (.spillFetchDone page true) s = .next { s with sp := { s.sp with
      fetching := s.sp.fetching.filter (· != page), frames := lastN 256 (s.sp.frames ++ [page]) } } ∧
    exec (.spillFetchDone page false) s = .next (modAp 0 63 (fun a => { a with authFail := min (a.authFail + 1) 65535 }) { s with sp := { s.sp with
      fetching := s.sp.fetching.filter (· != page), authf := min (s.sp.authf + 1) 0xFFFFFFFF } })) ∧
  (∀ (page : Nat) (ok : Bool) (s : State), page ∉ s.sp.fetching → exec (.spillFetchDone page ok) s = .next s)

/-- Weight packages from opening to closing (R261, R335, R336, R341 to R347). Points the model
chooses: log entries 43, 44, 82, 85, 86, 87. -/
def Obligations.WeightPackagesOpenLoadFinishClose : Prop :=
  (∀ (c : HostCall) (s : State), Admitted 0x300 c s → c.ch < 8 → c.payload.length = 48 → stageOk c 0 s = false →
    exec (.wpkOpen c) s = .next (failed 0x300 c s 0x0209 0 s)) ∧
  (∀ (c : HostCall) (s : State), Admitted 0x300 c s → c.ch < 8 → c.payload.length = 48 → stageOk c 0 s = true → allZero (slice c.payload 4 4) = true →
    let h := stageBytes c s
    let plain := field h 32 8
    let pages := field h 40 4
    h.length = 256 → field h 0 4 = 0x4B505754 → field h 4 2 = 1 → field h 6 1 = 1 → allZero (slice h 7 1) = true → allZero (slice h 44 4) = true →
    allZero (slice h 60 4) = true → allZero (slice h 208 48) = true → allZero (slice h 112 96) = true → plain ≠ 0 → pages = (plain + 65535) / 65536 →
    field c.payload 40 8 = plain + 16 * pages → field c.payload 32 8 % 16 = 0 → (astS s (field c.payload 24 1)).isSome = true → allZero (slice c.payload 25 7) = true →
    (field h 8 8 ≠ resTid s → exec (.wpkOpen c) s = .next (failed 0x300 c s 0x0401 3 s)) ∧
    (field h 8 8 = resTid s → s.wk.hs = [] → pages * 65536 ≤ freeCap s →
      exec (.wpkOpen c) s = .next (replied 0x300 c s (toLe 4 s.wk.next ++ toLe 4 pages ++ toLe 1 1 ++ toLe 1 0 ++ toLe 2 0 ++ toLe 8 0)
        { s with wk := { s.wk with hs := [⟨s.wk.next, Config.sha384 (h.take 112), slice h 64 48, slice h 112 48, slice h 160 48, slice h 48 12, 1, .opened, pages, plain, 0,
            field c.payload 24 1, field c.payload 32 8, field c.payload 40 8, pages * 65536, 0, [], false, []⟩], next := s.wk.next + 1 } }))) ∧
  (∀ (c : HostCall) (s : State), Admitted 0x301 c s → c.payload.length = 1720 →
    (∀ st, releaseCheck (field c.payload 0 4) 1 s = some st → exec (.keyRelease c) s = .next (failed 0x301 c s st 0 s)) ∧
    (releaseCheck (field c.payload 0 4) 1 s = none → allZero (slice c.payload 4 4) = true →
      (serialCurrent (field c.payload 8 8) s = false → exec (.keyRelease c) s = .next (failed 0x301 c s 0x0303 0 s)) ∧
      (serialCurrent (field c.payload 8 8) s = true → s.idn.eph.isSome = true → (slotS s 58).empty = false → (slotS s 59).empty = false →
        ∀ w, wpkOpen s (field c.payload 0 4) = some w → exec (.keyRelease c) s = .next (pqAdd 1 (.release c (stateWord s) (field c.payload 0 4)
          (Config.sha384 (ascii "tc4/release/v1" ++ [0#8] ++ w.hdig ++ ephDigest s ++ slice c.payload 8 8 ++ slice c.payload 16 1568 ++ slice c.payload 1584 96))
          (slice c.payload 1680 40) false [] [])
          [⟨0x22, [slice c.payload 16 1568], some 58, some 56, 2⟩, ⟨0x11, [ecWire2 (slice c.payload 1584 96)], some 59, some 57, 2⟩] s)))) ∧
  (∀ (c : HostCall) (st : Nat) (s : State), Admitted 0x302 c s → c.ch < 8 → c.payload.length = 32 → stageOk c 8 s = true → allZero (slice c.payload 12 4) = true →
    releaseCheck (field c.payload 0 4) 2 s = some st → exec (.keyReleaseSet c) s = .next
      (failed 0x302 c s st 0 s)) ∧
  (∀ (c : HostCall) (w : Wpk) (s : State), Admitted 0x302 c s → c.ch < 8 → c.payload.length = 32 → stageOk c 8 s = true → allZero (slice c.payload 12 4) = true →
    releaseCheck (field c.payload 0 4) 2 s = none → wpkOpen s (field c.payload 0 4) = some w → allZero (slice c.payload 4 4) = true →
    let b := stageBytes c s
    let m := b.drop 1728
    let k := slice m 16 2688
    let n := 2704 + 48 * field m 6 2
    field b 0 4 = 0x4C525354 → field b 4 2 = 1 → allZero (slice b 6 2) = true → allZero (slice b 1720 8) = true → manOk m = true → serialCurrent (field b 8 8) s = true →
    s.idn.setPair.isSome = true → (slotS s 60).empty = false → (slotS s 61).empty = false →
    ((Config.sha384 k ≠ w.setauth ∨ Config.sha384 (manSigned m) ≠ w.mdig ∨ skd s ∉ manEntries m) → exec (.keyReleaseSet c) s = .next (failed 0x302 c s 0x0400 0 s)) ∧
    (Config.sha384 k = w.setauth → Config.sha384 (manSigned m) = w.mdig → skd s ∈ manEntries m → exec (.keyReleaseSet c) s = .next
      (pqAdd 2 (.setAuth c (stateWord s) (field c.payload 0 4) b) (verifyJobs (slice k 0 96) (slice k 96 2592) (manSigned m) (slice m n 96) (slice m (n + 96) 4627)) s))) ∧
  (∀ (c : HostCall) (w : Wpk) (s : State), Admitted 0x303 c s → c.payload.length = 16 → wpkOpen s (field c.payload 0 4) = some w → allZero (slice c.payload 12 4) = true →
    s.wk.load = none → (w.ws = .keyed ∨ w.ws = .loading) → field c.payload 8 4 ≠ 0 → field c.payload 4 4 + field c.payload 8 4 ≤ w.pages → field c.payload 4 4 ≤ w.loaded →
    (field c.payload 4 4 + field c.payload 8 4 ≤ w.loaded → exec (.wpkLoad c) s = .next (replied 0x303 c s (loadBody w.loaded 0) s)) ∧
    (w.loaded < field c.payload 4 4 + field c.payload 8 4 → exec (.wpkLoad c) s = .next
      { s with wk := { s.wk with load := some ⟨field c.payload 0 4, c, field c.payload 4 4 + field c.payload 8 4⟩ } })) ∧
  (∀ (x : PageIn) (l : WLoad) (w : Wpk) (k : Bytes) (s : State), s.wk.load = some l → wpkS s l.handle = some w → x.srcFault = false → portKey s 8 0x40 = some k →
    let n := pageLen w w.loaded
    let iv := List.zipWith (· ^^^ ·) w.nsalt (toLe 4 w.loaded ++ toLe 8 0)
    let aad := w.hdig ++ toLe 4 w.loaded ++ toLe 4 n
    (Config.gcmOk k iv aad (slice x.ct 0 n) x.tag = false → exec (.wpkPageFold x) s = .next
      (loadEnd 0x0404 0 w.loaded (contentKeyEnd (modWpk w.handle (fun w => { w with ws := .failed }) s)))) ∧
    (Config.gcmOk k iv aad (slice x.ct 0 n) x.tag = true →
      let pt := (List.range n).map (Config.gcmByte false k iv aad (slice x.ct 0 n))
      let r := modWpk w.handle (fun y => { y with
        ws := .loading, loaded := w.loaded + 1, places := y.places ++ [pagePlace w w.loaded s], stack := mthPush 1 (Config.sha384 pt) y.stack })
        (match pagePlace w w.loaded s with | .spill => spillOut w w.loaded pt s | .ext n => extWrite n pt s | _ => s)
      (w.loaded + 1 < l.stop → exec (.wpkPageFold x) s = .next r) ∧ (l.stop ≤ w.loaded + 1 → exec (.wpkPageFold x) s = .next (loadEnd 0 0 0 r)))) ∧
  (∀ (c : HostCall) (w : Wpk) (s : State), Admitted 0x304 c s → c.payload.length = 8 → wpkOpen s (field c.payload 0 4) = some w → allZero (slice c.payload 4 4) = true → s.wk.load = none →
    (w.ws ≠ .loading ∨ w.loaded ≠ w.pages → exec (.wpkFinish c) s = .next (failed 0x304 c s 0x0300 0 s)) ∧
    (w.ws = .loading → w.loaded = w.pages → mthClose w.stack = w.root → exec (.wpkFinish c) s = .next (replied 0x304 c s (toLe 1 4 ++ toLe 7 0 ++ slice w.root 0 48)
      (msRecord 19 w.root (contentKeyEnd (modWpk (field c.payload 0 4) (fun w => { w with ws := .runnable }) s))))) ∧
    (w.ws = .loading → w.loaded = w.pages → mthClose w.stack ≠ w.root → exec (.wpkFinish c) s = .next (answer c 0x304 (stateWord s) 0x0404 0
      (toLe 1 5 ++ toLe 7 0 ++ slice (mthClose w.stack) 0 48) (contentKeyEnd (modWpk (field c.payload 0 4) (fun w => { w with ws := .failed }) s))))) ∧
  (∀ (c : HostCall) (w : Wpk) (s : State), Admitted 0x305 c s → c.payload.length = 8 → wpkOpen s (field c.payload 0 4) = some w → allZero (slice c.payload 4 4) = true →
    exec (.wpkStatus c) s = .next (replied 0x305 c s (toLe 1 w.ws.code ++ toLe 1 w.bind ++ toLe 1 (if w.short = 0 then 0 else 1) ++ [0#8] ++ toLe 4 w.loaded ++ toLe 4 w.pages) s)) ∧
  (∀ (c : HostCall) (s : State), Admitted 0x306 c s → c.payload.length = 8 →
    (wpkOpen s (field c.payload 0 4) = none → allZero (slice c.payload 4 4) = true →
      (field c.payload 0 4 = 0 ∨ s.wk.next ≤ field c.payload 0 4 → exec (.wpkClose c) s = .next (failed 0x306 c s 0x0208 0 s)) ∧
      (field c.payload 0 4 ≠ 0 → field c.payload 0 4 < s.wk.next → exec (.wpkClose c) s = .next (replied 0x306 c s [] s))) ∧
    (∀ w, wpkOpen s (field c.payload 0 4) = some w → allZero (slice c.payload 4 4) = true →
      (w.ws = .runnable → exec (.wpkClose c) s = .next (replied 0x306 c s [] (modWpk (field c.payload 0 4) (fun w => { w with closed := true }) s))) ∧
      (w.ws = .opened → s.wk.load = none → exec (.wpkClose c) s = .next (replied 0x306 c s []
        { s with wk := { s.wk with hs := s.wk.hs.filter (fun x => x.handle != field c.payload 0 4) } })) ∧
      (w.ws = .keyed ∨ w.ws = .loading → s.wk.load = none → exec (.wpkClose c) s = .next (replied 0x306 c s []
        { contentKeyEnd s with wk := { (contentKeyEnd s).wk with hs := (contentKeyEnd s).wk.hs.filter (fun x => x.handle != field c.payload 0 4) } }))))

/-- Tags, the fault ring's registers and invalidations (R419, R424, R426 to R428, R436). Points the model
chooses: log entries 46, 54, 93. -/
def Obligations.TagsAndInvalidations : Prop :=
  (∀ (c : HostCall) (s : State), Admitted 0x500 c s → c.payload.length = 16 → field c.payload 8 8 ≠ 0 → field c.payload 8 8 % 65536 = 0 →
    bits (field c.payload 1 1) 4 4 = 0 → (bits (field c.payload 1 1) 0 4 = 0 ∨ (8 ≤ bits (field c.payload 1 1) 0 4 ∧ bits (field c.payload 1 1) 0 4 ≤ 14)) →
    allZero (slice c.payload 3 5) = true → (s.pkg.mode = .opened → field c.payload 2 1 % 64 = 0) →
    let tag := field c.payload 0 1
    let d := field c.payload 2 1 / 64
    ((astS s tag).isSome = true → exec (.astCreate c) s = .next (failed 0x500 c s 0x0502 0 s)) ∧
    (astS s tag = none → ((portUnits s).length ≤ d ∨ (fnS s d).up = false) → exec (.astCreate c) s = .next (failed 0x500 c s 0x0302 0 s)) ∧
    (astS s tag = none → d < (portUnits s).length → (fnS s d).up = true → exec (.astCreate c) s = .next (replied 0x500 c s (toLe 1 tag ++ toLe 7 0)
      { s with xl := { s.xl with asts := s.xl.asts ++ [⟨tag, field c.payload 8 8, d, bits (field c.payload 1 1) 0 4, field c.payload 2 1 % 64, none, 0, [], [], 0, 0, [], []⟩] } }))) ∧
  (∀ (c : HostCall) (s : State), Admitted 0x500 c s → c.payload.length = 16 → (field c.payload 8 8 = 0 ∨ field c.payload 8 8 % 65536 ≠ 0) →
    exec (.astCreate c) s = .next (failed 0x500 c s 0x0200 0 s)) ∧
  (∀ (c : HostCall) (s : State), Admitted 0x501 c s → c.payload.length = 8 → allZero (slice c.payload 1 7) = true →
    let tag := field c.payload 0 1
    (astS s tag = none → exec (.astDestroy c) s = .next (replied 0x501 c s [] s)) ∧
    ((astS s tag).isSome = true → exec (.astDestroy c) s = .next (modAst tag (fun a => { a with mirror := none })
      ((List.range 4).foldl (fun s d => (List.range 64).foldl (fun s a =>
          if (apS s d a).valid && (apS s d a).ast == tag && !spillAp s d a then apEnd d a s else s) s)
        (invAccept none (some (c, stateWord s)) tag true 0 0 (jobsEnd .cancelled 0x0604 0 (jobIds (fun j => j.ast == tag && j.st != .running) s) s)))))) ∧
  (∀ (c : HostCall) (s : State), Admitted 0x502 c s → c.payload.length = 16 → field c.payload 1 1 < 2 → allZero (slice c.payload 2 2) = true →
    (astS s (field c.payload 0 1)).isSome = true → (field c.payload 1 1 = 0 → field c.payload 8 8 % 65536 = 0 ∧ field c.payload 8 8 < 2 ^ 52) →
    exec (.astInvalidate c) s = .next (invAccept none (some (c, stateWord s)) (field c.payload 0 1) (field c.payload 1 1 == 1) (field c.payload 8 8 / 65536)
      (if field c.payload 4 4 = 0 then 2 ^ 32 else field c.payload 4 4) s)) ∧
  (∀ (n v : Nat) (s : State), n < 64 → barOn s 0 = true →
    (16 ≤ (s.xl.invs.filter (fun i => i.lane == some n)).length → exec (.invLaneDoorbell n v) s = .next s) ∧
    ((s.xl.invs.filter (fun i => i.lane == some n)).length < 16 →
      let t := { s with xl := { s.xl with invReq := modNth n (fun x => (x + 1) % 2 ^ 32) s.xl.invReq } }
      (astS s (bits v 0 8) = none → exec (.invLaneDoorbell n v) s = .next { t with xl := { t.xl with invDone := modNth n (fun x => (x + 1) % 2 ^ 32) t.xl.invDone } }) ∧
      ((astS s (bits v 0 8)).isSome = true → exec (.invLaneDoorbell n v) s = .next (invAccept (some n) none (bits v 0 8) (bit v 8) (bits v 16 36) (bits v 52 12 + 1) t)))) ∧
  (∀ (lane : Option Nat) (call : Option (HostCall × Nat)) (tag page count : Nat) (all : Bool) (s : State), s.jb.list = [] →
    let t := invAccept lane call tag all page count s
    (∀ a ∈ t.xl.asts, a.tag = tag → ∀ r ∈ a.resid, (all = true ∨ (page ≤ r.page ∧ r.page < page + count)) → r.st = .dying) ∧
    (∀ e ∈ t.xl.l0, e.1 = tag → ¬ (all = true ∨ (e.2.1 * 32 < page + count ∧ page < (e.2.1 + 1) * 32))) ∧
    (∀ e ∈ t.xl.upper, e.1 = tag → all = false) ∧
    (∀ m ∈ t.xl.migr, m.1 = tag → ¬ (all = true ∨ (page ≤ m.2 ∧ m.2 < page + count)))) ∧
  (∀ (i : Inval) (n : Nat) (s : State), s.xl.invs = [i] → i.jobs = [] → i.walks = [] → i.pages = [] → i.lane = some n → i.call = none →
    (∀ a ∈ s.xl.asts, a.tag = i.tag → a.resid = []) → exec (.invalidationComplete i.id) s = .next
      (trace 11 0xFF i.tag i.stale { s with xl := { s.xl with invs := [], invDone := modNth n (fun v => (v + 1) % 2 ^ 32) s.xl.invDone } })) ∧
  (∀ (i : Inval) (c : HostCall) (w : Nat) (s : State), s.xl.invs = [i] → i.jobs = [] → i.walks = [] → i.pages = [] → i.lane = none → i.call = some (c, w) → c.payload.length = 16 →
    (∀ a ∈ s.xl.asts, a.tag = i.tag → a.resid = []) → exec (.invalidationComplete i.id) s = .next
      (answer c 0x502 w 0 0 (toLe 4 i.stale ++ toLe 4 0) (trace 11 0xFF i.tag i.stale { s with xl := { s.xl with invs := [] } }))) ∧
  (∀ (i : Inval) (j : Nat) (x : Job) (s : State), s.xl.invs.find? (fun y => y.id == i.id) = some i → j ∈ i.jobs → jobS s j = some x → x.st = .running →
    exec (.invalidationComplete i.id) s = .next s) ∧
  (∀ (v : Word) (s : State), barOn s 0 = true → s.xl.waiting = [] →
    exec (.faultRingTailWrite v) s = .next { s with hb := { s.hb with frTail := v.toNat } } ∧
    exec (.hbFrCtrlWrite v) s = .next { s with hb := { s.hb with frEn := bit v.toNat 0, frSealed := bit v.toNat 1 || s.pkg.mode == .confidential, frIdx := bits v.toNat 2 6 } }) ∧
  (∀ (c : HostCall) (s : State), Admitted 0x506 c s → c.payload.length = 24 →
    (s.pkg.mode ≠ .opened → exec (.mirrorSet c) s = .next (failed 0x506 c s 0x0300 0 s)) ∧
    (s.pkg.mode = .opened → allZero (slice c.payload 1 7) = true → field c.payload 8 8 % 65536 = 0 → field c.payload 16 8 % 65536 = 0 →
      field c.payload 8 8 + field c.payload 16 8 ≤ 2 ^ 52 → (astS s (field c.payload 0 1)).isSome = true →
      exec (.mirrorSet c) s = .next (replied 0x506 c s [] (modAst (field c.payload 0 1) (fun a => { a with
        mirror := if field c.payload 16 8 = 0 then none else some (field c.payload 8 8, field c.payload 16 8) }) s))))

/-- Walks, fault batches, migration and residency (R417, R421 to R425, R431 to R435). Points the model
chooses: log entries 42, 47, 53, 87, 93. -/
def Obligations.WalksFaultsAndMigration : Prop :=
  (∀ (id : Nat) (es : List Nat) (s : State), s.xl.walks.find? (fun w => w.id == id) = none →
    exec (.tableReadDone id es) s = .next s ∧ exec (.tableReadTimeout id) s = .next s ∧ exec (.walkBudgetExpiry id) s = .next s) ∧
  (∀ (w : Walk) (p : Nat × Bool) (c : HostCall) (a : Ast) (s : State), s.xl.walks = [w] → w.todo = [p] → w.done = [] → w.overlap = false →
    astS s w.tag = some a → w.for_ = .prog c → exec (.tableReadTimeout w.id) s = .next
      (failed 0x400 c { s with xl := { s.xl with walks := [] } } 0x0200 3 { s with xl := { s.xl with walks := [] } })) ∧
  (∀ (w : Walk) (p q : Nat × Bool) (e t : Nat) (a : Ast) (s : State), s.xl.walks = [w] → w.todo = [p, q] → w.done = [] → w.level = 3 → w.overlap = false →
    astS s w.tag = some a → a.tag = w.tag → a.resid = [] → p.1 < 8191 * 2 ^ 23 → entryKind 3 e = (2, t) → s.xl.upper = [] →
    exec (.tableReadDone w.id [e]) s = .next { s with xl := { s.xl with
      upper := [(w.tag, 3, p.1 / 2 ^ 23, e)], walks := [{ w with todo := [p, q], level := 2, addr := t + 8 * (p.1 / 2 ^ 14 % 512) }] } }) ∧
  (∀ (w : Walk) (p q : Nat × Bool) (a : Ast) (s : State), s.xl.walks = [w] → w.todo = [p, q] → w.done = [] → w.overlap = false →
    astS s w.tag = some a → a.tag = w.tag → a.resid = [] → q.1 < 8191 * 2 ^ 23 → s.xl.upper = [] → exec (.tableReadTimeout w.id) s = .next { s with xl := { s.xl with
      walks := [{ w with done := [(p.1, p.2, .fault 6)], todo := [q], level := 3, addr := a.root + 8 * (q.1 / 2 ^ 23) }] } }) ∧
  (∀ (w : Walk) (j : Nat) (c : HostCall) (x : Job) (s : State), s.xl.walks.find? (fun y => y.id == w.id) = some w → w.for_ = .submit j c → jobS s j = some x →
    let t := { s with xl := { s.xl with walks := s.xl.walks.map (fun (y : Walk) => if y.id = w.id then { y with for_ := WalkFor.job j } else y) } }
    exec (.walkBudgetExpiry w.id) s = .next (replied 0x401 c t (submitBody 0xFFFFFFFF x) t)) ∧
  (∀ s : State, s.xl.cur = [] → exec .faultBatchWindow s = .next s) ∧
  (∀ s : State, s.xl.cur ≠ [] → s.xl.waiting = [] → s.hb.frEn = false →
    let t := trace 9 0xFF s.xl.cur.length s.xl.curNum s
    exec .faultBatchWindow s = .next { t with
      xl := { s.xl with waiting := [(s.xl.curNum, s.xl.cur)], cur := [], curNum := s.xl.curNum + 1 }, hb := { s.hb with frOvf := true } }) ∧
  (∀ (tag page : Nat) (s : State), (tag, page) ∉ s.xl.migr → exec (.migrationPageLanded tag page) s = .next s ∧ exec (.migrationAbandon tag page) s = .next s) ∧
  (∀ (tag page : Nat) (s : State), (tag, page) ∈ s.xl.migr → s.jb.list = [] →
    let t := { s with xl := { s.xl with migr := s.xl.migr.filter (· != (tag, page)) } }
    let ext := match (astS s tag).bind (fun a => a.resid.find? (fun r => r.page == page)) with | some r => r.ext / 65536 | none => 0
    exec (.migrationPageLanded tag page) s = .next
      (let r := modAst tag (fun a => { a with
        resid := a.resid.map (fun (r : Resid) => if r.page = page && r.st == .transit then { r with st := .clean } else r) }) (extWrite ext (drawBytes 65536 t).1 (drawBytes 65536 t).2)
       (r.jb.list.filter (fun j => j.ast == tag && j.st == .parked && j.park == .transit && decide (page ∈ jobPages j))).foldl (fun s j => jobRewalk j.id s) r) ∧
    exec (.migrationAbandon tag page) s = .next (modAst tag (fun a => { a with resid := a.resid.filter (fun r => !(r.page == page && r.st == .transit)) }) t)) ∧
  (∀ (tag page : Nat) (a : Ast) (s : State), astS s tag = some a → a.resid.find? (fun r => r.page == page) = none → exec (.pageRelease tag page) s = .next s) ∧
  (∀ (tag page : Nat) (a : Ast) (r : Resid) (s : State), astS s tag = some a → a.resid.find? (fun r => r.page == page) = some r → r.release = true → s.jb.list = [] →
    (r.st = .clean ∨ (r.st = .dirty ∧ s.pkg.mode ≠ .opened)) →
    exec (.pageRelease tag page) s = .next (modAst tag (fun a => { a with resid := a.resid.filter (fun x => x.page != page) }) s)) ∧
  (∀ (tag page : Nat) (a : Ast) (r : Resid) (s : State), astS s tag = some a → a.resid.find? (fun r => r.page == page) = some r → r.release = true → pageUsed tag page s = false →
    r.st = .dirty → s.pkg.mode = .opened → s.xl.walks = [] →
    exec (.pageRelease tag page) s = .next (walkStart tag [(page, false)] (.back page) s)) ∧
  (∀ (tag page : Nat) (a : Ast) (r : Resid) (s : State), astS s tag = some a → a.resid.find? (fun r => r.page == page) = some r → (r.release = false ∨ pageUsed tag page s = true) →
    exec (.pageRelease tag page) s = .next s) ∧
  (∀ (c : HostCall) (s : State), Admitted 0x503 c s → c.payload.length = 24 → allZero (slice c.payload 1 7) = true → rangeArg (field c.payload 8 8) (field c.payload 16 8) = true →
    (astS s (field c.payload 0 1)).isSome = true →
    (isS0 s = true → exec (.prefetch c) s = .next (failed 0x503 c s 0x0302 0 s)) ∧
    (isS0 s = false → exec (.prefetch c) s = .next (walkStart (field c.payload 0 1) ((rangePages (field c.payload 8 8) (field c.payload 16 8)).map (·, false)) (.prefetch c) s))) ∧
  (∀ (c : HostCall) (a : Ast) (s : State), Admitted 0x504 c s → c.payload.length = 24 → allZero (slice c.payload 2 6) = true → rangeArg (field c.payload 8 8) (field c.payload 16 8) = true →
    astS s (field c.payload 0 1) = some a →
    let k := field c.payload 1 1
    let ps := rangePages (field c.payload 8 8) (field c.payload 16 8)
    let new := ps.filter (fun x => !a.resid.any (fun r => r.page == x))
    ((k = 2 ∨ k = 3) → isS0 s = true → exec (.advise c) s = .next (failed 0x504 c s 0x0302 0 s)) ∧
    (k = 2 → isS0 s = false → freeCap s < 65536 * new.length → exec (.advise c) s = .next (failed 0x504 c s 0x0500 0 s)) ∧
    (k = 1 → exec (.advise c) s = .next (replied 0x504 c s [] (ps.foldl (fun s x => pageRelease (field c.payload 0 1) x s)
      (modAst (field c.payload 0 1) (fun a => { a with resid := a.resid.map (fun (r : Resid) =>
        if (decide (field c.payload 8 8 / 65536 ≤ r.page) && decide (65536 * r.page < field c.payload 8 8 + field c.payload 16 8)) && (r.st == .clean || r.st == .dirty)
        then { r with release := true } else r) }) s)))) ∧
    (k = 2 → isS0 s = false → 65536 * new.length ≤ freeCap s → exec (.advise c) s = .next (replied 0x504 c s []
      (new.foldl (fun s x => extWrite (extFree s) [] (residAdd (field c.payload 0 1) x .dirty s)) s))) ∧
    (k = 4 → exec (.advise c) s = .next (replied 0x504 c s [] (modAst (field c.payload 0 1) (fun a => { a with
      advised := a.advised.filter (fun r => !meets r.1 r.2 (field c.payload 8 8 / 65536) ps.length) }) s))) ∧
    (k = 3 → isS0 s = false → feat s 6 = false → exec (.advise c) s = .next (failed 0x504 c s 0x0301 0 s)) ∧
    (k = 3 → isS0 s = false → feat s 6 = true → a.advised.length < 64 → exec (.advise c) s = .next (replied 0x504 c s []
      (modAst (field c.payload 0 1) (fun a => { a with advised := a.advised ++ [(field c.payload 8 8 / 65536, ps.length)] }) s))) ∧
    (k = 3 → isS0 s = false → feat s 6 = true → 64 ≤ a.advised.length → exec (.advise c) s = .next (failed 0x504 c s 0x0503 0 s)) ∧
    (k = 0 ∨ 4 < k → exec (.advise c) s = .next (failed 0x504 c s 0x0200 0 s))) ∧
  (∀ (c : HostCall) (s : State), Admitted 0x505 c s → c.payload.length = 8 → allZero (slice c.payload 4 4) = true →
    (field c.payload 0 4 ∉ s.xl.written → exec (.faultResume c) s = .next (failed 0x505 c s 0x0501 0 s)) ∧
    (field c.payload 0 4 ∈ s.xl.written → (∀ j ∈ s.jb.list, j.st ≠ .parked) → exec (.faultResume c) s = .next (replied 0x505 c s (toLe 8 0) s)) ∧
    (∀ js : List Job, js = s.jb.list.filter (fun j => j.st == .parked && j.park == .fault && decide (field c.payload 0 4 ∈ j.batches)) → js ≠ [] → field c.payload 0 4 ∈ s.xl.written →
      exec (.faultResume c) s = .next (js.foldl (fun s j => jobRewalk j.id s) (unitSend (1000 + field c.payload 0 4) 0x505 (some (c, stateWord s)) 0 s))))

/-- Apertures, records, DMA descriptors and digest lanes (R276 to R284, R286, R374, R403). Points the model
chooses: log entries 44, 54, 78, 89. -/
def Obligations.AperturesRecordsAndLanes : Prop :=
  (∀ (c : HostCall) (s : State), Admitted 0x507 c s → c.payload.length = 24 → s.pkg.mode ≠ .confidential →
    exec (.regionSet c) s = .next (failed 0x507 c s 0x0300 0 s)) ∧
  (∀ (c : HostCall) (s : State), Admitted 0x507 c s → c.payload.length = 24 → s.pkg.mode = .confidential → allZero (slice c.payload 3 5) = true →
    (astS s (field c.payload 0 1)).isSome = true →
    let r := field c.payload 1 1
    let d := field c.payload 2 1 / 64
    let a := field c.payload 2 1 % 64
    let dbase := field c.payload 8 8
    let len := field c.payload 16 8
    (r ≤ 2 → (r = 0 → dbase = 0 ∧ len = 0) → sessOpen s = false → exec (.regionSet c) s = .next (failed 0x507 c s 0x0402 0 s)) ∧
    (r = 0 → dbase = 0 → len = 0 → sessOpen s = true → d < (portUnits s).length → (fnS s d).up = true → spillAp s d a = false →
      exec (.regionSet c) s = .next (replied 0x507 c s [] (apEnd d a s))) ∧
    ((r = 1 ∨ r = 2) → sessOpen s = true → d < (portUnits s).length → (fnS s d).up = true → spillAp s d a = false →
      dbase % 65536 = 0 → len % 65536 = 0 → 65536 ≤ len → len ≤ 2 ^ 30 → dbase + len + apMeta len ≤ 2 ^ 52 →
      (apOverlap d a (field c.payload 0 1) dbase len s = true → (apS s d a).valid = false → exec (.regionSet c) s = .next (failed 0x507 c s 0x0200 0 s)) ∧
      (∀ rt t, apOverlap d a (field c.payload 0 1) dbase len s = false → (apS s d a).valid = false → kgenNext d a s ≤ 255 →
        apRoom d (len / 4096) s = some rt → apKeyPush d a (r == 2) s = some t → (portKey t (unitOfOrd t d) a).isSome = true →
        exec (.regionSet c) s = .next (replied 0x507 c s [] (regionOpen d a (r == 2) (field c.payload 0 1) dbase len rt (kgenNext d a s) t))))) ∧
  (∀ (d a : Nat) (s : State), a ∉ (pxS s d).quiesce → exec (.apertureQuiesceTimeout d a) s = .next s) ∧
  (∀ (d a : Nat) (s : State), a ∈ (pxS s d).quiesce → exec (.apertureQuiesceTimeout d a) s = .next (apClose d a s)) ∧
  (∀ (d a : Nat) (s : State), d < s.px.length → a < (pxS s d).aps.length →
    (apS (apClose d a { s with jb := { s.jb with list := [] } }) d a).valid = false ∧
    (apS (apClose d a { s with jb := { s.jb with list := [] } }) d a).authFail = (apS s d a).authFail) ∧
  (∀ (a off : Nat) (v : Word) (s : State), a < 64 → barOn s 0 = true →
    (s.pkg.mode = .confidential → exec (.apDescriptorWrite a off v) s = .next { s with hb := { s.hb with apDropped := min (s.hb.apDropped + 1) 65535 } }) ∧
    (s.pkg.mode = .none → exec (.apDescriptorWrite a off v) s = .next s) ∧
    (s.pkg.mode = .opened → spillAp s 0 a = true → exec (.apDescriptorWrite a off v) s = .next { s with hb := { s.hb with apDropped := min (s.hb.apDropped + 1) 65535 } }) ∧
    (s.pkg.mode = .opened → spillAp s 0 a = false → a ∉ (pxS s 0).quiesce →
      ((apS s 0 a).valid = true → off ≠ 0 → exec (.apDescriptorWrite a off v) s = .next s) ∧
      ((apS s 0 a).valid = true → off = 0 → bit v.toNat 0 = false → exec (.apDescriptorWrite a off v) s = .next (apEnd 0 a s)) ∧
      ((apS s 0 a).valid = false → off = 0 → bit v.toNat 0 = false → exec (.apDescriptorWrite a off v) s = .next
        (modAp 0 a (fun y => { y with outbound := bit v.toNat 1, ast := bits v.toNat 16 8 }) s)) ∧
      ((apS s 0 a).valid = false → off = 0 → bit v.toNat 0 = true → exec (.apDescriptorWrite a off v) s = .next
        (apHostValid a (modAp 0 a (fun y => { y with outbound := bit v.toNat 1, ast := bits v.toNat 16 8 }) s))) ∧
      ((apS s 0 a).valid = false → off = 8 → exec (.apDescriptorWrite a off v) s = .next
        (modAp 0 a (fun y => { y with dbase := (y.dbase / 2 ^ 32 * 2 ^ 32 + v.toNat) / 65536 * 65536 }) s)) ∧
      ((apS s 0 a).valid = false → off = 20 → exec (.apDescriptorWrite a off v) s = .next
        (modAp 0 a (fun y => { y with len := (y.len % 2 ^ 32 + v.toNat * 2 ^ 32) / 65536 * 65536 }) s)))) ∧
  (∀ (d a i : Nat) (x : RecIn) (k : Bytes) (s : State), d < 4 → (apS s d a).valid = true → (apS s d a).outbound = false → i < (apS s d a).len / 4096 →
    portKey s (unitOfOrd s d) a = some k → (apS s d a).keyed = true → a ∉ (pxS s d).quiesce → (apS s d a).exh = false →
    1 ≤ x.rlen → x.rlen ≤ 4096 → x.kgen = (apS s d a).kgen → x.seq ≠ 0 → x.reach ≤ x.rlen → (d = 0 → a = 63 → s.sp.paired = false) →
    let e := (apS s d a).rtbase + i
    (x.seq ≤ recSt s d e → s.jb.list = [] → exec (.inboundRecord d a i x) s = .next (modAp d a (fun y => { y with replay := min (y.replay + 1) 65535 }) s)) ∧
    (recSt s d e < x.seq → Config.gcmOk (k.take 32) (apIv k i x.seq) (apAad (64 * d + a) 1 (apS s d a).kgen i x.seq x.rlen) (slice x.ct 0 x.rlen) x.tag = true →
      exec (.inboundRecord d a i x) s = .next (perfAdd 0 3 x.rlen (modAp d a (fun y => { y with bytes := y.bytes + x.rlen })
        (setRecSt d e x.seq (modAp d a (fun y => { y with invoc := y.invoc + 1, exh := decide (2 ^ 32 ≤ y.invoc + 1) }) s))))) ∧
    (recSt s d e < x.seq → Config.gcmOk (k.take 32) (apIv k i x.seq) (apAad (64 * d + a) 1 (apS s d a).kgen i x.seq x.rlen) (slice x.ct 0 x.rlen) x.tag = false →
      s.jb.list = [] → exec (.inboundRecord d a i x) s = .next (modAp d a (fun y => { y with authFail := min (y.authFail + 1) 65535 })
        (modAp d a (fun y => { y with invoc := y.invoc + 1, exh := decide (2 ^ 32 ≤ y.invoc + 1) }) s)))) ∧
  (∀ (i : Nat) (x : RecIn) (k : Bytes) (s : State), apHas 0 63 i false s = true → s.sp.paired = true → portKey s 8 63 = some k → (apS s 0 63).keyed = true →
    63 ∉ (pxS s 0).quiesce → 1 ≤ x.rlen → x.rlen ≤ 4096 → x.kgen = 0 → x.seq ≠ 0 → x.reach ≤ x.rlen → x.seq = recSt s 0 ((apS s 0 62).rtbase + i) →
    Config.gcmOk (k.take 32) (apIv k i x.seq) (apAad 62 2 0 i x.seq x.rlen) (slice x.ct 0 x.rlen) x.tag = true →
    exec (.inboundRecord 0 63 i x) s = .next (perfAdd 0 3 x.rlen (modAp 0 63 (fun y => { y with invoc := y.invoc + 1, bytes := y.bytes + x.rlen }) s))) ∧
  (∀ (d a i : Nat) (x : RecIn) (s : State), apHas d a i false s = false → exec (.inboundRecord d a i x) s = .next s) ∧
  (∀ (d a i : Nat) (b k : Bytes) (s : State), d < 4 → (apS s d a).valid = true → (apS s d a).outbound = true → i < (apS s d a).len / 4096 →
    1 ≤ b.length → b.length ≤ 4096 → portKey s (unitOfOrd s d) a = some k → (apS s d a).keyed = true → a ∉ (pxS s d).quiesce → (apS s d a).exh = false → apGated d a i s = false →
    let e := (apS s d a).rtbase + i
    let q := recSt s d e + 1
    let r := (List.range (b.length + 16)).map (Config.gcmByte true (k.take 32) (apIv k i q) (apAad (64 * d + a) 2 (apS s d a).kgen i q b.length) b)
    (recSt s d e ≠ 0xFFFFFFFF → exec (.outboundRecord d a i b) s = .next (
      emit (.hostWrite d ((apS s d a).dbase + (apS s d a).len + 32 * i) (toLe 4 q ++ toLe 2 b.length ++ toLe 1 (apS s d a).kgen ++ toLe 9 0 ++ r.drop b.length))
        (emit (.hostWrite d ((apS s d a).dbase + 4096 * i) (r.take b.length))
          (modAp d a (fun x => { x with invoc := x.invoc + 1, exh := decide (2 ^ 32 ≤ x.invoc + 1), bytes := x.bytes + b.length })
            (perfAdd 0 4 b.length (setRecSt d e q s)))))) ∧
    (recSt s d e = 0xFFFFFFFF → s.jb.list = [] → exec (.outboundRecord d a i b) s = .next s)) ∧
  (∀ (d a i : Nat) (b : Bytes) (s : State), apHas d a i true s = false ∨ apGated d a i s = true → exec (.outboundRecord d a i b) s = .next s) ∧
  (∀ (d stream jid : Nat) (j : Job) (s : State), jobS s jid = some j → d < 4 → j.die = d → j.st = .running → stream < 62 → j.stream = stream →
    lookupNat stream (pxS s d).streams = none →
    ((pxS s d).conf = true → (∃ e ∈ j.exts, e.kind = 0) → exec (.dmaDescriptorStart d stream jid) s = .next (jobEnd .aborted 0x0200 1 jid s)) ∧
    (((pxS s d).conf = false ∨ ∀ e ∈ j.exts, e.kind ≠ 0) → exec (.dmaDescriptorStart d stream jid) s = .next
      (modPx d (fun x => { x with streams := putKey stream ⟨jid, 0⟩ x.streams }) s))) ∧
  (∀ (jid chunk : Nat) (b : Bytes) (j : Job) (s : State), jobS s jid = some j → j.st = .running → j.receipt = true → j.ending = false → b ≠ [] →
    (b.length = chunkLen j.inLen chunk → exec (.digestLaneResult (.jobIn jid) chunk b) s = .next (modJob jid (fun j => { j with inDigs := putKey chunk (Config.sha384 b) j.inDigs }) s)) ∧
    (b.length = chunkLen j.outLen chunk → exec (.digestLaneResult (.jobOut jid) chunk b) s = .next (modJob jid (fun j => { j with outDigs := putKey chunk (Config.sha384 b) j.outDigs }) s))) ∧
  (∀ (c : HostCall) (plen : Nat) (dig b : Bytes) (r : List (HostCall × Nat × Bytes)) (chunk : Nat) (s : State), s.jb.progLoad = (c, plen, dig) :: r →
    s.jb.progs.find? (fun x => x.dig == dig) = none → Config.sha384 b ≠ dig → exec (.digestLaneResult .prog chunk b) s = .next
      (failed 0x400 c s 0x0404 0 { s with jb := { s.jb with progLoad := r } })) ∧
  (∀ (chunk : Nat) (b : Bytes) (s : State), exec (.digestLaneResult .wpk chunk b) s = .next s)

/-- The link commands (R264, R452, R455, R458, R459, R463). Points the model
chooses: log entries 32, 40, 85, 94. -/
def Obligations.LinkCommands : Prop :=
  (∀ (c : HostCall) (s : State), Admitted 0x600 c s → c.payload.length = 4 → allZero (slice c.payload 1 3) = true →
    (unitType s (field c.payload 0 1) ≠ .port → exec (.linkStatus c) s = .next (failed 0x600 c s 0x0200 0 s)) ∧
    (unitType s (field c.payload 0 1) = .port → (unitS s (field c.payload 0 1)).ustate = .up → exec (.linkStatus c) s = .next
      (unitCmd (field c.payload 0 1) 0x8104 [] { s with uw := s.uw ++ [⟨field c.payload 0 1, 0x600, some (c, stateWord s), 0, s.wd.time⟩] })) ∧
    (unitType s (field c.payload 0 1) = .port → (unitS s (field c.payload 0 1)).ustate ≠ .up → exec (.linkStatus c) s = .next
      (answer c 0x600 (stateWord s) 0 1 (linkBody (field c.payload 0 1) s) s))) ∧
  (∀ (c : HostCall) (s : State), Admitted 0x602 c s → c.payload.length = 8 → exec (.linkJobEnd c) s = .next (replied 0x602 c s
    (toLe 4 ((s.ln.inst.filter (fun p => p.job == field c.payload 0 8)).length * (portUnits s).length) ++ toLe 4 0) (linkJobEnd (field c.payload 0 8) s))) ∧
  (∀ (j : Nat) (s : State), (∀ i ∈ s.ln.inst, i.job ≠ j) → (∀ p ∈ s.ln.pend, p.job ≠ j) → linkJobEnd j s = s) ∧
  (∀ (c : HostCall) (s : State), Admitted 0x603 c s → c.payload.length = 16 → unitType s (field c.payload 0 1) = .port → allZero (slice c.payload 2 2) = true →
    allZero (slice c.payload 15 1) = true →
    (12 ≤ field c.payload 1 1 → field c.payload 1 1 ≠ 0xFF → exec (.linkBounds c) s = .next (failed 0x603 c s 0x0200 0 s)) ∧
    ((field c.payload 1 1 < 12 ∨ field c.payload 1 1 = 0xFF) → (unitS s (field c.payload 0 1)).ustate ≠ .up → exec (.linkBounds c) s = .next (failed 0x603 c s 0x0600 0 s)) ∧
    (field c.payload 1 1 < 12 → (unitS s (field c.payload 0 1)).ustate = .up → exec (.linkBounds c) s = .next
      (cfgSend (field c.payload 0 1) (field c.payload 1 1) (slice c.payload 4 12)
        { s with uw := s.uw ++ [⟨field c.payload 0 1, 0x603, some (c, stateWord s), field c.payload 1 1, s.wd.time⟩] })) ∧
    (field c.payload 1 1 = 0xFF → (unitS s (field c.payload 0 1)).ustate = .up → exec (.linkBounds c) s = .next
      ((List.range 12).foldl (fun s k => cfgSend (field c.payload 0 1) k (slice c.payload 4 12) s)
        { s with uw := s.uw ++ [⟨field c.payload 0 1, 0x603, some (c, stateWord s), 11, s.wd.time⟩] }))) ∧
  (∀ (u p : Nat) (b q : Bytes) (s : State), unitTakes s u 0x8102 = some q → field q 0 1 = p → slice q 4 12 = slice b 0 12 → lportOk s u p = true →
    exec (.linkCfg u p b) s = .next (unitDone u 0x8102 [] s (modLport (ordOfUnit s u) p (fun x => { x with bounds := clampBounds b }) (tookCmd u s)))) ∧
  (∀ (u p w d : Nat) (c : HostCall) (q r : Bytes) (s : State), s.uw = [⟨u, 0x603, some (c, w), p, d⟩] → field q 0 1 = p → slice (slice q 4 12) 0 12 = slice c.payload 4 12 →
    respHandle u 0x8102 q r s = answer c 0x603 w 0 0 [] { s with uw := [] }) ∧
  (∀ b : Bytes, let f (i : Nat) : Nat := field (clampBounds b) i 1
    f 0 ≤ 40 ∧ f 1 ≤ 40 ∧ f 2 ≤ 32 ∧ f 3 ≤ 32 ∧ f 4 ≤ 48 ∧ 50 ≤ f 5 ∧ f 5 ≤ 100 ∧ 0x0A00 ≤ field (clampBounds b) 6 2 ∧ field (clampBounds b) 6 2 ≤ 0x1800 ∧
      1 ≤ f 8 ∧ f 8 ≤ 99 ∧ 3 ≤ f 9 ∧ f 9 ≤ 8 ∧ (clampBounds b).length = 12) ∧
  (∀ (c : HostCall) (s : State), Admitted 0x604 c s → c.ch < 8 → c.payload.length = 32 → stageOk c 8 s = true → allZero (slice c.payload 12 4) = true →
    let b := stageBytes c s
    let t := { s with idn := { s.idn with nonce := none } }
    let u := field c.payload 0 1
    let p := field c.payload 1 1
    (lportOk s u p = false → exec (.linkClear c) s = .next (failed 0x604 c s 0x0200 0 s)) ∧
    (lportOk s u p = true → allZero (slice c.payload 2 6) = true → b.length ≠ 7475 → exec (.linkClear c) s = .next (failed 0x604 c s 0x0200 1 t)) ∧
    (lportOk s u p = true → allZero (slice c.payload 2 6) = true → b.length = 7475 → field b 0 4 = 0x544E4D54 → field b 4 2 = 1 → allZero (slice b 7 1) = true →
      allZero (slice b 10 6) = true → allZero (slice b 56 8) = true → field b 8 2 < 4096 →
      ((field b 6 1 ≠ u ∨ bit (field b 8 2) p = false) → exec (.linkClear c) s = .next (failed 0x604 c s 0x0400 2 t)) ∧
      (field b 6 1 = u → bit (field b 8 2) p = true → slice b 16 8 ≠ mfgId s → exec (.linkClear c) s = .next (failed 0x604 c s 0x0400 3 t)) ∧
      (field b 6 1 = u → bit (field b 8 2) p = true → slice b 16 8 = mfgId s → s.idn.nonce ≠ some (slice b 24 32) → exec (.linkClear c) s = .next (failed 0x604 c s 0x0400 4 t)) ∧
      (field b 6 1 = u → bit (field b 8 2) p = true → slice b 16 8 = mfgId s → s.idn.nonce = some (slice b 24 32) → allZero s.ln.rak = false →
        Config.sha384 (slice b 64 2688) = s.ln.rak → exec (.linkClear c) s = .next (pqAdd 2 (.linkClear c (stateWord s) u p)
          (verifyJobs (slice b 64 96) (slice b 160 2592) (b.take 2752) (slice b 2752 96) (slice b 2848 4627)) t)))) ∧
  (∀ (c : HostCall) (s : State), Admitted 0x601 c s → c.ch < 8 → c.payload.length = 32 → stageOk c 8 s = true → allZero (slice c.payload 12 4) = true →
    let b := stageBytes c s
    let job := field c.payload 0 8
    (field b 0 4 ≠ 0x4B4E4C54 → exec (.linkKeyx c) s = .next (failed 0x601 c s 0x0200 1 s)) ∧
    (field b 0 4 = 0x4B4E4C54 → field b 4 2 = 1 → field b 6 1 = 1 → allZero (slice b 7 1) = true → field b 8 2 < 4096 → allZero (slice b 10 6) = true → b.length = 4424 →
      bytesLt (ownLid s) (peerLid b) = true →
      ((∃ j, jobS s job = some j ∧ j.st = .running) → exec (.linkKeyx c) s = .next (failed 0x601 c s 0x0300 2 s)) ∧
      (jobS s job = none → (∃ i ∈ s.ln.inst, i.job = job ∧ i.peerLid = peerLid b) → exec (.linkKeyx c) s = .next (failed 0x601 c s 0x0502 3 s)) ∧
      (jobS s job = none → s.ln.inst = [] → s.ln.pend = [] → serialCurrent (field b 16 8) s = false → exec (.linkKeyx c) s = .next (failed 0x601 c s 0x0303 4 s)) ∧
      (jobS s job = none → s.ln.inst = [] → s.ln.pend = [] → serialCurrent (field b 16 8) s = true → slotServes (slotS s 60) 4 = true → slotServes (slotS s 61) 4 = true →
        ∀ n i, freeLke s = some n → freeLinkSlot s = some i → ∀ es, boundManifest (slice b 24 48) s = some es → peerLid b ∈ es → peerSkd b ∈ es →
        exec (.linkKeyx c) s = .next (pqAdd 1 (.keyx c (stateWord s) 1 b) [⟨0x21, [slice b 2760 1568], none, some 56, 2⟩]
          { s with ln := { s.ln with pend := [⟨job, i, n, field b 8 2, peerLid b, []⟩] } }))) ∧
    (∀ k, (k = 2 ∧ b.length = 10883 ∧ bytesLt (ownLid s) (peerLid b) = false ∧ serialCurrent (field b 16 8) s = true ∧ (freeLke s).isSome = true ∨
        k = 3 ∧ b.length = 9363 ∧ bytesLt (ownLid s) (peerLid b) = true) →
      field b 0 4 = 0x4B4E4C54 → field b 4 2 = 1 → field b 6 1 = k → allZero (slice b 7 1) = true → field b 8 2 < 4096 → allZero (slice b 10 6) = true →
      jobS s job = none → s.ln.inst = [] → slotServes (slotS s 60) 4 = true → slotServes (slotS s 61) 4 = true →
      ∀ es, boundManifest (slice b 24 48) s = some es → peerLid b ∈ es → peerSkd b ∈ es → keyxMsgOk job b s = true →
      let m := b.drop 4424
      let n := if k = 2 then 1736 else 216
      exec (.linkKeyx c) s = .next (pqAdd 1 (.keyx c (stateWord s) k b)
        (verifyJobs (slice b 72 96) (slice b 168 2592) (m.take n) (slice m n 96) (slice m (n + 96) 4627)) s))) ∧
  (∀ (u : Nat) (q : Bytes) (s : State), unitTakes s u 0x8104 = some q →
    exec (.linkQuery u) s = .next (unitDone u 0x8104 ((List.range 12).flatMap (fun p => toLe 4 (linyaRead u (0x100 + 16 * p) s))) s (tookCmd u s))) ∧
  (∀ (job : Nat) (s : State), (∀ p ∈ s.ln.pend, p.job ≠ job) → exec (.keyxPendingTimeout job) s = .next s) ∧
  (∀ (p : KeyxPend) (s : State), s.ln.pend = [p] → exec (.keyxPendingTimeout p.job) s = .next (zeroSlot p.slot false { s with ln := { s.ln with pend := [] } }))

/-- A Linya port's states (R454, R456, R460, R461, R464). Points the model
chooses: log entries 39, 94. -/
def Obligations.LinyaPortStates : Prop :=
  (∀ (u p : Nat) (s : State), lportOk s u p = false → SqFree s →
    exec (.linkSignalDetect u p) s = .next s ∧ exec (.linkTrainingFail u p) s = .next s ∧ exec (.linkSignalLost u p) s = .next s ∧
    exec (.linkHoldExpiry u p) s = .next s ∧ exec (.linkUncorrLimit u p) s = .next s ∧ exec (.linkDegraded u p) s = .next s ∧
    exec (.linkDegradedTimeout u p) s = .next s ∧ exec (.linkDegradedRecovery u p) s = .next s ∧ exec (.linkRetrainWrite u p) s = .next s ∧
    exec (.flitAckTimeout u p) s = .next s) ∧
  (∀ (u p : Nat) (s : State), lportOk s u p = true →
    let d := ordOfUnit s u
    let x := lportS s d p
    let g := (unitS s u).gen.toNat
    (portFwRuns s u = true → x.st = .down → exec (.linkSignalDetect u p) s = .next (setLState u p .training (modLport d p (fun y => { y with hello := ownNtag u p s }) s))) ∧
    (x.st ≠ .down → exec (.linkSignalDetect u p) s = .next s) ∧
    (portFwRuns s u = true → x.st = .training → ∀ a tag, (∀ o b, lookupNat (12 * d + p) s.ln.nbrs = some (o, b) → o = slice tag 0 8) →
      exec (.linkHelloComplete u p a tag) s = .next
        (let r := modLport d p (fun y => { y with lanes := 4, attempts := 0, uncorr := 0, holding := false }) s
         routesSet (modLport d p lportPump (setLState u p .up { r with ln := { r.ln with nbrs := putKey (12 * d + p) (slice tag 0 8, a % 4096) r.ln.nbrs } })))) ∧
    (x.st ≠ .training → ∀ a tag, exec (.linkHelloComplete u p a tag) s = .next s) ∧
    (x.st = .training → x.attempts < 2 → SqFree s → exec (.linkTrainingFail u p) s = .next (modLport d p (fun y => { y with attempts := y.attempts + 1 }) s)) ∧
    (x.st = .training → 2 ≤ x.attempts → exec (.linkTrainingFail u p) s = .next
      (sqEvent (mapOutBy u p 1 (fun s => mapOut u p (modLport d p (fun y => { y with attempts := y.attempts + 1 }) s))) s)) ∧
    ((x.st = .up ∨ x.st = .degraded) → exec (.linkSignalLost u p) s = .next
      (traceLink u p (modLport d p (fun y => if y.st == .mappedOut then y else { y with lanes := 0, attempts := 0, holding := y.holding || y.st == .up || y.st == .degraded, st := .down }) s))) ∧
    (x.st = .training → exec (.linkSignalLost u p) s = .next (traceLink u p (modLport d p LPort.leave s))) ∧
    (x.holding = true → x.st = .down → exec (.linkHoldExpiry u p) s = .next (portDrop d p s)) ∧
    (x.holding = false → exec (.linkHoldExpiry u p) s = .next s) ∧
    ((x.st = .up ∨ x.st = .degraded) → exec (.linkUncorrLimit u p) s = .next (sqEvent (mapOutBy u p 2 (fun s => mapOut u p s)) s)) ∧
    (x.st = .up → exec (.linkDegraded u p) s = .next (setLState u p .degraded s)) ∧
    (x.st = .degraded → exec (.linkDegradedRecovery u p) s = .next (setLState u p .up s) ∧
      exec (.linkDegradedTimeout u p) s = .next (sqEvent (mapOutBy u p 4 (fun s => mapOut u p s)) s)) ∧
    (portFwRuns s u = true → (x.st = .up ∨ x.st = .degraded) → exec (.linkRetrainWrite u p) s = .next
      (trainStart u p (modLport d p (fun y => { y with lanes := 0, holding := true }) s))) ∧
    (x.st = .mappedOut → mapOut u p s = s ∧ exec (.linkRetrainWrite u p) s = .next s) ∧
    ((x.st = .up ∨ x.st = .degraded) → x.replay ≠ [] → x.resends < 8 → SqFree s → exec (.flitAckTimeout u p) s = .next (modLport d p (fun x => { x with resends := x.resends + 1 }) s)) ∧
    ((x.st = .up ∨ x.st = .degraded) → x.replay ≠ [] → 8 ≤ x.resends → exec (.flitAckTimeout u p) s = .next (sqEvent (mapOutBy u p 3 (fun s => mapOut u p s)) s)) ∧
    (∀ (cause : Nat) (f : State → State), x.st ≠ .mappedOut → (unitS (f s) u).gen.toNat = g → ordOfUnit (f s) u = d → (lportS (f s) d p).st = .mappedOut →
      mapOutBy u p cause f s = imbPost u g (unitFrame 0xFF02 0 g ([0x10#8] ++ toLe 1 p ++ toLe 1 4 ++ toLe 1 cause)) (f s))) ∧
  (∀ (u p : Nat) (s : State), lportOk s u p = true → ordOfUnit s u < s.ln.dies.length → p < (ldS s (ordOfUnit s u)).ports.length → s.jb.list = [] →
    (lportS s (ordOfUnit s u) p).st ≠ .mappedOut →
    let t := mapOut u p s
    (lportS t (ordOfUnit s u) p).st = .mappedOut ∧ (lportS t (ordOfUnit s u) p).replay = [] ∧ (lportS t (ordOfUnit s u) p).jobs = []) ∧
  (∀ (u p cause : Nat) (s : State), lportOk s u p = true → bit (nth 0 s.ln.mapout (ordOfUnit s u)) p = false →
    mapOutSeen u p cause s = fqAdd .link (logEvent 0x0602 u (toLe 1 p ++ toLe 1 cause)
      { s with ln := { s.ln with mapout := modNth (ordOfUnit s u) (fun m => setBit m p true) s.ln.mapout } })) ∧
  (∀ (u mask : Nat) (q : Bytes) (s : State), unitTakes s u 0x8103 = some q → field q 0 2 = mask →
    exec (.linkTrain u mask) s = .next (unitDone u 0x8103 [] s (linkTrain u mask (tookCmd u s)))) ∧
  (∀ (u mask : Nat) (s : State), portFwRuns s u = false → linkTrain u mask s = s) ∧
  (∀ (u p : Nat) (s : State), portFwRuns s u = true → p < 12 → (lportS s (ordOfUnit s u) p).st = .down → (∀ q, q < 12 → q ≠ p → (lportS s (ordOfUnit s u) q).st ≠ .down) →
    linkTrain u 0xFFF s = trainStart u p s)

/-- Flits and messages (R447 to R449, R452, R453, R456). Points the model
chooses: log entries 1, 39, 94. -/
def Obligations.FlitsAndMessages : Prop :=
  (∀ (u p : Nat) (f : Bytes) (s : State), (lportOk s u p = false ∨ f.length ≠ 256 ∨ field f 248 4 ≠ crc32c (f.take 248) ∨ (lportS s (ordOfUnit s u) p).st.carries = false) →
    exec (.flitReceived u p f) s = .next s) ∧
  (∀ (u p : Nat) (f : Bytes) (s : State), lportOk s u p = true → ((lportS s (ordOfUnit s u) p).st = .up ∨ (lportS s (ordOfUnit s u) p).st = .degraded) →
    f.length = 256 → field f 248 4 = crc32c (f.take 248) → bit (field f 254 1) 0 = false →
    let d := ordOfUnit s u
    let t := modLport d p (fun x => { x with rxLseq := field f 6 2 }) s
    let own := s.ln.daddr
    ((field f 6 2 ≠ ((lportS s d p).rxLseq + 1) % 65536 ∨ field f 4 1 % 16 = 8) → exec (.flitReceived u p f) s = .next s) ∧
    (field f 6 2 = ((lportS s d p).rxLseq + 1) % 65536 → field f 4 1 % 16 ≠ 8 →
      (own = 0 → exec (.flitReceived u p f) s = .next t) ∧
      (own ≠ 0 → field f 0 2 % 4096 = own →
        (field f 4 1 % 16 = 1 → exec (.flitReceived u p f) s = .next (modLport d p (fun x => { x with asm := slice f 8 240 }) t)) ∧
        (field f 4 1 % 16 = 2 → exec (.flitReceived u p f) s = .next (modLport d p (fun x => { x with asm := x.asm ++ slice f 8 240 }) t)) ∧
        (field f 4 1 % 16 = 4 → exec (.flitReceived u p f) s = .next (msgRecv u (field f 5 1) (slice f 8 240) t))) ∧
      (own ≠ 0 → field f 0 2 % 4096 ≠ own → s.ln.routes = [] → (lookupNat (4096 * (field f 2 2 % 4096) + field f 0 2 % 4096) s.ln.pins) = none →
        exec (.flitReceived u p f) s = .next (noRoute d 1 t)))) ∧
  (∀ (u key : Nat) (m : Bytes) (s : State), 1 ≤ field m 16 4 → field m 16 4 ≤ 65536 → 32 + field m 16 4 ≤ m.length → bit key 7 = false →
    ((pxS s (ordOfUnit s u)).conf = true → msgRecv u key m s = plainDrop (ordOfUnit s u) s) ∧
    ((pxS s (ordOfUnit s u)).conf = false → msgRecv u key m s = { s with ln := { s.ln with recv := (field m 0 8, field m 20 2, slice m 32 (field m 16 4)) :: s.ln.recv } })) ∧
  (∀ (x : SendIn) (j : Job) (s : State), unitType s x.u = .port → unitUp s x.u = true → jobS s x.job = some j → j.st = .running → s.ln.daddr ≠ 0 →
    1 ≤ x.body.length → x.body.length ≤ 65536 →
    let d := ordOfUnit s x.u
    (x.enc = false → (pxS s d).conf = true → exec (.linkMessageSend x) s = .next (plainDrop d s)) ∧
    (x.enc = false → (pxS s d).conf = false → exec (.linkMessageSend x) s = .next
      (msgSend d (x.entry % 64) (x.daddr % 4096) x.job (msgHead x.job 0 x.body.length x.chan (x.daddr % 4096) s.ln.daddr ++ x.body) s)) ∧
    (x.enc = true → ∀ k, linkKey s x.u (x.entry % 64) (nth ({} : LKey) (ldS s d).lke (x.entry % 64)).swap true = some k →
      let e := nth ({} : LKey) (ldS s d).lke (x.entry % 64)
      let h := msgHead x.job (e.txseq + 1) x.body.length x.chan (x.daddr % 4096) s.ln.daddr
      ((e.valid = false ∨ e.job ≠ x.job ∨ 0xFFFFFFFF ≤ e.txseq) → exec (.linkMessageSend x) s = .next s) ∧
      (e.valid = true → e.job = x.job → e.txseq < 0xFFFFFFFF → exec (.linkMessageSend x) s = .next (msgSend d (x.entry % 64 + 128) (x.daddr % 4096) x.job
        (h ++ (List.range (x.body.length + 16)).map (Config.gcmByte true k (msgIv x.job (e.txseq + 1)) h x.body))
        (modLke (x.entry % 64) (fun y => { y with txseq := e.txseq + 1 }) s))))) ∧
  (∀ (x : SendIn) (j : Job) (s : State), jobS s x.job = some j → j.st ≠ .running → exec (.linkMessageSend x) s = .next s) ∧
  (∀ (b : Nat) (h pl : Bytes) (j : Option Nat) (s : State), h.length = 6 → (lportS s (b / 12) (b % 12)).replay = [] → (lportS s (b / 12) (b % 12)).queue = [] →
    b / 12 < s.ln.dies.length → b % 12 < (ldS s (b / 12)).ports.length →
    ((lportS s (b / 12) (b % 12)).st.carries = true → ∃ f, (lportS (flitSend b h pl j s) (b / 12) (b % 12)).replay = [f] ∧ f.length = 256 ∧ field f 248 4 = crc32c (f.take 248) ∧
      field f 6 2 = ((lportS s (b / 12) (b % 12)).txLseq + 1) % 65536) ∧
    ((lportS s (b / 12) (b % 12)).st.carries = false → (lportS (flitSend b h pl j s) (b / 12) (b % 12)).queue = [⟨h, pl, j⟩] ∧
      (lportS (flitSend b h pl j s) (b / 12) (b % 12)).replay = []))

/-- The power commands (R41, R212, R265, R470, R473, R488 to R492). Points the model
chooses: log entries 30, 32. -/
def Obligations.PowerCommands : Prop :=
  (∀ (c : HostCall) (s : State), Admitted 0x700 c s → c.payload = [] →
    (s.pkg.mode ≠ .confidential → exec (.pwrStatus c) s = .next (replied 0x700 c s (toLe 2 s.pw.pwr ++ toLe 2 (pCap s) ++
      toLe 1 (s.pw.tiles.foldl (fun m x => max m (x.tj / 10)) 0) ++ toLe 1 (s.pw.tiles.filter (fun x => x.throt)).length ++ toLe 2 (2 * b2n (brakeOn s)) ++ toLe 4 (limitsNow s)) s)) ∧
    (s.pkg.mode = .confidential → exec (.pwrStatus c) s = .next (replied 0x700 c s (toLe 2 s.hb.tele.pwr ++ toLe 2 (pCap s) ++
      toLe 1 s.hb.tele.tjmax ++ toLe 1 s.hb.tele.throt ++ toLe 2 (1 + 2 * b2n s.hb.tele.brake) ++ toLe 4 (limitsNow s)) s))) ∧
  (∀ (c : HostCall) (s : State), Admitted 0x701 c s → c.payload.length = 4 →
    (rating s < field c.payload 0 2 → exec (.pwrCapSet c) s = .next (failed 0x701 c s 0x0200 0 s)) ∧
    (allZero (slice c.payload 2 2) = true → field c.payload 0 2 ≤ rating s → exec (.pwrCapSet c) s = .next (replied 0x701 c s
      (toLe 2 (max Config.kBrakeW (field c.payload 0 2)) ++ toLe 2 0) { s with pw := { s.pw with pHost := some (max Config.kBrakeW (field c.payload 0 2)) } }))) ∧
  (∀ (c : HostCall) (s : State), Admitted 0x702 c s → c.payload.length = 4 →
    let t := { s with pw := { s.pw with tjt := min s.pw.tjt (field c.payload 0 1), tjs := min s.pw.tjs (field c.payload 1 1), vcm := min s.pw.vcm (field c.payload 2 2) } }
    ((field c.payload 1 1 ≤ field c.payload 0 1 ∨ field c.payload 0 1 < 60 ∨ 110 < field c.payload 1 1 ∨ field c.payload 2 2 < 600 ∨ 950 < field c.payload 2 2) →
      exec (.limitTighten c) s = .next (failed 0x702 c s 0x0200 0 s)) ∧
    (field c.payload 0 1 < field c.payload 1 1 → 60 ≤ field c.payload 0 1 → field c.payload 1 1 ≤ 110 → 600 ≤ field c.payload 2 2 → field c.payload 2 2 ≤ 950 →
      exec (.limitTighten c) s = .next (replied 0x702 c s (toLe 4 (limitsNow t)) t))) ∧
  (∀ (c : HostCall) (s : State), Admitted 0x703 c s → c.payload.length = 4 →
    (18 ≤ field c.payload 0 1 → exec (.unitStatus c) s = .next (failed 0x703 c s 0x0200 0 s)) ∧
    (field c.payload 0 1 < 18 → allZero (slice c.payload 1 3) = true → (unitType s (field c.payload 0 1) = .stack ∨ unitType s (field c.payload 0 1) = .blank) →
      exec (.unitStatus c) s = .next (replied 0x703 c s (unitBody (field c.payload 0 1) s) s)) ∧
    (field c.payload 0 1 < 18 → allZero (slice c.payload 1 3) = true → (unitType s (field c.payload 0 1) = .tile ∨ unitType s (field c.payload 0 1) = .port) →
      let u := field c.payload 0 1
      let v := viewCheck u none 2 s
      ((unitS v u).ustate = .up → exec (.unitStatus c) s = .next (unitCmd u (if u < 8 then 0x8006 else 0x8104) []
        { v with uw := v.uw ++ [⟨u, 0x703, some (c, stateWord v), 0, v.wd.time⟩] })) ∧
      ((unitS v u).ustate ≠ .up → exec (.unitStatus c) s = .next (answer c 0x703 (stateWord s) 0 1 (unitBody u v) v)))) ∧
  (∀ (c : HostCall) (s : State), Admitted 0x704 c s → c.payload.length = 4 → allZero (slice c.payload 1 3) = true →
    let u := field c.payload 0 1
    let t := if u < 8 then u else u - 9
    (18 ≤ u → exec (.memTelem c) s = .next (failed 0x704 c s 0x0200 0 s)) ∧
    (u < 8 → hasStack s u = false → exec (.memTelem c) s = .next (failed 0x704 c s 0x0302 0 s)) ∧
    (u < 8 → hasStack s u = true → unitUp s t = false → exec (.memTelem c) s = .next (failed 0x704 c s 0x0600 0 s)) ∧
    (u < 18 → (if u < 8 then hasStack s u = true else unitType s u = .stack) → unitUp s t = true → exec (.memTelem c) s = .next (replied 0x704 c s
      (toLe 1 (if s.pkg.mode = .confidential then nth 0 s.hb.tele.stk t else (mcS s t).temp) ++ toLe 3 0 ++ toLe 4 (mcS s t).corr ++ toLe 4 (mcS s t).tagf) s))) ∧
  (∀ (c : HostCall) (s : State), Admitted 0x705 c s → c.payload.length = 4 → allZero (slice c.payload 1 3) = true →
    (12 < field c.payload 0 1 → exec (.perfRead c) s = .next (failed 0x705 c s 0x0200 0 s)) ∧
    (field c.payload 0 1 ≤ 12 → exec (.perfRead c) s = .next (replied 0x705 c s
      ((List.range 512).flatMap (fun i => toLe 8 ((lookupNat (512 * field c.payload 0 1 + i) s.pw.perf).getD 0))) s))) ∧
  (∀ (c : HostCall) (s : State), Admitted 0x706 c s → c.payload = [] →
    (s.pkg.st ≠ .idle → exec (.powerDown c) s = .next (failed 0x706 c s 0x0300 0 s)) ∧
    (s.pkg.st = .idle → exec (.powerDown c) s = .next (answer c 0x706 (stateWord (toWarden s)) 0 0 [] (toWarden s)))) ∧
  (∀ (c : HostCall) (s : State), Admitted 0x707 c s → c.payload.length = 4 → allZero (slice c.payload 3 1) = true → exec (.telemThresh c) s = .next (replied 0x707 c s []
    { s with hb := { s.hb with thresh := [(0, field c.payload 0 2), (1, field c.payload 2 1)], crossed := [] } })) ∧
  (∀ (c : HostCall) (s : State), Admitted 0x708 c s → c.payload.length = 4 → allZero (slice c.payload 1 3) = true →
    (1 < field c.payload 0 1 → exec (.irqQuant c) s = .next (failed 0x708 c s 0x0200 0 s)) ∧
    (field c.payload 0 1 = 1 → s.pw.quant = false → exec (.irqQuant c) s = .next (replied 0x708 c s (toLe 1 1 ++ toLe 3 0)
      { s with pw := { s.pw with quant := true }, jb := { s.jb with gridView := s.jb.list.map (fun j => (j.id, j.st)) } })) ∧
    (field c.payload 0 1 = 0 → s.xl.asts = [] → exec (.irqQuant c) s = .next (replied 0x708 c s (toLe 1 0 ++ toLe 3 0)
      { s with pw := { s.pw with quant := false }, jb := { s.jb with gridView := [] } })))

/-- Hardware loops of the tiles (R471, R475 to R479). Points the model
chooses: log entries 30, 31. -/
def Obligations.TileTripsThrottleAndVoltage : Prop :=
  (∀ (t : Nat) (s : State), (8 ≤ t ∨ s.pkg.tilePg = false) → (∀ n a f, exec (.tjShutdownTrip t) s = .next s ∧ exec (.vcoreCeilingTrip t) s = .next s ∧
    exec (.sensorMismatch t) s = .next s ∧ exec (.throttleConversion t n) s = .next s ∧ exec (.avsLoopStep t a f) s = .next s)) ∧
  (∀ (t : Nat) (s : State), t < 8 → s.pkg.tilePg = true → s.pkg.st.main = true →
    let h := modUnit t (fun x => { x with clkStop := true, hbAge := 0 }) (modTileP t (fun x => { x with tripped := true }) s)
    exec (.tjShutdownTrip t) s = .next (quarantine 9 (stopTiles (setAlarm t h))) ∧
    exec (.sensorMismatch t) s = .next (quarantine 9 (stopTiles (setAlarm 20 (modTileP t (fun x => { x with pairBad := true }) h)))) ∧
    exec (.vcoreCeilingTrip t) s = .next (quarantine 0x0A (stopTiles (setAlarm (8 + t) { h with
      pkg := { h.pkg with tileEn := false }, pw := { h.pw with tileEnHeld := true } })))) ∧
  (∀ (t n : Nat) (s : State), t < 8 → s.pkg.tilePg = true → n < 10 * s.pw.tjt → n < 10 * s.pw.tjs →
    exec (.throttleConversion t n) s = .next (modTileP t (fun x => { x with tj := n, perTj := max x.perTj n })
      { modTileP t (fun x => { x with pairDiff := Config.freeNat s.draws % 2560 }) s with draws := s.draws + 1 })) ∧
  (∀ (t n : Nat) (s : State), t < 8 → s.pkg.tilePg = true → 10 * s.pw.tjs ≤ n → Runs (.throttleConversion t n) s fun r =>
    ∃ q, r = tjTrip t q ∧ (n < 10 * s.pw.tjt → q = modTileP t (fun x => { x with tj := n, perTj := max x.perTj n })
      { modTileP t (fun x => { x with pairDiff := Config.freeNat s.draws % 2560 }) s with draws := s.draws + 1 })) ∧
  (∀ (t n : Nat) (s : State), t < 8 → t < s.pw.tiles.length → s.pkg.tilePg = true → 10 * s.pw.tjt ≤ n → n < 10 * s.pw.tjs →
    Runs (.throttleConversion t n) s fun r => (tileP r t).throt = true ∧ (tileP r t).fthr = max 400 ((if (tileP s t).throt then (tileP s t).fthr else tileClk s t) - 100) ∧
      bit r.pw.notice t = true ∧ (tileP r t).tj = n) ∧
  (∀ (t : Nat) (s : State), ((tileP s t).throt = false ∨ 10 * s.pw.tjt < (tileP s t).tj + 30) → exec (.throttleReleaseStep t) s = .next s) ∧
  (∀ (t : Nat) (s : State), (tileP s t).throt = true → (tileP s t).tj + 30 ≤ 10 * s.pw.tjt → exec (.throttleReleaseStep t) s = .next
    (modTileP t (fun x => { x with fthr := min 1900 (x.fthr + 100), throt := decide (x.fthr + 100 < 1900) }) s)) ∧
  (∀ (t target favs : Nat) (s : State), t < 8 → t < s.pw.tiles.length → s.pkg.tilePg = true → 600 ≤ (tileP s t).setpoint → (tileP s t).setpoint ≤ s.pw.vcm - 25 →
    Runs (.avsLoopStep t target favs) s fun r => 600 ≤ (tileP r t).setpoint ∧ (tileP r t).setpoint ≤ s.pw.vcm - 25 ∧ (tileP r t).vcore = (tileP r t).setpoint ∧
      (tileP r t).setpoint ≤ (tileP s t).setpoint + 25 ∧ (tileP s t).setpoint ≤ (tileP r t).setpoint + 25 ∧ (tileP r t).favs = favs) ∧
  (∀ (t : Nat) (s : State), t < 8 → s.pkg.st.main = true → s.pkg.tilePg = true → exec (.droopEvent t) s = .next
    (perfAdd 0 12 1 (setNotice 12 (modTileP t (fun x => { x with droops := min 65535 (x.droops + 1) }) s)))) ∧
  (∀ (t : Nat) (s : State), (s.pkg.st.main = false ∨ s.pkg.tilePg = false) → exec (.droopEvent t) s = .next s)

/-- The brake, the firmware loops, telemetry and the log flush (R220, R471, R473, R481 to R483, R488, R507). Points the model
chooses: log entries 30, 31. -/
def Obligations.BrakeLoopsAndTelemetry : Prop :=
  (∀ s : State, s.pw.brakeN = false → exec .brakeNAssert s = .next s) ∧
  (∀ s : State, s.pw.brakeN = true → (s.pkg.st.main = false ∨ s.pkg.tilePg = false) → exec .brakeNAssert s = .next
    { s with pw := { s.pw with brakeN := false, brakeCount := min 65535 (s.pw.brakeCount + 1) } }) ∧
  (∀ s : State, s.pw.brakeN = true → s.pkg.st.main = true → s.pkg.tilePg = true → s.pkg.mode = .confidential → exec .brakeNAssert s = .next
    (logEvent 0x0702 0xFF [1#8] (setNotice 8 { s with pw := { s.pw with
      brakeN := false, brakeCount := min 65535 (s.pw.brakeCount + 1), brakeForce := true, brakeRamp := false, fbrk := 400, issueHalf := true, perBrake := true } }))) ∧
  (∀ s : State, s.pw.brakeN = true → s.pkg.st.main = true → s.pkg.tilePg = true → s.pkg.mode ≠ .confidential → Runs .brakeNAssert s fun r =>
    ∃ q, r = pldmEvent 23 2 q ∧ q = logEvent 0x0702 0xFF [1#8] (setNotice 8 { s with pw := { s.pw with
      brakeN := false, brakeCount := min 65535 (s.pw.brakeCount + 1), brakeForce := true, brakeRamp := false, fbrk := 400, issueHalf := true, perBrake := true } })) ∧
  (∀ s : State, s.pw.brakeN = true → exec .brakeNDeassert s = .next s) ∧
  (∀ s : State, s.pw.brakeN = false → brakeOn s = false → exec .brakeNDeassert s = .next { s with pw := { s.pw with brakeN := true } }) ∧
  (∀ s : State, s.pw.brakeN = false → brakeOn s = true → s.pkg.mode = .confidential → exec .brakeNDeassert s = .next
    (logEvent 0x0702 0xFF [0#8] { s with pw := { s.pw with brakeN := true, brakeForce := true, brakeRamp := false, fbrk := 400, issueHalf := true } })) ∧
  (∀ (t : Nat) (s : State), brakeOn s = true → tileClk s t = 400) ∧
  (∀ s : State, (s.pw.brakeN = false ∨ (s.pw.brakeForce = false ∧ s.pw.brakeRamp = false)) → exec .brakeRampStep s = .next s) ∧
  (∀ s : State, s.pw.brakeN = true → (s.pw.brakeForce = true ∨ s.pw.brakeRamp = true) → exec .brakeRampStep s = .next { s with pw := { s.pw with
    brakeForce := false, brakeRamp := decide (min 1900 (s.pw.fbrk + 100) < 1900), fbrk := min 1900 (s.pw.fbrk + 100),
    issueHalf := s.pw.issueHalf && decide (min 1900 (s.pw.fbrk + 100) ≤ 800) } }) ∧
  (∀ s : State, Runs (.powerMonitorSample none) s fun t => t.pw.monGood = 0 ∧ t.pw.samples = s.pw.samples ∧ t.pw.mean = s.pw.mean ∧ t = { s with pw := t.pw, draws := s.draws + 2 }) ∧
  (∀ (w : Nat) (s : State), w < 65536 → Runs (.powerMonitorSample (some w)) s fun t => t.pw.pwr = w ∧ t.pw.samples = (w :: s.pw.samples).take 10000 ∧
    t.pw.mean = ((w :: s.pw.samples).take 10000).foldl (· + ·) 0 / ((w :: s.pw.samples).take 10000).length % 65536 ∧ t.pw.monGood = min 2 (s.pw.monGood + 1) ∧
    t = { s with pw := t.pw, draws := s.draws + 2 }) ∧
  (∀ s : State, (s.pkg.st.main = false ∨ s.pkg.tilePg = false ∨ fwWfw s = false) → exec .powerCapLoop s = .next s ∧
    exec .thermalLoop s = .next ((coreUnits s).foldl (fun s u => viewCheck u none 3 s) s)) ∧
  (∀ s : State, s.pkg.st.main = true → s.pkg.tilePg = true → fwWfw s = true → 2 ≤ s.pw.monGood → s.pw.samples ≠ [] →
    let l := s.pw.samples.take 10
    let sum := l.foldl (· + ·) 0
    (l.length * pCap s < sum → (∀ x ∈ s.pw.tiles, x.capReq = 400) → exec .powerCapLoop s = .next
      (logEvent 0x0703 0xFF (toLe 2 (sum / l.length) ++ toLe 2 (pCap s)) (setNotice 13 s))) ∧
    (l.length * pCap s < sum → (∃ x ∈ s.pw.tiles, x.capReq ≠ 400) → exec .powerCapLoop s = .next
      (setReqs (mapCap (fun c => max 400 (c - 50 * ((sum - l.length * pCap s + 50 * l.length - 1) / (50 * l.length)))) s))) ∧
    (sum ≤ l.length * pCap s → 20 * sum < 19 * l.length * pCap s → exec .powerCapLoop s = .next (setReqs (mapCap (fun c => min 1900 (c + 50)) s)))) ∧
  (∀ s : State, s.pkg.st.main = true → s.pkg.tilePg = true → fwWfw s = true → s.pw.monGood < 2 → exec .powerCapLoop s = .next (setReqs (mapCap (fun _ => 400) s))) ∧
  (∀ s : State, s.pkg.st.main = true → s.pkg.tilePg = true → fwWfw s = true → exec .thermalLoop s = .next
    ((coreUnits s).foldl (fun s u => viewCheck u none 3 s) (setReqs { s with pw := { s.pw with
    tiles := s.pw.tiles.map (fun (x : TileP) =>
      let d := max (overBy x.tj (s.pw.tjt - 8)) (overBy (hotStack s) 90)
      { x with thermReq := if 0 < d then max 400 (x.thermReq - 50 * d) else if x.tj + 20 ≤ 10 * (s.pw.tjt - 8) then min 1900 (x.thermReq + 50) else x.thermReq }) } }))) ∧
  (∀ s : State, pCap s ≤ rating s ∧ (∀ w, s.pw.pHost = some w → pCap s ≤ w) ∧ (∀ w, s.pw.pMgmt = some w → pCap s ≤ w) ∧ (s.mg.orphan = true → pCap s ≤ Config.kOrphanW)) ∧
  (∀ s : State, fwWfw s = false → exec .telemetryUpdate s = .next s ∧ exec .persistentLogFlush s = .next s) ∧
  (∀ s : State, fwWfw s = true → Runs .telemetryUpdate s fun t => t.hb.tele.seq = s.hb.tele.seq + 2 ∧ t.hb.tele.pcap = pCap s ∧
    t.hb.tele.coarse = decide (s.pkg.mode = .confidential) ∧ (s.pkg.mode ≠ .confidential → t.hb.tele.pwr = s.pw.pwr) ∧
    (s.pkg.mode = .confidential → t.hb.tele.pwr = s.pw.mean / Config.kPwrStepW * Config.kPwrStepW)) ∧
  (∀ s : State, fwWfw s = true → s.lg.waiting ≠ [] → exec .persistentLogFlush s = .next
    (fqAdd (.sector (s.lg.waiting.take 84)) { s with lg := { s.lg with waiting := s.lg.waiting.drop 84 } }))

/-- The update commands and the flash work they wait for (R183 to R187, R192, R193). Points the model
chooses: log entries 36, 88. -/
def Obligations.UpdateCommands : Prop :=
  (∀ (c : HostCall) (s : State), Admitted 0x800 c s → c.payload = [] → exec (.updStatus c) s = .next (replied 0x800 c s
    (toLe 1 s.upd.status ++ toLe 1 s.upd.target ++ toLe 2 0 ++ toLe 4 (programmed s) ++ stagedDigest s ++ toLe 1 s.upd.rtype ++ toLe 1 s.upd.rcode ++ toLe 2 0) s)) ∧
  (∀ (c : HostCall) (s : State), Admitted 0x801 c s → c.payload.length = 8 → allZero (slice c.payload 1 3) = true → s.upd.pldm = false →
    let t := field c.payload 0 1
    let n := field c.payload 4 4
    ((2 < t ∨ t = s.boot.chosen ∨ n = 0 ∨ regionSize t < n) → exec (.updBegin c) s = .next (failed 0x801 c s 0x0200 0 s)) ∧
    (t ≤ 2 → t ≠ s.boot.chosen → n ≠ 0 → n ≤ regionSize t → (s.pkg.st ≠ .quarantine ∨ t = 2) →
      ((s.upd.status = 1 ∨ s.upd.status = 4 ∨ s.upd.status = 5) → exec (.updBegin c) s = .next (failed 0x801 c s 0x0300 0 s)) ∧
      ((s.upd.status = 0 ∨ s.upd.status = 2 ∨ s.upd.status = 3) → rosterBusy s = true → exec (.updBegin c) s = .next (failed 0x801 c s 0x0100 0 s)) ∧
      ((s.upd.status = 0 ∨ s.upd.status = 2 ∨ s.upd.status = 3) → rosterBusy s = false → exec (.updBegin c) s = .next
        { s with fq := { s.fq with sync := some (.updBegin (some c) (stateWord s) t n) } }))) ∧
  (∀ (c : HostCall) (s : State), Admitted 0x802 c s → 9 ≤ c.payload.length → c.payload.length ≤ 4064 → allZero (slice c.payload 4 4) = true → s.upd.pldm = false →
    (s.upd.status ≠ 1 → exec (.updData c) s = .next (failed 0x802 c s 0x0300 0 s)) ∧
    (s.upd.status = 1 → s.pkg.st ≠ .quarantine → s.upd.length < field c.payload 0 4 + (c.payload.length - 8) → exec (.updData c) s = .next (failed 0x802 c s 0x0200 0 s)) ∧
    (s.upd.status = 1 → s.pkg.st ≠ .quarantine → field c.payload 0 4 + (c.payload.length - 8) ≤ s.upd.length → s.upd.prog = [] → rosterBusy s = false →
      exec (.updData c) s = .next { s with fq := { s.fq with sync := some (.updData (some c) (stateWord s) (field c.payload 0 4) (c.payload.drop 8)) } })) ∧
  (∀ (c : HostCall) (s : State), Admitted 0x803 c s → c.payload = [] → s.upd.pldm = false →
    ((s.upd.status = 2 ∨ s.upd.status = 3) → exec (.updEnd c) s = .next (replied 0x803 c s (toLe 1 s.upd.status ++ toLe 3 0) s)) ∧
    (s.upd.status = 1 → programmed s ≠ s.upd.length → exec (.updEnd c) s = .next (failed 0x803 c s 0x0300 0 s)) ∧
    (s.upd.status = 1 → programmed s = s.upd.length → s.pkg.st ≠ .quarantine → rosterBusy s = false → exec (.updEnd c) s = .next
      { s with fq := { s.fq with sync := some (.updEnd (some c) (stateWord s)) } })) ∧
  (∀ (c : HostCall) (s : State), Admitted 0x804 c s → c.payload = [] → s.upd.pldm = false →
    (s.upd.status ≠ 2 → s.upd.status ≠ 3 → exec (.updVerify c) s = .next (failed 0x804 c s 0x0300 0 s)) ∧
    ((s.upd.status = 2 ∨ s.upd.status = 3) → s.pkg.st ≠ .quarantine → exec (.updVerify c) s = .next (updVerifyBegin c (stateWord s) s))) ∧
  (∀ (c : HostCall) (w t : Nat) (s : State), bundleExtra s.upd.target s = some t → c.ch ≠ pldmCh → s.upd.status = 2 →
    updVerifyBegin c w s = answer c 0x804 w 0x0601 0 (toLe 1 2 ++ toLe 1 t ++ toLe 1 2 ++ toLe 1 0) { s with upd := { s.upd with rtype := t, rcode := 2 } }) ∧
  (∀ (c : HostCall) (w k : Nat) (r : List Nat) (s : State), 1 ≤ imgCheck8 s s.upd.target k → imgCheck8 s s.upd.target k ≤ 6 → c.ch ≠ pldmCh → s.upd.status = 2 →
    updVerifyNext c w (k :: r) s = answer c 0x804 w 0x0601 0 (toLe 1 2 ++ toLe 1 k ++ toLe 1 (imgCheck8 s s.upd.target k) ++ toLe 1 0)
      { s with upd := { s.upd with rtype := k, rcode := imgCheck8 s s.upd.target k } }) ∧
  (∀ (c : HostCall) (s : State), Admitted 0x805 c s → c.payload.length = 4 → s.upd.pldm = false →
    (1 < field c.payload 0 1 → exec (.updActivate c) s = .next (failed 0x805 c s 0x0200 0 s)) ∧
    (allZero (slice c.payload 1 3) = true → field c.payload 0 1 ≤ 1 → (s.upd.status ≠ 3 ∨ 2 ≤ s.upd.target) → exec (.updActivate c) s = .next (failed 0x805 c s 0x0300 0 s)) ∧
    (allZero (slice c.payload 1 3) = true → field c.payload 0 1 ≤ 1 → s.upd.status = 3 → s.upd.target < 2 → (s.pkg.st = .idle ∨ s.pkg.st = .recovery) → rosterBusy s = false →
      exec (.updActivate c) s = .next { s with fq := { s.fq with sync := some (.updActivate (some c) (stateWord s) (field c.payload 0 1 == 1)) } })) ∧
  (∀ (c : HostCall) (s : State), Admitted 0x806 c s → c.payload = [] → s.upd.pldm = false →
    (s.upd.status = 0 → exec (.updCancel c) s = .next (replied 0x806 c s (toLe 4 0) s)) ∧
    (5 ≤ s.upd.status → exec (.updCancel c) s = .next (failed 0x806 c s 0x0300 0 s)) ∧
    ((s.upd.status = 1 ∨ s.upd.status = 2 ∨ s.upd.status = 3) → s.pkg.st ≠ .quarantine → rosterBusy s = false → exec (.updCancel c) s = .next
      { s with fq := { s.fq with sync := some (.updCancel (some c) (stateWord s)) } })) ∧
  (∀ (c : HostCall) (w t n : Nat) (s : State),
    let e := flashErase (regionBase t) ((n + 65535) / 65536 * 65536) (writeUpd t 1 n s)
    (s.upd.status ≠ 1 → updSync (.updBegin (some c) w t n) true s = answer c 0x801 w 0 0 (toLe 1 1 ++ toLe 3 0)
      (setUpd 1 { e with upd := { e.upd with target := t, length := n, prog := [], rtype := 0, rcode := 0 } })) ∧
    updSync (.updBegin (some c) w t n) false s = answer c 0x801 w 0x0602 0 (toLe 4 0) (flashErrorEv 0x3000 1 s)) ∧
  (∀ (c : HostCall) (w off : Nat) (d : Bytes) (s : State), s.upd.prog = [] →
    let p := flashProg (regionBase s.upd.target + off) d s
    updSync (.updData (some c) w off d) true s = answer c 0x802 w 0 0 (toLe 4 d.length ++ toLe 4 0) { p with upd := { p.upd with prog := [(off, d.length)] } }) ∧
  (∀ (c : HostCall) (w : Nat) (s : State), updSync (.updEnd (some c) w) true s = answer c 0x803 w 0 0 (ustat (setUpd 2 (writeUpd s.upd.target 2 s.upd.length s))) (setUpd 2 (writeUpd s.upd.target 2 s.upd.length s))) ∧
  (∀ (c : HostCall) (w : Nat) (s : State), s.upd.status ≠ 4 → updSync (.updCancel (some c) w) true s =
    answer c 0x806 w 0 0 (ustat (setUpd 0 (flashErase 0x3000 4096 s))) (setUpd 0 (flashErase 0x3000 4096 s))) ∧
  (∀ (c : HostCall) (w : Nat) (defer : Bool) (s : State),
    let t := setUpd 4 (flashErase 0x3000 4096 (commitSel s.upd.target 2 (selTgt s) (setDigest s.upd.target s) s))
    updSync (.updActivate (some c) w defer) true s = (if defer then answer c 0x805 w 0 0 (ustat t) t else resetAfterReply c 3 (answer c 0x805 w 0 0 (ustat t) t)) ∧
    t.upd.status = 4 ∧
    updSync (.updActivate (some c) w defer) false s = answer c 0x805 w 0x0602 0 (toLe 4 0) (commitFail s))

/-- Logs, trace and receipt batches are read (R359, R505, R508, R509). Points the model
chooses: log entries 95. -/
def Obligations.LogsAndTraceAreRead : Prop :=
  (∀ (c : HostCall) (s : State), Admitted 0x900 c s → c.payload.length = 16 → allZero (slice c.payload 11 5) = true →
    let f := field c.payload 0 8
    let n := field c.payload 8 2
    ((n = 0 ∨ 128 < n ∨ 1 < field c.payload 10 1) → exec (.logRead c) s = .next (failed 0x900 c s 0x0200 0 s)) ∧
    (1 ≤ n → n ≤ 128 → field c.payload 10 1 = 1 → (∀ e ∈ s.lg.ten.head?, f < e.seq) → (s.lg.ten = [] → f < s.lg.tenSeq) →
      exec (.logRead c) s = .next (answer c 0x900 (stateWord s) 0x0501 1 (toLe 8 0 ++ toLe 8 (match s.lg.ten with | e :: _ => e.seq | [] => s.lg.tenSeq)) s)) ∧
    (1 ≤ n → n ≤ 128 → field c.payload 10 1 = 1 → (∀ e ∈ s.lg.ten.head?, e.seq ≤ f) → (s.lg.ten = [] → s.lg.tenSeq ≤ f) →
      let es := ((s.lg.ten.filter (fun e => decide (f ≤ e.seq))).take n)
      exec (.logRead c) s = .next (replied 0x900 c s (toLe 4 es.length ++ toLe 4 0 ++ toLe 8 (f + es.length) ++ es.flatMap logBytes) s)) ∧
    (1 ≤ n → n ≤ 128 → field c.payload 10 1 = 0 → s.lg.pkg = [] → f = s.lg.pkgSeq → f < 2 ^ 64 → c.ch ≠ mgCh →
      exec (.logRead c) s = .next (replied 0x900 c s (toLe 8 0 ++ toLe 8 f) { s with lg := { s.lg with next := f, vecSent := false } }))) ∧
  (∀ (c : HostCall) (s : State), Admitted 0x901 c s → c.payload.length = 4 →
    (allZero (slice c.payload 2 2) = false → exec (.logConfig c) s = .next (failed 0x901 c s 0x0200 0 s)) ∧
    (allZero (slice c.payload 2 2) = true → exec (.logConfig c) s = .next (replied 0x901 c s [] (logVector { s with lg := { s.lg with thresh := field c.payload 0 2 } })))) ∧
  (∀ (c : HostCall) (s : State), Admitted 0x902 c s → c.payload.length = 8 →
    (2 ^ 16 ≤ field c.payload 0 8 → exec (.traceConfig c) s = .next (failed 0x902 c s 0x0200 0 s)) ∧
    (field c.payload 0 8 < 2 ^ 16 → exec (.traceConfig c) s = .next (replied 0x902 c s (toLe 8 (field c.payload 0 8)) { s with lg := { s.lg with mask := field c.payload 0 8 } }))) ∧
  (∀ (c : HostCall) (s : State), Admitted 0x903 c s → c.payload.length = 16 → allZero (slice c.payload 10 6) = true →
    let f := field c.payload 0 8
    let n := field c.payload 8 2
    ((n = 0 ∨ 128 < n) → exec (.traceRead c) s = .next (failed 0x903 c s 0x0200 0 s)) ∧
    (1 ≤ n → n ≤ 128 → (∀ e ∈ s.lg.trace.head?, e.seq ≤ f) → (s.lg.trace = [] → s.lg.traceSeq ≤ f) →
      let es := ((s.lg.trace.filter (fun e => decide (f ≤ e.seq))).take n)
      exec (.traceRead c) s = .next (replied 0x903 c s (toLe 4 es.length ++ toLe 4 0 ++ toLe 8 (f + es.length) ++ es.flatMap traceBytes) s))) ∧
  (∀ (c : HostCall) (s : State), Admitted 0x904 c s → c.payload.length = 8 →
    let n := field c.payload 0 8
    let all := s.rc.archive ++ s.rc.last.toList
    (∀ b, all.find? (fun b => b.1 == n) = some b → exec (.rcptBatch c) s = .next (replied 0x904 c s (if feat s 3 then b.2 else b.2.take (b.2.length - 4627)) s)) ∧
    (all.find? (fun b => b.1 == n) = none → (∃ b, s.rc.waiting = some b ∧ b.num = n) → exec (.rcptBatch c) s = .next (failed 0x904 c s 0x0100 0 s)) ∧
    (all.find? (fun b => b.1 == n) = none → s.rc.waiting = none → s.rc.signing = none → exec (.rcptBatch c) s = .next (failed 0x904 c s 0x0501 0 s))) ∧
  (∀ e : LogEntry, (logBytes e).length = 48) ∧ (∀ r : TraceRec, (traceBytes r).length = 32)

/-- The service commands and their tokens (R102, R157, R252, R253, R267). Points the model
chooses: log entries 37. -/
def Obligations.ServiceCommandsAndTokens : Prop :=
  (∀ (c : HostCall) (s : State), Admitted 0xA00 c s → c.payload = [] →
    let n := (drawBytes 32 s).1
    exec (.svcNonce c) s = .next (replied 0xA00 c s (n ++ mfgId s) { (drawBytes 32 s).2 with idn := { s.idn with nonce := some n } })) ∧
  (∀ (c : HostCall) (s : State), Admitted 0xA01 c s → c.payload.length = 32 → stageOk c 8 s = true → allZero (slice c.payload 12 4) = true →
    let sel := field c.payload 0 1
    ((sel < 2 ∨ 4 < sel) → exec (.lcAdvance c) s = .next (failed 0xA01 c s 0x0200 0 s)) ∧
    (allZero (slice c.payload 1 7) = true → 2 ≤ sel → sel ≤ 4 → lcPermitted sel s = false → exec (.lcAdvance c) s = .next (failed 0xA01 c s 0x0300 0 s)) ∧
    (allZero (slice c.payload 1 7) = true → 2 ≤ sel → sel ≤ 4 → lcPermitted sel s = true →
      let b := stageBytes c s
      let u := { s with idn := { s.idn with nonce := none } }
      b.length = 7475 → field b 0 4 = 0x43565354 → field b 4 2 = 1 → allZero (slice b 57 7) = true →
      ((field b 6 2 ≠ 1 ∨ field b 8 8 ≠ sel) → exec (.lcAdvance c) s = .next (failed 0xA01 c s 0x0400 2 u)) ∧
      (field b 6 2 = 1 → field b 8 8 = sel → slice b 16 8 ≠ mfgId s → exec (.lcAdvance c) s = .next (failed 0xA01 c s 0x0400 3 u)) ∧
      (field b 6 2 = 1 → field b 8 8 = sel → slice b 16 8 = mfgId s → s.idn.nonce ≠ some (slice b 24 32) → exec (.lcAdvance c) s = .next (failed 0xA01 c s 0x0400 4 u)) ∧
      (field b 6 2 = 1 → field b 8 8 = sel → slice b 16 8 = mfgId s → s.idn.nonce = some (slice b 24 32) → field b 56 1 ≤ 3 →
        vkeyUsable s (field b 56 1) = true → Config.sha384 (slice b 64 2688) = vkh s (field b 56 1) →
        exec (.lcAdvance c) s = .next (pqAdd 2 (.token c (stateWord s) 1 sel)
          (verifyJobs (slice b 64 96) (slice b 160 2592) (b.take 2752) (slice b 2752 96) (slice b 2848 4627)) u)))) ∧
  (∀ (c : HostCall) (s : State), Admitted 0xA02 c s → c.payload.length = 32 → stageOk c 8 s = true → allZero (slice c.payload 12 4) = true →
    (3 < field c.payload 0 1 → exec (.vkeyRevoke c) s = .next (failed 0xA02 c s 0x0200 0 s)) ∧
    (allZero (slice c.payload 1 7) = true → field c.payload 0 1 ≤ 3 →
      let b := stageBytes c s
      let u := { s with idn := { s.idn with nonce := none } }
      (b.length ≠ 7475 → exec (.vkeyRevoke c) s = .next (failed 0xA02 c s 0x0200 1 u)) ∧
      (b.length = 7475 → field b 0 4 = 0x43565354 → field b 4 2 = 1 → allZero (slice b 57 7) = true → field b 6 2 = 2 → field b 8 8 = field c.payload 0 1 →
        slice b 16 8 = mfgId s → s.idn.nonce = some (slice b 24 32) → field b 56 1 ≤ 3 → vkeyUsable s (field b 56 1) = true →
        Config.sha384 (slice b 64 2688) = vkh s (field b 56 1) → exec (.vkeyRevoke c) s = .next (pqAdd 2 (.token c (stateWord s) 2 (field c.payload 0 1))
          (verifyJobs (slice b 64 96) (slice b 160 2592) (b.take 2752) (slice b 2752 96) (slice b 2848 4627)) u)))) ∧
  (∀ (c : HostCall) (w sel : Nat) (s : State), lcPermitted sel s = true → (otLc sel (zeroAllSlots s)).otp.job.isSome = true →
    tokenDone c w 1 sel 0 true s = unitSend 2000 0xA01 (some (c, w)) sel (otLc sel (zeroAllSlots s))) ∧
  (∀ (c : HostCall) (w k : Nat) (s : State), otherVkey k s = true → (otRevoke k s).otp.job.isSome = true →
    tokenDone c w 2 k 0 true s = unitSend 2000 0xA02 (some (c, w)) k (otRevoke k s)) ∧
  (∀ (c : HostCall) (w k : Nat) (s : State), otherVkey k s = false → tokenDone c w 2 k 0 true s = answer c 0xA02 w 0x0503 0 (toLe 4 0) s) ∧
  (∀ (c : HostCall) (w op arg e : Nat) (ok : Bool) (s : State), e ≠ 0 → tokenDone c w op arg e ok s = answer c (if op = 1 then 0xA01 else 0xA02) w 0x0603 e (toLe 4 0) s) ∧
  (∀ (c : HostCall) (s : State), Admitted 0xA03 c s → c.payload.length = 4 →
    (s.pkg.st = .quarantine → exec (.svcQuarantine c) s = .next (replied 0xA03 c s [] s)) ∧
    (s.pkg.st = .recovery → exec (.svcQuarantine c) s = .next (failed 0xA03 c s 0x0300 0 s)) ∧
    (s.pkg.st ≠ .quarantine → s.pkg.st ≠ .recovery → let t := logEvent 0x0102 0xFF (toLe 4 (stateWord s) ++ toLe 1 0x0D ++ slice c.payload 0 4) (quarantine 0x0D s)
      exec (.svcQuarantine c) s = .next (answer c 0xA03 (stateWord t) 0 0 [] t))) ∧
  (∀ (c : HostCall) (s : State), Admitted 0xA04 c s → c.payload = [] → exec (.wardenReset c) s = .next (replied 0xA04 c s [] (if c.ch < 8 then modChan c.ch (fun x => { x with reset := some 5 }) s else s)))

/-- The management-only commands (R103, R297, R339, R446, R462, R473, R522, R523, R526, R527). Points the model
chooses: log entries 25, 26, 72, 96. -/
def Obligations.ManagementCommands : Prop :=
  (∀ s : State, MgIdle s →
    let t := { mgBegun 0x1D s with mg := { (mgBegun 0x1D s).mg with orphanArmed := true, orphan := false } }
    (s.mg.orphan = false → exec (.mgKeepalive []) s = .next (mgReplied 0xB00 s 0 0 ([0#8, 0#8] ++ toLe 2 (pCap t)) t)) ∧
    (s.mg.orphan = true → exec (.mgKeepalive []) s = .next (mgReplied 0xB00 s 0 0 ([1#8, 0#8] ++ toLe 2 (pCap t)) (pldmEvent 26 1 t)))) ∧
  (∀ (b : Bytes) (s : State), MgIdle s → b.length = 4 →
    (rating s < field b 0 2 → exec (.mgCapSet b) s = .next (mgReplied 0xB01 s 0x0200 0 [] (mgBegun 0x1D s))) ∧
    (field b 0 2 ≤ rating s → allZero (slice b 2 2) = true → exec (.mgCapSet b) s = .next (mgReplied 0xB01 s 0 0 (toLe 2 (max Config.kBrakeW (field b 0 2)) ++ toLe 2 0)
      { mgBegun 0x1D s with pw := { s.pw with pMgmt := some (max Config.kBrakeW (field b 0 2)) } }))) ∧
  (∀ (b : Bytes) (s : State), MgIdle s → b.length = 4 → allZero (slice b 1 3) = true →
    (1 < field b 0 1 → exec (.mgHold b) s = .next (mgReplied 0xB02 s 0x0200 0 [] (mgBegun 0x1D s))) ∧
    (field b 0 1 ≤ 1 → exec (.mgHold b) s = .next (mgReplied 0xB02 s 0 0 (toLe 1 (field b 0 1) ++ toLe 3 0)
      { mgBegun 0x1D s with mg := { (mgBegun 0x1D s).mg with hold := field b 0 1 == 1 } }))) ∧
  (∀ (b : Bytes) (s : State), MgIdle s → b.length = 4 → allZero (slice b 2 2) = true →
    (4096 ≤ field b 0 2 → exec (.mgDaddrSet b) s = .next (mgReplied 0xB03 s 0x0200 0 [] (mgBegun 0x1D s))) ∧
    (field b 0 2 < 4096 → (s.pkg.st = .active ∨ s.pkg.st = .loading) → exec (.mgDaddrSet b) s = .next (mgReplied 0xB03 s 0x0300 0 [] (mgBegun 0x1D s))) ∧
    (field b 0 2 < 4096 → (s.pkg.st = .warden ∨ s.pkg.st = .bringup ∨ s.pkg.st = .idle ∨ s.pkg.st = .quarantine) →
      exec (.mgDaddrSet b) s = .next (mgReplied 0xB03 s 0 0 [] (daddrSet (field b 0 2) (mgBegun 0x1D s))))) ∧
  (∀ (b : Bytes) (s : State), MgIdle s → b.length = 24 → stageOk (mgWith b) 0 s = true → allZero (slice b 4 4) = true → s.tn.ro.hdr = .committed → s.ln.rak = [] →
    let t := mgBegun 0x1D s
    ((stageBytes (mgWith b) s).length ≠ 2688 → exec (.mgRakSet b) s = .next (mgReplied 0xB04 s 0x0200 0 [] t)) ∧
    ((stageBytes (mgWith b) s).length = 2688 → exec (.mgRakSet b) s = .next (mgReplied 0xB04 s 0 0 []
      (fqAdd .link { t with ln := { s.ln with rak := Config.sha384 (stageBytes (mgWith b) s) } })))) ∧
  (∀ (b : Bytes) (s : State), MgIdle s → b.length = 4 → allZero (slice b 1 3) = true → field b 0 1 ≤ 1 → (s.otp.lc = 2 ∨ s.otp.lc = 3) →
    let k := field b 0 1
    let m := csrInfo k s
    (s.pkg.st ≠ .idle → exec (.mgCsr b) s = .next (mgReplied 0xB05 s 0x0300 0 [] (mgBegun 0x1D s))) ∧
    (s.pkg.st = .idle → s.idn.ident = none → exec (.mgCsr b) s = .next (mgReplied 0xB05 s 0x0402 0 [] (mgBegun 0x1D s))) ∧
    (s.pkg.st = .idle → s.idn.ident.isSome = true → pqRoom 1 s = true → exec (.mgCsr b) s = .next (pqAdd 1 (.csr (stateWord s) k m)
      [if k = 0 then ⟨0x12, [Config.sha384 m], some 1, none, 0⟩ else ⟨0x24, [mldsaMu (identPk s) m], some 2, none, 0⟩] (mgBegun 0x1D s)))) ∧
  (∀ (b : Bytes) (s : State), MgIdle s → b.length = 28 → stageOk (mgWith b) 4 s = true → allZero (slice b 8 4) = true → field b 0 1 ≤ 1 → allZero (slice b 1 3) = true →
    let t := mgBegun 0x1D s
    let der := stageBytes (mgWith b) s
    (65472 < der.length → exec (.mgCertWrite b) s = .next (mgReplied 0xB06 s 0x0200 0 [] t)) ∧
    (der.length ≤ 65472 → s.idn.ident = none → exec (.mgCertWrite b) s = .next (mgReplied 0xB06 s 0x0402 0 [] t)) ∧
    (der.length ≤ 65472 → s.idn.ident.isSome = true → certFits (field b 0 1) der s = false → exec (.mgCertWrite b) s = .next (mgReplied 0xB06 s 0x0400 0 [] t)) ∧
    (der.length ≤ 65472 → s.idn.ident.isSome = true → certFits (field b 0 1) der s = true → rosterBusy s = false → exec (.mgCertWrite b) s = .next
      { t with fq := { s.fq with sync := some (.cert (stateWord s) (field b 0 1) der) } })) ∧
  (∀ s : State, MgIdle s →
    (s.otp.lc ≠ 2 → exec (.mgSetkey []) s = .next (mgReplied 0xB07 s 0x0302 0 [] (mgBegun 0x1D s))) ∧
    (s.otp.lc = 2 → s.idn.setPair.isSome = true → s.idn.ident.isSome = true → pqRoom 2 s = true →
      exec (.mgSetkey []) s = .next (pqAdd 1 (.setKey (stateWord s) (setKeyBody s)) (signJobs s (setKeyBody s)) (mgBegun 0x1D s)))) ∧
  (∀ (b : Bytes) (s : State), MgIdle s → b.length = 4 → allZero (slice b 1 3) = true →
    (3 < field b 0 1 → exec (.mgRequest b) s = .next (mgReplied 0xB08 s 0x0200 0 [] (mgBegun 0x1D s))) ∧
    (field b 0 1 ≤ 3 → exec (.mgRequest b) s = .next (mgReplied 0xB08 s 0 0 []
      (raiseHost 0 6 0 { mgBegun 0x1D s with mg := { (mgBegun 0x1D s).mg with mreq := setBit s.mg.mreq (field b 0 1) true } })))) ∧
  (∀ (b : Bytes) (s : State), MgIdle s → b.length = 8 → exec (.mgProvision b) s = .next (mgReplied 0xB10 s 0x0300 0 [] (mgBegun 0x1D s))) ∧
  (∀ (b : Bytes) (s : State), s.wd.fw = .rom → s.pkg.standby = true → s.pkg.st ≠ .retired → s.mg.busy = false → s.mg.queue = [] → s.otp.lc = 0 →
    b.length = 8 → allZero (slice b 1 1) = true → (field b 0 1 = 1 ∨ field b 0 1 = 2) → provOrder (field b 0 1) (field b 2 2 % 512) s.otp = true →
    let u := { mgBegun 0x1D s with otp := { s.otp with addr := field b 2 2 % 512, wdata := field b 4 4 } }
    let v := if field b 0 1 = 1 then otGen u else otProg u
    v.otp.job.isSome = true → v.mg = u.mg → exec (.mgProvision b) s = .next { v with uw := v.uw ++ [⟨2000, 0xB10, some (mgWith b, stateWord s), field b 0 1, v.wd.time⟩] }) ∧
  (∀ s : State, (s.mg.orphanArmed = false ∨ s.mg.orphan = true) → exec .orphanTimerExpiry s = .next s) ∧
  (∀ s : State, s.mg.orphanArmed = true → s.mg.orphan = false → exec .orphanTimerExpiry s = .next (pldmEvent 26 2 { s with mg := { s.mg with orphan := true } }))

/-- The management target, MCTP packets and control messages (R516 to R518). Points the model
chooses: log entries 12, 27, 96. -/
def Obligations.ManagementTargetAndMctp : Prop :=
  (∀ (da : Nat) (s : State), (s.mg.da = 0 ↔ da % 128 = 0) → exec (.i3cAddressAssign da) s = .next { s with mg := { s.mg with da := da % 128 } }) ∧
  (∀ (da : Nat) (s : State), ¬ (s.mg.da = 0 ↔ da % 128 = 0) → exec (.i3cAddressAssign da) s = .next
    { s with mg := { s.mg with da := da % 128, reasm := none, stage := [], stageHigh := 0 } }) ∧
  (∀ (n : Nat) (s : State), exec (.wdMgTxgoWrite n) s = .next { s with mg := { s.mg with
    sent := (s.mg.tx.take (n % 64)).reverse ++ s.mg.sent, tx := s.mg.tx.drop (n % 64), txBusy := s.mg.txBusy || decide (0 < min (n % 64) s.mg.tx.length) } }) ∧
  (∀ (p : Bytes) (s : State), (s.pkg.standby = false ∨ 48 ≤ s.mg.rx.length) → exec (.mctpPacketRx p) s = .next s) ∧
  (∀ (p : Bytes) (s : State), s.pkg.standby = true → s.mg.rx.length < 48 → s.wd.fw = .nothing → exec (.mctpPacketRx p) s = .next
    (if s.mg.irqEn then irq 4 { s with mg := { s.mg with rxv := true, rx := s.mg.rx ++ [p] } } else { s with mg := { s.mg with rxv := true, rx := s.mg.rx ++ [p] } })) ∧
  (∀ (p : Bytes) (s : State), s.pkg.standby = true → s.mg.rx = [] → s.mg.irqEn = false → s.wd.fw ≠ .nothing → 5 ≤ p.length → p.length ≤ 68 → field p 0 1 % 16 = 1 →
    field p 1 1 = s.mg.eid → bit (field p 3 1) 7 = true → bit (field p 3 1) 6 = false → exec (.mctpPacketRx p) s = .next
    { s with mg := { s.mg with rxv := false, rx := [], reasm := some ⟨field p 2 1, field p 3 1 % 16, field p 3 1 / 16 % 4, p.drop 4⟩ } }) ∧
  (∀ s : State, s.mg.reasm = none → exec .mctpReassemblyTimeout s = .next s) ∧
  (∀ s : State, s.mg.reasm ≠ none → exec .mctpReassemblyTimeout s = .next { s with mg := { s.mg with reasm := none, stage := [], stageHigh := 0 } }) ∧
  (∀ (b : Bytes) (s : State), MgIdle s → b.length = 2 → 8 ≤ field b 1 1 → field b 1 1 ≠ 0xFF → field b 0 1 % 4 ≤ 1 → exec (.setEndpointId b) s = .next
    (mgSend ([0#8, 0#8, 1#8, 0#8] ++ ([0#8] ++ toLe 1 (field b 1 1) ++ [0#8])) { mgBegun 0x80 s with mg := { (mgBegun 0x80 s).mg with eid := field b 1 1 } })) ∧
  (∀ s : State, MgIdle s →
    exec (.getEndpointId []) s = .next (mgSend ([0#8, 0#8, 2#8, 0#8] ++ (toLe 1 s.mg.eid ++ [0#8, 0#8])) (mgBegun 0x80 s)) ∧
    exec (.getEndpointUuid []) s = .next (mgSend ([0#8, 0#8, 3#8, 0#8] ++ slice (Config.std 30 [mfgId s]) 0 16) (mgBegun 0x80 s)) ∧
    exec (.getMctpVersionSupport [0#8]) s = .next (mgSend ([0#8, 0#8, 4#8, 0#8] ++ [1#8, 0xF1#8, 0xF3#8, 0xFF#8, 0#8]) (mgBegun 0x80 s)) ∧
    exec (.getMessageTypeSupport []) s = .next (mgSend ([0#8, 0#8, 5#8, 0#8] ++ [3#8, 0#8, 1#8, 0x7E#8]) (mgBegun 0x80 s)) ∧
    exec (.getVendorMessageSupport [0#8]) s = .next (mgSend ([0#8, 0#8, 6#8, 0#8] ++ ([0xFF#8, 0#8, 0x1D#8, 0x7B#8] ++ slice (Config.std 31 []) 0 2)) (mgBegun 0x80 s))) ∧
  (∀ (m : Bytes) (s : State), (mctpPackets s.mg.eid s.mg.peer s.mg.peerTag m).length = (m.length + 63) / 64)

/-- PLDM base and platform commands (R524, R525, Tables 23-6 and 23-7). Points the model
chooses: log entries 12. -/
def Obligations.PldmSensorsAndEffecters : Prop :=
  let rsp (ty cmd cc : Nat) (d : Bytes) (t : State) : State := mgSend ([1#8, 0#8] ++ toLe 1 ty ++ toLe 1 cmd ++ toLe 1 cc ++ d) t
  (∀ s : State, MgIdle s → let t := mgBegun 0x80 s
    exec (.getTid []) s = .next (rsp 0 2 0 (toLe 1 s.mg.tid) t) ∧
    exec (.getPldmTypes []) s = .next (rsp 0 4 0 (toLe 8 0x25) t) ∧
    (∀ b : Bytes, b.length = 1 → (field b 0 1 = 0 ∨ field b 0 1 = 0xFF) → exec (.setTid b) s = .next (rsp 0 1 2 [] t)) ∧
    (∀ b : Bytes, b.length = 1 → field b 0 1 ≠ 0 → field b 0 1 ≠ 0xFF → exec (.setTid b) s = .next (rsp 0 1 0 [] { t with mg := { t.mg with tid := field b 0 1 } })) ∧
    (∀ b : Bytes, b.length = 6 → (field b 5 1 = 0 ∨ field b 5 1 = 2 ∨ field b 5 1 = 5) → exec (.getPldmVersion b) s = .next
      (rsp 0 3 0 (toLe 4 0 ++ [5#8] ++ slice (Config.std 32 [toLe 1 (field b 5 1)]) 0 8) t)) ∧
    (∀ b : Bytes, b.length = 5 → field b 0 1 = 2 → exec (.getPldmCommands b) s = .next
      (rsp 0 5 0 (toLe 32 (2 ^ 0x04 + 2 ^ 0x0B + 2 ^ 0x11 + 2 ^ 0x21 + 2 ^ 0x31 + 2 ^ 0x39 + 2 ^ 0x50 + 2 ^ 0x51)) t))) ∧
  (∀ s : State, MgIdle s → let t := mgBegun 0x80 s
    let l := (List.range (pdrList s).length).map (fun i => (pdrBytes s (i + 1)).length)
    exec (.getPdrRepositoryInfo []) s = .next (rsp 2 0x50 0 ([0#8] ++ toLe 13 0 ++ toLe 13 0 ++ toLe 4 l.length ++ toLe 4 (l.foldl (· + ·) 0) ++ toLe 4 (l.foldl max 0) ++ [0#8]) t) ∧
    (∀ b : Bytes, b.length = 13 → let h := max 1 (field b 0 4)
      ((pdrList s).length < h → exec (.getPdr b) s = .next (rsp 2 0x51 0x82 [] t)) ∧
      (h ≤ (pdrList s).length → exec (.getPdr b) s = .next (rsp 2 0x51 0 (toLe 4 (if h = (pdrList s).length then 0 else h + 1) ++ toLe 4 0 ++ [5#8] ++
        toLe 2 (pdrBytes s h).length ++ pdrBytes s h) t))) ∧
    (∀ b : Bytes, b.length = 3 → let i := field b 0 2
      ((sensorHas s i = false ∨ sensorState i = true) → exec (.getSensorReading b) s = .next (rsp 2 0x11 0x80 [] t)) ∧
      (sensorHas s i = true → sensorState i = false → exec (.getSensorReading b) s = .next (rsp 2 0x11 0 ([4#8, 0#8, 0#8, 1#8, 1#8, 1#8] ++ toLe 4 (sensorRead s i)) t))) ∧
    (∀ b : Bytes, b.length = 4 → let i := field b 0 2
      sensorHas s i = true → sensorState i = true → exec (.getStateSensorReadings b) s = .next (rsp 2 0x21 0 ([1#8, 0#8] ++ toLe 1 (sensorRead s i) ++
        toLe 1 (sensorRead s i) ++ toLe 1 (sensorRead s i)) t)) ∧
    (∀ b : Bytes, b.length = 5 → field b 0 2 = 1 → let w := field b 3 2
      (rating s < w → exec (.setNumericEffecterValue b) s = .next (rsp 2 0x31 2 [] t)) ∧
      (w ≤ rating s → exec (.setNumericEffecterValue b) s = .next (rsp 2 0x31 0 [] { t with pw := { s.pw with pMgmt := some (max Config.kBrakeW w) } }))) ∧
    (∀ b : Bytes, b.length = 5 → field b 0 2 = 2 → field b 2 1 = 1 → field b 3 1 ≠ 0 → (field b 4 1 = 1 ∨ field b 4 1 = 2) →
      exec (.setStateEffecterStates b) s = .next (rsp 2 0x39 0 [] { t with mg := { t.mg with hold := field b 4 1 == 2 } })) ∧
    (∀ b : Bytes, b.length = 3 → field b 0 1 = 1 → field b 1 1 = 0 → exec (.setEventReceiver b) s = .next (rsp 2 4 0 [] { t with mg := { t.mg with evtRcv := some (field b 2 1) } })) ∧
    (∀ b : Bytes, b.length = 3 → field b 0 1 = 0 → field b 1 1 = 0 → exec (.setEventReceiver b) s = .next (rsp 2 4 0 [] { t with mg := { t.mg with evtRcv := none, events := [] } })) ∧
    (∀ b : Bytes, b.length = 8 → field b 6 2 = 0 →
      (s.mg.pollQ = [] → exec (.pollPlatformEventMessage b) s = .next (rsp 2 0x0B 0 (toLe 1 s.mg.tid ++ toLe 2 0) t)) ∧
      (∀ e l, s.mg.pollQ = e :: l → exec (.pollPlatformEventMessage b) s = .next (rsp 2 0x0B 0 (toLe 1 s.mg.tid ++ toLe 2 1 ++ toLe 4 0 ++ [5#8, 0#8] ++ toLe 4 4 ++
        toLe 2 e.sensor ++ toLe 2 e.value) t)))) ∧
  (∀ s : State, sensorRead s 1 = s.pkg.st.code + 1 ∧ sensorRead s 2 = s.upd.status + 1 ∧ sensorRead s 4 = pCap s ∧
    (s.pkg.mode ≠ .confidential → sensorRead s 3 = s.pw.pwr) ∧ (s.pkg.mode = .confidential → sensorRead s 3 = s.hb.tele.pwr)) ∧
  (∀ s : State, s.mg.events = [] → exec .platformEventResend s = .next s) ∧
  (∀ (e : PldmEvent) (r : List PldmEvent) (s : State), s.mg.events = e :: r →
    (2 ≤ e.resends → exec .platformEventResend s = .next { s with mg := { s.mg with events := r } }) ∧
    (e.resends < 2 → exec .platformEventResend s = .next (emit (.pldm e.sensor e.value) { s with mg := { s.mg with events := { e with resends := e.resends + 1 } :: r } })))

/-- PLDM firmware update (R196, Table 8-6). Points the model
chooses: log entries 12, 36. -/
def Obligations.PldmFirmwareUpdate : Prop :=
  let rsp (cmd cc : Nat) (d : Bytes) (t : State) : State := mgSend ([1#8, 0#8, 5#8] ++ toLe 1 cmd ++ toLe 1 cc ++ d) t
  (∀ (b : Bytes) (s : State), MgIdle s → let t := mgBegun 0x80 s
    (11 ≤ b.length → (s.upd.pldm = true ∨ s.upd.status ≠ 0 ∨ hostBegin s = true) → exec (.requestUpdate b) s = .next (rsp 0x10 0x81 [] t)) ∧
    (11 ≤ b.length → s.upd.pldm = false → s.upd.status = 0 → hostBegin s = false → exec (.requestUpdate b) s = .next (rsp 0x10 0 (toLe 3 0)
      { t with upd := { s.upd with pldm := true, pldmSt := 1, pldmMax := max 32 (field b 0 4), pldmOff := 0, pldmRes := 0 } })) ∧
    (s.upd.pldm = false → exec (.passComponentTable b) s = .next (rsp 0x13 0x80 [] t) ∧ exec (.updateComponent b) s = .next (rsp 0x14 0x80 [] t) ∧
      exec (.activateFirmware b) s = .next (rsp 0x1A 0x80 [] t) ∧ exec (.cancelUpdateComponent b) s = .next (rsp 0x1C 0x80 [] t) ∧ exec (.cancelUpdate b) s = .next (rsp 0x1D 0x80 [] t)) ∧
    (s.upd.pldm = true → s.upd.pldmSt = 1 → 12 ≤ b.length → (field b 3 2 = 1 ∨ field b 3 2 = 2) → exec (.passComponentTable b) s = .next (rsp 0x13 0 [0#8, 0#8]
      (if bit (field b 0 1) 2 then { t with upd := { s.upd with pldmSt := 2 } } else t))) ∧
    (s.upd.pldm = true → s.upd.pldmSt = 2 → 19 ≤ b.length → (field b 2 2 = 1 ∨ field b 2 2 = 2) → updBeginCheck (compTarget (field b 2 2) s) (field b 9 4) s = none →
      exec (.updateComponent b) s = .next (flashSync (.updBegin none 0 (compTarget (field b 2 2) s) (field b 9 4))
        (rsp 0x14 0 ([0#8, 0#8] ++ toLe 6 0) { t with upd := { s.upd with pldmComp := field b 2 2 } }))) ∧
    (s.upd.pldm = true → s.upd.pldmSt = 2 → b.length = 1 → field b 0 1 ≤ 1 → ¬ (s.upd.pldmComp = 2 ∧ s.upd.status = 0) → updActivateCheck s = none →
      exec (.activateFirmware b) s = .next (flashSync (.updActivate none 0 (field b 0 1 == 0)) (rsp 0x1A 0 (toLe 2 0) { t with upd := { s.upd with pldmSt := 6 } }))) ∧
    (s.upd.pldm = true → 3 ≤ s.upd.pldmSt → s.upd.status = 0 → exec (.cancelUpdateComponent b) s = .next (rsp 0x1C 0 [] { t with upd := { s.upd with pldmSt := 2, pldmOff := 0 } })) ∧
    (s.upd.pldm = true → s.upd.status ≠ 0 → updCancelCheck s = none → exec (.cancelUpdate b) s = .next
      (flashSync (.updCancel none 0) (rsp 0x1D 0 (toLe 9 0) { t with upd := { s.upd with pldm := false, pldmSt := 0 } }))) ∧
    (s.upd.pldm = true → s.upd.status = 0 → exec (.cancelUpdate b) s = .next (rsp 0x1D 0 (toLe 9 0) { t with upd := { s.upd with pldm := false, pldmSt := 0 } })) ∧
    exec (.getStatus b) s = .next (rsp 0x1B 0 (toLe 1 s.upd.pldmSt ++ toLe 1 s.upd.pldmSt ++ toLe 1 (if s.upd.pldmRes = 0 then 3 else 2) ++ toLe 1 (0x70 + s.upd.status) ++
      toLe 1 (if s.upd.length = 0 then 0 else 100 * min s.upd.pldmOff s.upd.length / s.upd.length) ++ toLe 1 s.upd.pldmRes ++ toLe 4 0) t)) ∧
  (∀ (b : Bytes) (s : State), MgIdle s → let t := { mgBegun 0 s with mg := { (mgBegun 0 s).mg with busy := false } }
    let n := min s.upd.pldmMax (s.upd.length - s.upd.pldmOff)
    ((s.upd.pldm = false ∨ s.upd.pldmSt ≠ 3) → exec (.firmwareDataResponse b) s = .next t) ∧
    (s.upd.pldm = true → s.upd.pldmSt = 3 → s.fq.sync = none → 1 + n ≤ b.length → field b 0 1 = 0 → updDataCheck s.upd.pldmOff ((b.drop 1).take n) s = none →
      exec (.firmwareDataResponse b) s = .next { t with fq := { s.fq with sync := some (.updData none 0 s.upd.pldmOff ((b.drop 1).take n)) } }))

/-- The DOE capability and the negotiation of the SPDM responder (R213 to R217). Points the model
chooses: log entries 12, 79. -/
def Obligations.DoeObjectsAndNegotiation : Prop :=
  (∀ (ws : List Word) (s : State), ((fnS s 0).up = false ∨ s.sd.busy = true ∨ s.sd.err = true) → exec (.doeObject ws) s = .next s) ∧
  (∀ (ws : List Word) (s : State), (fnS s 0).up = true → s.sd.busy = false → s.sd.err = false →
    ((ws.length < 2 ∨ 1040 < ws.length ∨ (nth 0#32 ws 1).toNat % 2 ^ 18 ≠ ws.length) → exec (.doeObject ws) s = .next { s with sd := { s.sd with err := true } }) ∧
    (2 ≤ ws.length → ws.length ≤ 1040 → (nth 0#32 ws 1).toNat % 2 ^ 18 = ws.length → (nth 0#32 ws 0).toNat % 2 ^ 16 ≠ 1 → exec (.doeObject ws) s = .next s)) ∧
  (∀ (i : Nat) (s : State), i ≤ 2 → (fnS s 0).up = true → s.sd.busy = false → s.sd.err = false → exec (.doeObject [1#32, 3#32, BitVec.ofNat 32 i]) s = .next
    (doeReply 0 (toLe 2 1 ++ toLe 1 i ++ toLe 1 ((i + 1) % 3)) { s with sd := { s.sd with obj := [1#32, 3#32, BitVec.ofNat 32 i] } })) ∧
  (∀ s : State, exec .doeAbort s = .next { s with sd := { s.sd with busy := false, obj := [], err := false } }) ∧
  (∀ (m : SpdmMsg) (s : State), ((fnS s 0).up = false ∨ s.sd.busy = true ∨ s.pkg.st = .warden) →
    exec (.getVersion m) s = .next s ∧ exec (.getCapabilities m) s = .next s ∧ exec (.negotiateAlgorithms m) s = .next s ∧ exec (.getDigests m) s = .next s ∧
    exec (.challenge m) s = .next s ∧ exec (.keyExchange m) s = .next s ∧ exec (.finish m) s = .next s ∧ exec (.endSession m) s = .next s) ∧
  (∀ (m : SpdmMsg) (s : State), SpdmOn s → m.secured = false →
    let b (code : Nat) := spdmBegin code m s
    (exec (.getVersion m) s = .next (let r := sessEnd (b 0x84)
      spdmReply false ([0x10#8, 4#8, 0#8, 0#8, 0#8, 1#8] ++ toLe 2 0x1300)
        { r with sd := { r.sd with stage := 1, transcript := [0x10#8, 0x84#8] ++ toLe 1 m.p1 ++ toLe 1 m.p2 ++ m.body } })) ∧
    (s.sd.stage ≠ 1 → exec (.getCapabilities m) s = .next (spdmReply false (spdmErr 4) (b 0xE1))) ∧
    (s.sd.stage = 1 → exec (.getCapabilities m) s = .next (spdmReply false (spdmRsp 0x61 0 0 ([0#8] ++ toLe 1 18 ++ toLe 2 0 ++ toLe 4 0x2D6 ++ toLe 4 4096 ++ toLe 4 4096))
      { b 0xE1 with sd := { (b 0xE1).sd with stage := 2 } })) ∧
    (s.sd.stage ≠ 2 → exec (.negotiateAlgorithms m) s = .next (spdmReply false (spdmErr 4) (b 0xE3))) ∧
    (s.sd.stage = 2 → Runs (.negotiateAlgorithms m) s fun t => t.sd.stage = 3 ∧ t.sd.busy = false) ∧
    (s.sd.stage < 3 → exec (.getDigests m) s = .next (spdmReply false (spdmErr 4) (b 0x81)) ∧ exec (.getCertificate m) s = .next (spdmReply false (spdmErr 4) (b 0x82)) ∧
      exec (.challenge m) s = .next (spdmReply false (spdmErr 4) (b 0x83)) ∧ exec (.getMeasurements m) s = .next (spdmReply false (spdmErr 4) (b 0xE0)) ∧
      exec (.keyExchange m) s = .next (spdmReply false (spdmErr 4) (b 0xE4)))) ∧
  (∀ (m : SpdmMsg) (ch : Bytes) (s : State), SpdmOn s → m.secured = false → 3 ≤ s.sd.stage → spdmChain s = some ch →
    exec (.getDigests m) s = .next (spdmReply false (spdmRsp 1 1 1 (Config.sha384 ch)) (spdmBegin 0x81 m s)) ∧
    (m.p1 % 16 = 0 → m.body.length = 4 → field m.body 0 2 < ch.length → exec (.getCertificate m) s = .next (
      let n := min (min (field m.body 2 2) 4088) (ch.length - field m.body 0 2)
      spdmReply false (spdmRsp 2 0 0 (toLe 2 n ++ toLe 2 (ch.length - field m.body 0 2 - n) ++ slice ch (field m.body 0 2) n)) (spdmBegin 0x82 m s))) ∧
    (m.p1 % 16 ≠ 0 → exec (.getCertificate m) s = .next (spdmReply false (spdmErr 1) (spdmBegin 0x82 m s)))) ∧
  (∀ (code : Nat) (m : SpdmMsg) (s : State), SpdmOn s → exec (.spdmUnsupportedRequest ⟨code, m⟩) s = .next (spdmReply m.secured (spdmErr 7) (spdmBegin code m s)))

/-- Signed evidence and the session of the SPDM responder (R215, R216, R219, R307). Points the model
chooses: log entries 12, 23, 24. -/
def Obligations.SpdmEvidenceAndSession : Prop :=
  (∀ (m : SpdmMsg) (ch : Bytes) (s : State), SpdmOn s → m.secured = false → 3 ≤ s.sd.stage → spdmChain s = some ch → m.p1 = 0 → m.body.length = 40 → m.p2 = 0 →
    let b := spdmBegin 0x83 m s
    let n := (drawBytes 32 b).1
    let t := (drawBytes 32 b).2
    let p := spdmRsp 3 0 1 (Config.sha384 ch ++ n ++ toLe 2 0 ++ slice m.body 32 8)
    (pqRoom 1 s = false → exec (.challenge m) s = .next (spdmReply false (spdmErr 3) t)) ∧
    (pqRoom 1 s = true → exec (.challenge m) s = .next (pqAdd 1 (.spdm t.sd.tok 0 false p)
      [⟨0x12, [spdmSigned "responder-challenge_auth signing" (t.sd.transcript ++ p)], some 1, none, 0⟩] t))) ∧
  (∀ (m : SpdmMsg) (s : State), SpdmOn s → m.secured = false → 3 ≤ s.sd.stage → m.p1 % 2 = 0 → m.body.length = 8 →
    let b := spdmBegin 0xE0 m s
    let n := (drawBytes 32 b).1
    let t := (drawBytes 32 b).2
    (m.p2 = 0 → exec (.getMeasurements m) s = .next (spdmReply false (spdmRsp 0x60 33 0 (toLe 1 0 ++ toLe 3 0 ++ n ++ toLe 2 0 ++ m.body)) t)) ∧
    (1 ≤ m.p2 → m.p2 ≤ 32 → let r := measBlock m.p2 (nth {} s.ms.slots (m.p2 - 1)).val
      exec (.getMeasurements m) s = .next (spdmReply false (spdmRsp 0x60 0 0 (toLe 1 1 ++ toLe 3 r.length ++ r ++ n ++ toLe 2 0 ++ m.body)) t)) ∧
    (33 < m.p2 → m.p2 ≠ 0xFF → exec (.getMeasurements m) s = .next (spdmReply false (spdmErr 1) b))) ∧
  (∀ (m : SpdmMsg) (ch : Bytes) (s : State), SpdmOn s → m.secured = false → 3 ≤ s.sd.stage →
    let b := spdmBegin 0xE4 m s
    (s.sd.sess.isSome = true → exec (.keyExchange m) s = .next (spdmReply false (spdmErr 0x0A) b)) ∧
    (s.sd.sess = none → m.p2 = 0 → m.p1 = 0 → 134 ≤ m.body.length → m.body.length = 134 + field m.body 132 2 → spdmChain s = some ch → s.ks.drbgOk = true → (slotS s 62).empty = true →
      pqRoom 1 s = true → exec (.keyExchange m) s = .next (pqAdd 1 (.spdm (drawBytes 64 b).2.sd.tok 1 false (toLe 1 m.p1 ++ m.body)) [⟨0x10, [], some 62, none, 0⟩]
        (commitSlot 62 (drawBytes 64 b).1 3 16 false (drawBytes 64 b).2))) ∧
    (s.sd.sess = none → m.p2 = 0 → m.p1 = 0 → 134 ≤ m.body.length → m.body.length = 134 + field m.body 132 2 → spdmChain s = some ch → s.ks.drbgOk = true → (slotS s 62).empty = true →
      pqRoom 1 s = false → exec (.keyExchange m) s = .next (spdmReply false (spdmErr 3) b))) ∧
  (∀ (m : SpdmMsg) (x : Sess) (s : State), SpdmOn s → m.secured = true → 3 ≤ s.sd.stage → s.sd.sess = some x → x.opened = false →
    let b := spdmBegin 0xE5 m s
    (Config.stdOk 19 [(slotS s 8).content, b.sd.transcript, m.body] = false → exec (.finish m) s = .next (sessEnd (spdmReply true (spdmErr 6) b))) ∧
    (Config.stdOk 19 [(slotS s 8).content, b.sd.transcript, m.body] = true → Runs (.finish m) s fun t => t.sd.sess = some { x with opened := true, rxSeq := 0, txSeq := 0 } ∧
      t.sd.sessCount = s.sd.sessCount + 1 ∧ t.sd.kgens = [])) ∧
  (∀ (m : SpdmMsg) (s : State), SpdmOn s → m.secured = false → 3 ≤ s.sd.stage →
    exec (.finish m) s = .next (spdmReply false (spdmErr 0x0B) (spdmBegin 0xE5 m s)) ∧ exec (.endSession m) s = .next (spdmReply false (spdmErr 0x0B) (spdmBegin 0xEC m s))) ∧
  (∀ (m : SpdmMsg) (x : Sess) (s : State), SpdmOn s → m.secured = true → 3 ≤ s.sd.stage → s.sd.sess = some x → x.opened = true →
    exec (.endSession m) s = .next (sessEnd (spdmReply true (spdmRsp 0x6C 0 0 []) (spdmBegin 0xEC m s)))) ∧
  (∀ s : State, (∀ d a, (apS s d a).valid = false) → (sessEnd s).sd.sess = none)

/-- What a BX-36 rack does to the module (R536 to R538, R541 to R543, R545). Points the model
chooses: log entries 13, 28. -/
def Obligations.RackPowerAndCooling : Prop :=
  (∀ (n : Nat) (s : State), exec (.bbcShelfEvent n) s = .next
    (brakeAssert { s with rk := { s.rk with shelves := min 8 n, brakeLine := true, holding := true, waitRelease := false } })) ∧
  (∀ s : State, s.rk.holding = false → exec .bbcHoldExpiry s = .next s) ∧
  (∀ s : State, s.rk.holding = true →
    (rackRated s ≤ s.rk.shelves * 60000 → exec .bbcHoldExpiry s = .next (brakeDeassert { s with rk := { s.rk with holding := false, brakeLine := false, waitRelease := false } })) ∧
    (s.rk.shelves * 60000 < rackRated s → exec .bbcHoldExpiry s = .next { s with rk := { s.rk with holding := false, waitRelease := true } })) ∧
  (∀ s : State, (s.rk.activeAlive = false ∨ s.rk.shelves < 2) → exec .rmBrakeRelease s = .next s) ∧
  (∀ s : State, s.rk.activeAlive = true → 2 ≤ s.rk.shelves → rackFull s ≤ s.rk.shelves →
    (s.rk.waitRelease = false → exec .rmBrakeRelease s = .next s) ∧
    (s.rk.waitRelease = true → exec .rmBrakeRelease s = .next (brakeDeassert { s with rk := { s.rk with brakeLine := false, waitRelease := false } }))) ∧
  (∀ s : State, s.rk.activeAlive = true → 2 ≤ s.rk.shelves → s.rk.shelves < rackFull s → MgIdle s →
    let u := rackSend { s with rk := { s.rk with capShelf := some (shelfCap s.rk.shelves s) } }
    (s.rk.waitRelease = false → exec .rmBrakeRelease s = .next u) ∧
    (s.rk.waitRelease = true → exec .rmBrakeRelease s = .next (brakeDeassert { u with rk := { u.rk with brakeLine := false, waitRelease := false } }))) ∧
  (∀ (n : Nat) (s : State), s.rk.pumps ≤ n → exec (.pumpLoss n) s = .next s) ∧
  (∀ (n : Nat) (s : State), n < s.rk.pumps → s.rk.activeAlive = false → exec (.pumpLoss n) s = .next { s with rk := { s.rk with pumps := n } }) ∧
  (∀ (n : Nat) (s : State), 2 ≤ n → n < s.rk.pumps → s.rk.activeAlive = true → exec (.pumpLoss n) s = .next
    (rackSend (rackPost 0 { s with rk := { s.rk with pumps := n, capPump := some (min (rating s) (max Config.kBrakeW (coolPct n * rating s / 100 / 10 * 10))) } }))) ∧
  (∀ s : State, 1 < s.rk.pumps → s.rk.activeAlive = true → exec (.pumpLoss 1) s = .next
    (rackPost 1 (rackSend (rackPost 0 { s with rk := { s.rk with pumps := 1, capPump := some (min (rating s) (max Config.kBrakeW (coolPct 1 * rating s / 100 / 10 * 10))) } })))) ∧
  (∀ s : State, 0 < s.rk.pumps → s.rk.activeAlive = true → exec (.pumpLoss 0) s = .next
    (rackPost 2 (rackPost 1 (rackSend (rackPost 0 { s with rk := { s.rk with pumps := 0, capPump := some (min (rating s) (max Config.kBrakeW (coolPct 0 * rating s / 100 / 10 * 10))) } }))))) ∧
  (∀ (n : Nat) (s : State), s.rk.pumps < min 4 n → s.rk.activeAlive = true → 3 ≤ n → exec (.pumpRestored n) s = .next
    (rackSend { s with rk := { s.rk with pumps := min 4 n, capPump := none } })) ∧
  (∀ (n : Nat) (s : State), min 4 n ≤ s.rk.pumps → exec (.pumpRestored n) s = .next s) ∧
  (∀ (n : Nat) (s : State), s.rk.shelves < min 8 n → (s.rk.activeAlive = false ∨ s.rk.capShelf = none) → exec (.shelfRestored n) s = .next { s with rk := { s.rk with shelves := min 8 n } }) ∧
  (∀ (n : Nat) (s : State), s.rk.shelves < min 8 n → s.rk.activeAlive = true → s.rk.capShelf.isSome = true → rackFull s ≤ min 8 n → exec (.shelfRestored n) s = .next
    (rackSend { s with rk := { s.rk with shelves := min 8 n, capShelf := none } })) ∧
  (∀ s : State, s.rk.standbyAlive = false → exec .rmFailover s = .next s) ∧
  (∀ s : State, s.rk.standbyAlive = true → MgIdle s → s.rk.capShelf = none → s.rk.capPump = none → exec .rmFailover s = .next
    (mgRow (mgVendorMsg 0xB00 []) { s with rk := { s.rk with activeAlive := true, standbyAlive := false } })) ∧
  (∀ s : State, asmOf s = some .m8 → s.rk.build ≠ 2 → rackRated s = 337400 ∧ rackFull s = 6)
end

