-- ==== Sys2Proof/Laws/Cells.lean ====
section
/-! SUPPORT. The memories of the model: every write, erase and read keeps or respects the canonical form. -/

namespace Sys2Proof.Machine

variable {d : Byte}

theorem cellsWf_tail {p : Nat × Byte} {r : List (Nat × Byte)} (h : cellsWf d (p :: r) = true) : cellsWf d r = true := by
  cases r with
  | nil => rfl
  | cons q r => simp [cellsWf] at h; exact h.2

/-- Every key of the tail of a canonical memory lies above the head's. -/
theorem cellsWf_rising {a k : Nat} {v w : Byte} {r : List (Nat × Byte)} (h : cellsWf d ((a, v) :: r) = true) (hk : (k, w) ∈ r) : a < k := by
  induction r generalizing a v with
  | nil => cases hk
  | cons q r ih =>
    simp [cellsWf] at h
    rcases List.mem_cons.1 hk with rfl | hm
    · exact h.1.2
    · exact Nat.lt_trans h.1.2 (ih h.2 hm)

/-- A head below a canonical memory, and not the default, keeps the form. -/
theorem cellsWf_cons {a : Nat} {v : Byte} {r : List (Nat × Byte)} (hv : v ≠ d) (hr : cellsWf d r = true) (hlt : ∀ p ∈ r, a < p.1) :
    cellsWf d ((a, v) :: r) = true := by
  cases r with
  | nil => simpa [cellsWf] using hv
  | cons q r => simp [cellsWf, hv, hr]; exact hlt q (by simp)

theorem cellPut_mem {a : Nat} {v : Byte} {m : List (Nat × Byte)} {p : Nat × Byte} (h : p ∈ cellPut d a v m) : p = (a, v) ∨ p ∈ m := by
  induction m with
  | nil => unfold cellPut at h; split at h <;> simp_all
  | cons q r ih =>
    obtain ⟨k, w⟩ := q
    unfold cellPut at h
    (repeat' split at h) <;> simp only [List.mem_cons] at h ⊢
    · exact .inr h
    · exact h
    · exact .inr (.inr h)
    · rcases h with h | h
      · exact .inl h
      · exact .inr (.inr h)
    · rcases h with h | h
      · exact .inr (.inl h)
      · rcases ih h with h | h
        · exact .inl h
        · exact .inr (.inr h)

/-- Writing one byte keeps the canonical form. -/
theorem cellPut_wf (a : Nat) (v : Byte) {m : List (Nat × Byte)} (h : cellsWf d m = true) : cellsWf d (cellPut d a v m) = true := by
  induction m with
  | nil => unfold cellPut; split <;> simp_all [cellsWf]
  | cons q r ih =>
    obtain ⟨k, w⟩ := q
    have hr := cellsWf_tail h
    have hw : w ≠ d := by cases r <;> simp [cellsWf] at h <;> simp [h]
    have hlt : ∀ p ∈ r, k < p.1 := fun p hp => cellsWf_rising h hp
    unfold cellPut
    split
    · split
      · exact h
      · rename_i hak hv
        refine cellsWf_cons hv h ?_
        intro p hp
        rcases List.mem_cons.1 hp with rfl | hp
        · exact hak
        · exact Nat.lt_trans hak (hlt p hp)
    · split
      · rename_i hak
        subst hak
        split
        · exact hr
        · rename_i hv
          exact cellsWf_cons hv hr hlt
      · rename_i hak hne
        refine cellsWf_cons hw (ih hr) ?_
        intro p hp
        rcases cellPut_mem hp with rfl | hp
        · show k < a
          omega
        · exact hlt p hp

/-- Writing a byte string keeps the canonical form. -/
theorem cellPuts_wf (a : Nat) (b : Bytes) {m : List (Nat × Byte)} (h : cellsWf d m = true) : cellsWf d (cellPuts d a b m) = true := by
  induction b generalizing a m with
  | nil => exact h
  | cons x r ih => exact ih (a + 1) (cellPut_wf a x h)

/-- Dropping cells keeps the canonical form. -/
theorem cellsWf_filter (f : Nat × Byte → Bool) {m : List (Nat × Byte)} (h : cellsWf d m = true) : cellsWf d (m.filter f) = true := by
  induction m with
  | nil => rfl
  | cons q r ih =>
    obtain ⟨k, w⟩ := q
    have hr := cellsWf_tail h
    have hw : w ≠ d := by cases r <;> simp [cellsWf] at h <;> simp [h]
    rw [List.filter_cons]
    split
    · exact cellsWf_cons hw (ih hr) (fun p hp => cellsWf_rising h (List.mem_of_mem_filter hp))
    · exact ih hr

/-- Erasing a range keeps the canonical form. -/
theorem cellErase_wf (a n : Nat) {m : List (Nat × Byte)} (h : cellsWf d m = true) : cellsWf d (cellErase a n m) = true :=
  cellsWf_filter _ h

/-- A byte read where it was written is the byte written. -/
theorem cellGet_cellPut_same (a : Nat) (v : Byte) {m : List (Nat × Byte)} (h : cellsWf d m = true) : cellGet d a (cellPut d a v m) = v := by
  induction m with
  | nil => unfold cellPut cellGet; split <;> simp_all [lookupNat]
  | cons q r ih =>
    obtain ⟨k, w⟩ := q
    have hlt : ∀ p ∈ r, k < p.1 := fun p hp => cellsWf_rising h hp
    have none_of : ∀ (l : List (Nat × Byte)) (x : Nat), (∀ p ∈ l, x < p.1) → lookupNat x l = none := by
      intro l x hl
      induction l with
      | nil => rfl
      | cons p l ihl =>
        obtain ⟨y, z⟩ := p
        have hy := hl (y, z) (by simp)
        unfold lookupNat
        rw [if_neg (by simp at hy; omega)]
        exact ihl (fun p hp => hl p (by simp [hp]))
    unfold cellPut
    split
    · rename_i hak
      have hall : ∀ p ∈ (k, w) :: r, a < p.1 := by
        intro p hp
        rcases List.mem_cons.1 hp with rfl | hp
        · exact hak
        · exact Nat.lt_trans hak (hlt p hp)
      split
      · rename_i hv
        simp [cellGet, none_of _ _ hall, hv]
      · simp [cellGet, lookupNat]
    · split
      · rename_i hak
        subst hak
        split
        · rename_i hv
          simp [cellGet, none_of _ _ hlt, hv]
        · simp [cellGet, lookupNat]
      · rename_i hak hne
        have := ih (cellsWf_tail h)
        unfold cellGet at this ⊢
        unfold lookupNat
        rw [if_neg (by omega)]
        exact this

/-- A byte read elsewhere is what it was. -/
theorem cellGet_cellPut_other (a b : Nat) (v : Byte) (m : List (Nat × Byte)) (hb : b ≠ a) : cellGet d b (cellPut d a v m) = cellGet d b m := by
  induction m with
  | nil => unfold cellPut; split <;> simp [cellGet, lookupNat, Ne.symm hb]
  | cons q r ih =>
    obtain ⟨k, w⟩ := q
    unfold cellPut
    split
    · split
      · rfl
      · simp [cellGet, lookupNat, Ne.symm hb]
    · split
      · rename_i hak
        subst hak
        split <;> simp [cellGet, lookupNat, Ne.symm hb]
      · by_cases hk : k = b
        · simp [cellGet, lookupNat, hk]
        · unfold cellGet at ih ⊢
          unfold lookupNat
          rw [if_neg hk, if_neg hk]
          exact ih

end Sys2Proof.Machine
end

