-- ==== Sys2Proof/Laws/InvBase.lean ====
section
/-! SUPPORT. `Kept q s`: the invariant holds and the queue is `q`. Its projections, one lemma per part that a record
update replaces, and the lemmas of the shared list operations. -/

namespace Sys2Proof.Machine

/-- The invariant, and the queue as it was. -/
def Kept (q : List Instr) (s : State) : Prop := Inv s ∧ s.pending = q
variable {s : State} {q : List Instr}
theorem inv_wd (h : Kept q s) : WdOk s.wd := h.1.1
theorem inv_units (h : Kept q s) : s.units.length = 18 := h.1.2.1
theorem inv_sq (h : Kept q s) : SqOk s.sq := h.1.2.2.1
theorem inv_otp (h : Kept q s) : OtOk s.otp := h.1.2.2.2.1
theorem inv_ks (h : Kept q s) : KsOk s.ks := h.1.2.2.2.2.1
theorem inv_pk (h : Kept q s) : PkOk s.pk := h.1.2.2.2.2.2.1
theorem inv_ms (h : Kept q s) : s.ms.slots.length = 32 := h.1.2.2.2.2.2.2.1
theorem inv_fl (h : Kept q s) : FlOk s.fl := h.1.2.2.2.2.2.2.2.1
theorem inv_mg (h : Kept q s) : MgOk s.mg := h.1.2.2.2.2.2.2.2.2.1
theorem inv_mb (h : Kept q s) : MbOk s.mb := h.1.2.2.2.2.2.2.2.2.2
theorem inv_q (h : Kept q s) : s.pending = q := h.2
theorem inv_set_wd {pkg dg boot upd pw lg rk hb px sp sd idn tn wk rc jb xl ln pq fq uw outs draws wd} (h : Kept q s) (hx : WdOk wd) : Kept q ⟨pkg, wd, s.units, s.sq, s.otp, dg, s.ks, s.pk, s.ms, boot, upd, s.fl, pw, lg, s.mg, rk, hb, s.mb, px, sp, sd, idn, tn, wk, rc, jb, xl, ln, pq, fq, uw, outs, draws, s.pending⟩ := by
  obtain ⟨⟨h1, h2, h3, h4, h5, h6, h7, h8, h9, h10⟩, hq⟩ := h; exact ⟨⟨hx, h2, h3, h4, h5, h6, h7, h8, h9, h10⟩, hq⟩
theorem inv_set_units {pkg dg boot upd pw lg rk hb px sp sd idn tn wk rc jb xl ln pq fq uw outs draws units} (h : Kept q s) (hx : List.length units = 18) : Kept q ⟨pkg, s.wd, units, s.sq, s.otp, dg, s.ks, s.pk, s.ms, boot, upd, s.fl, pw, lg, s.mg, rk, hb, s.mb, px, sp, sd, idn, tn, wk, rc, jb, xl, ln, pq, fq, uw, outs, draws, s.pending⟩ := by
  obtain ⟨⟨h1, h2, h3, h4, h5, h6, h7, h8, h9, h10⟩, hq⟩ := h; exact ⟨⟨h1, hx, h3, h4, h5, h6, h7, h8, h9, h10⟩, hq⟩
theorem inv_set_sq {pkg dg boot upd pw lg rk hb px sp sd idn tn wk rc jb xl ln pq fq uw outs draws sq} (h : Kept q s) (hx : SqOk sq) : Kept q ⟨pkg, s.wd, s.units, sq, s.otp, dg, s.ks, s.pk, s.ms, boot, upd, s.fl, pw, lg, s.mg, rk, hb, s.mb, px, sp, sd, idn, tn, wk, rc, jb, xl, ln, pq, fq, uw, outs, draws, s.pending⟩ := by
  obtain ⟨⟨h1, h2, h3, h4, h5, h6, h7, h8, h9, h10⟩, hq⟩ := h; exact ⟨⟨h1, h2, hx, h4, h5, h6, h7, h8, h9, h10⟩, hq⟩
theorem inv_set_otp {pkg dg boot upd pw lg rk hb px sp sd idn tn wk rc jb xl ln pq fq uw outs draws otp} (h : Kept q s) (hx : OtOk otp) : Kept q ⟨pkg, s.wd, s.units, s.sq, otp, dg, s.ks, s.pk, s.ms, boot, upd, s.fl, pw, lg, s.mg, rk, hb, s.mb, px, sp, sd, idn, tn, wk, rc, jb, xl, ln, pq, fq, uw, outs, draws, s.pending⟩ := by
  obtain ⟨⟨h1, h2, h3, h4, h5, h6, h7, h8, h9, h10⟩, hq⟩ := h; exact ⟨⟨h1, h2, h3, hx, h5, h6, h7, h8, h9, h10⟩, hq⟩
theorem inv_set_ks {pkg dg boot upd pw lg rk hb px sp sd idn tn wk rc jb xl ln pq fq uw outs draws ks} (h : Kept q s) (hx : KsOk ks) : Kept q ⟨pkg, s.wd, s.units, s.sq, s.otp, dg, ks, s.pk, s.ms, boot, upd, s.fl, pw, lg, s.mg, rk, hb, s.mb, px, sp, sd, idn, tn, wk, rc, jb, xl, ln, pq, fq, uw, outs, draws, s.pending⟩ := by
  obtain ⟨⟨h1, h2, h3, h4, h5, h6, h7, h8, h9, h10⟩, hq⟩ := h; exact ⟨⟨h1, h2, h3, h4, hx, h6, h7, h8, h9, h10⟩, hq⟩
theorem inv_set_pk {pkg dg boot upd pw lg rk hb px sp sd idn tn wk rc jb xl ln pq fq uw outs draws pk} (h : Kept q s) (hx : PkOk pk) : Kept q ⟨pkg, s.wd, s.units, s.sq, s.otp, dg, s.ks, pk, s.ms, boot, upd, s.fl, pw, lg, s.mg, rk, hb, s.mb, px, sp, sd, idn, tn, wk, rc, jb, xl, ln, pq, fq, uw, outs, draws, s.pending⟩ := by
  obtain ⟨⟨h1, h2, h3, h4, h5, h6, h7, h8, h9, h10⟩, hq⟩ := h; exact ⟨⟨h1, h2, h3, h4, h5, hx, h7, h8, h9, h10⟩, hq⟩
theorem inv_set_ms {pkg dg boot upd pw lg rk hb px sp sd idn tn wk rc jb xl ln pq fq uw outs draws ms} (h : Kept q s) (hx : ms.slots.length = 32) : Kept q ⟨pkg, s.wd, s.units, s.sq, s.otp, dg, s.ks, s.pk, ms, boot, upd, s.fl, pw, lg, s.mg, rk, hb, s.mb, px, sp, sd, idn, tn, wk, rc, jb, xl, ln, pq, fq, uw, outs, draws, s.pending⟩ := by
  obtain ⟨⟨h1, h2, h3, h4, h5, h6, h7, h8, h9, h10⟩, hq⟩ := h; exact ⟨⟨h1, h2, h3, h4, h5, h6, hx, h8, h9, h10⟩, hq⟩
theorem inv_set_fl {pkg dg boot upd pw lg rk hb px sp sd idn tn wk rc jb xl ln pq fq uw outs draws fl} (h : Kept q s) (hx : FlOk fl) : Kept q ⟨pkg, s.wd, s.units, s.sq, s.otp, dg, s.ks, s.pk, s.ms, boot, upd, fl, pw, lg, s.mg, rk, hb, s.mb, px, sp, sd, idn, tn, wk, rc, jb, xl, ln, pq, fq, uw, outs, draws, s.pending⟩ := by
  obtain ⟨⟨h1, h2, h3, h4, h5, h6, h7, h8, h9, h10⟩, hq⟩ := h; exact ⟨⟨h1, h2, h3, h4, h5, h6, h7, hx, h9, h10⟩, hq⟩
theorem inv_set_mg {pkg dg boot upd pw lg rk hb px sp sd idn tn wk rc jb xl ln pq fq uw outs draws mg} (h : Kept q s) (hx : MgOk mg) : Kept q ⟨pkg, s.wd, s.units, s.sq, s.otp, dg, s.ks, s.pk, s.ms, boot, upd, s.fl, pw, lg, mg, rk, hb, s.mb, px, sp, sd, idn, tn, wk, rc, jb, xl, ln, pq, fq, uw, outs, draws, s.pending⟩ := by
  obtain ⟨⟨h1, h2, h3, h4, h5, h6, h7, h8, h9, h10⟩, hq⟩ := h; exact ⟨⟨h1, h2, h3, h4, h5, h6, h7, h8, hx, h10⟩, hq⟩
theorem inv_set_mb {pkg dg boot upd pw lg rk hb px sp sd idn tn wk rc jb xl ln pq fq uw outs draws mb} (h : Kept q s) (hx : MbOk mb) : Kept q ⟨pkg, s.wd, s.units, s.sq, s.otp, dg, s.ks, s.pk, s.ms, boot, upd, s.fl, pw, lg, s.mg, rk, hb, mb, px, sp, sd, idn, tn, wk, rc, jb, xl, ln, pq, fq, uw, outs, draws, s.pending⟩ := by
  obtain ⟨⟨h1, h2, h3, h4, h5, h6, h7, h8, h9, h10⟩, hq⟩ := h; exact ⟨⟨h1, h2, h3, h4, h5, h6, h7, h8, h9, hx⟩, hq⟩
theorem inv_foldl {α : Type} {f : State → α → State} {l : List α} (h : Kept q s) (hf : ∀ s x, Kept q s → Kept q (f s x)) : Kept q (l.foldl f s) := by
  induction l generalizing s with
  | nil => exact h
  | cons a l ih => exact ih (hf _ _ h)
@[simp] theorem modNth_length {α : Type} (i : Nat) (f : α → α) (l : List α) : (modNth i f l).length = l.length := by simp [modNth]
theorem mem_modNth {α : Type} {i : Nat} {f : α → α} {l : List α} {y : α} (h : y ∈ modNth i f l) : y ∈ l ∨ ∃ x ∈ l, y = f x := by
  unfold modNth at h
  induction l generalizing i with
  | nil => simp at h
  | cons a l ih =>
    cases i with
    | zero => simp at h; rcases h with h | h <;> simp [h]
    | succ i =>
      simp at h
      rcases h with h | h
      · simp [h]
      · rcases ih h with h | ⟨x, hx, e⟩
        · simp [h]
        · exact .inr ⟨x, by simp [hx], e⟩
theorem inv_modUnit (u : Nat) (f : UnitS → UnitS) (h : Kept q s) : Kept q (modUnit u f s) := inv_set_units h (by simp [inv_units h])
theorem inv_modChan (c : Nat) (f : Chan → Chan) (h : Kept q s) (hf : ∀ x, (f x).cmdBuf = x.cmdBuf) : Kept q (modChan c f s) := by
  refine inv_set_mb h ?_
  obtain ⟨h1, h2, h3⟩ := inv_mb h
  refine ⟨h1, by simpa using h2, fun y hy => ?_⟩
  rcases mem_modNth hy with hy | ⟨x, hx, rfl⟩
  · exact h3 _ hy
  · rw [hf]; exact h3 _ hx
theorem inv_modOtp (f : Otp → Otp) (h : Kept q s) (hf : (f s.otp).pulse = s.otp.pulse) : Kept q (modOtp f s) := by
  refine inv_set_otp h ?_
  have := inv_otp h
  simpa [OtOk, hf] using this
theorem inv_setSlot (i : Nat) (x : Slot) (h : Kept q s) : Kept q (setSlot i x s) := by
  refine inv_set_ks h ?_
  have := inv_ks h
  simpa [KsOk] using this
theorem inv_upd {pkg dg boot upd pw lg rk hb px sp sd idn tn wk rc jb xl ln pq fq uw outs draws} : Kept q ⟨pkg, s.wd, s.units, s.sq, s.otp, dg, s.ks, s.pk, s.ms, boot, upd, s.fl, pw, lg, s.mg, rk, hb, s.mb, px, sp, sd, idn, tn, wk, rc, jb, xl, ln, pq, fq, uw, outs, draws, s.pending⟩ ↔ Kept q s := Iff.rfl
theorem inv_mk {pkg wd units sq otp dg ks pk ms boot upd fl pw lg mg rk hb mb px sp sd idn tn wk rc jb xl ln pq fq uw outs draws pending} :
    Kept q ⟨pkg, wd, units, sq, otp, dg, ks, pk, ms, boot, upd, fl, pw, lg, mg, rk, hb, mb, px, sp, sd, idn, tn, wk, rc, jb, xl, ln, pq, fq, uw, outs, draws, pending⟩
      ↔ (WdOk wd ∧ List.length units = 18 ∧ SqOk sq ∧ OtOk otp ∧ KsOk ks ∧ PkOk pk ∧ ms.slots.length = 32 ∧ FlOk fl ∧ MgOk mg ∧ MbOk mb) ∧ pending = q := Iff.rfl
theorem inv_ite {c : Prop} [Decidable c] {a b : State} (ha : Kept q a) (hb : Kept q b) : Kept q (if c then a else b) := by split <;> assumption
theorem inv_iteS {c : Prop} [Decidable c] {a b : CmdRes} (ha : Kept q a.s) (hb : Kept q b.s) : Kept q (if c then a else b).s := by split <;> assumption
end Sys2Proof.Machine
end

