-- ==== Sys2Proof/Laws/Inv1.lean ====
section
/-! SUPPORT. What `Kept` says of the operations of Ops, Sequencer, Tables, Otp, DigestKey, Curve and PkeMeas. -/

open Sys2Proof.Machine
namespace Sys2Proof.Machine
set_option linter.all false
variable {q : List Instr}
theorem inv_emit (o : Out) {s : State} (hI : Kept q s) : Kept q (emit o s) := by
  unfold emit; exact hI
theorem inv_irq (n : Nat) {s : State} (hI : Kept q s) : Kept q (irq n s) := by
  unfold irq; exact hI
theorem inv_wdBusError {s : State} (hI : Kept q s) : Kept q (wdBusError s) := by
  unfold wdBusError; exact hI
theorem inv_wdOk {s : State} (hI : Kept q s) : Kept q (wdOk s) := by
  unfold wdOk; exact hI
theorem inv_wdStall (a v : Nat) {s : State} (hI : Kept q s) : Kept q (wdStall a v s) := by
  unfold wdStall; exact hI
theorem inv_unitPump (u : Nat) {s : State} (hI : Kept q s) : Kept q (unitPump u s) := by
  unfold unitPump; repeat' (first | (with_reducible first | assumption | apply inv_modUnit) | simp only [inv_upd] | split)
theorem inv_unitCmd (u op : Nat) (p : Bytes) {s : State} (hI : Kept q s) : Kept q (unitCmd u op p s) := by
  unfold unitCmd; repeat' (first | (with_reducible first | assumption | apply inv_modUnit | apply inv_unitPump | apply inv_ite))
theorem inv_drawBytes (n : Nat) {s : State} (hI : Kept q s) : Kept q (drawBytes n s).2 := by
  unfold drawBytes; exact hI
theorem inv_modFn (d : Nat) (f : HostFn → HostFn) {s : State} (hI : Kept q s) : Kept q (modFn d f s) := by
  unfold modFn; exact hI
theorem inv_sendVec (d v : Nat) {s : State} (hI : Kept q s) : Kept q (sendVec d v s) := by
  unfold sendVec; repeat' (first | (with_reducible first | assumption | apply inv_emit | apply inv_modFn | apply inv_ite))
theorem inv_raiseHost (d b v : Nat) {s : State} (hI : Kept q s) : Kept q (raiseHost d b v s) := by
  unfold raiseHost; repeat' (first | (with_reducible first | assumption | apply inv_modFn | apply inv_sendVec | apply inv_ite))
theorem inv_pldmEvent (sensor value : Nat) {s : State} (hI : Kept q s) : Kept q (pldmEvent sensor value s) := by
  unfold pldmEvent; repeat' (first | with_reducible apply inv_emit | ((try lift_lets); intro x; first | (refine (?_ : MgOk x → _) (inv_mg (q := q) ?_); intro _; clear_value x)) | (simp only [inv_mk]; refine ⟨⟨?_, ?_, ?_, ?_, ?_, ?_, ?_, ?_, ?_, ?_⟩, ?_⟩) | (with_reducible first | apply inv_wd | apply inv_units | apply inv_sq | apply inv_otp | apply inv_ks | apply inv_pk | apply inv_ms | apply inv_fl | apply inv_mb | apply inv_q) | split | assumption)
theorem inv_logVector {s : State} (hI : Kept q s) : Kept q (logVector s) := by
  unfold logVector; repeat' (first | (with_reducible first | assumption | apply inv_raiseHost | apply inv_ite) | simp only [inv_upd])
theorem inv_logWith (flags code unit : Nat) (data : Bytes) {s : State} (hI : Kept q s) : Kept q (logWith flags code unit data s) := by
  unfold logWith; repeat' (first | (with_reducible first | assumption | apply inv_logVector | apply inv_ite) | simp only [inv_upd])
theorem inv_logEvent (code unit : Nat) (data : Bytes) {s : State} (hI : Kept q s) : Kept q (logEvent code unit data s) := by
  unfold logEvent; repeat' (first | (with_reducible first | assumption | apply inv_logWith))
theorem inv_trace (point unit a b : Nat) {s : State} (hI : Kept q s) : Kept q (trace point unit a b s) := by
  unfold trace; repeat' (first | (with_reducible first | assumption | apply inv_ite) | simp only [inv_upd])
theorem inv_modLd (d : Nat) (f : LDie → LDie) {s : State} (hI : Kept q s) : Kept q (modLd d f s) := by
  unfold modLd; exact hI
theorem inv_modLport (d p : Nat) (f : LPort → LPort) {s : State} (hI : Kept q s) : Kept q (modLport d p f s) := by
  unfold modLport; exact hI
theorem inv_traceLink (u p : Nat) {s : State} (hI : Kept q s) : Kept q (traceLink u p s) := by
  unfold traceLink; repeat' (first | (with_reducible first | assumption | apply inv_trace))
theorem inv_portsLeave (u : Nat) {s : State} (hI : Kept q s) : Kept q (portsLeave u s) := by
  unfold portsLeave; repeat' (first | (with_reducible first | assumption | apply inv_modLport | apply inv_traceLink | apply inv_foldl | apply inv_ite) | (intro s x h; have : Kept q s := h))
theorem inv_announce {s : State} (hI : Kept q s) : Kept q (announce s) := by
  unfold announce; repeat' (first | (with_reducible first | assumption | apply inv_pldmEvent | apply inv_raiseHost))
theorem inv_setStateIn (m : Mode) (st : PState) (cause : Nat) {s : State} (hI : Kept q s) : Kept q (setStateIn m st cause s) := by
  unfold setStateIn; repeat' (first | (with_reducible first | assumption | apply inv_announce | apply inv_logEvent | apply inv_ite) | simp only [inv_upd])
theorem inv_setState (st : PState) (cause : Nat) {s : State} (hI : Kept q s) : Kept q (setState st cause s) := by
  unfold setState; repeat' (first | (with_reducible first | assumption | apply inv_setStateIn))
theorem inv_setMode (m : Mode) {s : State} (hI : Kept q s) : Kept q (setMode m s) := by
  unfold setMode; repeat' (first | (with_reducible first | assumption | apply inv_announce | apply inv_logEvent | apply inv_ite) | simp only [inv_upd])
theorem inv_commitSlot (i : Nat) (key : Bytes) (origin use : Nat) (lock : Bool) {s : State} (hI : Kept q s) : Kept q (commitSlot i key origin use lock s) := by
  unfold commitSlot; repeat' (first | (with_reducible first | assumption | apply inv_setSlot))
theorem inv_sealCut {s : State} (hI : Kept q s) : Kept q (sealCut s) := by
  unfold sealCut; exact hI
theorem inv_dgEnd (ecode : Nat) {s : State} (hI : Kept q s) : Kept q (dgEnd ecode s) := by
  unfold dgEnd; repeat' (first | (with_reducible first | assumption | apply inv_irq | apply inv_setSlot | apply inv_ite) | simp only [inv_upd])
theorem inv_pkCut (i : Nat) {s : State} (hI : Kept q s) : Kept q (pkCut i s) := by
  unfold pkCut; repeat' (first | with_reducible assumption | (simp only [inv_mk]; refine ⟨⟨?_, ?_, ?_, ?_, ?_, ?_, ?_, ?_, ?_, ?_⟩, ?_⟩) | (with_reducible first | apply inv_wd | apply inv_units | apply inv_sq | apply inv_otp | apply inv_ks | apply inv_ms | apply inv_fl | apply inv_mg | apply inv_mb | apply inv_q) | exact inv_pk (by assumption) | split)
theorem inv_pkCutAll {s : State} (hI : Kept q s) : Kept q (pkCutAll s) := by
  unfold pkCutAll; repeat' (first | (with_reducible first | assumption | apply inv_ite) | (simp only [inv_mk]; refine ⟨⟨?_, ?_, ?_, ?_, ?_, ?_, ?_, ?_, ?_, ?_⟩, ?_⟩) | (with_reducible first | apply inv_wd | apply inv_units | apply inv_sq | apply inv_otp | apply inv_ks | apply inv_ms | apply inv_fl | apply inv_mg | apply inv_mb | apply inv_q) | exact inv_pk (by assumption))
theorem inv_zeroSlot (i : Nat) (readBackBad : Bool) {s : State} (hI : Kept q s) : Kept q (zeroSlot i readBackBad s) := by
  unfold zeroSlot; repeat' (first | (with_reducible first | apply inv_dgEnd | apply inv_pkCut | apply inv_setSlot | apply inv_ite | apply inv_ks) | ((try lift_lets); intro x; first | (refine (?_ : KsOk x → _) (inv_ks (q := q) ?_); intro _; clear_value x)) | (simp only [inv_mk]; refine ⟨⟨?_, ?_, ?_, ?_, ?_, ?_, ?_, ?_, ?_, ?_⟩, ?_⟩) | (with_reducible first | apply inv_wd | apply inv_units | apply inv_sq | apply inv_otp | apply inv_pk | apply inv_ms | apply inv_fl | apply inv_mg | apply inv_mb | apply inv_q) | assumption)
theorem inv_zeroSlots (l : List Nat) {s : State} (hI : Kept q s) : Kept q (zeroSlots l s) := by
  unfold zeroSlots; repeat' (first | (with_reducible first | assumption | apply inv_zeroSlot | apply inv_foldl) | (intro s x h; have : Kept q s := h))
theorem inv_zeroAllSlots {s : State} (hI : Kept q s) : Kept q (zeroAllSlots s) := by
  unfold zeroAllSlots; repeat' (first | (with_reducible first | assumption | apply inv_pkCutAll | apply inv_zeroSlots))
theorem inv_setNotice (b : Nat) {s : State} (hI : Kept q s) : Kept q (setNotice b s) := by
  unfold setNotice; repeat' (first | (with_reducible first | assumption | apply inv_irq | apply inv_ite) | simp only [inv_upd])
theorem inv_setAlarm (b : Nat) {s : State} (hI : Kept q s) : Kept q (setAlarm b s) := by
  unfold setAlarm; repeat' (first | (with_reducible first | apply inv_dgEnd | apply inv_irq | apply inv_logEvent | apply inv_ite | apply inv_pk) | ((try lift_lets); intro x; first | (refine (?_ : PkOk x → _) (inv_pk (q := q) ?_); intro _; clear_value x) | (fail_if_success (first | (have : State := x) | fail))) | (simp only [inv_mk]; refine ⟨⟨?_, ?_, ?_, ?_, ?_, ?_, ?_, ?_, ?_, ?_⟩, ?_⟩) | (with_reducible first | apply inv_wd | apply inv_units | apply inv_sq | apply inv_otp | apply inv_ks | apply inv_ms | apply inv_fl | apply inv_mg | apply inv_mb | apply inv_q) | assumption)
theorem inv_msExtend (n kind typ : Nat) (input : Bytes) {s : State} (hI : Kept q s) : Kept q (msExtend n kind typ input s) := by
  unfold msExtend
  dsimp only
  split
  · exact inv_logEvent _ _ _ hI
  · refine inv_mk.2 ⟨⟨inv_wd hI, inv_units hI, inv_sq hI, inv_otp hI, inv_ks hI, inv_pk hI, ?_, inv_fl hI, inv_mg hI, inv_mb hI⟩, inv_q hI⟩
    have := inv_ms hI
    (repeat' split) <;> simpa using this
theorem inv_msRecord (n : Nat) (rec : Bytes) {s : State} (hI : Kept q s) : Kept q (msRecord n rec s) := by
  unfold msRecord; repeat' (first | (with_reducible first | assumption | apply inv_msExtend))
theorem inv_msLock (n : Nat) {s : State} (hI : Kept q s) : Kept q (msLock n s) := by
  unfold msLock; repeat' (first | with_reducible assumption | (simp only [inv_mk]; refine ⟨⟨?_, ?_, ?_, ?_, ?_, ?_, ?_, ?_, ?_, ?_⟩, ?_⟩) | (with_reducible first | apply inv_wd | apply inv_units | apply inv_sq | apply inv_otp | apply inv_ks | apply inv_pk | apply inv_fl | apply inv_mg | apply inv_mb | apply inv_q) | (have := inv_ms (by assumption); simpa using this))
theorem inv_ramPut (i : Nat) (w : Step64) {s : State} (hI : Kept q s) : Kept q (ramPut i w s) := by
  unfold ramPut; exact hI
theorem inv_sqStop (f : Seqr → Seqr) {s : State} (h : Kept q s) (hf : ∀ q, (f q).bound = q.bound ∧ (f q).tmo = q.tmo) : Kept q (sqStop f s) := by
  unfold sqStop
  refine inv_irq 2 (inv_trace _ _ _ _ (inv_set_sq h ?_))
  have := inv_sq h
  unfold SqOk
  rw [(hf _).1, (hf _).2]
  exact this

theorem inv_sqError (e : Nat) {s : State} (hI : Kept q s) : Kept q (sqError e s) := by
  unfold sqError; repeat' (first | (with_reducible first | assumption | apply inv_sqStop) | (intro _; exact ⟨rfl, rfl⟩))
theorem inv_sqStart (p : SqPurpose) {s : State} (hI : Kept q s) : Kept q (sqStart p s) := by
  unfold sqStart; repeat' (first | (with_reducible first | assumption | apply inv_trace | apply inv_ite) | (simp only [inv_mk]; refine ⟨⟨?_, ?_, ?_, ?_, ?_, ?_, ?_, ?_, ?_, ?_⟩, ?_⟩) | (with_reducible first | apply inv_wd | apply inv_units | apply inv_otp | apply inv_ks | apply inv_pk | apply inv_ms | apply inv_fl | apply inv_mg | apply inv_mb | apply inv_q) | exact inv_sq (by assumption))
theorem inv_sqAbort {s : State} (hI : Kept q s) : Kept q (sqAbort s) := by
  unfold sqAbort; repeat' (first | (with_reducible first | assumption | apply inv_sqStop | apply inv_ite) | (intro _; exact ⟨rfl, rfl⟩) | (simp only [inv_mk]; refine ⟨⟨?_, ?_, ?_, ?_, ?_, ?_, ?_, ?_, ?_, ?_⟩, ?_⟩) | (with_reducible first | apply inv_wd | apply inv_units | apply inv_otp | apply inv_ks | apply inv_pk | apply inv_ms | apply inv_fl | apply inv_mg | apply inv_mb | apply inv_q) | exact inv_sq (by assumption))
theorem inv_sqAdvance {s : State} (hI : Kept q s) : Kept q (sqAdvance s) := by
  unfold sqAdvance; repeat' (first | (with_reducible first | apply inv_sqError | apply inv_sqStop | apply inv_ite) | (simp only [inv_mk]; refine ⟨⟨?_, ?_, ?_, ?_, ?_, ?_, ?_, ?_, ?_, ?_⟩, ?_⟩) | (with_reducible first | apply inv_wd | apply inv_units | apply inv_otp | apply inv_ks | apply inv_pk | apply inv_ms | apply inv_fl | apply inv_mg | apply inv_mb | apply inv_q) | assumption | (have := inv_sq (by assumption); simpa [SqOk] using this))
theorem inv_mapReset (u idx : Nat) {s : State} (hI : Kept q s) : Kept q (mapReset u idx s) := by
  unfold mapReset; repeat' (first | (with_reducible first | assumption | apply inv_ite) | simp only [inv_upd])
theorem inv_kpZero (u idx : Nat) {s : State} (hI : Kept q s) : Kept q (kpZero u idx s) := by
  unfold kpZero; repeat' (first | (with_reducible first | assumption | apply inv_mapReset | apply inv_modUnit))
theorem inv_kpInstall (u idx : Nat) (key : Bytes) {s : State} (hI : Kept q s) : Kept q (kpInstall u idx key s) := by
  unfold kpInstall; repeat' (first | (with_reducible first | assumption | apply inv_mapReset | apply inv_modUnit))
theorem inv_kpush (k u idx : Nat) (corrupt : Bool) {s : State} (hI : Kept q s) : Kept q (kpush k u idx corrupt s) := by
  unfold kpush; repeat' (first | (with_reducible first | apply inv_kpInstall | apply inv_sqAdvance | apply inv_sqError) | ((try lift_lets); intro x; first | (refine (?_ : SqOk x → _) (inv_sq (q := q) ?_); intro _; clear_value x) | (fail_if_success (first | (have : State := x) | fail))) | (simp only [inv_mk]; refine ⟨⟨?_, ?_, ?_, ?_, ?_, ?_, ?_, ?_, ?_, ?_⟩, ?_⟩) | (with_reducible first | apply inv_wd | apply inv_units | apply inv_otp | apply inv_ks | apply inv_pk | apply inv_ms | apply inv_fl | apply inv_mg | apply inv_mb | apply inv_q) | split | assumption)
theorem inv_assertReset (u : Nat) {s : State} (hI : Kept q s) : Kept q (assertReset u s) := by
  unfold assertReset; repeat' (first | (with_reducible first | assumption | apply inv_modUnit))
theorem inv_releaseReset (u hlres : Nat) {s : State} (hI : Kept q s) : Kept q (releaseReset u hlres s) := by
  unfold releaseReset; repeat' (first | (with_reducible first | assumption | apply inv_modUnit | apply inv_ite) | simp only [inv_upd])
theorem inv_sqReset (u b hlres : Nat) {s : State} (hI : Kept q s) : Kept q (sqReset u b hlres s) := by
  unfold sqReset; repeat' (first | (with_reducible first | assumption | apply inv_assertReset | apply inv_modUnit | apply inv_portsLeave | apply inv_releaseReset | apply inv_sqAdvance | apply inv_sqError | apply inv_ite))
theorem inv_sqClock (t b : Nat) {s : State} (hI : Kept q s) : Kept q (sqClock t b s) := by
  unfold sqClock; repeat' (first | (with_reducible first | assumption | apply inv_modUnit | apply inv_sqAdvance | apply inv_sqError | apply inv_ite) | (simp only [inv_mk]; refine ⟨⟨?_, ?_, ?_, ?_, ?_, ?_, ?_, ?_, ?_, ?_⟩, ?_⟩) | (with_reducible first | apply inv_units | apply inv_sq | apply inv_otp | apply inv_ks | apply inv_pk | apply inv_ms | apply inv_fl | apply inv_mg | apply inv_mb | apply inv_q) | exact inv_wd (by assumption))
theorem inv_driveRail (r : Nat) (on : Bool) {s : State} (hI : Kept q s) : Kept q (driveRail r on s) := by
  unfold driveRail; exact hI
theorem inv_dgFeed (data : Bytes) {s : State} (hI : Kept q s) : Kept q (dgFeed data s) := by
  unfold dgFeed; exact hI
theorem inv_sramScrub (a n : Nat) {s : State} (hI : Kept q s) : Kept q (sramScrub a n s) := by
  unfold sramScrub; repeat' (first | (with_reducible first | apply inv_setNotice | apply inv_ite) | ((try lift_lets); intro x; first | (refine (?_ : WdOk x → _) (inv_wd (q := q) ?_); intro _; clear_value x)) | (simp only [inv_mk]; refine ⟨⟨?_, ?_, ?_, ?_, ?_, ?_, ?_, ?_, ?_, ?_⟩, ?_⟩) | (with_reducible first | apply inv_units | apply inv_sq | apply inv_otp | apply inv_ks | apply inv_pk | apply inv_ms | apply inv_fl | apply inv_mg | apply inv_mb | apply inv_q) | assumption)
theorem inv_sqDigest (len : Nat) (busErr : Bool) {s : State} (hI : Kept q s) : Kept q (sqDigest len busErr s) := by
  unfold sqDigest; repeat' (first | (with_reducible first | assumption | apply inv_dgEnd | apply inv_dgFeed | apply inv_sqAdvance | apply inv_sqError | apply inv_sramScrub | apply inv_ite) | split)
theorem inv_sqIssue (u : Nat) (op : UnitOp) {s : State} (hI : Kept q s) : Kept q (sqIssue u op s) := by
  unfold sqIssue; repeat' (first | (with_reducible first | apply inv_modUnit | apply inv_sqAdvance) | ((try lift_lets); intro x; first | (refine (?_ : SqOk x → _) (inv_sq (q := q) ?_); intro _; clear_value x)) | (simp only [inv_mk]; refine ⟨⟨?_, ?_, ?_, ?_, ?_, ?_, ?_, ?_, ?_, ?_⟩, ?_⟩) | (with_reducible first | apply inv_wd | apply inv_units | apply inv_otp | apply inv_ks | apply inv_pk | apply inv_ms | apply inv_fl | apply inv_mg | apply inv_mb | apply inv_q) | split | assumption)
theorem inv_sqStartOp (u : Nat) (region : Nat) (op : UnitOp) {s : State} (hI : Kept q s) : Kept q (sqStartOp u region op s) := by
  unfold sqStartOp; repeat' (first | (with_reducible first | assumption | apply inv_sqError | apply inv_sqIssue | apply inv_ite) | (simp only [inv_mk]; refine ⟨⟨?_, ?_, ?_, ?_, ?_, ?_, ?_, ?_, ?_, ?_⟩, ?_⟩) | (with_reducible first | apply inv_wd | apply inv_units | apply inv_otp | apply inv_ks | apply inv_pk | apply inv_ms | apply inv_fl | apply inv_mg | apply inv_mb | apply inv_q) | exact inv_sq (by assumption))
theorem inv_sqKszero (l bad : List Nat) {s : State} (hI : Kept q s) : Kept q (sqKszero l bad s) := by
  unfold sqKszero; repeat' (first | (with_reducible first | apply inv_irq | apply inv_pkCutAll | apply inv_setAlarm | apply inv_zeroSlot | apply inv_foldl | apply inv_ite) | (intro s x h; have : Kept q s := h) | ((try lift_lets); intro x; first | (refine (?_ : KsOk x → _) (inv_ks (q := q) ?_); intro _; clear_value x)) | (simp only [inv_mk]; refine ⟨⟨?_, ?_, ?_, ?_, ?_, ?_, ?_, ?_, ?_, ?_⟩, ?_⟩) | (with_reducible first | apply inv_wd | apply inv_units | apply inv_sq | apply inv_otp | apply inv_pk | apply inv_ms | apply inv_fl | apply inv_mg | apply inv_mb | apply inv_q) | assumption)
theorem inv_stepEffect (w : Step64) (x : StepIn) {s : State} (hI : Kept q s) : Kept q (stepEffect w x s) := by
  unfold stepEffect; repeat' (first | (with_reducible first | apply inv_irq | apply inv_kpZero | apply inv_kpush | apply inv_sqAdvance | apply inv_sqClock | apply inv_sqDigest | apply inv_sqError | apply inv_sqKszero | apply inv_sqReset | apply inv_sqStartOp | apply inv_sqStop) | ((try lift_lets); intro x; first | (refine (?_ : Kept q x → _) ?_ ; intro _; (try clear_value x); rotate_left; simp only [x]) | (refine (?_ : SqOk x → _) (inv_sq (q := q) ?_); intro _; clear_value x) | ((first | (have y : Nat := x) | (have y : Bool := x) | (have y : Bytes := x) | (have y : Option Nat := x) | (have y : List Nat := x)); clear y; clear_value x)) | (simp only [inv_mk]; refine ⟨⟨?_, ?_, ?_, ?_, ?_, ?_, ?_, ?_, ?_, ?_⟩, ?_⟩) | (with_reducible first | apply inv_wd | apply inv_units | apply inv_otp | apply inv_ks | apply inv_pk | apply inv_ms | apply inv_fl | apply inv_mg | apply inv_mb | apply inv_q) | split | assumption | (have := inv_sq (by assumption); simpa [SqOk] using this))
theorem inv_sqExecStep (x : StepIn) {s : State} (hI : Kept q s) : Kept q (sqExecStep x s) := by
  unfold sqExecStep; repeat' (first | with_reducible apply inv_stepEffect | ((try lift_lets); intro x; first | (refine (?_ : SqOk x → _) (inv_sq (q := q) ?_); intro _; clear_value x)) | (simp only [inv_mk]; refine ⟨⟨?_, ?_, ?_, ?_, ?_, ?_, ?_, ?_, ?_, ?_⟩, ?_⟩) | (with_reducible first | apply inv_wd | apply inv_units | apply inv_otp | apply inv_ks | apply inv_pk | apply inv_ms | apply inv_fl | apply inv_mg | apply inv_mb | apply inv_q) | assumption)
theorem inv_sqRun (op : Nat) (x : StepIn) {s : State} (hI : Kept q s) : Kept q (sqRun op x s) := by
  unfold sqRun; repeat' (first | (with_reducible first | assumption | apply inv_sqExecStep | apply inv_ite))
theorem inv_sqKszeroRun {s : State} (hI : Kept q s) : Kept q (sqKszeroRun s) := by
  unfold sqKszeroRun; exact inv_ite (inv_sqExecStep _ hI) hI
theorem inv_sqIllegal {s : State} (hI : Kept q s) : Kept q (sqIllegal s) := by
  unfold sqIllegal; repeat' (first | (with_reducible first | assumption | apply inv_sqError | apply inv_ite) | (simp only [inv_mk]; refine ⟨⟨?_, ?_, ?_, ?_, ?_, ?_, ?_, ?_, ?_, ?_⟩, ?_⟩) | (with_reducible first | apply inv_wd | apply inv_units | apply inv_otp | apply inv_ks | apply inv_pk | apply inv_ms | apply inv_fl | apply inv_mg | apply inv_mb | apply inv_q) | exact inv_sq (by assumption))
theorem inv_sqTimeout {s : State} (hI : Kept q s) : Kept q (sqTimeout s) := by
  unfold sqTimeout; repeat' (first | (with_reducible first | assumption | apply inv_sqError) | split)
theorem inv_poisonClear (u region : Nat) {s : State} (hI : Kept q s) : Kept q (poisonClear u region s) := by
  unfold poisonClear; repeat' (first | (with_reducible first | assumption | apply inv_ite) | simp only [inv_upd])
theorem inv_sqResume {s : State} (hI : Kept q s) : Kept q (sqResume s) := by
  unfold sqResume; repeat' (first | (with_reducible first | apply inv_sqAdvance | apply inv_sqIssue | apply inv_sq) | ((try lift_lets); intro x; first | (refine (?_ : SqOk x → _) (inv_sq (q := q) ?_); intro _; clear_value x) | (fail_if_success (first | (have : State := x) | fail))) | (simp only [inv_mk]; refine ⟨⟨?_, ?_, ?_, ?_, ?_, ?_, ?_, ?_, ?_, ?_⟩, ?_⟩) | (with_reducible first | apply inv_wd | apply inv_units | apply inv_otp | apply inv_ks | apply inv_pk | apply inv_ms | apply inv_fl | apply inv_mg | apply inv_mb | apply inv_q) | split | assumption)
theorem inv_unitOpDone (u nonzero : Nat) (fault : Bool) {s : State} (hI : Kept q s) : Kept q (unitOpDone u nonzero fault s) := by
  unfold unitOpDone; repeat' (first | (with_reducible first | assumption | apply inv_modUnit | apply inv_poisonClear | apply inv_sqError | apply inv_sqResume | apply inv_sq) | ((try lift_lets); intro x; first | (refine (?_ : Kept q x → _) ?_ ; intro _; (try clear_value x); rotate_left; simp only [x]) | (refine (?_ : SqOk x → _) (inv_sq (q := q) ?_); intro _; clear_value x)) | (simp only [inv_mk]; refine ⟨⟨?_, ?_, ?_, ?_, ?_, ?_, ?_, ?_, ?_, ?_⟩, ?_⟩) | (with_reducible first | apply inv_wd | apply inv_units | apply inv_otp | apply inv_ks | apply inv_pk | apply inv_ms | apply inv_fl | apply inv_mg | apply inv_mb | apply inv_q) | split | assumption)
theorem inv_fwReady (t : List Step64) {s : State} (hI : Kept q s) : Kept q (fwReady t s) := by
  unfold fwReady; exact hI
theorem inv_runSteps (fall : Nat → State → State) (t : List Step64) {s : State} (hI : Kept q s) (hfall : ∀ x0 x1, Kept q x1 → Kept q (fall x0 x1)) : Kept q (runSteps fall t s) := by
  unfold runSteps; repeat' (first | (with_reducible first | apply inv_sqAdvance | apply inv_stepEffect | apply inv_foldl | apply hfall | apply inv_sq) | (intro s x h; have : Kept q s := h) | ((try lift_lets); intro x; first | (refine (?_ : SqOk x → _) (inv_sq (q := q) ?_); intro _; clear_value x) | ((first | (have y : Nat := x) | (have y : Bool := x) | (have y : Bytes := x) | (have y : Option Nat := x) | (have y : List Nat := x)); clear y; clear_value x)) | (simp only [inv_mk]; refine ⟨⟨?_, ?_, ?_, ?_, ?_, ?_, ?_, ?_, ?_, ?_⟩, ?_⟩) | (with_reducible first | apply inv_wd | apply inv_units | apply inv_otp | apply inv_ks | apply inv_pk | apply inv_ms | apply inv_fl | apply inv_mg | apply inv_mb | apply inv_q) | split | assumption)
theorem inv_fwRun (fall : Nat → State → State) (t : List Step64) {s : State} (hI : Kept q s) (hfall : ∀ x0 x1, Kept q x1 → Kept q (fall x0 x1)) : Kept q (fwRun fall t s) := by
  unfold fwRun; repeat' (first | (with_reducible first | assumption | apply inv_fwReady | apply inv_runSteps | apply inv_sqStart | apply inv_ite | apply inv_sq) | (simp only [inv_mk]; refine ⟨⟨?_, ?_, ?_, ?_, ?_, ?_, ?_, ?_, ?_, ?_⟩, ?_⟩) | (with_reducible first | apply inv_wd | apply inv_units | apply inv_otp | apply inv_ks | apply inv_pk | apply inv_ms | apply inv_fl | apply inv_mg | apply inv_mb | apply inv_q))
theorem inv_fwDo (t : List Step64) {s : State} (hI : Kept q s) : Kept q (fwDo t s) := by
  unfold fwDo; repeat' (first | (with_reducible first | assumption | apply inv_fwRun) | (intro c s h; have : Kept q s := h))
theorem inv_fwKpush (k u idx : Nat) {s : State} (hI : Kept q s) : Kept q (fwKpush k u idx s) := by
  unfold fwKpush; repeat' (first | (with_reducible first | assumption | apply inv_fwDo))
theorem inv_fwKpzero (u idx : Nat) {s : State} (hI : Kept q s) : Kept q (fwKpzero u idx s) := by
  unfold fwKpzero; repeat' (first | (with_reducible first | assumption | apply inv_fwDo | apply inv_kpZero | apply inv_ite))
theorem inv_fwKpzeroAll {s : State} (hI : Kept q s) : Kept q (fwKpzeroAll s) := by
  unfold fwKpzeroAll; repeat' (first | (with_reducible first | assumption | apply inv_fwKpzero | apply inv_foldl) | (intro s x h; have : Kept q s := h))
theorem inv_fwKszero (a n : Nat) {s : State} (hI : Kept q s) : Kept q (fwKszero a n s) := by
  unfold fwKszero; repeat' (first | (with_reducible first | assumption | apply inv_fwDo))
theorem inv_fwHold (u : Nat) {s : State} (hI : Kept q s) : Kept q (fwHold u s) := by
  unfold fwHold; repeat' (first | (with_reducible first | assumption | apply inv_fwDo))
theorem inv_fwAbort {s : State} (hI : Kept q s) : Kept q (fwAbort s) := by
  unfold fwAbort; repeat' (first | (with_reducible first | assumption | apply inv_sqStop | apply inv_ite) | (intro _; exact ⟨rfl, rfl⟩) | (simp only [inv_mk]; refine ⟨⟨?_, ?_, ?_, ?_, ?_, ?_, ?_, ?_, ?_, ?_⟩, ?_⟩) | (with_reducible first | apply inv_wd | apply inv_units | apply inv_otp | apply inv_ks | apply inv_pk | apply inv_ms | apply inv_fl | apply inv_mg | apply inv_mb | apply inv_q) | exact inv_sq (by assumption))
theorem inv_otAccept {s : State} (hI : Kept q s) : Kept q (otAccept s) := by
  unfold otAccept; exact hI
theorem inv_otEnd (e : Nat) {s : State} (hI : Kept q s) : Kept q (otEnd e s) := by
  unfold otEnd; repeat' (first | (with_reducible first | assumption | apply inv_irq | apply inv_modOtp | rfl) | split)
theorem inv_otBusy {s : State} (hI : Kept q s) : Kept q (otBusy s) := by
  unfold otBusy; exact hI
theorem inv_otBegin (cmd sel : Nat) (ts : List (Nat × Nat)) {s : State} (hI : Kept q s) : Kept q (otBegin cmd sel ts s) := by
  unfold otBegin; repeat' (first | (with_reducible first | assumption | apply inv_modOtp | apply inv_otEnd | apply inv_ite | rfl))
theorem inv_otRead {s : State} (hI : Kept q s) : Kept q (otRead s) := by
  unfold otRead; repeat' (first | (with_reducible first | assumption | apply inv_modOtp | apply inv_otAccept | apply inv_otBusy | apply inv_otEnd | apply inv_ite | rfl))
theorem inv_otProg {s : State} (hI : Kept q s) : Kept q (otProg s) := by
  unfold otProg; repeat' (first | (with_reducible first | assumption | apply inv_otAccept | apply inv_otBegin | apply inv_otBusy | apply inv_otEnd | apply inv_ite) | split)
theorem inv_otGen {s : State} (hI : Kept q s) : Kept q (otGen s) := by
  unfold otGen; repeat' (first | (with_reducible first | assumption | apply inv_drawBytes | apply inv_otAccept | apply inv_otBegin | apply inv_otBusy | apply inv_otEnd | apply inv_ite))
theorem inv_otIncr (c t : Nat) {s : State} (hI : Kept q s) : Kept q (otIncr c t s) := by
  unfold otIncr; repeat' (first | (with_reducible first | assumption | apply inv_otAccept | apply inv_otBegin | apply inv_otBusy | apply inv_otEnd | apply inv_ite))
theorem inv_otRevoke (k : Nat) {s : State} (hI : Kept q s) : Kept q (otRevoke k s) := by
  unfold otRevoke; repeat' (first | (with_reducible first | assumption | apply inv_otAccept | apply inv_otBegin | apply inv_otBusy | apply inv_otEnd | apply inv_ite))
theorem inv_otLc (sel : Nat) {s : State} (hI : Kept q s) : Kept q (otLc sel s) := by
  unfold otLc; repeat' (first | (with_reducible first | assumption | apply inv_modOtp | apply inv_otAccept | apply inv_otBegin | apply inv_otBusy | apply inv_otEnd | apply inv_ite | rfl))
theorem inv_otRepair {s : State} (hI : Kept q s) : Kept q (otRepair s) := by
  unfold otRepair; repeat' (first | (with_reducible first | assumption | apply inv_modOtp | apply inv_otAccept | apply inv_otBegin | apply inv_otBusy | apply inv_ite | rfl))
theorem burnRow_pulse (r n st : Nat) (o : Otp) : (burnRow r n st o).pulse = o.pulse := by
  unfold burnRow
  dsimp only
  try split
  all_goals rfl
theorem otShow_pulse (j : OtpJob) (v n : Nat) (o : Otp) : (otShow j v n o).pulse = o.pulse := by
  unfold otShow
  (repeat' split) <;> rfl
theorem applyPulses_pulse (rp : Bool) (ts : List (Nat × Nat)) (ps : List PulseOut) (o : Otp) (n : Nat) :
    (applyPulses rp ts ps o n).1.pulse = o.pulse := by
  induction ts generalizing ps o n with
  | nil => rfl
  | cons t ts ih =>
    unfold applyPulses
    dsimp only
    split
    · exact burnRow_pulse _ _ _ _
    · rw [ih]; exact burnRow_pulse _ _ _ _
theorem inv_otComplete (ps : List PulseOut) {s : State} (h : Kept q s) : Kept q (otComplete ps s) := by
  unfold otComplete
  split
  · exact h
  · dsimp only
    refine inv_otEnd _ (inv_set_otp h ?_)
    have := inv_otp h
    simpa [OtOk, otShow_pulse, applyPulses_pulse] using this

theorem cutPulses_pulse (d k : Nat) (ts : List (Nat × Nat)) (o : Otp) : (cutPulses d k ts o).pulse = o.pulse := by
  induction k generalizing ts o with
  | zero => cases ts with
    | nil => rfl
    | cons t ts => exact burnRow_pulse _ _ _ _
  | succ k ih => cases ts with
    | nil => rfl
    | cons t ts => unfold cutPulses; rw [ih]; exact burnRow_pulse _ _ _ _
theorem inv_otCut {s : State} (h : Kept q s) : Kept q (otCut s) := by
  unfold otCut
  split
  · exact h
  · dsimp only
    have := inv_otp h
    refine inv_mk.2 ⟨⟨inv_wd h, inv_units h, inv_sq h, ?_, inv_ks h, inv_pk h, inv_ms h, inv_fl h, inv_mg h, inv_mb h⟩, inv_q h⟩
    simpa [OtOk, otShow_pulse, cutPulses_pulse] using this

theorem inv_otWindowExit {s : State} (hI : Kept q s) : Kept q (otWindowExit s) := by
  unfold otWindowExit; repeat' (first | (with_reducible first | assumption | apply inv_otCut | apply inv_otEnd | apply inv_ite) | simp only [inv_upd])
theorem inv_dgGuard (f : State → State) {s : State} (hI : Kept q s) (hf : ∀ x0, Kept q x0 → Kept q (f x0)) : Kept q (dgGuard f s) := by
  unfold dgGuard; repeat' (first | (with_reducible first | assumption | apply hf | apply inv_ite) | simp only [inv_upd])
theorem inv_dgStart {s : State} (hI : Kept q s) : Kept q (dgStart s) := by
  unfold dgStart; repeat' (first | (with_reducible first | assumption | apply inv_dgEnd | apply inv_dgGuard | apply inv_ite) | (intro s h; have : Kept q s := h) | simp only [inv_upd])
theorem inv_dgData (w : Word) {s : State} (hI : Kept q s) : Kept q (dgData w s) := by
  unfold dgData; repeat' (first | (with_reducible first | assumption | apply inv_dgEnd | apply inv_dgGuard | apply inv_ite) | (intro s h; have : Kept q s := h) | simp only [inv_upd])
theorem inv_dgAbsorbed {s : State} (hI : Kept q s) : Kept q (dgAbsorbed s) := by
  unfold dgAbsorbed; repeat' (first | (with_reducible first | assumption | apply inv_irq) | simp only [inv_upd] | split)
theorem inv_dgDeliver {s : State} (hI : Kept q s) : Kept q (dgDeliver s) := by
  unfold dgDeliver; repeat' (first | (with_reducible first | assumption | apply inv_commitSlot | apply inv_dgEnd | apply inv_irq | apply inv_setSlot | apply inv_ite) | simp only [inv_upd])
theorem inv_dgFinish {s : State} (hI : Kept q s) : Kept q (dgFinish s) := by
  unfold dgFinish; repeat' (first | (with_reducible first | assumption | apply inv_dgDeliver | apply inv_dgEnd | apply inv_dgGuard) | (intro s h; have : Kept q s := h) | simp only [inv_upd] | split)
theorem inv_dgOuter {s : State} (hI : Kept q s) : Kept q (dgOuter s) := by
  unfold dgOuter; repeat' (first | (with_reducible first | assumption | apply inv_dgDeliver | apply inv_ite))
theorem inv_dgClear {s : State} (hI : Kept q s) : Kept q (dgClear s) := by
  unfold dgClear; repeat' (first | (with_reducible first | assumption | apply inv_dgGuard | apply inv_setSlot | apply inv_ite) | (intro s h; have : Kept q s := h) | simp only [inv_upd])
theorem inv_dgRootKdf {s : State} (hI : Kept q s) : Kept q (dgRootKdf s) := by
  unfold dgRootKdf; repeat' (first | (with_reducible first | assumption | apply inv_commitSlot | apply inv_dgEnd | apply inv_dgGuard | apply inv_irq | apply inv_ite) | (intro s h; have : Kept q s := h) | simp only [inv_upd])
theorem inv_derive (p : Nat) (label : String) (ctx : Bytes) (n i use : Nat) (lock : Bool) {s : State} (hI : Kept q s) : Kept q (derive p label ctx n i use lock s) := by
  unfold derive; repeat' (first | (with_reducible first | assumption | apply inv_commitSlot | apply inv_ite))
theorem inv_derivePrism {s : State} (hI : Kept q s) : Kept q (derivePrism s) := by
  unfold derivePrism; repeat' (first | (with_reducible first | assumption | apply inv_derive | apply inv_ite))
theorem inv_rederive (i : Nat) {s : State} (hI : Kept q s) : Kept q (rederive i s) := by
  unfold rederive; repeat' (first | (with_reducible first | assumption | apply inv_commitSlot | apply inv_derive) | split)
theorem inv_ksBusy {s : State} (hI : Kept q s) : Kept q (ksBusy s) := by
  unfold ksBusy; exact hI
theorem inv_ksJob (cmd slot e : Nat) {s : State} (hI : Kept q s) : Kept q (ksJob cmd slot e s) := by
  unfold ksJob; exact hI
theorem inv_ksGen (i : Nat) {s : State} (hI : Kept q s) : Kept q (ksGen i s) := by
  unfold ksGen; repeat' (first | (with_reducible first | assumption | apply inv_commitSlot | apply inv_drawBytes | apply inv_ksBusy | apply inv_ksJob | apply inv_ite))
theorem inv_ksUnwrap (i kek : Nat) {s : State} (hI : Kept q s) : Kept q (ksUnwrap i kek s) := by
  unfold ksUnwrap; repeat' (first | (with_reducible first | assumption | apply inv_commitSlot | apply inv_ksBusy | apply inv_ksJob | apply inv_ite))
theorem inv_ksZero (i : Nat) (bad : Bool) {s : State} (hI : Kept q s) : Kept q (ksZero i bad s) := by
  unfold ksZero; repeat' (first | (with_reducible first | assumption | apply inv_ksBusy | apply inv_ksJob | apply inv_setAlarm | apply inv_zeroSlot | apply inv_ite))
theorem inv_ksZeroAll (bad : List Nat) {s : State} (hI : Kept q s) : Kept q (ksZeroAll bad s) := by
  unfold ksZeroAll; repeat' (first | (with_reducible first | assumption | apply inv_ksBusy | apply inv_ksJob | apply inv_pkCutAll | apply inv_setAlarm | apply inv_zeroSlot | apply inv_foldl | apply inv_ite) | (intro s x h; have : Kept q s := h))
theorem inv_ksSetUse (i : Nat) {s : State} (hI : Kept q s) : Kept q (ksSetUse i s) := by
  unfold ksSetUse; repeat' (first | (with_reducible first | assumption | apply inv_ksBusy | apply inv_ksJob | apply inv_setSlot | apply inv_ite))
theorem inv_ksLock (i : Nat) {s : State} (hI : Kept q s) : Kept q (ksLock i s) := by
  unfold ksLock; repeat' (first | (with_reducible first | assumption | apply inv_ksBusy | apply inv_ksJob | apply inv_setSlot | apply inv_ite))
theorem inv_ksLoad (i : Nat) {s : State} (hI : Kept q s) : Kept q (ksLoad i s) := by
  unfold ksLoad; repeat' (first | (with_reducible first | assumption | apply inv_commitSlot | apply inv_ksBusy | apply inv_ksJob | apply inv_ite))
theorem inv_ksComplete {s : State} (hI : Kept q s) : Kept q (ksComplete s) := by
  unfold ksComplete; repeat' (first | (with_reducible first | assumption | apply inv_irq) | (simp only [inv_mk]; refine ⟨⟨?_, ?_, ?_, ?_, ?_, ?_, ?_, ?_, ?_, ?_⟩, ?_⟩) | (with_reducible first | apply inv_wd | apply inv_units | apply inv_sq | apply inv_otp | apply inv_pk | apply inv_ms | apply inv_fl | apply inv_mg | apply inv_mb | apply inv_q) | exact inv_ks (by assumption) | split)
theorem inv_upset (i b : Nat) {s : State} (hI : Kept q s) : Kept q (upset i b s) := by
  unfold upset; repeat' (first | (with_reducible first | assumption | apply inv_setSlot))
theorem inv_kcvReact (i : Nat) {s : State} (hI : Kept q s) : Kept q (kcvReact i s) := by
  unfold kcvReact; repeat' (first | (with_reducible first | assumption | apply inv_logEvent | apply inv_rederive | apply inv_sealCut | apply inv_zeroSlot | apply inv_ite))
theorem inv_kcvPass {s : State} (hI : Kept q s) : Kept q (kcvPass s) := by
  unfold kcvPass; repeat' (first | (with_reducible first | assumption | apply inv_irq | apply inv_kcvReact | apply inv_foldl) | (intro s x h; have : Kept q s := h) | (simp only [inv_mk]; refine ⟨⟨?_, ?_, ?_, ?_, ?_, ?_, ?_, ?_, ?_, ?_⟩, ?_⟩) | (with_reducible first | apply inv_wd | apply inv_units | apply inv_sq | apply inv_otp | apply inv_pk | apply inv_ms | apply inv_fl | apply inv_mg | apply inv_mb | apply inv_q) | exact inv_ks (by assumption))
theorem inv_drbgFail {s : State} (hI : Kept q s) : Kept q (drbgFail s) := by
  unfold drbgFail; repeat' (first | (with_reducible first | apply inv_irq | apply inv_setSlot | apply inv_ks) | ((try lift_lets); intro x; first | (refine (?_ : KsOk x → _) (inv_ks (q := q) ?_); intro _; clear_value x)) | (simp only [inv_mk]; refine ⟨⟨?_, ?_, ?_, ?_, ?_, ?_, ?_, ?_, ?_, ?_⟩, ?_⟩) | (with_reducible first | apply inv_wd | apply inv_units | apply inv_sq | apply inv_otp | apply inv_pk | apply inv_ms | apply inv_fl | apply inv_mg | apply inv_mb | apply inv_q) | split | assumption)
theorem inv_pkBegin (r : PkRun) {s : State} (hI : Kept q s) : Kept q (pkBegin r s) := by
  unfold pkBegin; repeat' (first | (with_reducible first | assumption | apply inv_trace) | (simp only [inv_mk]; refine ⟨⟨?_, ?_, ?_, ?_, ?_, ?_, ?_, ?_, ?_, ?_⟩, ?_⟩) | (with_reducible first | apply inv_wd | apply inv_units | apply inv_sq | apply inv_otp | apply inv_ks | apply inv_ms | apply inv_fl | apply inv_mg | apply inv_mb | apply inv_q) | exact inv_pk (by assumption))
theorem inv_pkSnapshot (l : List (Nat × Nat)) {s : State} (hI : Kept q s) : Kept q (pkSnapshot l s) := by
  unfold pkSnapshot; repeat' (first | (with_reducible first | apply inv_sramScrub | apply inv_foldl) | (intro s x h; have : Kept q s := h) | ((try lift_lets); intro x; first | (refine (?_ : Kept q x → _) ?_ ; intro _; (try clear_value x); rotate_left; simp only [x]) | (refine (?_ : PkOk x → _) (inv_pk (q := q) ?_); intro _; clear_value x)) | (simp only [inv_mk]; refine ⟨⟨?_, ?_, ?_, ?_, ?_, ?_, ?_, ?_, ?_, ?_⟩, ?_⟩) | (with_reducible first | apply inv_wd | apply inv_units | apply inv_sq | apply inv_otp | apply inv_ks | apply inv_ms | apply inv_fl | apply inv_mg | apply inv_mb | apply inv_q) | assumption)
theorem inv_pkStart (streamErr : Option Nat) {s : State} (hI : Kept q s) : Kept q (pkStart streamErr s) := by
  unfold pkStart; repeat' (first | (with_reducible first | apply inv_pkBegin | apply inv_pkSnapshot | apply inv_pk) | (simp only [inv_mk]; refine ⟨⟨?_, ?_, ?_, ?_, ?_, ?_, ?_, ?_, ?_, ?_⟩, ?_⟩) | (with_reducible first | apply inv_wd | apply inv_units | apply inv_sq | apply inv_otp | apply inv_ks | apply inv_ms | apply inv_fl | apply inv_mg | apply inv_mb | apply inv_q) | exact inv_pk (by assumption) | split | assumption)
theorem inv_keep (a : Nat) (b : Bytes) {s : State} (h : Kept q s) : Kept q { s with pk := { s.pk with keep := cellPuts 0#8 a b s.pk.keep } } := by
  refine inv_set_pk h ?_
  obtain ⟨h1, h2, h3⟩ := inv_pk h
  exact ⟨cellPuts_wf _ _ h1, h2, h3⟩
theorem inv_pkCommit (r : PkRun) {s : State} (h : Kept q s) : Kept q (pkCommit r s) := by
  unfold pkCommit
  split
  · exact h
  · rename_i sh _
    have put : ∀ (slot i : Nat) (s : State), Kept q s → Kept q (if i < sh.res.length then { s with pk := { s.pk with keep := cellPuts 0#8 (8 * s.pk.len * slot) (pkOut r i (nth 0 sh.res i)) s.pk.keep } } else s) := by
      intro slot i s h
      split
      · exact inv_keep _ _ h
      · exact h
    dsimp only
    split
    · exact inv_commitSlot _ _ _ _ _ (put _ 1 _ (put _ 0 _ h))
    · exact put _ 1 _ (put _ 0 _ h)

theorem inv_pkZeroDone {s : State} (hI : Kept q s) : Kept q (pkZeroDone s) := by
  refine inv_set_pk hI ?_
  obtain ⟨h1, h2, h3⟩ := inv_pk hI
  exact ⟨rfl, rfl, h3⟩
theorem inv_pkWipe (bad : Bool) {s : State} (hI : Kept q s) : Kept q (pkWipe bad s) := by
  have key : ∀ {x : State}, Kept q x → Kept q { x with pk := { x.pk with wiping := false } } := fun h => inv_set_pk h ⟨(inv_pk h).1, (inv_pk h).2⟩
  unfold pkWipe
  exact key (inv_ite (inv_setAlarm _ (inv_set_pk hI ⟨(inv_pk hI).1, rfl, (inv_pk hI).2.2⟩)) (inv_set_pk hI ⟨(inv_pk hI).1, rfl, (inv_pk hI).2.2⟩))
theorem inv_pkFinish (x : PkEnd) {s : State} (hI : Kept q s) : Kept q (pkFinish x s) := by
  unfold pkFinish
  split
  · exact hI
  · rename_i r _
    lift_lets; intro a
    have ha : Kept q a := inv_ite (inv_pkZeroDone hI) hI
    clear_value a
    intro e cut b
    have hb : Kept q b := inv_ite (inv_pkCommit _ ha) ha
    clear_value b
    intro c
    have hc : Kept q c := inv_pkWipe _ hb
    clear_value c
    exact inv_trace _ _ _ _ (inv_irq _ (inv_set_pk hc ⟨(inv_pk hc).1, (inv_pk hc).2⟩))
theorem inv_pkMemWrite (off v : Nat) {s : State} (hI : Kept q s) : Kept q (pkMemWrite off v s) := by
  have h := inv_pk hI
  unfold pkMemWrite
  refine inv_ite (inv_wdStall _ _ hI) (inv_ite (inv_wdBusError hI) (inv_ite (inv_wdOk (inv_set_pk hI ⟨cellPuts_wf _ _ h.1, h.2⟩)) (inv_wdOk (inv_set_pk hI ⟨h.1, cellPuts_wf _ _ h.2.1, h.2.2⟩))))
theorem inv_pkStallDone {s : State} (hI : Kept q s) : Kept q (pkStallDone s) := by
  unfold pkStallDone; repeat' (first | (with_reducible first | assumption | apply inv_pkMemWrite | apply inv_wd) | (simp only [inv_mk]; refine ⟨⟨?_, ?_, ?_, ?_, ?_, ?_, ?_, ?_, ?_, ?_⟩, ?_⟩) | (with_reducible first | apply inv_units | apply inv_sq | apply inv_otp | apply inv_ks | apply inv_pk | apply inv_ms | apply inv_fl | apply inv_mg | apply inv_mb | apply inv_q) | exact inv_wd (by assumption) | split)
theorem inv_msBusy {s : State} (hI : Kept q s) : Kept q (msBusy s) := by
  unfold msBusy; exact hI
theorem inv_msJob (cmd e : Nat) {s : State} (hI : Kept q s) : Kept q (msJob cmd e s) := by
  unfold msJob; exact hI
theorem inv_msCmdExtend (n : Nat) {s : State} (hI : Kept q s) : Kept q (msCmdExtend n s) := by
  unfold msCmdExtend; repeat' (first | (with_reducible first | assumption | apply inv_logEvent | apply inv_msBusy | apply inv_msExtend | apply inv_msJob | apply inv_ite))
theorem inv_msCmdLock (n : Nat) {s : State} (hI : Kept q s) : Kept q (msCmdLock n s) := by
  unfold msCmdLock; repeat' (first | (with_reducible first | assumption | apply inv_msBusy | apply inv_msJob | apply inv_msLock | apply inv_ite))
theorem inv_msTzeroNow {s : State} (hI : Kept q s) : Kept q (msTzeroNow s) := by
  refine inv_mk.2 ⟨⟨inv_wd hI, inv_units hI, inv_sq hI, inv_otp hI, inv_ks hI, inv_pk hI, ?_, inv_fl hI, inv_mg hI, inv_mb hI⟩, inv_q hI⟩
  have := inv_ms hI
  simp [this]
theorem inv_msCmdTzero {s : State} (hI : Kept q s) : Kept q (msCmdTzero s) := by
  unfold msCmdTzero; repeat' (first | (with_reducible first | assumption | apply inv_logEvent | apply inv_msBusy | apply inv_msJob | apply inv_msTzeroNow | apply inv_ite))
theorem inv_msComplete {s : State} (hI : Kept q s) : Kept q (msComplete s) := by
  unfold msComplete; repeat' (first | (with_reducible first | assumption | apply inv_ms) | (simp only [inv_mk]; refine ⟨⟨?_, ?_, ?_, ?_, ?_, ?_, ?_, ?_, ?_, ?_⟩, ?_⟩) | (with_reducible first | apply inv_wd | apply inv_units | apply inv_sq | apply inv_otp | apply inv_ks | apply inv_pk | apply inv_fl | apply inv_mg | apply inv_mb | apply inv_q) | split)
end Sys2Proof.Machine
end

