-- ==== Sys2Proof/Laws/Inv2.lean ====
section
/-! SUPPORT. What `Kept` says of the operations of Frames, PkQueue, Package and Data. -/

open Sys2Proof.Machine
namespace Sys2Proof.Machine
set_option linter.all false
variable {q : List Instr}
theorem inv_mgTxgo (n : Nat) {s : State} (hI : Kept q s) : Kept q (mgTxgo n s) := by
  unfold mgTxgo; exact hI
theorem inv_mgTransmit (ps : List Bytes) {s : State} (hI : Kept q s) : Kept q (mgTransmit ps s) := by
  unfold mgTransmit; repeat' (first | (with_reducible first | assumption | apply inv_mgTxgo | apply inv_foldl) | (intro s x h; have : Kept q s := h) | (simp only [inv_mk]; refine ⟨⟨?_, ?_, ?_, ?_, ?_, ?_, ?_, ?_, ?_, ?_⟩, ?_⟩) | (with_reducible first | apply inv_wd | apply inv_units | apply inv_sq | apply inv_otp | apply inv_ks | apply inv_pk | apply inv_ms | apply inv_fl | apply inv_mb | apply inv_q) | exact inv_mg (by assumption))
theorem inv_mgOut (m : Bytes) {s : State} (hI : Kept q s) : Kept q (mgOut m s) := by
  unfold mgOut; repeat' (first | (with_reducible first | assumption | apply inv_emit | apply inv_mgTransmit) | (simp only [inv_mk]; refine ⟨⟨?_, ?_, ?_, ?_, ?_, ?_, ?_, ?_, ?_, ?_⟩, ?_⟩) | (with_reducible first | apply inv_wd | apply inv_units | apply inv_sq | apply inv_otp | apply inv_ks | apply inv_pk | apply inv_ms | apply inv_fl | apply inv_mb | apply inv_q) | exact inv_mg (by assumption))
theorem inv_mgSend (m : Bytes) {s : State} (hI : Kept q s) : Kept q (mgSend m s) := by
  unfold mgSend; repeat' (first | (with_reducible first | apply inv_emit | apply inv_mgOut | apply inv_ite) | ((try lift_lets); intro x; first | (refine (?_ : MgOk x → _) (inv_mg (q := q) ?_); intro _; clear_value x)) | (simp only [inv_mk]; refine ⟨⟨?_, ?_, ?_, ?_, ?_, ?_, ?_, ?_, ?_, ?_⟩, ?_⟩) | (with_reducible first | apply inv_wd | apply inv_units | apply inv_sq | apply inv_otp | apply inv_ks | apply inv_pk | apply inv_ms | apply inv_fl | apply inv_mb | apply inv_q) | assumption)
theorem inv_buildRsp (c : HostCall) (op flags status : Nat) (payload : Bytes) {s : State} (hI : Kept q s) : Kept q (buildRsp c op flags status payload s) := by
  unfold buildRsp; repeat' (first | (with_reducible first | assumption | apply inv_mgSend | apply inv_modChan) | ((try lift_lets); intro x; first | (fail_if_success (first | (have : State := x) | fail))) | simp only [inv_upd] | split)
theorem inv_answerBytes (c : HostCall) (op status : Nat) (p : Bytes) {s : State} (hI : Kept q s) : Kept q (answerBytes c op status p s) := by
  unfold answerBytes; repeat' (first | (with_reducible first | assumption | apply inv_buildRsp | apply inv_modChan | apply inv_ite | rfl) | ((try lift_lets); intro x; first | (fail_if_success (first | (have : State := x) | fail))) | split)
theorem inv_stageEmpty {s : State} (hI : Kept q s) : Kept q (stageEmpty s) := by
  unfold stageEmpty; repeat' (first | with_reducible assumption | (simp only [inv_mk]; refine ⟨⟨?_, ?_, ?_, ?_, ?_, ?_, ?_, ?_, ?_, ?_⟩, ?_⟩) | (with_reducible first | apply inv_wd | apply inv_units | apply inv_sq | apply inv_otp | apply inv_ks | apply inv_pk | apply inv_ms | apply inv_fl | apply inv_mg | apply inv_q) | exact ⟨rfl, (inv_mb (by assumption)).2⟩)
theorem inv_mgStageEmpty {s : State} (hI : Kept q s) : Kept q (mgStageEmpty s) := by
  unfold mgStageEmpty; repeat' (first | with_reducible assumption | (simp only [inv_mk]; refine ⟨⟨?_, ?_, ?_, ?_, ?_, ?_, ?_, ?_, ?_, ?_⟩, ?_⟩) | (with_reducible first | apply inv_wd | apply inv_units | apply inv_sq | apply inv_otp | apply inv_ks | apply inv_pk | apply inv_ms | apply inv_fl | apply inv_mb | apply inv_q) | exact (show cellsWf 0#8 [] = true from rfl))
theorem inv_stageClearFor (c : HostCall) {s : State} (hI : Kept q s) : Kept q (stageClearFor c s) := by
  unfold stageClearFor; repeat' (first | (with_reducible first | assumption | apply inv_mgStageEmpty | apply inv_stageEmpty | apply inv_ite))
theorem inv_answer (c : HostCall) (op word status detail : Nat) (body : Bytes) {s : State} (hI : Kept q s) : Kept q (answer c op word status detail body s) := by
  unfold answer; repeat' (first | (with_reducible first | assumption | apply inv_answerBytes | apply inv_stageClearFor | apply inv_ite))
theorem inv_cmdOk {s : State} (body : Bytes) (hI : Kept q s) : Kept q (cmdOk s body).s := by
  unfold cmdOk; exact hI
theorem inv_cmdFail {s : State} (st detail : Nat) (hI : Kept q s) : Kept q (cmdFail s st detail).s := by
  unfold cmdFail; exact hI
theorem inv_cmdWait {s : State} (hI : Kept q s) : Kept q (cmdWait s).s := by
  unfold cmdWait; exact hI
theorem inv_extendMode {s : State} (hI : Kept q s) : Kept q (extendMode s) := by
  unfold extendMode; repeat' (first | (with_reducible first | assumption | apply inv_msRecord))
theorem inv_runCmd (op : Nat) (f : HostCall → State → CmdRes) (c : HostCall) {s : State} (hI : Kept q s) (hf : ∀ x0 x1, Kept q x1 → Kept q (f x0 x1).s) : Kept q (runCmd op f c s) := by
  unfold runCmd; repeat' (first | (with_reducible first | assumption | apply inv_answer | apply inv_buildRsp | apply hf) | ((try lift_lets); intro x; first | (fail_if_success (first | (have : State := x) | fail))) | split)
theorem inv_sized (n : Nat) (f : HostCall → State → CmdRes) (c : HostCall) {s : State} (hI : Kept q s) (hf : ∀ x0 x1, Kept q x1 → Kept q (f x0 x1).s) : Kept q (sized n f c s).s := by
  unfold sized; repeat' (first | (with_reducible first | assumption | apply inv_cmdFail | apply hf | apply inv_iteS))
theorem inv_staged (n off : Nat) (f : Bytes → HostCall → State → CmdRes) (c : HostCall) {s : State} (hI : Kept q s) (hf : ∀ x0 x1 x2, Kept q x2 → Kept q (f x0 x1 x2).s) : Kept q (staged n off f c s).s := by
  unfold staged; repeat' (first | (with_reducible first | assumption | apply inv_cmdFail | apply hf | apply inv_iteS))
theorem inv_pqStartJob (j : PkJobD) {s : State} (hI : Kept q s) : Kept q (pqStartJob j s) := by
  unfold pqStartJob; repeat' (first | with_reducible apply inv_pkBegin | ((try lift_lets); intro x; first | (refine (?_ : PkOk x → _) (inv_pk (q := q) ?_); intro _; clear_value x)) | (simp only [inv_mk]; refine ⟨⟨?_, ?_, ?_, ?_, ?_, ?_, ?_, ?_, ?_, ?_⟩, ?_⟩) | (with_reducible first | apply inv_wd | apply inv_units | apply inv_sq | apply inv_otp | apply inv_ks | apply inv_ms | apply inv_fl | apply inv_mg | apply inv_mb | apply inv_q) | assumption)
theorem inv_batchStarts (p : Purp) {s : State} (hI : Kept q s) : Kept q (batchStarts p s) := by
  unfold batchStarts; repeat' (first | with_reducible assumption | simp only [inv_upd] | split)
theorem inv_pqDispatch {s : State} (hI : Kept q s) : Kept q (pqDispatch s) := by
  unfold pqDispatch; repeat' (first | (with_reducible first | assumption | apply inv_batchStarts | apply inv_pqStartJob) | simp only [inv_upd] | split)
theorem inv_pqAdd (cls : Nat) (p : Purp) (jobs : List PkJobD) {s : State} (hI : Kept q s) : Kept q (pqAdd cls p jobs s) := by
  unfold pqAdd; repeat' (first | (with_reducible first | assumption | apply inv_pqDispatch) | simp only [inv_upd])
theorem inv_modPx (d : Nat) (f : PortX → PortX) {s : State} (hI : Kept q s) : Kept q (modPx d f s) := by
  unfold modPx; exact hI
theorem inv_modAp (d a : Nat) (f : Aper → Aper) {s : State} (hI : Kept q s) : Kept q (modAp d a f s) := by
  unfold modAp; exact hI
theorem inv_modJob (id : Nat) (f : Job → Job) {s : State} (hI : Kept q s) : Kept q (modJob id f s) := by
  unfold modJob; exact hI
theorem inv_modAst (tag : Nat) (f : Ast → Ast) {s : State} (hI : Kept q s) : Kept q (modAst tag f s) := by
  unfold modAst; exact hI
theorem inv_modTileJ (t : Nat) (f : TileJ → TileJ) {s : State} (hI : Kept q s) : Kept q (modTileJ t f s) := by
  unfold modTileJ; exact hI
theorem inv_modTileP (t : Nat) (f : TileP → TileP) {s : State} (hI : Kept q s) : Kept q (modTileP t f s) := by
  unfold modTileP; exact hI
theorem inv_modMc (t : Nat) (f : MemCtl → MemCtl) {s : State} (hI : Kept q s) : Kept q (modMc t f s) := by
  unfold modMc; exact hI
theorem inv_modWpk (h : Nat) (f : Wpk → Wpk) {s : State} (hI : Kept q s) : Kept q (modWpk h f s) := by
  unfold modWpk; exact hI
theorem inv_bindsMove {s : State} (hI : Kept q s) : Kept q (bindsMove s) := by
  unfold bindsMove; exact hI
theorem inv_setU (u : Nat) (x : UState) {s : State} (hI : Kept q s) : Kept q (setU u x s) := by
  unfold setU; repeat' (first | (with_reducible first | assumption | apply inv_bindsMove | apply inv_modUnit | apply inv_ite))
theorem inv_perfAdd (set ix n : Nat) {s : State} (hI : Kept q s) : Kept q (perfAdd set ix n s) := by
  unfold perfAdd; repeat' (first | (with_reducible first | assumption | apply inv_ite) | simp only [inv_upd])
theorem inv_modRec (i : Nat) (f : TRec → TRec) {s : State} (hI : Kept q s) : Kept q (modRec i f s) := by
  unfold modRec; exact hI
theorem inv_fqAdd (j : FJob) {s : State} (hI : Kept q s) : Kept q (fqAdd j s) := by
  unfold fqAdd; exact hI
theorem inv_recQueue (i : Nat) {s : State} (hI : Kept q s) : Kept q (recQueue i s) := by
  unfold recQueue; repeat' (first | (with_reducible first | assumption | apply inv_fqAdd) | split)
theorem inv_setRecSt (d e v : Nat) {s : State} (hI : Kept q s) : Kept q (setRecSt d e v s) := by
  unfold setRecSt; exact hI
theorem inv_outRec (d a i : Nat) (data : Bytes) {s : State} (hI : Kept q s) : Kept q (outRec d a i data s).1 := by
  unfold outRec; repeat' (first | (with_reducible first | assumption | apply inv_emit | apply inv_modAp | apply inv_perfAdd | apply inv_setRecSt) | ((try lift_lets); intro x; first | (fail_if_success (first | (have : State := x) | fail))) | split)
theorem inv_ringWrite (a : Ast) (n : Nat) (rec : Bytes) {s : State} {t : State} (e : ringWrite a n rec s = some t) (hI : Kept q s) : Kept q t := by
  unfold ringWrite at e; dsimp only at e; (repeat' split at e) <;> cases e <;> repeat' (first | (with_reducible first | assumption | apply inv_emit | apply inv_modAst | apply inv_outRec))
theorem inv_jobVector (jid vec : Nat) {s : State} (hI : Kept q s) : Kept q (jobVector jid vec s) := by
  unfold jobVector; repeat' (first | (with_reducible first | assumption | apply inv_sendVec) | split)
theorem inv_ringFlushN (tag : Nat) (n : Nat) {s : State} (hI : Kept q s) : Kept q (ringFlushN tag n s) := by
  induction n generalizing s with
  | zero => exact hI
  | succ n ih => unfold ringFlushN; repeat' (first | (with_reducible first | assumption | apply ih | apply inv_jobVector | apply inv_modAst) | exact inv_ringWrite _ _ _ (by assumption) (by assumption) | split)
theorem inv_ringFlush (grid : Bool) (tag : Nat) {s : State} (hI : Kept q s) : Kept q (ringFlush grid tag s) := by
  unfold ringFlush; repeat' (first | (with_reducible first | assumption | apply inv_ringFlushN) | split)
theorem inv_postCompletion (jid : Nat) {s : State} (hI : Kept q s) : Kept q (postCompletion jid s) := by
  unfold postCompletion; repeat' (first | (with_reducible first | assumption | apply inv_jobVector | apply inv_modAst | apply inv_ringFlush) | split)
theorem inv_lkeEnd (n : Nat) {s : State} (hI : Kept q s) : Kept q (lkeEnd n s) := by
  unfold lkeEnd; repeat' (first | (with_reducible first | assumption | apply inv_fwKpzero | apply inv_foldl) | (intro s x h; have : Kept q s := h) | simp only [inv_upd])
theorem inv_lkeJobEnd (jid : Nat) {s : State} (hI : Kept q s) : Kept q (lkeJobEnd jid s) := by
  unfold lkeJobEnd; repeat' (first | (with_reducible first | assumption | apply inv_lkeEnd | apply inv_foldl) | (intro s x h; have : Kept q s := h) | simp only [inv_upd])
theorem inv_linkJobEnd (jid : Nat) {s : State} (hI : Kept q s) : Kept q (linkJobEnd jid s) := by
  unfold linkJobEnd; repeat' (first | (with_reducible first | assumption | apply inv_lkeJobEnd | apply inv_zeroSlots) | simp only [inv_upd])
theorem inv_jobEnd (st : JState) (status detail jid : Nat) {s : State} (hI : Kept q s) : Kept q (jobEnd st status detail jid s) := by
  unfold jobEnd; repeat' (first | (with_reducible first | assumption | apply inv_lkeJobEnd | apply inv_modJob | apply inv_perfAdd | apply inv_postCompletion | apply inv_trace) | simp only [inv_upd] | split)
theorem inv_jobsEnd (st : JState) (status detail : Nat) (l : List Nat) {s : State} (hI : Kept q s) : Kept q (jobsEnd st status detail l s) := by
  unfold jobsEnd; repeat' (first | (with_reducible first | assumption | apply inv_jobEnd | apply inv_foldl) | (intro s x h; have : Kept q s := h))
theorem inv_closeBatch (code : Nat) (p : Purp) {s : State} (hI : Kept q s) : Kept q (closeBatch code p s) := by
  unfold closeBatch; repeat' (first | (with_reducible first | assumption | apply inv_pqAdd | apply inv_trace) | simp only [inv_upd] | split)
theorem inv_closeDue (code : Nat) {s : State} (hI : Kept q s) : Kept q (closeDue code s) := by
  unfold closeDue; repeat' (first | (with_reducible first | assumption | apply inv_closeBatch | apply inv_ite) | simp only [inv_upd])
theorem inv_recAdd (jid : Nat) {s : State} (hI : Kept q s) : Kept q (recAdd jid s) := by
  unfold recAdd; repeat' (first | (with_reducible first | assumption | apply inv_closeBatch | apply inv_jobEnd | apply inv_modJob | apply inv_perfAdd) | simp only [inv_upd] | split)
theorem inv_recMake (jid : Nat) {s : State} (hI : Kept q s) : Kept q (recMake jid s) := by
  unfold recMake; repeat' (first | (with_reducible first | assumption | apply inv_closeBatch | apply inv_recAdd) | simp only [inv_upd] | split)
theorem inv_flushAnswer (num recs : Nat) {s : State} (hI : Kept q s) : Kept q (flushAnswer num recs s) := by
  unfold flushAnswer; repeat' (first | (with_reducible first | assumption | apply inv_answer | apply inv_foldl) | (intro s x h; have : Kept q s := h) | simp only [inv_upd] | split)
theorem inv_rcResume {s : State} (hI : Kept q s) : Kept q (rcResume s) := by
  unfold rcResume; repeat' (first | (with_reducible first | assumption | apply inv_closeBatch | apply inv_flushAnswer | apply inv_recMake | apply inv_foldl) | (intro s x h; have : Kept q s := h) | simp only [inv_upd] | split)
theorem inv_abandonBatches {s : State} (hI : Kept q s) : Kept q (abandonBatches s) := by
  unfold abandonBatches; repeat' (first | (with_reducible first | assumption | apply inv_logEvent) | simp only [inv_upd] | split)
theorem inv_apClose (d a : Nat) {s : State} (hI : Kept q s) : Kept q (apClose d a s) := by
  unfold apClose; repeat' (first | (with_reducible first | assumption | apply inv_fwKpzero | apply inv_jobsEnd | apply inv_modAp | apply inv_modPx))
theorem inv_apEnd (d a : Nat) {s : State} (hI : Kept q s) : Kept q (apEnd d a s) := by
  unfold apEnd; repeat' (first | (with_reducible first | assumption | apply inv_apClose | apply inv_modPx | apply inv_ite))
theorem inv_apEndDie (d : Nat) {s : State} (hI : Kept q s) : Kept q (apEndDie d s) := by
  unfold apEndDie; repeat' (first | (with_reducible first | assumption | apply inv_apEnd | apply inv_foldl | apply inv_ite) | (intro s x h; have : Kept q s := h))
theorem inv_apEndAll {s : State} (hI : Kept q s) : Kept q (apEndAll s) := by
  unfold apEndAll; repeat' (first | (with_reducible first | assumption | apply inv_apEndDie | apply inv_foldl) | (intro s x h; have : Kept q s := h))
theorem inv_apCloseAll {s : State} (hI : Kept q s) : Kept q (apCloseAll s) := by
  unfold apCloseAll; repeat' (first | (with_reducible first | assumption | apply inv_apClose | apply inv_foldl | apply inv_ite) | (intro s x h; have : Kept q s := h))
theorem inv_sessEnd {s : State} (hI : Kept q s) : Kept q (sessEnd s) := by
  unfold sessEnd; repeat' (first | (with_reducible first | assumption | apply inv_apEndAll | apply inv_zeroSlot) | simp only [inv_upd] | split)
theorem inv_invMark (tag : Nat) (all : Bool) (page count : Nat) {s : State} (hI : Kept q s) : Kept q (invMark tag all page count s) := by
  unfold invMark; repeat' (first | (with_reducible first | assumption | apply inv_modAst | apply inv_perfAdd | apply inv_trace) | simp only [inv_upd])
theorem inv_contentKeyEnd {s : State} (hI : Kept q s) : Kept q (contentKeyEnd s) := by
  unfold contentKeyEnd; repeat' (first | (with_reducible first | assumption | apply inv_fwKpzero | apply inv_zeroSlot))
theorem inv_linePut (t line : Nat) (v : Bytes) {s : State} (hI : Kept q s) : Kept q (linePut t line v s) := by
  unfold linePut; exact hI
theorem inv_extWrite (page : Nat) (b : Bytes) {s : State} (hI : Kept q s) : Kept q (extWrite page b s) := by
  unfold extWrite; repeat' (first | (with_reducible first | assumption | apply inv_linePut | apply inv_foldl) | (intro s x h; have : Kept q s := h))
theorem inv_loadEnd (st detail failpg : Nat) {s : State} (hI : Kept q s) : Kept q (loadEnd st detail failpg s) := by
  unfold loadEnd; repeat' (first | (with_reducible first | assumption | apply inv_answer) | simp only [inv_upd] | split)
theorem inv_wpkFail (h : Nat) {s : State} (hI : Kept q s) : Kept q (wpkFail h s) := by
  unfold wpkFail; repeat' (first | (with_reducible first | assumption | apply inv_contentKeyEnd | apply inv_jobsEnd | apply inv_loadEnd | apply inv_modWpk | apply inv_ite))
end Sys2Proof.Machine
end

