-- ==== Sys2Proof/Laws/Inv3.lean ====
section
/-! SUPPORT. What `Kept` says of the operations of Flow, Boot, Store and Settle. -/

open Sys2Proof.Machine
namespace Sys2Proof.Machine
set_option linter.all false
variable {q : List Instr}
theorem inv_wardenReset (r : RstSrc) (code : Nat) {s : State} (hI : Kept q s) : Kept q (wardenReset r code s) := by
  unfold wardenReset
  exact inv_mk.2 ⟨⟨⟨rfl, (by decide : 1 ≤ 4000), (by decide : 1000 ≤ 2000000)⟩, rfl, ⟨(by decide : 0 ≤ 4096), (by decide : 1 ≤ 0xF4240)⟩,
    ⟨(by decide : 2000 ≤ 4000), (by decide : 4000 ≤ 8000)⟩, ⟨rfl, by decide, by decide⟩, ⟨rfl, rfl, by decide, by decide⟩, rfl, inv_fl (inv_otCut hI), rfl, ⟨rfl, rfl, by decide⟩⟩, inv_q (inv_otCut hI)⟩
theorem inv_softReset (code : Nat) {s : State} (hI : Kept q s) : Kept q (softReset code s) := by
  unfold softReset; repeat' (first | (with_reducible first | assumption | apply inv_wardenReset))
theorem inv_stopTile (t : Nat) {s : State} (hI : Kept q s) : Kept q (stopTile t s) := by
  unfold stopTile; exact hI
theorem inv_stopTiles {s : State} (hI : Kept q s) : Kept q (stopTiles s) := by
  unfold stopTiles; exact hI
theorem inv_failWaiting (st detail : Nat) {s : State} (hI : Kept q s) : Kept q (failWaiting st detail s) := by
  unfold failWaiting; repeat' (first | (with_reducible first | assumption | apply inv_answer | apply inv_loadEnd | apply inv_foldl) | (intro s x h; have : Kept q s := h) | simp only [inv_upd] | split)
theorem inv_destroyTags {s : State} (hI : Kept q s) : Kept q (destroyTags s) := by
  unfold destroyTags; exact hI
theorem inv_linkEndAll {s : State} (hI : Kept q s) : Kept q (linkEndAll s) := by
  unfold linkEndAll; repeat' (first | (with_reducible first | assumption | apply inv_lkeEnd | apply inv_zeroSlots | apply inv_foldl) | (intro s x h; have : Kept q s := h) | simp only [inv_upd])
theorem inv_unitsOff (p : Nat → Bool) {s : State} (hI : Kept q s) : Kept q (unitsOff p s) := by
  unfold unitsOff; repeat' (first | (with_reducible first | assumption | apply inv_assertReset | apply inv_modUnit | apply inv_setU | apply inv_foldl | apply inv_ite) | (intro s x h; have : Kept q s := h))
theorem inv_tilesOff {s : State} (hI : Kept q s) : Kept q (tilesOff s) := by
  unfold tilesOff; repeat' (first | with_reducible apply inv_unitsOff | ((try lift_lets); intro x; first | (refine (?_ : Kept q x → _) ?_ ; intro _; (try clear_value x); rotate_left; simp only [x]) | (refine (?_ : WdOk x → _) (inv_wd (q := q) ?_); intro _; clear_value x)) | (simp only [inv_mk]; refine ⟨⟨?_, ?_, ?_, ?_, ?_, ?_, ?_, ?_, ?_, ?_⟩, ?_⟩) | (with_reducible first | apply inv_units | apply inv_sq | apply inv_otp | apply inv_ks | apply inv_pk | apply inv_ms | apply inv_fl | apply inv_mg | apply inv_mb | apply inv_q) | assumption)
theorem inv_mcOff {s : State} (hI : Kept q s) : Kept q (mcOff s) := by
  unfold mcOff; repeat' (first | (with_reducible first | assumption | apply inv_modUnit | apply inv_foldl) | (intro s x h; have : Kept q s := h) | simp only [inv_upd])
theorem inv_advanceGens {s : State} (hI : Kept q s) : Kept q (advanceGens s) := by
  refine inv_set_mb hI ?_
  obtain ⟨h1, h2, h3⟩ := inv_mb hI
  refine ⟨h1, by simpa using h2, fun y hy => ?_⟩
  obtain ⟨c, hc, rfl⟩ := List.mem_map.1 hy
  have := h3 c hc
  split <;> exact this
theorem inv_cmdBuf (c : Nat) (f : Chan → Chan) {s : State} (hI : Kept q s) (hf : ∀ x, cellsWf 0#8 x.cmdBuf = true → cellsWf 0#8 (f x).cmdBuf = true) :
    Kept q (modChan c f s) := by
  refine inv_set_mb hI ?_
  obtain ⟨h1, h2, h3⟩ := inv_mb hI
  refine ⟨h1, by simpa using h2, fun y hy => ?_⟩
  rcases mem_modNth hy with hy | ⟨x, hx, rfl⟩
  · exact h3 _ hy
  · exact hf _ (h3 _ hx)

theorem inv_hostRegsReset {s : State} (hI : Kept q s) : Kept q (hostRegsReset s) := by
  refine inv_set_mb hI ?_
  obtain ⟨h1, h2, h3⟩ := inv_mb hI
  refine ⟨h1, by simpa using h2, fun y hy => ?_⟩
  obtain ⟨c, hc, rfl⟩ := List.mem_map.1 hy
  rfl
theorem inv_primaryEnd {s : State} (hI : Kept q s) : Kept q (primaryEnd s) := by
  unfold primaryEnd; repeat' (first | (with_reducible first | assumption | apply inv_advanceGens | apply inv_destroyTags | apply inv_hostRegsReset | apply inv_sessEnd) | simp only [inv_upd])
theorem inv_portsOff {s : State} (hI : Kept q s) : Kept q (portsOff s) := by
  unfold portsOff; repeat' (first | (with_reducible first | assumption | apply inv_primaryEnd | apply inv_unitsOff) | simp only [inv_upd])
theorem inv_railFall (r : Nat) {s : State} (hI : Kept q s) : Kept q (railFall r s) := by
  unfold railFall; repeat' (first | (with_reducible first | assumption | apply inv_mcOff | apply inv_portsOff | apply inv_tilesOff | apply inv_ite) | simp only [inv_upd])
theorem inv_dropTileMem {s : State} (hI : Kept q s) : Kept q (dropTileMem s) := by
  unfold dropTileMem; repeat' (first | (with_reducible first | assumption | apply inv_fwRun | apply inv_railFall))
theorem inv_dropPort {s : State} (hI : Kept q s) : Kept q (dropPort s) := by
  unfold dropPort; repeat' (first | (with_reducible first | assumption | apply inv_fwRun | apply inv_railFall))
theorem inv_clearPortBufs {s : State} (hI : Kept q s) : Kept q (clearPortBufs s) := by
  unfold clearPortBufs; repeat' (first | with_reducible assumption | (simp only [inv_mk]; refine ⟨⟨?_, ?_, ?_, ?_, ?_, ?_, ?_, ?_, ?_, ?_⟩, ?_⟩) | (with_reducible first | apply inv_wd | apply inv_sq | apply inv_otp | apply inv_ks | apply inv_pk | apply inv_ms | apply inv_fl | apply inv_mg | apply inv_mb | apply inv_q) | (have := inv_units (by assumption); simpa using this))
theorem inv_logFlush {s : State} (hI : Kept q s) : Kept q (logFlush s) := by
  unfold logFlush; repeat' (first | (with_reducible first | assumption | apply inv_fqAdd | apply inv_ite) | simp only [inv_upd])
theorem inv_emptyTenantLog {s : State} (hI : Kept q s) : Kept q (emptyTenantLog s) := by
  unfold emptyTenantLog; exact hI
theorem inv_quarRails {s : State} (hI : Kept q s) : Kept q (quarRails s) := by
  unfold quarRails; repeat' (first | (with_reducible first | assumption | apply inv_clearPortBufs | apply inv_dropPort | apply inv_dropTileMem | apply inv_ite) | simp only [inv_upd])
theorem inv_revert {s : State} (hI : Kept q s) : Kept q (revert s) := by
  unfold revert; exact hI
theorem inv_workGone {s : State} (hI : Kept q s) : Kept q (workGone s) := by
  unfold workGone; exact hI
theorem inv_quarStop {s : State} (hI : Kept q s) : Kept q (quarStop s) := by
  unfold quarStop; repeat' (first | (with_reducible first | assumption | apply inv_abandonBatches | apply inv_apCloseAll | apply inv_failWaiting | apply inv_fwAbort | apply inv_fwKszero | apply inv_jobsEnd | apply inv_linkEndAll | apply inv_stopTiles) | simp only [inv_upd])
theorem inv_quarHalt {s : State} (hI : Kept q s) : Kept q (quarHalt s) := by
  unfold quarHalt
  lift_lets; intro a
  have ha : Kept q a := inv_fwKpzeroAll (inv_quarStop hI)
  clear_value a
  intro b
  have hb : Kept q b := inv_destroyTags (inv_upd.2 ha)
  clear_value b
  refine inv_workGone ?_
  split
  · exact inv_modRec _ _ hb
  · exact hb
theorem inv_revertDue {s : State} (hI : Kept q s) : Kept q (revertDue s) := by
  unfold revertDue; repeat' (first | (with_reducible first | assumption | apply inv_revert | apply inv_ite) | simp only [inv_upd])
theorem inv_quarantine (cause : Nat) {s : State} (hI : Kept q s) : Kept q (quarantine cause s) := by
  unfold quarantine; repeat' (first | (with_reducible first | assumption | apply inv_dropPort | apply inv_emptyTenantLog | apply inv_logFlush | apply inv_quarHalt | apply inv_quarRails | apply inv_revertDue | apply inv_setState | apply inv_ite) | simp only [inv_upd])
theorem inv_clkFail {s : State} (hI : Kept q s) : Kept q (clkFail s) := by
  unfold clkFail; repeat' (first | (with_reducible first | assumption | apply inv_driveRail | apply inv_quarantine | apply inv_setAlarm | apply inv_ite))
theorem inv_quarCleared {s : State} (hI : Kept q s) : Kept q (quarCleared s) := by
  unfold quarCleared; repeat' (first | (with_reducible first | assumption | apply inv_quarRails | apply inv_revertDue | apply inv_ite) | (simp only [inv_mk]; refine ⟨⟨?_, ?_, ?_, ?_, ?_, ?_, ?_, ?_, ?_, ?_⟩, ?_⟩) | (with_reducible first | apply inv_wd | apply inv_sq | apply inv_otp | apply inv_ks | apply inv_pk | apply inv_ms | apply inv_fl | apply inv_mg | apply inv_mb | apply inv_q) | (have := inv_units (by assumption); simpa using this))
theorem inv_mainStop {s : State} (hI : Kept q s) : Kept q (mainStop s) := by
  unfold mainStop; repeat' (first | (with_reducible first | assumption | apply inv_apCloseAll | apply inv_destroyTags | apply inv_failWaiting | apply inv_linkEndAll | apply inv_sessEnd) | simp only [inv_upd])
theorem inv_mainDown {s : State} (hI : Kept q s) : Kept q (mainDown s) := by
  unfold mainDown
  lift_lets; intro a
  have ha : Kept q a := inv_fwAbort (inv_mainStop hI)
  clear_value a
  intro _ _ b
  have hb : Kept q b := inv_workGone (inv_upd.2 ha)
  clear_value b
  exact inv_dropPort (inv_dropTileMem hb)
theorem inv_toWarden {s : State} (hI : Kept q s) : Kept q (toWarden s) := by
  unfold toWarden; repeat' (first | (with_reducible first | assumption | apply inv_mainDown | apply inv_setState) | simp only [inv_upd])
theorem inv_mainLost {s : State} (hI : Kept q s) : Kept q (mainLost s) := by
  unfold mainLost; repeat' (first | (with_reducible first | assumption | apply inv_abandonBatches | apply inv_bindsMove | apply inv_fwAbort | apply inv_fwKszero | apply inv_logEvent | apply inv_modRec | apply inv_recQueue | apply inv_stopTiles | apply inv_toWarden) | split)
theorem inv_startSwitch (cause : Nat) {s : State} (hI : Kept q s) : Kept q (startSwitch cause s) := by
  unfold startSwitch; repeat' (first | (with_reducible first | assumption | apply inv_failWaiting | apply inv_jobsEnd | apply inv_setState | apply inv_ite) | simp only [inv_upd])
theorem inv_sqBurst (hl : List Nat) (n : Nat) {s : State} (hI : Kept q s) : Kept q (sqBurst hl n s) := by
  induction n generalizing s with
  | zero => exact hI
  | succ n ih => unfold sqBurst; repeat' (first | (with_reducible first | assumption | apply ih | apply inv_sqExecStep | apply inv_sqIllegal | apply inv_ite))
theorem inv_sqBegin (p : SqPurpose) {s : State} (hI : Kept q s) : Kept q (sqBegin p s) := by
  unfold sqBegin; repeat' (first | (with_reducible first | assumption | apply inv_fwReady | apply inv_sqBurst | apply inv_sqStart | apply inv_ite))
theorem inv_sqTable (p : SqPurpose) {s : State} (hI : Kept q s) : Kept q (sqTable p s) := by
  unfold sqTable; repeat' (first | (with_reducible first | assumption | apply inv_sqBegin | apply inv_ite) | (simp only [inv_mk]; refine ⟨⟨?_, ?_, ?_, ?_, ?_, ?_, ?_, ?_, ?_, ?_⟩, ?_⟩) | (with_reducible first | apply inv_wd | apply inv_units | apply inv_otp | apply inv_ks | apply inv_pk | apply inv_ms | apply inv_fl | apply inv_mg | apply inv_mb | apply inv_q) | exact inv_sq (by assumption))
theorem inv_switchZero {s : State} (hI : Kept q s) : Kept q (switchZero s) := by
  unfold switchZero; repeat' (first | (with_reducible first | assumption | apply inv_apCloseAll | apply inv_fwKpzeroAll | apply inv_fwKszero | apply inv_linkEndAll) | simp only [inv_upd])
theorem inv_switchRecord {s : State} (hI : Kept q s) : Kept q (switchRecord s) := by
  unfold switchRecord; repeat' (first | (with_reducible first | assumption | apply inv_bindsMove | apply inv_modRec | apply inv_recQueue) | ((try lift_lets); intro x; first | (fail_if_success (first | (have : State := x) | fail))) | split)
theorem inv_switchMaps {s : State} (hI : Kept q s) : Kept q (switchMaps s) := by
  unfold switchMaps; repeat' (first | (with_reducible first | assumption | apply inv_emptyTenantLog | apply inv_invMark | apply inv_modAst | apply inv_foldl) | (intro s x h; have : Kept q s := h) | simp only [inv_upd])
theorem inv_switchTzero {s : State} (hI : Kept q s) : Kept q (switchTzero s) := by
  unfold switchTzero; repeat' (first | (with_reducible first | assumption | apply inv_logEvent | apply inv_msTzeroNow | apply inv_ite))
theorem inv_switchKeys {s : State} (hI : Kept q s) : Kept q (switchKeys s) := by
  unfold switchKeys; repeat' (first | (with_reducible first | assumption | apply inv_sqTable | apply inv_switchMaps | apply inv_switchRecord | apply inv_switchTzero | apply inv_switchZero) | simp only [inv_upd])
theorem inv_switchBatches {s : State} (hI : Kept q s) : Kept q (switchBatches s) := by
  unfold switchBatches; repeat' (first | (with_reducible first | assumption | apply inv_switchKeys | apply inv_ite))
theorem inv_switchHalted {s : State} (hI : Kept q s) : Kept q (switchHalted s) := by
  unfold switchHalted; repeat' (first | (with_reducible first | assumption | apply inv_closeDue | apply inv_switchBatches) | simp only [inv_upd] | split)
theorem inv_loadFail (phase unit st : Nat) {s : State} (hI : Kept q s) : Kept q (loadFail phase unit st s) := by
  unfold loadFail; repeat' (first | (with_reducible first | assumption | apply inv_logEvent | apply inv_startSwitch | apply inv_ite))
theorem inv_unitFail (u step code : Nat) {s : State} (hI : Kept q s) : Kept q (unitFail u step code s) := by
  unfold unitFail; repeat' (first | (with_reducible first | assumption | apply inv_fwHold | apply inv_loadFail | apply inv_logEvent | apply inv_quarantine | apply inv_setU | apply inv_ite))
theorem inv_startRestart (u : Nat) {s : State} (hI : Kept q s) : Kept q (startRestart u s) := by
  unfold startRestart; repeat' (first | (with_reducible first | assumption | apply inv_modUnit | apply inv_sqTable | apply inv_trace | apply inv_unitFail | apply inv_ite))
theorem inv_tileWeightsLost (t : Nat) {s : State} (hI : Kept q s) : Kept q (tileWeightsLost t s) := by
  unfold tileWeightsLost; repeat' (first | (with_reducible first | assumption | apply inv_logEvent | apply inv_wpkFail | apply inv_foldl) | (intro s x h; have : Kept q s := h))
theorem inv_takeWaits (u op arg : Nat) {s : State} (hI : Kept q s) : Kept q (takeWaits u op arg s).2 := by
  unfold takeWaits; exact hI
theorem inv_installEnd (ph : Nat) {s : State} (hI : Kept q s) : Kept q (installEnd ph s) := by
  unfold installEnd; repeat' (first | (with_reducible first | assumption | apply inv_answer | apply inv_takeWaits | apply inv_foldl) | (intro s x h; have : Kept q s := h) | split)
theorem inv_unitWaitEnd (w : UnitWait) {s : State} (hI : Kept q s) : Kept q (unitWaitEnd w s) := by
  unfold unitWaitEnd; repeat' (first | (with_reducible first | assumption | apply inv_answer | apply inv_installEnd) | split)
theorem inv_unitCrash (u cause : Nat) {s : State} (hI : Kept q s) : Kept q (unitCrash u cause s) := by
  unfold unitCrash; repeat' (first | (with_reducible first | assumption | apply inv_jobsEnd | apply inv_loadFail | apply inv_logEvent | apply inv_modTileJ | apply inv_setU | apply inv_startRestart | apply inv_stopTile | apply inv_tileWeightsLost | apply inv_trace | apply inv_unitCmd | apply inv_unitWaitEnd | apply inv_foldl | apply inv_ite) | (intro s x h; have : Kept q s := h) | simp only [inv_upd])
theorem inv_idleEntry {s : State} (hI : Kept q s) : Kept q (idleEntry s) := by
  unfold idleEntry; repeat' (first | (with_reducible first | assumption | apply inv_quarantine | apply inv_startRestart | apply inv_foldl | apply inv_ite) | (intro s x h; have : Kept q s := h))
theorem inv_fnReset (d : Nat) {s : State} (hI : Kept q s) : Kept q (fnReset d s) := by
  unfold fnReset; repeat' (first | (with_reducible first | assumption | apply inv_apEndAll | apply inv_apEndDie | apply inv_failWaiting | apply inv_jobsEnd | apply inv_modPx | apply inv_primaryEnd | apply inv_sessEnd | apply inv_startSwitch | apply inv_ite))
theorem inv_flashProg (off : Nat) (b : Bytes) {s : State} (hI : Kept q s) : Kept q (flashProg off b s) := by
  exact inv_set_fl hI (cellPuts_wf _ _ (inv_fl hI))
theorem inv_flashErase (off n : Nat) {s : State} (hI : Kept q s) : Kept q (flashErase off n s) := by
  exact inv_set_fl hI (cellErase_wf _ _ (inv_fl hI))
theorem inv_updStart {s : State} (hI : Kept q s) : Kept q (updStart s) := by
  unfold updStart; repeat' (first | (with_reducible first | assumption | apply inv_flashErase | apply inv_ite) | simp only [inv_upd])
theorem inv_sram (a : Nat) (b : Bytes) {s : State} (hI : Kept q s) : Kept q { s with wd := { s.wd with sram := cellPuts 0#8 a b s.wd.sram } } := by
  refine inv_set_wd hI ?_
  obtain ⟨h1, h2⟩ := inv_wd hI
  exact ⟨cellPuts_wf _ _ h1, h2⟩

theorem inv_romNote (e : MLog) {s : State} (hI : Kept q s) : Kept q (romNote e s) := by
  unfold romNote
  obtain ⟨h1, h2⟩ := inv_wd hI
  exact inv_mk.2 ⟨⟨⟨cellPuts_wf _ _ h1, h2⟩, inv_units hI, inv_sq hI, inv_otp hI, inv_ks hI, inv_pk hI, inv_ms hI, inv_fl hI, inv_mg hI, inv_mb hI⟩, inv_q hI⟩
theorem inv_romRefuse (typ code : Nat) (x : Option Img) {s : State} (hI : Kept q s) : Kept q (romRefuse typ code x s) := by
  unfold romRefuse; repeat' (first | (with_reducible first | assumption | apply inv_romNote | apply inv_ms) | (simp only [inv_mk]; refine ⟨⟨?_, ?_, ?_, ?_, ?_, ?_, ?_, ?_, ?_, ?_⟩, ?_⟩) | (with_reducible first | apply inv_wd | apply inv_units | apply inv_sq | apply inv_otp | apply inv_ks | apply inv_pk | apply inv_fl | apply inv_mg | apply inv_mb | apply inv_q))
theorem inv_romExtend (n kind typ : Nat) (input : Bytes) {s : State} (hI : Kept q s) : Kept q (romExtend n kind typ input s) := by
  unfold romExtend; repeat' (first | (with_reducible first | assumption | apply inv_msExtend | apply inv_msLock | apply inv_romNote))
theorem inv_drawGens {s : State} (hI : Kept q s) : Kept q (drawGens s) := by
  unfold drawGens
  exact inv_foldl (inv_drawBytes _ hI) (fun s c h => inv_modChan _ _ h (fun _ => rfl))
theorem inv_p0Only {s : State} (hI : Kept q s) : Kept q (p0Only s) := by
  unfold p0Only; repeat' (first | (with_reducible first | assumption | apply inv_sqTable | apply inv_ite))
theorem inv_romStart (k tried ca cb typ : Nat) (i : Img) {s : State} (hI : Kept q s) : Kept q (romStart k tried ca cb typ i s) := by
  unfold romStart
  lift_lets; intro g x
  have hx : Kept q x := inv_romExtend _ _ _ _ hI
  clear_value x
  intro y
  have hy : Kept q y := inv_romExtend _ _ _ _ hx
  clear_value y
  intro _ _ z
  have hz : Kept q z := inv_upd.2 (inv_set_wd hy (inv_wd hy))
  clear_value z
  intro w
  have hw : Kept q w := inv_dgRootKdf hz
  clear_value w
  exact inv_ite hw (inv_setState _ _ hw)
theorem inv_romTry (k typ : Nat) (err : Bool) {s : State} (hI : Kept q s) : Kept q (romTry k typ err s).2 := by
  unfold romTry
  split
  · exact hI
  · dsimp only
    split
    · exact hI
    · split
      · exact hI
      · exact inv_sram _ _ hI
theorem inv_romRecovery (x : RomIn) (tried a b : Nat) {s : State} (hI : Kept q s) : Kept q (romRecovery x tried a b s) := by
  unfold romRecovery; repeat' (first | (with_reducible first | assumption | apply inv_quarantine | apply inv_romRefuse | apply inv_romStart | apply inv_romTry) | ((try lift_lets); intro x; first | (refine (?_ : Kept q x.2 → _) ?_ ; intro _; (try clear_value x); rotate_left; simp only [x])) | split)
theorem inv_romRecord {s : State} (hI : Kept q s) : Kept q (romRecord s) := by
  unfold romRecord; repeat' (first | with_reducible assumption | simp only [inv_upd] | split)
theorem inv_romSelect (x : RomIn) {s : State} (hI : Kept q s) : Kept q (romSelect x s) := by
  unfold romSelect; repeat' (first | (with_reducible first | assumption | apply inv_flashProg | apply inv_romRecord | apply inv_romRecovery | apply inv_romRefuse | apply inv_romStart | apply inv_romTry) | ((try lift_lets); intro x; first | (refine (?_ : Kept q x → _) ?_ ; intro _; (try clear_value x); rotate_left; simp only [x]) | (refine (?_ : Kept q x.2 → _) ?_ ; intro _; (try clear_value x); rotate_left; simp only [x]) | (fail_if_success (first | (have : State := x) | fail))) | split)
theorem inv_romPrepare (x : RomIn) {s : State} (hI : Kept q s) : Kept q (romPrepare x s) := by
  unfold romPrepare
  obtain ⟨h1, h2, _⟩ := inv_wd hI
  exact inv_otComplete _ (inv_otRepair (inv_mk.2 ⟨⟨⟨h1, h2, (by decide : 1000 ≤ 2000000)⟩, inv_units hI, inv_sq hI, inv_otp hI, inv_ks hI, inv_pk hI, inv_ms hI, inv_fl hI, inv_mg hI, inv_mb hI⟩, inv_q hI⟩))
theorem inv_romMeasure {s : State} (hI : Kept q s) : Kept q (romMeasure s) := by
  unfold romMeasure; repeat' (first | (with_reducible first | assumption | apply inv_romExtend))
theorem inv_romGo (x : RomIn) {s : State} (hI : Kept q s) : Kept q (romGo x s) := by
  unfold romGo; repeat' (first | (with_reducible first | assumption | apply inv_otComplete | apply inv_otLc | apply inv_quarantine | apply inv_romMeasure | apply inv_romSelect | apply inv_setState | apply inv_ite))
theorem inv_romBoot (x : RomIn) {s : State} (hI : Kept q s) : Kept q (romBoot x s) := by
  unfold romBoot; repeat' (first | (with_reducible first | assumption | apply inv_romGo | apply inv_romPrepare | apply inv_ite))
theorem fwTables_length (s : State) : (fwTables s).flatten.length ≤ 4096 := by
  have h : (portUnits s).length ≤ 18 := Nat.le_trans (List.length_filter_le _ _) (by decide)
  have p : ((List.map portTable (portUnits s)).flatten).length = 3 * (portUnits s).length := by
    generalize portUnits s = l
    induction l with
    | nil => rfl
    | cons a l ih => simp only [List.map_cons, List.flatten_cons, List.length_append, ih, List.length_cons, portTable, List.length_nil]; omega
  have d : ∀ l : List Nat, ((List.map holdTable l).flatten).length = 2 * l.length := by
    intro l
    induction l with
    | nil => rfl
    | cons a l ih => simp only [List.map_cons, List.flatten_cons, List.length_append, ih, List.length_cons, holdTable, List.length_nil]; omega
  have c : ([clearTable, portUpTable, tileUpTable, memUpTable, p0UpTable, mainOffTable, portOffTable, keyTable 8 48, keyTable 16 40,
      digestTable 65536] ++ (List.range 8).map tileTable).flatten.length ≤ 300 := by decide +kernel
  simp only [fwTables, List.flatten_append, List.length_append, p, d, List.length_range] at c ⊢
  omega

theorem inv_writeTables {s : State} (hI : Kept q s) : Kept q (writeTables s) := by
  unfold writeTables
  refine inv_msLock _ (inv_msRecord _ _ (inv_set_sq hI ?_))
  exact ⟨fwTables_length s, (inv_sq hI).2⟩
theorem inv_identities {s : State} (hI : Kept q s) : Kept q (identities s) := by
  unfold identities; exact hI
theorem inv_burnSvn (tgt : List Nat) (x : List PulseOut) {s : State} (hI : Kept q s) : Kept q (burnSvn tgt x s) := by
  unfold burnSvn
  have key : ∀ (l : List Nat) (p : State × List PulseOut), Kept q p.1 → Kept q (l.foldl (fun (p : State × List PulseOut) c =>
      let s1 := otIncr c (nth 0 tgt c) p.1
      let n := match s1.otp.job with | some j => j.targets.length | none => 0
      (otComplete (p.2.take n) s1, p.2.drop n)) p).1 := by
    intro l
    induction l with
    | nil => exact fun p h => h
    | cons a l ih => exact fun p h => ih _ (inv_otComplete _ (inv_otIncr _ _ h))
  exact key _ _ hI
theorem inv_adoptLog {s : State} (hI : Kept q s) : Kept q (adoptLog s) := by
  unfold adoptLog; repeat' (first | (with_reducible first | assumption | apply inv_foldl) | (intro s x h; have : Kept q s := h) | simp only [inv_upd] | split)
theorem inv_adoptRom {s : State} (hI : Kept q s) : Kept q (adoptRom s) := by
  unfold adoptRom; repeat' (first | (with_reducible first | assumption | apply inv_logWith | apply inv_foldl) | (intro s x h; have : Kept q s := h))
theorem inv_logGroups {s : State} (hI : Kept q s) : Kept q (logGroups s) := by
  unfold logGroups; repeat' (first | (with_reducible first | assumption | apply inv_logEvent | apply inv_foldl | apply inv_ite) | (intro s x h; have : Kept q s := h))
theorem inv_wfwRegs {s : State} (hI : Kept q s) : Kept q (wfwRegs s) := by
  unfold wfwRegs
  refine inv_mk.2 ⟨⟨?_, by simpa using inv_units hI, inv_sq hI, inv_otp hI, inv_ks hI, inv_pk hI, inv_ms hI, inv_fl hI, inv_mg hI, inv_mb hI⟩, inv_q hI⟩
  obtain ⟨h1, h2, _⟩ := inv_wd hI
  exact ⟨h1, h2, (by decide : 1000 ≤ 100000)⟩
theorem inv_wfwStart {s : State} (hI : Kept q s) : Kept q (wfwStart s) := by
  unfold wfwStart; repeat' (first | (with_reducible first | assumption | apply inv_adoptLog | apply inv_adoptRom | apply inv_derivePrism | apply inv_drawBytes | apply inv_drawGens | apply inv_identities | apply inv_logEvent | apply inv_logGroups | apply inv_updStart | apply inv_wfwRegs | apply inv_writeTables) | simp only [inv_upd])
theorem inv_wfwReissue (x : List PulseOut) {s : State} (hI : Kept q s) : Kept q (wfwReissue x s) := by
  unfold wfwReissue; repeat' (first | (with_reducible first | assumption | apply inv_burnSvn | apply inv_ite))
theorem inv_wfwCrash (crash : Bool) {s : State} (hI : Kept q s) : Kept q (wfwCrash crash s) := by
  unfold wfwCrash; repeat' (first | (with_reducible first | assumption | apply inv_quarantine | apply inv_ite))
theorem inv_wfwInit (x : List PulseOut) {s : State} (hI : Kept q s) : Kept q (wfwInit x s) := by
  unfold wfwInit; repeat' (first | (with_reducible first | assumption | apply inv_p0Only | apply inv_wfwCrash | apply inv_wfwReissue | apply inv_wfwStart | apply inv_ite))
theorem inv_setConf {s : State} (hI : Kept q s) : Kept q (setConf s) := by
  unfold setConf; exact hI
theorem inv_rosterOpen {s : State} (hI : Kept q s) : Kept q (rosterOpen s) := by
  unfold rosterOpen; repeat' (first | (with_reducible first | assumption | apply inv_drawBytes | apply inv_fqAdd | apply inv_logEvent | apply inv_modRec | apply inv_recQueue | apply inv_foldl) | (intro s x h; have : Kept q s := h) | simp only [inv_upd] | split)
theorem inv_bringupStart {s : State} (hI : Kept q s) : Kept q (bringupStart s) := by
  unfold bringupStart; repeat' (first | (with_reducible first | assumption | apply inv_emptyTenantLog | apply inv_extendMode | apply inv_rosterOpen | apply inv_setConf | apply inv_setStateIn | apply inv_sqTable | apply inv_ite) | simp only [inv_upd])
theorem inv_mismatchLog (p : Nat) {s : State} (hI : Kept q s) : Kept q (mismatchLog p s) := by
  unfold mismatchLog; repeat' (first | (with_reducible first | assumption | apply inv_logEvent))
theorem inv_siteCompare {s : State} (hI : Kept q s) : Kept q (siteCompare s) := by
  unfold siteCompare; repeat' (first | (with_reducible first | assumption | apply inv_mismatchLog | apply inv_msLock | apply inv_msRecord | apply inv_quarantine | apply inv_sqTable | apply inv_foldl | apply inv_ite) | (intro s x h; have : Kept q s := h) | simp only [inv_upd])
theorem inv_verifyFail (us : List Nat) (typ code : Nat) {s : State} (hI : Kept q s) : Kept q (verifyFail us typ code s) := by
  unfold verifyFail; repeat' (first | (with_reducible first | assumption | apply inv_logEvent | apply inv_quarantine | apply inv_foldl) | (intro s x h; have : Kept q s := h))
theorem inv_ltEnable (u : Nat) {s : State} (hI : Kept q s) : Kept q (ltEnable u s) := by
  unfold ltEnable; exact hI
theorem inv_portsUp {s : State} (hI : Kept q s) : Kept q (portsUp s) := by
  unfold portsUp; repeat' (first | (with_reducible first | assumption | apply inv_ltEnable | apply inv_mismatchLog | apply inv_quarantine | apply inv_setU | apply inv_foldl | apply inv_ite) | (intro s x h; have : Kept q s := h) | simp only [inv_upd])
theorem inv_tilesUp {s : State} (hI : Kept q s) : Kept q (tilesUp s) := by
  unfold tilesUp; repeat' (first | (with_reducible first | assumption | apply inv_setU | apply inv_verifyFail | apply inv_foldl | apply inv_ite) | (intro s x h; have : Kept q s := h) | simp only [inv_upd])
theorem inv_railsDone (p : SqPurpose) {s : State} (hI : Kept q s) : Kept q (railsDone p s) := by
  unfold railsDone; repeat' (first | (with_reducible first | assumption | apply inv_ltEnable | apply inv_portsUp | apply inv_quarantine | apply inv_tilesUp | apply inv_ite) | simp only [inv_upd])
theorem inv_railGoodEv (rail : Nat) (hl : List Nat) {s : State} (hI : Kept q s) : Kept q (railGoodEv rail hl s) := by
  unfold railGoodEv; repeat' (first | (with_reducible first | assumption | apply inv_fnReset | apply inv_railFall | apply inv_sqAdvance | apply inv_sqBurst | apply inv_foldl) | (intro s x h; have : Kept q s := h) | simp only [inv_upd] | split)
theorem inv_digestChunk {s : State} (b : Bytes) (hI : Kept q s) : Kept q (digestChunk s b) := by
  unfold digestChunk
  obtain ⟨h1, h2⟩ := inv_wd hI
  exact inv_fwDo _ (inv_mk.2 ⟨⟨⟨cellPuts_wf _ _ h1, h2⟩, inv_units hI, inv_sq hI, inv_otp hI, inv_ks hI, inv_pk hI, inv_ms hI, inv_fl hI, inv_mg hI, inv_mb hI⟩, inv_q hI⟩)
theorem inv_bodyDigest (b : Bytes) {s : State} (hI : Kept q s) : Kept q (bodyDigest b s) := by
  unfold bodyDigest; repeat' (first | (with_reducible first | assumption | apply inv_digestChunk | apply inv_foldl) | simp only [inv_upd])
theorem inv_digestFail {s : State} (hI : Kept q s) : Kept q (digestFail s) := by
  unfold digestFail; repeat' (first | (with_reducible first | assumption | apply inv_dgEnd | apply inv_fwReady | apply inv_sqError | apply inv_sqStart))
theorem inv_loadWrite (k : Nat) (x : LoadIn) (us : List Nat) (i : Img) {s : State} (hI : Kept q s) : Kept q (loadWrite k x us i s) := by
  unfold loadWrite; repeat' (first | (with_reducible first | assumption | apply inv_bodyDigest | apply inv_digestFail | apply inv_modUnit | apply inv_foldl | apply inv_ite) | (intro s x h; have : Kept q s := h))
theorem inv_loadGo (k u : Nat) (i : Img) {s : State} (hI : Kept q s) : Kept q (loadGo k u i s) := by
  unfold loadGo; repeat' (first | (with_reducible first | assumption | apply inv_modUnit))
theorem inv_slot9 (u reason count : Nat) (e : Bytes) {s : State} (hI : Kept q s) : Kept q (slot9 u reason count e s) := by
  unfold slot9; repeat' (first | (with_reducible first | assumption | apply inv_msRecord))
theorem inv_loadMeasure (k : Nat) (us : List Nat) (i : Img) {s : State} (hI : Kept q s) : Kept q (loadMeasure k us i s) := by
  unfold loadMeasure; repeat' (first | (with_reducible first | assumption | apply inv_msExtend | apply inv_msLock | apply inv_slot9 | apply inv_foldl | apply inv_ite) | (intro s x h; have : Kept q s := h) | simp only [inv_upd])
theorem inv_unitLoad (k : Nat) (x : LoadIn) {s : State} (hI : Kept q s) : Kept q (unitLoad k x s) := by
  unfold unitLoad; repeat' (first | (with_reducible first | assumption | apply inv_loadGo | apply inv_loadMeasure | apply inv_loadWrite | apply inv_logEvent | apply inv_quarantine | apply inv_verifyFail | apply inv_foldl | apply inv_ite) | (intro s x h; have : Kept q s := h) | split)
theorem inv_bringupReady {s : State} (hI : Kept q s) : Kept q (bringupReady s) := by
  unfold bringupReady; repeat' (first | (with_reducible first | assumption | apply inv_siteCompare | apply inv_sqTable) | simp only [inv_upd] | split)
theorem inv_stackTrained (t : Nat) {s : State} (hI : Kept q s) : Kept q (stackTrained t s) := by
  unfold stackTrained; repeat' (first | (with_reducible first | assumption | apply inv_modMc | apply inv_siteCompare | apply inv_ite))
theorem inv_unitReload (u : Nat) (x : LoadIn) {s : State} (hI : Kept q s) : Kept q (unitReload u x s) := by
  unfold unitReload; repeat' (first | (with_reducible first | assumption | apply inv_loadGo | apply inv_loadWrite | apply inv_modUnit | apply inv_slot9 | apply inv_trace | apply inv_unitFail | apply inv_ite) | split)
theorem inv_unitReady (u gen version : Nat) {s : State} (hI : Kept q s) : Kept q (unitReady u gen version s) := by
  unfold unitReady; repeat' (first | (with_reducible first | assumption | apply inv_bringupReady | apply inv_logEvent | apply inv_modTileJ | apply inv_modUnit | apply inv_setU | apply inv_trace | apply inv_verifyFail | apply inv_ite))
theorem inv_readyTimeout (u : Nat) {s : State} (hI : Kept q s) : Kept q (readyTimeout u s) := by
  unfold readyTimeout; repeat' (first | (with_reducible first | assumption | apply inv_modUnit | apply inv_unitFail | apply inv_verifyFail | apply inv_ite))
theorem inv_flashErrorEv (off op : Nat) {s : State} (hI : Kept q s) : Kept q (flashErrorEv off op s) := by
  unfold flashErrorEv; repeat' (first | (with_reducible first | assumption | apply inv_logEvent))
theorem inv_flashPut (off size : Nat) (b : Bytes) {s : State} (hI : Kept q s) : Kept q (flashPut off size b s) := by
  unfold flashPut; repeat' (first | (with_reducible first | assumption | apply inv_flashErase | apply inv_flashProg))
theorem inv_flashSpoil (off size n : Nat) {s : State} (hI : Kept q s) : Kept q (flashSpoil off size n s) := by
  unfold flashSpoil; repeat' (first | (with_reducible first | assumption | apply inv_drawBytes | apply inv_flashErase | apply inv_flashProg))
theorem inv_sealWrite (i : Nat) (pt : Bytes) {s : State} (hI : Kept q s) : Kept q (sealWrite i pt s) := by
  unfold sealWrite; repeat' (first | (with_reducible first | assumption | apply inv_drawBytes | apply inv_flashPut) | simp only [inv_upd])
theorem inv_sealFail (i n : Nat) {s : State} (hI : Kept q s) : Kept q (sealFail i n s) := by
  unfold sealFail; repeat' (first | (with_reducible first | assumption | apply inv_flashErrorEv | apply inv_flashSpoil))
theorem inv_recCommit (i : Nat) (r : TRec) {s : State} (hI : Kept q s) : Kept q (recCommit i r s) := by
  unfold recCommit; repeat' (first | (with_reducible first | assumption | apply inv_sealWrite) | simp only [inv_upd] | split)
theorem inv_hdrCommit {s : State} (hI : Kept q s) : Kept q (hdrCommit s) := by
  unfold hdrCommit; repeat' (first | (with_reducible first | assumption | apply inv_sealWrite) | simp only [inv_upd])
theorem inv_ringCommit (r : ClearRcpt) {s : State} (hI : Kept q s) : Kept q (ringCommit r s) := by
  unfold ringCommit; repeat' (first | (with_reducible first | assumption | apply inv_flashPut) | simp only [inv_upd])
theorem inv_ringFail (r : ClearRcpt) {s : State} (hI : Kept q s) : Kept q (ringFail r s) := by
  unfold ringFail; repeat' (first | (with_reducible first | assumption | apply inv_flashErrorEv | apply inv_flashSpoil) | simp only [inv_upd])
theorem inv_linkCommit {s : State} (hI : Kept q s) : Kept q (linkCommit s) := by
  unfold linkCommit; repeat' (first | (with_reducible first | assumption | apply inv_sealWrite) | simp only [inv_upd])
theorem inv_sectorCommit (es : List LogEntry) {s : State} (hI : Kept q s) : Kept q (sectorCommit es s) := by
  unfold sectorCommit; repeat' (first | (with_reducible first | assumption | apply inv_flashPut) | simp only [inv_upd])
theorem inv_sectorFail (es : List LogEntry) {s : State} (hI : Kept q s) : Kept q (sectorFail es s) := by
  unfold sectorFail; repeat' (first | (with_reducible first | assumption | apply inv_flashErrorEv | apply inv_flashSpoil) | simp only [inv_upd])
theorem inv_flashCommit (j : FJob) {s : State} (hI : Kept q s) : Kept q (flashCommit j s) := by
  unfold flashCommit; repeat' (first | (with_reducible first | assumption | apply inv_hdrCommit | apply inv_linkCommit | apply inv_recCommit | apply inv_ringCommit | apply inv_sectorCommit) | split)
theorem inv_flashFailed (j : FJob) {s : State} (hI : Kept q s) : Kept q (flashFailed j s) := by
  unfold flashFailed; repeat' (first | (with_reducible first | assumption | apply inv_ringFail | apply inv_sealFail | apply inv_sectorFail) | simp only [inv_upd] | split)
theorem inv_flashNext {s : State} (hI : Kept q s) : Kept q (flashNext s) := by
  unfold flashNext; exact hI
theorem inv_sealedOk (ok : Bool) {s : State} (hI : Kept q s) : Kept q (sealedOk ok s).2 := by
  unfold sealedOk; exact hI
theorem inv_flashDone (ok : Bool) {s : State} (hI : Kept q s) : Kept q (flashDone ok s) := by
  unfold flashDone; repeat' (first | (with_reducible first | assumption | apply inv_flashCommit | apply inv_flashFailed | apply inv_flashNext | apply inv_sealedOk) | simp only [inv_upd] | split)
theorem inv_switchCleared {s : State} (hI : Kept q s) : Kept q (switchCleared s) := by
  unfold switchCleared; repeat' (first | (with_reducible first | assumption | apply inv_clearPortBufs | apply inv_pqAdd) | simp only [inv_upd])
theorem inv_switchSigned (ec ml : Bytes) {s : State} (hI : Kept q s) : Kept q (switchSigned ec ml s) := by
  unfold switchSigned; repeat' (first | (with_reducible first | assumption | apply inv_fqAdd | apply inv_idleEntry | apply inv_logEvent | apply inv_setState | apply inv_ite) | simp only [inv_upd])
theorem inv_powerUpDone {s : State} (hI : Kept q s) : Kept q (powerUpDone s) := by
  unfold powerUpDone; repeat' (first | (with_reducible first | assumption | apply inv_idleEntry | apply inv_logEvent | apply inv_quarantine | apply inv_setState | apply inv_ite) | simp only [inv_upd])
theorem inv_switchClearDone {s : State} (hI : Kept q s) : Kept q (switchClearDone s) := by
  unfold switchClearDone; repeat' (first | (with_reducible first | assumption | apply inv_quarantine | apply inv_switchCleared | apply inv_ite))
theorem inv_tileTableDone {s : State} (hI : Kept q s) : Kept q (tileTableDone s) := by
  unfold tileTableDone; repeat' (first | (with_reducible first | assumption | apply inv_quarantine | apply inv_ite))
theorem inv_tableDone (p : SqPurpose) {s : State} (hI : Kept q s) : Kept q (tableDone p s) := by
  unfold tableDone; repeat' (first | (with_reducible first | assumption | apply inv_powerUpDone | apply inv_railsDone | apply inv_switchClearDone | apply inv_tileTableDone | apply inv_unitFail) | split)
theorem inv_settleN (n : Nat) {s : State} (hI : Kept q s) : Kept q (settleN n s) := by
  induction n generalizing s with
  | zero => exact hI
  | succ n ih => unfold settleN; repeat' (first | (with_reducible first | assumption | apply ih | apply inv_sqBegin | apply inv_tableDone | apply inv_sq) | (simp only [inv_mk]; refine ⟨⟨?_, ?_, ?_, ?_, ?_, ?_, ?_, ?_, ?_, ?_⟩, ?_⟩) | (with_reducible first | apply inv_wd | apply inv_units | apply inv_otp | apply inv_ks | apply inv_pk | apply inv_ms | apply inv_fl | apply inv_mg | apply inv_mb | apply inv_q) | exact inv_sq (by assumption) | split)
theorem inv_settle (s0 s : State) (hI : Kept q s) : Kept q (settle s0 s) := by
  unfold settle; repeat' (first | (with_reducible first | assumption | apply inv_setAlarm | apply inv_settleN | apply inv_ite))
theorem inv_dropAccess {s : State} (hI : Kept q s) : Kept q (dropAccess s) := by
  unfold dropAccess; repeat' (first | with_reducible assumption | (simp only [inv_mk]; refine ⟨⟨?_, ?_, ?_, ?_, ?_, ?_, ?_, ?_, ?_, ?_⟩, ?_⟩) | (with_reducible first | apply inv_units | apply inv_sq | apply inv_otp | apply inv_ks | apply inv_pk | apply inv_ms | apply inv_fl | apply inv_mg | apply inv_mb | apply inv_q) | exact inv_wd (by assumption) | split)
theorem inv_sqEvent (f : State → State) {s : State} (hI : Kept q s) (hf : ∀ x0, Kept q x0 → Kept q (f x0)) : Kept q (sqEvent f s) := by
  unfold sqEvent; repeat' (first | (with_reducible first | assumption | apply inv_dropAccess | apply inv_settle | apply hf))
end Sys2Proof.Machine
end

