-- ==== Sys2Proof/Laws/Inv4.lean ====
section
/-! SUPPORT. What `Kept` says of the operations of ExecSeq, ExecBoot, ExecCrypto, HostLink and Transport. -/

open Sys2Proof.Machine
namespace Sys2Proof.Machine
set_option linter.all false
variable {q : List Instr}
theorem inv_standbyUp (progWin : Bool) {s : State} (hI : Kept q s) : Kept q (standbyUp progWin s) := by
  unfold standbyUp; repeat' (first | (with_reducible first | assumption | apply inv_setNotice | apply inv_wardenReset | apply inv_ite) | simp only [inv_upd])
theorem inv_standbyDown {s : State} (hI : Kept q s) : Kept q (standbyDown s) := by
  unfold standbyDown; repeat' (first | (with_reducible first | apply inv_wardenReset | apply inv_ite) | ((try lift_lets); intro x; first | (refine (?_ : Kept q x → _) ?_ ; intro _; (try clear_value x); rotate_left; simp only [x]) | (refine (?_ : MgOk x → _) (inv_mg (q := q) ?_); intro _; clear_value x) | (fail_if_success (first | (have : State := x) | fail))) | (simp only [inv_mk]; refine ⟨⟨?_, ?_, ?_, ?_, ?_, ?_, ?_, ?_, ?_, ?_⟩, ?_⟩) | (with_reducible first | apply inv_wd | apply inv_units | apply inv_sq | apply inv_otp | apply inv_ks | apply inv_pk | apply inv_ms | apply inv_fl | apply inv_mb | apply inv_q) | assumption)
theorem inv_mainOkFalls {s : State} (hI : Kept q s) : Kept q (mainOkFalls s) := by
  unfold mainOkFalls; repeat' (first | (with_reducible first | assumption | apply inv_irq | apply inv_mainLost | apply inv_ite) | simp only [inv_upd])
theorem inv_linksDown {s : State} (hI : Kept q s) : Kept q (linksDown s) := by
  unfold linksDown; repeat' (first | (with_reducible first | assumption | apply inv_portsLeave | apply inv_foldl) | (intro s x h; have : Kept q s := h))
theorem inv_mclkLost {s : State} (hI : Kept q s) : Kept q (mclkLost s) := by
  unfold mclkLost; repeat' (first | (with_reducible first | assumption | apply inv_logEvent | apply inv_modMc | apply inv_setAlarm | apply inv_foldl | apply inv_ite) | (intro s x h; have : Kept q s := h))
theorem inv_fnRegsReset (d : Nat) {s : State} (hI : Kept q s) : Kept q (fnRegsReset d s) := by
  unfold fnRegsReset; exact hI
theorem inv_fnDown (d : Nat) {s : State} (hI : Kept q s) : Kept q (fnDown d s) := by
  unfold fnDown; repeat' (first | (with_reducible first | assumption | apply inv_fnRegsReset | apply inv_fnReset))
theorem inv_sendPending (d : Nat) {s : State} (hI : Kept q s) : Kept q (sendPending d s) := by
  unfold sendPending; repeat' (first | (with_reducible first | assumption | apply inv_emit | apply inv_modFn | apply inv_foldl | apply inv_ite) | (intro s x h; have : Kept q s := h))
theorem inv_mbxWrite (ch off : Nat) (data : Bytes) {s : State} (hI : Kept q s) : Kept q (mbxWrite ch off data s) := by
  unfold mbxWrite
  split
  · exact hI
  · split
    · exact hI
    · split
      · exact hI
      · exact inv_cmdBuf _ _ hI (fun x h => cellPuts_wf _ _ h)
theorem inv_mbxDoorbell (ch len : Nat) {s : State} (hI : Kept q s) : Kept q (mbxDoorbell ch len s) := by
  unfold mbxDoorbell; repeat' (first | (with_reducible first | apply inv_irq | apply inv_modChan | apply inv_ite) | ((try lift_lets); intro x; first | (refine (?_ : MbOk x → _) (inv_mb (q := q) ?_); intro _; clear_value x) | (fail_if_success (first | (have : State := x) | fail))) | simp only [inv_upd] | (simp only [inv_mk]; refine ⟨⟨?_, ?_, ?_, ?_, ?_, ?_, ?_, ?_, ?_, ?_⟩, ?_⟩) | (with_reducible first | apply inv_wd | apply inv_units | apply inv_sq | apply inv_otp | apply inv_ks | apply inv_pk | apply inv_ms | apply inv_fl | apply inv_mg | apply inv_q) | assumption)
theorem inv_hmbTake (ch : Nat) {s : State} (hI : Kept q s) : Kept q (hmbTake ch s) := by
  unfold hmbTake; repeat' (first | (with_reducible first | assumption | apply inv_modChan | apply inv_ite | rfl) | intro _)
theorem inv_winAdd (ch : Nat) (f : Frame) {s : State} (hI : Kept q s) : Kept q (winAdd ch f s) := by
  unfold winAdd; repeat' (first | (with_reducible first | assumption | apply inv_modChan | rfl) | ((try lift_lets); intro x; first | (fail_if_success (first | (have : State := x) | fail))) | split)
theorem inv_jobWinAdd (j : JobWin) {s : State} (hI : Kept q s) : Kept q (jobWinAdd j s) := by
  unfold jobWinAdd; repeat' (first | with_reducible apply inv_ite | ((try lift_lets); intro x; first | (refine (?_ : MbOk x → _) (inv_mb (q := q) ?_); intro _; clear_value x) | ((first | (have y : Nat := x) | (have y : Bool := x) | (have y : Bytes := x) | (have y : Option Nat := x) | (have y : List Nat := x)); clear y; clear_value x)) | (simp only [inv_mk]; refine ⟨⟨?_, ?_, ?_, ?_, ?_, ?_, ?_, ?_, ?_, ?_⟩, ?_⟩) | (with_reducible first | apply inv_wd | apply inv_units | apply inv_sq | apply inv_otp | apply inv_ks | apply inv_pk | apply inv_ms | apply inv_fl | apply inv_mg | apply inv_q) | assumption)
theorem inv_frameAnswer (ch : Nat) (b : Bytes) {s : State} (hI : Kept q s) : Kept q (frameAnswer ch b s) := by
  unfold frameAnswer; repeat' (first | (with_reducible first | assumption | apply inv_modChan | rfl) | intro _)
theorem inv_frameEnter (ch : Nat) (f : Frame) (isSealed : Bool) {s : State} (hI : Kept q s) : Kept q (frameEnter ch f isSealed s) := by
  unfold frameEnter; repeat' (first | (with_reducible first | assumption | apply inv_winAdd | apply inv_ite))
theorem inv_frameLast (disp : Nat → HostCall → State → State) (ch : Nat) (f : Frame) (isSealed : Bool) (data : Bytes) {s : State} (hI : Kept q s) (hdisp : ∀ x0 x1 x2, Kept q x2 → Kept q (disp x0 x1 x2)) : Kept q (frameLast disp ch f isSealed data s) := by
  unfold frameLast; repeat' (first | (with_reducible first | assumption | apply inv_buildRsp | apply inv_frameEnter | apply inv_jobWinAdd | apply hdisp | apply inv_ite))
theorem inv_frameRun (disp : Nat → HostCall → State → State) (ch : Nat) (f : Frame) (isSealed : Bool) (data : Bytes) {s : State} (hI : Kept q s) (hdisp : ∀ x0 x1 x2, Kept q x2 → Kept q (disp x0 x1 x2)) : Kept q (frameRun disp ch f isSealed data s) := by
  unfold frameRun; repeat' (first | (with_reducible first | assumption | apply inv_buildRsp | apply inv_frameAnswer | apply inv_frameLast | apply inv_modChan | rfl) | ((try lift_lets); intro x; first | (fail_if_success (first | (have : State := x) | fail))) | split)
theorem inv_frameChecks (disp : Nat → HostCall → State → State) (ch : Nat) {s : State} (hI : Kept q s) (hdisp : ∀ x0 x1 x2, Kept q x2 → Kept q (disp x0 x1 x2)) : Kept q (frameChecks disp ch s) := by
  unfold frameChecks; repeat' (first | (with_reducible first | assumption | apply inv_frameAnswer | apply inv_frameRun | apply inv_modChan | apply inv_trace | apply inv_winAdd) | ((try lift_lets); intro x; first | (fail_if_success (first | (have : State := x) | fail))) | simp only [inv_upd] | split)
theorem inv_checkArrived (disp : Nat → HostCall → State → State) (n : Nat) {s : State} (hI : Kept q s) (hdisp : ∀ x0 x1 x2, Kept q x2 → Kept q (disp x0 x1 x2)) : Kept q (checkArrived disp n s) := by
  induction n generalizing s with
  | zero => exact hI
  | succ n ih => unfold checkArrived; repeat' (first | (with_reducible first | assumption | apply ih | apply inv_frameChecks | apply inv_modChan) | simp only [inv_upd] | (simp only [inv_mk]; refine ⟨⟨?_, ?_, ?_, ?_, ?_, ?_, ?_, ?_, ?_, ?_⟩, ?_⟩) | (with_reducible first | apply inv_wd | apply inv_units | apply inv_sq | apply inv_otp | apply inv_ks | apply inv_pk | apply inv_ms | apply inv_fl | apply inv_mg | apply inv_q) | exact inv_mb (by assumption) | split | intro _)
theorem inv_hmbMoveDone (disp : Nat → HostCall → State → State) (ch : Nat) {s : State} (hI : Kept q s) (hdisp : ∀ x0 x1 x2, Kept q x2 → Kept q (disp x0 x1 x2)) : Kept q (hmbMoveDone disp ch s) := by
  unfold hmbMoveDone
  dsimp only
  split
  · exact hI
  · exact inv_modChan _ _ hI (fun _ => rfl)
  · split
    · exact inv_modChan _ _ hI (fun _ => rfl)
    · have hy := inv_modChan ch (fun x => { x with move := none, mvDone := true, pend := false, inSram := x.inSram || x.pend })
        (inv_sram ((chanS s ch).addr - 0x10000000) (cellGets 0#8 0 (chanS s ch).dbLen (chanS s ch).cmdBuf) hI) (fun _ => rfl)
      split
      · exact inv_checkArrived _ _ hy hdisp
      · exact hy
theorem inv_genAdvance (ch : Nat) {s : State} (hI : Kept q s) : Kept q (genAdvance ch s) := by
  unfold genAdvance; repeat' (first | (with_reducible first | assumption | apply inv_modChan | apply inv_stageEmpty | apply inv_ite | rfl) | ((try lift_lets); intro x; first | (fail_if_success (first | (have : State := x) | fail))))
theorem inv_resetAfterReply (c : HostCall) (code : Nat) {s : State} (hI : Kept q s) : Kept q (resetAfterReply c code s) := by
  unfold resetAfterReply; repeat' (first | (with_reducible first | assumption | apply inv_modChan | apply inv_softReset | apply inv_ite | rfl) | intro _)
theorem inv_hmbRespond (ch : Nat) (b : Bytes) {s : State} (hI : Kept q s) : Kept q (hmbRespond ch b s) := by
  unfold hmbRespond
  lift_lets; intro c tag obj x
  have hx : Kept q x := inv_modChan _ _ hI (fun _ => rfl)
  clear_value x
  intro y
  have hy : Kept q y := inv_modFn _ _ hx
  clear_value y
  intro z
  have hz : Kept q z := inv_ite (inv_sendVec _ _ hy) hy
  clear_value z
  exact inv_ite (inv_modChan _ _ (inv_genAdvance _ hz) (fun _ => rfl)) hz
theorem inv_jobWinFill (ch : Nat) (b : Bytes) {s : State} (hI : Kept q s) : Kept q (jobWinFill ch b s) := by
  unfold jobWinFill; exact hI
theorem inv_hmbPost (ch : Nat) {s : State} (hI : Kept q s) : Kept q (hmbPost ch s) := by
  unfold hmbPost
  dsimp only
  split
  · exact hI
  · split
    · exact inv_modChan _ _ hI (fun _ => rfl)
    · split
      · refine inv_softReset _ ?_
        split
        · exact inv_modChan _ _ (inv_trace _ _ _ _ (inv_sram _ _ hI)) (fun _ => rfl)
        · exact inv_hmbRespond _ _ (inv_trace _ _ _ _ (inv_sram _ _ hI))
      · split
        · exact inv_modChan _ _ (inv_trace _ _ _ _ (inv_sram _ _ hI)) (fun _ => rfl)
        · exact inv_hmbRespond _ _ (inv_trace _ _ _ _ (inv_sram _ _ hI))
theorem inv_dupRelease (ch : Nat) {s : State} (hI : Kept q s) : Kept q (dupRelease ch s) := by
  unfold dupRelease; repeat' (first | (with_reducible first | assumption | apply inv_modChan | rfl) | split | intro _)
theorem inv_channelResetBody (c : HostCall) {s : State} (hI : Kept q s) : Kept q (channelResetBody c s).s := by
  unfold channelResetBody; repeat' (first | (with_reducible first | assumption | apply inv_cmdFail | apply inv_cmdOk | apply inv_genAdvance | apply inv_modChan | apply inv_sized | apply inv_iteS | rfl) | (intro c s h; have : Kept q s := h) | ((try lift_lets); intro x; first | (fail_if_success (first | (have : State := x) | fail))))
theorem inv_featureOfferBody (c : HostCall) {s : State} (hI : Kept q s) : Kept q (featureOfferBody c s).s := by
  unfold featureOfferBody; repeat' (first | (with_reducible first | assumption | apply inv_cmdOk | apply inv_sized) | (intro c s h; have : Kept q s := h))
theorem inv_featureAcceptBody (c : HostCall) {s : State} (hI : Kept q s) : Kept q (featureAcceptBody c s).s := by
  unfold featureAcceptBody; repeat' (first | (with_reducible first | assumption | apply inv_cmdFail | apply inv_cmdOk | apply inv_extendMode | apply inv_sized | apply inv_iteS) | (intro c s h; have : Kept q s := h) | simp only [inv_upd])
theorem inv_resultRead (c : HostCall) {s : State} (hI : Kept q s) : Kept q (resultRead c s) := by
  unfold resultRead; repeat' (first | (with_reducible first | assumption | apply inv_answer | apply inv_buildRsp | apply inv_modChan | rfl) | ((try lift_lets); intro x; first | (fail_if_success (first | (have : State := x) | fail))) | split)
theorem inv_resultReleaseBody (c : HostCall) {s : State} (hI : Kept q s) : Kept q (resultReleaseBody c s).s := by
  unfold resultReleaseBody; repeat' (first | (with_reducible first | assumption | apply inv_cmdFail | apply inv_cmdOk | apply inv_modChan | apply inv_sized | apply inv_iteS | rfl) | (intro s h; have : Kept q s := h) | ((try lift_lets); intro x; first | (fail_if_success (first | (have : State := x) | fail))))
theorem inv_stagePutBody (c : HostCall) {s : State} (hI : Kept q s) : Kept q (stagePutBody c s).s := by
  unfold stagePutBody
  dsimp only
  split
  · exact hI
  · split
    · exact hI
    · split
      · exact hI
      · split
        · exact inv_set_mg hI (cellPuts_wf _ _ (inv_mg hI))
        · refine inv_set_mb hI ?_
          obtain ⟨h1, h2, h3⟩ := inv_mb hI
          exact ⟨cellPuts_wf _ _ h1, h2, h3⟩
theorem inv_stageClearBody (c : HostCall) {s : State} (hI : Kept q s) : Kept q (stageClearBody c s).s := by
  unfold stageClearBody; repeat' (first | (with_reducible first | assumption | apply inv_cmdFail | apply inv_cmdOk | apply inv_sized | apply inv_stageClearFor | apply inv_iteS) | (intro c s h; have : Kept q s := h))
theorem inv_modeChange (m : Mode) {s : State} (hI : Kept q s) : Kept q (modeChange m s) := by
  unfold modeChange; repeat' (first | (with_reducible first | assumption | apply inv_apEndAll | apply inv_emptyTenantLog | apply inv_extendMode | apply inv_invMark | apply inv_modAst | apply inv_setConf | apply inv_setMode | apply inv_foldl) | (intro s x h; have : Kept q s := h) | simp only [inv_upd])
theorem inv_modeSetBody (c : HostCall) {s : State} (hI : Kept q s) : Kept q (modeSetBody c s).s := by
  unfold modeSetBody; repeat' (first | (with_reducible first | assumption | apply inv_cmdFail | apply inv_cmdOk | apply inv_modeChange | apply inv_sized | apply inv_ite | apply inv_iteS) | (intro c s h; have : Kept q s := h))
theorem inv_apKeyPush (d a : Nat) (outbound : Bool) {s : State} {t : State} (e : apKeyPush d a outbound s = some t) (hI : Kept q s) : Kept q t := by
  unfold apKeyPush at e; dsimp only at e; (repeat' split at e) <;> cases e <;> repeat' (first | (with_reducible first | assumption | apply inv_derive | apply inv_fwKpush | apply inv_zeroSlot) | simp only [inv_upd])
theorem inv_recStErase (d base n : Nat) {s : State} (hI : Kept q s) : Kept q (recStErase d base n s) := by
  unfold recStErase; exact hI
theorem inv_apWrite (d a : Nat) (out : Bool) (tag dbase len rt g : Nat) {s : State} (hI : Kept q s) : Kept q (apWrite d a out tag dbase len rt g s) := by
  unfold apWrite; exact hI
theorem inv_regionOpen (d a : Nat) (out : Bool) (tag dbase len rt g : Nat) {s : State} (hI : Kept q s) : Kept q (regionOpen d a out tag dbase len rt g s) := by
  unfold regionOpen; repeat' (first | (with_reducible first | assumption | apply inv_apWrite | apply inv_modPx | apply inv_ite) | simp only [inv_upd])
theorem inv_regionSetBody (c : HostCall) {s : State} (hI : Kept q s) : Kept q (regionSetBody c s).s := by
  unfold regionSetBody; repeat' (first | (with_reducible first | assumption | apply inv_apEnd | apply inv_cmdFail | apply inv_cmdOk | apply inv_regionOpen | apply inv_sized | apply inv_iteS) | (intro c s h; have : Kept q s := h) | exact inv_apKeyPush _ _ _ (by assumption) (by assumption) | split)
theorem inv_apJobEnd (d a i : Nat) (write : Bool) (st : Nat) {s : State} (hI : Kept q s) : Kept q (apJobEnd d a i write st s) := by
  unfold apJobEnd; repeat' (first | (with_reducible first | assumption | apply inv_jobEnd) | split)
theorem inv_inRec (d a i : Nat) (x : RecIn) {s : State} (hI : Kept q s) : Kept q (inRec d a i x s).1 := by
  unfold inRec; repeat' (first | (with_reducible first | assumption | apply inv_modAp | apply inv_perfAdd | apply inv_setRecSt) | ((try lift_lets); intro x; first | (fail_if_success (first | (have : State := x) | fail))) | split)
theorem inv_spillRec (i : Nat) (x : RecIn) {s : State} (hI : Kept q s) : Kept q (spillRec i x s).1 := by
  unfold spillRec; repeat' (first | (with_reducible first | assumption | apply inv_modAp | apply inv_perfAdd) | simp only [inv_upd] | split)
theorem inv_inboundRec (d a i : Nat) (x : RecIn) {s : State} (hI : Kept q s) : Kept q (inboundRec d a i x s) := by
  unfold inboundRec; repeat' (first | (with_reducible first | assumption | apply inv_apJobEnd | apply inv_inRec | apply inv_spillRec | apply inv_ite) | split)
theorem inv_outboundRec (d a i : Nat) (data : Bytes) {s : State} (hI : Kept q s) : Kept q (outboundRec d a i data s) := by
  unfold outboundRec; repeat' (first | (with_reducible first | assumption | apply inv_apJobEnd | apply inv_outRec | apply inv_ite))
theorem inv_apHostValid (a : Nat) {s : State} (hI : Kept q s) : Kept q (apHostValid a s) := by
  unfold apHostValid; repeat' (first | (with_reducible first | assumption | apply inv_apWrite | apply inv_modAp) | ((try lift_lets); intro x; first | (refine (?_ : Kept q x → _) ?_ ; intro _; (try clear_value x); rotate_left; simp only [x]) | (fail_if_success (first | (have : State := x) | fail))) | exact inv_apKeyPush _ _ _ (by assumption) (by assumption) | split)
theorem inv_apDrop {s : State} (hI : Kept q s) : Kept q (apDrop s) := by
  unfold apDrop; repeat' (first | (with_reducible first | assumption | apply inv_ite) | simp only [inv_upd])
theorem inv_apDescWrite (a off : Nat) (value : Word) {s : State} (hI : Kept q s) : Kept q (apDescWrite a off value s) := by
  unfold apDescWrite; repeat' (first | (with_reducible first | assumption | apply inv_apDrop | apply inv_apEnd | apply inv_apHostValid | apply inv_modAp | apply inv_ite) | simp only [inv_upd])
theorem inv_apQuiesced (d a : Nat) {s : State} (hI : Kept q s) : Kept q (apQuiesced d a s) := by
  unfold apQuiesced; repeat' (first | (with_reducible first | assumption | apply inv_apClose | apply inv_ite))
end Sys2Proof.Machine
end

