-- ==== Sys2Proof/Laws/Inv5.lean ====
section
/-! SUPPORT. What `Kept` says of the operations of Walks, Translate and Jobs. -/

open Sys2Proof.Machine
namespace Sys2Proof.Machine
set_option linter.all false
variable {q : List Instr}
theorem inv_cacheFill (w : Walk) (entries : List Nat) {s : State} (hI : Kept q s) : Kept q (cacheFill w entries s) := by
  unfold cacheFill; repeat' (first | (with_reducible first | assumption | apply inv_ite) | simp only [inv_upd])
theorem inv_frWrite (l : List (Nat × Bytes)) {s : State} {t : State} (e : frWrite l s = some t) (hI : Kept q s) : Kept q t := by
  unfold frWrite at e; dsimp only at e; (repeat' split at e) <;> cases e <;> repeat' (first | (with_reducible first | assumption | apply inv_emit | apply inv_outRec | apply inv_foldl) | (intro s x h; have : Kept q s := h) | simp only [inv_upd])
theorem inv_frFlushN (n : Nat) {s : State} (hI : Kept q s) : Kept q (frFlushN n s) := by
  induction n generalizing s with
  | zero => exact hI
  | succ n ih => unfold frFlushN; repeat' (first | (with_reducible first | assumption | apply ih | apply inv_raiseHost) | exact inv_frWrite _ (by assumption) (by assumption) | simp only [inv_upd] | split)
theorem inv_frFlush {s : State} (hI : Kept q s) : Kept q (frFlush s) := by
  unfold frFlush; repeat' (first | (with_reducible first | assumption | apply inv_frFlushN))
theorem inv_faultClose {s : State} (hI : Kept q s) : Kept q (faultClose s) := by
  unfold faultClose; repeat' (first | (with_reducible first | assumption | apply inv_frFlush | apply inv_trace | apply inv_ite) | simp only [inv_upd])
theorem inv_faultPost (f : FEntry) {s : State} (hI : Kept q s) : Kept q (faultPost f s) := by
  unfold faultPost; repeat' (first | (with_reducible first | assumption | apply inv_faultClose | apply inv_modJob | apply inv_perfAdd | apply inv_ite) | simp only [inv_upd])
theorem inv_withdraw (jid : Nat) {s : State} (hI : Kept q s) : Kept q (withdraw jid s) := by
  unfold withdraw; repeat' (first | (with_reducible first | assumption | apply inv_unitCmd | apply inv_foldl) | (intro s x h; have : Kept q s := h) | split)
theorem inv_parkFault (jid : Nat) (w : Walk) (stale : Bool) {s : State} (hI : Kept q s) : Kept q (parkFault jid w stale s) := by
  unfold parkFault; repeat' (first | (with_reducible first | assumption | apply inv_faultPost | apply inv_modJob | apply inv_withdraw | apply inv_foldl) | (intro s x h; have : Kept q s := h))
theorem inv_residAdd (tag page : Nat) (st : PgState) {s : State} (hI : Kept q s) : Kept q (residAdd tag page st s) := by
  unfold residAdd; repeat' (first | (with_reducible first | assumption | apply inv_modAst | apply inv_ite) | simp only [inv_upd])
theorem inv_unitSend (u op : Nat) (call : Option (HostCall × Nat)) (arg : Nat) {s : State} (hI : Kept q s) : Kept q (unitSend u op call arg s) := by
  unfold unitSend; exact hI
theorem inv_sendEnqueue (jid tiles : Nat) (call : Option (HostCall × Nat)) {s : State} (hI : Kept q s) : Kept q (sendEnqueue jid tiles call s) := by
  unfold sendEnqueue; repeat' (first | (with_reducible first | assumption | apply inv_unitCmd | apply inv_unitSend | apply inv_foldl) | (intro s x h; have : Kept q s := h) | simp only [inv_upd] | split)
theorem inv_jobQueue (jid : Nat) (call : Option (HostCall × Nat)) {s : State} (hI : Kept q s) : Kept q (jobQueue jid call s) := by
  unfold jobQueue; repeat' (first | (with_reducible first | assumption | apply inv_modJob | apply inv_sendEnqueue | apply inv_trace) | simp only [inv_upd] | split)
theorem inv_foldl1 {α β : Type} {f : State × β → α → State × β} {l : List α} {p : State × β} (h : Kept q p.1) (hf : ∀ p x, Kept q p.1 → Kept q (f p x).1) : Kept q (l.foldl f p).1 := by
  induction l generalizing p with
  | nil => exact h
  | cons a l ih => exact ih (hf _ _ h)

theorem inv_migrateOnFault (w : Walk) {s : State} (hI : Kept q s) : Kept q (migrateOnFault w s).1 := by
  unfold migrateOnFault
  refine inv_foldl1 hI (fun p x h => ?_)
  split
  · split
    · exact inv_residAdd _ _ _ h
    · exact h
  · exact h
theorem inv_submitParked (jid : Nat) (c : HostCall) {s : State} (hI : Kept q s) : Kept q (submitParked jid c s) := by
  unfold submitParked; repeat' (first | (with_reducible first | assumption | apply inv_answer) | split)
theorem inv_jobDrop (jid : Nat) {s : State} (hI : Kept q s) : Kept q (jobDrop jid s) := by
  unfold jobDrop; exact hI
theorem inv_submitWalked (jid : Nat) (c : HostCall) (w : Walk) {s : State} (hI : Kept q s) : Kept q (submitWalked jid c w s) := by
  unfold submitWalked; repeat' (first | (with_reducible first | assumption | apply inv_answer | apply inv_jobDrop | apply inv_jobQueue | apply inv_migrateOnFault | apply inv_modJob | apply inv_parkFault | apply inv_submitParked | apply inv_ite) | split)
theorem inv_jobWalked (jid : Nat) (w : Walk) {s : State} (hI : Kept q s) : Kept q (jobWalked jid w s) := by
  unfold jobWalked; repeat' (first | (with_reducible first | assumption | apply inv_jobQueue | apply inv_modJob | apply inv_parkFault | apply inv_withdraw | apply inv_ite) | split)
theorem inv_resumeDone {s : State} (hI : Kept q s) : Kept q (resumeDone s) := by
  unfold resumeDone; repeat' (first | (with_reducible first | assumption | apply inv_answer | apply inv_jobQueue | apply inv_foldl) | (intro s x h; have : Kept q s := h) | simp only [inv_upd] | split)
theorem inv_prefetchWalked (c : HostCall) (w : Walk) {s : State} (hI : Kept q s) : Kept q (prefetchWalked c w s) := by
  unfold prefetchWalked
  refine inv_answer _ _ _ _ _ _ (inv_foldl1 hI (fun p x h => ?_))
  split
  · split
    · exact inv_residAdd _ _ _ h
    · exact h
  · exact h
theorem inv_residDrop (tag page : Nat) {s : State} (hI : Kept q s) : Kept q (residDrop tag page s) := by
  unfold residDrop; exact hI
theorem inv_pageBack (page : Nat) (w : Walk) {s : State} (hI : Kept q s) : Kept q (pageBack page w s) := by
  unfold pageBack; repeat' (first | (with_reducible first | assumption | apply inv_drawBytes | apply inv_emit | apply inv_residDrop) | ((try lift_lets); intro x; first | (refine (?_ : Kept q x → _) ?_ ; intro _; (try clear_value x); rotate_left; simp only [x])) | split)
theorem inv_walkFinish (w : Walk) {s : State} (hI : Kept q s) : Kept q (walkFinish w s) := by
  unfold walkFinish; repeat' (first | (with_reducible first | assumption | apply inv_answer | apply inv_jobWalked | apply inv_pageBack | apply inv_prefetchWalked | apply inv_resumeDone | apply inv_submitWalked) | simp only [inv_upd] | split)
theorem inv_walkPut (w : Walk) {s : State} (hI : Kept q s) : Kept q (walkPut w s) := by
  unfold walkPut; repeat' (first | (with_reducible first | assumption | apply inv_walkFinish | apply inv_ite) | simp only [inv_upd])
theorem inv_walkStart (tag : Nat) (pages : List (Nat × Bool)) (f : WalkFor) {s : State} (hI : Kept q s) : Kept q (walkStart tag pages f s) := by
  unfold walkStart; repeat' (first | (with_reducible first | assumption | apply inv_perfAdd | apply inv_walkPut) | simp only [inv_upd])
theorem inv_jobRewalk (jid : Nat) {s : State} (hI : Kept q s) : Kept q (jobRewalk jid s) := by
  unfold jobRewalk; repeat' (first | (with_reducible first | assumption | apply inv_walkStart) | split)
theorem inv_tableRead (id : Nat) (entries : List Nat) {s : State} (hI : Kept q s) : Kept q (tableRead id entries s) := by
  unfold tableRead; repeat' (first | (with_reducible first | assumption | apply inv_cacheFill | apply inv_walkPut) | split)
theorem inv_walkBudget (id : Nat) {s : State} (hI : Kept q s) : Kept q (walkBudget id s) := by
  unfold walkBudget; repeat' (first | (with_reducible first | assumption | apply inv_submitParked) | simp only [inv_upd] | split)
theorem inv_invAccept (lane : Option Nat) (call : Option (HostCall × Nat)) (tag : Nat) (all : Bool) (page count : Nat) {s : State} (hI : Kept q s) : Kept q (invAccept lane call tag all page count s) := by
  unfold invAccept; repeat' (first | (with_reducible first | assumption | apply inv_invMark | apply inv_jobRewalk | apply inv_foldl) | (intro s x h; have : Kept q s := h) | simp only [inv_upd])
theorem inv_invComplete (id : Nat) {s : State} (hI : Kept q s) : Kept q (invComplete id s) := by
  unfold invComplete; repeat' (first | (with_reducible first | assumption | apply inv_answer | apply inv_modAst | apply inv_trace) | simp only [inv_upd] | split)
theorem inv_invLane (n v : Nat) {s : State} (hI : Kept q s) : Kept q (invLane n v s) := by
  unfold invLane; repeat' (first | (with_reducible first | assumption | apply inv_invAccept | apply inv_ite) | simp only [inv_upd])
theorem inv_frTailWrite (v : Nat) {s : State} (hI : Kept q s) : Kept q (frTailWrite v s) := by
  unfold frTailWrite; repeat' (first | (with_reducible first | assumption | apply inv_frFlush | apply inv_ite) | simp only [inv_upd])
theorem inv_frCtrlWrite (v : Nat) {s : State} (hI : Kept q s) : Kept q (frCtrlWrite v s) := by
  unfold frCtrlWrite; repeat' (first | (with_reducible first | assumption | apply inv_frFlush | apply inv_ite) | simp only [inv_upd])
theorem inv_pageLanded (tag page : Nat) {s : State} (hI : Kept q s) : Kept q (pageLanded tag page s) := by
  unfold pageLanded; repeat' (first | (with_reducible first | assumption | apply inv_drawBytes | apply inv_extWrite | apply inv_jobRewalk | apply inv_modAst | apply inv_foldl | apply inv_ite) | (intro s x h; have : Kept q s := h) | simp only [inv_upd])
theorem inv_pageAbandon (tag page : Nat) {s : State} (hI : Kept q s) : Kept q (pageAbandon tag page s) := by
  unfold pageAbandon; repeat' (first | (with_reducible first | assumption | apply inv_jobRewalk | apply inv_modAst | apply inv_foldl | apply inv_ite) | (intro s x h; have : Kept q s := h) | simp only [inv_upd])
theorem inv_pageRelease (tag page : Nat) {s : State} (hI : Kept q s) : Kept q (pageRelease tag page s) := by
  unfold pageRelease; repeat' (first | (with_reducible first | assumption | apply inv_residDrop | apply inv_walkStart) | split)
theorem inv_astCreateBody (c : HostCall) {s : State} (hI : Kept q s) : Kept q (astCreateBody c s).s := by
  unfold astCreateBody; repeat' (first | (with_reducible first | assumption | apply inv_cmdFail | apply inv_cmdOk | apply inv_sized | apply inv_iteS) | (intro c s h; have : Kept q s := h) | simp only [inv_upd])
theorem inv_astDestroyBody (c : HostCall) {s : State} (hI : Kept q s) : Kept q (astDestroyBody c s).s := by
  unfold astDestroyBody
  refine inv_sized _ _ _ hI (fun c s h => ?_)
  dsimp only
  refine inv_iteS (inv_cmdFail _ _ h) (inv_iteS (inv_cmdOk _ h) ?_)
  refine inv_cmdWait (inv_modAst _ _ (inv_foldl (inv_invAccept _ _ _ _ _ _ (inv_jobsEnd _ _ _ _ h)) (fun s x h => inv_foldl h (fun s x h => ?_))))
  split
  · exact inv_apEnd _ _ h
  · exact h
theorem inv_astInvalidateBody (c : HostCall) {s : State} (hI : Kept q s) : Kept q (astInvalidateBody c s).s := by
  unfold astInvalidateBody; repeat' (first | (with_reducible first | assumption | apply inv_cmdFail | apply inv_cmdWait | apply inv_invAccept | apply inv_sized | apply inv_iteS) | (intro c s h; have : Kept q s := h))
theorem inv_prefetchBody (c : HostCall) {s : State} (hI : Kept q s) : Kept q (prefetchBody c s).s := by
  unfold prefetchBody; repeat' (first | (with_reducible first | assumption | apply inv_cmdFail | apply inv_cmdWait | apply inv_sized | apply inv_walkStart | apply inv_iteS) | (intro c s h; have : Kept q s := h))
theorem inv_adviseBody (c : HostCall) {s : State} (hI : Kept q s) : Kept q (adviseBody c s).s := by
  unfold adviseBody; repeat' (first | (with_reducible first | assumption | apply inv_cmdFail | apply inv_cmdOk | apply inv_extWrite | apply inv_modAst | apply inv_pageRelease | apply inv_residAdd | apply inv_sized | apply inv_foldl | apply inv_iteS) | (intro s x h; have : Kept q s := h) | (intro c s h; have : Kept q s := h) | split)
theorem inv_faultResumeBody (c : HostCall) {s : State} (hI : Kept q s) : Kept q (faultResumeBody c s).s := by
  unfold faultResumeBody; repeat' (first | (with_reducible first | assumption | apply inv_cmdFail | apply inv_cmdOk | apply inv_cmdWait | apply inv_jobRewalk | apply inv_sized | apply inv_unitSend | apply inv_foldl | apply inv_iteS) | (intro s x h; have : Kept q s := h) | (intro c s h; have : Kept q s := h))
theorem inv_mirrorSetBody (c : HostCall) {s : State} (hI : Kept q s) : Kept q (mirrorSetBody c s).s := by
  unfold mirrorSetBody; repeat' (first | (with_reducible first | assumption | apply inv_cmdFail | apply inv_cmdOk | apply inv_modAst | apply inv_sized | apply inv_iteS) | (intro c s h; have : Kept q s := h))
theorem inv_progLoadBody (c : HostCall) {s : State} (hI : Kept q s) : Kept q (progLoadBody c s).s := by
  unfold progLoadBody; repeat' (first | (with_reducible first | assumption | apply inv_cmdFail | apply inv_cmdOk | apply inv_cmdWait | apply inv_sized | apply inv_walkStart | apply inv_iteS) | (intro c s h; have : Kept q s := h) | split)
theorem inv_progArrived (data : Bytes) {s : State} (hI : Kept q s) : Kept q (progArrived data s) := by
  unfold progArrived; repeat' (first | (with_reducible first | assumption | apply inv_answer | apply inv_msRecord | apply inv_unitCmd | apply inv_unitSend | apply inv_foldl) | (intro s x h; have : Kept q s := h) | simp only [inv_upd] | split)
theorem inv_tileInstall (t ph : Nat) {s : State} (hI : Kept q s) : Kept q (tileInstall t ph s) := by
  unfold tileInstall; exact hI
theorem inv_installAcked (t ph : Nat) {s : State} (hI : Kept q s) : Kept q (installAcked t ph s) := by
  unfold installAcked; repeat' (first | (with_reducible first | assumption | apply inv_installEnd | apply inv_takeWaits))
theorem inv_jobSubmitBody (c : HostCall) {s : State} (hI : Kept q s) : Kept q (jobSubmitBody c s).s := by
  unfold jobSubmitBody; repeat' (first | (with_reducible first | assumption | apply inv_cmdFail | apply inv_cmdWait | apply inv_sized | apply inv_walkStart | apply inv_iteS) | (intro c s h; have : Kept q s := h) | simp only [inv_upd] | split)
theorem inv_tileEnqueue (t order jid : Nat) {s : State} (hI : Kept q s) : Kept q (tileEnqueue t order jid s) := by
  unfold tileEnqueue; repeat' (first | (with_reducible first | assumption | apply inv_modTileJ) | split)
theorem inv_enqueueAcked (t jid qpos : Nat) {s : State} (hI : Kept q s) : Kept q (enqueueAcked t jid qpos s) := by
  unfold enqueueAcked; repeat' (first | (with_reducible first | assumption | apply inv_answer | apply inv_takeWaits | apply inv_foldl) | (intro s x h; have : Kept q s := h) | simp only [inv_upd] | split)
theorem inv_jobStart (jid : Nat) {s : State} (hI : Kept q s) : Kept q (jobStart jid s) := by
  unfold jobStart; repeat' (first | (with_reducible first | assumption | apply inv_modAst | apply inv_modJob | apply inv_trace) | simp only [inv_upd] | split)
theorem inv_jobFinal (jid : Nat) (x : JobEnd) {s : State} (hI : Kept q s) : Kept q (jobFinal jid x s) := by
  unfold jobFinal; repeat' (first | (with_reducible first | assumption | apply inv_jobEnd | apply inv_modJob | apply inv_recMake) | split)
theorem inv_laneJob (jid chunk : Nat) (out : Bool) (data : Bytes) {s : State} (hI : Kept q s) : Kept q (laneJob jid chunk out data s) := by
  unfold laneJob; repeat' (first | (with_reducible first | assumption | apply inv_modJob | apply inv_recMake | apply inv_ite) | ((try lift_lets); intro x; first | ((first | (have y : Nat := x) | (have y : Bool := x) | (have y : Bytes := x) | (have y : Option Nat := x) | (have y : List Nat := x)); clear y; clear_value x)) | split)
theorem inv_jobCancelBody (c : HostCall) {s : State} (hI : Kept q s) : Kept q (jobCancelBody c s).s := by
  unfold jobCancelBody; repeat' (first | (with_reducible first | assumption | apply inv_cmdOk | apply inv_cmdWait | apply inv_jobEnd | apply inv_sized | apply inv_unitCmd | apply inv_unitSend) | (intro c s h; have : Kept q s := h) | ((try lift_lets); intro x; first | ((first | (have y : Nat := x) | (have y : Bool := x) | (have y : Bytes := x) | (have y : Option Nat := x) | (have y : List Nat := x)); clear y; clear_value x)) | split)
theorem inv_tileAbort (t jid reason : Nat) {s : State} (hI : Kept q s) : Kept q (tileAbort t jid reason s) := by
  unfold tileAbort; repeat' (first | (with_reducible first | assumption | apply inv_jobEnd | apply inv_modTileJ) | split)
theorem inv_abortAcked (t jid code : Nat) {s : State} (hI : Kept q s) : Kept q (abortAcked t jid code s) := by
  unfold abortAcked; repeat' (first | (with_reducible first | assumption | apply inv_answer | apply inv_takeWaits | apply inv_foldl) | (intro s x h; have : Kept q s := h) | split)
theorem inv_jobStatusBody (c : HostCall) {s : State} (hI : Kept q s) : Kept q (jobStatusBody c s).s := by
  unfold jobStatusBody; repeat' (first | (with_reducible first | assumption | apply inv_cmdOk | apply inv_sized) | (intro c s h; have : Kept q s := h) | ((try lift_lets); intro x; first | ((first | (have y : Nat := x) | (have y : Bool := x) | (have y : Bytes := x) | (have y : Option Nat := x) | (have y : List Nat := x)); clear y; clear_value x)) | split)
theorem inv_rcptFlushBody (c : HostCall) {s : State} (hI : Kept q s) : Kept q (rcptFlushBody c s).s := by
  unfold rcptFlushBody; repeat' (first | (with_reducible first | assumption | apply inv_closeBatch | apply inv_closeDue | apply inv_cmdOk | apply inv_cmdWait | apply inv_sized | apply inv_unitSend) | (intro c s h; have : Kept q s := h) | split)
theorem inv_tileEnter (t epoch : Nat) {s : State} (hI : Kept q s) : Kept q (tileEnter t epoch s) := by
  unfold tileEnter; exact hI
theorem inv_tileEnterSend (t : Nat) {s : State} (hI : Kept q s) : Kept q (tileEnterSend t s) := by
  unfold tileEnterSend; repeat' (first | (with_reducible first | assumption | apply inv_trace | apply inv_unitCmd | apply inv_ite))
theorem inv_enterAcked (t : Nat) {s : State} (hI : Kept q s) : Kept q (enterAcked t s) := by
  unfold enterAcked; repeat' (first | (with_reducible first | assumption | apply inv_unitCmd | apply inv_ite))
theorem inv_restoreTile (t : Nat) {s : State} (hI : Kept q s) : Kept q (restoreTile t s) := by
  unfold restoreTile; repeat' (first | (with_reducible first | assumption | apply inv_tileEnterSend | apply inv_trace | apply inv_unitCmd | apply inv_foldl | apply inv_ite) | (intro s x h; have : Kept q s := h) | split)
theorem inv_tileSelftest (t : Nat) (pass : Bool) {s : State} (hI : Kept q s) : Kept q (tileSelftest t pass s) := by
  unfold tileSelftest; repeat' (first | (with_reducible first | assumption | apply inv_loadFail | apply inv_modTileJ | apply inv_unitFail | apply inv_ite) | simp only [inv_upd])
theorem inv_progCopy (target ph : Nat) (good : Bool) {s : State} (hI : Kept q s) : Kept q (progCopy target ph good s) := by
  unfold progCopy; repeat' (first | (with_reducible first | assumption | apply inv_modTileJ | apply inv_unitFail | apply inv_ite))
theorem inv_residueFail (t jid step : Nat) {s : State} (hI : Kept q s) : Kept q (residueFail t jid step s) := by
  unfold residueFail; repeat' (first | (with_reducible first | assumption | apply inv_jobEnd | apply inv_logEvent | apply inv_modJob | apply inv_modTileJ | apply inv_perfAdd | apply inv_ite) | split)
theorem inv_residueAlarm (t : Nat) {s : State} (hI : Kept q s) : Kept q (residueAlarm t s) := by
  unfold residueAlarm; repeat' (first | (with_reducible first | assumption | apply inv_modTileJ | apply inv_setNotice | apply inv_unitCrash | apply inv_ite))
theorem inv_eccUe (t region line : Nat) (job handle : Option Nat) {s : State} (hI : Kept q s) : Kept q (eccUe t region line job handle s) := by
  unfold eccUe; repeat' (first | (with_reducible first | assumption | apply inv_jobEnd | apply inv_logEvent | apply inv_modTileJ | apply inv_wpkFail) | ((try lift_lets); intro x; first | (refine (?_ : Kept q x → _) ?_ ; intro _; (try clear_value x); rotate_left; simp only [x])) | split)
theorem inv_dmaStart (d stream jid : Nat) {s : State} (hI : Kept q s) : Kept q (dmaStart d stream jid s) := by
  unfold dmaStart; repeat' (first | (with_reducible first | assumption | apply inv_jobEnd | apply inv_modPx) | split)
theorem inv_ringRoom (tag ctail : Nat) {s : State} (hI : Kept q s) : Kept q (ringRoom tag ctail s) := by
  unfold ringRoom; repeat' (first | (with_reducible first | assumption | apply inv_modAst | apply inv_ringFlush) | split)
theorem inv_quantGrid {s : State} (hI : Kept q s) : Kept q (quantGrid s) := by
  unfold quantGrid; repeat' (first | (with_reducible first | assumption | apply inv_ringFlush | apply inv_foldl | apply inv_ite) | (intro s x h; have : Kept q s := h) | simp only [inv_upd])
end Sys2Proof.Machine
end

