-- ==== Sys2Proof/Laws/Inv6.lean ====
section
/-! SUPPORT. What `Kept` says of the operations of Weights, Attest and TenantOps. -/

open Sys2Proof.Machine
namespace Sys2Proof.Machine
set_option linter.all false
variable {q : List Instr}
theorem inv_spillSetup (tag pages short srcva pkglen : Nat) {s : State} (hI : Kept q s) : Kept q (spillSetup tag pages short srcva pkglen s) := by
  unfold spillSetup; repeat' (first | (with_reducible first | assumption | apply inv_apWrite | apply inv_derive | apply inv_fwKpush | apply inv_zeroSlot) | simp only [inv_upd])
theorem inv_wpkOpenBody (c : HostCall) {s : State} (hI : Kept q s) : Kept q (wpkOpenBody c s).s := by
  unfold wpkOpenBody; repeat' (first | (with_reducible first | assumption | apply inv_cmdFail | apply inv_cmdOk | apply inv_spillSetup | apply inv_staged) | (intro s h; have : Kept q s := h) | ((try lift_lets); intro x; first | (fail_if_success (first | (have : State := x) | fail))) | simp only [inv_upd] | split)
theorem inv_wpkLoadBody (c : HostCall) {s : State} (hI : Kept q s) : Kept q (wpkLoadBody c s).s := by
  unfold wpkLoadBody; repeat' (first | (with_reducible first | assumption | apply inv_cmdFail | apply inv_cmdOk | apply inv_cmdWait | apply inv_sized) | (intro c s h; have : Kept q s := h) | simp only [inv_upd] | split)
theorem inv_spillOut (w : Wpk) (i : Nat) (pt : Bytes) {s : State} (hI : Kept q s) : Kept q (spillOut w i pt s) := by
  unfold spillOut; repeat' (first | (with_reducible first | assumption | apply inv_outRec | apply inv_foldl) | (intro s x h; have : Kept q s := h))
theorem inv_wpkPage (x : PageIn) {s : State} (hI : Kept q s) : Kept q (wpkPage x s) := by
  unfold wpkPage; repeat' (first | (with_reducible first | assumption | apply inv_contentKeyEnd | apply inv_extWrite | apply inv_loadEnd | apply inv_modWpk | apply inv_spillOut) | simp only [inv_upd] | split)
theorem inv_wpkFinishBody (c : HostCall) {s : State} (hI : Kept q s) : Kept q (wpkFinishBody c s).s := by
  unfold wpkFinishBody; repeat' (first | (with_reducible first | assumption | apply inv_cmdFail | apply inv_cmdOk | apply inv_contentKeyEnd | apply inv_modWpk | apply inv_msRecord | apply inv_sized | apply inv_iteS) | (intro c s h; have : Kept q s := h) | ((try lift_lets); intro x; first | ((first | (have y : Nat := x) | (have y : Bool := x) | (have y : Bytes := x) | (have y : Option Nat := x) | (have y : List Nat := x)); clear y; clear_value x)) | split)
theorem inv_wpkStatusBody (c : HostCall) {s : State} (hI : Kept q s) : Kept q (wpkStatusBody c s).s := by
  unfold wpkStatusBody; repeat' (first | (with_reducible first | assumption | apply inv_cmdFail | apply inv_cmdOk | apply inv_sized) | (intro c s h; have : Kept q s := h) | split)
theorem inv_wpkCloseBody (c : HostCall) {s : State} (hI : Kept q s) : Kept q (wpkCloseBody c s).s := by
  unfold wpkCloseBody; repeat' (first | (with_reducible first | assumption | apply inv_cmdFail | apply inv_cmdOk | apply inv_contentKeyEnd | apply inv_loadEnd | apply inv_modWpk | apply inv_sized) | (intro c s h; have : Kept q s := h) | simp only [inv_upd] | split)
theorem inv_keyReleaseBody (c : HostCall) {s : State} (hI : Kept q s) : Kept q (keyReleaseBody c s).s := by
  unfold keyReleaseBody; repeat' (first | (with_reducible first | assumption | apply inv_cmdFail | apply inv_cmdWait | apply inv_pqAdd | apply inv_sized) | (intro c s h; have : Kept q s := h) | ((try lift_lets); intro x; first | ((first | (have y : Nat := x) | (have y : Bool := x) | (have y : Bytes := x) | (have y : Option Nat := x) | (have y : List Nat := x)); clear y; clear_value x)) | split)
theorem inv_keyReleaseSetBody (c : HostCall) {s : State} (hI : Kept q s) : Kept q (keyReleaseSetBody c s).s := by
  unfold keyReleaseSetBody; repeat' (first | (with_reducible first | assumption | apply inv_cmdFail | apply inv_cmdWait | apply inv_pqAdd | apply inv_staged) | (intro s h; have : Kept q s := h) | ((try lift_lets); intro x; first | (fail_if_success (first | (have : State := x) | fail))) | simp only [inv_upd] | split)
theorem inv_setAuthDone (c : HostCall) (word h : Nat) (b : Bytes) (e : Nat) (ok : Bool) {s : State} (hI : Kept q s) : Kept q (setAuthDone c word h b e ok s) := by
  unfold setAuthDone; repeat' (first | (with_reducible first | assumption | apply inv_answer | apply inv_pqAdd) | split)
theorem inv_releaseDone (c : HostCall) (word h e : Nat) (t wkey : Bytes) (set : Bool) (mdig : Bytes) (entries : List Bytes) {s : State} (hI : Kept q s) : Kept q (releaseDone c word h e t wkey set mdig entries s) := by
  unfold releaseDone; repeat' (first | (with_reducible first | assumption | apply inv_answer | apply inv_commitSlot | apply inv_fwKpush | apply inv_modWpk | apply inv_msRecord | apply inv_zeroSlot | apply inv_zeroSlots) | simp only [inv_upd] | split)
theorem inv_tagFailure (t addr : Nat) (onDie : Bool) {s : State} (hI : Kept q s) : Kept q (tagFailure t addr onDie s) := by
  unfold tagFailure; repeat' (first | (with_reducible first | assumption | apply inv_logEvent | apply inv_modMc | apply inv_quarantine | apply inv_setAlarm | apply inv_ite))
theorem inv_stackLine (t line : Nat) (write : Option Bytes) {s : State} (hI : Kept q s) : Kept q (stackLine t line write s) := by
  unfold stackLine; repeat' (first | (with_reducible first | assumption | apply inv_linePut | apply inv_logEvent | apply inv_modMc | apply inv_quarantine | apply inv_setAlarm | apply inv_ite) | split)
theorem inv_stackTemp (t temp : Nat) {s : State} (hI : Kept q s) : Kept q (stackTemp t temp s) := by
  unfold stackTemp; repeat' (first | (with_reducible first | assumption | apply inv_modMc | apply inv_setNotice | apply inv_ite) | simp only [inv_upd])
theorem inv_spillRead (page jid : Nat) {s : State} (hI : Kept q s) : Kept q (spillRead page jid s) := by
  unfold spillRead; repeat' (first | (with_reducible first | assumption | apply inv_modJob | apply inv_perfAdd) | simp only [inv_upd] | split)
theorem inv_spillFetched (page : Nat) (ok : Bool) {s : State} (hI : Kept q s) : Kept q (spillFetched page ok s) := by
  unfold spillFetched; repeat' (first | (with_reducible first | assumption | apply inv_jobsEnd | apply inv_modAp | apply inv_modJob | apply inv_foldl | apply inv_ite) | (intro s x h; have : Kept q s := h) | simp only [inv_upd])
theorem inv_laneResult (dest : LaneDest) (chunk : Nat) (data : Bytes) {s : State} (hI : Kept q s) : Kept q (laneResult dest chunk data s) := by
  unfold laneResult; repeat' (first | (with_reducible first | assumption | apply inv_laneJob | apply inv_progArrived) | split)
theorem inv_attReportBody (c : HostCall) {s : State} (hI : Kept q s) : Kept q (attReportBody c s).s := by
  unfold attReportBody; repeat' (first | (with_reducible first | assumption | apply inv_cmdFail | apply inv_cmdOk | apply inv_cmdWait | apply inv_pqAdd | apply inv_sized | apply inv_iteS) | (intro c s h; have : Kept q s := h) | simp only [inv_upd])
theorem inv_reportDone (c : HostCall) (word serial form : Nat) (pq : Bool) (payload : Bytes) (b : Option Bind) (e : Nat) (ec ml : Bytes) {s : State} (hI : Kept q s) : Kept q (reportDone c word serial form pq payload b e ec ml s) := by
  unfold reportDone; repeat' (first | (with_reducible first | assumption | apply inv_answer) | simp only [inv_upd] | split)
theorem inv_attCertsBody (c : HostCall) {s : State} (hI : Kept q s) : Kept q (attCertsBody c s).s := by
  unfold attCertsBody; repeat' (first | (with_reducible first | assumption | apply inv_cmdFail | apply inv_cmdOk | apply inv_sized | apply inv_iteS) | (intro c s h; have : Kept q s := h) | split)
theorem inv_attMeasLogBody (c : HostCall) {s : State} (hI : Kept q s) : Kept q (attMeasLogBody c s).s := by
  unfold attMeasLogBody; repeat' (first | (with_reducible first | assumption | apply inv_cmdFail | apply inv_cmdOk | apply inv_sized | apply inv_iteS) | (intro c s h; have : Kept q s := h))
theorem inv_attEphemeralBody (c : HostCall) {s : State} (hI : Kept q s) : Kept q (attEphemeralBody c s).s := by
  unfold attEphemeralBody; repeat' (first | (with_reducible first | assumption | apply inv_cmdFail | apply inv_cmdOk | apply inv_cmdWait | apply inv_commitSlot | apply inv_drawBytes | apply inv_pqAdd | apply inv_sized | apply inv_ite) | (intro c s h; have : Kept q s := h) | split)
theorem inv_ephemeralDone (c : HostCall) (word : Nat) (ek : Bytes) (e : Nat) (r : Bytes) {s : State} (hI : Kept q s) : Kept q (ephemeralDone c word ek e r s) := by
  unfold ephemeralDone; repeat' (first | (with_reducible first | assumption | apply inv_answer | apply inv_pqAdd | apply inv_zeroSlots) | simp only [inv_upd] | split)
theorem inv_flashSync (f : FSync) {s : State} (hI : Kept q s) : Kept q (flashSync f s) := by
  unfold flashSync; exact hI
theorem inv_tenantEnrollBody (c : HostCall) {s : State} (hI : Kept q s) : Kept q (tenantEnrollBody c s).s := by
  unfold tenantEnrollBody; repeat' (first | (with_reducible first | assumption | apply inv_cmdFail | apply inv_cmdWait | apply inv_pqAdd | apply inv_staged) | (intro s x h; have : Kept q s := h) | ((try lift_lets); intro x; first | (fail_if_success (first | (have : State := x) | fail))) | split)
theorem inv_enrollDone (c : HostCall) (word : Nat) (r : TRec) (e : Nat) (ok : Bool) {s : State} (hI : Kept q s) : Kept q (enrollDone c word r e ok s) := by
  unfold enrollDone; repeat' (first | (with_reducible first | assumption | apply inv_answer | apply inv_flashSync | apply inv_ite))
theorem inv_tenantRevokeBody (c : HostCall) {s : State} (hI : Kept q s) : Kept q (tenantRevokeBody c s).s := by
  unfold tenantRevokeBody; repeat' (first | (with_reducible first | assumption | apply inv_cmdFail | apply inv_cmdOk | apply inv_cmdWait | apply inv_pqAdd | apply inv_staged) | (intro s x h; have : Kept q s := h) | ((try lift_lets); intro x; first | (fail_if_success (first | (have : State := x) | fail))) | split)
theorem inv_revokeDone (c : HostCall) (word i : Nat) (same : Bool) (e : Nat) (ok : Bool) {s : State} (hI : Kept q s) : Kept q (revokeDone c word i same e ok s) := by
  unfold revokeDone; repeat' (first | (with_reducible first | assumption | apply inv_answer | apply inv_flashSync | apply inv_ite))
theorem inv_tenantStageBody (c : HostCall) {s : State} (hI : Kept q s) : Kept q (tenantStageBody c s).s := by
  unfold tenantStageBody; repeat' (first | (with_reducible first | assumption | apply inv_cmdFail | apply inv_cmdOk | apply inv_cmdWait | apply inv_flashSync | apply inv_sized) | (intro c s h; have : Kept q s := h) | split)
theorem inv_recordSync (c : HostCall) (op word i : Nat) (ok : Bool) (done : State → State) {s : State} (hI : Kept q s) (hdone : ∀ x0, Kept q x0 → Kept q (done x0)) : Kept q (recordSync c op word i ok done s) := by
  unfold recordSync; repeat' (first | (with_reducible first | assumption | apply inv_answer | apply inv_sealFail | apply inv_sealedOk | apply hdone | apply inv_ite))
theorem inv_recSet (i : Nat) (st : RState) {s : State} (hI : Kept q s) : Kept q (recSet i st s) := by
  unfold recSet; repeat' (first | (with_reducible first | assumption | apply inv_modRec | apply inv_recCommit) | ((try lift_lets); intro x; first | (refine (?_ : Kept q x → _) ?_ ; intro _; (try clear_value x); rotate_left; simp only [x])) | split)
theorem inv_rosterSync (f : FSync) (ok : Bool) {s : State} (hI : Kept q s) : Kept q (rosterSync f ok s) := by
  unfold rosterSync; repeat' (first | (with_reducible first | assumption | apply inv_answer | apply inv_bindsMove | apply inv_recCommit | apply inv_recSet | apply inv_recordSync | apply inv_startSwitch) | (intro s h; have : Kept q s := h) | simp only [inv_upd] | split)
theorem inv_loadStart (i : Nat) {s : State} (hI : Kept q s) : Kept q (loadStart i s) := by
  unfold loadStart; repeat' (first | (with_reducible first | apply inv_setState | apply inv_unitCmd | apply inv_foldl) | (intro s x h; have : Kept q s := h) | ((try lift_lets); intro x; first | (refine (?_ : MbOk x → _) (inv_mb (q := q) ?_); intro _; clear_value x)) | (simp only [inv_mk]; refine ⟨⟨?_, ?_, ?_, ?_, ?_, ?_, ?_, ?_, ?_, ?_⟩, ?_⟩) | (with_reducible first | apply inv_wd | apply inv_units | apply inv_sq | apply inv_otp | apply inv_ks | apply inv_pk | apply inv_ms | apply inv_fl | apply inv_mg | apply inv_q) | assumption)
theorem inv_tenantLoadBody (c : HostCall) {s : State} (hI : Kept q s) : Kept q (tenantLoadBody c s).s := by
  unfold tenantLoadBody; repeat' (first | (with_reducible first | assumption | apply inv_cmdFail | apply inv_loadStart | apply inv_sized) | (intro c s h; have : Kept q s := h) | split)
theorem inv_loadKeys {s : State} (hI : Kept q s) : Kept q (loadKeys s) := by
  unfold loadKeys; repeat' (first | (with_reducible first | assumption | apply inv_bindsMove | apply inv_derive | apply inv_fwKpush | apply inv_loadFail | apply inv_modRec | apply inv_msExtend | apply inv_msRecord | apply inv_recQueue | apply inv_unitCmd | apply inv_foldl) | (intro s x h; have : Kept q s := h) | simp only [inv_upd] | split)
theorem inv_loadAck (u : Nat) {s : State} (hI : Kept q s) : Kept q (loadAck u s) := by
  unfold loadAck; repeat' (first | (with_reducible first | assumption | apply inv_loadKeys | apply inv_ite) | simp only [inv_upd])
theorem inv_loadTimeout {s : State} (hI : Kept q s) : Kept q (loadTimeout s) := by
  unfold loadTimeout; repeat' (first | (with_reducible first | assumption | apply inv_loadFail) | split)
theorem inv_loadPass {s : State} (hI : Kept q s) : Kept q (loadPass s) := by
  unfold loadPass; repeat' (first | (with_reducible first | assumption | apply inv_setState | apply inv_ite) | simp only [inv_upd])
theorem inv_tenantEvictBody (c : HostCall) {s : State} (hI : Kept q s) : Kept q (tenantEvictBody c s).s := by
  unfold tenantEvictBody; repeat' (first | (with_reducible first | assumption | apply inv_cmdFail | apply inv_sized | apply inv_startSwitch) | (intro c s h; have : Kept q s := h) | split)
theorem inv_tenantStatusBody (c : HostCall) {s : State} (hI : Kept q s) : Kept q (tenantStatusBody c s).s := by
  unfold tenantStatusBody; repeat' (first | (with_reducible first | assumption | apply inv_cmdFail | apply inv_cmdOk | apply inv_sized) | (intro c s h; have : Kept q s := h) | ((try lift_lets); intro x; first | ((first | (have y : Nat := x) | (have y : Bool := x) | (have y : Bytes := x) | (have y : Option Nat := x) | (have y : List Nat := x)); clear y; clear_value x)) | split)
theorem inv_tenantListBody (c : HostCall) {s : State} (hI : Kept q s) : Kept q (tenantListBody c s).s := by
  unfold tenantListBody; repeat' (first | (with_reducible first | assumption | apply inv_cmdFail | apply inv_cmdOk | apply inv_sized | apply inv_iteS) | (intro c s h; have : Kept q s := h))
theorem inv_tenantReceiptBody (c : HostCall) {s : State} (hI : Kept q s) : Kept q (tenantReceiptBody c s).s := by
  unfold tenantReceiptBody; repeat' (first | (with_reducible first | assumption | apply inv_cmdFail | apply inv_cmdOk | apply inv_sized) | (intro s x h; have : Kept q s := h) | ((try lift_lets); intro x; first | (fail_if_success (first | (have : State := x) | fail))) | split)
theorem inv_portEnter (u epoch : Nat) {s : State} (hI : Kept q s) : Kept q (portEnter u epoch s) := by
  unfold portEnter; repeat' (first | (with_reducible first | assumption | apply inv_modPx | apply inv_ite))
end Sys2Proof.Machine
end

