-- ==== Sys2Proof/Laws/Inv7.lean ====
section
/-! SUPPORT. What `Kept` says of the operations of Links, Power and Units. -/

open Sys2Proof.Machine
namespace Sys2Proof.Machine
set_option linter.all false
variable {q : List Instr}
theorem inv_setLState (u p : Nat) (x : LState) {s : State} (hI : Kept q s) : Kept q (setLState u p x s) := by
  unfold setLState; repeat' (first | (with_reducible first | assumption | apply inv_modLport | apply inv_traceLink))
theorem inv_trainStart (u p : Nat) {s : State} (hI : Kept q s) : Kept q (trainStart u p s) := by
  unfold trainStart; repeat' (first | (with_reducible first | assumption | apply inv_modLport | apply inv_setLState))
theorem inv_routesSet {s : State} (hI : Kept q s) : Kept q (routesSet s) := by
  unfold routesSet; repeat' (first | with_reducible assumption | simp only [inv_upd] | split)
theorem inv_daddrSet (a : Nat) {s : State} (hI : Kept q s) : Kept q (daddrSet a s) := by
  unfold daddrSet; repeat' (first | (with_reducible first | assumption | apply inv_logEvent | apply inv_routesSet) | simp only [inv_upd] | split)
theorem inv_portDrop (d p : Nat) {s : State} (hI : Kept q s) : Kept q (portDrop d p s) := by
  unfold portDrop; repeat' (first | (with_reducible first | assumption | apply inv_jobsEnd | apply inv_modLport) | simp only [inv_upd])
theorem inv_mapOut (u p : Nat) {s : State} (hI : Kept q s) : Kept q (mapOut u p s) := by
  unfold mapOut; repeat' (first | (with_reducible first | assumption | apply inv_portDrop | apply inv_routesSet | apply inv_setLState | apply inv_ite))
theorem inv_mapOutSeen (u p cause : Nat) {s : State} (hI : Kept q s) : Kept q (mapOutSeen u p cause s) := by
  unfold mapOutSeen; repeat' (first | (with_reducible first | assumption | apply inv_fqAdd | apply inv_logEvent | apply inv_ite) | simp only [inv_upd])
theorem inv_linkSignal (u p : Nat) {s : State} (hI : Kept q s) : Kept q (linkSignal u p s) := by
  unfold linkSignal; repeat' (first | (with_reducible first | assumption | apply inv_trainStart | apply inv_ite))
theorem inv_linkHello (u p daddr : Nat) (ntag : Bytes) {s : State} (hI : Kept q s) : Kept q (linkHello u p daddr ntag s) := by
  unfold linkHello; repeat' (first | (with_reducible first | assumption | apply inv_logEvent | apply inv_modLport | apply inv_routesSet | apply inv_setLState) | simp only [inv_upd] | split)
theorem inv_linkTrainFail (u p : Nat) {s : State} (hI : Kept q s) : Kept q (linkTrainFail u p s) := by
  unfold linkTrainFail; repeat' (first | (with_reducible first | assumption | apply inv_mapOut | apply inv_modLport | apply inv_ite))
theorem inv_linkLost (u p : Nat) {s : State} (hI : Kept q s) : Kept q (linkLost u p s) := by
  unfold linkLost; repeat' (first | (with_reducible first | assumption | apply inv_modLport | apply inv_traceLink | apply inv_ite))
theorem inv_linkHoldEnd (u p : Nat) {s : State} (hI : Kept q s) : Kept q (linkHoldEnd u p s) := by
  unfold linkHoldEnd; repeat' (first | (with_reducible first | assumption | apply inv_portDrop | apply inv_ite))
theorem inv_flowPort (key mask : Nat) {s : State} (hI : Kept q s) : Kept q (flowPort key mask s).2 := by
  unfold flowPort; repeat' (first | with_reducible assumption | simp only [inv_upd] | split)
theorem inv_flitSend (b : Nat) (head payload : Bytes) (job : Option Nat) {s : State} (hI : Kept q s) : Kept q (flitSend b head payload job s) := by
  unfold flitSend; exact hI
theorem inv_noRoute (d n : Nat) {s : State} (hI : Kept q s) : Kept q (noRoute d n s) := by
  unfold noRoute; exact hI
theorem inv_plainDrop (d : Nat) {s : State} (hI : Kept q s) : Kept q (plainDrop d s) := by
  unfold plainDrop; exact hI
theorem inv_modLke (n : Nat) (f : LKey → LKey) {s : State} (hI : Kept q s) : Kept q (modLke n f s) := by
  unfold modLke; exact hI
theorem inv_msgSend (d key daddr job : Nat) (msg : Bytes) {s : State} (hI : Kept q s) : Kept q (msgSend d key daddr job msg s) := by
  unfold msgSend; repeat' (first | (with_reducible first | assumption | apply inv_flitSend | apply inv_flowPort | apply inv_noRoute | apply inv_foldl) | (intro s x h; have : Kept q s := h) | ((try lift_lets); intro x; first | (fail_if_success (first | (have : State := x) | fail))) | split)
theorem inv_linkSend (x : SendIn) {s : State} (hI : Kept q s) : Kept q (linkSend x s) := by
  unfold linkSend; repeat' (first | (with_reducible first | assumption | apply inv_modLke | apply inv_msgSend | apply inv_plainDrop) | ((try lift_lets); intro x; first | (fail_if_success (first | (have : State := x) | fail))) | split)
theorem inv_msgRecv (u key : Nat) (m : Bytes) {s : State} (hI : Kept q s) : Kept q (msgRecv u key m s) := by
  unfold msgRecv; repeat' (first | (with_reducible first | assumption | apply inv_jobEnd | apply inv_modLke | apply inv_plainDrop) | simp only [inv_upd] | split)
theorem inv_flitRecv (u p : Nat) (f : Bytes) {s : State} (hI : Kept q s) : Kept q (flitRecv u p f s) := by
  unfold flitRecv; repeat' (first | (with_reducible first | assumption | apply inv_flitSend | apply inv_flowPort | apply inv_modLport | apply inv_msgRecv | apply inv_noRoute | apply inv_ite) | ((try lift_lets); intro x; first | (refine (?_ : Kept q x.2 → _) ?_ ; intro _; (try clear_value x); rotate_left; simp only [x])) | split)
theorem inv_ackTimeout (u p : Nat) {s : State} (hI : Kept q s) : Kept q (ackTimeout u p s) := by
  unfold ackTimeout; repeat' (first | (with_reducible first | assumption | apply inv_mapOut | apply inv_modLport | apply inv_ite))
theorem inv_linkDegrade (u p : Nat) {s : State} (hI : Kept q s) : Kept q (linkDegrade u p s) := by
  unfold linkDegrade; repeat' (first | (with_reducible first | assumption | apply inv_setLState | apply inv_ite))
theorem inv_linkRecover (u p : Nat) {s : State} (hI : Kept q s) : Kept q (linkRecover u p s) := by
  unfold linkRecover; repeat' (first | (with_reducible first | assumption | apply inv_setLState | apply inv_ite))
theorem inv_linkRetrain (u p : Nat) {s : State} (hI : Kept q s) : Kept q (linkRetrain u p s) := by
  unfold linkRetrain; repeat' (first | (with_reducible first | assumption | apply inv_modLport | apply inv_trainStart | apply inv_ite))
theorem inv_linkCfg (u p : Nat) (b : Bytes) {s : State} (hI : Kept q s) : Kept q (linkCfg u p b s) := by
  unfold linkCfg; repeat' (first | (with_reducible first | assumption | apply inv_modLport | apply inv_ite))
theorem inv_cfgAcked (u p : Nat) (b : Bytes) {s : State} (hI : Kept q s) : Kept q (cfgAcked u p b s) := by
  unfold cfgAcked; repeat' (first | (with_reducible first | assumption | apply inv_answer | apply inv_foldl) | (intro s x h; have : Kept q s := h) | simp only [inv_upd] | split)
theorem inv_cfgSend (u p : Nat) (b : Bytes) {s : State} (hI : Kept q s) : Kept q (cfgSend u p b s) := by
  unfold cfgSend; repeat' (first | (with_reducible first | assumption | apply inv_unitCmd))
theorem inv_restorePort (u : Nat) {s : State} (hI : Kept q s) : Kept q (restorePort u s) := by
  unfold restorePort; repeat' (first | (with_reducible first | assumption | apply inv_cfgSend | apply inv_trace | apply inv_unitCmd | apply inv_foldl) | (intro s x h; have : Kept q s := h))
theorem inv_linkTrain (u mask : Nat) {s : State} (hI : Kept q s) : Kept q (linkTrain u mask s) := by
  unfold linkTrain; repeat' (first | (with_reducible first | assumption | apply inv_trainStart | apply inv_foldl | apply inv_ite) | (intro s x h; have : Kept q s := h))
theorem inv_linkStatusBody (c : HostCall) {s : State} (hI : Kept q s) : Kept q (linkStatusBody c s).s := by
  unfold linkStatusBody; repeat' (first | (with_reducible first | assumption | apply inv_cmdFail | apply inv_cmdWait | apply inv_sized | apply inv_unitCmd | apply inv_unitSend | apply inv_iteS) | (intro c s h; have : Kept q s := h))
theorem inv_linkJobEndBody (c : HostCall) {s : State} (hI : Kept q s) : Kept q (linkJobEndBody c s).s := by
  unfold linkJobEndBody; repeat' (first | (with_reducible first | assumption | apply inv_cmdOk | apply inv_linkJobEnd | apply inv_sized) | (intro c s h; have : Kept q s := h))
theorem inv_linkBoundsBody (c : HostCall) {s : State} (hI : Kept q s) : Kept q (linkBoundsBody c s).s := by
  unfold linkBoundsBody; repeat' (first | (with_reducible first | assumption | apply inv_cfgSend | apply inv_cmdFail | apply inv_cmdWait | apply inv_sized | apply inv_unitSend | apply inv_foldl | apply inv_iteS) | (intro s x h; have : Kept q s := h) | (intro c s h; have : Kept q s := h))
theorem inv_linkKeyxBody (c : HostCall) {s : State} (hI : Kept q s) : Kept q (linkKeyxBody c s).s := by
  unfold linkKeyxBody; repeat' (first | (with_reducible first | assumption | apply inv_cmdFail | apply inv_cmdWait | apply inv_pqAdd | apply inv_staged | apply inv_iteS) | (intro s h; have : Kept q s := h) | ((try lift_lets); intro x; first | (fail_if_success (first | (have : State := x) | fail))) | simp only [inv_upd] | split)
theorem inv_keyxInstall (p : KeyxPend) (swap : Bool) {s : State} (hI : Kept q s) : Kept q (keyxInstall p swap s) := by
  unfold keyxInstall; repeat' (first | (with_reducible first | assumption | apply inv_fwKpush | apply inv_modLke | apply inv_msRecord | apply inv_foldl | apply inv_ite) | (intro s x h; have : Kept q s := h) | simp only [inv_upd])
theorem inv_keyxEnd (p : KeyxPend) {s : State} (hI : Kept q s) : Kept q (keyxEnd p s) := by
  unfold keyxEnd; repeat' (first | (with_reducible first | assumption | apply inv_lkeEnd) | simp only [inv_upd])
theorem inv_keyxDrop (p : KeyxPend) {s : State} (hI : Kept q s) : Kept q (keyxDrop p s) := by
  unfold keyxDrop; repeat' (first | (with_reducible first | assumption | apply inv_zeroSlot) | simp only [inv_upd])
theorem inv_keyxFinish (c : HostCall) (word : Nat) (p : KeyxPend) (swap : Bool) (body : Bytes) {s : State} (hI : Kept q s) : Kept q (keyxFinish c word p swap body s) := by
  unfold keyxFinish; repeat' (first | (with_reducible first | assumption | apply inv_answer | apply inv_keyxDrop | apply inv_keyxEnd | apply inv_keyxInstall | apply inv_ite))
theorem inv_keyxDone (c : HostCall) (word step : Nat) (b : Bytes) (e : Nat) (ok : Bool) (r : List Bytes) {s : State} (hI : Kept q s) : Kept q (keyxDone c word step b e ok r s) := by
  unfold keyxDone; repeat' (first | (with_reducible first | assumption | apply inv_answer | apply inv_commitSlot | apply inv_keyxDrop | apply inv_keyxFinish | apply inv_pqAdd | apply inv_zeroSlots | apply inv_ite) | simp only [inv_upd] | split)
theorem inv_keyxTimeout (job : Nat) {s : State} (hI : Kept q s) : Kept q (keyxTimeout job s) := by
  unfold keyxTimeout; repeat' (first | (with_reducible first | assumption | apply inv_keyxDrop | apply inv_foldl) | (intro s x h; have : Kept q s := h))
theorem inv_linkClearBody (c : HostCall) {s : State} (hI : Kept q s) : Kept q (linkClearBody c s).s := by
  unfold linkClearBody; repeat' (first | (with_reducible first | assumption | apply inv_cmdFail | apply inv_cmdWait | apply inv_pqAdd | apply inv_staged | apply inv_iteS) | (intro s h; have : Kept q s := h) | ((try lift_lets); intro x; first | (fail_if_success (first | (have : State := x) | fail))) | simp only [inv_upd])
theorem inv_linkClearDone (c : HostCall) (word u p e : Nat) (ok : Bool) {s : State} (hI : Kept q s) : Kept q (linkClearDone c word u p e ok s) := by
  unfold linkClearDone; repeat' (first | (with_reducible first | assumption | apply inv_answer | apply inv_fqAdd | apply inv_modLport | apply inv_routesSet | apply inv_setLState | apply inv_trainStart | apply inv_unitCmd | apply inv_ite) | simp only [inv_upd])
theorem inv_clkHalt (t : Nat) {s : State} (hI : Kept q s) : Kept q (clkHalt t s) := by
  unfold clkHalt; repeat' (first | (with_reducible first | assumption | apply inv_modTileP | apply inv_modUnit))
theorem inv_pairReading (t : Nat) {s : State} (hI : Kept q s) : Kept q (pairReading t s) := by
  unfold pairReading; exact hI
theorem inv_tjTrip (t : Nat) {s : State} (hI : Kept q s) : Kept q (tjTrip t s) := by
  unfold tjTrip; repeat' (first | (with_reducible first | assumption | apply inv_clkHalt | apply inv_quarantine | apply inv_setAlarm | apply inv_stopTiles | apply inv_ite))
theorem inv_vcoreTrip (t : Nat) {s : State} (hI : Kept q s) : Kept q (vcoreTrip t s) := by
  unfold vcoreTrip; repeat' (first | (with_reducible first | assumption | apply inv_clkHalt | apply inv_quarantine | apply inv_setAlarm | apply inv_stopTiles | apply inv_ite) | simp only [inv_upd])
theorem inv_sensorTrip (t : Nat) {s : State} (hI : Kept q s) : Kept q (sensorTrip t s) := by
  unfold sensorTrip; repeat' (first | (with_reducible first | assumption | apply inv_clkHalt | apply inv_modTileP | apply inv_quarantine | apply inv_setAlarm | apply inv_stopTiles | apply inv_ite))
theorem inv_conversion (t tenths : Nat) {s : State} (hI : Kept q s) : Kept q (conversion t tenths s) := by
  unfold conversion; repeat' (first | (with_reducible first | assumption | apply inv_logEvent | apply inv_modTileP | apply inv_pairReading | apply inv_setNotice | apply inv_tjTrip | apply inv_ite))
theorem inv_throttleRelease (t : Nat) {s : State} (hI : Kept q s) : Kept q (throttleRelease t s) := by
  unfold throttleRelease; repeat' (first | (with_reducible first | assumption | apply inv_modTileP | apply inv_ite))
theorem inv_avsStep (t target favs : Nat) {s : State} (hI : Kept q s) : Kept q (avsStep t target favs s) := by
  unfold avsStep; repeat' (first | (with_reducible first | assumption | apply inv_modTileP | apply inv_ite))
theorem inv_droop (t : Nat) {s : State} (hI : Kept q s) : Kept q (droop t s) := by
  unfold droop; repeat' (first | (with_reducible first | assumption | apply inv_modTileP | apply inv_perfAdd | apply inv_setNotice | apply inv_ite))
theorem inv_brakeEvent (v : Nat) {s : State} (hI : Kept q s) : Kept q (brakeEvent v s) := by
  unfold brakeEvent; repeat' (first | (with_reducible first | assumption | apply inv_pldmEvent | apply inv_ite))
theorem inv_brakeAssert {s : State} (hI : Kept q s) : Kept q (brakeAssert s) := by
  unfold brakeAssert; repeat' (first | (with_reducible first | assumption | apply inv_brakeEvent | apply inv_logEvent | apply inv_setNotice | apply inv_ite) | simp only [inv_upd])
theorem inv_brakeDeassert {s : State} (hI : Kept q s) : Kept q (brakeDeassert s) := by
  unfold brakeDeassert; repeat' (first | (with_reducible first | assumption | apply inv_brakeEvent | apply inv_logEvent | apply inv_ite) | simp only [inv_upd])
theorem inv_brakeRamp {s : State} (hI : Kept q s) : Kept q (brakeRamp s) := by
  unfold brakeRamp; repeat' (first | (with_reducible first | assumption | apply inv_ite) | simp only [inv_upd])
theorem inv_standbySample {s : State} (hI : Kept q s) : Kept q (standbySample s) := by
  unfold standbySample; exact hI
theorem inv_powerSample (watts : Option Nat) {s : State} (hI : Kept q s) : Kept q (powerSample watts s) := by
  unfold powerSample; repeat' (first | (with_reducible first | assumption | apply inv_standbySample) | simp only [inv_upd] | split)
theorem inv_setReqs {s : State} (hI : Kept q s) : Kept q (setReqs s) := by
  unfold setReqs; repeat' (first | (with_reducible first | assumption | apply inv_modTileP | apply inv_trace | apply inv_foldl) | (intro s x h; have : Kept q s := h))
theorem inv_mapCap (f : Nat → Nat) {s : State} (hI : Kept q s) : Kept q (mapCap f s) := by
  unfold mapCap; exact hI
theorem inv_capLoop {s : State} (hI : Kept q s) : Kept q (capLoop s) := by
  unfold capLoop; repeat' (first | (with_reducible first | assumption | apply inv_logEvent | apply inv_mapCap | apply inv_setNotice | apply inv_setReqs | apply inv_ite))
theorem inv_thermLoop {s : State} (hI : Kept q s) : Kept q (thermLoop s) := by
  unfold thermLoop; repeat' (first | (with_reducible first | assumption | apply inv_setReqs | apply inv_ite) | simp only [inv_upd])
theorem inv_threshCheck {s : State} (hI : Kept q s) : Kept q (threshCheck s) := by
  unfold threshCheck; repeat' (first | (with_reducible first | assumption | apply inv_raiseHost | apply inv_ite) | simp only [inv_upd])
theorem inv_telemUpdate {s : State} (hI : Kept q s) : Kept q (telemUpdate s) := by
  unfold telemUpdate; repeat' (first | (with_reducible first | assumption | apply inv_pldmEvent | apply inv_threshCheck | apply inv_ite) | simp only [inv_upd])
theorem inv_pwrStatusBody (c : HostCall) {s : State} (hI : Kept q s) : Kept q (pwrStatusBody c s).s := by
  unfold pwrStatusBody; repeat' (first | (with_reducible first | assumption | apply inv_cmdOk | apply inv_sized) | (intro c s h; have : Kept q s := h))
theorem inv_pwrCapBody (c : HostCall) {s : State} (hI : Kept q s) : Kept q (pwrCapBody c s).s := by
  unfold pwrCapBody; repeat' (first | (with_reducible first | assumption | apply inv_cmdFail | apply inv_cmdOk | apply inv_sized | apply inv_iteS) | (intro c s h; have : Kept q s := h) | simp only [inv_upd])
theorem inv_limitBody (c : HostCall) {s : State} (hI : Kept q s) : Kept q (limitBody c s).s := by
  unfold limitBody; repeat' (first | (with_reducible first | assumption | apply inv_cmdFail | apply inv_cmdOk | apply inv_sized | apply inv_iteS) | (intro c s h; have : Kept q s := h) | simp only [inv_upd])
theorem inv_memTelemBody (c : HostCall) {s : State} (hI : Kept q s) : Kept q (memTelemBody c s).s := by
  unfold memTelemBody; repeat' (first | (with_reducible first | assumption | apply inv_cmdFail | apply inv_cmdOk | apply inv_sized | apply inv_iteS) | (intro c s h; have : Kept q s := h))
theorem inv_perfReadBody (c : HostCall) {s : State} (hI : Kept q s) : Kept q (perfReadBody c s).s := by
  unfold perfReadBody; repeat' (first | (with_reducible first | assumption | apply inv_cmdFail | apply inv_cmdOk | apply inv_sized | apply inv_iteS) | (intro c s h; have : Kept q s := h))
theorem inv_powerDownBody (c : HostCall) {s : State} (hI : Kept q s) : Kept q (powerDownBody c s).s := by
  unfold powerDownBody; repeat' (first | (with_reducible first | assumption | apply inv_cmdFail | apply inv_cmdOk | apply inv_sized | apply inv_toWarden | apply inv_iteS) | (intro c s h; have : Kept q s := h))
theorem inv_telemThreshBody (c : HostCall) {s : State} (hI : Kept q s) : Kept q (telemThreshBody c s).s := by
  unfold telemThreshBody; repeat' (first | (with_reducible first | assumption | apply inv_cmdFail | apply inv_cmdOk | apply inv_sized | apply inv_iteS) | (intro c s h; have : Kept q s := h) | simp only [inv_upd])
theorem inv_irqQuantBody (c : HostCall) {s : State} (hI : Kept q s) : Kept q (irqQuantBody c s).s := by
  unfold irqQuantBody; repeat' (first | (with_reducible first | assumption | apply inv_cmdFail | apply inv_cmdOk | apply inv_ringFlush | apply inv_sized | apply inv_foldl | apply inv_iteS) | (intro s x h; have : Kept q s := h) | (intro c s h; have : Kept q s := h) | simp only [inv_upd])
theorem inv_linyaWrite (u off v : Nat) {s : State} (hI : Kept q s) : Kept q (linyaWrite u off v s) := by
  unfold linyaWrite; repeat' (first | (with_reducible first | assumption | apply inv_linkRetrain | apply inv_modLd | apply inv_modLport | apply inv_setLState) | simp only [inv_upd] | split)
theorem inv_unitWrite (u off v : Nat) {s : State} (hI : Kept q s) : Kept q (unitWrite u off v s) := by
  unfold unitWrite
  refine inv_ite (inv_modUnit _ _ hI) (inv_ite (inv_modUnit _ _ hI) (inv_ite (inv_ite hI (inv_modUnit _ _ hI))
    (inv_ite (inv_ite hI (inv_modUnit _ _ hI)) (inv_ite (inv_ite (inv_modUnit _ _ hI) hI) (inv_ite (inv_ite (inv_modUnit _ _ hI) hI)
    (inv_ite (inv_ite ?_ hI) (inv_ite ?_ (inv_ite (inv_linyaWrite _ _ _ hI) hI))))))))
  · exact inv_upd.2 hI
  · split <;> exact hI
theorem inv_fabricAccess (u off : Nat) (write : Bool) (v : Nat) (answered : Bool) {s : State} (hI : Kept q s) : Kept q (fabricAccess u off write v answered s) := by
  unfold fabricAccess; repeat' (first | (with_reducible first | assumption | apply inv_unitWrite | apply inv_ite) | (simp only [inv_mk]; refine ⟨⟨?_, ?_, ?_, ?_, ?_, ?_, ?_, ?_, ?_, ?_⟩, ?_⟩) | (with_reducible first | apply inv_units | apply inv_sq | apply inv_otp | apply inv_ks | apply inv_pk | apply inv_ms | apply inv_fl | apply inv_mg | apply inv_mb | apply inv_q) | exact inv_wd (by assumption))
theorem inv_fabricTimeout {s : State} (hI : Kept q s) : Kept q (fabricTimeout s) := by
  unfold fabricTimeout; repeat' (first | (with_reducible first | assumption | apply inv_ite) | (simp only [inv_mk]; refine ⟨⟨?_, ?_, ?_, ?_, ?_, ?_, ?_, ?_, ?_, ?_⟩, ?_⟩) | (with_reducible first | apply inv_units | apply inv_sq | apply inv_otp | apply inv_ks | apply inv_pk | apply inv_ms | apply inv_fl | apply inv_mg | apply inv_mb | apply inv_q) | exact inv_wd (by assumption))
theorem inv_imbSend (u : Nat) (frame : Bytes) {s : State} (hI : Kept q s) : Kept q (imbSend u frame s) := by
  unfold imbSend; repeat' (first | (with_reducible first | assumption | apply inv_modUnit | apply inv_ite) | (simp only [inv_mk]; refine ⟨⟨?_, ?_, ?_, ?_, ?_, ?_, ?_, ?_, ?_, ?_⟩, ?_⟩) | (with_reducible first | apply inv_units | apply inv_sq | apply inv_otp | apply inv_ks | apply inv_pk | apply inv_ms | apply inv_fl | apply inv_mg | apply inv_mb | apply inv_q) | exact inv_wd (by assumption))
theorem inv_viewLog (u : Nat) (w : UState) (v : Option UState) (res : UState) (source : Nat) {s : State} (hI : Kept q s) : Kept q (viewLog u w v res source s) := by
  unfold viewLog; repeat' (first | (with_reducible first | assumption | apply inv_logEvent) | simp only [inv_upd])
theorem inv_viewCheck (u : Nat) (v : Option UState) (source : Nat) {s : State} (hI : Kept q s) : Kept q (viewCheck u v source s) := by
  unfold viewCheck; repeat' (first | (with_reducible first | assumption | apply inv_fwHold | apply inv_quarantine | apply inv_setU | apply inv_unitCrash | apply inv_viewLog) | simp only [inv_upd] | split)
theorem inv_eventHandle (u : Nat) (p : Bytes) {s : State} (hI : Kept q s) : Kept q (eventHandle u p s) := by
  unfold eventHandle; repeat' (first | (with_reducible first | assumption | apply inv_eccUe | apply inv_jobFinal | apply inv_mapOut | apply inv_mapOutSeen | apply inv_residueFail | apply inv_unitCrash) | ((try lift_lets); intro x; first | ((first | (have y : Nat := x) | (have y : Bool := x) | (have y : Bytes := x) | (have y : Option Nat := x) | (have y : List Nat := x)); clear y; clear_value x)) | split)
theorem inv_viewAnswer (u : Nat) {s : State} (hI : Kept q s) : Kept q (viewAnswer u s) := by
  unfold viewAnswer; repeat' (first | (with_reducible first | assumption | apply inv_answer | apply inv_takeWaits | apply inv_foldl) | (intro s x h; have : Kept q s := h) | split)
theorem inv_linkAnswer (u : Nat) {s : State} (hI : Kept q s) : Kept q (linkAnswer u s) := by
  unfold linkAnswer; repeat' (first | (with_reducible first | assumption | apply inv_answer | apply inv_takeWaits | apply inv_foldl) | (intro s x h; have : Kept q s := h) | split)
theorem inv_respHandle (u op : Nat) (cmd p : Bytes) {s : State} (hI : Kept q s) : Kept q (respHandle u op cmd p s) := by
  unfold respHandle; repeat' (first | (with_reducible first | assumption | apply inv_abortAcked | apply inv_cfgAcked | apply inv_enqueueAcked | apply inv_enterAcked | apply inv_installAcked | apply inv_linkAnswer | apply inv_tileEnterSend | apply inv_tileSelftest | apply inv_viewAnswer | apply inv_viewCheck) | split)
theorem inv_readyHandle (u gen version : Nat) {s : State} (hI : Kept q s) : Kept q (readyHandle u gen version s) := by
  unfold readyHandle
  dsimp only
  have h := inv_unitReady u gen version hI
  exact inv_ite h (inv_ite (inv_restoreTile _ h) (inv_restorePort _ h))
theorem inv_imbHandle (u gen : Nat) (f : Bytes) {s : State} (hI : Kept q s) : Kept q (imbHandle u gen f s) := by
  unfold imbHandle; repeat' (first | (with_reducible first | assumption | apply inv_eventHandle | apply inv_modUnit | apply inv_readyHandle | apply inv_respHandle | apply inv_unitCrash | apply inv_unitPump | apply inv_viewCheck | apply inv_ite))
theorem inv_imbPost (u gen : Nat) (frame : Bytes) {s : State} (hI : Kept q s) : Kept q (imbPost u gen frame s) := by
  unfold imbPost; repeat' (first | (with_reducible first | assumption | apply inv_imbHandle | apply inv_irq | apply inv_modUnit | apply inv_ite))
theorem inv_imbClear (u : Nat) {s : State} (hI : Kept q s) : Kept q (imbClear u s) := by
  unfold imbClear; repeat' (first | (with_reducible first | assumption | apply inv_imbPost | apply inv_modUnit) | ((try lift_lets); intro x; first | (refine (?_ : Kept q x → _) ?_ ; intro _; (try clear_value x); rotate_left; simp only [x])) | split)
theorem inv_mapOutBy (u p cause : Nat) (f : State → State) {s : State} (hI : Kept q s) (hf : ∀ x0, Kept q x0 → Kept q (f x0)) : Kept q (mapOutBy u p cause f s) := by
  unfold mapOutBy; repeat' (first | (with_reducible first | assumption | apply inv_imbPost | apply hf | apply inv_ite))
theorem inv_unitHandles (u op : Nat) (f : Bytes → State → Option (Bytes × State)) {s : State} (hI : Kept q s)
    (hf : ∀ p s x, Kept q s → f p s = some x → Kept q x.2) : Kept q (unitHandles u op f s) := by
  have h := inv_modUnit u (fun x => { x with rung := false }) hI
  unfold unitHandles
  dsimp only
  split
  · split
    · rename_i e; exact inv_imbPost _ _ _ (hf _ _ _ h e)
    · exact hI
  · exact inv_ite h hI

theorem inv_unitStatusBody (c : HostCall) {s : State} (hI : Kept q s) : Kept q (unitStatusBody c s).s := by
  unfold unitStatusBody; repeat' (first | (with_reducible first | assumption | apply inv_cmdFail | apply inv_cmdOk | apply inv_cmdWait | apply inv_sized | apply inv_unitCmd | apply inv_unitSend | apply inv_viewCheck | apply inv_iteS) | (intro c s h; have : Kept q s := h))
theorem inv_heartbeat (u : Nat) {s : State} (hI : Kept q s) : Kept q (heartbeat u s) := by
  unfold heartbeat; repeat' (first | (with_reducible first | assumption | apply inv_modUnit | apply inv_ite))
theorem inv_heartbeatOver (u : Nat) {s : State} (hI : Kept q s) : Kept q (heartbeatOver u s) := by
  unfold heartbeatOver; repeat' (first | (with_reducible first | assumption | apply inv_irq | apply inv_unitCrash | apply inv_ite))
end Sys2Proof.Machine
end

