-- ==== Sys2Proof/Laws/Inv8.lean ====
section
/-! SUPPORT. What `Kept` says of the operations of HostCmds, HostExec and Spdm. -/

open Sys2Proof.Machine
namespace Sys2Proof.Machine
set_option linter.all false
variable {q : List Instr}
theorem inv_commitSel (pref st : Nat) (tgt : List Nat) (sd : Bytes) {s : State} (hI : Kept q s) : Kept q (commitSel pref st tgt sd s) := by
  unfold commitSel; repeat' (first | (with_reducible first | assumption | apply inv_flashErase | apply inv_flashProg))
theorem inv_commitFail {s : State} (hI : Kept q s) : Kept q (commitFail s) := by
  unfold commitFail; repeat' (first | (with_reducible first | assumption | apply inv_drawBytes | apply inv_flashErase | apply inv_flashErrorEv | apply inv_flashProg))
theorem inv_writeUpd (target st len : Nat) {s : State} (hI : Kept q s) : Kept q (writeUpd target st len s) := by
  unfold writeUpd; repeat' (first | (with_reducible first | assumption | apply inv_flashErase | apply inv_flashProg | apply inv_ite))
theorem inv_setUpd (st : Nat) {s : State} (hI : Kept q s) : Kept q (setUpd st s) := by
  unfold setUpd; repeat' (first | (with_reducible first | assumption | apply inv_bindsMove | apply inv_pldmEvent | apply inv_raiseHost | apply inv_ite) | simp only [inv_upd])
theorem inv_updStatusBody (c : HostCall) {s : State} (hI : Kept q s) : Kept q (updStatusBody c s).s := by
  unfold updStatusBody; repeat' (first | (with_reducible first | assumption | apply inv_cmdOk | apply inv_sized) | (intro c s h; have : Kept q s := h))
theorem inv_updBeginBody (c : HostCall) {s : State} (hI : Kept q s) : Kept q (updBeginBody c s).s := by
  unfold updBeginBody; repeat' (first | (with_reducible first | assumption | apply inv_cmdFail | apply inv_cmdWait | apply inv_flashSync | apply inv_sized | apply inv_iteS) | (intro c s h; have : Kept q s := h) | split)
theorem inv_updDataBody (c : HostCall) {s : State} (hI : Kept q s) : Kept q (updDataBody c s).s := by
  unfold updDataBody; repeat' (first | (with_reducible first | assumption | apply inv_cmdFail | apply inv_cmdWait | apply inv_flashSync | apply inv_iteS) | split)
theorem inv_updEndBody (c : HostCall) {s : State} (hI : Kept q s) : Kept q (updEndBody c s).s := by
  unfold updEndBody; repeat' (first | (with_reducible first | assumption | apply inv_cmdFail | apply inv_cmdOk | apply inv_cmdWait | apply inv_flashSync | apply inv_sized | apply inv_iteS) | (intro c s h; have : Kept q s := h))
theorem inv_pldmReq (cmd : Nat) (d : Bytes) {s : State} (hI : Kept q s) : Kept q (pldmReq cmd d s) := by
  unfold pldmReq; repeat' (first | (with_reducible first | assumption | apply inv_mgOut))
theorem inv_pldmAsk {s : State} (hI : Kept q s) : Kept q (pldmAsk s) := by
  unfold pldmAsk; repeat' (first | (with_reducible first | assumption | apply inv_pldmReq))
theorem inv_updVerifyEnd (c : HostCall) (word : Nat) (st detail typ code : Nat) {s : State} (hI : Kept q s) : Kept q (updVerifyEnd c word st detail typ code s) := by
  unfold updVerifyEnd; repeat' (first | (with_reducible first | assumption | apply inv_answer | apply inv_pldmReq | apply inv_ite) | simp only [inv_upd])
theorem inv_updVerified (c : HostCall) (word : Nat) {s : State} (hI : Kept q s) : Kept q (updVerified c word s) := by
  unfold updVerified; repeat' (first | (with_reducible first | assumption | apply inv_flashSync | apply inv_setUpd | apply inv_updVerifyEnd | apply inv_ite))
theorem inv_updVerifyNext (c : HostCall) (word : Nat) (left : List Nat) {s : State} (hI : Kept q s) : Kept q (updVerifyNext c word left s) := by
  unfold updVerifyNext; repeat' (first | (with_reducible first | assumption | apply inv_pqAdd | apply inv_setUpd | apply inv_updVerified | apply inv_updVerifyEnd | apply inv_ite) | split)
theorem inv_updVerifyDone (c : HostCall) (word : Nat) (left : List Nat) (e : Nat) (ec ml : Bool) {s : State} (hI : Kept q s) : Kept q (updVerifyDone c word left e ec ml s) := by
  unfold updVerifyDone; repeat' (first | (with_reducible first | assumption | apply inv_setUpd | apply inv_updVerifyEnd | apply inv_updVerifyNext | apply inv_ite) | split)
theorem inv_updVerifyBegin (c : HostCall) (word : Nat) {s : State} (hI : Kept q s) : Kept q (updVerifyBegin c word s) := by
  unfold updVerifyBegin; repeat' (first | (with_reducible first | assumption | apply inv_setUpd | apply inv_updVerifyEnd | apply inv_updVerifyNext) | split)
theorem inv_updVerifyBody (c : HostCall) {s : State} (hI : Kept q s) : Kept q (updVerifyBody c s).s := by
  unfold updVerifyBody; repeat' (first | (with_reducible first | assumption | apply inv_cmdFail | apply inv_cmdWait | apply inv_sized | apply inv_updVerifyBegin | apply inv_iteS) | (intro c s h; have : Kept q s := h))
theorem inv_updActivateBody (c : HostCall) {s : State} (hI : Kept q s) : Kept q (updActivateBody c s).s := by
  unfold updActivateBody; repeat' (first | (with_reducible first | assumption | apply inv_cmdFail | apply inv_cmdWait | apply inv_flashSync | apply inv_sized | apply inv_iteS) | (intro c s h; have : Kept q s := h) | split)
theorem inv_updCancelBody (c : HostCall) {s : State} (hI : Kept q s) : Kept q (updCancelBody c s).s := by
  unfold updCancelBody; repeat' (first | (with_reducible first | assumption | apply inv_cmdFail | apply inv_cmdOk | apply inv_cmdWait | apply inv_flashSync | apply inv_sized) | (intro c s h; have : Kept q s := h) | split)
theorem inv_pldmFail {s : State} (hI : Kept q s) : Kept q (pldmFail s) := by
  unfold pldmFail; repeat' (first | (with_reducible first | assumption | apply inv_pldmReq) | simp only [inv_upd])
theorem inv_updBegun (c : Option HostCall) (word target len : Nat) (ok : Bool) {s : State} (hI : Kept q s) : Kept q (updBegun c word target len ok s) := by
  unfold updBegun; repeat' (first | (with_reducible first | assumption | apply inv_answer | apply inv_flashErase | apply inv_flashErrorEv | apply inv_pldmAsk | apply inv_pldmFail | apply inv_setUpd | apply inv_writeUpd) | simp only [inv_upd] | split)
theorem inv_updEnded (c : Option HostCall) (word : Nat) (ok : Bool) {s : State} (hI : Kept q s) : Kept q (updEnded c word ok s) := by
  unfold updEnded; repeat' (first | (with_reducible first | assumption | apply inv_answer | apply inv_flashErrorEv | apply inv_pldmFail | apply inv_pldmReq | apply inv_setUpd | apply inv_softReset | apply inv_updVerifyBegin | apply inv_updVerifyEnd | apply inv_writeUpd) | simp only [inv_upd] | split)
theorem inv_updProgrammed (c : Option HostCall) (word off : Nat) (d : Bytes) (ok : Bool) {s : State} (hI : Kept q s) : Kept q (updProgrammed c word off d ok s) := by
  unfold updProgrammed; repeat' (first | (with_reducible first | assumption | apply inv_answer | apply inv_flashErrorEv | apply inv_flashProg | apply inv_flashSync | apply inv_pldmAsk | apply inv_pldmFail) | simp only [inv_upd] | split)
theorem inv_updActivated (c : Option HostCall) (word : Nat) (defer ok : Bool) {s : State} (hI : Kept q s) : Kept q (updActivated c word defer ok s) := by
  unfold updActivated; repeat' (first | (with_reducible first | assumption | apply inv_answer | apply inv_commitFail | apply inv_commitSel | apply inv_flashErase | apply inv_resetAfterReply | apply inv_setUpd | apply inv_softReset) | simp only [inv_upd] | split)
theorem inv_noUpdReset {s : State} (hI : Kept q s) : Kept q (noUpdReset s) := by
  refine inv_set_mb hI ?_
  obtain ⟨h1, h2, h3⟩ := inv_mb hI
  refine ⟨h1, by simpa using h2, fun y hy => ?_⟩
  obtain ⟨c, hc, rfl⟩ := List.mem_map.1 hy
  have := h3 c hc
  split <;> exact this
theorem inv_updCancelled (c : Option HostCall) (word : Nat) (ok : Bool) {s : State} (hI : Kept q s) : Kept q (updCancelled c word ok s) := by
  unfold updCancelled; repeat' (first | (with_reducible first | assumption | apply inv_answer | apply inv_commitFail | apply inv_commitSel | apply inv_flashErase | apply inv_flashErrorEv | apply inv_noUpdReset | apply inv_setUpd) | split)
theorem inv_recordAbandoned (slot : Nat) {s : State} (hI : Kept q s) : Kept q (recordAbandoned slot s) := by
  unfold recordAbandoned; repeat' (first | (with_reducible first | assumption | apply inv_writeUpd) | simp only [inv_upd])
theorem inv_selCommitted (slot st : Nat) (reset ok : Bool) {s : State} (hI : Kept q s) : Kept q (selCommitted slot st reset ok s) := by
  unfold selCommitted; repeat' (first | (with_reducible first | assumption | apply inv_burnSvn | apply inv_commitFail | apply inv_commitSel | apply inv_logEvent | apply inv_recordAbandoned | apply inv_setUpd | apply inv_softReset | apply inv_ite) | simp only [inv_upd])
theorem inv_trialFail {s : State} (hI : Kept q s) : Kept q (trialFail s) := by
  unfold trialFail; repeat' (first | (with_reducible first | assumption | apply inv_quarHalt | apply inv_revert | apply inv_ite) | simp only [inv_upd])
theorem inv_trialPass {s : State} (hI : Kept q s) : Kept q (trialPass s) := by
  unfold trialPass; repeat' (first | (with_reducible first | assumption | apply inv_flashSync | apply inv_ite))
theorem inv_trialCheck (ok : Bool) {s : State} (hI : Kept q s) : Kept q (trialCheck ok s) := by
  unfold trialCheck; repeat' (first | (with_reducible first | assumption | apply inv_pqAdd | apply inv_trialFail | apply inv_ite))
theorem inv_healthDone (verify : Bool) (e : Nat) (ec ml : Bytes) (ok : Bool) {s : State} (hI : Kept q s) : Kept q (healthDone verify e ec ml ok s) := by
  unfold healthDone; repeat' (first | (with_reducible first | assumption | apply inv_pqAdd | apply inv_trialFail | apply inv_trialPass | apply inv_ite))
theorem inv_updSync (f : FSync) (ok : Bool) {s : State} (hI : Kept q s) : Kept q (updSync f ok s) := by
  unfold updSync; repeat' (first | (with_reducible first | assumption | apply inv_flashErase | apply inv_flashErrorEv | apply inv_selCommitted | apply inv_setUpd | apply inv_updActivated | apply inv_updBegun | apply inv_updCancelled | apply inv_updEnded | apply inv_updProgrammed | apply inv_updVerifyEnd) | split)
theorem inv_ringRead (l : List (Nat × Bytes)) (nextSeq from' max : Nat) {s : State} (hI : Kept q s) : Kept q (ringRead l nextSeq from' max s).s := by
  unfold ringRead; repeat' (first | (with_reducible first | assumption | apply inv_cmdOk | apply inv_iteS))
theorem inv_logReadBody (c : HostCall) {s : State} (hI : Kept q s) : Kept q (logReadBody c s).s := by
  unfold logReadBody; repeat' (first | (with_reducible first | assumption | apply inv_cmdFail | apply inv_ringRead | apply inv_sized) | (intro c s h; have : Kept q s := h) | simp only [inv_upd] | split)
theorem inv_logConfigBody (c : HostCall) {s : State} (hI : Kept q s) : Kept q (logConfigBody c s).s := by
  unfold logConfigBody; repeat' (first | (with_reducible first | assumption | apply inv_cmdFail | apply inv_cmdOk | apply inv_logVector | apply inv_sized | apply inv_iteS) | (intro c s h; have : Kept q s := h) | simp only [inv_upd])
theorem inv_traceConfigBody (c : HostCall) {s : State} (hI : Kept q s) : Kept q (traceConfigBody c s).s := by
  unfold traceConfigBody; repeat' (first | (with_reducible first | assumption | apply inv_cmdFail | apply inv_cmdOk | apply inv_sized | apply inv_iteS) | (intro c s h; have : Kept q s := h) | simp only [inv_upd])
theorem inv_traceReadBody (c : HostCall) {s : State} (hI : Kept q s) : Kept q (traceReadBody c s).s := by
  unfold traceReadBody; repeat' (first | (with_reducible first | assumption | apply inv_cmdFail | apply inv_ringRead | apply inv_sized | apply inv_iteS) | (intro c s h; have : Kept q s := h))
theorem inv_rcptBatchBody (c : HostCall) {s : State} (hI : Kept q s) : Kept q (rcptBatchBody c s).s := by
  unfold rcptBatchBody; repeat' (first | (with_reducible first | assumption | apply inv_cmdFail | apply inv_cmdOk | apply inv_sized) | (intro s x h; have : Kept q s := h) | ((try lift_lets); intro x; first | (fail_if_success (first | (have : State := x) | fail))) | split)
theorem inv_svcNonceBody (c : HostCall) {s : State} (hI : Kept q s) : Kept q (svcNonceBody c s).s := by
  unfold svcNonceBody; repeat' (first | (with_reducible first | assumption | apply inv_cmdOk | apply inv_drawBytes | apply inv_sized) | (intro c s h; have : Kept q s := h) | simp only [inv_upd])
theorem inv_tokenCheck (op arg : Nat) (b : Bytes) (c : HostCall) {s : State} (hI : Kept q s) : Kept q (tokenCheck op arg b c s).s := by
  unfold tokenCheck; repeat' (first | (with_reducible first | assumption | apply inv_cmdFail | apply inv_cmdWait | apply inv_pqAdd | apply inv_iteS) | simp only [inv_upd])
theorem inv_lcAdvanceBody (c : HostCall) {s : State} (hI : Kept q s) : Kept q (lcAdvanceBody c s).s := by
  unfold lcAdvanceBody; repeat' (first | (with_reducible first | assumption | apply inv_cmdFail | apply inv_staged | apply inv_tokenCheck | apply inv_iteS) | (intro s h; have : Kept q s := h) | ((try lift_lets); intro x; first | (fail_if_success (first | (have : State := x) | fail))))
theorem inv_vkeyRevokeBody (c : HostCall) {s : State} (hI : Kept q s) : Kept q (vkeyRevokeBody c s).s := by
  unfold vkeyRevokeBody; repeat' (first | (with_reducible first | assumption | apply inv_cmdFail | apply inv_staged | apply inv_tokenCheck | apply inv_iteS) | (intro s h; have : Kept q s := h) | ((try lift_lets); intro x; first | (fail_if_success (first | (have : State := x) | fail))))
theorem inv_tokenOtpEnd {s : State} (hI : Kept q s) : Kept q (tokenOtpEnd s) := by
  unfold tokenOtpEnd; repeat' (first | (with_reducible first | assumption | apply inv_answer | apply inv_logEvent | apply inv_resetAfterReply | apply inv_foldl) | (intro s x h; have : Kept q s := h) | simp only [inv_upd] | split)
theorem inv_tokenDone (c : HostCall) (word op arg e : Nat) (ok : Bool) {s : State} (hI : Kept q s) : Kept q (tokenDone c word op arg e ok s) := by
  unfold tokenDone; repeat' (first | (with_reducible first | assumption | apply inv_answer | apply inv_otLc | apply inv_otRevoke | apply inv_tokenOtpEnd | apply inv_unitSend | apply inv_zeroAllSlots | apply inv_ite))
theorem inv_svcQuarantineBody (c : HostCall) {s : State} (hI : Kept q s) : Kept q (svcQuarantineBody c s).s := by
  unfold svcQuarantineBody; repeat' (first | (with_reducible first | assumption | apply inv_cmdFail | apply inv_cmdOk | apply inv_logEvent | apply inv_quarantine | apply inv_sized | apply inv_iteS) | (intro c s h; have : Kept q s := h))
theorem inv_wardenResetBody (c : HostCall) {s : State} (hI : Kept q s) : Kept q (wardenResetBody c s).s := by
  unfold wardenResetBody; repeat' (first | (with_reducible first | assumption | apply inv_cmdOk | apply inv_resetAfterReply | apply inv_sized | apply inv_ite) | (intro c s h; have : Kept q s := h))
theorem inv_perstAssert (d : Nat) {s : State} (hI : Kept q s) : Kept q (perstAssert d s) := by
  unfold perstAssert; repeat' (first | (with_reducible first | assumption | apply inv_fnDown | apply inv_modFn | apply inv_ite))
theorem inv_dllDown (d : Nat) {s : State} (hI : Kept q s) : Kept q (dllDown d s) := by
  unfold dllDown; repeat' (first | (with_reducible first | assumption | apply inv_fnDown | apply inv_modFn | apply inv_ite))
theorem inv_flr (d : Nat) {s : State} (hI : Kept q s) : Kept q (flr d s) := by
  unfold flr; repeat' (first | (with_reducible first | assumption | apply inv_fnDown | apply inv_ite))
theorem inv_linkUp (d gen width : Nat) {s : State} (hI : Kept q s) : Kept q (linkUp d gen width s) := by
  unfold linkUp; repeat' (first | (with_reducible first | assumption | apply inv_modFn | apply inv_raiseHost | apply inv_ite) | simp only [inv_upd])
theorem inv_resultReadRun (c : HostCall) {s : State} (hI : Kept q s) : Kept q (resultReadRun c s) := by
  unfold resultReadRun; repeat' (first | (with_reducible first | assumption | apply inv_buildRsp | apply inv_resultRead) | split)
theorem inv_bodyLow {op : Nat} {f : HostCall → State → CmdRes} (e : bodyLow op = some f) : ∀ c s, Kept q s → Kept q (f c s).s := by
  unfold bodyLow at e
  split at e <;> first | (obtain rfl := Option.some.inj e) | cases e
  · exact fun c s h => inv_featureOfferBody c h
  · exact fun c s h => inv_featureAcceptBody c h
  · exact fun c s h => inv_modeSetBody c h
  · exact fun c s h => inv_channelResetBody c h
  · exact fun c s h => inv_resultReleaseBody c h
  · exact fun c s h => inv_stagePutBody c h
  · exact fun c s h => inv_stageClearBody c h
  · exact fun c s h => inv_attReportBody c h
  · exact fun c s h => inv_attCertsBody c h
  · exact fun c s h => inv_attMeasLogBody c h
  · exact fun c s h => inv_attEphemeralBody c h
  · exact fun c s h => inv_tenantEnrollBody c h
  · exact fun c s h => inv_tenantStageBody c h
  · exact fun c s h => inv_tenantLoadBody c h
  · exact fun c s h => inv_tenantEvictBody c h
  · exact fun c s h => inv_tenantRevokeBody c h
  · exact fun c s h => inv_tenantStatusBody c h
  · exact fun c s h => inv_tenantListBody c h
  · exact fun c s h => inv_tenantReceiptBody c h
  · exact fun c s h => inv_wpkOpenBody c h
  · exact fun c s h => inv_keyReleaseBody c h
  · exact fun c s h => inv_keyReleaseSetBody c h
  · exact fun c s h => inv_wpkLoadBody c h
  · exact fun c s h => inv_wpkFinishBody c h
  · exact fun c s h => inv_wpkStatusBody c h
  · exact fun c s h => inv_wpkCloseBody c h
theorem inv_bodyMid {op : Nat} {f : HostCall → State → CmdRes} (e : bodyMid op = some f) : ∀ c s, Kept q s → Kept q (f c s).s := by
  unfold bodyMid at e
  split at e <;> first | (obtain rfl := Option.some.inj e) | cases e
  · exact fun c s h => inv_progLoadBody c h
  · exact fun c s h => inv_jobSubmitBody c h
  · exact fun c s h => inv_jobCancelBody c h
  · exact fun c s h => inv_jobStatusBody c h
  · exact fun c s h => inv_rcptFlushBody c h
  · exact fun c s h => inv_astCreateBody c h
  · exact fun c s h => inv_astDestroyBody c h
  · exact fun c s h => inv_astInvalidateBody c h
  · exact fun c s h => inv_prefetchBody c h
  · exact fun c s h => inv_adviseBody c h
  · exact fun c s h => inv_faultResumeBody c h
  · exact fun c s h => inv_mirrorSetBody c h
  · exact fun c s h => inv_regionSetBody c h
  · exact fun c s h => inv_linkStatusBody c h
  · exact fun c s h => inv_linkKeyxBody c h
  · exact fun c s h => inv_linkJobEndBody c h
  · exact fun c s h => inv_linkBoundsBody c h
  · exact fun c s h => inv_linkClearBody c h
  · exact fun c s h => inv_pwrStatusBody c h
  · exact fun c s h => inv_pwrCapBody c h
  · exact fun c s h => inv_limitBody c h
  · exact fun c s h => inv_unitStatusBody c h
  · exact fun c s h => inv_memTelemBody c h
  · exact fun c s h => inv_perfReadBody c h
  · exact fun c s h => inv_powerDownBody c h
  · exact fun c s h => inv_telemThreshBody c h
  · exact fun c s h => inv_irqQuantBody c h
theorem inv_bodyHigh {op : Nat} {f : HostCall → State → CmdRes} (e : bodyHigh op = some f) : ∀ c s, Kept q s → Kept q (f c s).s := by
  unfold bodyHigh at e
  split at e <;> first | (obtain rfl := Option.some.inj e) | cases e
  · exact fun c s h => inv_updStatusBody c h
  · exact fun c s h => inv_updBeginBody c h
  · exact fun c s h => inv_updDataBody c h
  · exact fun c s h => inv_updEndBody c h
  · exact fun c s h => inv_updVerifyBody c h
  · exact fun c s h => inv_updActivateBody c h
  · exact fun c s h => inv_updCancelBody c h
  · exact fun c s h => inv_logReadBody c h
  · exact fun c s h => inv_logConfigBody c h
  · exact fun c s h => inv_traceConfigBody c h
  · exact fun c s h => inv_traceReadBody c h
  · exact fun c s h => inv_rcptBatchBody c h
  · exact fun c s h => inv_svcNonceBody c h
  · exact fun c s h => inv_lcAdvanceBody c h
  · exact fun c s h => inv_vkeyRevokeBody c h
  · exact fun c s h => inv_svcQuarantineBody c h
  · exact fun c s h => inv_wardenResetBody c h

theorem inv_hostDispatch (op : Nat) (c : HostCall) {s : State} (hI : Kept q s) : Kept q (hostDispatch op c s) := by
  unfold hostDispatch
  split
  · exact inv_resultReadRun _ hI
  · split
    · rename_i f e
      refine inv_runCmd _ _ _ hI ?_
      rcases Option.or_eq_some_iff.1 e with e | ⟨_, e⟩
      · exact inv_bodyLow e
      · rcases Option.or_eq_some_iff.1 e with e | ⟨_, e⟩
        · exact inv_bodyMid e
        · exact inv_bodyHigh e
    · exact inv_buildRsp _ _ _ _ _ hI
theorem inv_doeReply (ty : Nat) (p : Bytes) {s : State} (hI : Kept q s) : Kept q (doeReply ty p s) := by
  unfold doeReply; repeat' (first | (with_reducible first | assumption | apply inv_emit | apply inv_raiseHost) | simp only [inv_upd])
theorem inv_spdmReply (secured : Bool) (p : Bytes) {s : State} (hI : Kept q s) : Kept q (spdmReply secured p s) := by
  unfold spdmReply; repeat' (first | (with_reducible first | assumption | apply inv_doeReply) | simp only [inv_upd] | split)
theorem inv_spdmBegin (code : Nat) (m : SpdmMsg) {s : State} (hI : Kept q s) : Kept q (spdmBegin code m s) := by
  unfold spdmBegin; repeat' (first | with_reducible assumption | simp only [inv_upd] | split)
theorem inv_spdmRequest (code : Nat) (m : SpdmMsg) (signed : Bool) (f : State → State) {s : State} (hI : Kept q s) (hf : ∀ x0, Kept q x0 → Kept q (f x0)) : Kept q (spdmRequest code m signed f s) := by
  unfold spdmRequest; repeat' (first | (with_reducible first | assumption | apply inv_spdmBegin | apply inv_spdmReply | apply hf | apply inv_ite) | split)
theorem inv_spdmNegotiated (m : SpdmMsg) (f : State → State) {s : State} (hI : Kept q s) (hf : ∀ x0, Kept q x0 → Kept q (f x0)) : Kept q (spdmNegotiated m f s) := by
  unfold spdmNegotiated; repeat' (first | (with_reducible first | assumption | apply inv_spdmReply | apply hf | apply inv_ite))
theorem inv_spdmVersion (m : SpdmMsg) {s : State} (hI : Kept q s) : Kept q (spdmVersion m s) := by
  unfold spdmVersion; repeat' (first | (with_reducible first | assumption | apply inv_sessEnd | apply inv_spdmReply | apply inv_spdmRequest | apply inv_ite) | (intro s h; have : Kept q s := h) | simp only [inv_upd])
theorem inv_spdmCaps (m : SpdmMsg) {s : State} (hI : Kept q s) : Kept q (spdmCaps m s) := by
  unfold spdmCaps; repeat' (first | (with_reducible first | assumption | apply inv_spdmReply | apply inv_spdmRequest | apply inv_ite) | (intro s h; have : Kept q s := h) | simp only [inv_upd])
theorem inv_spdmAlgs (m : SpdmMsg) {s : State} (hI : Kept q s) : Kept q (spdmAlgs m s) := by
  unfold spdmAlgs; repeat' (first | (with_reducible first | assumption | apply inv_spdmReply | apply inv_spdmRequest | apply inv_ite) | (intro s h; have : Kept q s := h) | simp only [inv_upd])
theorem inv_spdmDigests (m : SpdmMsg) {s : State} (hI : Kept q s) : Kept q (spdmDigests m s) := by
  unfold spdmDigests; repeat' (first | (with_reducible first | assumption | apply inv_spdmNegotiated | apply inv_spdmReply | apply inv_spdmRequest) | (intro s h; have : Kept q s := h) | split)
theorem inv_spdmCert (m : SpdmMsg) {s : State} (hI : Kept q s) : Kept q (spdmCert m s) := by
  unfold spdmCert; repeat' (first | (with_reducible first | assumption | apply inv_spdmNegotiated | apply inv_spdmReply | apply inv_spdmRequest | apply inv_ite) | (intro s h; have : Kept q s := h) | split)
theorem inv_spdmSign (ctx : String) (secured : Bool) (p : Bytes) {s : State} (hI : Kept q s) : Kept q (spdmSign ctx secured p s) := by
  unfold spdmSign; repeat' (first | (with_reducible first | assumption | apply inv_pqAdd | apply inv_spdmReply | apply inv_ite))
theorem inv_spdmChallenge (m : SpdmMsg) {s : State} (hI : Kept q s) : Kept q (spdmChallenge m s) := by
  unfold spdmChallenge; repeat' (first | (with_reducible first | assumption | apply inv_drawBytes | apply inv_spdmNegotiated | apply inv_spdmReply | apply inv_spdmRequest | apply inv_spdmSign) | (intro s h; have : Kept q s := h) | split)
theorem inv_spdmMeas (m : SpdmMsg) {s : State} (hI : Kept q s) : Kept q (spdmMeas m s) := by
  unfold spdmMeas; repeat' (first | (with_reducible first | assumption | apply inv_drawBytes | apply inv_spdmNegotiated | apply inv_spdmReply | apply inv_spdmRequest | apply inv_spdmSign | apply inv_ite) | (intro s h; have : Kept q s := h))
theorem inv_spdmKeyExchange (m : SpdmMsg) {s : State} (hI : Kept q s) : Kept q (spdmKeyExchange m s) := by
  unfold spdmKeyExchange; repeat' (first | (with_reducible first | assumption | apply inv_commitSlot | apply inv_drawBytes | apply inv_pqAdd | apply inv_spdmNegotiated | apply inv_spdmReply | apply inv_spdmRequest | apply inv_ite) | (intro s h; have : Kept q s := h))
theorem inv_spdmFinish (m : SpdmMsg) {s : State} (hI : Kept q s) : Kept q (spdmFinish m s) := by
  unfold spdmFinish; repeat' (first | (with_reducible first | assumption | apply inv_commitSlot | apply inv_sessEnd | apply inv_spdmNegotiated | apply inv_spdmReply | apply inv_spdmRequest) | (intro s h; have : Kept q s := h) | simp only [inv_upd] | split)
theorem inv_spdmEnd (m : SpdmMsg) {s : State} (hI : Kept q s) : Kept q (spdmEnd m s) := by
  unfold spdmEnd; repeat' (first | (with_reducible first | assumption | apply inv_sessEnd | apply inv_spdmNegotiated | apply inv_spdmReply | apply inv_spdmRequest | apply inv_ite) | (intro s h; have : Kept q s := h))
theorem inv_spdmOther (code : Nat) (m : SpdmMsg) {s : State} (hI : Kept q s) : Kept q (spdmOther code m s) := by
  unfold spdmOther; repeat' (first | (with_reducible first | assumption | apply inv_spdmBegin | apply inv_spdmReply | apply inv_ite))
theorem inv_spdmDispatch (code : Nat) (m : SpdmMsg) {s : State} (hI : Kept q s) : Kept q (spdmDispatch code m s) := by
  unfold spdmDispatch; repeat' (first | (with_reducible first | assumption | apply inv_spdmAlgs | apply inv_spdmCaps | apply inv_spdmCert | apply inv_spdmChallenge | apply inv_spdmDigests | apply inv_spdmEnd | apply inv_spdmFinish | apply inv_spdmKeyExchange | apply inv_spdmMeas | apply inv_spdmOther | apply inv_spdmVersion) | split)
theorem inv_spdmMessage (secured : Bool) (b : Bytes) {s : State} (hI : Kept q s) : Kept q (spdmMessage secured b s) := by
  unfold spdmMessage; repeat' (first | (with_reducible first | assumption | apply inv_spdmBegin | apply inv_spdmDispatch | apply inv_spdmReply | apply inv_ite))
theorem inv_spdmSecured (b : Bytes) {s : State} (hI : Kept q s) : Kept q (spdmSecured b s) := by
  unfold spdmSecured; repeat' (first | (with_reducible first | assumption | apply inv_doeReply | apply inv_spdmMessage) | simp only [inv_upd] | split)
theorem inv_doeObject (ws : List Word) {s : State} (hI : Kept q s) : Kept q (doeObject ws s) := by
  unfold doeObject; repeat' (first | (with_reducible first | assumption | apply inv_doeReply | apply inv_spdmMessage | apply inv_spdmSecured) | simp only [inv_upd] | split)
theorem inv_doeAbort {s : State} (hI : Kept q s) : Kept q (doeAbort s) := by
  unfold doeAbort; exact hI
theorem inv_spdmDone (tok step : Nat) (secured : Bool) (p : Bytes) (e : Nat) (r : List Bytes) {s : State} (hI : Kept q s) : Kept q (spdmDone tok step secured p e r s) := by
  unfold spdmDone; repeat' (first | (with_reducible first | assumption | apply inv_commitSlot | apply inv_drawBytes | apply inv_pqAdd | apply inv_sessEnd | apply inv_spdmReply | apply inv_zeroSlots) | simp only [inv_upd] | split)
end Sys2Proof.Machine
end

