-- ==== Sys2Proof/Laws/Inv9.lean ====
section
/-! SUPPORT. What `Kept` says of the operations of Mgmt, Pldm, RackEv, Complete, Regs and Tick. -/

open Sys2Proof.Machine
namespace Sys2Proof.Machine
set_option linter.all false
variable {q : List Instr}
theorem inv_mgDiscard {s : State} (hI : Kept q s) : Kept q (mgDiscard s) := by
  unfold mgDiscard; repeat' (first | (with_reducible first | assumption | apply inv_mgStageEmpty) | (simp only [inv_mk]; refine ⟨⟨?_, ?_, ?_, ?_, ?_, ?_, ?_, ?_, ?_, ?_⟩, ?_⟩) | (with_reducible first | apply inv_wd | apply inv_units | apply inv_sq | apply inv_otp | apply inv_ks | apply inv_pk | apply inv_ms | apply inv_fl | apply inv_mb | apply inv_q) | exact inv_mg (by assumption))
theorem inv_mgAddress (da : Nat) {s : State} (hI : Kept q s) : Kept q (mgAddress da s) := by
  unfold mgAddress; repeat' (first | (with_reducible first | apply inv_mgDiscard | apply inv_ite) | ((try lift_lets); intro x; first | (refine (?_ : MgOk x → _) (inv_mg (q := q) ?_); intro _; clear_value x)) | (simp only [inv_mk]; refine ⟨⟨?_, ?_, ?_, ?_, ?_, ?_, ?_, ?_, ?_, ?_⟩, ?_⟩) | (with_reducible first | apply inv_wd | apply inv_units | apply inv_sq | apply inv_otp | apply inv_ks | apply inv_pk | apply inv_ms | apply inv_fl | apply inv_mb | apply inv_q) | assumption)
theorem inv_ctlReply (cmd cc : Nat) (d : Bytes) {s : State} (hI : Kept q s) : Kept q (ctlReply cmd cc d s) := by
  unfold ctlReply; repeat' (first | (with_reducible first | assumption | apply inv_mgSend))
theorem inv_ctlSetEid (b : Bytes) {s : State} (hI : Kept q s) : Kept q (ctlSetEid b s) := by
  unfold ctlSetEid; repeat' (first | (with_reducible first | apply inv_ctlReply | apply inv_ite) | ((try lift_lets); intro x; first | (refine (?_ : MgOk x → _) (inv_mg (q := q) ?_); intro _; clear_value x)) | (simp only [inv_mk]; refine ⟨⟨?_, ?_, ?_, ?_, ?_, ?_, ?_, ?_, ?_, ?_⟩, ?_⟩) | (with_reducible first | apply inv_wd | apply inv_units | apply inv_sq | apply inv_otp | apply inv_ks | apply inv_pk | apply inv_ms | apply inv_fl | apply inv_mb | apply inv_q) | assumption)
theorem inv_ctlGetEid (b : Bytes) {s : State} (hI : Kept q s) : Kept q (ctlGetEid b s) := by
  unfold ctlGetEid; repeat' (first | (with_reducible first | assumption | apply inv_ctlReply | apply inv_ite))
theorem inv_ctlUuid (b : Bytes) {s : State} (hI : Kept q s) : Kept q (ctlUuid b s) := by
  unfold ctlUuid; repeat' (first | (with_reducible first | assumption | apply inv_ctlReply | apply inv_ite))
theorem inv_ctlVersion (b : Bytes) {s : State} (hI : Kept q s) : Kept q (ctlVersion b s) := by
  unfold ctlVersion; repeat' (first | (with_reducible first | assumption | apply inv_ctlReply | apply inv_ite))
theorem inv_ctlTypes (b : Bytes) {s : State} (hI : Kept q s) : Kept q (ctlTypes b s) := by
  unfold ctlTypes; repeat' (first | (with_reducible first | assumption | apply inv_ctlReply | apply inv_ite))
theorem inv_ctlVendor (b : Bytes) {s : State} (hI : Kept q s) : Kept q (ctlVendor b s) := by
  unfold ctlVendor; repeat' (first | (with_reducible first | assumption | apply inv_ctlReply | apply inv_ite))
theorem inv_mgControl (m : Bytes) {s : State} (hI : Kept q s) : Kept q (mgControl m s) := by
  unfold mgControl; repeat' (first | (with_reducible first | assumption | apply inv_ctlGetEid | apply inv_ctlReply | apply inv_ctlSetEid | apply inv_ctlTypes | apply inv_ctlUuid | apply inv_ctlVendor | apply inv_ctlVersion | apply inv_ite) | split)
theorem inv_mgKeepaliveBody (c : HostCall) {s : State} (hI : Kept q s) : Kept q (mgKeepaliveBody c s).s := by
  unfold mgKeepaliveBody; repeat' (first | (with_reducible first | apply inv_cmdOk | apply inv_pldmEvent | apply inv_sized | apply inv_ite) | (intro c s h; have : Kept q s := h) | ((try lift_lets); intro x; first | (refine (?_ : MgOk x → _) (inv_mg (q := q) ?_); intro _; clear_value x)) | (simp only [inv_mk]; refine ⟨⟨?_, ?_, ?_, ?_, ?_, ?_, ?_, ?_, ?_, ?_⟩, ?_⟩) | (with_reducible first | apply inv_wd | apply inv_units | apply inv_sq | apply inv_otp | apply inv_ks | apply inv_pk | apply inv_ms | apply inv_fl | apply inv_mb | apply inv_q) | assumption)
theorem inv_mgCap (w : Nat) {s : State} (hI : Kept q s) : Kept q (mgCap w s) := by
  unfold mgCap; exact hI
theorem inv_mgCapBody (c : HostCall) {s : State} (hI : Kept q s) : Kept q (mgCapBody c s).s := by
  unfold mgCapBody; repeat' (first | (with_reducible first | assumption | apply inv_cmdFail | apply inv_cmdOk | apply inv_mgCap | apply inv_sized | apply inv_iteS) | (intro c s h; have : Kept q s := h))
theorem inv_mgHoldBody (c : HostCall) {s : State} (hI : Kept q s) : Kept q (mgHoldBody c s).s := by
  unfold mgHoldBody; repeat' (first | (with_reducible first | apply inv_cmdOk | apply inv_sized | apply inv_iteS) | (intro c s h; have : Kept q s := h) | ((try lift_lets); intro x; first | (refine (?_ : MgOk x → _) (inv_mg (q := q) ?_); intro _; clear_value x)) | (simp only [inv_mk]; refine ⟨⟨?_, ?_, ?_, ?_, ?_, ?_, ?_, ?_, ?_, ?_⟩, ?_⟩) | (with_reducible first | apply inv_wd | apply inv_units | apply inv_sq | apply inv_otp | apply inv_ks | apply inv_pk | apply inv_ms | apply inv_fl | apply inv_mb | apply inv_q) | assumption)
theorem inv_mgDaddrBody (c : HostCall) {s : State} (hI : Kept q s) : Kept q (mgDaddrBody c s).s := by
  unfold mgDaddrBody; repeat' (first | (with_reducible first | assumption | apply inv_cmdFail | apply inv_cmdOk | apply inv_daddrSet | apply inv_sized | apply inv_iteS) | (intro c s h; have : Kept q s := h))
theorem inv_rakPut (key : Bytes) {s : State} (hI : Kept q s) : Kept q (rakPut key s) := by
  unfold rakPut; exact hI
theorem inv_mgRakBody (c : HostCall) {s : State} (hI : Kept q s) : Kept q (mgRakBody c s).s := by
  unfold mgRakBody; repeat' (first | (with_reducible first | assumption | apply inv_cmdFail | apply inv_cmdOk | apply inv_cmdWait | apply inv_pqAdd | apply inv_rakPut | apply inv_staged) | (intro s h; have : Kept q s := h) | ((try lift_lets); intro x; first | (fail_if_success (first | (have : State := x) | fail))) | simp only [inv_upd] | split)
theorem inv_rakDone (word : Nat) (key : Bytes) (e : Nat) (ok : Bool) {s : State} (hI : Kept q s) : Kept q (rakDone word key e ok s) := by
  unfold rakDone; repeat' (first | (with_reducible first | assumption | apply inv_answer | apply inv_rakPut | apply inv_ite))
theorem inv_mgCsrBody (c : HostCall) {s : State} (hI : Kept q s) : Kept q (mgCsrBody c s).s := by
  unfold mgCsrBody; repeat' (first | (with_reducible first | assumption | apply inv_cmdFail | apply inv_cmdWait | apply inv_pqAdd | apply inv_sized | apply inv_iteS) | (intro c s h; have : Kept q s := h))
theorem inv_csrDone (word scheme : Nat) (m : Bytes) (e : Nat) (r : List Bytes) {s : State} (hI : Kept q s) : Kept q (csrDone word scheme m e r s) := by
  unfold csrDone; repeat' (first | (with_reducible first | assumption | apply inv_answer | apply inv_ite))
theorem inv_mgCertBody (c : HostCall) {s : State} (hI : Kept q s) : Kept q (mgCertBody c s).s := by
  unfold mgCertBody; repeat' (first | (with_reducible first | assumption | apply inv_cmdFail | apply inv_cmdWait | apply inv_flashSync | apply inv_staged | apply inv_iteS) | (intro s h; have : Kept q s := h) | ((try lift_lets); intro x; first | (fail_if_success (first | (have : State := x) | fail))))
theorem inv_certDone (word scheme : Nat) (der : Bytes) (ok : Bool) {s : State} (hI : Kept q s) : Kept q (certDone word scheme der ok s) := by
  unfold certDone; repeat' (first | (with_reducible first | assumption | apply inv_answer | apply inv_flashErrorEv | apply inv_flashPut | apply inv_flashSpoil | apply inv_ite) | simp only [inv_upd])
theorem inv_mgSetkeyBody (c : HostCall) {s : State} (hI : Kept q s) : Kept q (mgSetkeyBody c s).s := by
  unfold mgSetkeyBody; repeat' (first | (with_reducible first | assumption | apply inv_cmdFail | apply inv_cmdWait | apply inv_pqAdd | apply inv_sized | apply inv_iteS) | (intro c s h; have : Kept q s := h))
theorem inv_setKeyDone (word : Nat) (m : Bytes) (e : Nat) (ec ml : Bytes) {s : State} (hI : Kept q s) : Kept q (setKeyDone word m e ec ml s) := by
  unfold setKeyDone; repeat' (first | (with_reducible first | assumption | apply inv_answer | apply inv_ite))
theorem inv_mgRequestBody (c : HostCall) {s : State} (hI : Kept q s) : Kept q (mgRequestBody c s).s := by
  unfold mgRequestBody; repeat' (first | (with_reducible first | apply inv_cmdOk | apply inv_raiseHost | apply inv_sized | apply inv_iteS) | (intro c s h; have : Kept q s := h) | ((try lift_lets); intro x; first | (refine (?_ : MgOk x → _) (inv_mg (q := q) ?_); intro _; clear_value x)) | (simp only [inv_mk]; refine ⟨⟨?_, ?_, ?_, ?_, ?_, ?_, ?_, ?_, ?_, ?_⟩, ?_⟩) | (with_reducible first | apply inv_wd | apply inv_units | apply inv_sq | apply inv_otp | apply inv_ks | apply inv_pk | apply inv_ms | apply inv_fl | apply inv_mb | apply inv_q) | assumption)
theorem inv_mgProvisionBody (c : HostCall) {s : State} (hI : Kept q s) : Kept q (mgProvisionBody c s).s := by
  unfold mgProvisionBody; repeat' (first | (with_reducible first | apply inv_cmdWait | apply inv_otGen | apply inv_otLc | apply inv_otProg | apply inv_sized | apply inv_tokenOtpEnd | apply inv_unitSend | apply inv_ite | apply inv_iteS) | (intro c s h; have : Kept q s := h) | ((try lift_lets); intro x; first | (refine (?_ : OtOk x → _) (inv_otp (q := q) ?_); intro _; clear_value x)) | (simp only [inv_mk]; refine ⟨⟨?_, ?_, ?_, ?_, ?_, ?_, ?_, ?_, ?_, ?_⟩, ?_⟩) | (with_reducible first | apply inv_wd | apply inv_units | apply inv_sq | apply inv_ks | apply inv_pk | apply inv_ms | apply inv_fl | apply inv_mg | apply inv_mb | apply inv_q) | assumption)
theorem inv_mgRun (op : Nat) (f : HostCall → State → CmdRes) (c : HostCall) {s : State} (hI : Kept q s) (hf : ∀ x0 x1, Kept q x1 → Kept q (f x0 x1).s) : Kept q (mgRun op f c s) := by
  unfold mgRun; repeat' (first | (with_reducible first | assumption | apply inv_answer | apply hf) | ((try lift_lets); intro x; first | (fail_if_success (first | (have : State := x) | fail))) | split)
theorem inv_mgBody {op : Nat} {f : HostCall → State → CmdRes} (e : mgBody op = some f) : ∀ c s, Kept q s → Kept q (f c s).s := by
  unfold mgBody at e
  split at e <;> first | (obtain rfl := Option.some.inj e) | cases e
  · exact fun c s h => inv_mgKeepaliveBody c h
  · exact fun c s h => inv_mgCapBody c h
  · exact fun c s h => inv_mgHoldBody c h
  · exact fun c s h => inv_mgDaddrBody c h
  · exact fun c s h => inv_mgRakBody c h
  · exact fun c s h => inv_mgCsrBody c h
  · exact fun c s h => inv_mgCertBody c h
  · exact fun c s h => inv_mgSetkeyBody c h
  · exact fun c s h => inv_mgRequestBody c h
  · exact fun c s h => inv_mgProvisionBody c h

theorem inv_mgVendor (m : Bytes) {s : State} (hI : Kept q s) : Kept q (mgVendor m s) := by
  unfold mgVendor
  dsimp only
  refine inv_ite (inv_set_mg hI (inv_mg hI)) (inv_ite (inv_buildRsp _ _ _ _ _ hI) (inv_ite (inv_buildRsp _ _ _ _ _ hI) ?_))
  split
  · rename_i f e
    exact inv_mgRun _ _ _ hI (inv_mgBody e)
  · exact inv_ite (inv_buildRsp _ _ _ _ _ hI) (inv_ite (inv_buildRsp _ _ _ _ _ hI)
      (inv_ite (inv_softReset _ (inv_hostDispatch _ _ hI)) (inv_hostDispatch _ _ hI)))
theorem inv_orphanExpiry {s : State} (hI : Kept q s) : Kept q (orphanExpiry s) := by
  unfold orphanExpiry; repeat' (first | (with_reducible first | assumption | apply inv_pldmEvent | apply inv_ite) | (simp only [inv_mk]; refine ⟨⟨?_, ?_, ?_, ?_, ?_, ?_, ?_, ?_, ?_, ?_⟩, ?_⟩) | (with_reducible first | apply inv_wd | apply inv_units | apply inv_sq | apply inv_otp | apply inv_ks | apply inv_pk | apply inv_ms | apply inv_fl | apply inv_mb | apply inv_q) | exact inv_mg (by assumption))
theorem inv_pldmReply (ty cmd cc : Nat) (d : Bytes) {s : State} (hI : Kept q s) : Kept q (pldmReply ty cmd cc d s) := by
  unfold pldmReply; repeat' (first | (with_reducible first | assumption | apply inv_mgSend))
theorem inv_pldmGetTid (b : Bytes) {s : State} (hI : Kept q s) : Kept q (pldmGetTid b s) := by
  unfold pldmGetTid; repeat' (first | (with_reducible first | assumption | apply inv_pldmReply | apply inv_ite))
theorem inv_pldmSetTid (b : Bytes) {s : State} (hI : Kept q s) : Kept q (pldmSetTid b s) := by
  unfold pldmSetTid; repeat' (first | (with_reducible first | apply inv_pldmReply | apply inv_ite) | ((try lift_lets); intro x; first | (refine (?_ : MgOk x → _) (inv_mg (q := q) ?_); intro _; clear_value x)) | (simp only [inv_mk]; refine ⟨⟨?_, ?_, ?_, ?_, ?_, ?_, ?_, ?_, ?_, ?_⟩, ?_⟩) | (with_reducible first | apply inv_wd | apply inv_units | apply inv_sq | apply inv_otp | apply inv_ks | apply inv_pk | apply inv_ms | apply inv_fl | apply inv_mb | apply inv_q) | assumption)
theorem inv_pldmVersion (b : Bytes) {s : State} (hI : Kept q s) : Kept q (pldmVersion b s) := by
  unfold pldmVersion; repeat' (first | (with_reducible first | assumption | apply inv_pldmReply | apply inv_ite))
theorem inv_pldmTypes (b : Bytes) {s : State} (hI : Kept q s) : Kept q (pldmTypes b s) := by
  unfold pldmTypes; repeat' (first | (with_reducible first | assumption | apply inv_pldmReply | apply inv_ite))
theorem inv_pldmCommands (b : Bytes) {s : State} (hI : Kept q s) : Kept q (pldmCommands b s) := by
  unfold pldmCommands; repeat' (first | (with_reducible first | assumption | apply inv_pldmReply | apply inv_ite))
theorem inv_pdrInfo (b : Bytes) {s : State} (hI : Kept q s) : Kept q (pdrInfo b s) := by
  unfold pdrInfo; repeat' (first | (with_reducible first | assumption | apply inv_pldmReply | apply inv_ite))
theorem inv_pdrGet (b : Bytes) {s : State} (hI : Kept q s) : Kept q (pdrGet b s) := by
  unfold pdrGet; repeat' (first | (with_reducible first | assumption | apply inv_pldmReply | apply inv_ite))
theorem inv_pldmSensor (b : Bytes) {s : State} (hI : Kept q s) : Kept q (pldmSensor b s) := by
  unfold pldmSensor; repeat' (first | (with_reducible first | assumption | apply inv_pldmReply | apply inv_ite))
theorem inv_pldmState (b : Bytes) {s : State} (hI : Kept q s) : Kept q (pldmState b s) := by
  unfold pldmState; repeat' (first | (with_reducible first | assumption | apply inv_pldmReply | apply inv_ite))
theorem inv_pldmNumEff (b : Bytes) {s : State} (hI : Kept q s) : Kept q (pldmNumEff b s) := by
  unfold pldmNumEff; repeat' (first | (with_reducible first | assumption | apply inv_mgCap | apply inv_pldmReply | apply inv_ite))
theorem inv_pldmStateEff (b : Bytes) {s : State} (hI : Kept q s) : Kept q (pldmStateEff b s) := by
  unfold pldmStateEff; repeat' (first | (with_reducible first | apply inv_pldmReply | apply inv_ite) | ((try lift_lets); intro x; first | (refine (?_ : MgOk x → _) (inv_mg (q := q) ?_); intro _; clear_value x)) | (simp only [inv_mk]; refine ⟨⟨?_, ?_, ?_, ?_, ?_, ?_, ?_, ?_, ?_, ?_⟩, ?_⟩) | (with_reducible first | apply inv_wd | apply inv_units | apply inv_sq | apply inv_otp | apply inv_ks | apply inv_pk | apply inv_ms | apply inv_fl | apply inv_mb | apply inv_q) | assumption)
theorem inv_pldmReceiver (b : Bytes) {s : State} (hI : Kept q s) : Kept q (pldmReceiver b s) := by
  unfold pldmReceiver; repeat' (first | (with_reducible first | assumption | apply inv_pldmReply | apply inv_ite) | (simp only [inv_mk]; refine ⟨⟨?_, ?_, ?_, ?_, ?_, ?_, ?_, ?_, ?_, ?_⟩, ?_⟩) | (with_reducible first | apply inv_wd | apply inv_units | apply inv_sq | apply inv_otp | apply inv_ks | apply inv_pk | apply inv_ms | apply inv_fl | apply inv_mb | apply inv_q) | exact inv_mg (by assumption))
theorem inv_pldmPoll (b : Bytes) {s : State} (hI : Kept q s) : Kept q (pldmPoll b s) := by
  unfold pldmPoll; repeat' (first | (with_reducible first | apply inv_pldmReply | apply inv_ite | apply inv_mg) | ((try lift_lets); intro x; first | (refine (?_ : MgOk x → _) (inv_mg (q := q) ?_); intro _; clear_value x)) | (simp only [inv_mk]; refine ⟨⟨?_, ?_, ?_, ?_, ?_, ?_, ?_, ?_, ?_, ?_⟩, ?_⟩) | (with_reducible first | apply inv_wd | apply inv_units | apply inv_sq | apply inv_otp | apply inv_ks | apply inv_pk | apply inv_ms | apply inv_fl | apply inv_mb | apply inv_q) | split | assumption)
theorem inv_eventResend {s : State} (hI : Kept q s) : Kept q (eventResend s) := by
  unfold eventResend; repeat' (first | (with_reducible first | assumption | apply inv_emit) | (simp only [inv_mk]; refine ⟨⟨?_, ?_, ?_, ?_, ?_, ?_, ?_, ?_, ?_, ?_⟩, ?_⟩) | (with_reducible first | apply inv_wd | apply inv_units | apply inv_sq | apply inv_otp | apply inv_ks | apply inv_pk | apply inv_ms | apply inv_fl | apply inv_mb | apply inv_q) | exact inv_mg (by assumption) | split)
theorem inv_fwRequest (b : Bytes) {s : State} (hI : Kept q s) : Kept q (fwRequest b s) := by
  unfold fwRequest; repeat' (first | (with_reducible first | assumption | apply inv_pldmReply | apply inv_ite) | simp only [inv_upd])
theorem inv_fwTable (b : Bytes) {s : State} (hI : Kept q s) : Kept q (fwTable b s) := by
  unfold fwTable; repeat' (first | (with_reducible first | assumption | apply inv_pldmReply | apply inv_ite) | simp only [inv_upd])
theorem inv_fwUpdate (b : Bytes) {s : State} (hI : Kept q s) : Kept q (fwUpdate b s) := by
  unfold fwUpdate; repeat' (first | (with_reducible first | assumption | apply inv_flashSync | apply inv_pldmReply) | simp only [inv_upd] | split)
theorem inv_fwData (b : Bytes) {s : State} (hI : Kept q s) : Kept q (fwData b s) := by
  unfold fwData; repeat' (first | (with_reducible first | assumption | apply inv_flashSync | apply inv_pldmFail | apply inv_ite) | split)
theorem inv_fwActivate (b : Bytes) {s : State} (hI : Kept q s) : Kept q (fwActivate b s) := by
  unfold fwActivate; repeat' (first | (with_reducible first | assumption | apply inv_flashSync | apply inv_pldmReply) | simp only [inv_upd] | split)
theorem inv_fwCancel {s : State} (hI : Kept q s) : Kept q (fwCancel s) := by
  unfold fwCancel; repeat' (first | (with_reducible first | assumption | apply inv_flashSync | apply inv_ite))
theorem inv_fwCancelComp {s : State} (hI : Kept q s) : Kept q (fwCancelComp s) := by
  unfold fwCancelComp; repeat' (first | (with_reducible first | assumption | apply inv_fwCancel | apply inv_pldmReply | apply inv_ite) | simp only [inv_upd])
theorem inv_fwCancelAll {s : State} (hI : Kept q s) : Kept q (fwCancelAll s) := by
  unfold fwCancelAll; repeat' (first | (with_reducible first | assumption | apply inv_fwCancel | apply inv_pldmReply | apply inv_ite) | simp only [inv_upd])
theorem inv_fwStatus {s : State} (hI : Kept q s) : Kept q (fwStatus s) := by
  unfold fwStatus; repeat' (first | (with_reducible first | assumption | apply inv_pldmReply))
theorem inv_pldmBase (cmd : Nat) (b : Bytes) {s : State} (hI : Kept q s) : Kept q (pldmBase cmd b s) := by
  unfold pldmBase; repeat' (first | (with_reducible first | assumption | apply inv_pldmCommands | apply inv_pldmGetTid | apply inv_pldmReply | apply inv_pldmSetTid | apply inv_pldmTypes | apply inv_pldmVersion) | split)
theorem inv_pldmPlatform (cmd : Nat) (b : Bytes) {s : State} (hI : Kept q s) : Kept q (pldmPlatform cmd b s) := by
  unfold pldmPlatform; repeat' (first | (with_reducible first | assumption | apply inv_pdrGet | apply inv_pdrInfo | apply inv_pldmNumEff | apply inv_pldmPoll | apply inv_pldmReceiver | apply inv_pldmReply | apply inv_pldmSensor | apply inv_pldmState | apply inv_pldmStateEff) | split)
theorem inv_pldmUpdate (cmd : Nat) (b : Bytes) {s : State} (hI : Kept q s) : Kept q (pldmUpdate cmd b s) := by
  unfold pldmUpdate; repeat' (first | (with_reducible first | assumption | apply inv_fwActivate | apply inv_fwCancelAll | apply inv_fwCancelComp | apply inv_fwRequest | apply inv_fwStatus | apply inv_fwTable | apply inv_fwUpdate | apply inv_pldmReply) | split)
theorem inv_mgPldm (m : Bytes) {s : State} (hI : Kept q s) : Kept q (mgPldm m s) := by
  unfold mgPldm; repeat' (first | (with_reducible first | apply inv_fwData | apply inv_pldmBase | apply inv_pldmPlatform | apply inv_pldmReply | apply inv_pldmUpdate | apply inv_ite) | ((try lift_lets); intro x; first | (refine (?_ : MgOk x → _) (inv_mg (q := q) ?_); intro _; clear_value x)) | (simp only [inv_mk]; refine ⟨⟨?_, ?_, ?_, ?_, ?_, ?_, ?_, ?_, ?_, ?_⟩, ?_⟩) | (with_reducible first | apply inv_wd | apply inv_units | apply inv_sq | apply inv_otp | apply inv_ks | apply inv_pk | apply inv_ms | apply inv_fl | apply inv_mb | apply inv_q) | split | assumption)
theorem inv_mgStart (r : MgReq) {s : State} (hI : Kept q s) : Kept q (mgStart r s) := by
  unfold mgStart; repeat' (first | (with_reducible first | apply inv_mgControl | apply inv_mgPldm | apply inv_mgVendor | apply inv_mg) | ((try lift_lets); intro x; first | (refine (?_ : MgOk x → _) (inv_mg (q := q) ?_); intro _; clear_value x)) | (simp only [inv_mk]; refine ⟨⟨?_, ?_, ?_, ?_, ?_, ?_, ?_, ?_, ?_, ?_⟩, ?_⟩) | (with_reducible first | apply inv_wd | apply inv_units | apply inv_sq | apply inv_otp | apply inv_ks | apply inv_pk | apply inv_ms | apply inv_fl | apply inv_mb | apply inv_q) | split | assumption)
theorem inv_mgPump (n : Nat) {s : State} (hI : Kept q s) : Kept q (mgPump n s) := by
  induction n generalizing s with
  | zero => exact hI
  | succ n ih => unfold mgPump; repeat' (first | (with_reducible first | assumption | apply ih | apply inv_mgStart | apply inv_mg) | (simp only [inv_mk]; refine ⟨⟨?_, ?_, ?_, ?_, ?_, ?_, ?_, ?_, ?_, ?_⟩, ?_⟩) | (with_reducible first | apply inv_wd | apply inv_units | apply inv_sq | apply inv_otp | apply inv_ks | apply inv_pk | apply inv_ms | apply inv_fl | apply inv_mb | apply inv_q) | exact inv_mg (by assumption) | split)
theorem inv_mgMessage (peer tag : Nat) (m : Bytes) {s : State} (hI : Kept q s) : Kept q (mgMessage peer tag m s) := by
  unfold mgMessage; repeat' (first | (with_reducible first | assumption | apply inv_mgPump | apply inv_ite) | (simp only [inv_mk]; refine ⟨⟨?_, ?_, ?_, ?_, ?_, ?_, ?_, ?_, ?_, ?_⟩, ?_⟩) | (with_reducible first | apply inv_wd | apply inv_units | apply inv_sq | apply inv_otp | apply inv_ks | apply inv_pk | apply inv_ms | apply inv_fl | apply inv_mb | apply inv_q) | exact inv_mg (by assumption))
theorem inv_mgRow (m : Bytes) {s : State} (hI : Kept q s) : Kept q (mgRow m s) := by
  unfold mgRow; repeat' (first | (with_reducible first | assumption | apply inv_mgMessage))
theorem inv_mgPacket (p : Bytes) {s : State} (hI : Kept q s) : Kept q (mgPacket p s) := by
  unfold mgPacket
  have hm := inv_mg hI
  lift_lets; intro fl src tag sq d dst
  refine inv_ite hI ?_
  generalize (if bit fl 7 then some (⟨src, tag, sq, d⟩ : Reasm) else match s.mg.reasm with
        | some r => if r.peer = src && r.tag = tag && (r.seqNo + 1) % 4 = sq then some ⟨src, tag, sq, r.body ++ d⟩ else none
        | none => none) = r
  cases r with
  | none => exact inv_ite (inv_set_mg hI hm) hI
  | some r => exact inv_ite (inv_set_mg hI hm) (inv_ite (inv_mgMessage _ _ _ (inv_set_mg hI hm)) (inv_set_mg hI hm))
theorem inv_mgDrain {s : State} (hI : Kept q s) : Kept q (mgDrain s) := by
  unfold mgDrain; repeat' (first | (with_reducible first | assumption | apply inv_mgPacket | apply inv_foldl | apply inv_ite) | (intro s x h; have : Kept q s := h) | (simp only [inv_mk]; refine ⟨⟨?_, ?_, ?_, ?_, ?_, ?_, ?_, ?_, ?_, ?_⟩, ?_⟩) | (with_reducible first | apply inv_wd | apply inv_units | apply inv_sq | apply inv_otp | apply inv_ks | apply inv_pk | apply inv_ms | apply inv_fl | apply inv_mb | apply inv_q) | exact inv_mg (by assumption))
theorem inv_mctpRx (p : Bytes) {s : State} (hI : Kept q s) : Kept q (mctpRx p s) := by
  unfold mctpRx; repeat' (first | (with_reducible first | apply inv_irq | apply inv_mgDrain | apply inv_ite) | ((try lift_lets); intro x; first | (refine (?_ : MgOk x → _) (inv_mg (q := q) ?_); intro _; clear_value x)) | (simp only [inv_mk]; refine ⟨⟨?_, ?_, ?_, ?_, ?_, ?_, ?_, ?_, ?_, ?_⟩, ?_⟩) | (with_reducible first | apply inv_wd | apply inv_units | apply inv_sq | apply inv_otp | apply inv_ks | apply inv_pk | apply inv_ms | apply inv_fl | apply inv_mb | apply inv_q) | assumption)
theorem inv_mctpTimeout {s : State} (hI : Kept q s) : Kept q (mctpTimeout s) := by
  unfold mctpTimeout; repeat' (first | (with_reducible first | assumption | apply inv_mgDiscard | apply inv_ite))
theorem inv_rackSend {s : State} (hI : Kept q s) : Kept q (rackSend s) := by
  unfold rackSend; repeat' (first | (with_reducible first | assumption | apply inv_mgRow))
theorem inv_rackPost (r : Nat) {s : State} (hI : Kept q s) : Kept q (rackPost r s) := by
  unfold rackPost; repeat' (first | (with_reducible first | assumption | apply inv_mgRow))
theorem inv_brakeLineOff {s : State} (hI : Kept q s) : Kept q (brakeLineOff s) := by
  unfold brakeLineOff; repeat' (first | (with_reducible first | assumption | apply inv_brakeDeassert) | simp only [inv_upd])
theorem inv_shelfEvent (n : Nat) {s : State} (hI : Kept q s) : Kept q (shelfEvent n s) := by
  unfold shelfEvent; repeat' (first | (with_reducible first | assumption | apply inv_brakeAssert) | simp only [inv_upd])
theorem inv_bbcHoldEnd {s : State} (hI : Kept q s) : Kept q (bbcHoldEnd s) := by
  unfold bbcHoldEnd; repeat' (first | (with_reducible first | assumption | apply inv_brakeLineOff | apply inv_ite) | simp only [inv_upd])
theorem inv_rmRelease {s : State} (hI : Kept q s) : Kept q (rmRelease s) := by
  unfold rmRelease; repeat' (first | (with_reducible first | assumption | apply inv_brakeLineOff | apply inv_rackSend | apply inv_ite) | simp only [inv_upd])
theorem inv_pumpLost (n : Nat) {s : State} (hI : Kept q s) : Kept q (pumpLost n s) := by
  unfold pumpLost; repeat' (first | (with_reducible first | assumption | apply inv_rackPost | apply inv_rackSend | apply inv_ite) | simp only [inv_upd])
theorem inv_pumpBack (n : Nat) {s : State} (hI : Kept q s) : Kept q (pumpBack n s) := by
  unfold pumpBack; repeat' (first | (with_reducible first | assumption | apply inv_rackSend | apply inv_ite) | simp only [inv_upd])
theorem inv_shelfBack (n : Nat) {s : State} (hI : Kept q s) : Kept q (shelfBack n s) := by
  unfold shelfBack; repeat' (first | (with_reducible first | assumption | apply inv_rackSend | apply inv_ite) | simp only [inv_upd])
theorem inv_rmFailover {s : State} (hI : Kept q s) : Kept q (rmFailover s) := by
  unfold rmFailover; repeat' (first | (with_reducible first | assumption | apply inv_mgRow | apply inv_rackSend | apply inv_ite) | simp only [inv_upd])
theorem inv_batchDone (e : Nat) (ec ml : Bytes) {s : State} (hI : Kept q s) : Kept q (batchDone e ec ml s) := by
  unfold batchDone; repeat' (first | (with_reducible first | assumption | apply inv_logEvent | apply inv_switchBatches) | simp only [inv_upd] | split)
theorem inv_entryDone (p : Purp) (e : Nat) (r : List Bytes) {s : State} (hI : Kept q s) : Kept q (entryDone p e r s) := by
  unfold entryDone
  dsimp only
  split
  · exact inv_batchDone _ _ _ hI
  · exact inv_ite (inv_switchSigned _ _ hI) hI
  · exact inv_reportDone _ _ _ _ _ _ _ _ _ _ hI
  · exact inv_enrollDone _ _ _ _ _ hI
  · exact inv_revokeDone _ _ _ _ _ _ hI
  · exact inv_tokenDone _ _ _ _ _ _ hI
  · exact inv_linkClearDone _ _ _ _ _ _ hI
  · exact inv_releaseDone _ _ _ _ _ _ _ _ _ hI
  · exact inv_setAuthDone _ _ _ _ _ _ hI
  · exact inv_ephemeralDone _ _ _ _ _ hI
  · exact inv_keyxDone _ _ _ _ _ _ _ hI
  · exact inv_updVerifyDone _ _ _ _ _ _ hI
  · exact inv_spdmDone _ _ _ _ _ _ hI
  · exact inv_setKeyDone _ _ _ _ _ hI
  · exact inv_csrDone _ _ _ _ _ hI
  · exact inv_rakDone _ _ _ _ hI
  · exact inv_healthDone _ _ _ _ _ hI
theorem inv_entryRun (x : PqEntry) {s : State} (hI : Kept q s) : Kept q (entryRun x s) := by
  unfold entryRun; repeat' (first | (with_reducible first | assumption | apply inv_pqStartJob) | simp only [inv_upd] | split)
theorem inv_entryStep (x : PqEntry) (e : Nat) (res : List Bytes) {s : State} (hI : Kept q s) : Kept q (entryStep x e res s) := by
  unfold entryStep; repeat' (first | (with_reducible first | assumption | apply inv_entryDone | apply inv_entryRun) | simp only [inv_upd] | split)
theorem inv_pkErrorEv (op e : Nat) {s : State} (hI : Kept q s) : Kept q (pkErrorEv op e s) := by
  unfold pkErrorEv; repeat' (first | (with_reducible first | assumption | apply inv_logEvent | apply inv_ite))
theorem inv_pkComplete (x : PkEnd) {s : State} (hI : Kept q s) : Kept q (pkComplete x s) := by
  unfold pkComplete; repeat' (first | (with_reducible first | assumption | apply inv_entryStep | apply inv_pkErrorEv | apply inv_pkFinish | apply inv_pqDispatch | apply inv_rcResume | apply inv_softReset | apply inv_ite) | split)
theorem inv_spiDone (ok : Bool) {s : State} (hI : Kept q s) : Kept q (spiDone ok s) := by
  unfold spiDone; repeat' (first | (with_reducible first | assumption | apply inv_certDone | apply inv_flashNext | apply inv_irq | apply inv_rosterSync | apply inv_updSync) | simp only [inv_upd] | split)
theorem inv_pulse (v : Nat) {s : State} (hI : Kept q s) : Kept q (modOtp (fun o => { o with pulse := clampTo 2000 8000 v }) s) :=
  inv_set_otp hI ⟨by dsimp only [clampTo]; omega, by dsimp only [clampTo]; omega⟩

theorem inv_otpReg (off v : Nat) {s : State} (hI : Kept q s) : Kept q (otpReg off v s) := by
  unfold otpReg
  dsimp only
  split
  · split
    · exact inv_otRead hI
    · exact inv_otProg hI
    · exact inv_otGen hI
    · exact inv_otIncr _ _ hI
    · exact inv_otRevoke _ hI
    · exact inv_otLc _ hI
    · exact inv_otRepair hI
    · exact inv_ite (inv_otBusy hI) (inv_otEnd _ hI)
  · exact inv_modOtp _ hI rfl
  · exact inv_modOtp _ hI rfl
  · exact inv_modOtp _ hI rfl
  · exact inv_modOtp _ hI rfl
  · exact inv_pulse _ hI
  · exact hI
theorem inv_dgCtrl (v : Nat) {s : State} (hI : Kept q s) : Kept q (dgCtrl v s) := by
  unfold dgCtrl; repeat' (first | (with_reducible first | assumption | apply inv_ite) | simp only [inv_upd])
theorem inv_dgDstcfg (v : Nat) {s : State} (hI : Kept q s) : Kept q (dgDstcfg v s) := by
  unfold dgDstcfg; exact hI
theorem inv_dgCmd (v : Nat) {s : State} (hI : Kept q s) : Kept q (dgCmd v s) := by
  unfold dgCmd; repeat' (first | (with_reducible first | assumption | apply inv_dgClear | apply inv_dgFinish | apply inv_dgRootKdf | apply inv_dgStart | apply inv_ite))
theorem inv_dgReg (off v : Nat) {s : State} (hI : Kept q s) : Kept q (dgReg off v s) := by
  unfold dgReg; repeat' (first | (with_reducible first | assumption | apply inv_dgCmd | apply inv_dgCtrl | apply inv_dgData | apply inv_dgDstcfg | apply inv_dgGuard) | (intro s h; have : Kept q s := h) | simp only [inv_upd] | split)
theorem inv_msReg (off v : Nat) {s : State} (hI : Kept q s) : Kept q (msReg off v s) := by
  unfold msReg; repeat' (first | (with_reducible first | assumption | apply inv_msBusy | apply inv_msCmdExtend | apply inv_msCmdLock | apply inv_msCmdTzero | apply inv_msJob | apply inv_ms) | (simp only [inv_mk]; refine ⟨⟨?_, ?_, ?_, ?_, ?_, ?_, ?_, ?_, ?_, ?_⟩, ?_⟩) | (with_reducible first | apply inv_wd | apply inv_units | apply inv_sq | apply inv_otp | apply inv_ks | apply inv_pk | apply inv_fl | apply inv_mg | apply inv_mb | apply inv_q) | split)
theorem inv_pkReg (off v : Nat) {s : State} (hI : Kept q s) : Kept q (pkReg off v s) := by
  have h := inv_pk hI
  unfold pkReg
  refine inv_ite hI (inv_ite (inv_set_pk hI ⟨h.1, h.2.1, ?_, ?_⟩) (inv_ite (inv_ite (inv_pkStart _ hI) hI) (inv_ite (inv_set_pk hI ⟨h.1, h.2⟩)
    (inv_ite (inv_set_pk hI ⟨h.1, h.2⟩) (inv_ite (inv_set_pk hI ⟨h.1, h.2⟩) (inv_ite (inv_set_pk hI ⟨h.1, h.2⟩) (inv_ite (inv_set_pk hI ⟨h.1, h.2⟩) (inv_ite (inv_set_pk hI ⟨h.1, h.2⟩)
    (inv_ite (inv_set_pk hI ⟨h.1, h.2⟩) (inv_ite (inv_set_pk hI ⟨h.1, h.2⟩) hI))))))))))
  · dsimp only [clampTo, Config.kPkeSlotMin, Config.kPkeSlotMax]; omega
  · dsimp only [clampTo, Config.kPkeSlotMin, Config.kPkeSlotMax]; omega
theorem inv_ksCmd (v : Nat) {s : State} (hI : Kept q s) : Kept q (ksCmd v s) := by
  unfold ksCmd; repeat' (first | (with_reducible first | assumption | apply inv_kcvPass | apply inv_ksBusy | apply inv_ksGen | apply inv_ksJob | apply inv_ksLoad | apply inv_ksLock | apply inv_ksSetUse | apply inv_ksUnwrap | apply inv_ksZero | apply inv_ksZeroAll) | split)
theorem inv_ksReg (off v : Nat) {s : State} (hI : Kept q s) : Kept q (ksReg off v s) := by
  have h := inv_ks hI
  unfold ksReg
  refine inv_ite (inv_ksCmd _ hI) (inv_ite (inv_set_ks hI ⟨h.1, h.2⟩) (inv_ite (inv_set_ks hI ⟨h.1, h.2⟩) (inv_ite (inv_set_ks hI ⟨h.1, ?_, ?_⟩)
    (inv_ite (inv_set_ks hI ⟨h.1, h.2⟩) (inv_ite (inv_ite hI (inv_set_ks hI ⟨h.1, h.2⟩)) (inv_ite (inv_ite hI (inv_set_ks hI ⟨h.1, h.2⟩)) (inv_ite (inv_set_ks hI ⟨h.1, h.2⟩) hI)))))))
  · dsimp only [clampTo, Config.kKcvUs]; omega
  · dsimp only [clampTo, Config.kKcvUs]; omega
theorem inv_sqReg (off v : Nat) {s : State} (hI : Kept q s) : Kept q (sqReg off v s) := by
  have h := inv_sq hI
  unfold sqReg
  refine inv_ite (inv_set_sq hI ⟨h.1, h.2⟩) (inv_ite ?_ (inv_ite (inv_set_sq hI ⟨h.1, h.2⟩) (inv_ite (inv_set_sq hI ⟨h.1, h.2⟩) (inv_ite (inv_set_sq hI ⟨h.1, ?_⟩)
    (inv_ite (inv_ite hI (inv_set_sq hI ⟨?_, h.2⟩)) (inv_ite (inv_set_sq hI ⟨h.1, h.2⟩) hI))))))
  · dsimp only
    have a : Kept q (if bit v 0 then sqStart .user s else s) := inv_ite (inv_sqStart _ hI) hI
    exact inv_ite (inv_sqEvent _ a (fun _ h => inv_sqAbort h)) a
  · dsimp only; omega
  · dsimp only [Config.kSteps]; omega
theorem inv_hmbReg (c off v : Nat) {s : State} (hI : Kept q s) : Kept q (hmbReg c off v s) := by
  unfold hmbReg; repeat' (first | (with_reducible first | assumption | apply inv_hmbPost | apply inv_hmbTake | apply inv_modChan | rfl) | ((try lift_lets); intro x; first | (fail_if_success (first | (have : State := x) | fail))) | split)
theorem inv_imbReg (u off v : Nat) {s : State} (hI : Kept q s) : Kept q (imbReg u off v s) := by
  unfold imbReg; repeat' (first | (with_reducible first | assumption | apply inv_imbClear | apply inv_modUnit | apply inv_sqEvent) | split)
theorem inv_mgReg (off v : Nat) {s : State} (hI : Kept q s) : Kept q (mgReg off v s) := by
  have h : cellsWf 0#8 s.mg.stage = true := inv_mg hI
  unfold mgReg
  exact inv_ite (inv_set_mg hI (show cellsWf 0#8 s.mg.stage = true from h)) (inv_ite (inv_set_mg hI (show cellsWf 0#8 s.mg.stage = true from h)) (inv_ite (inv_mgTxgo _ hI) (inv_ite (inv_set_mg hI (show cellsWf 0#8 s.mg.stage = true from h)) (inv_ite (inv_set_mg hI (show cellsWf 0#8 s.mg.stage = true from h)) hI))))
theorem inv_mbReg (off v : Nat) {s : State} (hI : Kept q s) : Kept q (mbReg off v s) := by
  unfold mbReg; repeat' (first | (with_reducible first | assumption | apply inv_hmbReg | apply inv_imbReg | apply inv_mgReg | apply inv_ite))
theorem inv_smReg (off v : Nat) {s : State} (hI : Kept q s) : Kept q (smReg off v s) := by
  unfold smReg; repeat' (first | (with_reducible first | assumption | apply inv_modTileP | apply inv_ite) | simp only [inv_upd])
theorem inv_tmReg (off v : Nat) {s : State} (hI : Kept q s) : Kept q (tmReg off v s) := by
  have h := inv_wd hI
  unfold tmReg
  dsimp only
  split
  · exact inv_set_wd hI ⟨h.1, h.2⟩
  · exact inv_set_wd hI ⟨h.1, h.2⟩
  · exact inv_ite hI (inv_set_wd hI ⟨h.1, h.2⟩)
  · exact inv_ite hI (inv_set_wd hI ⟨h.1, h.2.1, by dsimp only; omega⟩)
  · exact inv_ite (inv_set_wd hI ⟨h.1, h.2⟩) (inv_set_wd hI ⟨h.1, h.2⟩)
  · exact inv_set_wd hI ⟨h.1, h.2⟩
  · exact inv_ite (inv_softReset _ hI) hI
  · exact inv_set_wd hI ⟨h.1, h.2⟩
  · exact inv_set_wd hI ⟨h.1, by dsimp only; omega, h.2.2⟩
  · exact hI
theorem inv_stepRamWrite (off v : Nat) {s : State} (hI : Kept q s) : Kept q (stepRamWrite off v s) := by
  unfold stepRamWrite; repeat' (first | (with_reducible first | assumption | apply inv_ramPut | apply inv_wdBusError | apply inv_wdOk | apply inv_ite))
theorem inv_blockReg (blk off v : Nat) {s : State} {t : State} (e : blockReg blk off v s = some t) (hI : Kept q s) : Kept q t := by
  unfold blockReg at e
  split at e
  · obtain rfl := Option.some.inj e; exact inv_otpReg _ _ hI
  split at e
  · obtain rfl := Option.some.inj e; exact inv_ite (inv_dgReg _ _ hI) (inv_msReg _ _ hI)
  split at e
  · obtain rfl := Option.some.inj e; exact inv_pkReg _ _ hI
  split at e
  · obtain rfl := Option.some.inj e; exact inv_ksReg _ _ hI
  split at e
  · obtain rfl := Option.some.inj e; exact inv_sqReg _ _ hI
  split at e
  · obtain rfl := Option.some.inj e; exact inv_mbReg _ _ hI
  split at e
  · obtain rfl := Option.some.inj e; exact inv_smReg _ _ hI
  split at e
  · obtain rfl := Option.some.inj e; exact inv_tmReg _ _ hI
  · cases e
theorem inv_coreWrite (a v : Nat) {s : State} (hI : Kept q s) : Kept q (coreWrite a v s) := by
  have h := inv_wd hI
  unfold coreWrite
  refine inv_ite (inv_wdBusError hI) (inv_ite (inv_ite (inv_wdOk (inv_set_wd hI ⟨cellPuts_wf _ _ h.1, h.2⟩)) hI) (inv_ite (inv_pkMemWrite _ _ hI)
    (inv_ite (inv_stepRamWrite _ _ hI) (inv_ite (inv_fabricAccess _ _ _ _ _ hI) (inv_ite (inv_wdOk hI) ?_)))))
  split
  · rename_i t e; exact inv_blockReg _ _ _ e (inv_wdOk hI)
  · exact inv_wdBusError hI
theorem inv_irqBlock (d off v : Nat) {s : State} (hI : Kept q s) : Kept q (irqBlock d off v s) := by
  unfold irqBlock; repeat' (first | (with_reducible first | assumption | apply inv_modFn | apply inv_sendPending | apply inv_ite))
theorem inv_mbxReg (c off v : Nat) {s : State} (hI : Kept q s) : Kept q (mbxReg c off v s) := by
  unfold mbxReg
  exact inv_ite (inv_ite (inv_modChan _ _ hI (fun _ => rfl)) hI) (inv_ite (inv_modChan _ _ hI (fun _ => rfl)) hI)
theorem inv_frReg (off v : Nat) {s : State} (hI : Kept q s) : Kept q (frReg off v s) := by
  unfold frReg; repeat' (first | (with_reducible first | assumption | apply inv_frCtrlWrite | apply inv_frTailWrite) | simp only [inv_upd] | split)
theorem inv_apReg (off v : Nat) {s : State} (hI : Kept q s) : Kept q (apReg off v s) := by
  unfold apReg; repeat' (first | (with_reducible first | assumption | apply inv_apDescWrite | apply inv_apDrop | apply inv_ite) | simp only [inv_upd])
theorem inv_aerUr {s : State} (hI : Kept q s) : Kept q (aerUr s) := by
  unfold aerUr; exact hI
theorem inv_bar0Word32 (d o v : Nat) {s : State} (hI : Kept q s) : Kept q (bar0Word32 d o v s) := by
  unfold bar0Word32; repeat' (first | (with_reducible first | assumption | apply inv_apReg | apply inv_frReg | apply inv_irqBlock | apply inv_mbxDoorbell | apply inv_mbxReg | apply inv_ite) | (simp only [inv_mk]; refine ⟨⟨?_, ?_, ?_, ?_, ?_, ?_, ?_, ?_, ?_, ?_⟩, ?_⟩) | (with_reducible first | apply inv_wd | apply inv_units | apply inv_sq | apply inv_otp | apply inv_ks | apply inv_pk | apply inv_ms | apply inv_fl | apply inv_mb | apply inv_q) | exact inv_mg (by assumption))
theorem inv_hostWrite (d : Nat) (bar2 : Bool) (o n v : Nat) (whole : Bool) {s : State} (hI : Kept q s) : Kept q (hostWrite d bar2 o n v whole s) := by
  unfold hostWrite; repeat' (first | (with_reducible first | assumption | apply inv_aerUr | apply inv_bar0Word32 | apply inv_invLane | apply inv_mbxWrite) | split)
theorem inv_regWrite (a v : Nat) {s : State} (hI : Kept q s) : Kept q (regWrite a v s) := by
  unfold regWrite; repeat' (first | (with_reducible first | assumption | apply inv_coreWrite | apply inv_hostWrite | apply inv_ite))
theorem inv_tickCounts {s : State} (hI : Kept q s) : Kept q (tickCounts s) := by
  unfold tickCounts; repeat' (first | with_reducible apply inv_ite | ((try lift_lets); intro x; first | (refine (?_ : Kept q x → _) ?_ ; intro _; (try clear_value x); rotate_left; simp only [x]) | (refine (?_ : WdOk x → _) (inv_wd (q := q) ?_); intro _; clear_value x)) | (simp only [inv_mk]; refine ⟨⟨?_, ?_, ?_, ?_, ?_, ?_, ?_, ?_, ?_, ?_⟩, ?_⟩) | (with_reducible first | apply inv_sq | apply inv_otp | apply inv_ks | apply inv_pk | apply inv_ms | apply inv_fl | apply inv_mg | apply inv_mb | apply inv_q) | assumption | (have := inv_units (by assumption); simpa using this))
theorem inv_tickPerf {s : State} (hI : Kept q s) : Kept q (tickPerf s) := by
  unfold tickPerf; repeat' (first | (with_reducible first | assumption | apply inv_perfAdd))
theorem inv_tickWaits {s : State} (hI : Kept q s) : Kept q (tickWaits s) := by
  unfold tickWaits; repeat' (first | (with_reducible first | assumption | apply inv_modUnit | apply inv_unitPump | apply inv_unitWaitEnd | apply inv_foldl) | (intro s x h; have : Kept q s := h) | simp only [inv_upd])
theorem inv_tickDrbg {s : State} (hI : Kept q s) : Kept q (tickDrbg s) := by
  unfold tickDrbg; repeat' (first | (with_reducible first | assumption | apply inv_irq | apply inv_ite))
theorem inv_tickStops {s : State} (hI : Kept q s) : Kept q (tickStops s) := by
  unfold tickStops; repeat' (first | (with_reducible first | assumption | apply inv_clkFail | apply inv_ite) | simp only [inv_upd])
theorem inv_tick {s : State} (hI : Kept q s) : Kept q (tick s) := by
  unfold tick; repeat' (first | (with_reducible first | apply inv_mgDrain | apply inv_mgPump | apply inv_tickCounts | apply inv_tickDrbg | apply inv_tickPerf | apply inv_tickStops | apply inv_tickWaits | apply inv_ite) | ((try lift_lets); intro x; first | (refine (?_ : MgOk x → _) (inv_mg (q := q) ?_); intro _; clear_value x)) | (simp only [inv_mk]; refine ⟨⟨?_, ?_, ?_, ?_, ?_, ?_, ?_, ?_, ?_, ?_⟩, ?_⟩) | (with_reducible first | apply inv_wd | apply inv_units | apply inv_sq | apply inv_otp | apply inv_ks | apply inv_pk | apply inv_ms | apply inv_fl | apply inv_mb | apply inv_q) | assumption)
end Sys2Proof.Machine
end

