-- ==== Sys2Proof/Laws/InvRows.lean ====
section
/-! SUPPORT. What `Kept` says of the rows of the table, one lemma per meaning: if it answers next, the next state is `Kept`. -/

open Sys2Proof.Machine
namespace Sys2Proof.Machine
set_option linter.all false
variable {q : List Instr}
def Keeps (q : List Instr) (r : Res) : Prop := ∀ t, r = .next t → Kept q t
theorem keeps_next {t : State} (h : Kept q t) : Keeps q (.next t) := by intro u e; cases e; exact h
theorem keeps_ite {c : Prop} [Decidable c] {a b : Res} (ha : Keeps q a) (hb : Keeps q b) : Keeps q (if c then a else b) := by split <;> assumption
theorem inv_execSqStart {s : State} (hI : Kept q s) : Keeps q (execSqStart s) := by
  unfold execSqStart; repeat' (first | (with_reducible first | assumption | apply inv_sqStart | apply keeps_next))
theorem inv_execSqAbort {s : State} (hI : Kept q s) : Keeps q (execSqAbort s) := by
  unfold execSqAbort; repeat' (first | (with_reducible first | assumption | apply inv_sqAbort | apply inv_sqEvent | apply keeps_next))
theorem inv_execSqNop {s : State} (hI : Kept q s) : Keeps q (execSqNop s) := by
  unfold execSqNop; repeat' (first | (with_reducible first | assumption | apply inv_sqEvent | apply inv_sqRun | apply keeps_next))
theorem inv_execSqEnd {s : State} (hI : Kept q s) : Keeps q (execSqEnd s) := by
  unfold execSqEnd; repeat' (first | (with_reducible first | assumption | apply inv_sqEvent | apply inv_sqRun | apply keeps_next))
theorem inv_execSqSkip {s : State} (hI : Kept q s) : Keeps q (execSqSkip s) := by
  unfold execSqSkip; repeat' (first | (with_reducible first | assumption | apply inv_sqEvent | apply inv_sqRun | apply keeps_next))
theorem inv_execSqDelay {s : State} (hI : Kept q s) : Keeps q (execSqDelay s) := by
  unfold execSqDelay; repeat' (first | (with_reducible first | assumption | apply inv_sqEvent | apply inv_sqRun | apply keeps_next))
theorem inv_execSqDelayExpiry {s : State} (hI : Kept q s) : Keeps q (execSqDelayExpiry s) := by
  unfold execSqDelayExpiry; repeat' (first | (with_reducible first | assumption | apply inv_sqAdvance | apply inv_sqEvent | apply keeps_next) | (intro s h; have : Kept q s := h) | split)
theorem inv_execSqSetarg {s : State} (hI : Kept q s) : Keeps q (execSqSetarg s) := by
  unfold execSqSetarg; repeat' (first | (with_reducible first | assumption | apply inv_sqEvent | apply inv_sqRun | apply keeps_next))
theorem inv_execSqSetflag {s : State} (hI : Kept q s) : Keeps q (execSqSetflag s) := by
  unfold execSqSetflag; repeat' (first | (with_reducible first | assumption | apply inv_sqEvent | apply inv_sqRun | apply keeps_next))
theorem inv_execSqIrq {s : State} (hI : Kept q s) : Keeps q (execSqIrq s) := by
  unfold execSqIrq; repeat' (first | (with_reducible first | assumption | apply inv_sqEvent | apply inv_sqRun | apply keeps_next))
theorem inv_execSqJoin {s : State} (hI : Kept q s) : Keeps q (execSqJoin s) := by
  unfold execSqJoin; repeat' (first | (with_reducible first | assumption | apply inv_sqEvent | apply inv_sqRun | apply keeps_next))
theorem inv_execSqClear {s : State} (hI : Kept q s) : Keeps q (execSqClear s) := by
  unfold execSqClear; repeat' (first | (with_reducible first | assumption | apply inv_sqEvent | apply inv_sqRun | apply keeps_next))
theorem inv_execSqVerify {s : State} (hI : Kept q s) : Keeps q (execSqVerify s) := by
  unfold execSqVerify; repeat' (first | (with_reducible first | assumption | apply inv_sqEvent | apply inv_sqRun | apply keeps_next))
theorem inv_execUnitOpComplete (u nonzero : Nat) (fault : Bool) {s : State} (hI : Kept q s) : Keeps q (execUnitOpComplete u nonzero fault s) := by
  unfold execUnitOpComplete; repeat' (first | (with_reducible first | assumption | apply inv_sqEvent | apply inv_unitOpDone | apply keeps_next))
theorem inv_execSqKpush (corrupt : Bool) {s : State} (hI : Kept q s) : Keeps q (execSqKpush corrupt s) := by
  unfold execSqKpush; repeat' (first | (with_reducible first | assumption | apply inv_sqEvent | apply inv_sqRun | apply keeps_next))
theorem inv_execSqKpzero {s : State} (hI : Kept q s) : Keeps q (execSqKpzero s) := by
  unfold execSqKpzero; repeat' (first | (with_reducible first | assumption | apply inv_sqEvent | apply inv_sqRun | apply keeps_next))
theorem inv_execSqKszero {s : State} (hI : Kept q s) : Keeps q (execSqKszero s) := by
  unfold execSqKszero; repeat' (first | (with_reducible first | assumption | apply inv_sqEvent | apply inv_sqKszeroRun | apply keeps_next))
theorem inv_execSqDigest (busErr : Bool) {s : State} (hI : Kept q s) : Keeps q (execSqDigest busErr s) := by
  unfold execSqDigest; repeat' (first | (with_reducible first | assumption | apply inv_sqEvent | apply inv_sqRun | apply keeps_next))
theorem inv_execSqReset (hlres : Nat) {s : State} (hI : Kept q s) : Keeps q (execSqReset hlres s) := by
  unfold execSqReset; repeat' (first | (with_reducible first | assumption | apply inv_sqEvent | apply inv_sqRun | apply keeps_next))
theorem inv_execSqClock {s : State} (hI : Kept q s) : Keeps q (execSqClock s) := by
  unfold execSqClock; repeat' (first | (with_reducible first | assumption | apply inv_sqEvent | apply inv_sqRun | apply keeps_next))
theorem inv_execSqRail {s : State} (hI : Kept q s) : Keeps q (execSqRail s) := by
  unfold execSqRail; repeat' (first | (with_reducible first | assumption | apply inv_sqEvent | apply inv_sqRun | apply keeps_next))
theorem inv_execSqIllegalStep {s : State} (hI : Kept q s) : Keeps q (execSqIllegalStep s) := by
  unfold execSqIllegalStep; repeat' (first | (with_reducible first | assumption | apply inv_sqEvent | apply inv_sqIllegal | apply keeps_next))
theorem inv_execSqStepTimeout {s : State} (hI : Kept q s) : Keeps q (execSqStepTimeout s) := by
  unfold execSqStepTimeout; repeat' (first | (with_reducible first | assumption | apply inv_sqEvent | apply inv_sqTimeout | apply keeps_next))
theorem inv_execStandbyGood (progWin : Bool) {s : State} (hI : Kept q s) : Keeps q (execStandbyGood progWin s) := by
  unfold execStandbyGood; repeat' (first | (with_reducible first | assumption | apply inv_standbyUp | apply keeps_next))
theorem inv_execStandbyLost {s : State} (hI : Kept q s) : Keeps q (execStandbyLost s) := by
  unfold execStandbyLost; repeat' (first | (with_reducible first | assumption | apply inv_standbyDown | apply keeps_next))
theorem inv_execStandbyOvervoltage {s : State} (hI : Kept q s) : Keeps q (execStandbyOvervoltage s) := by
  unfold execStandbyOvervoltage; repeat' (first | (with_reducible first | assumption | apply inv_standbyDown | apply keeps_next))
theorem inv_execWardenRstNAssert {s : State} (hI : Kept q s) : Keeps q (execWardenRstNAssert s) := by
  unfold execWardenRstNAssert; repeat' (first | (with_reducible first | assumption | apply inv_wardenReset | apply keeps_next | apply inv_ite) | simp only [inv_upd])
theorem inv_execWardenRstNDeassert {s : State} (hI : Kept q s) : Keeps q (execWardenRstNDeassert s) := by
  unfold execWardenRstNDeassert; repeat' (first | (with_reducible first | assumption | apply inv_wardenReset | apply keeps_next | apply inv_ite) | simp only [inv_upd])
theorem inv_execCoreResetRelease {s : State} (hI : Kept q s) : Keeps q (execCoreResetRelease s) := by
  unfold execCoreResetRelease; repeat' (first | (with_reducible first | assumption | apply keeps_next | apply inv_ite) | (simp only [inv_mk]; refine ⟨⟨?_, ?_, ?_, ?_, ?_, ?_, ?_, ?_, ?_, ?_⟩, ?_⟩) | (with_reducible first | apply inv_units | apply inv_sq | apply inv_otp | apply inv_ks | apply inv_pk | apply inv_ms | apply inv_fl | apply inv_mg | apply inv_mb | apply inv_q) | exact inv_wd (by assumption))
theorem inv_execSramInitDone {s : State} (hI : Kept q s) : Keeps q (execSramInitDone s) := by
  unfold execSramInitDone
  have h := inv_wd hI
  have h0 : Kept q { s with wd := { s.wd with sramReady := true, sram := [], flips := [] } } := inv_set_wd hI ⟨rfl, h.2⟩
  refine keeps_next (inv_ite ?_ hI)
  dsimp only
  split
  · split
    · exact inv_set_wd hI ⟨cellPuts_wf _ _ rfl, h.2⟩
    · exact h0
  · exact h0
theorem inv_execPkeBankZeroDone {s : State} (hI : Kept q s) : Keeps q (execPkeBankZeroDone s) := by
  unfold execPkeBankZeroDone; repeat' (first | (with_reducible first | assumption | apply inv_pkStallDone | apply inv_pkZeroDone | apply inv_pqDispatch | apply keeps_next | apply inv_ite))
theorem inv_execOtpAutoload {s : State} (hI : Kept q s) : Keeps q (execOtpAutoload s) := by
  unfold execOtpAutoload; repeat' (first | (with_reducible first | apply keeps_next | apply inv_ite) | ((try lift_lets); intro x; first | (refine (?_ : WdOk x → _) (inv_wd (q := q) ?_); intro _; clear_value x) | (refine (?_ : OtOk x → _) (inv_otp (q := q) ?_); intro _; clear_value x)) | (simp only [inv_mk]; refine ⟨⟨?_, ?_, ?_, ?_, ?_, ?_, ?_, ?_, ?_, ?_⟩, ?_⟩) | (with_reducible first | apply inv_units | apply inv_sq | apply inv_ks | apply inv_pk | apply inv_ms | apply inv_fl | apply inv_mg | apply inv_mb | apply inv_q) | assumption)
theorem inv_execRomBoot (x : RomIn) {s : State} (hI : Kept q s) : Keeps q (execRomBoot x s) := by
  unfold execRomBoot; repeat' (first | (with_reducible first | assumption | apply inv_romBoot | apply keeps_next))
theorem inv_execWfwInit (x : List PulseOut) {s : State} (hI : Kept q s) : Keeps q (execWfwInit x s) := by
  unfold execWfwInit; repeat' (first | (with_reducible first | assumption | apply inv_sqEvent | apply inv_wfwInit | apply keeps_next))
theorem inv_execBringupStart {s : State} (hI : Kept q s) : Keeps q (execBringupStart s) := by
  unfold execBringupStart; repeat' (first | (with_reducible first | assumption | apply inv_bringupStart | apply inv_sqEvent | apply keeps_next))
theorem inv_execRailPowerGood (x : RailIn) {s : State} (hI : Kept q s) : Keeps q (execRailPowerGood x s) := by
  unfold execRailPowerGood; repeat' (first | (with_reducible first | assumption | apply inv_railGoodEv | apply inv_sqEvent | apply keeps_next))
theorem inv_execUnitImageLoad (kind : Nat) (x : LoadIn) {s : State} (hI : Kept q s) : Keeps q (execUnitImageLoad kind x s) := by
  unfold execUnitImageLoad; repeat' (first | (with_reducible first | assumption | apply inv_unitLoad | apply keeps_next))
theorem inv_execUnitReadyTimeout (u : Nat) {s : State} (hI : Kept q s) : Keeps q (execUnitReadyTimeout u s) := by
  unfold execUnitReadyTimeout; repeat' (first | (with_reducible first | assumption | apply inv_readyTimeout | apply keeps_next))
theorem inv_execStackTrainingDone (t : Nat) {s : State} (hI : Kept q s) : Keeps q (execStackTrainingDone t s) := by
  unfold execStackTrainingDone; repeat' (first | (with_reducible first | assumption | apply inv_stackTrained | apply keeps_next))
theorem inv_execStackTrainingTimeout (t : Nat) {s : State} (hI : Kept q s) : Keeps q (execStackTrainingTimeout t s) := by
  unfold execStackTrainingTimeout; repeat' (first | (with_reducible first | assumption | apply inv_quarantine | apply keeps_next | apply inv_ite))
theorem inv_execMainInputGood {s : State} (hI : Kept q s) : Keeps q (execMainInputGood s) := by
  unfold execMainInputGood; repeat' (first | (with_reducible first | assumption | apply keeps_next) | simp only [inv_upd])
theorem inv_execMainInputLost {s : State} (hI : Kept q s) : Keeps q (execMainInputLost s) := by
  unfold execMainInputLost; repeat' (first | (with_reducible first | assumption | apply inv_mainOkFalls | apply keeps_next))
theorem inv_execMainOvervoltage {s : State} (hI : Kept q s) : Keeps q (execMainOvervoltage s) := by
  unfold execMainOvervoltage; repeat' (first | (with_reducible first | assumption | apply inv_mainOkFalls | apply keeps_next))
theorem inv_execRefclkLinkLoss {s : State} (hI : Kept q s) : Keeps q (execRefclkLinkLoss s) := by
  unfold execRefclkLinkLoss; repeat' (first | (with_reducible first | assumption | apply inv_linksDown | apply inv_mclkLost | apply inv_quarantine | apply keeps_next | apply inv_ite) | simp only [inv_upd])
theorem inv_execQuarantineClearDone {s : State} (hI : Kept q s) : Keeps q (execQuarantineClearDone s) := by
  unfold execQuarantineClearDone; repeat' (first | (with_reducible first | assumption | apply inv_quarCleared | apply keeps_next))
theorem inv_execLockstepMismatch {s : State} (hI : Kept q s) : Keeps q (execLockstepMismatch s) := by
  unfold execLockstepMismatch; repeat' (first | (with_reducible first | assumption | apply inv_wardenReset | apply keeps_next | apply inv_ite))
theorem inv_execSramUncorrectableError (_addr : Nat) {s : State} (hI : Kept q s) : Keeps q (execSramUncorrectableError _addr s) := by
  unfold execSramUncorrectableError; repeat' (first | (with_reducible first | apply inv_softReset | apply keeps_next | apply inv_ite) | ((try lift_lets); intro x; first | (refine (?_ : WdOk x → _) (inv_wd (q := q) ?_); intro _; clear_value x)) | (simp only [inv_mk]; refine ⟨⟨?_, ?_, ?_, ?_, ?_, ?_, ?_, ?_, ?_, ?_⟩, ?_⟩) | (with_reducible first | apply inv_units | apply inv_sq | apply inv_otp | apply inv_ks | apply inv_pk | apply inv_ms | apply inv_fl | apply inv_mg | apply inv_mb | apply inv_q) | assumption)
theorem inv_execWdSwrstWrite (value : Word) {s : State} (hI : Kept q s) : Keeps q (execWdSwrstWrite value s) := by
  unfold execWdSwrstWrite; repeat' (first | (with_reducible first | assumption | apply inv_softReset | apply keeps_next | apply inv_ite))
theorem inv_execWatchdogKick (value : Word) {s : State} (hI : Kept q s) : Keeps q (execWatchdogKick value s) := by
  unfold execWatchdogKick; repeat' (first | (with_reducible first | assumption | apply keeps_next | apply inv_ite) | (simp only [inv_mk]; refine ⟨⟨?_, ?_, ?_, ?_, ?_, ?_, ?_, ?_, ?_, ?_⟩, ?_⟩) | (with_reducible first | apply inv_units | apply inv_sq | apply inv_otp | apply inv_ks | apply inv_pk | apply inv_ms | apply inv_fl | apply inv_mg | apply inv_mb | apply inv_q) | exact inv_wd (by assumption))
theorem inv_execWatchdogStage1 {s : State} (hI : Kept q s) : Keeps q (execWatchdogStage1 s) := by
  unfold execWatchdogStage1; repeat' (first | (with_reducible first | assumption | apply inv_irq | apply keeps_next | apply inv_ite) | (simp only [inv_mk]; refine ⟨⟨?_, ?_, ?_, ?_, ?_, ?_, ?_, ?_, ?_, ?_⟩, ?_⟩) | (with_reducible first | apply inv_units | apply inv_sq | apply inv_otp | apply inv_ks | apply inv_pk | apply inv_ms | apply inv_fl | apply inv_mg | apply inv_mb | apply inv_q) | exact inv_wd (by assumption))
theorem inv_execWatchdogStage2 {s : State} (hI : Kept q s) : Keeps q (execWatchdogStage2 s) := by
  unfold execWatchdogStage2; repeat' (first | (with_reducible first | assumption | apply inv_wardenReset | apply keeps_next | apply inv_ite))
theorem inv_execTimerCompare {s : State} (hI : Kept q s) : Keeps q (execTimerCompare s) := by
  unfold execTimerCompare; repeat' (first | (with_reducible first | assumption | apply inv_irq | apply keeps_next) | (simp only [inv_mk]; refine ⟨⟨?_, ?_, ?_, ?_, ?_, ?_, ?_, ?_, ?_, ?_⟩, ?_⟩) | (with_reducible first | apply inv_units | apply inv_sq | apply inv_otp | apply inv_ks | apply inv_pk | apply inv_ms | apply inv_fl | apply inv_mg | apply inv_mb | apply inv_q) | exact inv_wd (by assumption))
theorem inv_execHbTickIncrement {s : State} (hI : Kept q s) : Keeps q (execHbTickIncrement s) := by
  unfold execHbTickIncrement; repeat' (first | (with_reducible first | assumption | apply keeps_next | apply inv_ite) | (simp only [inv_mk]; refine ⟨⟨?_, ?_, ?_, ?_, ?_, ?_, ?_, ?_, ?_, ?_⟩, ?_⟩) | (with_reducible first | apply inv_units | apply inv_sq | apply inv_otp | apply inv_ks | apply inv_pk | apply inv_ms | apply inv_fl | apply inv_mg | apply inv_mb | apply inv_q) | exact inv_wd (by assumption))
theorem inv_execUnitRestartReload (u : Nat) (x : LoadIn) {s : State} (hI : Kept q s) : Keeps q (execUnitRestartReload u x s) := by
  unfold execUnitRestartReload; repeat' (first | (with_reducible first | assumption | apply inv_unitReload | apply keeps_next))
theorem inv_execWdClkstopWrite (tiles : Nat) {s : State} (hI : Kept q s) : Keeps q (execWdClkstopWrite tiles s) := by
  unfold execWdClkstopWrite; repeat' (first | (with_reducible first | assumption | apply keeps_next) | (simp only [inv_mk]; refine ⟨⟨?_, ?_, ?_, ?_, ?_, ?_, ?_, ?_, ?_, ?_⟩, ?_⟩) | (with_reducible first | apply inv_units | apply inv_sq | apply inv_otp | apply inv_ks | apply inv_pk | apply inv_ms | apply inv_fl | apply inv_mg | apply inv_mb | apply inv_q) | exact inv_wd (by assumption))
theorem inv_execClkstopConfirmTimeout {s : State} (hI : Kept q s) : Keeps q (execClkstopConfirmTimeout s) := by
  unfold execClkstopConfirmTimeout; repeat' (first | (with_reducible first | assumption | apply inv_clkFail | apply keeps_next | apply inv_ite))
theorem inv_execOtRead {s : State} (hI : Kept q s) : Keeps q (execOtRead s) := by
  unfold execOtRead; repeat' (first | (with_reducible first | assumption | apply inv_otRead | apply keeps_next))
theorem inv_execOtProg {s : State} (hI : Kept q s) : Keeps q (execOtProg s) := by
  unfold execOtProg; repeat' (first | (with_reducible first | assumption | apply inv_otProg | apply keeps_next))
theorem inv_execOtGen {s : State} (hI : Kept q s) : Keeps q (execOtGen s) := by
  unfold execOtGen; repeat' (first | (with_reducible first | assumption | apply inv_otGen | apply keeps_next))
theorem inv_execOtIncrTo (sel value : Nat) {s : State} (hI : Kept q s) : Keeps q (execOtIncrTo sel value s) := by
  unfold execOtIncrTo; repeat' (first | (with_reducible first | assumption | apply inv_otIncr | apply keeps_next))
theorem inv_execOtRevoke (sel : Nat) {s : State} (hI : Kept q s) : Keeps q (execOtRevoke sel s) := by
  unfold execOtRevoke; repeat' (first | (with_reducible first | assumption | apply inv_otRevoke | apply keeps_next))
theorem inv_execOtLcAdvance (sel : Nat) {s : State} (hI : Kept q s) : Keeps q (execOtLcAdvance sel s) := by
  unfold execOtLcAdvance; repeat' (first | (with_reducible first | assumption | apply inv_otLc | apply keeps_next))
theorem inv_execOtRepair {s : State} (hI : Kept q s) : Keeps q (execOtRepair s) := by
  unfold execOtRepair; repeat' (first | (with_reducible first | assumption | apply inv_otRepair | apply keeps_next))
theorem inv_execOtIllegalCmd (cmd : Nat) {s : State} (hI : Kept q s) : Keeps q (execOtIllegalCmd cmd s) := by
  unfold execOtIllegalCmd; repeat' (first | (with_reducible first | assumption | apply inv_otBusy | apply inv_otEnd | apply keeps_next | apply inv_ite))
theorem inv_execDgStart {s : State} (hI : Kept q s) : Keeps q (execDgStart s) := by
  unfold execDgStart; repeat' (first | (with_reducible first | assumption | apply inv_dgStart | apply keeps_next))
theorem inv_execDgDataWrite (value : Word) {s : State} (hI : Kept q s) : Keeps q (execDgDataWrite value s) := by
  unfold execDgDataWrite; repeat' (first | (with_reducible first | assumption | apply inv_dgData | apply keeps_next))
theorem inv_execDgBlockAbsorbed {s : State} (hI : Kept q s) : Keeps q (execDgBlockAbsorbed s) := by
  unfold execDgBlockAbsorbed; repeat' (first | (with_reducible first | assumption | apply inv_dgAbsorbed | apply keeps_next))
theorem inv_execDgFinish {s : State} (hI : Kept q s) : Keeps q (execDgFinish s) := by
  unfold execDgFinish; repeat' (first | (with_reducible first | assumption | apply inv_dgFinish | apply keeps_next))
theorem inv_execDgOuterPassDone {s : State} (hI : Kept q s) : Keeps q (execDgOuterPassDone s) := by
  unfold execDgOuterPassDone; repeat' (first | (with_reducible first | assumption | apply inv_dgOuter | apply keeps_next))
theorem inv_execDgClear {s : State} (hI : Kept q s) : Keeps q (execDgClear s) := by
  unfold execDgClear; repeat' (first | (with_reducible first | assumption | apply inv_dgClear | apply keeps_next))
theorem inv_execDgRootkdf {s : State} (hI : Kept q s) : Keeps q (execDgRootkdf s) := by
  unfold execDgRootkdf; repeat' (first | (with_reducible first | assumption | apply inv_dgRootKdf | apply keeps_next))
theorem inv_execKsGen (slot : Nat) {s : State} (hI : Kept q s) : Keeps q (execKsGen slot s) := by
  unfold execKsGen; repeat' (first | (with_reducible first | assumption | apply inv_ksGen | apply keeps_next))
theorem inv_execKsUnwrap (slot kek : Nat) {s : State} (hI : Kept q s) : Keeps q (execKsUnwrap slot kek s) := by
  unfold execKsUnwrap; repeat' (first | (with_reducible first | assumption | apply inv_ksUnwrap | apply keeps_next))
theorem inv_execKsZero (slot : Nat) (bad : Bool) {s : State} (hI : Kept q s) : Keeps q (execKsZero slot bad s) := by
  unfold execKsZero; repeat' (first | (with_reducible first | assumption | apply inv_ksZero | apply keeps_next))
theorem inv_execKsZeroAll (bad : List Nat) {s : State} (hI : Kept q s) : Keeps q (execKsZeroAll bad s) := by
  unfold execKsZeroAll; repeat' (first | (with_reducible first | assumption | apply inv_ksZeroAll | apply keeps_next))
theorem inv_execKsSetuse (slot : Nat) {s : State} (hI : Kept q s) : Keeps q (execKsSetuse slot s) := by
  unfold execKsSetuse; repeat' (first | (with_reducible first | assumption | apply inv_ksSetUse | apply keeps_next))
theorem inv_execKsLock (slot : Nat) {s : State} (hI : Kept q s) : Keeps q (execKsLock slot s) := by
  unfold execKsLock; repeat' (first | (with_reducible first | assumption | apply inv_ksLock | apply keeps_next))
theorem inv_execKsLoad (slot : Nat) {s : State} (hI : Kept q s) : Keeps q (execKsLoad slot s) := by
  unfold execKsLoad; repeat' (first | (with_reducible first | assumption | apply inv_ksLoad | apply keeps_next))
theorem inv_execKsRecheck {s : State} (hI : Kept q s) : Keeps q (execKsRecheck s) := by
  unfold execKsRecheck; repeat' (first | (with_reducible first | assumption | apply inv_kcvPass | apply inv_ksBusy | apply inv_ksJob | apply keeps_next | apply inv_ite))
theorem inv_execKsCmdComplete {s : State} (hI : Kept q s) : Keeps q (execKsCmdComplete s) := by
  unfold execKsCmdComplete; repeat' (first | (with_reducible first | assumption | apply inv_ksComplete | apply keeps_next))
theorem inv_execKcvRecheckPass (upset' : Option (Nat × Nat)) {s : State} (hI : Kept q s) : Keeps q (execKcvRecheckPass upset' s) := by
  unfold execKcvRecheckPass; repeat' (first | (with_reducible first | assumption | apply inv_kcvPass | apply inv_upset | apply keeps_next) | split)
theorem inv_execDrbgHealthFailure {s : State} (hI : Kept q s) : Keeps q (execDrbgHealthFailure s) := by
  unfold execDrbgHealthFailure; repeat' (first | (with_reducible first | assumption | apply inv_drbgFail | apply keeps_next))
theorem inv_execPkStart (streamErr : Option Nat) {s : State} (hI : Kept q s) : Keeps q (execPkStart streamErr s) := by
  unfold execPkStart; repeat' (first | (with_reducible first | assumption | apply inv_pkStart | apply keeps_next))
theorem inv_execMsExtend (slot : Nat) {s : State} (hI : Kept q s) : Keeps q (execMsExtend slot s) := by
  unfold execMsExtend; repeat' (first | (with_reducible first | assumption | apply inv_msCmdExtend | apply keeps_next))
theorem inv_execMsLock (slot : Nat) {s : State} (hI : Kept q s) : Keeps q (execMsLock slot s) := by
  unfold execMsLock; repeat' (first | (with_reducible first | assumption | apply inv_msCmdLock | apply keeps_next))
theorem inv_execMsTzero {s : State} (hI : Kept q s) : Keeps q (execMsTzero s) := by
  unfold execMsTzero; repeat' (first | (with_reducible first | assumption | apply inv_msCmdTzero | apply keeps_next))
theorem inv_execMsCmdComplete {s : State} (hI : Kept q s) : Keeps q (execMsCmdComplete s) := by
  unfold execMsCmdComplete; repeat' (first | (with_reducible first | assumption | apply inv_msComplete | apply keeps_next))
theorem inv_execInboundRecord (d a i : Nat) (x : RecIn) {s : State} (hI : Kept q s) : Keeps q (execInboundRecord d a i x s) := by
  unfold execInboundRecord; repeat' (first | (with_reducible first | assumption | apply inv_inboundRec | apply keeps_next))
theorem inv_execOutboundRecord (d a i : Nat) (data : Bytes) {s : State} (hI : Kept q s) : Keeps q (execOutboundRecord d a i data s) := by
  unfold execOutboundRecord; repeat' (first | (with_reducible first | assumption | apply inv_outboundRec | apply keeps_next))
theorem inv_execApertureQuiesceTimeout (d a : Nat) {s : State} (hI : Kept q s) : Keeps q (execApertureQuiesceTimeout d a s) := by
  unfold execApertureQuiesceTimeout; repeat' (first | (with_reducible first | assumption | apply inv_apQuiesced | apply keeps_next))
theorem inv_execApDescriptorWrite (a off : Nat) (value : Word) {s : State} (hI : Kept q s) : Keeps q (execApDescriptorWrite a off value s) := by
  unfold execApDescriptorWrite; repeat' (first | (with_reducible first | assumption | apply inv_apDescWrite | apply keeps_next))
theorem inv_execTableReadDone (walk : Nat) (entries : List Nat) {s : State} (hI : Kept q s) : Keeps q (execTableReadDone walk entries s) := by
  unfold execTableReadDone; repeat' (first | (with_reducible first | assumption | apply inv_tableRead | apply keeps_next))
theorem inv_execTableReadTimeout (walk : Nat) {s : State} (hI : Kept q s) : Keeps q (execTableReadTimeout walk s) := by
  unfold execTableReadTimeout; repeat' (first | (with_reducible first | assumption | apply inv_tableRead | apply keeps_next))
theorem inv_execWalkBudgetExpiry (walk : Nat) {s : State} (hI : Kept q s) : Keeps q (execWalkBudgetExpiry walk s) := by
  unfold execWalkBudgetExpiry; repeat' (first | (with_reducible first | assumption | apply inv_walkBudget | apply keeps_next))
theorem inv_execFaultBatchWindow {s : State} (hI : Kept q s) : Keeps q (execFaultBatchWindow s) := by
  unfold execFaultBatchWindow; repeat' (first | (with_reducible first | assumption | apply inv_faultClose | apply keeps_next))
theorem inv_execFaultRingTailWrite (value : Word) {s : State} (hI : Kept q s) : Keeps q (execFaultRingTailWrite value s) := by
  unfold execFaultRingTailWrite; repeat' (first | (with_reducible first | assumption | apply inv_frTailWrite | apply keeps_next))
theorem inv_execHbFrCtrlWrite (value : Word) {s : State} (hI : Kept q s) : Keeps q (execHbFrCtrlWrite value s) := by
  unfold execHbFrCtrlWrite; repeat' (first | (with_reducible first | assumption | apply inv_frCtrlWrite | apply keeps_next))
theorem inv_execMigrationPageLanded (tag page : Nat) {s : State} (hI : Kept q s) : Keeps q (execMigrationPageLanded tag page s) := by
  unfold execMigrationPageLanded; repeat' (first | (with_reducible first | assumption | apply inv_pageLanded | apply keeps_next))
theorem inv_execMigrationAbandon (tag page : Nat) {s : State} (hI : Kept q s) : Keeps q (execMigrationAbandon tag page s) := by
  unfold execMigrationAbandon; repeat' (first | (with_reducible first | assumption | apply inv_pageAbandon | apply keeps_next))
theorem inv_execPageRelease (tag page : Nat) {s : State} (hI : Kept q s) : Keeps q (execPageRelease tag page s) := by
  unfold execPageRelease; repeat' (first | (with_reducible first | assumption | apply inv_pageRelease | apply keeps_next))
theorem inv_execInvLaneDoorbell (lane value : Nat) {s : State} (hI : Kept q s) : Keeps q (execInvLaneDoorbell lane value s) := by
  unfold execInvLaneDoorbell; repeat' (first | (with_reducible first | assumption | apply inv_invLane | apply keeps_next))
theorem inv_execInvalidationComplete (id : Nat) {s : State} (hI : Kept q s) : Keeps q (execInvalidationComplete id s) := by
  unfold execInvalidationComplete; repeat' (first | (with_reducible first | assumption | apply inv_invComplete | apply keeps_next))
theorem inv_execAstCreate (c : HostCall) {s : State} (hI : Kept q s) : Keeps q (execAstCreate c s) := by
  unfold execAstCreate; repeat' (first | (with_reducible first | assumption | apply inv_astCreateBody | apply inv_runCmd | apply keeps_next))
theorem inv_execAstDestroy (c : HostCall) {s : State} (hI : Kept q s) : Keeps q (execAstDestroy c s) := by
  unfold execAstDestroy; repeat' (first | (with_reducible first | assumption | apply inv_astDestroyBody | apply inv_runCmd | apply keeps_next))
theorem inv_execAstInvalidate (c : HostCall) {s : State} (hI : Kept q s) : Keeps q (execAstInvalidate c s) := by
  unfold execAstInvalidate; repeat' (first | (with_reducible first | assumption | apply inv_astInvalidateBody | apply inv_runCmd | apply keeps_next))
theorem inv_execPrefetch (c : HostCall) {s : State} (hI : Kept q s) : Keeps q (execPrefetch c s) := by
  unfold execPrefetch; repeat' (first | (with_reducible first | assumption | apply inv_prefetchBody | apply inv_runCmd | apply keeps_next))
theorem inv_execAdvise (c : HostCall) {s : State} (hI : Kept q s) : Keeps q (execAdvise c s) := by
  unfold execAdvise; repeat' (first | (with_reducible first | assumption | apply inv_adviseBody | apply inv_runCmd | apply keeps_next))
theorem inv_execFaultResume (c : HostCall) {s : State} (hI : Kept q s) : Keeps q (execFaultResume c s) := by
  unfold execFaultResume; repeat' (first | (with_reducible first | assumption | apply inv_faultResumeBody | apply inv_runCmd | apply keeps_next))
theorem inv_execMirrorSet (c : HostCall) {s : State} (hI : Kept q s) : Keeps q (execMirrorSet c s) := by
  unfold execMirrorSet; repeat' (first | (with_reducible first | assumption | apply inv_mirrorSetBody | apply inv_runCmd | apply keeps_next))
theorem inv_execRegionSet (c : HostCall) {s : State} (hI : Kept q s) : Keeps q (execRegionSet c s) := by
  unfold execRegionSet; repeat' (first | (with_reducible first | assumption | apply inv_regionSetBody | apply inv_runCmd | apply keeps_next))
theorem inv_execModeSet (c : HostCall) {s : State} (hI : Kept q s) : Keeps q (execModeSet c s) := by
  unfold execModeSet; repeat' (first | (with_reducible first | assumption | apply inv_modeSetBody | apply inv_runCmd | apply keeps_next))
theorem inv_execProgLoad (c : HostCall) {s : State} (hI : Kept q s) : Keeps q (execProgLoad c s) := by
  unfold execProgLoad; repeat' (first | (with_reducible first | assumption | apply inv_progLoadBody | apply inv_runCmd | apply keeps_next))
theorem inv_execJobSubmit (c : HostCall) {s : State} (hI : Kept q s) : Keeps q (execJobSubmit c s) := by
  unfold execJobSubmit; repeat' (first | (with_reducible first | assumption | apply inv_jobSubmitBody | apply inv_runCmd | apply keeps_next))
theorem inv_execJobCancel (c : HostCall) {s : State} (hI : Kept q s) : Keeps q (execJobCancel c s) := by
  unfold execJobCancel; repeat' (first | (with_reducible first | assumption | apply inv_jobCancelBody | apply inv_runCmd | apply keeps_next))
theorem inv_execJobStatus (c : HostCall) {s : State} (hI : Kept q s) : Keeps q (execJobStatus c s) := by
  unfold execJobStatus; repeat' (first | (with_reducible first | assumption | apply inv_jobStatusBody | apply inv_runCmd | apply keeps_next))
theorem inv_execRcptFlush (c : HostCall) {s : State} (hI : Kept q s) : Keeps q (execRcptFlush c s) := by
  unfold execRcptFlush; repeat' (first | (with_reducible first | assumption | apply inv_rcptFlushBody | apply inv_runCmd | apply keeps_next))
theorem inv_execJobStart (job : Nat) {s : State} (hI : Kept q s) : Keeps q (execJobStart job s) := by
  unfold execJobStart; repeat' (first | (with_reducible first | assumption | apply inv_jobStart | apply keeps_next))
theorem inv_execResidueCheckFail (t job step : Nat) {s : State} (hI : Kept q s) : Keeps q (execResidueCheckFail t job step s) := by
  unfold execResidueCheckFail; repeat' (first | (with_reducible first | assumption | apply inv_residueFail | apply keeps_next))
theorem inv_execResidueAlarm (t : Nat) {s : State} (hI : Kept q s) : Keeps q (execResidueAlarm t s) := by
  unfold execResidueAlarm; repeat' (first | (with_reducible first | assumption | apply inv_residueAlarm | apply keeps_next))
theorem inv_execEccUncorrectable (t region line : Nat) (job handle : Option Nat) {s : State} (hI : Kept q s) : Keeps q (execEccUncorrectable t region line job handle s) := by
  unfold execEccUncorrectable; repeat' (first | (with_reducible first | assumption | apply inv_eccUe | apply keeps_next))
theorem inv_execJobFinal (job : Nat) (x : JobEnd) {s : State} (hI : Kept q s) : Keeps q (execJobFinal job x s) := by
  unfold execJobFinal; repeat' (first | (with_reducible first | assumption | apply inv_jobFinal | apply keeps_next))
theorem inv_execCompletionRingRoom (tag ctail : Nat) {s : State} (hI : Kept q s) : Keeps q (execCompletionRingRoom tag ctail s) := by
  unfold execCompletionRingRoom; repeat' (first | (with_reducible first | assumption | apply inv_ringRoom | apply keeps_next))
theorem inv_execCompletionQuantGrid {s : State} (hI : Kept q s) : Keeps q (execCompletionQuantGrid s) := by
  unfold execCompletionQuantGrid; repeat' (first | (with_reducible first | assumption | apply inv_quantGrid | apply keeps_next))
theorem inv_execDmaDescriptorStart (d stream job : Nat) {s : State} (hI : Kept q s) : Keeps q (execDmaDescriptorStart d stream job s) := by
  unfold execDmaDescriptorStart; repeat' (first | (with_reducible first | assumption | apply inv_dmaStart | apply keeps_next))
theorem inv_execRcptBatchTimeout {s : State} (hI : Kept q s) : Keeps q (execRcptBatchTimeout s) := by
  unfold execRcptBatchTimeout; repeat' (first | (with_reducible first | assumption | apply inv_closeDue | apply keeps_next))
theorem inv_execWpkOpen (c : HostCall) {s : State} (hI : Kept q s) : Keeps q (execWpkOpen c s) := by
  unfold execWpkOpen; repeat' (first | (with_reducible first | assumption | apply inv_runCmd | apply inv_wpkOpenBody | apply keeps_next))
theorem inv_execKeyRelease (c : HostCall) {s : State} (hI : Kept q s) : Keeps q (execKeyRelease c s) := by
  unfold execKeyRelease; repeat' (first | (with_reducible first | assumption | apply inv_keyReleaseBody | apply inv_runCmd | apply keeps_next))
theorem inv_execKeyReleaseSet (c : HostCall) {s : State} (hI : Kept q s) : Keeps q (execKeyReleaseSet c s) := by
  unfold execKeyReleaseSet; repeat' (first | (with_reducible first | assumption | apply inv_keyReleaseSetBody | apply inv_runCmd | apply keeps_next))
theorem inv_execWpkLoad (c : HostCall) {s : State} (hI : Kept q s) : Keeps q (execWpkLoad c s) := by
  unfold execWpkLoad; repeat' (first | (with_reducible first | assumption | apply inv_runCmd | apply inv_wpkLoadBody | apply keeps_next))
theorem inv_execWpkPageFold (x : PageIn) {s : State} (hI : Kept q s) : Keeps q (execWpkPageFold x s) := by
  unfold execWpkPageFold; repeat' (first | (with_reducible first | assumption | apply inv_wpkPage | apply keeps_next))
theorem inv_execWpkFinish (c : HostCall) {s : State} (hI : Kept q s) : Keeps q (execWpkFinish c s) := by
  unfold execWpkFinish; repeat' (first | (with_reducible first | assumption | apply inv_runCmd | apply inv_wpkFinishBody | apply keeps_next))
theorem inv_execWpkStatus (c : HostCall) {s : State} (hI : Kept q s) : Keeps q (execWpkStatus c s) := by
  unfold execWpkStatus; repeat' (first | (with_reducible first | assumption | apply inv_runCmd | apply inv_wpkStatusBody | apply keeps_next))
theorem inv_execWpkClose (c : HostCall) {s : State} (hI : Kept q s) : Keeps q (execWpkClose c s) := by
  unfold execWpkClose; repeat' (first | (with_reducible first | assumption | apply inv_runCmd | apply inv_wpkCloseBody | apply keeps_next))
theorem inv_execTagFailure (t addr : Nat) (onDie : Bool) {s : State} (hI : Kept q s) : Keeps q (execTagFailure t addr onDie s) := by
  unfold execTagFailure; repeat' (first | (with_reducible first | assumption | apply inv_tagFailure | apply keeps_next))
theorem inv_execStackLineAccess (t line : Nat) (write : Option Bytes) {s : State} (hI : Kept q s) : Keeps q (execStackLineAccess t line write s) := by
  unfold execStackLineAccess; repeat' (first | (with_reducible first | assumption | apply inv_stackLine | apply keeps_next))
theorem inv_execStackTempThreshold (t temp : Nat) {s : State} (hI : Kept q s) : Keeps q (execStackTempThreshold t temp s) := by
  unfold execStackTempThreshold; repeat' (first | (with_reducible first | assumption | apply inv_stackTemp | apply keeps_next))
theorem inv_execSpillPageRead (page job : Nat) {s : State} (hI : Kept q s) : Keeps q (execSpillPageRead page job s) := by
  unfold execSpillPageRead; repeat' (first | (with_reducible first | assumption | apply inv_spillRead | apply keeps_next))
theorem inv_execSpillFetchDone (page : Nat) (ok : Bool) {s : State} (hI : Kept q s) : Keeps q (execSpillFetchDone page ok s) := by
  unfold execSpillFetchDone; repeat' (first | (with_reducible first | assumption | apply inv_spillFetched | apply keeps_next))
theorem inv_execDigestLaneResult (dest : LaneDest) (chunk : Nat) (data : Bytes) {s : State} (hI : Kept q s) : Keeps q (execDigestLaneResult dest chunk data s) := by
  unfold execDigestLaneResult; repeat' (first | (with_reducible first | assumption | apply inv_laneResult | apply keeps_next))
theorem inv_execAttReport (c : HostCall) {s : State} (hI : Kept q s) : Keeps q (execAttReport c s) := by
  unfold execAttReport; repeat' (first | (with_reducible first | assumption | apply inv_attReportBody | apply inv_runCmd | apply keeps_next))
theorem inv_execAttCerts (c : HostCall) {s : State} (hI : Kept q s) : Keeps q (execAttCerts c s) := by
  unfold execAttCerts; repeat' (first | (with_reducible first | assumption | apply inv_attCertsBody | apply inv_runCmd | apply keeps_next))
theorem inv_execAttMeasLog (c : HostCall) {s : State} (hI : Kept q s) : Keeps q (execAttMeasLog c s) := by
  unfold execAttMeasLog; repeat' (first | (with_reducible first | assumption | apply inv_attMeasLogBody | apply inv_runCmd | apply keeps_next))
theorem inv_execAttEphemeral (c : HostCall) {s : State} (hI : Kept q s) : Keeps q (execAttEphemeral c s) := by
  unfold execAttEphemeral; repeat' (first | (with_reducible first | assumption | apply inv_attEphemeralBody | apply inv_runCmd | apply keeps_next))
theorem inv_execTenantEnroll (c : HostCall) {s : State} (hI : Kept q s) : Keeps q (execTenantEnroll c s) := by
  unfold execTenantEnroll; repeat' (first | (with_reducible first | assumption | apply inv_runCmd | apply inv_tenantEnrollBody | apply keeps_next))
theorem inv_execTenantStage (c : HostCall) {s : State} (hI : Kept q s) : Keeps q (execTenantStage c s) := by
  unfold execTenantStage; repeat' (first | (with_reducible first | assumption | apply inv_runCmd | apply inv_tenantStageBody | apply keeps_next))
theorem inv_execTenantLoad (c : HostCall) {s : State} (hI : Kept q s) : Keeps q (execTenantLoad c s) := by
  unfold execTenantLoad; repeat' (first | (with_reducible first | assumption | apply inv_runCmd | apply inv_tenantLoadBody | apply keeps_next))
theorem inv_execTenantEvict (c : HostCall) {s : State} (hI : Kept q s) : Keeps q (execTenantEvict c s) := by
  unfold execTenantEvict; repeat' (first | (with_reducible first | assumption | apply inv_runCmd | apply inv_tenantEvictBody | apply keeps_next))
theorem inv_execTenantRevoke (c : HostCall) {s : State} (hI : Kept q s) : Keeps q (execTenantRevoke c s) := by
  unfold execTenantRevoke; repeat' (first | (with_reducible first | assumption | apply inv_runCmd | apply inv_tenantRevokeBody | apply keeps_next))
theorem inv_execTenantStatus (c : HostCall) {s : State} (hI : Kept q s) : Keeps q (execTenantStatus c s) := by
  unfold execTenantStatus; repeat' (first | (with_reducible first | assumption | apply inv_runCmd | apply inv_tenantStatusBody | apply keeps_next))
theorem inv_execTenantList (c : HostCall) {s : State} (hI : Kept q s) : Keeps q (execTenantList c s) := by
  unfold execTenantList; repeat' (first | (with_reducible first | assumption | apply inv_runCmd | apply inv_tenantListBody | apply keeps_next))
theorem inv_execTenantClearReceipt (c : HostCall) {s : State} (hI : Kept q s) : Keeps q (execTenantClearReceipt c s) := by
  unfold execTenantClearReceipt; repeat' (first | (with_reducible first | assumption | apply inv_runCmd | apply inv_tenantReceiptBody | apply keeps_next))
theorem inv_execLoadingUnitAck (u : Nat) {s : State} (hI : Kept q s) : Keeps q (execLoadingUnitAck u s) := by
  unfold execLoadingUnitAck; repeat' (first | (with_reducible first | assumption | apply inv_loadAck | apply keeps_next))
theorem inv_execLoadingAckTimeout {s : State} (hI : Kept q s) : Keeps q (execLoadingAckTimeout s) := by
  unfold execLoadingAckTimeout; repeat' (first | (with_reducible first | assumption | apply inv_loadTimeout | apply keeps_next))
theorem inv_execLoadingSelftestPass {s : State} (hI : Kept q s) : Keeps q (execLoadingSelftestPass s) := by
  unfold execLoadingSelftestPass; repeat' (first | (with_reducible first | assumption | apply inv_loadPass | apply keeps_next))
theorem inv_execSwitchHaltDone {s : State} (hI : Kept q s) : Keeps q (execSwitchHaltDone s) := by
  unfold execSwitchHaltDone; repeat' (first | (with_reducible first | assumption | apply inv_switchHalted | apply keeps_next | apply inv_ite))
theorem inv_execSwitchHaltTimeout {s : State} (hI : Kept q s) : Keeps q (execSwitchHaltTimeout s) := by
  unfold execSwitchHaltTimeout; repeat' (first | (with_reducible first | assumption | apply inv_switchHalted | apply keeps_next))
theorem inv_execFlashWriteDone (ok : Bool) {s : State} (hI : Kept q s) : Keeps q (execFlashWriteDone ok s) := by
  unfold execFlashWriteDone; repeat' (first | (with_reducible first | assumption | apply inv_flashDone | apply keeps_next))
theorem inv_execLinkStatus (c : HostCall) {s : State} (hI : Kept q s) : Keeps q (execLinkStatus c s) := by
  unfold execLinkStatus; repeat' (first | (with_reducible first | assumption | apply inv_linkStatusBody | apply inv_runCmd | apply keeps_next))
theorem inv_execLinkKeyx (c : HostCall) {s : State} (hI : Kept q s) : Keeps q (execLinkKeyx c s) := by
  unfold execLinkKeyx; repeat' (first | (with_reducible first | assumption | apply inv_linkKeyxBody | apply inv_runCmd | apply keeps_next))
theorem inv_execLinkJobEnd (c : HostCall) {s : State} (hI : Kept q s) : Keeps q (execLinkJobEnd c s) := by
  unfold execLinkJobEnd; repeat' (first | (with_reducible first | assumption | apply inv_linkJobEndBody | apply inv_runCmd | apply keeps_next))
theorem inv_execLinkBounds (c : HostCall) {s : State} (hI : Kept q s) : Keeps q (execLinkBounds c s) := by
  unfold execLinkBounds; repeat' (first | (with_reducible first | assumption | apply inv_linkBoundsBody | apply inv_runCmd | apply keeps_next))
theorem inv_execLinkClear (c : HostCall) {s : State} (hI : Kept q s) : Keeps q (execLinkClear c s) := by
  unfold execLinkClear; repeat' (first | (with_reducible first | assumption | apply inv_linkClearBody | apply inv_runCmd | apply keeps_next))
theorem inv_execLinkSignalDetect (u p : Nat) {s : State} (hI : Kept q s) : Keeps q (execLinkSignalDetect u p s) := by
  unfold execLinkSignalDetect; repeat' (first | (with_reducible first | assumption | apply inv_linkSignal | apply keeps_next))
theorem inv_execLinkHelloComplete (u p daddr : Nat) (ntag : Bytes) {s : State} (hI : Kept q s) : Keeps q (execLinkHelloComplete u p daddr ntag s) := by
  unfold execLinkHelloComplete; repeat' (first | (with_reducible first | assumption | apply inv_linkHello | apply keeps_next))
theorem inv_execLinkSignalLost (u p : Nat) {s : State} (hI : Kept q s) : Keeps q (execLinkSignalLost u p s) := by
  unfold execLinkSignalLost; repeat' (first | (with_reducible first | assumption | apply inv_linkLost | apply keeps_next))
theorem inv_execLinkHoldExpiry (u p : Nat) {s : State} (hI : Kept q s) : Keeps q (execLinkHoldExpiry u p s) := by
  unfold execLinkHoldExpiry; repeat' (first | (with_reducible first | assumption | apply inv_linkHoldEnd | apply keeps_next))
theorem inv_execFlitReceived (u p : Nat) (flit : Bytes) {s : State} (hI : Kept q s) : Keeps q (execFlitReceived u p flit s) := by
  unfold execFlitReceived; repeat' (first | (with_reducible first | assumption | apply inv_flitRecv | apply keeps_next))
theorem inv_execLinkMessageSend (x : SendIn) {s : State} (hI : Kept q s) : Keeps q (execLinkMessageSend x s) := by
  unfold execLinkMessageSend; repeat' (first | (with_reducible first | assumption | apply inv_linkSend | apply keeps_next))
theorem inv_execLinkDegraded (u p : Nat) {s : State} (hI : Kept q s) : Keeps q (execLinkDegraded u p s) := by
  unfold execLinkDegraded; repeat' (first | (with_reducible first | assumption | apply inv_linkDegrade | apply keeps_next))
theorem inv_execLinkDegradedRecovery (u p : Nat) {s : State} (hI : Kept q s) : Keeps q (execLinkDegradedRecovery u p s) := by
  unfold execLinkDegradedRecovery; repeat' (first | (with_reducible first | assumption | apply inv_linkRecover | apply keeps_next))
theorem inv_execLinkRetrainWrite (u p : Nat) {s : State} (hI : Kept q s) : Keeps q (execLinkRetrainWrite u p s) := by
  unfold execLinkRetrainWrite; repeat' (first | (with_reducible first | assumption | apply inv_linkRetrain | apply keeps_next))
theorem inv_execKeyxPendingTimeout (job : Nat) {s : State} (hI : Kept q s) : Keeps q (execKeyxPendingTimeout job s) := by
  unfold execKeyxPendingTimeout; repeat' (first | (with_reducible first | assumption | apply inv_keyxTimeout | apply keeps_next))
theorem inv_execPwrStatus (c : HostCall) {s : State} (hI : Kept q s) : Keeps q (execPwrStatus c s) := by
  unfold execPwrStatus; repeat' (first | (with_reducible first | assumption | apply inv_pwrStatusBody | apply inv_runCmd | apply keeps_next))
theorem inv_execPwrCapSet (c : HostCall) {s : State} (hI : Kept q s) : Keeps q (execPwrCapSet c s) := by
  unfold execPwrCapSet; repeat' (first | (with_reducible first | assumption | apply inv_pwrCapBody | apply inv_runCmd | apply keeps_next))
theorem inv_execLimitTighten (c : HostCall) {s : State} (hI : Kept q s) : Keeps q (execLimitTighten c s) := by
  unfold execLimitTighten; repeat' (first | (with_reducible first | assumption | apply inv_limitBody | apply inv_runCmd | apply keeps_next))
theorem inv_execMemTelem (c : HostCall) {s : State} (hI : Kept q s) : Keeps q (execMemTelem c s) := by
  unfold execMemTelem; repeat' (first | (with_reducible first | assumption | apply inv_memTelemBody | apply inv_runCmd | apply keeps_next))
theorem inv_execPerfRead (c : HostCall) {s : State} (hI : Kept q s) : Keeps q (execPerfRead c s) := by
  unfold execPerfRead; repeat' (first | (with_reducible first | assumption | apply inv_perfReadBody | apply inv_runCmd | apply keeps_next))
theorem inv_execPowerDown (c : HostCall) {s : State} (hI : Kept q s) : Keeps q (execPowerDown c s) := by
  unfold execPowerDown; repeat' (first | (with_reducible first | assumption | apply inv_powerDownBody | apply inv_runCmd | apply keeps_next))
theorem inv_execTelemThresh (c : HostCall) {s : State} (hI : Kept q s) : Keeps q (execTelemThresh c s) := by
  unfold execTelemThresh; repeat' (first | (with_reducible first | assumption | apply inv_runCmd | apply inv_telemThreshBody | apply keeps_next))
theorem inv_execIrqQuant (c : HostCall) {s : State} (hI : Kept q s) : Keeps q (execIrqQuant c s) := by
  unfold execIrqQuant; repeat' (first | (with_reducible first | assumption | apply inv_irqQuantBody | apply inv_runCmd | apply keeps_next))
theorem inv_execTjShutdownTrip (t : Nat) {s : State} (hI : Kept q s) : Keeps q (execTjShutdownTrip t s) := by
  unfold execTjShutdownTrip; repeat' (first | (with_reducible first | assumption | apply inv_tjTrip | apply keeps_next))
theorem inv_execVcoreCeilingTrip (t : Nat) {s : State} (hI : Kept q s) : Keeps q (execVcoreCeilingTrip t s) := by
  unfold execVcoreCeilingTrip; repeat' (first | (with_reducible first | assumption | apply inv_vcoreTrip | apply keeps_next))
theorem inv_execSensorMismatch (t : Nat) {s : State} (hI : Kept q s) : Keeps q (execSensorMismatch t s) := by
  unfold execSensorMismatch; repeat' (first | (with_reducible first | assumption | apply inv_sensorTrip | apply keeps_next))
theorem inv_execThrottleConversion (t tenths : Nat) {s : State} (hI : Kept q s) : Keeps q (execThrottleConversion t tenths s) := by
  unfold execThrottleConversion; repeat' (first | (with_reducible first | assumption | apply inv_conversion | apply keeps_next))
theorem inv_execThrottleReleaseStep (t : Nat) {s : State} (hI : Kept q s) : Keeps q (execThrottleReleaseStep t s) := by
  unfold execThrottleReleaseStep; repeat' (first | (with_reducible first | assumption | apply inv_throttleRelease | apply keeps_next))
theorem inv_execAvsLoopStep (t target favs : Nat) {s : State} (hI : Kept q s) : Keeps q (execAvsLoopStep t target favs s) := by
  unfold execAvsLoopStep; repeat' (first | (with_reducible first | assumption | apply inv_avsStep | apply keeps_next))
theorem inv_execDroopEvent (t : Nat) {s : State} (hI : Kept q s) : Keeps q (execDroopEvent t s) := by
  unfold execDroopEvent; repeat' (first | (with_reducible first | assumption | apply inv_droop | apply keeps_next))
theorem inv_execBrakeNAssert {s : State} (hI : Kept q s) : Keeps q (execBrakeNAssert s) := by
  unfold execBrakeNAssert; repeat' (first | (with_reducible first | assumption | apply inv_brakeAssert | apply keeps_next))
theorem inv_execBrakeNDeassert {s : State} (hI : Kept q s) : Keeps q (execBrakeNDeassert s) := by
  unfold execBrakeNDeassert; repeat' (first | (with_reducible first | assumption | apply inv_brakeDeassert | apply keeps_next))
theorem inv_execBrakeRampStep {s : State} (hI : Kept q s) : Keeps q (execBrakeRampStep s) := by
  unfold execBrakeRampStep; repeat' (first | (with_reducible first | assumption | apply inv_brakeRamp | apply keeps_next))
theorem inv_execPowerMonitorSample (watts : Option Nat) {s : State} (hI : Kept q s) : Keeps q (execPowerMonitorSample watts s) := by
  unfold execPowerMonitorSample; repeat' (first | (with_reducible first | assumption | apply inv_powerSample | apply keeps_next))
theorem inv_execPowerCapLoop {s : State} (hI : Kept q s) : Keeps q (execPowerCapLoop s) := by
  unfold execPowerCapLoop; repeat' (first | (with_reducible first | assumption | apply inv_capLoop | apply keeps_next))
theorem inv_execTelemetryUpdate {s : State} (hI : Kept q s) : Keeps q (execTelemetryUpdate s) := by
  unfold execTelemetryUpdate; repeat' (first | (with_reducible first | assumption | apply inv_telemUpdate | apply keeps_next))
theorem inv_execLinkTrainingFail (u p : Nat) {s : State} (hI : Kept q s) : Keeps q (execLinkTrainingFail u p s) := by
  unfold execLinkTrainingFail; repeat' (first | (with_reducible first | assumption | apply inv_linkTrainFail | apply inv_mapOutBy | apply inv_sqEvent | apply keeps_next) | (intro s h; have : Kept q s := h))
theorem inv_execFlitAckTimeout (u p : Nat) {s : State} (hI : Kept q s) : Keeps q (execFlitAckTimeout u p s) := by
  unfold execFlitAckTimeout; repeat' (first | (with_reducible first | assumption | apply inv_ackTimeout | apply inv_mapOutBy | apply inv_sqEvent | apply keeps_next) | (intro s h; have : Kept q s := h))
theorem inv_execLinkUncorrLimit (u p : Nat) {s : State} (hI : Kept q s) : Keeps q (execLinkUncorrLimit u p s) := by
  unfold execLinkUncorrLimit; repeat' (first | (with_reducible first | assumption | apply inv_mapOut | apply inv_mapOutBy | apply inv_sqEvent | apply keeps_next | apply inv_ite) | (intro s h; have : Kept q s := h))
theorem inv_execLinkDegradedTimeout (u p : Nat) {s : State} (hI : Kept q s) : Keeps q (execLinkDegradedTimeout u p s) := by
  unfold execLinkDegradedTimeout; repeat' (first | (with_reducible first | assumption | apply inv_mapOut | apply inv_mapOutBy | apply inv_sqEvent | apply keeps_next | apply inv_ite) | (intro s h; have : Kept q s := h))
theorem inv_execFabricWindowAccess (u off : Nat) (write : Bool) (value : Word) (answered : Bool) {s : State} (hI : Kept q s) : Keeps q (execFabricWindowAccess u off write value answered s) := by
  unfold execFabricWindowAccess; repeat' (first | (with_reducible first | assumption | apply inv_fabricAccess | apply keeps_next))
theorem inv_execFabricWindowTimeout {s : State} (hI : Kept q s) : Keeps q (execFabricWindowTimeout s) := by
  unfold execFabricWindowTimeout; repeat' (first | (with_reducible first | assumption | apply inv_fabricTimeout | apply keeps_next))
theorem inv_execImbCommandDoorbell (u : Nat) (frame : Bytes) {s : State} (hI : Kept q s) : Keeps q (execImbCommandDoorbell u frame s) := by
  unfold execImbCommandDoorbell; repeat' (first | (with_reducible first | assumption | apply inv_imbSend | apply keeps_next))
theorem inv_execImbResponse (u gen : Nat) (frame : Bytes) {s : State} (hI : Kept q s) : Keeps q (execImbResponse u gen frame s) := by
  unfold execImbResponse; repeat' (first | (with_reducible first | assumption | apply inv_imbPost | apply inv_sqEvent | apply keeps_next))
theorem inv_execImbRspClear (u : Nat) {s : State} (hI : Kept q s) : Keeps q (execImbRspClear u s) := by
  unfold execImbRspClear; repeat' (first | (with_reducible first | assumption | apply inv_imbClear | apply inv_sqEvent | apply keeps_next))
theorem inv_execUnitEvent (u gen : Nat) (payload : Bytes) {s : State} (hI : Kept q s) : Keeps q (execUnitEvent u gen payload s) := by
  unfold execUnitEvent; repeat' (first | (with_reducible first | assumption | apply inv_imbPost | apply inv_sqEvent | apply keeps_next))
theorem inv_execUnitReady (u gen version : Nat) {s : State} (hI : Kept q s) : Keeps q (execUnitReady u gen version s) := by
  unfold execUnitReady; repeat' (first | (with_reducible first | assumption | apply inv_imbPost | apply inv_sqEvent | apply keeps_next))
theorem inv_execUnitHeartbeat (u : Nat) {s : State} (hI : Kept q s) : Keeps q (execUnitHeartbeat u s) := by
  unfold execUnitHeartbeat; repeat' (first | (with_reducible first | assumption | apply inv_heartbeat | apply keeps_next))
theorem inv_execHeartbeatLimit (u : Nat) {s : State} (hI : Kept q s) : Keeps q (execHeartbeatLimit u s) := by
  unfold execHeartbeatLimit; repeat' (first | (with_reducible first | assumption | apply inv_heartbeatOver | apply keeps_next))
theorem inv_execTileEnter (t : Nat) {s : State} (hI : Kept q s) : Keeps q (execTileEnter t s) := by
  unfold execTileEnter
  refine keeps_next (inv_sqEvent _ hI (fun s h => inv_unitHandles _ _ _ h (fun p s x h e => ?_)))
  (try dsimp only at e)
  (repeat' split at e) <;> first | cases e | (obtain rfl := Option.some.inj e)
  all_goals exact inv_tileEnter _ _ h
theorem inv_execProgInstall (t phandle : Nat) {s : State} (hI : Kept q s) : Keeps q (execProgInstall t phandle s) := by
  unfold execProgInstall
  refine keeps_next (inv_sqEvent _ hI (fun s h => inv_unitHandles _ _ _ h (fun p s x h e => ?_)))
  (try dsimp only at e)
  (repeat' split at e) <;> first | cases e | (obtain rfl := Option.some.inj e)
  all_goals exact inv_tileInstall _ _ h
theorem inv_execJobEnqueue (t job : Nat) {s : State} (hI : Kept q s) : Keeps q (execJobEnqueue t job s) := by
  unfold execJobEnqueue
  refine keeps_next (inv_sqEvent _ hI (fun s h => inv_unitHandles _ _ _ h (fun p s x h e => ?_)))
  (try dsimp only at e)
  (repeat' split at e) <;> first | cases e | (obtain rfl := Option.some.inj e)
  all_goals exact inv_tileEnqueue _ _ _ h
theorem inv_execJobAbort (t job reason : Nat) {s : State} (hI : Kept q s) : Keeps q (execJobAbort t job reason s) := by
  unfold execJobAbort
  refine keeps_next (inv_sqEvent _ hI (fun s h => inv_unitHandles _ _ _ h (fun p s x h e => ?_)))
  (try dsimp only at e)
  (repeat' split at e) <;> first | cases e | (obtain rfl := Option.some.inj e)
  all_goals exact inv_tileAbort _ _ _ h
theorem inv_execSelftest (t : Nat) (pass : Bool) {s : State} (hI : Kept q s) : Keeps q (execSelftest t pass s) := by
  unfold execSelftest
  refine keeps_next (inv_sqEvent _ hI (fun s h => inv_unitHandles _ _ _ h (fun p s x h e => ?_)))
  (try dsimp only at e)
  (repeat' split at e) <;> first | cases e | (obtain rfl := Option.some.inj e)
  all_goals exact inv_upd.2 h
theorem inv_execTileStatus (t : Nat) {s : State} (hI : Kept q s) : Keeps q (execTileStatus t s) := by
  unfold execTileStatus
  refine keeps_next (inv_sqEvent _ hI (fun s h => inv_unitHandles _ _ _ h (fun p s x h e => ?_)))
  (try dsimp only at e)
  (repeat' split at e) <;> first | cases e | (obtain rfl := Option.some.inj e)
  all_goals exact h
theorem inv_execProgCopy (src target phandle : Nat) (good : Bool) {s : State} (hI : Kept q s) : Keeps q (execProgCopy src target phandle good s) := by
  unfold execProgCopy
  refine keeps_next (inv_sqEvent _ hI (fun s h => inv_unitHandles _ _ _ h (fun p s x h e => ?_)))
  (try dsimp only at e)
  (repeat' split at e) <;> first | cases e | (obtain rfl := Option.some.inj e)
  all_goals exact inv_progCopy _ _ _ h
theorem inv_execPortEnter (u : Nat) {s : State} (hI : Kept q s) : Keeps q (execPortEnter u s) := by
  unfold execPortEnter
  refine keeps_next (inv_sqEvent _ hI (fun s h => inv_unitHandles _ _ _ h (fun p s x h e => ?_)))
  (try dsimp only at e)
  (repeat' split at e) <;> first | cases e | (obtain rfl := Option.some.inj e)
  all_goals exact inv_portEnter _ _ h
theorem inv_execLinkCfg (u port : Nat) (bounds : Bytes) {s : State} (hI : Kept q s) : Keeps q (execLinkCfg u port bounds s) := by
  unfold execLinkCfg
  refine keeps_next (inv_sqEvent _ hI (fun s h => inv_unitHandles _ _ _ h (fun p s x h e => ?_)))
  (try dsimp only at e)
  (repeat' split at e) <;> first | cases e | (obtain rfl := Option.some.inj e)
  all_goals exact inv_linkCfg _ _ _ h
theorem inv_execLinkTrain (u mask : Nat) {s : State} (hI : Kept q s) : Keeps q (execLinkTrain u mask s) := by
  unfold execLinkTrain
  refine keeps_next (inv_sqEvent _ hI (fun s h => inv_unitHandles _ _ _ h (fun p s x h e => ?_)))
  (try dsimp only at e)
  (repeat' split at e) <;> first | cases e | (obtain rfl := Option.some.inj e)
  all_goals exact inv_linkTrain _ _ h
theorem inv_execLinkQuery (u : Nat) {s : State} (hI : Kept q s) : Keeps q (execLinkQuery u s) := by
  unfold execLinkQuery
  refine keeps_next (inv_sqEvent _ hI (fun s h => inv_unitHandles _ _ _ h (fun p s x h e => ?_)))
  (try dsimp only at e)
  (repeat' split at e) <;> first | cases e | (obtain rfl := Option.some.inj e)
  all_goals exact h
theorem inv_execUnitStatus (c : HostCall) {s : State} (hI : Kept q s) : Keeps q (execUnitStatus c s) := by
  unfold execUnitStatus; repeat' (first | (with_reducible first | assumption | apply inv_runCmd | apply inv_unitStatusBody | apply keeps_next))
theorem inv_execThermalLoop {s : State} (hI : Kept q s) : Keeps q (execThermalLoop s) := by
  unfold execThermalLoop; repeat' (first | (with_reducible first | assumption | apply inv_thermLoop | apply inv_viewCheck | apply inv_foldl | apply keeps_next) | (intro s x h; have : Kept q s := h))
theorem inv_execUpdStatus (c : HostCall) {s : State} (hI : Kept q s) : Keeps q (execUpdStatus c s) := by
  unfold execUpdStatus; repeat' (first | (with_reducible first | assumption | apply inv_runCmd | apply inv_updStatusBody | apply keeps_next))
theorem inv_execUpdBegin (c : HostCall) {s : State} (hI : Kept q s) : Keeps q (execUpdBegin c s) := by
  unfold execUpdBegin; repeat' (first | (with_reducible first | assumption | apply inv_runCmd | apply inv_updBeginBody | apply keeps_next))
theorem inv_execUpdData (c : HostCall) {s : State} (hI : Kept q s) : Keeps q (execUpdData c s) := by
  unfold execUpdData; repeat' (first | (with_reducible first | assumption | apply inv_runCmd | apply inv_updDataBody | apply keeps_next))
theorem inv_execUpdEnd (c : HostCall) {s : State} (hI : Kept q s) : Keeps q (execUpdEnd c s) := by
  unfold execUpdEnd; repeat' (first | (with_reducible first | assumption | apply inv_runCmd | apply inv_updEndBody | apply keeps_next))
theorem inv_execUpdVerify (c : HostCall) {s : State} (hI : Kept q s) : Keeps q (execUpdVerify c s) := by
  unfold execUpdVerify; repeat' (first | (with_reducible first | assumption | apply inv_runCmd | apply inv_updVerifyBody | apply keeps_next))
theorem inv_execUpdActivate (c : HostCall) {s : State} (hI : Kept q s) : Keeps q (execUpdActivate c s) := by
  unfold execUpdActivate; repeat' (first | (with_reducible first | assumption | apply inv_runCmd | apply inv_updActivateBody | apply keeps_next))
theorem inv_execUpdCancel (c : HostCall) {s : State} (hI : Kept q s) : Keeps q (execUpdCancel c s) := by
  unfold execUpdCancel; repeat' (first | (with_reducible first | assumption | apply inv_runCmd | apply inv_updCancelBody | apply keeps_next))
theorem inv_execTrialHealthCheck (ok : Bool) {s : State} (hI : Kept q s) : Keeps q (execTrialHealthCheck ok s) := by
  unfold execTrialHealthCheck; repeat' (first | (with_reducible first | assumption | apply inv_trialCheck | apply keeps_next))
theorem inv_execLogRead (c : HostCall) {s : State} (hI : Kept q s) : Keeps q (execLogRead c s) := by
  unfold execLogRead; repeat' (first | (with_reducible first | assumption | apply inv_logReadBody | apply inv_runCmd | apply keeps_next))
theorem inv_execLogConfig (c : HostCall) {s : State} (hI : Kept q s) : Keeps q (execLogConfig c s) := by
  unfold execLogConfig; repeat' (first | (with_reducible first | assumption | apply inv_logConfigBody | apply inv_runCmd | apply keeps_next))
theorem inv_execTraceConfig (c : HostCall) {s : State} (hI : Kept q s) : Keeps q (execTraceConfig c s) := by
  unfold execTraceConfig; repeat' (first | (with_reducible first | assumption | apply inv_runCmd | apply inv_traceConfigBody | apply keeps_next))
theorem inv_execTraceRead (c : HostCall) {s : State} (hI : Kept q s) : Keeps q (execTraceRead c s) := by
  unfold execTraceRead; repeat' (first | (with_reducible first | assumption | apply inv_runCmd | apply inv_traceReadBody | apply keeps_next))
theorem inv_execRcptBatch (c : HostCall) {s : State} (hI : Kept q s) : Keeps q (execRcptBatch c s) := by
  unfold execRcptBatch; repeat' (first | (with_reducible first | assumption | apply inv_rcptBatchBody | apply inv_runCmd | apply keeps_next))
theorem inv_execSvcNonce (c : HostCall) {s : State} (hI : Kept q s) : Keeps q (execSvcNonce c s) := by
  unfold execSvcNonce; repeat' (first | (with_reducible first | assumption | apply inv_runCmd | apply inv_svcNonceBody | apply keeps_next))
theorem inv_execLcAdvance (c : HostCall) {s : State} (hI : Kept q s) : Keeps q (execLcAdvance c s) := by
  unfold execLcAdvance; repeat' (first | (with_reducible first | assumption | apply inv_lcAdvanceBody | apply inv_runCmd | apply keeps_next))
theorem inv_execVkeyRevoke (c : HostCall) {s : State} (hI : Kept q s) : Keeps q (execVkeyRevoke c s) := by
  unfold execVkeyRevoke; repeat' (first | (with_reducible first | assumption | apply inv_runCmd | apply inv_vkeyRevokeBody | apply keeps_next))
theorem inv_execSvcQuarantine (c : HostCall) {s : State} (hI : Kept q s) : Keeps q (execSvcQuarantine c s) := by
  unfold execSvcQuarantine; repeat' (first | (with_reducible first | assumption | apply inv_runCmd | apply inv_svcQuarantineBody | apply keeps_next))
theorem inv_execWardenReset (c : HostCall) {s : State} (hI : Kept q s) : Keeps q (execWardenReset c s) := by
  unfold execWardenReset; repeat' (first | (with_reducible first | assumption | apply inv_runCmd | apply inv_wardenResetBody | apply keeps_next))
theorem inv_execOtCmdComplete (x : List PulseOut) {s : State} (hI : Kept q s) : Keeps q (execOtCmdComplete x s) := by
  unfold execOtCmdComplete; repeat' (first | (with_reducible first | assumption | apply inv_otComplete | apply inv_tokenOtpEnd | apply keeps_next | apply inv_ite))
theorem inv_execStandbyProgWindowExit {s : State} (hI : Kept q s) : Keeps q (execStandbyProgWindowExit s) := by
  unfold execStandbyProgWindowExit; repeat' (first | (with_reducible first | assumption | apply inv_otWindowExit | apply inv_setNotice | apply inv_tokenOtpEnd | apply keeps_next | apply inv_ite))
theorem inv_execPersistentLogFlush {s : State} (hI : Kept q s) : Keeps q (execPersistentLogFlush s) := by
  unfold execPersistentLogFlush; repeat' (first | (with_reducible first | assumption | apply inv_logFlush | apply keeps_next | apply inv_ite))
theorem inv_execPerstNAssert (d : Nat) {s : State} (hI : Kept q s) : Keeps q (execPerstNAssert d s) := by
  unfold execPerstNAssert; repeat' (first | (with_reducible first | assumption | apply inv_perstAssert | apply keeps_next))
theorem inv_execPerstNDeassert (d : Nat) {s : State} (hI : Kept q s) : Keeps q (execPerstNDeassert d s) := by
  unfold execPerstNDeassert; repeat' (first | (with_reducible first | assumption | apply inv_modFn | apply keeps_next | apply inv_ite))
theorem inv_execFunctionLevelReset (d : Nat) {s : State} (hI : Kept q s) : Keeps q (execFunctionLevelReset d s) := by
  unfold execFunctionLevelReset; repeat' (first | (with_reducible first | assumption | apply inv_flr | apply keeps_next))
theorem inv_execDataLinkLayerDown (d : Nat) {s : State} (hI : Kept q s) : Keeps q (execDataLinkLayerDown d s) := by
  unfold execDataLinkLayerDown; repeat' (first | (with_reducible first | assumption | apply inv_dllDown | apply keeps_next))
theorem inv_execRefclkPcieLoss {s : State} (hI : Kept q s) : Keeps q (execRefclkPcieLoss s) := by
  unfold execRefclkPcieLoss; repeat' (first | (with_reducible first | assumption | apply inv_dllDown | apply inv_foldl | apply keeps_next) | (intro s x h; have : Kept q s := h) | simp only [inv_upd])
theorem inv_execLinkUp (x : LinkIn) {s : State} (hI : Kept q s) : Keeps q (execLinkUp x s) := by
  unfold execLinkUp; repeat' (first | (with_reducible first | assumption | apply inv_linkUp | apply keeps_next))
theorem inv_execD3hotEntry (d : Nat) {s : State} (hI : Kept q s) : Keeps q (execD3hotEntry d s) := by
  unfold execD3hotEntry; repeat' (first | (with_reducible first | assumption | apply inv_modFn | apply keeps_next | apply inv_ite))
theorem inv_execD0Entry (d : Nat) {s : State} (hI : Kept q s) : Keeps q (execD0Entry d s) := by
  unfold execD0Entry; repeat' (first | (with_reducible first | assumption | apply inv_modFn | apply inv_sendPending | apply keeps_next))
theorem inv_execMsixUnmask (d vector : Nat) {s : State} (hI : Kept q s) : Keeps q (execMsixUnmask d vector s) := by
  unfold execMsixUnmask; repeat' (first | (with_reducible first | assumption | apply inv_modFn | apply inv_sendPending | apply keeps_next | apply inv_ite))
theorem inv_execMbxBufferWrite (ch off : Nat) (data : Bytes) {s : State} (hI : Kept q s) : Keeps q (execMbxBufferWrite ch off data s) := by
  unfold execMbxBufferWrite; repeat' (first | (with_reducible first | assumption | apply inv_mbxWrite | apply keeps_next))
theorem inv_execMbxDoorbell (ch len : Nat) {s : State} (hI : Kept q s) : Keeps q (execMbxDoorbell ch len s) := by
  unfold execMbxDoorbell; repeat' (first | (with_reducible first | assumption | apply inv_mbxDoorbell | apply keeps_next))
theorem inv_execMbxRspAck (ch : Nat) {s : State} (hI : Kept q s) : Keeps q (execMbxRspAck ch s) := by
  unfold execMbxRspAck; repeat' (first | (with_reducible first | assumption | apply inv_modChan | apply keeps_next | apply inv_ite | rfl) | intro _)
theorem inv_execHmbTake (ch : Nat) {s : State} (hI : Kept q s) : Keeps q (execHmbTake ch s) := by
  unfold execHmbTake; repeat' (first | (with_reducible first | assumption | apply inv_hmbTake | apply keeps_next))
theorem inv_execHmbMoveDone (ch : Nat) {s : State} (hI : Kept q s) : Keeps q (execHmbMoveDone ch s) := by
  unfold execHmbMoveDone; repeat' (first | (with_reducible first | assumption | apply inv_hmbMoveDone | apply inv_hostDispatch | apply keeps_next))
theorem inv_execJobDuplicateRelease (ch : Nat) {s : State} (hI : Kept q s) : Keeps q (execJobDuplicateRelease ch s) := by
  unfold execJobDuplicateRelease; repeat' (first | (with_reducible first | assumption | apply inv_dupRelease | apply keeps_next))
theorem inv_execHmbPost (ch : Nat) {s : State} (hI : Kept q s) : Keeps q (execHmbPost ch s) := by
  unfold execHmbPost; repeat' (first | (with_reducible first | assumption | apply inv_hmbPost | apply keeps_next))
theorem inv_execHmbClrrsp (ch : Nat) {s : State} (hI : Kept q s) : Keeps q (execHmbClrrsp ch s) := by
  unfold execHmbClrrsp; repeat' (first | (with_reducible first | assumption | apply inv_modChan | apply keeps_next | rfl) | intro _)
theorem inv_execFeatureOffer (c : HostCall) {s : State} (hI : Kept q s) : Keeps q (execFeatureOffer c s) := by
  unfold execFeatureOffer; repeat' (first | (with_reducible first | assumption | apply inv_featureOfferBody | apply inv_runCmd | apply keeps_next))
theorem inv_execFeatureAccept (c : HostCall) {s : State} (hI : Kept q s) : Keeps q (execFeatureAccept c s) := by
  unfold execFeatureAccept; repeat' (first | (with_reducible first | assumption | apply inv_featureAcceptBody | apply inv_runCmd | apply keeps_next))
theorem inv_execChannelReset (c : HostCall) {s : State} (hI : Kept q s) : Keeps q (execChannelReset c s) := by
  unfold execChannelReset; repeat' (first | (with_reducible first | assumption | apply inv_channelResetBody | apply inv_runCmd | apply keeps_next))
theorem inv_execResultRead (c : HostCall) {s : State} (hI : Kept q s) : Keeps q (execResultRead c s) := by
  unfold execResultRead; repeat' (first | (with_reducible first | assumption | apply inv_resultReadRun | apply keeps_next))
theorem inv_execResultRelease (c : HostCall) {s : State} (hI : Kept q s) : Keeps q (execResultRelease c s) := by
  unfold execResultRelease; repeat' (first | (with_reducible first | assumption | apply inv_resultReleaseBody | apply inv_runCmd | apply keeps_next))
theorem inv_execStagePut (c : HostCall) {s : State} (hI : Kept q s) : Keeps q (execStagePut c s) := by
  unfold execStagePut; repeat' (first | (with_reducible first | assumption | apply inv_runCmd | apply inv_stagePutBody | apply keeps_next))
theorem inv_execStageClear (c : HostCall) {s : State} (hI : Kept q s) : Keeps q (execStageClear c s) := by
  unfold execStageClear; repeat' (first | (with_reducible first | assumption | apply inv_runCmd | apply inv_stageClearBody | apply keeps_next))
theorem inv_execDoeObject (words : List Word) {s : State} (hI : Kept q s) : Keeps q (execDoeObject words s) := by
  unfold execDoeObject; repeat' (first | (with_reducible first | assumption | apply inv_doeObject | apply keeps_next))
theorem inv_execDoeAbort {s : State} (hI : Kept q s) : Keeps q (execDoeAbort s) := by
  unfold execDoeAbort; repeat' (first | (with_reducible first | assumption | apply inv_doeAbort | apply keeps_next))
theorem inv_execGetVersion (m : SpdmMsg) {s : State} (hI : Kept q s) : Keeps q (execGetVersion m s) := by
  unfold execGetVersion; repeat' (first | (with_reducible first | assumption | apply inv_spdmVersion | apply keeps_next))
theorem inv_execGetCapabilities (m : SpdmMsg) {s : State} (hI : Kept q s) : Keeps q (execGetCapabilities m s) := by
  unfold execGetCapabilities; repeat' (first | (with_reducible first | assumption | apply inv_spdmCaps | apply keeps_next))
theorem inv_execNegotiateAlgorithms (m : SpdmMsg) {s : State} (hI : Kept q s) : Keeps q (execNegotiateAlgorithms m s) := by
  unfold execNegotiateAlgorithms; repeat' (first | (with_reducible first | assumption | apply inv_spdmAlgs | apply keeps_next))
theorem inv_execGetDigests (m : SpdmMsg) {s : State} (hI : Kept q s) : Keeps q (execGetDigests m s) := by
  unfold execGetDigests; repeat' (first | (with_reducible first | assumption | apply inv_spdmDigests | apply keeps_next))
theorem inv_execGetCertificate (m : SpdmMsg) {s : State} (hI : Kept q s) : Keeps q (execGetCertificate m s) := by
  unfold execGetCertificate; repeat' (first | (with_reducible first | assumption | apply inv_spdmCert | apply keeps_next))
theorem inv_execChallenge (m : SpdmMsg) {s : State} (hI : Kept q s) : Keeps q (execChallenge m s) := by
  unfold execChallenge; repeat' (first | (with_reducible first | assumption | apply inv_spdmChallenge | apply keeps_next))
theorem inv_execGetMeasurements (m : SpdmMsg) {s : State} (hI : Kept q s) : Keeps q (execGetMeasurements m s) := by
  unfold execGetMeasurements; repeat' (first | (with_reducible first | assumption | apply inv_spdmMeas | apply keeps_next))
theorem inv_execKeyExchange (m : SpdmMsg) {s : State} (hI : Kept q s) : Keeps q (execKeyExchange m s) := by
  unfold execKeyExchange; repeat' (first | (with_reducible first | assumption | apply inv_spdmKeyExchange | apply keeps_next))
theorem inv_execFinish (m : SpdmMsg) {s : State} (hI : Kept q s) : Keeps q (execFinish m s) := by
  unfold execFinish; repeat' (first | (with_reducible first | assumption | apply inv_spdmFinish | apply keeps_next))
theorem inv_execEndSession (m : SpdmMsg) {s : State} (hI : Kept q s) : Keeps q (execEndSession m s) := by
  unfold execEndSession; repeat' (first | (with_reducible first | assumption | apply inv_spdmEnd | apply keeps_next))
theorem inv_execSpdmUnsupportedRequest (x : SpdmCode) {s : State} (hI : Kept q s) : Keeps q (execSpdmUnsupportedRequest x s) := by
  unfold execSpdmUnsupportedRequest; repeat' (first | (with_reducible first | assumption | apply inv_spdmOther | apply keeps_next))
theorem inv_execMgKeepalive (b : Bytes) {s : State} (hI : Kept q s) : Keeps q (execMgKeepalive b s) := by
  unfold execMgKeepalive; repeat' (first | (with_reducible first | assumption | apply inv_mgRow | apply keeps_next))
theorem inv_execMgCapSet (b : Bytes) {s : State} (hI : Kept q s) : Keeps q (execMgCapSet b s) := by
  unfold execMgCapSet; repeat' (first | (with_reducible first | assumption | apply inv_mgRow | apply keeps_next))
theorem inv_execMgHold (b : Bytes) {s : State} (hI : Kept q s) : Keeps q (execMgHold b s) := by
  unfold execMgHold; repeat' (first | (with_reducible first | assumption | apply inv_mgRow | apply keeps_next))
theorem inv_execMgDaddrSet (b : Bytes) {s : State} (hI : Kept q s) : Keeps q (execMgDaddrSet b s) := by
  unfold execMgDaddrSet; repeat' (first | (with_reducible first | assumption | apply inv_mgRow | apply keeps_next))
theorem inv_execMgRakSet (b : Bytes) {s : State} (hI : Kept q s) : Keeps q (execMgRakSet b s) := by
  unfold execMgRakSet; repeat' (first | (with_reducible first | assumption | apply inv_mgRow | apply keeps_next))
theorem inv_execMgCsr (b : Bytes) {s : State} (hI : Kept q s) : Keeps q (execMgCsr b s) := by
  unfold execMgCsr; repeat' (first | (with_reducible first | assumption | apply inv_mgRow | apply keeps_next))
theorem inv_execMgCertWrite (b : Bytes) {s : State} (hI : Kept q s) : Keeps q (execMgCertWrite b s) := by
  unfold execMgCertWrite; repeat' (first | (with_reducible first | assumption | apply inv_mgRow | apply keeps_next))
theorem inv_execMgSetkey (b : Bytes) {s : State} (hI : Kept q s) : Keeps q (execMgSetkey b s) := by
  unfold execMgSetkey; repeat' (first | (with_reducible first | assumption | apply inv_mgRow | apply keeps_next))
theorem inv_execMgRequest (b : Bytes) {s : State} (hI : Kept q s) : Keeps q (execMgRequest b s) := by
  unfold execMgRequest; repeat' (first | (with_reducible first | assumption | apply inv_mgRow | apply keeps_next))
theorem inv_execMgProvision (b : Bytes) {s : State} (hI : Kept q s) : Keeps q (execMgProvision b s) := by
  unfold execMgProvision; repeat' (first | (with_reducible first | assumption | apply inv_mgRow | apply keeps_next))
theorem inv_execI3cAddressAssign (da : Nat) {s : State} (hI : Kept q s) : Keeps q (execI3cAddressAssign da s) := by
  unfold execI3cAddressAssign; repeat' (first | (with_reducible first | assumption | apply inv_mgAddress | apply keeps_next))
theorem inv_execMctpPacketRx (pkt : Bytes) {s : State} (hI : Kept q s) : Keeps q (execMctpPacketRx pkt s) := by
  unfold execMctpPacketRx; repeat' (first | (with_reducible first | assumption | apply inv_mctpRx | apply keeps_next))
theorem inv_execMctpReassemblyTimeout {s : State} (hI : Kept q s) : Keeps q (execMctpReassemblyTimeout s) := by
  unfold execMctpReassemblyTimeout; repeat' (first | (with_reducible first | assumption | apply inv_mctpTimeout | apply keeps_next))
theorem inv_execWdMgTxgoWrite (n : Nat) {s : State} (hI : Kept q s) : Keeps q (execWdMgTxgoWrite n s) := by
  unfold execWdMgTxgoWrite; repeat' (first | (with_reducible first | assumption | apply inv_mgTxgo | apply keeps_next))
theorem inv_execSetEndpointId (b : Bytes) {s : State} (hI : Kept q s) : Keeps q (execSetEndpointId b s) := by
  unfold execSetEndpointId; repeat' (first | (with_reducible first | assumption | apply inv_mgRow | apply keeps_next))
theorem inv_execGetEndpointId (b : Bytes) {s : State} (hI : Kept q s) : Keeps q (execGetEndpointId b s) := by
  unfold execGetEndpointId; repeat' (first | (with_reducible first | assumption | apply inv_mgRow | apply keeps_next))
theorem inv_execGetEndpointUuid (b : Bytes) {s : State} (hI : Kept q s) : Keeps q (execGetEndpointUuid b s) := by
  unfold execGetEndpointUuid; repeat' (first | (with_reducible first | assumption | apply inv_mgRow | apply keeps_next))
theorem inv_execGetMctpVersionSupport (b : Bytes) {s : State} (hI : Kept q s) : Keeps q (execGetMctpVersionSupport b s) := by
  unfold execGetMctpVersionSupport; repeat' (first | (with_reducible first | assumption | apply inv_mgRow | apply keeps_next))
theorem inv_execGetMessageTypeSupport (b : Bytes) {s : State} (hI : Kept q s) : Keeps q (execGetMessageTypeSupport b s) := by
  unfold execGetMessageTypeSupport; repeat' (first | (with_reducible first | assumption | apply inv_mgRow | apply keeps_next))
theorem inv_execGetVendorMessageSupport (b : Bytes) {s : State} (hI : Kept q s) : Keeps q (execGetVendorMessageSupport b s) := by
  unfold execGetVendorMessageSupport; repeat' (first | (with_reducible first | assumption | apply inv_mgRow | apply keeps_next))
theorem inv_execGetTid (b : Bytes) {s : State} (hI : Kept q s) : Keeps q (execGetTid b s) := by
  unfold execGetTid; repeat' (first | (with_reducible first | assumption | apply inv_mgRow | apply keeps_next))
theorem inv_execSetTid (b : Bytes) {s : State} (hI : Kept q s) : Keeps q (execSetTid b s) := by
  unfold execSetTid; repeat' (first | (with_reducible first | assumption | apply inv_mgRow | apply keeps_next))
theorem inv_execGetPldmVersion (b : Bytes) {s : State} (hI : Kept q s) : Keeps q (execGetPldmVersion b s) := by
  unfold execGetPldmVersion; repeat' (first | (with_reducible first | assumption | apply inv_mgRow | apply keeps_next))
theorem inv_execGetPldmTypes (b : Bytes) {s : State} (hI : Kept q s) : Keeps q (execGetPldmTypes b s) := by
  unfold execGetPldmTypes; repeat' (first | (with_reducible first | assumption | apply inv_mgRow | apply keeps_next))
theorem inv_execGetPldmCommands (b : Bytes) {s : State} (hI : Kept q s) : Keeps q (execGetPldmCommands b s) := by
  unfold execGetPldmCommands; repeat' (first | (with_reducible first | assumption | apply inv_mgRow | apply keeps_next))
theorem inv_execGetPdrRepositoryInfo (b : Bytes) {s : State} (hI : Kept q s) : Keeps q (execGetPdrRepositoryInfo b s) := by
  unfold execGetPdrRepositoryInfo; repeat' (first | (with_reducible first | assumption | apply inv_mgRow | apply keeps_next))
theorem inv_execGetPdr (b : Bytes) {s : State} (hI : Kept q s) : Keeps q (execGetPdr b s) := by
  unfold execGetPdr; repeat' (first | (with_reducible first | assumption | apply inv_mgRow | apply keeps_next))
theorem inv_execGetSensorReading (b : Bytes) {s : State} (hI : Kept q s) : Keeps q (execGetSensorReading b s) := by
  unfold execGetSensorReading; repeat' (first | (with_reducible first | assumption | apply inv_mgRow | apply keeps_next))
theorem inv_execGetStateSensorReadings (b : Bytes) {s : State} (hI : Kept q s) : Keeps q (execGetStateSensorReadings b s) := by
  unfold execGetStateSensorReadings; repeat' (first | (with_reducible first | assumption | apply inv_mgRow | apply keeps_next))
theorem inv_execSetNumericEffecterValue (b : Bytes) {s : State} (hI : Kept q s) : Keeps q (execSetNumericEffecterValue b s) := by
  unfold execSetNumericEffecterValue; repeat' (first | (with_reducible first | assumption | apply inv_mgRow | apply keeps_next))
theorem inv_execSetStateEffecterStates (b : Bytes) {s : State} (hI : Kept q s) : Keeps q (execSetStateEffecterStates b s) := by
  unfold execSetStateEffecterStates; repeat' (first | (with_reducible first | assumption | apply inv_mgRow | apply keeps_next))
theorem inv_execSetEventReceiver (b : Bytes) {s : State} (hI : Kept q s) : Keeps q (execSetEventReceiver b s) := by
  unfold execSetEventReceiver; repeat' (first | (with_reducible first | assumption | apply inv_mgRow | apply keeps_next))
theorem inv_execPollPlatformEventMessage (b : Bytes) {s : State} (hI : Kept q s) : Keeps q (execPollPlatformEventMessage b s) := by
  unfold execPollPlatformEventMessage; repeat' (first | (with_reducible first | assumption | apply inv_mgRow | apply keeps_next))
theorem inv_execPlatformEventResend {s : State} (hI : Kept q s) : Keeps q (execPlatformEventResend s) := by
  unfold execPlatformEventResend; repeat' (first | (with_reducible first | assumption | apply inv_eventResend | apply keeps_next))
theorem inv_execRequestUpdate (b : Bytes) {s : State} (hI : Kept q s) : Keeps q (execRequestUpdate b s) := by
  unfold execRequestUpdate; repeat' (first | (with_reducible first | assumption | apply inv_mgRow | apply keeps_next))
theorem inv_execPassComponentTable (b : Bytes) {s : State} (hI : Kept q s) : Keeps q (execPassComponentTable b s) := by
  unfold execPassComponentTable; repeat' (first | (with_reducible first | assumption | apply inv_mgRow | apply keeps_next))
theorem inv_execUpdateComponent (b : Bytes) {s : State} (hI : Kept q s) : Keeps q (execUpdateComponent b s) := by
  unfold execUpdateComponent; repeat' (first | (with_reducible first | assumption | apply inv_mgRow | apply keeps_next))
theorem inv_execFirmwareDataResponse (b : Bytes) {s : State} (hI : Kept q s) : Keeps q (execFirmwareDataResponse b s) := by
  unfold execFirmwareDataResponse; repeat' (first | (with_reducible first | assumption | apply inv_mgRow | apply keeps_next))
theorem inv_execActivateFirmware (b : Bytes) {s : State} (hI : Kept q s) : Keeps q (execActivateFirmware b s) := by
  unfold execActivateFirmware; repeat' (first | (with_reducible first | assumption | apply inv_mgRow | apply keeps_next))
theorem inv_execCancelUpdateComponent (b : Bytes) {s : State} (hI : Kept q s) : Keeps q (execCancelUpdateComponent b s) := by
  unfold execCancelUpdateComponent; repeat' (first | (with_reducible first | assumption | apply inv_mgRow | apply keeps_next))
theorem inv_execCancelUpdate (b : Bytes) {s : State} (hI : Kept q s) : Keeps q (execCancelUpdate b s) := by
  unfold execCancelUpdate; repeat' (first | (with_reducible first | assumption | apply inv_mgRow | apply keeps_next))
theorem inv_execGetStatus (b : Bytes) {s : State} (hI : Kept q s) : Keeps q (execGetStatus b s) := by
  unfold execGetStatus; repeat' (first | (with_reducible first | assumption | apply inv_mgRow | apply keeps_next))
theorem inv_execOrphanTimerExpiry {s : State} (hI : Kept q s) : Keeps q (execOrphanTimerExpiry s) := by
  unfold execOrphanTimerExpiry; repeat' (first | (with_reducible first | assumption | apply inv_orphanExpiry | apply keeps_next))
theorem inv_execBbcShelfEvent (shelves : Nat) {s : State} (hI : Kept q s) : Keeps q (execBbcShelfEvent shelves s) := by
  unfold execBbcShelfEvent; repeat' (first | (with_reducible first | assumption | apply inv_shelfEvent | apply keeps_next))
theorem inv_execBbcHoldExpiry {s : State} (hI : Kept q s) : Keeps q (execBbcHoldExpiry s) := by
  unfold execBbcHoldExpiry; repeat' (first | (with_reducible first | assumption | apply inv_bbcHoldEnd | apply keeps_next))
theorem inv_execRmBrakeRelease {s : State} (hI : Kept q s) : Keeps q (execRmBrakeRelease s) := by
  unfold execRmBrakeRelease; repeat' (first | (with_reducible first | assumption | apply inv_rmRelease | apply keeps_next))
theorem inv_execPumpLoss (pumps : Nat) {s : State} (hI : Kept q s) : Keeps q (execPumpLoss pumps s) := by
  unfold execPumpLoss; repeat' (first | (with_reducible first | assumption | apply inv_pumpLost | apply keeps_next))
theorem inv_execRmFailover {s : State} (hI : Kept q s) : Keeps q (execRmFailover s) := by
  unfold execRmFailover; repeat' (first | (with_reducible first | assumption | apply inv_rmFailover | apply keeps_next))
theorem inv_execPumpRestored (pumps : Nat) {s : State} (hI : Kept q s) : Keeps q (execPumpRestored pumps s) := by
  unfold execPumpRestored; repeat' (first | (with_reducible first | assumption | apply inv_pumpBack | apply keeps_next))
theorem inv_execShelfRestored (shelves : Nat) {s : State} (hI : Kept q s) : Keeps q (execShelfRestored shelves s) := by
  unfold execShelfRestored; repeat' (first | (with_reducible first | assumption | apply inv_shelfBack | apply keeps_next))
theorem inv_execPkeJobComplete (x : PkEnd) {s : State} (hI : Kept q s) : Keeps q (execPkeJobComplete x s) := by
  unfold execPkeJobComplete; repeat' (first | (with_reducible first | assumption | apply inv_pkComplete | apply keeps_next))
theorem inv_execSpiFlashOpDone (ok : Bool) {s : State} (hI : Kept q s) : Keeps q (execSpiFlashOpDone ok s) := by
  unfold execSpiFlashOpDone; repeat' (first | (with_reducible first | assumption | apply inv_spiDone | apply keeps_next))
theorem inv_execRegisterWrite (addr : Nat) (value : Word) {s : State} (hI : Kept q s) : Keeps q (execRegisterWrite addr value s) := by
  unfold execRegisterWrite
  exact keeps_ite (fun _ e => by cases e) (keeps_next (inv_regWrite _ _ hI))
end Sys2Proof.Machine
end

