-- ==== Sys2Proof/Laws/State.lean ====
section
/-! SUPPORT. One lemma per field and named update: what a named update of State leaves of every field, by rfl, so that
no proof unfolds a record update. -/

namespace Sys2Proof.Machine
variable (s : State)
@[simp] theorem emit_pkg (o : Out) : (emit o s).pkg = s.pkg := rfl
@[simp] theorem emit_wd (o : Out) : (emit o s).wd = s.wd := rfl
@[simp] theorem emit_units (o : Out) : (emit o s).units = s.units := rfl
@[simp] theorem emit_sq (o : Out) : (emit o s).sq = s.sq := rfl
@[simp] theorem emit_otp (o : Out) : (emit o s).otp = s.otp := rfl
@[simp] theorem emit_dg (o : Out) : (emit o s).dg = s.dg := rfl
@[simp] theorem emit_ks (o : Out) : (emit o s).ks = s.ks := rfl
@[simp] theorem emit_pk (o : Out) : (emit o s).pk = s.pk := rfl
@[simp] theorem emit_ms (o : Out) : (emit o s).ms = s.ms := rfl
@[simp] theorem emit_boot (o : Out) : (emit o s).boot = s.boot := rfl
@[simp] theorem emit_upd (o : Out) : (emit o s).upd = s.upd := rfl
@[simp] theorem emit_fl (o : Out) : (emit o s).fl = s.fl := rfl
@[simp] theorem emit_pw (o : Out) : (emit o s).pw = s.pw := rfl
@[simp] theorem emit_lg (o : Out) : (emit o s).lg = s.lg := rfl
@[simp] theorem emit_mg (o : Out) : (emit o s).mg = s.mg := rfl
@[simp] theorem emit_rk (o : Out) : (emit o s).rk = s.rk := rfl
@[simp] theorem emit_hb (o : Out) : (emit o s).hb = s.hb := rfl
@[simp] theorem emit_mb (o : Out) : (emit o s).mb = s.mb := rfl
@[simp] theorem emit_px (o : Out) : (emit o s).px = s.px := rfl
@[simp] theorem emit_sp (o : Out) : (emit o s).sp = s.sp := rfl
@[simp] theorem emit_sd (o : Out) : (emit o s).sd = s.sd := rfl
@[simp] theorem emit_idn (o : Out) : (emit o s).idn = s.idn := rfl
@[simp] theorem emit_tn (o : Out) : (emit o s).tn = s.tn := rfl
@[simp] theorem emit_wk (o : Out) : (emit o s).wk = s.wk := rfl
@[simp] theorem emit_rc (o : Out) : (emit o s).rc = s.rc := rfl
@[simp] theorem emit_jb (o : Out) : (emit o s).jb = s.jb := rfl
@[simp] theorem emit_xl (o : Out) : (emit o s).xl = s.xl := rfl
@[simp] theorem emit_ln (o : Out) : (emit o s).ln = s.ln := rfl
@[simp] theorem emit_pq (o : Out) : (emit o s).pq = s.pq := rfl
@[simp] theorem emit_fq (o : Out) : (emit o s).fq = s.fq := rfl
@[simp] theorem emit_uw (o : Out) : (emit o s).uw = s.uw := rfl
@[simp] theorem emit_draws (o : Out) : (emit o s).draws = s.draws := rfl
@[simp] theorem emit_pending (o : Out) : (emit o s).pending = s.pending := rfl
@[simp] theorem irq_pkg (n : Nat) : (irq n s).pkg = s.pkg := rfl
@[simp] theorem irq_wd (n : Nat) : (irq n s).wd = s.wd := rfl
@[simp] theorem irq_units (n : Nat) : (irq n s).units = s.units := rfl
@[simp] theorem irq_sq (n : Nat) : (irq n s).sq = s.sq := rfl
@[simp] theorem irq_otp (n : Nat) : (irq n s).otp = s.otp := rfl
@[simp] theorem irq_dg (n : Nat) : (irq n s).dg = s.dg := rfl
@[simp] theorem irq_ks (n : Nat) : (irq n s).ks = s.ks := rfl
@[simp] theorem irq_pk (n : Nat) : (irq n s).pk = s.pk := rfl
@[simp] theorem irq_ms (n : Nat) : (irq n s).ms = s.ms := rfl
@[simp] theorem irq_boot (n : Nat) : (irq n s).boot = s.boot := rfl
@[simp] theorem irq_upd (n : Nat) : (irq n s).upd = s.upd := rfl
@[simp] theorem irq_fl (n : Nat) : (irq n s).fl = s.fl := rfl
@[simp] theorem irq_pw (n : Nat) : (irq n s).pw = s.pw := rfl
@[simp] theorem irq_lg (n : Nat) : (irq n s).lg = s.lg := rfl
@[simp] theorem irq_mg (n : Nat) : (irq n s).mg = s.mg := rfl
@[simp] theorem irq_rk (n : Nat) : (irq n s).rk = s.rk := rfl
@[simp] theorem irq_hb (n : Nat) : (irq n s).hb = s.hb := rfl
@[simp] theorem irq_mb (n : Nat) : (irq n s).mb = s.mb := rfl
@[simp] theorem irq_px (n : Nat) : (irq n s).px = s.px := rfl
@[simp] theorem irq_sp (n : Nat) : (irq n s).sp = s.sp := rfl
@[simp] theorem irq_sd (n : Nat) : (irq n s).sd = s.sd := rfl
@[simp] theorem irq_idn (n : Nat) : (irq n s).idn = s.idn := rfl
@[simp] theorem irq_tn (n : Nat) : (irq n s).tn = s.tn := rfl
@[simp] theorem irq_wk (n : Nat) : (irq n s).wk = s.wk := rfl
@[simp] theorem irq_rc (n : Nat) : (irq n s).rc = s.rc := rfl
@[simp] theorem irq_jb (n : Nat) : (irq n s).jb = s.jb := rfl
@[simp] theorem irq_xl (n : Nat) : (irq n s).xl = s.xl := rfl
@[simp] theorem irq_ln (n : Nat) : (irq n s).ln = s.ln := rfl
@[simp] theorem irq_pq (n : Nat) : (irq n s).pq = s.pq := rfl
@[simp] theorem irq_fq (n : Nat) : (irq n s).fq = s.fq := rfl
@[simp] theorem irq_uw (n : Nat) : (irq n s).uw = s.uw := rfl
@[simp] theorem irq_draws (n : Nat) : (irq n s).draws = s.draws := rfl
@[simp] theorem irq_pending (n : Nat) : (irq n s).pending = s.pending := rfl
@[simp] theorem modUnit_pkg (u : Nat) (f : UnitS → UnitS) : (modUnit u f s).pkg = s.pkg := rfl
@[simp] theorem modUnit_wd (u : Nat) (f : UnitS → UnitS) : (modUnit u f s).wd = s.wd := rfl
@[simp] theorem modUnit_sq (u : Nat) (f : UnitS → UnitS) : (modUnit u f s).sq = s.sq := rfl
@[simp] theorem modUnit_otp (u : Nat) (f : UnitS → UnitS) : (modUnit u f s).otp = s.otp := rfl
@[simp] theorem modUnit_dg (u : Nat) (f : UnitS → UnitS) : (modUnit u f s).dg = s.dg := rfl
@[simp] theorem modUnit_ks (u : Nat) (f : UnitS → UnitS) : (modUnit u f s).ks = s.ks := rfl
@[simp] theorem modUnit_pk (u : Nat) (f : UnitS → UnitS) : (modUnit u f s).pk = s.pk := rfl
@[simp] theorem modUnit_ms (u : Nat) (f : UnitS → UnitS) : (modUnit u f s).ms = s.ms := rfl
@[simp] theorem modUnit_boot (u : Nat) (f : UnitS → UnitS) : (modUnit u f s).boot = s.boot := rfl
@[simp] theorem modUnit_upd (u : Nat) (f : UnitS → UnitS) : (modUnit u f s).upd = s.upd := rfl
@[simp] theorem modUnit_fl (u : Nat) (f : UnitS → UnitS) : (modUnit u f s).fl = s.fl := rfl
@[simp] theorem modUnit_pw (u : Nat) (f : UnitS → UnitS) : (modUnit u f s).pw = s.pw := rfl
@[simp] theorem modUnit_lg (u : Nat) (f : UnitS → UnitS) : (modUnit u f s).lg = s.lg := rfl
@[simp] theorem modUnit_mg (u : Nat) (f : UnitS → UnitS) : (modUnit u f s).mg = s.mg := rfl
@[simp] theorem modUnit_rk (u : Nat) (f : UnitS → UnitS) : (modUnit u f s).rk = s.rk := rfl
@[simp] theorem modUnit_hb (u : Nat) (f : UnitS → UnitS) : (modUnit u f s).hb = s.hb := rfl
@[simp] theorem modUnit_mb (u : Nat) (f : UnitS → UnitS) : (modUnit u f s).mb = s.mb := rfl
@[simp] theorem modUnit_px (u : Nat) (f : UnitS → UnitS) : (modUnit u f s).px = s.px := rfl
@[simp] theorem modUnit_sp (u : Nat) (f : UnitS → UnitS) : (modUnit u f s).sp = s.sp := rfl
@[simp] theorem modUnit_sd (u : Nat) (f : UnitS → UnitS) : (modUnit u f s).sd = s.sd := rfl
@[simp] theorem modUnit_idn (u : Nat) (f : UnitS → UnitS) : (modUnit u f s).idn = s.idn := rfl
@[simp] theorem modUnit_tn (u : Nat) (f : UnitS → UnitS) : (modUnit u f s).tn = s.tn := rfl
@[simp] theorem modUnit_wk (u : Nat) (f : UnitS → UnitS) : (modUnit u f s).wk = s.wk := rfl
@[simp] theorem modUnit_rc (u : Nat) (f : UnitS → UnitS) : (modUnit u f s).rc = s.rc := rfl
@[simp] theorem modUnit_jb (u : Nat) (f : UnitS → UnitS) : (modUnit u f s).jb = s.jb := rfl
@[simp] theorem modUnit_xl (u : Nat) (f : UnitS → UnitS) : (modUnit u f s).xl = s.xl := rfl
@[simp] theorem modUnit_ln (u : Nat) (f : UnitS → UnitS) : (modUnit u f s).ln = s.ln := rfl
@[simp] theorem modUnit_pq (u : Nat) (f : UnitS → UnitS) : (modUnit u f s).pq = s.pq := rfl
@[simp] theorem modUnit_fq (u : Nat) (f : UnitS → UnitS) : (modUnit u f s).fq = s.fq := rfl
@[simp] theorem modUnit_uw (u : Nat) (f : UnitS → UnitS) : (modUnit u f s).uw = s.uw := rfl
@[simp] theorem modUnit_outs (u : Nat) (f : UnitS → UnitS) : (modUnit u f s).outs = s.outs := rfl
@[simp] theorem modUnit_draws (u : Nat) (f : UnitS → UnitS) : (modUnit u f s).draws = s.draws := rfl
@[simp] theorem modUnit_pending (u : Nat) (f : UnitS → UnitS) : (modUnit u f s).pending = s.pending := rfl
@[simp] theorem modLd_pkg (d : Nat) (f : LDie → LDie) : (modLd d f s).pkg = s.pkg := rfl
@[simp] theorem modLd_wd (d : Nat) (f : LDie → LDie) : (modLd d f s).wd = s.wd := rfl
@[simp] theorem modLd_units (d : Nat) (f : LDie → LDie) : (modLd d f s).units = s.units := rfl
@[simp] theorem modLd_sq (d : Nat) (f : LDie → LDie) : (modLd d f s).sq = s.sq := rfl
@[simp] theorem modLd_otp (d : Nat) (f : LDie → LDie) : (modLd d f s).otp = s.otp := rfl
@[simp] theorem modLd_dg (d : Nat) (f : LDie → LDie) : (modLd d f s).dg = s.dg := rfl
@[simp] theorem modLd_ks (d : Nat) (f : LDie → LDie) : (modLd d f s).ks = s.ks := rfl
@[simp] theorem modLd_pk (d : Nat) (f : LDie → LDie) : (modLd d f s).pk = s.pk := rfl
@[simp] theorem modLd_ms (d : Nat) (f : LDie → LDie) : (modLd d f s).ms = s.ms := rfl
@[simp] theorem modLd_boot (d : Nat) (f : LDie → LDie) : (modLd d f s).boot = s.boot := rfl
@[simp] theorem modLd_upd (d : Nat) (f : LDie → LDie) : (modLd d f s).upd = s.upd := rfl
@[simp] theorem modLd_fl (d : Nat) (f : LDie → LDie) : (modLd d f s).fl = s.fl := rfl
@[simp] theorem modLd_pw (d : Nat) (f : LDie → LDie) : (modLd d f s).pw = s.pw := rfl
@[simp] theorem modLd_lg (d : Nat) (f : LDie → LDie) : (modLd d f s).lg = s.lg := rfl
@[simp] theorem modLd_mg (d : Nat) (f : LDie → LDie) : (modLd d f s).mg = s.mg := rfl
@[simp] theorem modLd_rk (d : Nat) (f : LDie → LDie) : (modLd d f s).rk = s.rk := rfl
@[simp] theorem modLd_hb (d : Nat) (f : LDie → LDie) : (modLd d f s).hb = s.hb := rfl
@[simp] theorem modLd_mb (d : Nat) (f : LDie → LDie) : (modLd d f s).mb = s.mb := rfl
@[simp] theorem modLd_px (d : Nat) (f : LDie → LDie) : (modLd d f s).px = s.px := rfl
@[simp] theorem modLd_sp (d : Nat) (f : LDie → LDie) : (modLd d f s).sp = s.sp := rfl
@[simp] theorem modLd_sd (d : Nat) (f : LDie → LDie) : (modLd d f s).sd = s.sd := rfl
@[simp] theorem modLd_idn (d : Nat) (f : LDie → LDie) : (modLd d f s).idn = s.idn := rfl
@[simp] theorem modLd_tn (d : Nat) (f : LDie → LDie) : (modLd d f s).tn = s.tn := rfl
@[simp] theorem modLd_wk (d : Nat) (f : LDie → LDie) : (modLd d f s).wk = s.wk := rfl
@[simp] theorem modLd_rc (d : Nat) (f : LDie → LDie) : (modLd d f s).rc = s.rc := rfl
@[simp] theorem modLd_jb (d : Nat) (f : LDie → LDie) : (modLd d f s).jb = s.jb := rfl
@[simp] theorem modLd_xl (d : Nat) (f : LDie → LDie) : (modLd d f s).xl = s.xl := rfl
@[simp] theorem modLd_pq (d : Nat) (f : LDie → LDie) : (modLd d f s).pq = s.pq := rfl
@[simp] theorem modLd_fq (d : Nat) (f : LDie → LDie) : (modLd d f s).fq = s.fq := rfl
@[simp] theorem modLd_uw (d : Nat) (f : LDie → LDie) : (modLd d f s).uw = s.uw := rfl
@[simp] theorem modLd_outs (d : Nat) (f : LDie → LDie) : (modLd d f s).outs = s.outs := rfl
@[simp] theorem modLd_draws (d : Nat) (f : LDie → LDie) : (modLd d f s).draws = s.draws := rfl
@[simp] theorem modLd_pending (d : Nat) (f : LDie → LDie) : (modLd d f s).pending = s.pending := rfl
@[simp] theorem modLport_pkg (d p : Nat) (f : LPort → LPort) : (modLport d p f s).pkg = s.pkg := rfl
@[simp] theorem modLport_wd (d p : Nat) (f : LPort → LPort) : (modLport d p f s).wd = s.wd := rfl
@[simp] theorem modLport_units (d p : Nat) (f : LPort → LPort) : (modLport d p f s).units = s.units := rfl
@[simp] theorem modLport_sq (d p : Nat) (f : LPort → LPort) : (modLport d p f s).sq = s.sq := rfl
@[simp] theorem modLport_otp (d p : Nat) (f : LPort → LPort) : (modLport d p f s).otp = s.otp := rfl
@[simp] theorem modLport_dg (d p : Nat) (f : LPort → LPort) : (modLport d p f s).dg = s.dg := rfl
@[simp] theorem modLport_ks (d p : Nat) (f : LPort → LPort) : (modLport d p f s).ks = s.ks := rfl
@[simp] theorem modLport_pk (d p : Nat) (f : LPort → LPort) : (modLport d p f s).pk = s.pk := rfl
@[simp] theorem modLport_ms (d p : Nat) (f : LPort → LPort) : (modLport d p f s).ms = s.ms := rfl
@[simp] theorem modLport_boot (d p : Nat) (f : LPort → LPort) : (modLport d p f s).boot = s.boot := rfl
@[simp] theorem modLport_upd (d p : Nat) (f : LPort → LPort) : (modLport d p f s).upd = s.upd := rfl
@[simp] theorem modLport_fl (d p : Nat) (f : LPort → LPort) : (modLport d p f s).fl = s.fl := rfl
@[simp] theorem modLport_pw (d p : Nat) (f : LPort → LPort) : (modLport d p f s).pw = s.pw := rfl
@[simp] theorem modLport_lg (d p : Nat) (f : LPort → LPort) : (modLport d p f s).lg = s.lg := rfl
@[simp] theorem modLport_mg (d p : Nat) (f : LPort → LPort) : (modLport d p f s).mg = s.mg := rfl
@[simp] theorem modLport_rk (d p : Nat) (f : LPort → LPort) : (modLport d p f s).rk = s.rk := rfl
@[simp] theorem modLport_hb (d p : Nat) (f : LPort → LPort) : (modLport d p f s).hb = s.hb := rfl
@[simp] theorem modLport_mb (d p : Nat) (f : LPort → LPort) : (modLport d p f s).mb = s.mb := rfl
@[simp] theorem modLport_px (d p : Nat) (f : LPort → LPort) : (modLport d p f s).px = s.px := rfl
@[simp] theorem modLport_sp (d p : Nat) (f : LPort → LPort) : (modLport d p f s).sp = s.sp := rfl
@[simp] theorem modLport_sd (d p : Nat) (f : LPort → LPort) : (modLport d p f s).sd = s.sd := rfl
@[simp] theorem modLport_idn (d p : Nat) (f : LPort → LPort) : (modLport d p f s).idn = s.idn := rfl
@[simp] theorem modLport_tn (d p : Nat) (f : LPort → LPort) : (modLport d p f s).tn = s.tn := rfl
@[simp] theorem modLport_wk (d p : Nat) (f : LPort → LPort) : (modLport d p f s).wk = s.wk := rfl
@[simp] theorem modLport_rc (d p : Nat) (f : LPort → LPort) : (modLport d p f s).rc = s.rc := rfl
@[simp] theorem modLport_jb (d p : Nat) (f : LPort → LPort) : (modLport d p f s).jb = s.jb := rfl
@[simp] theorem modLport_xl (d p : Nat) (f : LPort → LPort) : (modLport d p f s).xl = s.xl := rfl
@[simp] theorem modLport_pq (d p : Nat) (f : LPort → LPort) : (modLport d p f s).pq = s.pq := rfl
@[simp] theorem modLport_fq (d p : Nat) (f : LPort → LPort) : (modLport d p f s).fq = s.fq := rfl
@[simp] theorem modLport_uw (d p : Nat) (f : LPort → LPort) : (modLport d p f s).uw = s.uw := rfl
@[simp] theorem modLport_outs (d p : Nat) (f : LPort → LPort) : (modLport d p f s).outs = s.outs := rfl
@[simp] theorem modLport_draws (d p : Nat) (f : LPort → LPort) : (modLport d p f s).draws = s.draws := rfl
@[simp] theorem modLport_pending (d p : Nat) (f : LPort → LPort) : (modLport d p f s).pending = s.pending := rfl
@[simp] theorem modFn_pkg (d : Nat) (f : HostFn → HostFn) : (modFn d f s).pkg = s.pkg := rfl
@[simp] theorem modFn_wd (d : Nat) (f : HostFn → HostFn) : (modFn d f s).wd = s.wd := rfl
@[simp] theorem modFn_units (d : Nat) (f : HostFn → HostFn) : (modFn d f s).units = s.units := rfl
@[simp] theorem modFn_sq (d : Nat) (f : HostFn → HostFn) : (modFn d f s).sq = s.sq := rfl
@[simp] theorem modFn_otp (d : Nat) (f : HostFn → HostFn) : (modFn d f s).otp = s.otp := rfl
@[simp] theorem modFn_dg (d : Nat) (f : HostFn → HostFn) : (modFn d f s).dg = s.dg := rfl
@[simp] theorem modFn_ks (d : Nat) (f : HostFn → HostFn) : (modFn d f s).ks = s.ks := rfl
@[simp] theorem modFn_pk (d : Nat) (f : HostFn → HostFn) : (modFn d f s).pk = s.pk := rfl
@[simp] theorem modFn_ms (d : Nat) (f : HostFn → HostFn) : (modFn d f s).ms = s.ms := rfl
@[simp] theorem modFn_boot (d : Nat) (f : HostFn → HostFn) : (modFn d f s).boot = s.boot := rfl
@[simp] theorem modFn_upd (d : Nat) (f : HostFn → HostFn) : (modFn d f s).upd = s.upd := rfl
@[simp] theorem modFn_fl (d : Nat) (f : HostFn → HostFn) : (modFn d f s).fl = s.fl := rfl
@[simp] theorem modFn_pw (d : Nat) (f : HostFn → HostFn) : (modFn d f s).pw = s.pw := rfl
@[simp] theorem modFn_lg (d : Nat) (f : HostFn → HostFn) : (modFn d f s).lg = s.lg := rfl
@[simp] theorem modFn_mg (d : Nat) (f : HostFn → HostFn) : (modFn d f s).mg = s.mg := rfl
@[simp] theorem modFn_rk (d : Nat) (f : HostFn → HostFn) : (modFn d f s).rk = s.rk := rfl
@[simp] theorem modFn_mb (d : Nat) (f : HostFn → HostFn) : (modFn d f s).mb = s.mb := rfl
@[simp] theorem modFn_px (d : Nat) (f : HostFn → HostFn) : (modFn d f s).px = s.px := rfl
@[simp] theorem modFn_sp (d : Nat) (f : HostFn → HostFn) : (modFn d f s).sp = s.sp := rfl
@[simp] theorem modFn_sd (d : Nat) (f : HostFn → HostFn) : (modFn d f s).sd = s.sd := rfl
@[simp] theorem modFn_idn (d : Nat) (f : HostFn → HostFn) : (modFn d f s).idn = s.idn := rfl
@[simp] theorem modFn_tn (d : Nat) (f : HostFn → HostFn) : (modFn d f s).tn = s.tn := rfl
@[simp] theorem modFn_wk (d : Nat) (f : HostFn → HostFn) : (modFn d f s).wk = s.wk := rfl
@[simp] theorem modFn_rc (d : Nat) (f : HostFn → HostFn) : (modFn d f s).rc = s.rc := rfl
@[simp] theorem modFn_jb (d : Nat) (f : HostFn → HostFn) : (modFn d f s).jb = s.jb := rfl
@[simp] theorem modFn_xl (d : Nat) (f : HostFn → HostFn) : (modFn d f s).xl = s.xl := rfl
@[simp] theorem modFn_ln (d : Nat) (f : HostFn → HostFn) : (modFn d f s).ln = s.ln := rfl
@[simp] theorem modFn_pq (d : Nat) (f : HostFn → HostFn) : (modFn d f s).pq = s.pq := rfl
@[simp] theorem modFn_fq (d : Nat) (f : HostFn → HostFn) : (modFn d f s).fq = s.fq := rfl
@[simp] theorem modFn_uw (d : Nat) (f : HostFn → HostFn) : (modFn d f s).uw = s.uw := rfl
@[simp] theorem modFn_outs (d : Nat) (f : HostFn → HostFn) : (modFn d f s).outs = s.outs := rfl
@[simp] theorem modFn_draws (d : Nat) (f : HostFn → HostFn) : (modFn d f s).draws = s.draws := rfl
@[simp] theorem modFn_pending (d : Nat) (f : HostFn → HostFn) : (modFn d f s).pending = s.pending := rfl
@[simp] theorem modChan_pkg (c : Nat) (f : Chan → Chan) : (modChan c f s).pkg = s.pkg := rfl
@[simp] theorem modChan_wd (c : Nat) (f : Chan → Chan) : (modChan c f s).wd = s.wd := rfl
@[simp] theorem modChan_units (c : Nat) (f : Chan → Chan) : (modChan c f s).units = s.units := rfl
@[simp] theorem modChan_sq (c : Nat) (f : Chan → Chan) : (modChan c f s).sq = s.sq := rfl
@[simp] theorem modChan_otp (c : Nat) (f : Chan → Chan) : (modChan c f s).otp = s.otp := rfl
@[simp] theorem modChan_dg (c : Nat) (f : Chan → Chan) : (modChan c f s).dg = s.dg := rfl
@[simp] theorem modChan_ks (c : Nat) (f : Chan → Chan) : (modChan c f s).ks = s.ks := rfl
@[simp] theorem modChan_pk (c : Nat) (f : Chan → Chan) : (modChan c f s).pk = s.pk := rfl
@[simp] theorem modChan_ms (c : Nat) (f : Chan → Chan) : (modChan c f s).ms = s.ms := rfl
@[simp] theorem modChan_boot (c : Nat) (f : Chan → Chan) : (modChan c f s).boot = s.boot := rfl
@[simp] theorem modChan_upd (c : Nat) (f : Chan → Chan) : (modChan c f s).upd = s.upd := rfl
@[simp] theorem modChan_fl (c : Nat) (f : Chan → Chan) : (modChan c f s).fl = s.fl := rfl
@[simp] theorem modChan_pw (c : Nat) (f : Chan → Chan) : (modChan c f s).pw = s.pw := rfl
@[simp] theorem modChan_lg (c : Nat) (f : Chan → Chan) : (modChan c f s).lg = s.lg := rfl
@[simp] theorem modChan_mg (c : Nat) (f : Chan → Chan) : (modChan c f s).mg = s.mg := rfl
@[simp] theorem modChan_rk (c : Nat) (f : Chan → Chan) : (modChan c f s).rk = s.rk := rfl
@[simp] theorem modChan_hb (c : Nat) (f : Chan → Chan) : (modChan c f s).hb = s.hb := rfl
@[simp] theorem modChan_px (c : Nat) (f : Chan → Chan) : (modChan c f s).px = s.px := rfl
@[simp] theorem modChan_sp (c : Nat) (f : Chan → Chan) : (modChan c f s).sp = s.sp := rfl
@[simp] theorem modChan_sd (c : Nat) (f : Chan → Chan) : (modChan c f s).sd = s.sd := rfl
@[simp] theorem modChan_idn (c : Nat) (f : Chan → Chan) : (modChan c f s).idn = s.idn := rfl
@[simp] theorem modChan_tn (c : Nat) (f : Chan → Chan) : (modChan c f s).tn = s.tn := rfl
@[simp] theorem modChan_wk (c : Nat) (f : Chan → Chan) : (modChan c f s).wk = s.wk := rfl
@[simp] theorem modChan_rc (c : Nat) (f : Chan → Chan) : (modChan c f s).rc = s.rc := rfl
@[simp] theorem modChan_jb (c : Nat) (f : Chan → Chan) : (modChan c f s).jb = s.jb := rfl
@[simp] theorem modChan_xl (c : Nat) (f : Chan → Chan) : (modChan c f s).xl = s.xl := rfl
@[simp] theorem modChan_ln (c : Nat) (f : Chan → Chan) : (modChan c f s).ln = s.ln := rfl
@[simp] theorem modChan_pq (c : Nat) (f : Chan → Chan) : (modChan c f s).pq = s.pq := rfl
@[simp] theorem modChan_fq (c : Nat) (f : Chan → Chan) : (modChan c f s).fq = s.fq := rfl
@[simp] theorem modChan_uw (c : Nat) (f : Chan → Chan) : (modChan c f s).uw = s.uw := rfl
@[simp] theorem modChan_outs (c : Nat) (f : Chan → Chan) : (modChan c f s).outs = s.outs := rfl
@[simp] theorem modChan_draws (c : Nat) (f : Chan → Chan) : (modChan c f s).draws = s.draws := rfl
@[simp] theorem modChan_pending (c : Nat) (f : Chan → Chan) : (modChan c f s).pending = s.pending := rfl
@[simp] theorem modOtp_pkg (f : Otp → Otp) : (modOtp f s).pkg = s.pkg := rfl
@[simp] theorem modOtp_wd (f : Otp → Otp) : (modOtp f s).wd = s.wd := rfl
@[simp] theorem modOtp_units (f : Otp → Otp) : (modOtp f s).units = s.units := rfl
@[simp] theorem modOtp_sq (f : Otp → Otp) : (modOtp f s).sq = s.sq := rfl
@[simp] theorem modOtp_dg (f : Otp → Otp) : (modOtp f s).dg = s.dg := rfl
@[simp] theorem modOtp_ks (f : Otp → Otp) : (modOtp f s).ks = s.ks := rfl
@[simp] theorem modOtp_pk (f : Otp → Otp) : (modOtp f s).pk = s.pk := rfl
@[simp] theorem modOtp_ms (f : Otp → Otp) : (modOtp f s).ms = s.ms := rfl
@[simp] theorem modOtp_boot (f : Otp → Otp) : (modOtp f s).boot = s.boot := rfl
@[simp] theorem modOtp_upd (f : Otp → Otp) : (modOtp f s).upd = s.upd := rfl
@[simp] theorem modOtp_fl (f : Otp → Otp) : (modOtp f s).fl = s.fl := rfl
@[simp] theorem modOtp_pw (f : Otp → Otp) : (modOtp f s).pw = s.pw := rfl
@[simp] theorem modOtp_lg (f : Otp → Otp) : (modOtp f s).lg = s.lg := rfl
@[simp] theorem modOtp_mg (f : Otp → Otp) : (modOtp f s).mg = s.mg := rfl
@[simp] theorem modOtp_rk (f : Otp → Otp) : (modOtp f s).rk = s.rk := rfl
@[simp] theorem modOtp_hb (f : Otp → Otp) : (modOtp f s).hb = s.hb := rfl
@[simp] theorem modOtp_mb (f : Otp → Otp) : (modOtp f s).mb = s.mb := rfl
@[simp] theorem modOtp_px (f : Otp → Otp) : (modOtp f s).px = s.px := rfl
@[simp] theorem modOtp_sp (f : Otp → Otp) : (modOtp f s).sp = s.sp := rfl
@[simp] theorem modOtp_sd (f : Otp → Otp) : (modOtp f s).sd = s.sd := rfl
@[simp] theorem modOtp_idn (f : Otp → Otp) : (modOtp f s).idn = s.idn := rfl
@[simp] theorem modOtp_tn (f : Otp → Otp) : (modOtp f s).tn = s.tn := rfl
@[simp] theorem modOtp_wk (f : Otp → Otp) : (modOtp f s).wk = s.wk := rfl
@[simp] theorem modOtp_rc (f : Otp → Otp) : (modOtp f s).rc = s.rc := rfl
@[simp] theorem modOtp_jb (f : Otp → Otp) : (modOtp f s).jb = s.jb := rfl
@[simp] theorem modOtp_xl (f : Otp → Otp) : (modOtp f s).xl = s.xl := rfl
@[simp] theorem modOtp_ln (f : Otp → Otp) : (modOtp f s).ln = s.ln := rfl
@[simp] theorem modOtp_pq (f : Otp → Otp) : (modOtp f s).pq = s.pq := rfl
@[simp] theorem modOtp_fq (f : Otp → Otp) : (modOtp f s).fq = s.fq := rfl
@[simp] theorem modOtp_uw (f : Otp → Otp) : (modOtp f s).uw = s.uw := rfl
@[simp] theorem modOtp_outs (f : Otp → Otp) : (modOtp f s).outs = s.outs := rfl
@[simp] theorem modOtp_draws (f : Otp → Otp) : (modOtp f s).draws = s.draws := rfl
@[simp] theorem modOtp_pending (f : Otp → Otp) : (modOtp f s).pending = s.pending := rfl
@[simp] theorem setSlot_pkg (i : Nat) (x : Slot) : (setSlot i x s).pkg = s.pkg := rfl
@[simp] theorem setSlot_wd (i : Nat) (x : Slot) : (setSlot i x s).wd = s.wd := rfl
@[simp] theorem setSlot_units (i : Nat) (x : Slot) : (setSlot i x s).units = s.units := rfl
@[simp] theorem setSlot_sq (i : Nat) (x : Slot) : (setSlot i x s).sq = s.sq := rfl
@[simp] theorem setSlot_otp (i : Nat) (x : Slot) : (setSlot i x s).otp = s.otp := rfl
@[simp] theorem setSlot_dg (i : Nat) (x : Slot) : (setSlot i x s).dg = s.dg := rfl
@[simp] theorem setSlot_pk (i : Nat) (x : Slot) : (setSlot i x s).pk = s.pk := rfl
@[simp] theorem setSlot_ms (i : Nat) (x : Slot) : (setSlot i x s).ms = s.ms := rfl
@[simp] theorem setSlot_boot (i : Nat) (x : Slot) : (setSlot i x s).boot = s.boot := rfl
@[simp] theorem setSlot_upd (i : Nat) (x : Slot) : (setSlot i x s).upd = s.upd := rfl
@[simp] theorem setSlot_fl (i : Nat) (x : Slot) : (setSlot i x s).fl = s.fl := rfl
@[simp] theorem setSlot_pw (i : Nat) (x : Slot) : (setSlot i x s).pw = s.pw := rfl
@[simp] theorem setSlot_lg (i : Nat) (x : Slot) : (setSlot i x s).lg = s.lg := rfl
@[simp] theorem setSlot_mg (i : Nat) (x : Slot) : (setSlot i x s).mg = s.mg := rfl
@[simp] theorem setSlot_rk (i : Nat) (x : Slot) : (setSlot i x s).rk = s.rk := rfl
@[simp] theorem setSlot_hb (i : Nat) (x : Slot) : (setSlot i x s).hb = s.hb := rfl
@[simp] theorem setSlot_mb (i : Nat) (x : Slot) : (setSlot i x s).mb = s.mb := rfl
@[simp] theorem setSlot_px (i : Nat) (x : Slot) : (setSlot i x s).px = s.px := rfl
@[simp] theorem setSlot_sp (i : Nat) (x : Slot) : (setSlot i x s).sp = s.sp := rfl
@[simp] theorem setSlot_sd (i : Nat) (x : Slot) : (setSlot i x s).sd = s.sd := rfl
@[simp] theorem setSlot_idn (i : Nat) (x : Slot) : (setSlot i x s).idn = s.idn := rfl
@[simp] theorem setSlot_tn (i : Nat) (x : Slot) : (setSlot i x s).tn = s.tn := rfl
@[simp] theorem setSlot_wk (i : Nat) (x : Slot) : (setSlot i x s).wk = s.wk := rfl
@[simp] theorem setSlot_rc (i : Nat) (x : Slot) : (setSlot i x s).rc = s.rc := rfl
@[simp] theorem setSlot_jb (i : Nat) (x : Slot) : (setSlot i x s).jb = s.jb := rfl
@[simp] theorem setSlot_xl (i : Nat) (x : Slot) : (setSlot i x s).xl = s.xl := rfl
@[simp] theorem setSlot_ln (i : Nat) (x : Slot) : (setSlot i x s).ln = s.ln := rfl
@[simp] theorem setSlot_pq (i : Nat) (x : Slot) : (setSlot i x s).pq = s.pq := rfl
@[simp] theorem setSlot_fq (i : Nat) (x : Slot) : (setSlot i x s).fq = s.fq := rfl
@[simp] theorem setSlot_uw (i : Nat) (x : Slot) : (setSlot i x s).uw = s.uw := rfl
@[simp] theorem setSlot_outs (i : Nat) (x : Slot) : (setSlot i x s).outs = s.outs := rfl
@[simp] theorem setSlot_draws (i : Nat) (x : Slot) : (setSlot i x s).draws = s.draws := rfl
@[simp] theorem setSlot_pending (i : Nat) (x : Slot) : (setSlot i x s).pending = s.pending := rfl
@[simp] theorem modPx_pkg (d : Nat) (f : PortX → PortX) : (modPx d f s).pkg = s.pkg := rfl
@[simp] theorem modPx_wd (d : Nat) (f : PortX → PortX) : (modPx d f s).wd = s.wd := rfl
@[simp] theorem modPx_units (d : Nat) (f : PortX → PortX) : (modPx d f s).units = s.units := rfl
@[simp] theorem modPx_sq (d : Nat) (f : PortX → PortX) : (modPx d f s).sq = s.sq := rfl
@[simp] theorem modPx_otp (d : Nat) (f : PortX → PortX) : (modPx d f s).otp = s.otp := rfl
@[simp] theorem modPx_dg (d : Nat) (f : PortX → PortX) : (modPx d f s).dg = s.dg := rfl
@[simp] theorem modPx_ks (d : Nat) (f : PortX → PortX) : (modPx d f s).ks = s.ks := rfl
@[simp] theorem modPx_pk (d : Nat) (f : PortX → PortX) : (modPx d f s).pk = s.pk := rfl
@[simp] theorem modPx_ms (d : Nat) (f : PortX → PortX) : (modPx d f s).ms = s.ms := rfl
@[simp] theorem modPx_boot (d : Nat) (f : PortX → PortX) : (modPx d f s).boot = s.boot := rfl
@[simp] theorem modPx_upd (d : Nat) (f : PortX → PortX) : (modPx d f s).upd = s.upd := rfl
@[simp] theorem modPx_fl (d : Nat) (f : PortX → PortX) : (modPx d f s).fl = s.fl := rfl
@[simp] theorem modPx_pw (d : Nat) (f : PortX → PortX) : (modPx d f s).pw = s.pw := rfl
@[simp] theorem modPx_lg (d : Nat) (f : PortX → PortX) : (modPx d f s).lg = s.lg := rfl
@[simp] theorem modPx_mg (d : Nat) (f : PortX → PortX) : (modPx d f s).mg = s.mg := rfl
@[simp] theorem modPx_rk (d : Nat) (f : PortX → PortX) : (modPx d f s).rk = s.rk := rfl
@[simp] theorem modPx_hb (d : Nat) (f : PortX → PortX) : (modPx d f s).hb = s.hb := rfl
@[simp] theorem modPx_mb (d : Nat) (f : PortX → PortX) : (modPx d f s).mb = s.mb := rfl
@[simp] theorem modPx_sp (d : Nat) (f : PortX → PortX) : (modPx d f s).sp = s.sp := rfl
@[simp] theorem modPx_sd (d : Nat) (f : PortX → PortX) : (modPx d f s).sd = s.sd := rfl
@[simp] theorem modPx_idn (d : Nat) (f : PortX → PortX) : (modPx d f s).idn = s.idn := rfl
@[simp] theorem modPx_tn (d : Nat) (f : PortX → PortX) : (modPx d f s).tn = s.tn := rfl
@[simp] theorem modPx_wk (d : Nat) (f : PortX → PortX) : (modPx d f s).wk = s.wk := rfl
@[simp] theorem modPx_rc (d : Nat) (f : PortX → PortX) : (modPx d f s).rc = s.rc := rfl
@[simp] theorem modPx_jb (d : Nat) (f : PortX → PortX) : (modPx d f s).jb = s.jb := rfl
@[simp] theorem modPx_xl (d : Nat) (f : PortX → PortX) : (modPx d f s).xl = s.xl := rfl
@[simp] theorem modPx_ln (d : Nat) (f : PortX → PortX) : (modPx d f s).ln = s.ln := rfl
@[simp] theorem modPx_pq (d : Nat) (f : PortX → PortX) : (modPx d f s).pq = s.pq := rfl
@[simp] theorem modPx_fq (d : Nat) (f : PortX → PortX) : (modPx d f s).fq = s.fq := rfl
@[simp] theorem modPx_uw (d : Nat) (f : PortX → PortX) : (modPx d f s).uw = s.uw := rfl
@[simp] theorem modPx_outs (d : Nat) (f : PortX → PortX) : (modPx d f s).outs = s.outs := rfl
@[simp] theorem modPx_draws (d : Nat) (f : PortX → PortX) : (modPx d f s).draws = s.draws := rfl
@[simp] theorem modPx_pending (d : Nat) (f : PortX → PortX) : (modPx d f s).pending = s.pending := rfl
@[simp] theorem modAp_pkg (d a : Nat) (f : Aper → Aper) : (modAp d a f s).pkg = s.pkg := rfl
@[simp] theorem modAp_wd (d a : Nat) (f : Aper → Aper) : (modAp d a f s).wd = s.wd := rfl
@[simp] theorem modAp_units (d a : Nat) (f : Aper → Aper) : (modAp d a f s).units = s.units := rfl
@[simp] theorem modAp_sq (d a : Nat) (f : Aper → Aper) : (modAp d a f s).sq = s.sq := rfl
@[simp] theorem modAp_otp (d a : Nat) (f : Aper → Aper) : (modAp d a f s).otp = s.otp := rfl
@[simp] theorem modAp_dg (d a : Nat) (f : Aper → Aper) : (modAp d a f s).dg = s.dg := rfl
@[simp] theorem modAp_ks (d a : Nat) (f : Aper → Aper) : (modAp d a f s).ks = s.ks := rfl
@[simp] theorem modAp_pk (d a : Nat) (f : Aper → Aper) : (modAp d a f s).pk = s.pk := rfl
@[simp] theorem modAp_ms (d a : Nat) (f : Aper → Aper) : (modAp d a f s).ms = s.ms := rfl
@[simp] theorem modAp_boot (d a : Nat) (f : Aper → Aper) : (modAp d a f s).boot = s.boot := rfl
@[simp] theorem modAp_upd (d a : Nat) (f : Aper → Aper) : (modAp d a f s).upd = s.upd := rfl
@[simp] theorem modAp_fl (d a : Nat) (f : Aper → Aper) : (modAp d a f s).fl = s.fl := rfl
@[simp] theorem modAp_pw (d a : Nat) (f : Aper → Aper) : (modAp d a f s).pw = s.pw := rfl
@[simp] theorem modAp_lg (d a : Nat) (f : Aper → Aper) : (modAp d a f s).lg = s.lg := rfl
@[simp] theorem modAp_mg (d a : Nat) (f : Aper → Aper) : (modAp d a f s).mg = s.mg := rfl
@[simp] theorem modAp_rk (d a : Nat) (f : Aper → Aper) : (modAp d a f s).rk = s.rk := rfl
@[simp] theorem modAp_hb (d a : Nat) (f : Aper → Aper) : (modAp d a f s).hb = s.hb := rfl
@[simp] theorem modAp_mb (d a : Nat) (f : Aper → Aper) : (modAp d a f s).mb = s.mb := rfl
@[simp] theorem modAp_sp (d a : Nat) (f : Aper → Aper) : (modAp d a f s).sp = s.sp := rfl
@[simp] theorem modAp_sd (d a : Nat) (f : Aper → Aper) : (modAp d a f s).sd = s.sd := rfl
@[simp] theorem modAp_idn (d a : Nat) (f : Aper → Aper) : (modAp d a f s).idn = s.idn := rfl
@[simp] theorem modAp_tn (d a : Nat) (f : Aper → Aper) : (modAp d a f s).tn = s.tn := rfl
@[simp] theorem modAp_wk (d a : Nat) (f : Aper → Aper) : (modAp d a f s).wk = s.wk := rfl
@[simp] theorem modAp_rc (d a : Nat) (f : Aper → Aper) : (modAp d a f s).rc = s.rc := rfl
@[simp] theorem modAp_jb (d a : Nat) (f : Aper → Aper) : (modAp d a f s).jb = s.jb := rfl
@[simp] theorem modAp_xl (d a : Nat) (f : Aper → Aper) : (modAp d a f s).xl = s.xl := rfl
@[simp] theorem modAp_ln (d a : Nat) (f : Aper → Aper) : (modAp d a f s).ln = s.ln := rfl
@[simp] theorem modAp_pq (d a : Nat) (f : Aper → Aper) : (modAp d a f s).pq = s.pq := rfl
@[simp] theorem modAp_fq (d a : Nat) (f : Aper → Aper) : (modAp d a f s).fq = s.fq := rfl
@[simp] theorem modAp_uw (d a : Nat) (f : Aper → Aper) : (modAp d a f s).uw = s.uw := rfl
@[simp] theorem modAp_outs (d a : Nat) (f : Aper → Aper) : (modAp d a f s).outs = s.outs := rfl
@[simp] theorem modAp_draws (d a : Nat) (f : Aper → Aper) : (modAp d a f s).draws = s.draws := rfl
@[simp] theorem modAp_pending (d a : Nat) (f : Aper → Aper) : (modAp d a f s).pending = s.pending := rfl
@[simp] theorem modJob_pkg (i : Nat) (f : Job → Job) : (modJob i f s).pkg = s.pkg := rfl
@[simp] theorem modJob_wd (i : Nat) (f : Job → Job) : (modJob i f s).wd = s.wd := rfl
@[simp] theorem modJob_units (i : Nat) (f : Job → Job) : (modJob i f s).units = s.units := rfl
@[simp] theorem modJob_sq (i : Nat) (f : Job → Job) : (modJob i f s).sq = s.sq := rfl
@[simp] theorem modJob_otp (i : Nat) (f : Job → Job) : (modJob i f s).otp = s.otp := rfl
@[simp] theorem modJob_dg (i : Nat) (f : Job → Job) : (modJob i f s).dg = s.dg := rfl
@[simp] theorem modJob_ks (i : Nat) (f : Job → Job) : (modJob i f s).ks = s.ks := rfl
@[simp] theorem modJob_pk (i : Nat) (f : Job → Job) : (modJob i f s).pk = s.pk := rfl
@[simp] theorem modJob_ms (i : Nat) (f : Job → Job) : (modJob i f s).ms = s.ms := rfl
@[simp] theorem modJob_boot (i : Nat) (f : Job → Job) : (modJob i f s).boot = s.boot := rfl
@[simp] theorem modJob_upd (i : Nat) (f : Job → Job) : (modJob i f s).upd = s.upd := rfl
@[simp] theorem modJob_fl (i : Nat) (f : Job → Job) : (modJob i f s).fl = s.fl := rfl
@[simp] theorem modJob_pw (i : Nat) (f : Job → Job) : (modJob i f s).pw = s.pw := rfl
@[simp] theorem modJob_lg (i : Nat) (f : Job → Job) : (modJob i f s).lg = s.lg := rfl
@[simp] theorem modJob_mg (i : Nat) (f : Job → Job) : (modJob i f s).mg = s.mg := rfl
@[simp] theorem modJob_rk (i : Nat) (f : Job → Job) : (modJob i f s).rk = s.rk := rfl
@[simp] theorem modJob_hb (i : Nat) (f : Job → Job) : (modJob i f s).hb = s.hb := rfl
@[simp] theorem modJob_mb (i : Nat) (f : Job → Job) : (modJob i f s).mb = s.mb := rfl
@[simp] theorem modJob_px (i : Nat) (f : Job → Job) : (modJob i f s).px = s.px := rfl
@[simp] theorem modJob_sp (i : Nat) (f : Job → Job) : (modJob i f s).sp = s.sp := rfl
@[simp] theorem modJob_sd (i : Nat) (f : Job → Job) : (modJob i f s).sd = s.sd := rfl
@[simp] theorem modJob_idn (i : Nat) (f : Job → Job) : (modJob i f s).idn = s.idn := rfl
@[simp] theorem modJob_tn (i : Nat) (f : Job → Job) : (modJob i f s).tn = s.tn := rfl
@[simp] theorem modJob_wk (i : Nat) (f : Job → Job) : (modJob i f s).wk = s.wk := rfl
@[simp] theorem modJob_rc (i : Nat) (f : Job → Job) : (modJob i f s).rc = s.rc := rfl
@[simp] theorem modJob_xl (i : Nat) (f : Job → Job) : (modJob i f s).xl = s.xl := rfl
@[simp] theorem modJob_ln (i : Nat) (f : Job → Job) : (modJob i f s).ln = s.ln := rfl
@[simp] theorem modJob_pq (i : Nat) (f : Job → Job) : (modJob i f s).pq = s.pq := rfl
@[simp] theorem modJob_fq (i : Nat) (f : Job → Job) : (modJob i f s).fq = s.fq := rfl
@[simp] theorem modJob_uw (i : Nat) (f : Job → Job) : (modJob i f s).uw = s.uw := rfl
@[simp] theorem modJob_outs (i : Nat) (f : Job → Job) : (modJob i f s).outs = s.outs := rfl
@[simp] theorem modJob_draws (i : Nat) (f : Job → Job) : (modJob i f s).draws = s.draws := rfl
@[simp] theorem modJob_pending (i : Nat) (f : Job → Job) : (modJob i f s).pending = s.pending := rfl
@[simp] theorem modAst_pkg (t : Nat) (f : Ast → Ast) : (modAst t f s).pkg = s.pkg := rfl
@[simp] theorem modAst_wd (t : Nat) (f : Ast → Ast) : (modAst t f s).wd = s.wd := rfl
@[simp] theorem modAst_units (t : Nat) (f : Ast → Ast) : (modAst t f s).units = s.units := rfl
@[simp] theorem modAst_sq (t : Nat) (f : Ast → Ast) : (modAst t f s).sq = s.sq := rfl
@[simp] theorem modAst_otp (t : Nat) (f : Ast → Ast) : (modAst t f s).otp = s.otp := rfl
@[simp] theorem modAst_dg (t : Nat) (f : Ast → Ast) : (modAst t f s).dg = s.dg := rfl
@[simp] theorem modAst_ks (t : Nat) (f : Ast → Ast) : (modAst t f s).ks = s.ks := rfl
@[simp] theorem modAst_pk (t : Nat) (f : Ast → Ast) : (modAst t f s).pk = s.pk := rfl
@[simp] theorem modAst_ms (t : Nat) (f : Ast → Ast) : (modAst t f s).ms = s.ms := rfl
@[simp] theorem modAst_boot (t : Nat) (f : Ast → Ast) : (modAst t f s).boot = s.boot := rfl
@[simp] theorem modAst_upd (t : Nat) (f : Ast → Ast) : (modAst t f s).upd = s.upd := rfl
@[simp] theorem modAst_fl (t : Nat) (f : Ast → Ast) : (modAst t f s).fl = s.fl := rfl
@[simp] theorem modAst_pw (t : Nat) (f : Ast → Ast) : (modAst t f s).pw = s.pw := rfl
@[simp] theorem modAst_lg (t : Nat) (f : Ast → Ast) : (modAst t f s).lg = s.lg := rfl
@[simp] theorem modAst_mg (t : Nat) (f : Ast → Ast) : (modAst t f s).mg = s.mg := rfl
@[simp] theorem modAst_rk (t : Nat) (f : Ast → Ast) : (modAst t f s).rk = s.rk := rfl
@[simp] theorem modAst_hb (t : Nat) (f : Ast → Ast) : (modAst t f s).hb = s.hb := rfl
@[simp] theorem modAst_mb (t : Nat) (f : Ast → Ast) : (modAst t f s).mb = s.mb := rfl
@[simp] theorem modAst_px (t : Nat) (f : Ast → Ast) : (modAst t f s).px = s.px := rfl
@[simp] theorem modAst_sp (t : Nat) (f : Ast → Ast) : (modAst t f s).sp = s.sp := rfl
@[simp] theorem modAst_sd (t : Nat) (f : Ast → Ast) : (modAst t f s).sd = s.sd := rfl
@[simp] theorem modAst_idn (t : Nat) (f : Ast → Ast) : (modAst t f s).idn = s.idn := rfl
@[simp] theorem modAst_tn (t : Nat) (f : Ast → Ast) : (modAst t f s).tn = s.tn := rfl
@[simp] theorem modAst_wk (t : Nat) (f : Ast → Ast) : (modAst t f s).wk = s.wk := rfl
@[simp] theorem modAst_rc (t : Nat) (f : Ast → Ast) : (modAst t f s).rc = s.rc := rfl
@[simp] theorem modAst_jb (t : Nat) (f : Ast → Ast) : (modAst t f s).jb = s.jb := rfl
@[simp] theorem modAst_ln (t : Nat) (f : Ast → Ast) : (modAst t f s).ln = s.ln := rfl
@[simp] theorem modAst_pq (t : Nat) (f : Ast → Ast) : (modAst t f s).pq = s.pq := rfl
@[simp] theorem modAst_fq (t : Nat) (f : Ast → Ast) : (modAst t f s).fq = s.fq := rfl
@[simp] theorem modAst_uw (t : Nat) (f : Ast → Ast) : (modAst t f s).uw = s.uw := rfl
@[simp] theorem modAst_outs (t : Nat) (f : Ast → Ast) : (modAst t f s).outs = s.outs := rfl
@[simp] theorem modAst_draws (t : Nat) (f : Ast → Ast) : (modAst t f s).draws = s.draws := rfl
@[simp] theorem modAst_pending (t : Nat) (f : Ast → Ast) : (modAst t f s).pending = s.pending := rfl
@[simp] theorem modTileJ_pkg (t : Nat) (f : TileJ → TileJ) : (modTileJ t f s).pkg = s.pkg := rfl
@[simp] theorem modTileJ_wd (t : Nat) (f : TileJ → TileJ) : (modTileJ t f s).wd = s.wd := rfl
@[simp] theorem modTileJ_units (t : Nat) (f : TileJ → TileJ) : (modTileJ t f s).units = s.units := rfl
@[simp] theorem modTileJ_sq (t : Nat) (f : TileJ → TileJ) : (modTileJ t f s).sq = s.sq := rfl
@[simp] theorem modTileJ_otp (t : Nat) (f : TileJ → TileJ) : (modTileJ t f s).otp = s.otp := rfl
@[simp] theorem modTileJ_dg (t : Nat) (f : TileJ → TileJ) : (modTileJ t f s).dg = s.dg := rfl
@[simp] theorem modTileJ_ks (t : Nat) (f : TileJ → TileJ) : (modTileJ t f s).ks = s.ks := rfl
@[simp] theorem modTileJ_pk (t : Nat) (f : TileJ → TileJ) : (modTileJ t f s).pk = s.pk := rfl
@[simp] theorem modTileJ_ms (t : Nat) (f : TileJ → TileJ) : (modTileJ t f s).ms = s.ms := rfl
@[simp] theorem modTileJ_boot (t : Nat) (f : TileJ → TileJ) : (modTileJ t f s).boot = s.boot := rfl
@[simp] theorem modTileJ_upd (t : Nat) (f : TileJ → TileJ) : (modTileJ t f s).upd = s.upd := rfl
@[simp] theorem modTileJ_fl (t : Nat) (f : TileJ → TileJ) : (modTileJ t f s).fl = s.fl := rfl
@[simp] theorem modTileJ_pw (t : Nat) (f : TileJ → TileJ) : (modTileJ t f s).pw = s.pw := rfl
@[simp] theorem modTileJ_lg (t : Nat) (f : TileJ → TileJ) : (modTileJ t f s).lg = s.lg := rfl
@[simp] theorem modTileJ_mg (t : Nat) (f : TileJ → TileJ) : (modTileJ t f s).mg = s.mg := rfl
@[simp] theorem modTileJ_rk (t : Nat) (f : TileJ → TileJ) : (modTileJ t f s).rk = s.rk := rfl
@[simp] theorem modTileJ_hb (t : Nat) (f : TileJ → TileJ) : (modTileJ t f s).hb = s.hb := rfl
@[simp] theorem modTileJ_mb (t : Nat) (f : TileJ → TileJ) : (modTileJ t f s).mb = s.mb := rfl
@[simp] theorem modTileJ_px (t : Nat) (f : TileJ → TileJ) : (modTileJ t f s).px = s.px := rfl
@[simp] theorem modTileJ_sp (t : Nat) (f : TileJ → TileJ) : (modTileJ t f s).sp = s.sp := rfl
@[simp] theorem modTileJ_sd (t : Nat) (f : TileJ → TileJ) : (modTileJ t f s).sd = s.sd := rfl
@[simp] theorem modTileJ_idn (t : Nat) (f : TileJ → TileJ) : (modTileJ t f s).idn = s.idn := rfl
@[simp] theorem modTileJ_tn (t : Nat) (f : TileJ → TileJ) : (modTileJ t f s).tn = s.tn := rfl
@[simp] theorem modTileJ_wk (t : Nat) (f : TileJ → TileJ) : (modTileJ t f s).wk = s.wk := rfl
@[simp] theorem modTileJ_rc (t : Nat) (f : TileJ → TileJ) : (modTileJ t f s).rc = s.rc := rfl
@[simp] theorem modTileJ_xl (t : Nat) (f : TileJ → TileJ) : (modTileJ t f s).xl = s.xl := rfl
@[simp] theorem modTileJ_ln (t : Nat) (f : TileJ → TileJ) : (modTileJ t f s).ln = s.ln := rfl
@[simp] theorem modTileJ_pq (t : Nat) (f : TileJ → TileJ) : (modTileJ t f s).pq = s.pq := rfl
@[simp] theorem modTileJ_fq (t : Nat) (f : TileJ → TileJ) : (modTileJ t f s).fq = s.fq := rfl
@[simp] theorem modTileJ_uw (t : Nat) (f : TileJ → TileJ) : (modTileJ t f s).uw = s.uw := rfl
@[simp] theorem modTileJ_outs (t : Nat) (f : TileJ → TileJ) : (modTileJ t f s).outs = s.outs := rfl
@[simp] theorem modTileJ_draws (t : Nat) (f : TileJ → TileJ) : (modTileJ t f s).draws = s.draws := rfl
@[simp] theorem modTileJ_pending (t : Nat) (f : TileJ → TileJ) : (modTileJ t f s).pending = s.pending := rfl
@[simp] theorem modTileP_pkg (t : Nat) (f : TileP → TileP) : (modTileP t f s).pkg = s.pkg := rfl
@[simp] theorem modTileP_wd (t : Nat) (f : TileP → TileP) : (modTileP t f s).wd = s.wd := rfl
@[simp] theorem modTileP_units (t : Nat) (f : TileP → TileP) : (modTileP t f s).units = s.units := rfl
@[simp] theorem modTileP_sq (t : Nat) (f : TileP → TileP) : (modTileP t f s).sq = s.sq := rfl
@[simp] theorem modTileP_otp (t : Nat) (f : TileP → TileP) : (modTileP t f s).otp = s.otp := rfl
@[simp] theorem modTileP_dg (t : Nat) (f : TileP → TileP) : (modTileP t f s).dg = s.dg := rfl
@[simp] theorem modTileP_ks (t : Nat) (f : TileP → TileP) : (modTileP t f s).ks = s.ks := rfl
@[simp] theorem modTileP_pk (t : Nat) (f : TileP → TileP) : (modTileP t f s).pk = s.pk := rfl
@[simp] theorem modTileP_ms (t : Nat) (f : TileP → TileP) : (modTileP t f s).ms = s.ms := rfl
@[simp] theorem modTileP_boot (t : Nat) (f : TileP → TileP) : (modTileP t f s).boot = s.boot := rfl
@[simp] theorem modTileP_upd (t : Nat) (f : TileP → TileP) : (modTileP t f s).upd = s.upd := rfl
@[simp] theorem modTileP_fl (t : Nat) (f : TileP → TileP) : (modTileP t f s).fl = s.fl := rfl
@[simp] theorem modTileP_lg (t : Nat) (f : TileP → TileP) : (modTileP t f s).lg = s.lg := rfl
@[simp] theorem modTileP_mg (t : Nat) (f : TileP → TileP) : (modTileP t f s).mg = s.mg := rfl
@[simp] theorem modTileP_rk (t : Nat) (f : TileP → TileP) : (modTileP t f s).rk = s.rk := rfl
@[simp] theorem modTileP_hb (t : Nat) (f : TileP → TileP) : (modTileP t f s).hb = s.hb := rfl
@[simp] theorem modTileP_mb (t : Nat) (f : TileP → TileP) : (modTileP t f s).mb = s.mb := rfl
@[simp] theorem modTileP_px (t : Nat) (f : TileP → TileP) : (modTileP t f s).px = s.px := rfl
@[simp] theorem modTileP_sp (t : Nat) (f : TileP → TileP) : (modTileP t f s).sp = s.sp := rfl
@[simp] theorem modTileP_sd (t : Nat) (f : TileP → TileP) : (modTileP t f s).sd = s.sd := rfl
@[simp] theorem modTileP_idn (t : Nat) (f : TileP → TileP) : (modTileP t f s).idn = s.idn := rfl
@[simp] theorem modTileP_tn (t : Nat) (f : TileP → TileP) : (modTileP t f s).tn = s.tn := rfl
@[simp] theorem modTileP_wk (t : Nat) (f : TileP → TileP) : (modTileP t f s).wk = s.wk := rfl
@[simp] theorem modTileP_rc (t : Nat) (f : TileP → TileP) : (modTileP t f s).rc = s.rc := rfl
@[simp] theorem modTileP_jb (t : Nat) (f : TileP → TileP) : (modTileP t f s).jb = s.jb := rfl
@[simp] theorem modTileP_xl (t : Nat) (f : TileP → TileP) : (modTileP t f s).xl = s.xl := rfl
@[simp] theorem modTileP_ln (t : Nat) (f : TileP → TileP) : (modTileP t f s).ln = s.ln := rfl
@[simp] theorem modTileP_pq (t : Nat) (f : TileP → TileP) : (modTileP t f s).pq = s.pq := rfl
@[simp] theorem modTileP_fq (t : Nat) (f : TileP → TileP) : (modTileP t f s).fq = s.fq := rfl
@[simp] theorem modTileP_uw (t : Nat) (f : TileP → TileP) : (modTileP t f s).uw = s.uw := rfl
@[simp] theorem modTileP_outs (t : Nat) (f : TileP → TileP) : (modTileP t f s).outs = s.outs := rfl
@[simp] theorem modTileP_draws (t : Nat) (f : TileP → TileP) : (modTileP t f s).draws = s.draws := rfl
@[simp] theorem modTileP_pending (t : Nat) (f : TileP → TileP) : (modTileP t f s).pending = s.pending := rfl
@[simp] theorem modMc_pkg (t : Nat) (f : MemCtl → MemCtl) : (modMc t f s).pkg = s.pkg := rfl
@[simp] theorem modMc_wd (t : Nat) (f : MemCtl → MemCtl) : (modMc t f s).wd = s.wd := rfl
@[simp] theorem modMc_units (t : Nat) (f : MemCtl → MemCtl) : (modMc t f s).units = s.units := rfl
@[simp] theorem modMc_sq (t : Nat) (f : MemCtl → MemCtl) : (modMc t f s).sq = s.sq := rfl
@[simp] theorem modMc_otp (t : Nat) (f : MemCtl → MemCtl) : (modMc t f s).otp = s.otp := rfl
@[simp] theorem modMc_dg (t : Nat) (f : MemCtl → MemCtl) : (modMc t f s).dg = s.dg := rfl
@[simp] theorem modMc_ks (t : Nat) (f : MemCtl → MemCtl) : (modMc t f s).ks = s.ks := rfl
@[simp] theorem modMc_pk (t : Nat) (f : MemCtl → MemCtl) : (modMc t f s).pk = s.pk := rfl
@[simp] theorem modMc_ms (t : Nat) (f : MemCtl → MemCtl) : (modMc t f s).ms = s.ms := rfl
@[simp] theorem modMc_boot (t : Nat) (f : MemCtl → MemCtl) : (modMc t f s).boot = s.boot := rfl
@[simp] theorem modMc_upd (t : Nat) (f : MemCtl → MemCtl) : (modMc t f s).upd = s.upd := rfl
@[simp] theorem modMc_fl (t : Nat) (f : MemCtl → MemCtl) : (modMc t f s).fl = s.fl := rfl
@[simp] theorem modMc_pw (t : Nat) (f : MemCtl → MemCtl) : (modMc t f s).pw = s.pw := rfl
@[simp] theorem modMc_lg (t : Nat) (f : MemCtl → MemCtl) : (modMc t f s).lg = s.lg := rfl
@[simp] theorem modMc_mg (t : Nat) (f : MemCtl → MemCtl) : (modMc t f s).mg = s.mg := rfl
@[simp] theorem modMc_rk (t : Nat) (f : MemCtl → MemCtl) : (modMc t f s).rk = s.rk := rfl
@[simp] theorem modMc_hb (t : Nat) (f : MemCtl → MemCtl) : (modMc t f s).hb = s.hb := rfl
@[simp] theorem modMc_mb (t : Nat) (f : MemCtl → MemCtl) : (modMc t f s).mb = s.mb := rfl
@[simp] theorem modMc_px (t : Nat) (f : MemCtl → MemCtl) : (modMc t f s).px = s.px := rfl
@[simp] theorem modMc_sp (t : Nat) (f : MemCtl → MemCtl) : (modMc t f s).sp = s.sp := rfl
@[simp] theorem modMc_sd (t : Nat) (f : MemCtl → MemCtl) : (modMc t f s).sd = s.sd := rfl
@[simp] theorem modMc_idn (t : Nat) (f : MemCtl → MemCtl) : (modMc t f s).idn = s.idn := rfl
@[simp] theorem modMc_tn (t : Nat) (f : MemCtl → MemCtl) : (modMc t f s).tn = s.tn := rfl
@[simp] theorem modMc_wk (t : Nat) (f : MemCtl → MemCtl) : (modMc t f s).wk = s.wk := rfl
@[simp] theorem modMc_rc (t : Nat) (f : MemCtl → MemCtl) : (modMc t f s).rc = s.rc := rfl
@[simp] theorem modMc_xl (t : Nat) (f : MemCtl → MemCtl) : (modMc t f s).xl = s.xl := rfl
@[simp] theorem modMc_ln (t : Nat) (f : MemCtl → MemCtl) : (modMc t f s).ln = s.ln := rfl
@[simp] theorem modMc_pq (t : Nat) (f : MemCtl → MemCtl) : (modMc t f s).pq = s.pq := rfl
@[simp] theorem modMc_fq (t : Nat) (f : MemCtl → MemCtl) : (modMc t f s).fq = s.fq := rfl
@[simp] theorem modMc_uw (t : Nat) (f : MemCtl → MemCtl) : (modMc t f s).uw = s.uw := rfl
@[simp] theorem modMc_outs (t : Nat) (f : MemCtl → MemCtl) : (modMc t f s).outs = s.outs := rfl
@[simp] theorem modMc_draws (t : Nat) (f : MemCtl → MemCtl) : (modMc t f s).draws = s.draws := rfl
@[simp] theorem modMc_pending (t : Nat) (f : MemCtl → MemCtl) : (modMc t f s).pending = s.pending := rfl
@[simp] theorem stopTile_pkg (t : Nat) : (stopTile t s).pkg = s.pkg := rfl
@[simp] theorem stopTile_units (t : Nat) : (stopTile t s).units = s.units := rfl
@[simp] theorem stopTile_sq (t : Nat) : (stopTile t s).sq = s.sq := rfl
@[simp] theorem stopTile_otp (t : Nat) : (stopTile t s).otp = s.otp := rfl
@[simp] theorem stopTile_dg (t : Nat) : (stopTile t s).dg = s.dg := rfl
@[simp] theorem stopTile_ks (t : Nat) : (stopTile t s).ks = s.ks := rfl
@[simp] theorem stopTile_pk (t : Nat) : (stopTile t s).pk = s.pk := rfl
@[simp] theorem stopTile_ms (t : Nat) : (stopTile t s).ms = s.ms := rfl
@[simp] theorem stopTile_boot (t : Nat) : (stopTile t s).boot = s.boot := rfl
@[simp] theorem stopTile_upd (t : Nat) : (stopTile t s).upd = s.upd := rfl
@[simp] theorem stopTile_fl (t : Nat) : (stopTile t s).fl = s.fl := rfl
@[simp] theorem stopTile_pw (t : Nat) : (stopTile t s).pw = s.pw := rfl
@[simp] theorem stopTile_lg (t : Nat) : (stopTile t s).lg = s.lg := rfl
@[simp] theorem stopTile_mg (t : Nat) : (stopTile t s).mg = s.mg := rfl
@[simp] theorem stopTile_rk (t : Nat) : (stopTile t s).rk = s.rk := rfl
@[simp] theorem stopTile_hb (t : Nat) : (stopTile t s).hb = s.hb := rfl
@[simp] theorem stopTile_mb (t : Nat) : (stopTile t s).mb = s.mb := rfl
@[simp] theorem stopTile_px (t : Nat) : (stopTile t s).px = s.px := rfl
@[simp] theorem stopTile_sp (t : Nat) : (stopTile t s).sp = s.sp := rfl
@[simp] theorem stopTile_sd (t : Nat) : (stopTile t s).sd = s.sd := rfl
@[simp] theorem stopTile_idn (t : Nat) : (stopTile t s).idn = s.idn := rfl
@[simp] theorem stopTile_tn (t : Nat) : (stopTile t s).tn = s.tn := rfl
@[simp] theorem stopTile_wk (t : Nat) : (stopTile t s).wk = s.wk := rfl
@[simp] theorem stopTile_rc (t : Nat) : (stopTile t s).rc = s.rc := rfl
@[simp] theorem stopTile_jb (t : Nat) : (stopTile t s).jb = s.jb := rfl
@[simp] theorem stopTile_xl (t : Nat) : (stopTile t s).xl = s.xl := rfl
@[simp] theorem stopTile_ln (t : Nat) : (stopTile t s).ln = s.ln := rfl
@[simp] theorem stopTile_pq (t : Nat) : (stopTile t s).pq = s.pq := rfl
@[simp] theorem stopTile_fq (t : Nat) : (stopTile t s).fq = s.fq := rfl
@[simp] theorem stopTile_uw (t : Nat) : (stopTile t s).uw = s.uw := rfl
@[simp] theorem stopTile_outs (t : Nat) : (stopTile t s).outs = s.outs := rfl
@[simp] theorem stopTile_draws (t : Nat) : (stopTile t s).draws = s.draws := rfl
@[simp] theorem stopTile_pending (t : Nat) : (stopTile t s).pending = s.pending := rfl
@[simp] theorem setU_pkg (u : Nat) (x : UState) : (setU u x s).pkg = s.pkg := by unfold setU; split <;> rfl
@[simp] theorem setU_wd (u : Nat) (x : UState) : (setU u x s).wd = s.wd := by unfold setU; split <;> rfl
@[simp] theorem setU_sq (u : Nat) (x : UState) : (setU u x s).sq = s.sq := by unfold setU; split <;> rfl
@[simp] theorem setU_otp (u : Nat) (x : UState) : (setU u x s).otp = s.otp := by unfold setU; split <;> rfl
@[simp] theorem setU_dg (u : Nat) (x : UState) : (setU u x s).dg = s.dg := by unfold setU; split <;> rfl
@[simp] theorem setU_ks (u : Nat) (x : UState) : (setU u x s).ks = s.ks := by unfold setU; split <;> rfl
@[simp] theorem setU_pk (u : Nat) (x : UState) : (setU u x s).pk = s.pk := by unfold setU; split <;> rfl
@[simp] theorem setU_ms (u : Nat) (x : UState) : (setU u x s).ms = s.ms := by unfold setU; split <;> rfl
@[simp] theorem setU_boot (u : Nat) (x : UState) : (setU u x s).boot = s.boot := by unfold setU; split <;> rfl
@[simp] theorem setU_upd (u : Nat) (x : UState) : (setU u x s).upd = s.upd := by unfold setU; split <;> rfl
@[simp] theorem setU_fl (u : Nat) (x : UState) : (setU u x s).fl = s.fl := by unfold setU; split <;> rfl
@[simp] theorem setU_pw (u : Nat) (x : UState) : (setU u x s).pw = s.pw := by unfold setU; split <;> rfl
@[simp] theorem setU_lg (u : Nat) (x : UState) : (setU u x s).lg = s.lg := by unfold setU; split <;> rfl
@[simp] theorem setU_mg (u : Nat) (x : UState) : (setU u x s).mg = s.mg := by unfold setU; split <;> rfl
@[simp] theorem setU_rk (u : Nat) (x : UState) : (setU u x s).rk = s.rk := by unfold setU; split <;> rfl
@[simp] theorem setU_hb (u : Nat) (x : UState) : (setU u x s).hb = s.hb := by unfold setU; split <;> rfl
@[simp] theorem setU_mb (u : Nat) (x : UState) : (setU u x s).mb = s.mb := by unfold setU; split <;> rfl
@[simp] theorem setU_px (u : Nat) (x : UState) : (setU u x s).px = s.px := by unfold setU; split <;> rfl
@[simp] theorem setU_sp (u : Nat) (x : UState) : (setU u x s).sp = s.sp := by unfold setU; split <;> rfl
@[simp] theorem setU_sd (u : Nat) (x : UState) : (setU u x s).sd = s.sd := by unfold setU; split <;> rfl
@[simp] theorem setU_tn (u : Nat) (x : UState) : (setU u x s).tn = s.tn := by unfold setU; split <;> rfl
@[simp] theorem setU_wk (u : Nat) (x : UState) : (setU u x s).wk = s.wk := by unfold setU; split <;> rfl
@[simp] theorem setU_rc (u : Nat) (x : UState) : (setU u x s).rc = s.rc := by unfold setU; split <;> rfl
@[simp] theorem setU_jb (u : Nat) (x : UState) : (setU u x s).jb = s.jb := by unfold setU; split <;> rfl
@[simp] theorem setU_xl (u : Nat) (x : UState) : (setU u x s).xl = s.xl := by unfold setU; split <;> rfl
@[simp] theorem setU_ln (u : Nat) (x : UState) : (setU u x s).ln = s.ln := by unfold setU; split <;> rfl
@[simp] theorem setU_pq (u : Nat) (x : UState) : (setU u x s).pq = s.pq := by unfold setU; split <;> rfl
@[simp] theorem setU_fq (u : Nat) (x : UState) : (setU u x s).fq = s.fq := by unfold setU; split <;> rfl
@[simp] theorem setU_uw (u : Nat) (x : UState) : (setU u x s).uw = s.uw := by unfold setU; split <;> rfl
@[simp] theorem setU_outs (u : Nat) (x : UState) : (setU u x s).outs = s.outs := by unfold setU; split <;> rfl
@[simp] theorem setU_draws (u : Nat) (x : UState) : (setU u x s).draws = s.draws := by unfold setU; split <;> rfl
@[simp] theorem setU_pending (u : Nat) (x : UState) : (setU u x s).pending = s.pending := by unfold setU; split <;> rfl
@[simp] theorem trace_pkg (p u a b : Nat) : (trace p u a b s).pkg = s.pkg := by unfold trace; split <;> rfl
@[simp] theorem trace_wd (p u a b : Nat) : (trace p u a b s).wd = s.wd := by unfold trace; split <;> rfl
@[simp] theorem trace_units (p u a b : Nat) : (trace p u a b s).units = s.units := by unfold trace; split <;> rfl
@[simp] theorem trace_sq (p u a b : Nat) : (trace p u a b s).sq = s.sq := by unfold trace; split <;> rfl
@[simp] theorem trace_otp (p u a b : Nat) : (trace p u a b s).otp = s.otp := by unfold trace; split <;> rfl
@[simp] theorem trace_dg (p u a b : Nat) : (trace p u a b s).dg = s.dg := by unfold trace; split <;> rfl
@[simp] theorem trace_ks (p u a b : Nat) : (trace p u a b s).ks = s.ks := by unfold trace; split <;> rfl
@[simp] theorem trace_pk (p u a b : Nat) : (trace p u a b s).pk = s.pk := by unfold trace; split <;> rfl
@[simp] theorem trace_ms (p u a b : Nat) : (trace p u a b s).ms = s.ms := by unfold trace; split <;> rfl
@[simp] theorem trace_boot (p u a b : Nat) : (trace p u a b s).boot = s.boot := by unfold trace; split <;> rfl
@[simp] theorem trace_upd (p u a b : Nat) : (trace p u a b s).upd = s.upd := by unfold trace; split <;> rfl
@[simp] theorem trace_fl (p u a b : Nat) : (trace p u a b s).fl = s.fl := by unfold trace; split <;> rfl
@[simp] theorem trace_pw (p u a b : Nat) : (trace p u a b s).pw = s.pw := by unfold trace; split <;> rfl
@[simp] theorem trace_mg (p u a b : Nat) : (trace p u a b s).mg = s.mg := by unfold trace; split <;> rfl
@[simp] theorem trace_rk (p u a b : Nat) : (trace p u a b s).rk = s.rk := by unfold trace; split <;> rfl
@[simp] theorem trace_hb (p u a b : Nat) : (trace p u a b s).hb = s.hb := by unfold trace; split <;> rfl
@[simp] theorem trace_mb (p u a b : Nat) : (trace p u a b s).mb = s.mb := by unfold trace; split <;> rfl
@[simp] theorem trace_px (p u a b : Nat) : (trace p u a b s).px = s.px := by unfold trace; split <;> rfl
@[simp] theorem trace_sp (p u a b : Nat) : (trace p u a b s).sp = s.sp := by unfold trace; split <;> rfl
@[simp] theorem trace_sd (p u a b : Nat) : (trace p u a b s).sd = s.sd := by unfold trace; split <;> rfl
@[simp] theorem trace_idn (p u a b : Nat) : (trace p u a b s).idn = s.idn := by unfold trace; split <;> rfl
@[simp] theorem trace_tn (p u a b : Nat) : (trace p u a b s).tn = s.tn := by unfold trace; split <;> rfl
@[simp] theorem trace_wk (p u a b : Nat) : (trace p u a b s).wk = s.wk := by unfold trace; split <;> rfl
@[simp] theorem trace_rc (p u a b : Nat) : (trace p u a b s).rc = s.rc := by unfold trace; split <;> rfl
@[simp] theorem trace_jb (p u a b : Nat) : (trace p u a b s).jb = s.jb := by unfold trace; split <;> rfl
@[simp] theorem trace_xl (p u a b : Nat) : (trace p u a b s).xl = s.xl := by unfold trace; split <;> rfl
@[simp] theorem trace_ln (p u a b : Nat) : (trace p u a b s).ln = s.ln := by unfold trace; split <;> rfl
@[simp] theorem trace_pq (p u a b : Nat) : (trace p u a b s).pq = s.pq := by unfold trace; split <;> rfl
@[simp] theorem trace_fq (p u a b : Nat) : (trace p u a b s).fq = s.fq := by unfold trace; split <;> rfl
@[simp] theorem trace_uw (p u a b : Nat) : (trace p u a b s).uw = s.uw := by unfold trace; split <;> rfl
@[simp] theorem trace_outs (p u a b : Nat) : (trace p u a b s).outs = s.outs := by unfold trace; split <;> rfl
@[simp] theorem trace_draws (p u a b : Nat) : (trace p u a b s).draws = s.draws := by unfold trace; split <;> rfl
@[simp] theorem trace_pending (p u a b : Nat) : (trace p u a b s).pending = s.pending := by unfold trace; split <;> rfl
@[simp] theorem drawBytes_pkg (n : Nat) : (drawBytes n s).2.pkg = s.pkg := rfl
@[simp] theorem drawBytes_wd (n : Nat) : (drawBytes n s).2.wd = s.wd := rfl
@[simp] theorem drawBytes_units (n : Nat) : (drawBytes n s).2.units = s.units := rfl
@[simp] theorem drawBytes_sq (n : Nat) : (drawBytes n s).2.sq = s.sq := rfl
@[simp] theorem drawBytes_otp (n : Nat) : (drawBytes n s).2.otp = s.otp := rfl
@[simp] theorem drawBytes_dg (n : Nat) : (drawBytes n s).2.dg = s.dg := rfl
@[simp] theorem drawBytes_ks (n : Nat) : (drawBytes n s).2.ks = s.ks := rfl
@[simp] theorem drawBytes_pk (n : Nat) : (drawBytes n s).2.pk = s.pk := rfl
@[simp] theorem drawBytes_ms (n : Nat) : (drawBytes n s).2.ms = s.ms := rfl
@[simp] theorem drawBytes_boot (n : Nat) : (drawBytes n s).2.boot = s.boot := rfl
@[simp] theorem drawBytes_upd (n : Nat) : (drawBytes n s).2.upd = s.upd := rfl
@[simp] theorem drawBytes_fl (n : Nat) : (drawBytes n s).2.fl = s.fl := rfl
@[simp] theorem drawBytes_pw (n : Nat) : (drawBytes n s).2.pw = s.pw := rfl
@[simp] theorem drawBytes_lg (n : Nat) : (drawBytes n s).2.lg = s.lg := rfl
@[simp] theorem drawBytes_mg (n : Nat) : (drawBytes n s).2.mg = s.mg := rfl
@[simp] theorem drawBytes_rk (n : Nat) : (drawBytes n s).2.rk = s.rk := rfl
@[simp] theorem drawBytes_hb (n : Nat) : (drawBytes n s).2.hb = s.hb := rfl
@[simp] theorem drawBytes_mb (n : Nat) : (drawBytes n s).2.mb = s.mb := rfl
@[simp] theorem drawBytes_px (n : Nat) : (drawBytes n s).2.px = s.px := rfl
@[simp] theorem drawBytes_sp (n : Nat) : (drawBytes n s).2.sp = s.sp := rfl
@[simp] theorem drawBytes_sd (n : Nat) : (drawBytes n s).2.sd = s.sd := rfl
@[simp] theorem drawBytes_idn (n : Nat) : (drawBytes n s).2.idn = s.idn := rfl
@[simp] theorem drawBytes_tn (n : Nat) : (drawBytes n s).2.tn = s.tn := rfl
@[simp] theorem drawBytes_wk (n : Nat) : (drawBytes n s).2.wk = s.wk := rfl
@[simp] theorem drawBytes_rc (n : Nat) : (drawBytes n s).2.rc = s.rc := rfl
@[simp] theorem drawBytes_jb (n : Nat) : (drawBytes n s).2.jb = s.jb := rfl
@[simp] theorem drawBytes_xl (n : Nat) : (drawBytes n s).2.xl = s.xl := rfl
@[simp] theorem drawBytes_ln (n : Nat) : (drawBytes n s).2.ln = s.ln := rfl
@[simp] theorem drawBytes_pq (n : Nat) : (drawBytes n s).2.pq = s.pq := rfl
@[simp] theorem drawBytes_fq (n : Nat) : (drawBytes n s).2.fq = s.fq := rfl
@[simp] theorem drawBytes_uw (n : Nat) : (drawBytes n s).2.uw = s.uw := rfl
@[simp] theorem drawBytes_outs (n : Nat) : (drawBytes n s).2.outs = s.outs := rfl
@[simp] theorem drawBytes_pending (n : Nat) : (drawBytes n s).2.pending = s.pending := rfl
@[simp] theorem irq_outs (n : Nat) : (irq n s).outs = .wirq n :: s.outs := rfl
@[simp] theorem emit_outs (o : Out) : (emit o s).outs = o :: s.outs := rfl
@[simp] theorem modUnit_units (u : Nat) (f : UnitS → UnitS) : (modUnit u f s).units = modNth u f s.units := rfl
@[simp] theorem modOtp_otp (f : Otp → Otp) : (modOtp f s).otp = f s.otp := rfl
@[simp] theorem setSlot_slots (i : Nat) (x : Slot) : (setSlot i x s).ks.slots = s.ks.slots.set i x := rfl
@[simp] theorem modChan_chans (c : Nat) (f : Chan → Chan) : (modChan c f s).mb.chans = modNth c f s.mb.chans := rfl
@[simp] theorem modFn_fns (d : Nat) (f : HostFn → HostFn) : (modFn d f s).hb.fns = modNth d f s.hb.fns := rfl

@[simp] theorem nth_modNth_self {α : Type} (d : α) (i : Nat) (f : α → α) (l : List α) (h : i < l.length) : nth d (modNth i f l) i = f (nth d l i) := by
  simp [nth, modNth, List.getElem?_modify, h]
@[simp] theorem nth_modNth_ne {α : Type} (d : α) {i j : Nat} (f : α → α) (l : List α) (h : i ≠ j) : nth d (modNth i f l) j = nth d l j := by
  simp [nth, modNth, List.getElem?_modify, h]
theorem unitS_modUnit {u : Nat} {f : UnitS → UnitS} {s : State} (h : u < s.units.length) : unitS (modUnit u f s) u = f (unitS s u) :=
  nth_modNth_self _ _ _ _ h
theorem unitS_modUnit_ne {u v : Nat} {f : UnitS → UnitS} {s : State} (h : u ≠ v) : unitS (modUnit u f s) v = unitS s v :=
  nth_modNth_ne _ _ _ h

end Sys2Proof.Machine
end

