-- ==== Sys2Proof/Laws/Lemmas.lean ====
section
/-! SUPPORT. Small lemmas of the shared operations that a proof about a row's result cites instead of unfolding them. -/

open Sys2Proof

set_option linter.all false

namespace Sys2Proof.Machine

/-! An OTP programming that nothing runs is not cut; what a warden reset leaves; how an admitted command answers (R223, R245). -/

section
variable (s : State)
@[simp] theorem otCut_pkg : (otCut s).pkg = s.pkg := by unfold otCut; split <;> rfl
@[simp] theorem otCut_wd : (otCut s).wd = s.wd := by unfold otCut; split <;> rfl
@[simp] theorem otCut_sq : (otCut s).sq = s.sq := by unfold otCut; split <;> rfl
@[simp] theorem otCut_ks : (otCut s).ks = s.ks := by unfold otCut; split <;> rfl
@[simp] theorem otCut_fl : (otCut s).fl = s.fl := by unfold otCut; split <;> rfl
@[simp] theorem otCut_pw : (otCut s).pw = s.pw := by unfold otCut; split <;> rfl
@[simp] theorem otCut_lg : (otCut s).lg = s.lg := by unfold otCut; split <;> rfl
@[simp] theorem otCut_mg : (otCut s).mg = s.mg := by unfold otCut; split <;> rfl
@[simp] theorem otCut_rk : (otCut s).rk = s.rk := by unfold otCut; split <;> rfl
@[simp] theorem otCut_hb : (otCut s).hb = s.hb := by unfold otCut; split <;> rfl
@[simp] theorem otCut_idn : (otCut s).idn = s.idn := by unfold otCut; split <;> rfl
@[simp] theorem otCut_tn : (otCut s).tn = s.tn := by unfold otCut; split <;> rfl
@[simp] theorem otCut_ln : (otCut s).ln = s.ln := by unfold otCut; split <;> rfl
@[simp] theorem otCut_outs : (otCut s).outs = s.outs := by unfold otCut; split <;> rfl
@[simp] theorem otCut_pending : (otCut s).pending = s.pending := by unfold otCut; split <;> rfl
end
theorem otCut_idle {s : State} (h : s.otp.job = none) : otCut s = s := by unfold otCut; rw [h]
@[simp] theorem bit_setBit (m i : Nat) : bit (setBit m i true) i = true := by
  unfold setBit
  split
  · rename_i h; simpa using h
  · rename_i h
    simp only [if_true]
    unfold bit at *
    have : (m + 2 ^ i) / 2 ^ i = m / 2 ^ i + 1 := Nat.add_div_right m (Nat.two_pow_pos i)
    simp [this] at *
    omega
theorem wardenReset_spec (r : RstSrc) (c : Nat) (s : State) : WardenReset s (wardenReset r c s) := by
  unfold WardenReset wardenReset
  refine ⟨?_, ?_, rfl, rfl, rfl, rfl, rfl, ?_, rfl, rfl⟩
  · simp
  · intro h; simp [otCut_idle h]
  · simp
theorem runCmd_reply {op : Nat} {f : HostCall → State → CmdRes} {c : HostCall} {s t : State} {st d : Nat} {b : Bytes} (h : Admitted op c s)
    (e : f c s = ⟨t, some (st, d, b), false⟩) : Host.Outcome.next (runCmd op f c s) = (.next (answer c op (stateWord s) st d b t) : Res) := by
  unfold runCmd; rw [h.1]; dsimp only; rw [if_neg (by simp [h.2]), e]; rfl
theorem runCmd_after {op : Nat} {f : HostCall → State → CmdRes} {c : HostCall} {s t : State} {st d : Nat} {b : Bytes} (h : Admitted op c s)
    (e : f c s = ⟨t, some (st, d, b), true⟩) : Host.Outcome.next (runCmd op f c s) = (.next (answer c op (stateWord t) st d b t) : Res) := by
  unfold runCmd; rw [h.1]; dsimp only; rw [if_neg (by simp [h.2]), e]; rfl
theorem runCmd_wait {op : Nat} {f : HostCall → State → CmdRes} {c : HostCall} {s t : State} {a : Bool} (h : Admitted op c s)
    (e : f c s = ⟨t, none, a⟩) : Host.Outcome.next (runCmd op f c s) = (.next t : Res) := by
  unfold runCmd; rw [h.1]; dsimp only; rw [if_neg (by simp [h.2]), e]
theorem sized_eq {n : Nat} {f : HostCall → State → CmdRes} {c : HostCall} (h : c.payload.length = n) (s : State) : sized n f c s = f c s := if_pos h

/-! OTP rows: a burn adds cells to its row and to no other (R91, R93). -/

theorem lookupNat_putKey_same {α : Type} (k : Nat) (v : α) : ∀ l : List (Nat × α), lookupNat k (putKey k v l) = some v
  | [] => by simp [putKey, lookupNat]
  | (a, w) :: r => by
    unfold putKey; split
    · simp [lookupNat]
    · split
      · simp [lookupNat]
      · rename_i h; rw [lookupNat, if_neg (Ne.symm h)]; exact lookupNat_putKey_same k v r
theorem lookupNat_putKey_other {α : Type} {k j : Nat} (v : α) (h : j ≠ k) : ∀ l : List (Nat × α), lookupNat j (putKey k v l) = lookupNat j l
  | [] => by simp [putKey, lookupNat, Ne.symm h]
  | (a, w) :: r => by
    unfold putKey; split
    · rw [lookupNat, if_neg (Ne.symm h)]
    · split
      · rename_i e; subst e; rw [lookupNat, if_neg (Ne.symm h), lookupNat, if_neg (Ne.symm h)]
      · rw [lookupNat, lookupNat]; split
        · rfl
        · exact lookupNat_putKey_other v h r
theorem nomRow_burnRow_same (r nom str : Nat) (o : Otp) : nomRow (burnRow r nom str o) r = nomRow o r ||| nom := by
  unfold burnRow; dsimp only; split
  · rename_i h; exact (Nat.or_eq_zero_iff.mp h).1.trans h.symm
  · simp [nomRow, lookupNat_putKey_same]
theorem nomRow_burnRow_other {r j : Nat} (h : j ≠ r) (nom str : Nat) (o : Otp) : nomRow (burnRow r nom str o) j = nomRow o j := by
  unfold burnRow; dsimp only; split
  · rfl
  · simp [nomRow, lookupNat_putKey_other _ h]
theorem nomRow_burnRow_le (r nom str j : Nat) (o : Otp) : nomRow o j &&& nomRow (burnRow r nom str o) j = nomRow o j := by
  by_cases h : j = r
  · subst h; rw [nomRow_burnRow_same]; exact Nat.eq_of_testBit_eq fun i => by simp; cases (nomRow o j).testBit i <;> simp
  · rw [nomRow_burnRow_other h]; exact Nat.and_self _
theorem and_trans {a b c : Nat} (h1 : a &&& b = a) (h2 : b &&& c = b) : a &&& c = a := by
  rw [← h1, Nat.and_assoc, h2]
theorem applyPulses_le (rep : Bool) (j : Nat) : ∀ (ts : List (Nat × Nat)) (ps : List PulseOut) (o : Otp) (n : Nat),
    nomRow o j &&& nomRow (applyPulses rep ts ps o n).1 j = nomRow o j
  | [], _, o, _ => Nat.and_self _
  | (r, m) :: ts, ps, o, n => by
    unfold applyPulses; dsimp only
    split
    · exact nomRow_burnRow_le ..
    · refine and_trans ?_ (applyPulses_le rep j ts _ _ _)
      exact nomRow_burnRow_le ..
theorem applyPulses_good (rep : Bool) : ∀ (ts : List (Nat × Nat)) (o : Otp) (n : Nat),
    (applyPulses rep ts [] o n).2.2 = false ∧ (∀ p ∈ ts, nomRow (applyPulses rep ts [] o n).1 p.1 &&& p.2 = p.2) ∧
    ∀ r, (∀ p ∈ ts, p.1 ≠ r) → nomRow (applyPulses rep ts [] o n).1 r = nomRow o r
  | [], o, n => ⟨rfl, by simp, fun _ _ => rfl⟩
  | (r, m) :: ts, o, n => by
    obtain ⟨o1, ho⟩ : ∃ o1 : Otp, applyPulses rep ((r, m) :: ts) [] o n = applyPulses rep ts [] o1 (n + 1) ∧ o1.rows = (burnRow r m m o).rows := by
      rw [applyPulses, if_neg (by simp), List.tail_nil]
      refine ⟨_, rfl, ?_⟩
      simp only [List.head?_nil, Option.getD_none, Nat.zero_and, Nat.xor_zero, Nat.xor_self]
    have hn : ∀ j, nomRow o1 j = nomRow (burnRow r m m o) j := fun j => by unfold nomRow; rw [ho.2]
    obtain ⟨h1, h2, h3⟩ := applyPulses_good rep ts o1 (n + 1)
    rw [ho.1]
    refine ⟨h1, ?_, ?_⟩
    · intro p hp
      rcases List.mem_cons.1 hp with e | hp
      · subst e
        have a := applyPulses_le rep r ts [] o1 (n + 1)
        have b : m &&& nomRow o1 r = m := by
          rw [hn, nomRow_burnRow_same]; exact Nat.eq_of_testBit_eq fun i => by simp; cases m.testBit i <;> simp
        rw [Nat.and_comm]; exact and_trans b a
      · exact h2 p hp
    · intro j hj
      rw [h3 j (fun p hp => hj p (List.mem_cons_of_mem _ hp)), hn, nomRow_burnRow_other]
      exact Ne.symm (hj (r, m) (List.mem_cons_self ..))

/-! The sequencer: when an event of it settles nothing, and what a ready step does (R76 to R83). -/

theorem sqEvent_busy {f : State → State} {s : State} (h : (f s).sq.busy = true) (ha : (f s).wd.access = none) : sqEvent f s = f s := by
  simp [sqEvent, settle, dropAccess, h, ha]
/-- Nothing settles once no table runs or waits. -/
theorem settleN_free (n : Nat) {t : State} (hb : t.sq.busy = false) (hp : t.sq.purpose = .user) (hq : t.sq.queue = []) : settleN n t = t := by
  cases n with
  | zero => rfl
  | succ n => simp [settleN, hb, hp, hq]
theorem sqEvent_idle {f : State → State} {s : State} (h : s.sq.busy = false) (hf : SqFree (f s)) : sqEvent f s = f s := by
  have e1 : settle s (f s) = f s := by
    unfold settle
    rw [if_neg (by simp [hf.1])]
    simp only [h, Bool.false_and, Bool.false_eq_true, if_false]
    exact settleN_free _ hf.1 hf.2.1 hf.2.2.1
  unfold sqEvent; rw [e1]; simp [dropAccess, hf.2.2.2]
theorem settle_user {s t : State} (hb : t.sq.busy = false) (hp : t.sq.purpose = .user)
    (hq : t.sq.queue = []) (he : t.sq.ecode ≠ 4) (ha : t.wd.access = none) : dropAccess (settle s t) = t := by
  have e1 : settle s t = t := by
    unfold settle
    rw [if_neg (by simp [hb])]
    have e4 : (t.sq.err && t.sq.ecode == 4) = false := by simp [he]
    simp only [Bool.and_assoc, e4, Bool.and_false, Bool.false_eq_true, if_false]
    exact settleN_free _ hb hp hq
  rw [e1]; simp [dropAccess, ha]
theorem sqEvent_done {f : State → State} {s t : State} (e : f s = t) (hb : t.sq.busy = false) (hp : t.sq.purpose = .user)
    (hq : t.sq.queue = []) (he : t.sq.ecode ≠ 4) (ha : t.wd.access = none) : sqEvent f s = t := by
  unfold sqEvent; rw [e]; exact settle_user hb hp hq he ha
theorem sqAdvance_on {s : State} (h1 : s.sq.abortReq = false) (h2 : s.sq.nextIx < Config.kSteps) : sqAdvance s = { s with sq := { s.sq with wait := .none } } := by
  have : ¬ Config.kSteps ≤ s.sq.nextIx := by omega
  simp [sqAdvance, h1, this]
theorem sqRun_of {op : Nat} {x : StepIn} {s t : State} (h : SqAt op s) (e : stepEffect (sqStep s) x (sqPast s) = t) (hb : t.sq.busy = true) (ha : t.wd.access = none) :
    sqEvent (sqRun op x) s = t := by
  have e' : sqRun op x s = t := by unfold sqRun; rw [if_pos h.1]; exact e
  exact (sqEvent_busy (by rw [e']; exact hb) (by rw [e']; exact ha)).trans e'
end Sys2Proof.Machine

namespace Sys2Proof

open Machine

theorem SqAt.busy {op : Nat} {s : State} (h : SqAt op s) : s.sq.busy = true := by
  have := h.1; simp only [sqReady, Bool.and_eq_true] at this; exact this.1.1.1
theorem SqAt.wait {op : Nat} {s : State} (h : SqAt op s) : s.sq.wait = .none := by
  have := h.1; simp only [sqReady, Bool.and_eq_true] at this; simpa using this.1.1.2
theorem SqAt.op {op : Nat} {s : State} (h : SqAt op s) : stepOp (sqStep s) = op := by
  have := h.1; simp only [sqReady, Bool.and_eq_true] at this; exact eq_of_beq this.1.2
theorem SqAt.adv {op : Nat} {s t : State} (h : SqAt op s) (hs : t.sq.abortReq = s.sq.abortReq) (hn : t.sq.nextIx < Config.kSteps) (hw : t.sq.wait = s.sq.wait) : sqAdvance t = t := by
  rw [sqAdvance_on (by rw [hs]; exact h.2.1) hn]
  have e : t.sq.wait = .none := by rw [hw]; exact h.wait
  rw [← e]

end Sys2Proof

namespace Sys2Proof.Machine

/-! Zeroing of key slots while no engine holds one (R122). -/

theorem zeroSlot_idle {s : State} {i : Nat} {b : Bool} (h0 : (slotS s i).dead = false) (h1 : s.dg.phase = .idle) (h2 : s.pk.run = none) :
    zeroSlot i b s = { s with ks := { s.ks with slots := s.ks.slots.set i { dead := b }, patfb := s.ks.patfb || !s.ks.drbgOk }, draws := s.draws + b2n s.ks.drbgOk } := by
  have e1 : (decide (s.dg.phase ≠ .idle) && decide (5 ≤ s.dg.mode) && (decide (s.dg.keyslot = i) || (s.dg.dual && decide (s.dg.keyslot2 = i)))) = false := by simp [h1]
  have e2 : pkCut i s = s := by unfold pkCut; rw [h2]
  simp only [zeroSlot, h0, e1, Bool.false_eq_true, if_false, e2]
  cases h : s.ks.drbgOk <;> simp [setSlot, b2n, h]
theorem zeroSlot_ready {s : State} {i : Nat} {b : Bool} (h0 : (slotS s i).dead = false) (h1 : s.dg.phase = .idle) (h2 : s.pk.run = none) (h3 : s.ks.drbgOk = true) :
    zeroSlot i b s = { slotIs i { dead := b } s with draws := s.draws + 1 } := by
  rw [zeroSlot_idle h0 h1 h2]; simp [h3, slotIs, b2n]
/-- Zeroing a run of slots, none of them DEAD, while no engine holds one. -/
theorem zeroSlots_idle (l : List Nat) : ∀ {s : State}, (∀ i, (slotS s i).dead = false) → s.dg.phase = .idle → s.pk.run = none →
    ∃ p d, zeroSlots l s = { s with ks := { s.ks with slots := l.foldl (fun a i => a.set i {}) s.ks.slots, patfb := p }, draws := d } := by
  induction l with
  | nil => intro s _ _ _; exact ⟨_, _, rfl⟩
  | cons a l ih =>
    intro s h0 h1 h2
    have z := zeroSlot_idle (b := false) (h0 a) h1 h2
    obtain ⟨p, d, e⟩ := ih (s := zeroSlot a false s) (by
      rw [z]; intro i
      show (nth {} (s.ks.slots.set a { dead := false }) i).dead = false
      by_cases e : a = i
      · subst e
        by_cases g : a < s.ks.slots.length
        · rw [show nth {} (s.ks.slots.set a { dead := false }) a = ({ dead := false } : Slot) from by simp [nth, g]]
        · rw [List.set_eq_of_length_le (by omega)]; exact h0 a
      · rw [show nth {} (s.ks.slots.set a { dead := false }) i = nth {} s.ks.slots i from by simp [nth, e]]; exact h0 i) (by rw [z]; exact h1) (by rw [z]; exact h2)
    refine ⟨p, d, ?_⟩
    show zeroSlots l (zeroSlot a false s) = _
    rw [e, z]; rfl
theorem set_range_64 (l : List Slot) (h : l.length = 64) : (List.range 64).foldl (fun a i => a.set i ({} : Slot)) l = List.replicate 64 ({} : Slot) := by
  have : ∀ n, n ≤ 64 → (List.range n).foldl (fun a i => a.set i ({} : Slot)) l = List.replicate n ({} : Slot) ++ l.drop n := by
    intro n
    induction n with
    | zero => intro _; rfl
    | succ n ih =>
      intro hn
      rw [List.range_succ, List.foldl_append, ih (by omega)]
      simp only [List.foldl_cons, List.foldl_nil]
      have : l.drop n = l[n] :: l.drop (n + 1) := (List.drop_eq_getElem_cons (by omega))
      rw [List.set_append_right _ _ (by simp)]
      simp [List.replicate_succ']
      rw [this, List.set_cons_zero]
  rw [this 64 (by omega)]; simp [← h]

/-! Tags and walks. -/

theorem modAst_id {s : State} {t : Nat} {f : Ast → Ast} (h : ∀ a ∈ s.xl.asts, a.tag = t → f a = a) : modAst t f s = s := by
  unfold modAst
  have : s.xl.asts.map (fun a => if a.tag = t then f a else a) = s.xl.asts := by
    conv_rhs => rw [← List.map_id s.xl.asts]
    exact List.map_congr_left (fun a m => by dsimp; split; exact h a m ‹_›; rfl)
  rw [this]
theorem walkRun_read {s : State} {a : Ast} {p : Nat} {w : Bool} {r : List (Nat × Bool)} {d : List (Nat × Bool × PgRes)} {l ad : Nat} (h : pageStep s a p = .read l ad) :
  walkRun s a ((p, w) :: r) d = (d, (p, w) :: r, l, ad) := by simp [walkRun, h]

/-! The management path: a whole request on an idle path (R517, R518). -/

theorem mgPump_idle (n : Nat) {r : State} (h : r.mg.busy = true ∨ r.mg.queue = []) : mgPump n r = r := by
  cases n with
  | zero => rfl
  | succ n => unfold mgPump; rcases h with h | h <;> simp [h]
/-- Firmware of a warden that runs WFW or the recovery image is neither absent nor the ROM. -/
theorem fwWfw_runs {s : State} (h : fwWfw s = true) : s.wd.fw ≠ .nothing ∧ s.wd.fw ≠ .rom := by
  unfold fwWfw at h
  constructor <;> intro e <;> rw [e] at h <;> exact absurd h (by decide)
theorem mgRow_idle {m : Bytes} {s r : State} (h : MgIdle s)
    (e : mgStart ⟨s.mg.peer, s.mg.peerTag, m⟩ { s with mg := { s.mg with queue := [] } } = r) (i : r.mg.busy = true ∨ r.mg.queue = []) : mgRow m s = r := by
  obtain ⟨h1, h2, h3, h4, h5⟩ := h
  have h1 := (fwWfw_runs h1).1
  unfold mgRow mgMessage
  rw [if_neg (by simp [h1, h2]), if_neg (by simp [h5])]
  unfold mgPump; simp only [h4, h5, List.nil_append]
  refine Eq.trans ?_ (mgPump_idle 4 i)
  rw [← e]; simp [h4, h5]
/-- Sending a message leaves the queue of requests (R518). -/
theorem mgSend_queue (d : Bytes) (t : State) : (mgSend d t).mg.queue = t.mg.queue := by
  have e : ∀ (ps : List Bytes) (s : State), (mgTransmit ps s).mg.queue = s.mg.queue := by
    intro ps s
    unfold mgTransmit
    generalize List.range ((ps.length + 47) / 48) = l
    induction l generalizing s with
    | nil => rfl
    | cons a l ih => rw [List.foldl_cons, ih]; rfl
  have o : (mgOut d { t with mg := { t.mg with busy := false } }).mg.queue = t.mg.queue := e _ _
  unfold mgSend
  dsimp only
  split <;> exact o
theorem mgRow_send {m d : Bytes} {s t : State} (h : MgIdle s) (q : t.mg.queue = [])
    (e : mgStart ⟨s.mg.peer, s.mg.peerTag, m⟩ { s with mg := { s.mg with queue := [] } } = mgSend d t) : Host.Outcome.next (mgRow m s) = (.next (mgSend d t) : Res) :=
  congrArg Host.Outcome.next (mgRow_idle h e (.inr ((mgSend_queue d t).trans q)))
theorem field_vendor {op : Nat} (hop : op < 65536) (p : Bytes) : field (mgVendorMsg op p) 3 2 = op := by
  show le [BitVec.ofNat 8 op, BitVec.ofNat 8 (op / 256)] = op
  simp [le]; omega
theorem mgStart_vendor (op : Nat) (hop : op < 65536) (p : Bytes) (s : State) (f : HostCall → State → CmdRes) (hf : mgBody op = some f) (h : s.pkg.st ≠ .retired) (g : s.wd.fw = .rom → mgRomOp op s = true) (a b : Nat) :
    mgStart ⟨a, b, mgVendorMsg op p⟩ s = mgRun op f (mgWith p) { s with mg := { s.mg with busy := true, peer := a, peerTag := b, peerInst := 0x1D } } := by
  have e0 : field (mgVendorMsg op p) 0 1 % 128 = 0x7E := rfl
  have e1 : field (mgVendorMsg op p) 1 1 = 0x1D := rfl
  have e2 : field (mgVendorMsg op p) 2 1 = 0x7B := rfl
  have e3 : field (mgVendorMsg op p) 3 2 = op := by
    exact field_vendor hop p
  have e4 : (mgVendorMsg op p).drop 8 = p := rfl
  have e5 : allZero (slice (mgVendorMsg op p) 5 3) = true := rfl
  have e6 : ¬ (mgVendorMsg op p).length < 8 := by unfold mgVendorMsg; simp [toLe]
  unfold mgStart; dsimp only; rw [e0, e1]; unfold mgVendor; dsimp only
  rw [e1, e2, e3, e4, if_neg (by simpa using e6), if_neg (by simp [h]; intro q; exact g q), if_neg (by simp [e5]), hf]; rfl
theorem mgRun_reply {op : Nat} {f : HostCall → State → CmdRes} {p b : Bytes} {s t u : State} {st d : Nat} {x : Bool} (e : f (mgWith p) u = ⟨t, some (st, d, b), x⟩) (w : stateWord u = stateWord s) :
    mgRun op f (mgWith p) u = mgReplied op s st d b t := by
  unfold mgRun; rw [e]; dsimp only; rw [w]; rfl
theorem mgRun_wait {op : Nat} {f : HostCall → State → CmdRes} {p : Bytes} {t u : State} {x : Bool} (e : f (mgWith p) u = ⟨t, none, x⟩) :
    mgRun op f (mgWith p) u = t := by unfold mgRun; rw [e]
theorem mgReplied_queue (op st d : Nat) (s : State) (b : Bytes) (t : State) : (mgReplied op s st d b t).mg.queue = t.mg.queue := by
  have k : ∀ (p : Bytes) (u : State), (answerBytes (mgWith []) op st p u).mg.queue = u.mg.queue := by
    intro p u
    have e : answerBytes (mgWith []) op st p u = mgSend (vendorRsp op st p) u := by simp [answerBytes, buildRsp, mgWith]
    rw [e]; exact mgSend_queue _ u
  unfold mgReplied answer
  cases hst : decide (st = stOk) <;> cases hn : namesStage op <;> simp only [Bool.false_eq_true, if_false, if_true, k] <;> rfl
theorem mgRow_vendor {op : Nat} {f : HostCall → State → CmdRes} {p b : Bytes} {s t : State} {st d : Nat} {x : Bool} (h : MgIdle s) (hop : op < 65536) (hf : mgBody op = some f)
    (e : f (mgWith p) (mgBegun 0x1D s) = ⟨t, some (st, d, b), x⟩) (q : t.mg.queue = []) : Host.Outcome.next (mgRow (mgVendorMsg op p) s) = (.next (mgReplied op s st d b t) : Res) := by
  refine congrArg Host.Outcome.next (mgRow_idle h ?_ (.inr ((mgReplied_queue op st d s b t).trans q)))
  exact (mgStart_vendor op hop p { s with mg := { s.mg with queue := [] } } f hf h.2.2.1 (fun k => absurd k (fwWfw_runs h.1).2) s.mg.peer s.mg.peerTag).trans (mgRun_reply (u := mgBegun 0x1D s) e rfl)
theorem mgRow_vendor_wait {op : Nat} {f : HostCall → State → CmdRes} {p : Bytes} {s t : State} {x : Bool} (h : MgIdle s) (hop : op < 65536) (hf : mgBody op = some f)
    (e : f (mgWith p) (mgBegun 0x1D s) = ⟨t, none, x⟩) (q : t.mg.busy = true) : Host.Outcome.next (mgRow (mgVendorMsg op p) s) = (.next t : Res) := by
  refine congrArg Host.Outcome.next (mgRow_idle h ?_ (.inl q))
  exact (mgStart_vendor op hop p { s with mg := { s.mg with queue := [] } } f hf h.2.2.1 (fun k => absurd k (fwWfw_runs h.1).2) s.mg.peer s.mg.peerTag).trans (mgRun_wait (u := mgBegun 0x1D s) e)
theorem sized_mg {n : Nat} {f : HostCall → State → CmdRes} {p : Bytes} (h : p.length = n) (s : State) : sized n f (mgWith p) s = f (mgWith p) s := if_pos h

/-! The SPDM responder while it runs (R216). -/

theorem spdmGate_on {code : Nat} {sg : Bool} {s : State} (h : SpdmOn s) : spdmGate code sg s = some none := by
  unfold spdmGate; rcases h.2.2 with h | h | h | h <;> rw [h]
theorem spdmRequest_on {code : Nat} {sg : Bool} {m : SpdmMsg} {f : State → State} {s : State} (h : SpdmOn s) (a : m.secured = false) :
    spdmRequest code m sg f s = f (spdmBegin code m s) := by
  unfold spdmRequest; rw [if_neg (by simp [h.1, h.2.1]), spdmGate_on h]; simp [a]
theorem spdmBegin_plain {code : Nat} {m : SpdmMsg} {s : State} (a : m.secured = false) :
    spdmBegin code m s = { s with sd := { s.sd with busy := true, tok := s.sd.tok + 1, transcript := s.sd.transcript ++ spdmBytes code m } } := by
  unfold spdmBegin; rw [a]

/-! What the shared operations can change: every other field is as it was. -/

theorem sendVec_frame (d v : Nat) (s : State) : ∃ h o, sendVec d v s = { s with hb := { s.hb with fns := h }, outs := o } := by
  unfold sendVec; dsimp only; split
  · exact ⟨s.hb.fns, s.outs, rfl⟩
  · split
    · exact ⟨_, s.outs, rfl⟩
    · exact ⟨s.hb.fns, _, rfl⟩

theorem raiseHost_frame (d b v : Nat) (s : State) : ∃ h o, raiseHost d b v s = { s with hb := { s.hb with fns := h }, outs := o } := by
  unfold raiseHost; dsimp only; split
  · obtain ⟨h, o, e⟩ := sendVec_frame d v (modFn d (fun f => { f with cause := setBit f.cause b true }) s)
    exact ⟨h, o, e.trans rfl⟩
  · exact ⟨_, s.outs, rfl⟩

theorem pldmEvent_frame (n v : Nat) (s : State) : ∃ m o, pldmEvent n v s = { s with mg := m, outs := o } := by
  unfold pldmEvent; dsimp only; split <;> exact ⟨_, _, rfl⟩

theorem logVector_frame (s : State) : ∃ l h o, logVector s = { s with lg := l, hb := { s.hb with fns := h }, outs := o } := by
  unfold logVector; split
  · obtain ⟨h, o, e⟩ := raiseHost_frame 0 2 10 { s with lg := { s.lg with vecSent := true } }
    exact ⟨_, h, o, e⟩
  · exact ⟨s.lg, s.hb.fns, s.outs, rfl⟩

theorem logWith_frame (f c u : Nat) (d : Bytes) (s : State) : ∃ l h o, logWith f c u d s = { s with lg := l, hb := { s.hb with fns := h }, outs := o } := by
  unfold logWith; split
  · exact ⟨_, s.hb.fns, s.outs, rfl⟩
  · exact logVector_frame { s with lg := _ }

theorem logEvent_frame (c u : Nat) (d : Bytes) (s : State) : ∃ l h o, logEvent c u d s = { s with lg := l, hb := { s.hb with fns := h }, outs := o } :=
  logWith_frame 0 c u d s

/-- An event leaves the trace mask. -/
theorem logVector_mask (s : State) : (logVector s).lg.mask = s.lg.mask := by
  unfold logVector; split
  · obtain ⟨h, o, e⟩ := raiseHost_frame 0 2 10 { s with lg := { s.lg with vecSent := true } }
    rw [e]
  · rfl

theorem logEvent_mask (c u : Nat) (d : Bytes) (s : State) : (logEvent c u d s).lg.mask = s.lg.mask := by
  unfold logEvent logWith; split
  · rfl
  · dsimp only; rw [logVector_mask]

theorem trace_frame (p u a b : Nat) (s : State) : ∃ l, trace p u a b s = { s with lg := l } := by
  unfold trace; split <;> exact ⟨_, rfl⟩

theorem announce_frame (s : State) : ∃ h m o, announce s = { s with hb := { s.hb with fns := h }, mg := m, outs := o } := by
  unfold announce
  obtain ⟨_, _, e0⟩ := raiseHost_frame 0 0 0 s; rw [e0]
  obtain ⟨_, _, e1⟩ := raiseHost_frame 1 0 0 _; rw [e1]
  obtain ⟨_, _, e2⟩ := raiseHost_frame 2 0 0 _; rw [e2]
  obtain ⟨_, _, e3⟩ := raiseHost_frame 3 0 0 _; rw [e3]
  obtain ⟨_, _, e4⟩ := pldmEvent_frame 1 (s.pkg.st.code + 1) _; rw [e4]
  exact ⟨_, _, _, rfl⟩

theorem setState_frame (st : PState) (c : Nat) (s : State) : ∃ p l h m o, setState st c s = { s with pkg := p, lg := l, hb := { s.hb with fns := h }, mg := m, outs := o } := by
  unfold setState setStateIn; split
  · exact ⟨s.pkg, s.lg, s.hb.fns, s.mg, s.outs, rfl⟩
  · dsimp only
    obtain ⟨_, _, _, e⟩ := announce_frame { s with pkg := { s.pkg with st := st, mode := s.pkg.mode, qcause := if st = .quarantine then c else 0, seq := s.pkg.seq + 1#16 } }
    rw [e]
    obtain ⟨_, _, _, e1⟩ := logEvent_frame 0x0102 0xFF (toLe 4 (stateWord s) ++ toLe 1 c) _
    rw [e1]; exact ⟨_, _, _, _, _, rfl⟩

theorem releaseReset_frame (u h : Nat) (s : State) : ∃ x p, releaseReset u h s = { s with units := x, pw := p } := by
  unfold releaseReset; dsimp only; split <;> exact ⟨_, _, rfl⟩

@[simp] theorem toLe_length (n v : Nat) : (toLe n v).length = n := by
  induction n generalizing v with
  | zero => rfl
  | succ n ih => simp [toLe, ih]
@[simp] theorem slice_length (b : Bytes) (o n : Nat) : (slice b o n).length = n := by
  simp [slice]
theorem le_toLe (n v : Nat) : le (toLe n v) = v % 256 ^ n := by
  induction n generalizing v with
  | zero => simp [toLe, le, Nat.mod_one]
  | succ n ih =>
    have e : le (toLe (n + 1) v) = v % 256 + 256 * le (toLe n (v / 256)) := by simp [toLe, le]
    rw [e, ih, Nat.pow_succ', Nat.mod_mul]
/-- A field behind a prefix of its offset's length. -/
theorem field_append {a b : Bytes} {o n : Nat} (h : a.length = o) : field (a ++ b) o n = field b 0 n := by
  subst h; simp [field]
/-- A field at the front. -/
theorem field_front {a b : Bytes} {n : Nat} (h : a.length = n) : field (a ++ b) 0 n = le a := by
  subst h; simp [field]

/-- A live job after an update that keeps its ID. -/
theorem jobS_mod {f : Job → Job} (hf : ∀ j, (f j).id = j.id) {s : State} {i : Nat} {j : Job} (h : jobS s i = some j) : jobS (modJob i f s) i = some (f j) := by
  unfold jobS modJob at *; dsimp only
  generalize s.jb.list = l at *
  induction l with
  | nil => simp at h
  | cons a l ih =>
    simp only [List.map_cons, List.find?_cons] at *
    by_cases e : a.id = i
    · simp_all
    · have e2 : (a.id == i) = false := by simpa using e
      rw [if_neg e]
      rw [e2] at h ⊢; simpa using ih h

theorem ldS_modLport {d p : Nat} {f : LPort → LPort} {s : State} (h : d < s.ln.dies.length) :
    nth ({} : LDie) (modLport d p f s).ln.dies d = { nth ({} : LDie) s.ln.dies d with ports := modNth p f (nth ({} : LDie) s.ln.dies d).ports } :=
  nth_modNth_self (α := LDie) {} _ _ _ h

theorem lportS_modLport_ne {d p q : Nat} (f : LPort → LPort) (s : State) (h : q ≠ p) : lportS (modLport d p f s) d q = lportS s d q := by
  unfold lportS
  by_cases e : d < s.ln.dies.length
  · rw [ldS_modLport e]; exact nth_modNth_ne {} f _ (Ne.symm h)
  · have : modNth d (fun (x : LDie) => { x with ports := modNth p f x.ports }) s.ln.dies = s.ln.dies := by
      unfold modNth; rw [List.modify_eq_set_getElem?, List.getElem?_eq_none (by omega)]; rfl
    unfold modLport modLd; dsimp only; rw [this]

theorem lportS_modLport_same {d p : Nat} (f : LPort → LPort) {s : State} (h : d < s.ln.dies.length) (hp : p < (nth ({} : LDie) s.ln.dies d).ports.length) :
    lportS (modLport d p f s) d p = f (lportS s d p) := by
  unfold lportS; rw [ldS_modLport h]; exact nth_modNth_self {} _ f _ hp

theorem crcBit_lt {c : Nat} (h : c < 2 ^ 32) : crcBit c < 2 ^ 32 := by
  unfold crcBit; split
  · exact Nat.xor_lt_two_pow (by omega) (by decide)
  · omega

theorem crc32c_lt (b : Bytes) : crc32c b < 2 ^ 32 := by
  refine Nat.xor_lt_two_pow ?_ (by decide)
  suffices ∀ (b : Bytes) (c : Nat), c < 2 ^ 32 → b.foldl crcByte c < 2 ^ 32 from this b _ (by decide)
  intro b
  induction b with
  | nil => exact fun _ h => h
  | cons x b ih =>
    intro c h; rw [List.foldl_cons]; refine ih _ ?_
    unfold crcByte
    iterate 8 apply crcBit_lt
    exact Nat.xor_lt_two_pow h (by omega)

theorem pqAdd_mg (c : Nat) (p : Purp) (j : List PkJobD) (s : State) : (pqAdd c p j s).mg = s.mg := by
  unfold pqAdd pqDispatch; dsimp only; split
  · rfl
  · split
    · rfl
    · rename_i e _
      cases e.left with
      | nil => rfl
      | cons j l =>
        dsimp only; unfold pqStartJob pkBegin batchStarts; dsimp only; rw [trace_mg]; split <;> rfl
open Sys2Proof in
/-- An MCTP control request of the row's sender on an idle path. -/
theorem mgRow_ctl {cmd : Nat} {b d : Bytes} {s t : State} (h : MgIdle s) (e : mgControl (ctlMsg cmd b) (mgBegun 0x80 s) = mgSend d t) (q : t.mg.queue = []) :
    Host.Outcome.next (mgRow (ctlMsg cmd b) s) = (.next (mgSend d t) : Res) := mgRow_send h q e
open Sys2Proof in
/-- A PLDM request of the row's sender on an idle path. -/
theorem mgRow_pldm {ty cmd : Nat} {b d : Bytes} {s t : State} (h : MgIdle s) (e : mgPldm (pldmMsg ty cmd b) (mgBegun 0x80 s) = mgSend d t) (q : t.mg.queue = []) :
    Host.Outcome.next (mgRow (pldmMsg ty cmd b) s) = (.next (mgSend d t) : Res) := mgRow_send h q e

end Sys2Proof.Machine
end

