-- ==== Sys2Proof/WellFormed.lean ====
section
/-! DEFINITION. Well-formed commands: every operand within the range its field has in the spec. -/

namespace Sys2Proof

/-- A mailbox command's channel (Table 9-9), tag (R222) and payload (R222, R254). -/
def hostOk (c : HostCall) : Bool :=
  decide (c.ch < 8) && decide (1 ≤ c.tag) && decide (c.tag < 2 ^ 32)
    && decide (c.payload.length ≤ if c.sealed then 4034 else 4064)

/-- The operands of a command are in range. -/
def Instr.wf (i : Instr) : Bool :=
  match i with
  | .standbyGood _ => true
  | .standbyLost => true
  | .standbyOvervoltage => true
  | .wardenRstNAssert => true
  | .coreResetRelease => true
  | .sramInitDone => true
  | .pkeBankZeroDone => true
  | .otpAutoload => true
  | .romBoot _ => true
  | .wfwInit _ => true
  | .bringupStart => true
  | .railPowerGood x => decide (x.rail < 3)
  | .unitImageLoad kind x => decide (kind < 3) && x.windowErr.all (fun u => decide (u < 18))
  | .unitReady u gen _ => decide (u < 18) && decide (gen < 256)
  | .unitReadyTimeout u => decide (u < 18)
  | .stackTrainingDone t => decide (t < 8)
  | .stackTrainingTimeout t => decide (t < 8)
  | .mainInputGood => true
  | .mainInputLost => true
  | .mainOvervoltage => true
  | .refclkPcieLoss => true
  | .refclkLinkLoss => true
  | .quarantineClearDone => true
  | .lockstepMismatch => true
  | .sramUncorrectableError _ => true
  | .wdSwrstWrite _ => true
  | .watchdogKick _ => true
  | .watchdogStage1 => true
  | .watchdogStage2 => true
  | .timerCompare => true
  | .hbTickIncrement => true
  | .registerWrite _ _ => true
  | .fabricWindowAccess u _ _ _ _ => decide (u < 18)
  | .fabricWindowTimeout => true
  | .imbCommandDoorbell u frame => decide (u < 18) && decide (frame.length ≤ 928)
  | .imbResponse u gen frame => decide (u < 18) && decide (gen < 256) && decide (frame.length ≤ 928)
  | .imbRspClear u => decide (u < 18)
  | .unitEvent u gen payload => decide (u < 18) && decide (gen < 256) && decide (payload.length ≤ 864)
  | .unitHeartbeat u => decide (u < 18)
  | .heartbeatLimit u => decide (u < 18)
  | .sqStart => true
  | .sqAbort => true
  | .sqNop => true
  | .sqEnd => true
  | .sqSkip => true
  | .sqDelay => true
  | .sqDelayExpiry => true
  | .sqSetarg => true
  | .sqSetflag => true
  | .sqIrq => true
  | .sqJoin => true
  | .sqClear => true
  | .sqVerify => true
  | .unitOpComplete u _ _ => decide (u < 18)
  | .sqKpush _ => true
  | .sqKpzero => true
  | .sqKszero => true
  | .sqDigest _ => true
  | .sqReset hlres => decide (hlres < 32)
  | .sqClock => true
  | .sqRail => true
  | .sqIllegalStep => true
  | .sqStepTimeout => true
  | .wdClkstopWrite tiles => decide (tiles < 256)
  | .clkstopConfirmTimeout => true
  | .otRead => true
  | .otProg => true
  | .otGen => true
  | .otIncrTo _ _ => true
  | .otRevoke _ => true
  | .otLcAdvance _ => true
  | .otRepair => true
  | .otIllegalCmd _ => true
  | .otCmdComplete _ => true
  | .dgStart => true
  | .dgDataWrite _ => true
  | .dgBlockAbsorbed => true
  | .dgFinish => true
  | .dgOuterPassDone => true
  | .dgClear => true
  | .dgRootkdf => true
  | .ksGen slot => decide (slot < 256)
  | .ksUnwrap slot _ => decide (slot < 256)
  | .ksZero slot _ => decide (slot < 256)
  | .ksZeroAll _ => true
  | .ksSetuse slot => decide (slot < 256)
  | .ksLock slot => decide (slot < 256)
  | .ksLoad slot => decide (slot < 256)
  | .ksRecheck => true
  | .kcvRecheckPass _ => true
  | .pkStart _ => true
  | .pkeJobComplete _ => true
  | .msExtend slot => decide (slot < 256)
  | .msLock slot => decide (slot < 256)
  | .msTzero => true
  | .unitRestartReload u _ => decide (u < 18)
  | .trialHealthCheck _ => true
  | .perstNAssert d => decide (d < 4)
  | .perstNDeassert d => decide (d < 4)
  | .functionLevelReset d => decide (d < 4)
  | .dataLinkLayerDown d => decide (d < 4)
  | .linkUp x => decide (x.d < 4) && decide (x.gen < 6) && decide (x.width ∈ Config.linkWidths)
  | .d3hotEntry d => decide (d < 4)
  | .d0Entry d => decide (d < 4)
  | .msixUnmask d vector => decide (d < 4) && decide (vector < 64)
  | .mbxBufferWrite ch _ _ => decide (ch < 8)
  | .mbxDoorbell ch _ => decide (ch < 8)
  | .mbxRspAck ch => decide (ch < 8)
  | .hmbTake ch => decide (ch < 8)
  | .hmbMoveDone ch => decide (ch < 8)
  | .jobDuplicateRelease ch => decide (ch < 8)
  | .hmbPost ch => decide (ch < 8)
  | .hmbClrrsp ch => decide (ch < 8)
  | .featureOffer c => hostOk c
  | .featureAccept c => hostOk c
  | .modeSet c => hostOk c
  | .channelReset c => hostOk c
  | .resultRead c => hostOk c
  | .resultRelease c => hostOk c
  | .stagePut c => hostOk c
  | .stageClear c => hostOk c
  | .attReport c => hostOk c
  | .attCerts c => hostOk c
  | .attMeasLog c => hostOk c
  | .attEphemeral c => hostOk c
  | .tenantEnroll c => hostOk c
  | .tenantStage c => hostOk c
  | .tenantLoad c => hostOk c
  | .loadingUnitAck u => decide (u < 18)
  | .loadingAckTimeout => true
  | .loadingSelftestPass => true
  | .tenantEvict c => hostOk c
  | .tenantRevoke c => hostOk c
  | .tenantStatus c => hostOk c
  | .tenantList c => hostOk c
  | .tenantClearReceipt c => hostOk c
  | .switchHaltDone => true
  | .switchHaltTimeout => true
  | .flashWriteDone _ => true
  | .wpkOpen c => hostOk c
  | .keyRelease c => hostOk c
  | .keyReleaseSet c => hostOk c
  | .wpkLoad c => hostOk c
  | .wpkPageFold _ => true
  | .wpkFinish c => hostOk c
  | .wpkStatus c => hostOk c
  | .wpkClose c => hostOk c
  | .progLoad c => hostOk c
  | .jobSubmit c => hostOk c
  | .jobCancel c => hostOk c
  | .jobStatus c => hostOk c
  | .rcptFlush c => hostOk c
  | .astCreate c => hostOk c
  | .astDestroy c => hostOk c
  | .astInvalidate c => hostOk c
  | .prefetch c => hostOk c
  | .advise c => hostOk c
  | .faultResume c => hostOk c
  | .mirrorSet c => hostOk c
  | .regionSet c => hostOk c
  | .linkStatus c => hostOk c
  | .linkKeyx c => hostOk c
  | .linkJobEnd c => hostOk c
  | .linkBounds c => hostOk c
  | .linkClear c => hostOk c
  | .pwrStatus c => hostOk c
  | .pwrCapSet c => hostOk c
  | .limitTighten c => hostOk c
  | .unitStatus c => hostOk c
  | .memTelem c => hostOk c
  | .perfRead c => hostOk c
  | .powerDown c => hostOk c
  | .telemThresh c => hostOk c
  | .irqQuant c => hostOk c
  | .updStatus c => hostOk c
  | .updBegin c => hostOk c
  | .updData c => hostOk c
  | .updEnd c => hostOk c
  | .updVerify c => hostOk c
  | .updActivate c => hostOk c
  | .updCancel c => hostOk c
  | .logRead c => hostOk c
  | .logConfig c => hostOk c
  | .traceConfig c => hostOk c
  | .traceRead c => hostOk c
  | .rcptBatch c => hostOk c
  | .svcNonce c => hostOk c
  | .lcAdvance c => hostOk c
  | .vkeyRevoke c => hostOk c
  | .svcQuarantine c => hostOk c
  | .wardenReset c => hostOk c
  | .mgKeepalive body => decide (body.length ≤ 4096)
  | .mgCapSet body => decide (body.length ≤ 4096)
  | .mgHold body => decide (body.length ≤ 4096)
  | .mgDaddrSet body => decide (body.length ≤ 4096)
  | .mgRakSet body => decide (body.length ≤ 4096)
  | .mgCsr body => decide (body.length ≤ 4096)
  | .mgCertWrite body => decide (body.length ≤ 4096)
  | .mgSetkey body => decide (body.length ≤ 4096)
  | .mgRequest body => decide (body.length ≤ 4096)
  | .mgProvision body => decide (body.length ≤ 4096)
  | .tileEnter t => decide (t < 8)
  | .progInstall t _ => decide (t < 8)
  | .jobEnqueue t _ => decide (t < 8)
  | .jobAbort t _ _ => decide (t < 8)
  | .selftest t _ => decide (t < 8)
  | .tileStatus t => decide (t < 8)
  | .progCopy _ _ _ _ => true
  | .portEnter u => decide (u < 18)
  | .linkCfg u _ _ => decide (u < 18)
  | .linkTrain u _ => decide (u < 18)
  | .linkQuery u => decide (u < 18)
  | .jobStart _ => true
  | .residueCheckFail t _ _ => decide (t < 8)
  | .residueAlarm t => decide (t < 8)
  | .eccUncorrectable t _ _ _ _ => decide (t < 8)
  | .jobFinal _ _ => true
  | .completionRingRoom _ _ => true
  | .completionQuantGrid => true
  | .tagFailure t _ _ => decide (t < 8)
  | .stackLineAccess t _ _ => decide (t < 8)
  | .stackTempThreshold t _ => decide (t < 8)
  | .spillPageRead page _ => decide (page < 2 ^ 36)
  | .spillFetchDone page _ => decide (page < 2 ^ 36)
  | .dmaDescriptorStart d stream _ => decide (d < 4) && decide (stream < 64)
  | .inboundRecord d a i _ => decide (d < 4) && decide (a < 64) && decide (i < 262144)
  | .outboundRecord d a i _ => decide (d < 4) && decide (a < 64) && decide (i < 262144)
  | .apertureQuiesceTimeout d a => decide (d < 4) && decide (a < 64)
  | .apDescriptorWrite a _ _ => decide (a < 64)
  | .digestLaneResult _ _ _ => true
  | .rcptBatchTimeout => true
  | .invLaneDoorbell lane _ => decide (lane < 64)
  | .invalidationComplete _ => true
  | .tableReadDone _ _ => true
  | .tableReadTimeout _ => true
  | .walkBudgetExpiry _ => true
  | .faultBatchWindow => true
  | .faultRingTailWrite _ => true
  | .migrationPageLanded _ page => decide (page < 2 ^ 36)
  | .migrationAbandon _ page => decide (page < 2 ^ 36)
  | .pageRelease _ page => decide (page < 2 ^ 36)
  | .linkSignalDetect u p => decide (u < 18) && decide (p < 12)
  | .linkHelloComplete u p _ _ => decide (u < 18) && decide (p < 12)
  | .linkTrainingFail u p => decide (u < 18) && decide (p < 12)
  | .linkSignalLost u p => decide (u < 18) && decide (p < 12)
  | .linkHoldExpiry u p => decide (u < 18) && decide (p < 12)
  | .flitReceived u p flit => decide (u < 18) && decide (p < 12) && decide (flit.length = 256)
  | .linkMessageSend _ => true
  | .flitAckTimeout u p => decide (u < 18) && decide (p < 12)
  | .linkUncorrLimit u p => decide (u < 18) && decide (p < 12)
  | .linkDegraded u p => decide (u < 18) && decide (p < 12)
  | .linkDegradedTimeout u p => decide (u < 18) && decide (p < 12)
  | .linkRetrainWrite u p => decide (u < 18) && decide (p < 12)
  | .keyxPendingTimeout _ => true
  | .tjShutdownTrip t => decide (t < 8)
  | .vcoreCeilingTrip t => decide (t < 8)
  | .sensorMismatch t => decide (t < 8)
  | .throttleConversion t _ => decide (t < 8)
  | .throttleReleaseStep t => decide (t < 8)
  | .avsLoopStep t _ _ => decide (t < 8)
  | .droopEvent t => decide (t < 8)
  | .brakeNAssert => true
  | .brakeNDeassert => true
  | .brakeRampStep => true
  | .powerCapLoop => true
  | .thermalLoop => true
  | .telemetryUpdate => true
  | .persistentLogFlush => true
  | .doeObject _ => true
  | .doeAbort => true
  | .getVersion _ => true
  | .getCapabilities _ => true
  | .negotiateAlgorithms _ => true
  | .getDigests _ => true
  | .getCertificate _ => true
  | .challenge _ => true
  | .getMeasurements _ => true
  | .keyExchange _ => true
  | .finish _ => true
  | .endSession _ => true
  | .spdmUnsupportedRequest x => decide (x.code < 256)
  | .i3cAddressAssign _ => true
  | .mctpPacketRx pkt => decide (pkt.length ≤ 73)
  | .mctpReassemblyTimeout => true
  | .wdMgTxgoWrite _ => true
  | .setEndpointId body => decide (body.length ≤ 4096)
  | .getEndpointId body => decide (body.length ≤ 4096)
  | .getEndpointUuid body => decide (body.length ≤ 4096)
  | .getMctpVersionSupport body => decide (body.length ≤ 4096)
  | .getMessageTypeSupport body => decide (body.length ≤ 4096)
  | .getVendorMessageSupport body => decide (body.length ≤ 4096)
  | .getTid body => decide (body.length ≤ 4096)
  | .setTid body => decide (body.length ≤ 4096)
  | .getPldmVersion body => decide (body.length ≤ 4096)
  | .getPldmTypes body => decide (body.length ≤ 4096)
  | .getPldmCommands body => decide (body.length ≤ 4096)
  | .getPdrRepositoryInfo body => decide (body.length ≤ 4096)
  | .getPdr body => decide (body.length ≤ 4096)
  | .getSensorReading body => decide (body.length ≤ 4096)
  | .getStateSensorReadings body => decide (body.length ≤ 4096)
  | .setNumericEffecterValue body => decide (body.length ≤ 4096)
  | .setStateEffecterStates body => decide (body.length ≤ 4096)
  | .setEventReceiver body => decide (body.length ≤ 4096)
  | .pollPlatformEventMessage body => decide (body.length ≤ 4096)
  | .platformEventResend => true
  | .requestUpdate body => decide (body.length ≤ 4096)
  | .passComponentTable body => decide (body.length ≤ 4096)
  | .updateComponent body => decide (body.length ≤ 4096)
  | .firmwareDataResponse body => decide (body.length ≤ 4096)
  | .activateFirmware body => decide (body.length ≤ 4096)
  | .cancelUpdateComponent body => decide (body.length ≤ 4096)
  | .cancelUpdate body => decide (body.length ≤ 4096)
  | .getStatus body => decide (body.length ≤ 4096)
  | .orphanTimerExpiry => true
  | .bbcShelfEvent shelves => decide (shelves ≤ 8)
  | .bbcHoldExpiry => true
  | .rmBrakeRelease => true
  | .pumpLoss pumps => decide (pumps ≤ 4)
  | .rmFailover => true
  | .ksCmdComplete => true
  | .msCmdComplete => true
  | .spiFlashOpDone _ => true
  | .standbyProgWindowExit => true
  | .wardenRstNDeassert => true
  | .powerMonitorSample _ => true
  | .linkDegradedRecovery u p => decide (u < 18) && decide (p < 12)
  | .drbgHealthFailure => true
  | .hbFrCtrlWrite _ => true
  | .pumpRestored pumps => decide (pumps ≤ 4)
  | .shelfRestored shelves => decide (shelves ≤ 8)

end Sys2Proof
end

