-- ==== Sys2Proof/Tests/Slice0.lean ====
section
/-! SUPPORT. The model's own tests: well-formedness, worked cases of the spec, and states that meet the hypotheses of
every statement. -/

open Sys2Proof Sys2Proof.Machine

namespace Sys2Proof.Tests

/-- The state after reset. -/
def tR : State := State.reset
/-- A unit that is up and runs. -/
def tU : UnitS := { inReset := false, ustate := .up, go := true, irqEn := true, hbIrqEn := true }
/-- Warden firmware runs on a MISSION M8 with every rail good, every unit up, mode OPEN and every feature accepted. -/
def tRun (st : PState) : State := {
  pkg := { st := st, mode := .opened, mainOk := true, portEn := true, tileEn := true, memEn := true, portPg := true, tilePg := true, memPg := true }
  wd := { coreRun := true, fw := .wfw, sramReady := true, wdtEn := true, wdtS1 := true, wdtLock := true }
  units := List.replicate 18 tU
  otp := { busy := false, loaded := true, lc := 2, asm := 1, root := 2 }
  pk := { zeroing := false }
  boot := { inited := true }
  hb := { fns := List.replicate 4 { up := true, ltEn := true }, offer := 0x3FF, accept := 0x3FF } }
/-- In IDLE. -/
def tI : State := tRun .idle
/-- In ACTIVE, with a tenant resident at index 0. -/
def tRec : TRec := ⟨9, .staged, 0, 0, [], [], []⟩
/-- One tenant record. -/
def ten (s : State) : State := { s with tn := { s.tn with ro := { opened := true, hdr := .committed, recs := [if s.pkg.st = .idle then tRec else { tRec with state := .resident }] } } }
/-- In ACTIVE. -/
def tA : State := tRun .active
/-- The ROM runs after the auto-load. -/
def tRom : State := { wd := { coreRun := true, fw := .rom, sramReady := true }, otp := { busy := false, loaded := true, lc := 2, asm := 1 } }
/-- The sequencer at one step. -/
def stp (op a b c : Nat) (s : State) : State := { s with sq := { s.sq with busy := true, ram := [(0, mkStep op a b c)] } }
/-- Unit `u` as `x`. -/
def upd (u : Nat) (x : UnitS) (s : State) : State := { s with units := s.units.set u x }
/-- Channel 0 as `x`. -/
def chn (x : Chan) (s : State) : State := { s with mb := { s.mb with chans := x :: List.replicate 7 {} } }
/-- Aperture 0 of port die 0 as `x`, with its key. -/
def apn (x : Aper) (s : State) : State :=
  { upd 8 { tU with ports := [⟨0, []⟩] } s with px := { aps := x :: List.replicate 63 {} } :: List.replicate 3 {} }
/-- A plaintext command on channel 0. -/
def call (p : Bytes) : HostCall := ⟨0, 1, false, p⟩
/-- `l` with zeros up to `n` bytes. -/
def pay (n : Nat) (l : Bytes) : Bytes := l ++ List.replicate (n - l.length) 0#8
/-- A stage reference to the empty stage. -/
def sref : Bytes := List.replicate 8 0#8 ++ (List.range 16).map (Config.hashByte 0 [])
/-- Channel 0 owns the empty stage. -/
def stg (s : State) : State := { s with mb := { s.mb with stageOwner := some 0 } }
/-- LOADING in a phase, units waiting. -/
def tL (p : LdPhase) (w : List Nat) : State := { tRun .loading with tn := { ld := { phase := p, waiting := w } } }
/-- A job on tile 0. -/
def tJob (st : JState) : Job := {
  id := 7, ch := 0, ast := 3, phandle := 1, receipt := false, tiles := 1, vector := 0, inVa := 0, inLen := 65536, outVa := 0, outLen := 1, wsVa := 0,
  wsLen := 0, args := [], st := st, status := 0, detail := 0, order := 1, die := 0, stream := 0, park := .none, batches := [], stale := false, exts := [],
  handle := 0, prog := [], wroot := [], meas := [], inDigs := [], outDigs := [], retry := false, ovf := false, spill := false, written := 0,
  ending := false, rcptSeq := 0, record := [] }
/-- A program. -/
def tProg : Prog := ⟨1, [1#8], 1, 0, [], 128⟩
/-- A tag without a ring. -/
def tAst : Ast := ⟨3, 65536, 0, 0, 0, none, 0, [], [], 0, 0, [], []⟩
/-- A handle of two pages. -/
def tWpk (w : WState) : Wpk := ⟨1, [], [], [], [], [], 0, w, 2, 100000, 0, 3, 0, 0, 131072, 0, [], false, []⟩
/-- The handle is open. -/
def wp (w : WState) (s : State) : State := { s with wk := { hs := [tWpk w] } }
/-- An invalidation that waits for nothing. -/
def tInv (lane : Option Nat) (c : Option (HostCall × Nat)) : Inval := ⟨1, lane, c, 3, true, 0, 0, [], [], [], 0⟩
/-- A walk. -/
def tWalk (f : WalkFor) (todo : List (Nat × Bool)) : Walk := ⟨1, 3, f, 0, todo, todo, [], 3, 65536, false⟩
/-- The walk runs for tag 3. -/
def wlk (w : Walk) (s : State) : State := { s with xl := { s.xl with asts := [tAst], walks := [w] } }
/-- A PKE ready for a modular addition. -/
def tPk : State := { tI with pk := { tI.pk with op := 1, nw := 4 } }
/-- In IDLE, one record in state `x`. -/
def rec1 (x : RState) : State := { tI with tn := { tI.tn with ro := { opened := true, hdr := .committed, recs := [{ tRec with state := x }] } } }
/-- SPDM is negotiated, and the ECDSA leaf of the identity is written. -/
def tCert : State := { tI with
  sd := { tI.sd with stage := 3 }
  idn := { tI.idn with ident := some ([], []), certs := [(0, (2, Config.sha384 [], [1#8]))] } }
/-- Unit `u` holds the command `op` with payload `p` in its inbox, and its doorbell is rung. -/
def tCmd (u op : Nat) (p : Bytes) (s : State) : State := upd u { tU with inbox := unitFrame op 1 0 p, rung := true } s
theorem tTakes {s : State} {u op : Nat} {p : Bytes} (h : unitRung s u op = true) (h1 : field (unitS s u).inbox 3 1 = (unitS s u).gen.toNat)
    (h2 : slice (unitS s u).inbox 16 16 = (Config.sha384 (slice (unitS s u).inbox 32 (field (unitS s u).inbox 8 4))).take 16)
    (h3 : slice (unitS s u).inbox 32 (field (unitS s u).inbox 8 4) = p) : unitTakes s u op = some p := by
  have k : inboxOk s u = true := by unfold inboxOk; simp only [h1, h2, beq_self_eq_true, Bool.and_self]
  unfold unitTakes; simp only [h, k, h3, Bool.and_self, if_true]
theorem tLive (i : Nat) : (slotS tI i).dead = false := by
  show (nth ({} : Slot) (List.replicate 64 {}) i).dead = false
  simp only [nth, List.getD_eq_getElem?_getD, List.getElem?_replicate]; split <;> rfl
/-- Channel 0 owns a stage of `n` bytes that begins with `b`. -/
def stB (n : Nat) (b : Bytes) (s : State) : State :=
  { s with mb := { s.mb with stageOwner := some 0, stage := cellPuts 0#8 0 b [], stageHigh := n } }
/-- The stage reference to that stage. -/
def srefB (n : Nat) (b : Bytes) : Bytes := toLe 8 n ++ (Config.sha384 (cellGets 0#8 0 n (cellPuts 0#8 0 b []))).take 16
/-- The head of a tenant statement of operation 2 for tenant 9. -/
def tStmt : Bytes := toLe 4 0x524E4554 ++ toLe 2 1 ++ toLe 2 2 ++ toLe 8 9
theorem tStageOk {c : HostCall} {off : Nat} {s : State} (n : Nat) (h : (c.ch == mgCh || s.mb.stageOwner == some c.ch) = true)
    (hl : (stageBytes c s).length = n) (h1 : field c.payload off 4 = n)
    (h2 : slice c.payload (off + 8) 16 = (Config.sha384 (stageBytes c s)).take 16) : stageOk c off s = true := by
  unfold stageOk; simp only [h, hl, h1, h2, beq_self_eq_true, Bool.and_self]
theorem tNoAp (d a : Nat) : (apS tI d a).valid = false := by
  have h1 : pxS tI d = {} := by
    simp only [pxS, tI, tRun, nth, List.getD_eq_getElem?_getD, List.getElem?_replicate]; split <;> rfl
  rw [apS, h1]
  simp only [nth, List.getD_eq_getElem?_getD, List.getElem?_replicate]; split <;> rfl
theorem tChain : spdmChain tCert = some (toLe 2 53 ++ toLe 2 0 ++ slice (Config.std 16 [[1#8]]) 0 48 ++ [1#8]) := by
  simp [spdmChain, certOf, tCert, lookupNat, lcOf, tI, tRun, identQ]

/-- A mailbox command whose channel, tag or payload is out of range is ill-formed. -/
theorem test_hostOk_refuses : hostOk { ch := 8, tag := 1, payload := [], sealed := false } = false ∧ hostOk { ch := 0, tag := 0, payload := [], sealed := false } = false ∧
    hostOk { ch := 0, tag := 2 ^ 32, payload := [], sealed := false } = false ∧ hostOk { ch := 0, tag := 1, payload := List.replicate 4065 0, sealed := false } = false ∧
    hostOk { ch := 0, tag := 1, payload := List.replicate 4035 0, sealed := true } = false ∧ hostOk { ch := 7, tag := 1, payload := [], sealed := true } = true := by
  simp only [hostOk, List.length_replicate]; decide

/-- Every mailbox row is held to `hostOk`. -/
theorem test_wf_host (c : HostCall) : (Instr.featureOffer c).wf = hostOk c ∧
    (Instr.featureAccept c).wf = hostOk c ∧
    (Instr.modeSet c).wf = hostOk c ∧
    (Instr.channelReset c).wf = hostOk c ∧
    (Instr.resultRead c).wf = hostOk c ∧
    (Instr.resultRelease c).wf = hostOk c ∧
    (Instr.stagePut c).wf = hostOk c ∧
    (Instr.stageClear c).wf = hostOk c ∧
    (Instr.attReport c).wf = hostOk c ∧
    (Instr.attCerts c).wf = hostOk c ∧
    (Instr.attMeasLog c).wf = hostOk c ∧
    (Instr.attEphemeral c).wf = hostOk c ∧
    (Instr.tenantEnroll c).wf = hostOk c ∧
    (Instr.tenantStage c).wf = hostOk c ∧
    (Instr.tenantLoad c).wf = hostOk c ∧
    (Instr.tenantEvict c).wf = hostOk c ∧
    (Instr.tenantRevoke c).wf = hostOk c ∧
    (Instr.tenantStatus c).wf = hostOk c ∧
    (Instr.tenantList c).wf = hostOk c ∧
    (Instr.tenantClearReceipt c).wf = hostOk c ∧
    (Instr.wpkOpen c).wf = hostOk c ∧
    (Instr.keyRelease c).wf = hostOk c ∧
    (Instr.keyReleaseSet c).wf = hostOk c ∧
    (Instr.wpkLoad c).wf = hostOk c ∧
    (Instr.wpkFinish c).wf = hostOk c ∧
    (Instr.wpkStatus c).wf = hostOk c ∧
    (Instr.wpkClose c).wf = hostOk c ∧
    (Instr.progLoad c).wf = hostOk c ∧
    (Instr.jobSubmit c).wf = hostOk c ∧
    (Instr.jobCancel c).wf = hostOk c ∧
    (Instr.jobStatus c).wf = hostOk c ∧
    (Instr.rcptFlush c).wf = hostOk c ∧
    (Instr.astCreate c).wf = hostOk c ∧
    (Instr.astDestroy c).wf = hostOk c ∧
    (Instr.astInvalidate c).wf = hostOk c ∧
    (Instr.prefetch c).wf = hostOk c ∧
    (Instr.advise c).wf = hostOk c ∧
    (Instr.faultResume c).wf = hostOk c ∧
    (Instr.mirrorSet c).wf = hostOk c ∧
    (Instr.regionSet c).wf = hostOk c ∧
    (Instr.linkStatus c).wf = hostOk c ∧
    (Instr.linkKeyx c).wf = hostOk c ∧
    (Instr.linkJobEnd c).wf = hostOk c ∧
    (Instr.linkBounds c).wf = hostOk c ∧
    (Instr.linkClear c).wf = hostOk c ∧
    (Instr.pwrStatus c).wf = hostOk c ∧
    (Instr.pwrCapSet c).wf = hostOk c ∧
    (Instr.limitTighten c).wf = hostOk c ∧
    (Instr.unitStatus c).wf = hostOk c ∧
    (Instr.memTelem c).wf = hostOk c ∧
    (Instr.perfRead c).wf = hostOk c ∧
    (Instr.powerDown c).wf = hostOk c ∧
    (Instr.telemThresh c).wf = hostOk c ∧
    (Instr.irqQuant c).wf = hostOk c ∧
    (Instr.updStatus c).wf = hostOk c ∧
    (Instr.updBegin c).wf = hostOk c ∧
    (Instr.updData c).wf = hostOk c ∧
    (Instr.updEnd c).wf = hostOk c ∧
    (Instr.updVerify c).wf = hostOk c ∧
    (Instr.updActivate c).wf = hostOk c ∧
    (Instr.updCancel c).wf = hostOk c ∧
    (Instr.logRead c).wf = hostOk c ∧
    (Instr.logConfig c).wf = hostOk c ∧
    (Instr.traceConfig c).wf = hostOk c ∧
    (Instr.traceRead c).wf = hostOk c ∧
    (Instr.rcptBatch c).wf = hostOk c ∧
    (Instr.svcNonce c).wf = hostOk c ∧
    (Instr.lcAdvance c).wf = hostOk c ∧
    (Instr.vkeyRevoke c).wf = hostOk c ∧
    (Instr.svcQuarantine c).wf = hostOk c ∧
    (Instr.wardenReset c).wf = hostOk c :=
  ⟨rfl, rfl, rfl, rfl, rfl, rfl, rfl, rfl, rfl, rfl, rfl, rfl, rfl, rfl, rfl, rfl, rfl, rfl, rfl, rfl, rfl, rfl, rfl, rfl, rfl, rfl, rfl, rfl, rfl, rfl, rfl, rfl, rfl, rfl, rfl, rfl, rfl, rfl, rfl, rfl, rfl, rfl, rfl, rfl, rfl, rfl, rfl, rfl, rfl, rfl, rfl, rfl, rfl, rfl, rfl, rfl, rfl, rfl, rfl, rfl, rfl, rfl, rfl, rfl, rfl, rfl, rfl, rfl, rfl, rfl, rfl⟩

/-- An operand out of its range makes the command ill-formed. -/
theorem test_wf_refuses_1 :
    (∀ v0, (Instr.railPowerGood ⟨3, v0⟩).wf = false) ∧
    (∀ v0, (Instr.unitImageLoad 3 v0).wf = false) ∧
    (∀ v0 v1, (Instr.unitReady 18 v0 v1).wf = false) ∧
    (∀ v0 v1, (Instr.unitReady v0 256 v1).wf = false) ∧
    (Instr.unitReadyTimeout 18).wf = false ∧
    (Instr.stackTrainingDone 8).wf = false ∧
    (Instr.stackTrainingTimeout 8).wf = false ∧
    (∀ v0 v1 v2 v3, (Instr.fabricWindowAccess 18 v0 v1 v2 v3).wf = false) ∧
    (∀ v0, (Instr.imbCommandDoorbell 18 v0).wf = false) ∧
    (∀ v0, (Instr.imbCommandDoorbell v0 (List.replicate 929 0)).wf = false) ∧
    (∀ v0 v1, (Instr.imbResponse 18 v0 v1).wf = false) ∧
    (∀ v0 v1, (Instr.imbResponse v0 256 v1).wf = false) ∧
    (∀ v0 v1, (Instr.imbResponse v0 v1 (List.replicate 929 0)).wf = false) ∧
    (Instr.imbRspClear 18).wf = false ∧
    (∀ v0 v1, (Instr.unitEvent 18 v0 v1).wf = false) ∧
    (∀ v0 v1, (Instr.unitEvent v0 256 v1).wf = false) ∧
    (∀ v0 v1, (Instr.unitEvent v0 v1 (List.replicate 865 0)).wf = false) ∧
    (Instr.unitHeartbeat 18).wf = false ∧
    (Instr.heartbeatLimit 18).wf = false ∧
    (∀ v0 v1, (Instr.unitOpComplete 18 v0 v1).wf = false) ∧
    (Instr.sqReset 32).wf = false ∧
    (Instr.wdClkstopWrite 256).wf = false ∧
    (Instr.ksGen 256).wf = false ∧
    (∀ v0, (Instr.ksUnwrap 256 v0).wf = false) ∧
    (∀ v0, (Instr.ksZero 256 v0).wf = false) ∧
    (Instr.ksSetuse 256).wf = false ∧
    (Instr.ksLock 256).wf = false ∧
    (Instr.ksLoad 256).wf = false ∧
    (Instr.msExtend 256).wf = false ∧
    (Instr.msLock 256).wf = false ∧
    (∀ v0, (Instr.unitRestartReload 18 v0).wf = false) ∧
    (Instr.perstNAssert 4).wf = false ∧
    (Instr.perstNDeassert 4).wf = false ∧
    (Instr.functionLevelReset 4).wf = false ∧
    (Instr.dataLinkLayerDown 4).wf = false ∧
    (∀ v0 v1, (Instr.linkUp ⟨4, v0, v1⟩).wf = false) ∧
    (Instr.d3hotEntry 4).wf = false ∧
    (Instr.d0Entry 4).wf = false ∧
    (∀ v0, (Instr.msixUnmask 4 v0).wf = false) ∧
    (∀ v0, (Instr.msixUnmask v0 64).wf = false) ∧
    (∀ v0 v1, (Instr.mbxBufferWrite 8 v0 v1).wf = false) ∧
    (∀ v0, (Instr.mbxDoorbell 8 v0).wf = false) ∧
    (Instr.mbxRspAck 8).wf = false ∧
    (Instr.hmbTake 8).wf = false ∧
    (Instr.hmbMoveDone 8).wf = false ∧
    (Instr.jobDuplicateRelease 8).wf = false ∧
    (Instr.hmbPost 8).wf = false ∧
    (Instr.hmbClrrsp 8).wf = false ∧
    (Instr.loadingUnitAck 18).wf = false ∧
    (Instr.mgKeepalive (List.replicate 4097 0)).wf = false ∧
    (Instr.mgCapSet (List.replicate 4097 0)).wf = false ∧
    (Instr.mgHold (List.replicate 4097 0)).wf = false ∧
    (Instr.mgDaddrSet (List.replicate 4097 0)).wf = false ∧
    (Instr.mgRakSet (List.replicate 4097 0)).wf = false ∧
    (Instr.mgCsr (List.replicate 4097 0)).wf = false ∧
    (Instr.mgCertWrite (List.replicate 4097 0)).wf = false ∧
    (Instr.mgSetkey (List.replicate 4097 0)).wf = false ∧
    (Instr.mgRequest (List.replicate 4097 0)).wf = false ∧
    (Instr.mgProvision (List.replicate 4097 0)).wf = false ∧
    (Instr.tileEnter 8).wf = false := by
  refine ⟨?_, ?_, ?_, ?_, ?_, ?_, ?_, ?_, ?_, ?_, ?_, ?_, ?_, ?_, ?_, ?_, ?_, ?_, ?_, ?_, ?_, ?_, ?_, ?_, ?_, ?_, ?_, ?_, ?_, ?_, ?_, ?_, ?_, ?_, ?_, ?_, ?_, ?_, ?_, ?_, ?_, ?_, ?_, ?_, ?_, ?_, ?_, ?_, ?_, ?_, ?_, ?_, ?_, ?_, ?_, ?_, ?_, ?_, ?_, ?_⟩ <;> intros <;> simp only [Instr.wf, List.length_replicate] <;> simp

/-- An operand out of its range makes the command ill-formed. -/
theorem test_wf_refuses_2 :
    (∀ v0, (Instr.progInstall 8 v0).wf = false) ∧
    (∀ v0, (Instr.jobEnqueue 8 v0).wf = false) ∧
    (∀ v0 v1, (Instr.jobAbort 8 v0 v1).wf = false) ∧
    (∀ v0, (Instr.selftest 8 v0).wf = false) ∧
    (Instr.tileStatus 8).wf = false ∧
    (Instr.portEnter 18).wf = false ∧
    (∀ v0 v1, (Instr.linkCfg 18 v0 v1).wf = false) ∧
    (∀ v0, (Instr.linkTrain 18 v0).wf = false) ∧
    (Instr.linkQuery 18).wf = false ∧
    (∀ v0 v1, (Instr.residueCheckFail 8 v0 v1).wf = false) ∧
    (Instr.residueAlarm 8).wf = false ∧
    (∀ v0 v1 v2 v3, (Instr.eccUncorrectable 8 v0 v1 v2 v3).wf = false) ∧
    (∀ v0 v1, (Instr.tagFailure 8 v0 v1).wf = false) ∧
    (∀ v0 v1, (Instr.stackLineAccess 8 v0 v1).wf = false) ∧
    (∀ v0, (Instr.stackTempThreshold 8 v0).wf = false) ∧
    (∀ v0, (Instr.spillPageRead (2 ^ 36) v0).wf = false) ∧
    (∀ v0, (Instr.spillFetchDone (2 ^ 36) v0).wf = false) ∧
    (∀ v0 v1, (Instr.dmaDescriptorStart 4 v0 v1).wf = false) ∧
    (∀ v0 v1, (Instr.dmaDescriptorStart v0 64 v1).wf = false) ∧
    (∀ v0 v1 v2, (Instr.inboundRecord 4 v0 v1 v2).wf = false) ∧
    (∀ v0 v1 v2, (Instr.inboundRecord v0 64 v1 v2).wf = false) ∧
    (∀ v0 v1 v2, (Instr.inboundRecord v0 v1 262144 v2).wf = false) ∧
    (∀ v0 v1 v2, (Instr.outboundRecord 4 v0 v1 v2).wf = false) ∧
    (∀ v0 v1 v2, (Instr.outboundRecord v0 64 v1 v2).wf = false) ∧
    (∀ v0 v1 v2, (Instr.outboundRecord v0 v1 262144 v2).wf = false) ∧
    (∀ v0, (Instr.apertureQuiesceTimeout 4 v0).wf = false) ∧
    (∀ v0, (Instr.apertureQuiesceTimeout v0 64).wf = false) ∧
    (∀ v0 v1, (Instr.apDescriptorWrite 64 v0 v1).wf = false) ∧
    (∀ v0, (Instr.invLaneDoorbell 64 v0).wf = false) ∧
    (∀ v0, (Instr.migrationPageLanded v0 (2 ^ 36)).wf = false) ∧
    (∀ v0, (Instr.migrationAbandon v0 (2 ^ 36)).wf = false) ∧
    (∀ v0, (Instr.pageRelease v0 (2 ^ 36)).wf = false) ∧
    (∀ v0, (Instr.linkSignalDetect 18 v0).wf = false) ∧
    (∀ v0, (Instr.linkSignalDetect v0 12).wf = false) ∧
    (∀ v0 v1 v2, (Instr.linkHelloComplete 18 v0 v1 v2).wf = false) ∧
    (∀ v0 v1 v2, (Instr.linkHelloComplete v0 12 v1 v2).wf = false) ∧
    (∀ v0, (Instr.linkTrainingFail 18 v0).wf = false) ∧
    (∀ v0, (Instr.linkTrainingFail v0 12).wf = false) ∧
    (∀ v0, (Instr.linkSignalLost 18 v0).wf = false) ∧
    (∀ v0, (Instr.linkSignalLost v0 12).wf = false) ∧
    (∀ v0, (Instr.linkHoldExpiry 18 v0).wf = false) ∧
    (∀ v0, (Instr.linkHoldExpiry v0 12).wf = false) ∧
    (∀ v0 v1, (Instr.flitReceived 18 v0 v1).wf = false) ∧
    (∀ v0 v1, (Instr.flitReceived v0 12 v1).wf = false) ∧
    (∀ v0 v1, (Instr.flitReceived v0 v1 (List.replicate 257 0)).wf = false) ∧
    (∀ v0, (Instr.flitAckTimeout 18 v0).wf = false) ∧
    (∀ v0, (Instr.flitAckTimeout v0 12).wf = false) ∧
    (∀ v0, (Instr.linkUncorrLimit 18 v0).wf = false) ∧
    (∀ v0, (Instr.linkUncorrLimit v0 12).wf = false) ∧
    (∀ v0, (Instr.linkDegraded 18 v0).wf = false) ∧
    (∀ v0, (Instr.linkDegraded v0 12).wf = false) ∧
    (∀ v0, (Instr.linkDegradedTimeout 18 v0).wf = false) ∧
    (∀ v0, (Instr.linkDegradedTimeout v0 12).wf = false) ∧
    (∀ v0, (Instr.linkRetrainWrite 18 v0).wf = false) ∧
    (∀ v0, (Instr.linkRetrainWrite v0 12).wf = false) ∧
    (Instr.tjShutdownTrip 8).wf = false ∧
    (Instr.vcoreCeilingTrip 8).wf = false ∧
    (Instr.sensorMismatch 8).wf = false ∧
    (∀ v0, (Instr.throttleConversion 8 v0).wf = false) ∧
    (Instr.throttleReleaseStep 8).wf = false := by
  refine ⟨?_, ?_, ?_, ?_, ?_, ?_, ?_, ?_, ?_, ?_, ?_, ?_, ?_, ?_, ?_, ?_, ?_, ?_, ?_, ?_, ?_, ?_, ?_, ?_, ?_, ?_, ?_, ?_, ?_, ?_, ?_, ?_, ?_, ?_, ?_, ?_, ?_, ?_, ?_, ?_, ?_, ?_, ?_, ?_, ?_, ?_, ?_, ?_, ?_, ?_, ?_, ?_, ?_, ?_, ?_, ?_, ?_, ?_, ?_, ?_⟩ <;> intros <;> simp only [Instr.wf, List.length_replicate] <;> simp

/-- An operand out of its range makes the command ill-formed. -/
theorem test_wf_refuses_3 :
    (∀ v0 v1, (Instr.avsLoopStep 8 v0 v1).wf = false) ∧
    (Instr.droopEvent 8).wf = false ∧
    (Instr.mctpPacketRx (List.replicate 74 0)).wf = false ∧
    (Instr.setEndpointId (List.replicate 4097 0)).wf = false ∧
    (Instr.getEndpointId (List.replicate 4097 0)).wf = false ∧
    (Instr.getEndpointUuid (List.replicate 4097 0)).wf = false ∧
    (Instr.getMctpVersionSupport (List.replicate 4097 0)).wf = false ∧
    (Instr.getMessageTypeSupport (List.replicate 4097 0)).wf = false ∧
    (Instr.getVendorMessageSupport (List.replicate 4097 0)).wf = false ∧
    (Instr.getTid (List.replicate 4097 0)).wf = false ∧
    (Instr.setTid (List.replicate 4097 0)).wf = false ∧
    (Instr.getPldmVersion (List.replicate 4097 0)).wf = false ∧
    (Instr.getPldmTypes (List.replicate 4097 0)).wf = false ∧
    (Instr.getPldmCommands (List.replicate 4097 0)).wf = false ∧
    (Instr.getPdrRepositoryInfo (List.replicate 4097 0)).wf = false ∧
    (Instr.getPdr (List.replicate 4097 0)).wf = false ∧
    (Instr.getSensorReading (List.replicate 4097 0)).wf = false ∧
    (Instr.getStateSensorReadings (List.replicate 4097 0)).wf = false ∧
    (Instr.setNumericEffecterValue (List.replicate 4097 0)).wf = false ∧
    (Instr.setStateEffecterStates (List.replicate 4097 0)).wf = false ∧
    (Instr.setEventReceiver (List.replicate 4097 0)).wf = false ∧
    (Instr.pollPlatformEventMessage (List.replicate 4097 0)).wf = false ∧
    (Instr.requestUpdate (List.replicate 4097 0)).wf = false ∧
    (Instr.passComponentTable (List.replicate 4097 0)).wf = false ∧
    (Instr.updateComponent (List.replicate 4097 0)).wf = false ∧
    (Instr.firmwareDataResponse (List.replicate 4097 0)).wf = false ∧
    (Instr.activateFirmware (List.replicate 4097 0)).wf = false ∧
    (Instr.cancelUpdateComponent (List.replicate 4097 0)).wf = false ∧
    (Instr.cancelUpdate (List.replicate 4097 0)).wf = false ∧
    (Instr.getStatus (List.replicate 4097 0)).wf = false ∧
    (Instr.bbcShelfEvent 9).wf = false ∧
    (Instr.pumpLoss 5).wf = false ∧
    (∀ v0, (Instr.linkDegradedRecovery 18 v0).wf = false) ∧
    (∀ v0, (Instr.linkDegradedRecovery v0 12).wf = false) ∧
    (Instr.pumpRestored 5).wf = false ∧
    (Instr.shelfRestored 9).wf = false := by
  refine ⟨?_, ?_, ?_, ?_, ?_, ?_, ?_, ?_, ?_, ?_, ?_, ?_, ?_, ?_, ?_, ?_, ?_, ?_, ?_, ?_, ?_, ?_, ?_, ?_, ?_, ?_, ?_, ?_, ?_, ?_, ?_, ?_, ?_, ?_, ?_, ?_⟩ <;> intros <;> simp only [Instr.wf, List.length_replicate] <;> simp

/-- A unit, link rate or width out of its range makes the command ill-formed. -/
theorem test_wf_refuses_4 : (Instr.unitImageLoad 0 ⟨false, 0, some 18, false⟩).wf = false ∧
    (Instr.linkUp ⟨0, 6, 16⟩).wf = false ∧ (Instr.linkUp ⟨0, 5, 3⟩).wf = false := by decide

/-- `s` on assembly `a` (1 M8, 2 M6, 3 S0), in mode `m`. -/
def asmIn (a : Nat) (m : Mode) (s : State) : State := { s with otp := { s.otp with asm := a }, pkg := { s.pkg with mode := m } }

/-- The waiting queue is first in, first out. -/
theorem test_queue_order : step { tR with pending := [.brakeNAssert, .brakeNDeassert] } = exec .brakeNAssert { tR with pending := [.brakeNDeassert] } := rfl

/-- Worked case of chapter 03: a lockstep mismatch in ACTIVE with keys present leaves WD_RSTCAUSE 0x0000_6108. -/
theorem test_lockstep_cause :
    rstCause (wardenReset { lockstep := true } 0 { tA with wd := { tA.wd with por := false }, ks := { tA.ks with tenant := 2 ^ 24, slots := List.replicate 64 { origin := 2 } } }) = 0x6108 := by
  decide

/-- Worked case of chapter 03: step 0 of the clear table on S0 (SKIP ASM_S0 set, N = 9) goes on at index 10, on M8 at index 1. -/
theorem test_skip_asm : (sqRun 0x02 quietStep (stp 2 4 0 9 (asmIn 3 .opened tI))).sq.nextIx = 10 ∧
    (sqRun 0x02 quietStep (stp 2 4 0 9 tI)).sq.nextIx = 1 := by decide

/-- Worked case of chapter 09: the offer of S0 in CONFIDENTIAL mode is 0x3CF; accepting 0x11F fails and 0x10F succeeds in IDLE. -/
theorem test_feature_bits : offerMask (asmIn 3 .confidential tI) = 0x3CF ∧
    (featureAcceptBody (call (0x1F#8 :: 0x01#8 :: List.replicate 14 0)) { tI with hb := { tI.hb with offer := 0x3CF, accept := 0 } }).reply.map (fun x => x.1) = some stNotNegotiated ∧
    (featureAcceptBody (call (0x0F#8 :: 0x01#8 :: List.replicate 14 0)) { tI with hb := { tI.hb with offer := 0x3CF, accept := 0 } }).s.hb.accept = 0x10F := by
  decide

/-- Worked cases of chapter 09: the state words 0x0002_0013 and 0x0003_0054. -/
theorem test_state_words : stateWord { tR with pkg := { st := .bringup, mode := .confidential, seq := 2 } } = 0x00020013 ∧
    stateWord { tR with otp := { tR.otp with loaded := true, asm := 3 }, pkg := { st := .idle, mode := .confidential, seq := 3, tilePg := true } } = 0x00030054 := by decide

/-- Worked case of chapter 14: the lines sampled on M8. -/
theorem test_lines_sampled : linesSampled tI = 17469440 := by decide

/-- Worked case of chapter 21: the thermal loop's requests, T_target 92 degrees (one pass per row). -/
theorem test_thermal_pass :
    [(920, 1500), (940, 1500), (965, 1400), (990, 1150), (975, 800), (940, 500), (915, 400), (898, 400)].map
      (fun (x : Nat × Nat) => (nth {} (thermLoop { tI with pw := { tI.pw with tjt := 100, tiles := [{ tj := x.1, thermReq := x.2 }] } }).pw.tiles 0).thermReq)
    = [1500, 1400, 1150, 800, 500, 400, 400, 450] := by decide

/-- The hypotheses of StepRunsTheFrontCommand can be met. -/
theorem witness_StepRunsTheFrontCommand :
    (∃ (c : Instr) (r : List Instr) (s : State), s.pending = c :: r) ∧ (∃ s : State, s.pending = []) :=
  ⟨⟨.sqNop, [.sqEnd], { tR with pending := [.sqNop, .sqEnd] }, rfl⟩, ⟨tR, rfl⟩⟩

/-- The hypotheses of EveryStepKeepsTheInvariant can be met. -/
theorem witness_EveryStepKeepsTheInvariant : ∃ s t : State, Inv s ∧ step s = .next t :=
  ⟨tR, tick tR, ⟨⟨by decide, by decide, by decide⟩, by decide, ⟨by decide, by decide⟩, ⟨by decide, by decide⟩, ⟨by decide, by decide, by decide⟩,
    ⟨by decide, by decide, by decide, by decide⟩, by decide, by unfold FlOk; decide, by unfold MgOk; decide, ⟨by decide, by decide, by decide⟩⟩, rfl⟩

/-- The hypotheses of NoCommandTouchesTheQueue can be met. -/
theorem witness_NoCommandTouchesTheQueue : ∃ (c : Instr) (s t : State), exec c s = .next t := ⟨.sqNop, tR, _, rfl⟩

/-- The hypotheses of EveryCommandIsAnswered can be met. -/
theorem witness_EveryCommandIsAnswered :
    (∃ c : Instr, ∀ a v, c ≠ .registerWrite a v) ∧ (∃ a : Nat, undescribed a = false ∨ 2 ^ 32 ≤ a) :=
  ⟨⟨.sqNop, fun _ _ h => nomatch h⟩, ⟨0, by decide⟩⟩

/-- The hypotheses of SkipTestsTheFlagsOfTheTable can be met, at both ends of the reserved flags. -/
theorem witness_SkipTestsTheFlagsOfTheTable :
    (∃ s : State, SqAt 0x02 s ∧ stepA (sqStep s) = 10 ∧ stepB (sqStep s) = 0) ∧
    (∃ s : State, SqAt 0x02 s ∧ stepA (sqStep s) = 23 ∧ stepB (sqStep s) = 0) :=
  ⟨⟨stp 2 10 0 4 tI, ⟨by decide, by decide, by decide, by decide⟩, by decide, by decide⟩,
   ⟨stp 2 23 0 4 tI, ⟨by decide, by decide, by decide, by decide⟩, by decide, by decide⟩⟩

/-- The hypotheses of GenFillsAnEmptySlotOrCommitsNothing can be met, with a good DRBG and with a failed one. -/
theorem witness_GenFillsAnEmptySlotOrCommitsNothing :
    (∃ (i : Nat) (s : State), s.ks.busy = false ∧ i < 64 ∧ s.ks.slots.length = 64 ∧ (slotS s i).empty = true
      ∧ originAllows 3 s.ks.argUse = true ∧ s.ks.drbgOk = true) ∧
    (∃ (i : Nat) (s : State), s.ks.busy = false ∧ i < 64 ∧ s.ks.slots.length = 64 ∧ (slotS s i).empty = true
      ∧ originAllows 3 s.ks.argUse = true ∧ s.ks.drbgOk = false) :=
  ⟨⟨63, { tI with ks := { tI.ks with argUse := 2 } }, by decide⟩,
   ⟨63, { tI with ks := { tI.ks with argUse := 2, drbgOk := false } }, by decide⟩⟩

/-- The hypotheses of StandbyAndResetPin can be met. -/
theorem witness_StandbyAndResetPin :
    (∃ (w : Bool) (s : State), s.pkg.standby = false ∧ s.pkg.rstN = true) ∧
    (∃ (s : State), s.pkg.standby = true) ∧
    (∃ (s : State), s.pkg.rstN = true ∧ s.pkg.standby = true ∧ s.pkg.st ≠ .cold) ∧
    (∃ (s : State), s.pkg.rstN = false ∧ s.pkg.st = .cold ∧ s.pkg.standby = true) ∧
    (∃ (s : State), s.pkg.standby = true ∧ s.pkg.progWin = true) :=
  ⟨⟨true, { tR with pkg := { tR.pkg with standby := false } }, by decide, by decide⟩,
   ⟨tI, by decide⟩,
   ⟨tI, by decide, by decide, by decide⟩,
   ⟨{ tR with pkg := { tR.pkg with rstN := false, st := .cold } }, by decide, by decide, by decide⟩,
   ⟨tI, by decide, by decide⟩⟩

/-- The hypotheses of EveryResetCauseResetsTheWarden can be met. -/
theorem witness_EveryResetCauseResetsTheWarden :
    (∃ (s : State), s.wd.coreRun = true) ∧
    (∃ (s : State), s.wd.wdtEn = true) ∧
    (∃ (s : State) (v : Word), s.wd.coreRun = true ∧ v.toNat % 65536 = 0x5AC3) ∧
    (∃ (s : State) (v : Word), v.toNat % 65536 ≠ 0x5AC3) ∧
    (∃ (s : State) (a : Nat), s.wd.coreRun = true ∧ s.wd.fw ≠ .rom) :=
  ⟨⟨tI, by decide⟩,
   ⟨tI, by decide⟩,
   ⟨tI, 0x00015AC3#32, by decide, by decide⟩,
   ⟨tI, 0x00015AC4#32, by decide⟩,
   ⟨tI, 0x10000000, by decide, by decide⟩⟩

/-- The hypotheses of ResetReleaseRunsTheInitialisers can be met. -/
theorem witness_ResetReleaseRunsTheInitialisers :
    (∃ (s : State), s.pkg.st ≠ .cold ∧ s.pkg.rstN = true ∧ s.wd.coreRun = false) ∧
    (∃ (s : State), s.wd.coreRun = true ∧ s.wd.sramReady = false) ∧
    (∃ (s : State), s.pk.zeroing = true ∧ s.pq.wait = [] ∧ s.wd.stall = none) ∧
    (∃ (s : State), s.otp.loaded = false ∧ s.pkg.st ≠ .cold) :=
  ⟨⟨tR, by decide, by decide, by decide⟩,
   ⟨{ tR with wd := { tR.wd with coreRun := true } }, by decide, by decide⟩,
   ⟨tR, by decide, by decide, by decide⟩,
   ⟨tR, by decide, by decide⟩⟩

/-- The hypotheses of WatchdogTimerAndClockStop can be met. -/
theorem witness_WatchdogTimerAndClockStop :
    (∃ (s : State) (v : Word), v.toNat = 0x0000C3A5) ∧
    (∃ (s : State) (v : Word), v.toNat ≠ 0x0000C3A5) ∧
    (∃ (s : State), s.wd.wdtEn = true ∧ s.wd.wdtS1 = true) ∧
    (∃ (s : State), s.wd.time ≤ s.wd.cmp) ∧
    (∃ (s : State), (s.wd.fw = .wfw ∨ s.wd.fw = .recovery)) ∧
    (∃ (s : State), s.wd.fw ≠ .wfw ∧ s.wd.fw ≠ .recovery) :=
  ⟨⟨tI, 0xC3A5#32, by decide⟩,
   ⟨tI, 0xC3A4#32, by decide⟩,
   ⟨tI, by decide, by decide⟩,
   ⟨tI, by decide⟩,
   ⟨tI, by decide⟩,
   ⟨tR, by decide, by decide⟩⟩

/-- The hypotheses of RomAndFirmwareStart can be met. -/
theorem witness_RomAndFirmwareStart :
    (∃ (x : RomIn) (s : State), s.wd.fw = .rom ∧ s.pkg.st = .rom ∧ s.otp.loaded = true ∧ s.wd.sramReady = true) ∧
    (∃ (x : List PulseOut) (s : State), s.wd.fw = .wfw ∧ s.boot.inited = false ∧ s.pkg.st = .warden ∧ SqFree s ∧ s.units.length = 18) ∧
    (∃ (x : List PulseOut) (s : State), SqFree s ∧ ((s.wd.fw ≠ .wfw ∧ s.wd.fw ≠ .recovery) ∨ s.boot.inited = true)) :=
  ⟨⟨⟨false, false, false, false, []⟩, tRom, by decide, by decide, by decide, by decide⟩,
   ⟨[], { tI with boot := { tI.boot with inited := false }, pkg := { tI.pkg with st := .warden } }, by decide, by decide, by decide, ⟨by decide, by decide, by decide, by decide⟩, by decide⟩,
   ⟨[], tRom, ⟨by decide, by decide, by decide, by decide⟩, by decide⟩⟩

/-- The hypotheses of BringupSteps can be met. -/
theorem witness_BringupSteps :
    (∃ (s : State), s.pkg.st = .warden ∧ s.boot.inited = true ∧ s.pkg.mainOk = true ∧ s.mg.hold = false ∧ SqFree s ∧ s.pkg.portPg = false ∧ stepAt s (fwEntry portUpTable s) = railStep 0 true) ∧
    (∃ (s : State), SqFree s ∧ s.mg.hold = true) ∧
    (∃ (hl : List Nat) (s : State), s.sq.busy = true ∧ s.sq.purpose = .user ∧ s.sq.abortReq = false ∧ s.sq.nextIx < Config.kSteps ∧ s.wd.access = none) ∧
    (∃ (hl : List Nat) (s : State), s.pkg.st = .bringup ∧ s.sq.busy = true ∧ s.sq.purpose = .memUp ∧ s.sq.queue = [] ∧ s.sq.abortReq = false ∧ s.sq.wait = .rail 2 true ∧ s.pkg.memEn = true ∧ s.pkg.tilePg = true ∧ s.pkg.mainOk = true ∧ s.sq.nextIx + 1 < Config.kSteps ∧ stepAt s s.sq.nextIx = endStep ∧ s.sq.err = false ∧ s.sq.aborted = false ∧ s.wd.access = none) ∧
    (∃ (t : Nat) (s : State), s.boot.bphase = .train ∧ s.pkg.st = .bringup ∧ t ∈ loadUnits 2 s) ∧
    (∃ (t : Nat) (s : State), s.boot.bphase = .train ∧ s.pkg.st = .bringup ∧ hasStack s t = true ∧ (mcS s t).trained = false) :=
  ⟨⟨{ tI with pkg := { tI.pkg with st := .warden, portPg := false }, sq := { tI.sq with ram := [(fwEntry portUpTable tI, railStep 0 true)] } }, by decide, by decide, by decide, by decide, ⟨by decide, by decide, by decide, by decide⟩, by decide, by decide⟩,
   ⟨{ tI with mg := { tI.mg with hold := true } }, ⟨by decide, by decide, by decide, by decide⟩, by decide⟩,
   ⟨[], stp 0 0 0 0 tI, by decide, by decide, by decide, by decide, by decide⟩,
   ⟨[], { tI with pkg := { tI.pkg with st := .bringup }, sq := { tI.sq with busy := true, purpose := .memUp, wait := .rail 2 true, ram := [(0, endStep)] } }, by decide, by decide, by decide, by decide, by decide, by decide, by decide, by decide, by decide, by decide, by decide, by decide, by decide, by decide⟩,
   ⟨1, { tI with pkg := { tI.pkg with st := .bringup }, boot := { tI.boot with bphase := .train } }, by decide, by decide, by decide⟩,
   ⟨1, { tI with pkg := { tI.pkg with st := .bringup }, boot := { tI.boot with bphase := .train } }, by decide, by decide, by decide, by decide⟩⟩

/-- The hypotheses of UnitImageLoadAndReady can be met. -/
theorem witness_UnitImageLoadAndReady :
    (∃ (k : Nat) (x : LoadIn) (s : State), k < 3 ∧ s.pkg.st = .bringup ∧ s.boot.bphase = loadPhase k ∧ s.sq.busy = false ∧ s.units.length = 18) ∧
    (∃ (u gen v : Nat) (s : State), fwWfw s = true ∧ unitUp s u = true ∧ (unitS s u).rspValid = false ∧ (unitS s u).awaitReady = true ∧ (unitS s u).mcAwait = false ∧ gen = (unitS s u).gen.toNat ∧ v < 2 ^ 32 ∧ u < 18 ∧ s.units.length = 18 ∧ SqFree s) ∧
    (∃ (u v : Nat) (s : State), s.wd.fw = .wfw ∧ unitUp s u = true ∧ (unitS s u).rspValid = true ∧ SqFree s) ∧
    (∃ (u : Nat) (s : State), ((unitS s u).awaitReady = true ∨ (unitS s u).mcAwait = true)) ∧
    (∃ (u : Nat) (x : LoadIn) (s : State), u < 18 ∧ s.units.length = 18 ∧ s.pkg.st = .active ∧ s.sq.busy = false ∧ (unitS s u).ustate = .resetting ∧ (unitS s u).awaitReady = false ∧ (unitS s u).go = false ∧ (if u < 8 then (unitS s u).inReset else (unitS s u).ctrlHeld) = false) :=
  ⟨⟨0, ⟨false, 0, none, false⟩, { tI with pkg := { tI.pkg with st := .bringup }, boot := { tI.boot with bphase := .portImg } }, by decide, by decide, by decide, by decide, by decide⟩,
   ⟨8, 0, 0, upd 8 { tU with awaitReady := true } tA, by decide, by decide, by decide, by decide, by decide, by decide, by decide, by decide, by decide, ⟨by decide, by decide, by decide, by decide⟩⟩,
   ⟨8, 0, upd 8 { tU with rspValid := true } tA, by decide, by decide, by decide, ⟨by decide, by decide, by decide, by decide⟩⟩,
   ⟨0, upd 0 { tU with awaitReady := true } tA, by decide⟩,
   ⟨0, ⟨false, 0, none, false⟩, upd 0 { ustate := .resetting, inReset := false } tA, by decide, by decide, by decide, by decide, by decide, by decide, by decide, by decide⟩⟩

/-- The hypotheses of MainPowerAndClockLoss can be met. -/
theorem witness_MainPowerAndClockLoss :
    (∃ (s : State), s.pkg.mainOk = true) ∧
    (∃ (s : State), (stackTiles s).all (fun t => !(mcS s t).trained) = true) ∧
    (∃ (s : State), (s.pkg.st = .loading ∨ s.pkg.st = .active ∨ s.pkg.st = .switching) ∧ (stackTiles s).any (fun t => (mcS s t).trained) = true) ∧
    (∃ (s : State), s.pkg.st = .quarantine ∧ s.pkg.quarClr = true) ∧
    (∃ (s : State), s.wd.stopReq ≠ 0) ∧
    (∃ (s : State), s.wd.stopReq = 0) :=
  ⟨⟨tI, by decide⟩,
   ⟨tI, by decide⟩,
   ⟨{ tA with jb := { tA.jb with mc := List.replicate 8 { trained := true } } }, .inr (.inl rfl), by decide⟩,
   ⟨{ tI with pkg := { tI.pkg with st := .quarantine, quarClr := true } }, by decide, by decide⟩,
   ⟨{ tI with wd := { tI.wd with stopReq := 1 } }, by decide⟩,
   ⟨tI, by decide⟩⟩

/-- The hypotheses of FabricWindowAndRegisterWrites can be met. -/
theorem witness_FabricWindowAndRegisterWrites :
    (∃ (u off : Nat) (w a : Bool) (v : Word) (s : State), s.wd.coreRun = true ∧ s.wd.access = none) ∧
    (∃ (s : State) (x : FwAccess), s.wd.access = some x) ∧
    (∃ (a : Nat) (v : Word) (s : State), a < 2 ^ 32 ∧ undescribed a = true ∧ a % 4 = 0 ∧ s.wd.coreRun = true) ∧
    (∃ (a : Nat) (v : Word) (s : State), a < 2 ^ 32 ∧ undescribed a = false ∧ s.wd.coreRun = true ∧ s.wd.access = none ∧ s.wd.stall = none) ∧
    (∃ (a : Nat) (v : Word) (s : State), 0x10000000 ≤ a ∧ a < 0x10100000 ∧ a % 4 = 0 ∧ s.wd.coreRun = true ∧ s.wd.access = none ∧ s.wd.stall = none) ∧
    (∃ (a : Nat) (v : Word) (s : State), 2 ^ 32 ≤ a) ∧
    (∃ (d o v : Nat) (s : State), barOn s d = true ∧ mbxBuffer o = none ∧ o % 4 = 0) ∧
    (∃ (d o n v : Nat) (b w : Bool) (s : State), barOn s d = true ∧ mbxBuffer o = none ∧ (w = false ∨ o % n ≠ 0)) :=
  ⟨⟨0, 0, false, false, 0#32, tI, by decide, by decide⟩,
   ⟨{ tI with wd := { tI.wd with access := some ⟨0, 0, false, 0⟩ } }, ⟨0, 0, false, 0⟩, by decide⟩,
   ⟨0x20030000, 0#32, tI, by decide, by decide, by decide, by decide⟩,
   ⟨0x20060000, 0#32, tI, by decide, by decide, by decide, by decide, by decide⟩,
   ⟨0x10000000, 0#32, tI, by decide, by decide, by decide, by decide, by decide, by decide⟩,
   ⟨0x100000040, 0#32, tI, by decide⟩,
   ⟨0, 0, 0, tI, by decide, by decide, by decide⟩,
   ⟨0, 0, 1, 0, false, false, tI, by decide, by decide, by decide⟩⟩

/-- The hypotheses of InternalMailboxesAndHeartbeats can be met. -/
theorem witness_InternalMailboxesAndHeartbeats :
    (∃ (u : Nat) (f : Bytes) (s : State), s.wd.coreRun = true) ∧
    (∃ (u g : Nat) (f : Bytes) (s : State), unitUp s u = true) ∧
    (∃ (u g : Nat) (f : Bytes) (s : State), unitUp s u = false ∧ SqFree s) ∧
    (∃ (u g : Nat) (f : Bytes) (s : State), s.wd.fw = .wfw ∧ field f 0 2 ≠ 0xFF01 ∧ g = ((unitS s u).gen.toNat + 255) % 256) ∧
    (∃ (u g : Nat) (p : Bytes) (s : State), unitUp s u = true ∧ (unitS s u).rspValid = false ∧ (unitS s u).irqEn = true) ∧
    (∃ (u : Nat) (s : State), unitUp s u = true ∧ (unitS s u).clkStop = false) ∧
    (∃ (u : Nat) (s : State), unitUp s u = true ∧ (unitS s u).hbLim < (unitS s u).hbAge ∧ (unitS s u).hbIrqEn = true ∧ fwWfw s = true) ∧
    (∃ (u : Nat) (s : State), (unitS s u).hbAge ≤ (unitS s u).hbLim) :=
  ⟨⟨0, [], tI, by decide⟩,
   ⟨0, 0, [], tI, by decide⟩,
   ⟨0, 0, [], tR, by decide, ⟨by decide, by decide, by decide, by decide⟩⟩,
   ⟨0, 255, [], tI, by decide, by decide, by decide⟩,
   ⟨0, 0, [], tI, by decide, by decide, by decide⟩,
   ⟨0, tI, by decide, by decide⟩,
   ⟨0, upd 0 { tU with hbAge := 25001, hbLim := 25000 } tA, by decide, by decide, by decide, by decide⟩,
   ⟨0, tA, by decide⟩⟩

/-- The hypotheses of StepTablesStartRunAndEnd can be met. -/
theorem witness_StepTablesStartRunAndEnd :
    (∃ (s : State), s.sq.busy = true ∧ s.wd.access = none ∧ s.sq.purpose = .user ∧ s.sq.queue = [] ∧ s.sq.ecode ≠ 4) ∧
    (∃ (s : State), SqAt 0x00 s) ∧
    (∃ (s : State), SqAt 0x01 s ∧ s.sq.purpose = .user ∧ s.sq.queue = [] ∧ s.sq.ecode ≠ 4) ∧
    (∃ (s : State), SqAt 0x02 s ∧ s.sq.nextIx + 1 + stepC (sqStep s) < Config.kSteps) ∧
    (∃ (s : State), SqAt 0x03 s) ∧
    (∃ (s : State) (n : Nat), s.sq.busy = true ∧ s.sq.wait = .delay n ∧ s.sq.abortReq = false ∧ s.sq.nextIx < Config.kSteps ∧ s.wd.access = none) ∧
    (∃ (s : State), s.sq.busy = true ∧ s.sq.wait = .none ∧ stepLegal (sqStep s) = false ∧ s.wd.access = none ∧ s.sq.purpose = .user ∧ s.sq.queue = []) ∧
    (∃ (s : State), s.sq.busy = true ∧ ((s.sq.wait = .join ∨ ∃ n, s.sq.wait = .delay n)) ∧ s.wd.access = none ∧ s.sq.purpose = .user ∧ s.sq.queue = []) ∧
    (∃ (s : State) (u : Nat), s.sq.busy = true ∧ s.sq.wait = .start u ∧ s.wd.access = none) :=
  ⟨⟨stp 0 0 0 0 tI, by decide, by decide, by decide, by decide, by decide⟩,
   ⟨stp 0 0 0 0 tI, ⟨by decide, by decide, by decide, by decide⟩⟩,
   ⟨stp 1 0 0 0 tI, ⟨by decide, by decide, by decide, by decide⟩, by decide, by decide, by decide⟩,
   ⟨stp 2 0 0 4 tI, ⟨by decide, by decide, by decide, by decide⟩, by decide⟩,
   ⟨stp 3 0 0 9 tI, ⟨by decide, by decide, by decide, by decide⟩⟩,
   ⟨{ tI with sq := { tI.sq with busy := true, wait := .delay 5 } }, 5, by decide, by decide, by decide, by decide, by decide⟩,
   ⟨stp 9 0 0 0 tI, by decide, by decide, by decide, by decide, by decide, by decide⟩,
   ⟨{ tI with sq := { tI.sq with busy := true, wait := .join } }, by decide, .inl rfl, by decide, by decide, by decide⟩,
   ⟨{ tI with sq := { tI.sq with busy := true, wait := .start 3 } }, 3, by decide, by decide, by decide⟩⟩

/-- The hypotheses of SettingStepsRailsClocksAndResets can be met. -/
theorem witness_SettingStepsRailsClocksAndResets :
    (∃ (s : State), SqAt 0x04 s) ∧
    (∃ (s : State), SqAt 0x05 s) ∧
    (∃ (s : State), SqAt 0x06 s) ∧
    (∃ (s : State), SqAt 0x07 s) ∧
    (∃ (s : State), SqAt 0x42 s) ∧
    (∃ (s : State), SqAt 0x41 s) ∧
    (∃ (s : State) (h : Nat), SqAt 0x40 s) :=
  ⟨⟨stp 4 1 0 5 tI, ⟨by decide, by decide, by decide, by decide⟩⟩,
   ⟨stp 5 24 1 0 tI, ⟨by decide, by decide, by decide, by decide⟩⟩,
   ⟨stp 6 0 0 5 tI, ⟨by decide, by decide, by decide, by decide⟩⟩,
   ⟨stp 7 0 0 0 tI, ⟨by decide, by decide, by decide, by decide⟩⟩,
   ⟨stp 0x42 1 0 0 tI, ⟨by decide, by decide, by decide, by decide⟩⟩,
   ⟨stp 0x41 7 0 0 tI, ⟨by decide, by decide, by decide, by decide⟩⟩,
   ⟨stp 0x40 7 0 0 tI, 0, ⟨by decide, by decide, by decide, by decide⟩⟩⟩

/-- The hypotheses of UnitKeyAndDigestSteps can be met. -/
theorem witness_UnitKeyAndDigestSteps :
    (∃ (s : State), SqAt 0x10 s ∧ regionOk s (stepA (sqStep s)) (stepB (sqStep s)) = true ∧ engineUp s (stepA (sqStep s)) = true) ∧
    (∃ (s : State), SqAt 0x11 s ∧ regionOk s (stepA (sqStep s)) (stepB (sqStep s)) = true ∧ engineUp s (stepA (sqStep s)) = true) ∧
    (∃ (s : State) (op : Nat), ((op = 0x10 ∧ SqAt 0x10 s) ∨ (op = 0x11 ∧ SqAt 0x11 s)) ∧ s.sq.purpose = .user ∧ s.sq.queue = []) ∧
    (∃ (u n : Nat) (s : State), SqFree s) ∧
    (∃ (u n : Nat) (s : State), s.sq.busy = true ∧ s.wd.access = none ∧ s.sq.purpose = .user ∧ s.sq.queue = [] ∧ (unitS s u).op.isSome = true) ∧
    (∃ (s : State) (cls len : Nat), SqAt 0x20 s ∧ keyPort s (stepB (sqStep s)) (stepC (sqStep s)) = some (cls, len) ∧ portUp s (stepB (sqStep s)) = true ∧ ((stepB (sqStep s) < 8 → s.pkg.memPg = true))) ∧
    (∃ (s : State), SqAt 0x21 s ∧ (keyPort s (stepB (sqStep s)) (stepC (sqStep s))).isSome = true ∧ portUp s (stepB (sqStep s)) = true ∧ ((stepB (sqStep s) < 8 → s.pkg.memPg = true))) ∧
    (∃ (s : State) (k : Bool), SqAt 0x20 s ∧ s.sq.purpose = .user ∧ s.sq.queue = [] ∧ (keyPort s (stepB (sqStep s)) (stepC (sqStep s)) = none ∨ (stepB (sqStep s) < 8 ∧ s.pkg.memPg = false))) ∧
    (∃ (s : State), SqAt 0x22 s ∧ stepA (sqStep s) ≠ 0xFF ∧ s.dg.phase = .idle ∧ s.pk.run = none ∧ s.ks.drbgOk = true ∧ s.ks.slots.length = 64 ∧ (slotS s (stepA (sqStep s))).dead = false) ∧
    (∃ (s : State), SqAt 0x22 s ∧ stepA (sqStep s) = 0xFF ∧ s.ks.slots.length = 64) ∧
    (∃ (s : State), SqAt 0x22 s ∧ stepA (sqStep s) ≠ 0xFF ∧ s.ks.slots.length = 64 ∧ (slotS s (stepA (sqStep s))).dead = false) ∧
    (∃ (s : State) (data : Bytes), SqAt 0x30 s ∧ stepC (sqStep s) % dgBlock s.dg.mode = 0 ∧ readMap s (nth 0 s.sq.args 0) (stepC (sqStep s)) = some data ∧ s.dg.phase = .open ∧ s.dg.buf = [] ∧ s.wd.flips = []) :=
  ⟨⟨stp 0x10 0 0 0 tI, ⟨by decide, by decide, by decide, by decide⟩, by decide, by decide⟩,
   ⟨stp 0x11 0 0 0 tI, ⟨by decide, by decide, by decide, by decide⟩, by decide, by decide⟩,
   ⟨stp 0x10 0 0 0 tI, 0x10, .inl ⟨rfl, by decide, by decide, by decide, by decide⟩, by decide, by decide⟩,
   ⟨0, 0, tI, ⟨by decide, by decide, by decide, by decide⟩⟩,
   ⟨0, 0, { upd 0 { tU with op := some (.verify 0) } tI with sq := { tI.sq with busy := true } }, by decide, by decide, by decide, by decide, by decide⟩,
   ⟨stp 0x20 16 0 0 tI, 8, 64, ⟨by decide, by decide, by decide, by decide⟩, by decide, by decide, by decide⟩,
   ⟨stp 0x21 0 0 0 tI, ⟨by decide, by decide, by decide, by decide⟩, by decide, by decide, by decide⟩,
   ⟨stp 0x20 16 8 0x50 tI, true, ⟨by decide, by decide, by decide, by decide⟩, by decide, by decide, by decide⟩,
   ⟨stp 0x22 16 0 0 tI, ⟨by decide, by decide, by decide, by decide⟩, by decide, by decide, by decide, by decide, by decide, by decide⟩,
   ⟨stp 0x22 0xFF 0 0 tI, ⟨by decide, by decide, by decide, by decide⟩, by decide, by decide⟩,
   ⟨stp 0x22 16 0 0 tI, ⟨by decide, by decide, by decide, by decide⟩, by decide, by decide, by decide⟩,
   ⟨{ stp 0x30 0 0 104 tI with sq := { (stp 0x30 0 0 104 tI).sq with args := [0x10000000] }, dg := { tI.dg with phase := .open, mode := 2 } }, List.replicate 104 0#8, ⟨by decide, by decide, by decide, by decide⟩, by decide, by decide, by decide, by decide, by decide⟩⟩

/-- The hypotheses of OtpCommandsRunAndEnd can be met. -/
theorem witness_OtpCommandsRunAndEnd :
    (∃ (s : State), s.otp.busy = false) ∧
    (∃ (s : State) (g : Nat × Nat × Nat), s.otp.busy = false ∧ s.otp.lc = 0 ∧ groupOfRow s.otp.addr = some g) ∧
    (∃ (s : State), s.otp.busy = false ∧ s.otp.lc = 0 ∧ groupOfRow s.otp.addr = none) ∧
    (∃ (s : State), s.otp.busy = false ∧ s.otp.lc ≠ 0) ∧
    (∃ (s : State), s.otp.busy = false ∧ s.otp.lc = 0 ∧ s.otp.addr % 32 < 16 ∧ groupLocked s.otp (1, 32, 25) = false ∧ s.pkg.progWin = true) ∧
    (∃ (c v : Nat) (s : State), s.otp.busy = false ∧ 1 ≤ s.otp.lc ∧ s.otp.lc ≤ 3 ∧ c ≤ 3 ∧ v ≤ 64 ∧ s.pkg.progWin = true) ∧
    (∃ (c v k : Nat) (s : State), s.otp.busy = false) ∧
    (∃ (k : Nat) (s : State), s.otp.busy = false ∧ 1 ≤ s.otp.lc ∧ s.otp.lc ≤ 3 ∧ k ≤ 3 ∧ s.pkg.progWin = true) ∧
    (∃ (sel : Nat) (s : State), s.otp.busy = false) ∧
    (∃ (s : State), s.otp.busy = false ∧ s.pkg.progWin = true ∧ repairTargets s.otp ≠ []) ∧
    (∃ (s : State), s.otp.busy = false ∧ repairTargets s.otp = []) ∧
    (∃ (c : Nat) (s : State), s.otp.busy = false ∧ ((c % 16 = 0 ∨ 7 < c % 16))) ∧
    (∃ (s : State), s.otp.busy = true) :=
  ⟨⟨tI, by decide⟩,
   ⟨{ tI with otp := { tI.otp with lc := 0, addr := 32 } }, (1, 32, 25), by decide, by decide, by decide⟩,
   ⟨{ tI with otp := { tI.otp with lc := 0, addr := 0 } }, by decide, by decide, by decide⟩,
   ⟨tI, by decide, by decide⟩,
   ⟨{ tI with otp := { tI.otp with lc := 0, addr := 32 } }, by decide, by decide, by decide, by decide, by decide⟩,
   ⟨0, 64, tI, by decide, by decide, by decide, by decide, by decide, by decide⟩,
   ⟨0, 0, 0, tI, by decide⟩,
   ⟨3, tI, by decide, by decide, by decide, by decide, by decide⟩,
   ⟨2, tI, by decide⟩,
   ⟨{ tI with otp := { tI.otp with rows := [(24, 16, 16)] } }, by decide, by decide, by decide⟩,
   ⟨tI, by decide, by decide⟩,
   ⟨0, tI, by decide, by decide⟩,
   ⟨tR, by decide⟩⟩

/-- The hypotheses of OtpCellsBurnAndStayBurned can be met. -/
theorem witness_OtpCellsBurnAndStayBurned :
    (∃ (j : OtpJob) (s : State), s.otp.job = some j ∧ ((∀ w ∈ s.uw, w.u ≠ 2000))) ∧
    (∃ (x : List PulseOut) (s : State) (r : Nat), ((∀ w ∈ s.uw, w.u ≠ 2000))) :=
  ⟨⟨⟨2, 0, [(32, 1)]⟩, { tI with otp := { tI.otp with busy := true, job := some ⟨2, 0, [(32, 1)]⟩ } }, by decide, by decide⟩,
   ⟨[], tI, 0, by decide⟩⟩

/-- The hypotheses of DigestMessageOpensAbsorbsAndDelivers can be met. -/
theorem witness_DigestMessageOpensAbsorbsAndDelivers :
    (∃ (s : State), s.otp.loaded = true ∧ s.dg.phase = .idle ∧ dgCfgOk s.dg = true ∧ dgKeyOk s = true ∧ dgDstOk s = true) ∧
    (∃ (s : State), s.otp.loaded = true) ∧
    (∃ (w : Word) (s : State), s.otp.loaded = true ∧ s.dg.phase = .open) ∧
    (∃ (s : State), s.dg.phase = .keyBlock) ∧
    (∃ (s : State), s.dg.phase = .absorbing) ∧
    (∃ (s : State), s.otp.loaded = true ∧ s.dg.phase = .open ∧ s.dg.buf = []) ∧
    (∃ (s : State), s.otp.loaded = true ∧ s.dg.phase = .open ∧ s.dg.buf ≠ []) ∧
    (∃ (s : State), s.dg.phase = .outer ∧ s.dg.dest = false) ∧
    (∃ (s : State), s.dg.phase = .outer ∧ s.dg.dest = true ∧ s.dg.commit = true ∧ dgCfgOk s.dg = true ∧ dgDstOk s = true) ∧
    (∃ (s : State), s.otp.loaded = true) ∧
    (∃ (s : State), s.otp.loaded = true ∧ s.dg.phase = .idle) ∧
    (∃ (s : State), s.otp.loaded = false) :=
  ⟨⟨tI, by decide, by decide, by decide, by decide, by decide⟩,
   ⟨tI, by decide⟩,
   ⟨0#32, { tI with dg := { tI.dg with phase := .open } }, by decide, by decide⟩,
   ⟨{ tI with dg := { tI.dg with phase := .keyBlock } }, by decide⟩,
   ⟨{ tI with dg := { tI.dg with phase := .absorbing } }, by decide⟩,
   ⟨{ tI with dg := { tI.dg with phase := .open } }, by decide, by decide, by decide⟩,
   ⟨{ tI with dg := { tI.dg with phase := .open, buf := [1#8] } }, by decide, by decide, by decide⟩,
   ⟨{ tI with dg := { tI.dg with phase := .outer } }, by decide, by decide⟩,
   ⟨{ tI with dg := { tI.dg with phase := .outer, dest := true, commit := true, mode := 5, dstslot := 20 } }, by decide, by decide, by decide, by decide, by decide⟩,
   ⟨tI, by decide⟩,
   ⟨tI, by decide, by decide⟩,
   ⟨tR, by decide⟩⟩

/-- The hypotheses of KeyStoreCommands can be met. -/
theorem witness_KeyStoreCommands :
    (∃ (i : Nat) (s : State), s.ks.busy = false ∧ i < 64) ∧
    (∃ (i k : Nat) (s : State), s.ks.busy = false ∧ i < 64 ∧ k < 64 ∧ (slotS s i).empty = true ∧ originAllows 4 s.ks.argUse = true) ∧
    (∃ (i : Nat) (s : State), s.ks.busy = false ∧ i < 64 ∧ (slotS s i).origin ≠ 0 ∧ (slotS s i).pending = false ∧ (slotS s i).dead = false ∧ (slotS s i).lock = false) ∧
    (∃ (i : Nat) (s : State), s.ks.busy = false ∧ 64 ≤ i) ∧
    (∃ (s : State), s.ks.busy = false ∧ s.dg.phase = .idle ∧ s.pk.run = none ∧ s.ks.slots.length = 64 ∧ ((∀ i, (slotS s i).dead = false))) ∧
    (∃ (j : KsJob) (s : State), s.ks.job = some j) ∧
    (∃ (i : Nat) (s : State), s.ks.busy = true) :=
  ⟨⟨63, tI, by decide, by decide⟩,
   ⟨63, 0, tI, by decide, by decide, by decide, by decide, by decide⟩,
   ⟨0, { tI with ks := { tI.ks with slots := { origin := 3, len := 16 } :: List.replicate 63 {} } }, by decide, by decide, by decide, by decide, by decide, by decide⟩,
   ⟨64, tI, by decide, by decide⟩,
   ⟨tI, by decide, by decide, by decide, by decide, tLive⟩,
   ⟨⟨1, 0, 0⟩, { tI with ks := { tI.ks with busy := true, job := some ⟨1, 0, 0⟩ } }, by decide⟩,
   ⟨0, { tI with ks := { tI.ks with busy := true } }, by decide⟩⟩

set_option maxRecDepth 20000 in
/-- The hypotheses of KcvRecheckAndDrbgHealth can be met. -/
theorem witness_KcvRecheckAndDrbgHealth :
    (∃ (s : State), kcvBad s = []) ∧
    (∃ (i : Nat) (s : State), kcvBad s = [i]) ∧
    (∃ (i : Nat) (s : State), fwWfw s = true ∧ s.dg.phase = .idle ∧ s.pk.run = none ∧ s.ks.drbgOk = true ∧ i < 64 ∧ i ≠ 6 ∧ i < s.ks.slots.length ∧ (slotS s i).dead = false ∧ (slotS s i).origin ∉ [1, 2]) ∧
    (∃ (i : Nat) (s : State), fwWfw s = false) ∧
    (∃ (s : State), s.ks.job = none) ∧
    (∃ (i : Nat) (s : State), s.ks.job = some ⟨1, i, 0⟩) :=
  ⟨⟨tI, by decide⟩,
   ⟨0, { tI with ks := { tI.ks with slots := { origin := 3, len := 16 } :: List.replicate 63 {} } }, by decide⟩,
   ⟨16, tI, by decide, by decide, by decide, by decide, by decide, by decide, by decide, by decide, by decide⟩,
   ⟨0, { tI with wd := { tI.wd with fw := .rom } }, by decide⟩,
   ⟨tI, by decide⟩,
   ⟨16, { tI with ks := { tI.ks with job := some ⟨1, 16, 0⟩ } }, by decide⟩⟩

/-- The hypotheses of PkeJobsAndMeasurementCommands can be met. -/
theorem witness_PkeJobsAndMeasurementCommands :
    (∃ (x : Option Nat) (s : State), s.pk.busy = true) ∧
    (∃ (x : Option Nat) (s : State), s.pk.busy = false ∧ s.pk.wipefail = true) ∧
    (∃ (s : State) (sh : PkShape), s.pk.busy = false ∧ s.pk.wipefail = false ∧ pkShape s.pk.op s.pk.nw s.pk.ord = some sh ∧ bit s.lg.mask 5 = false) ∧
    (∃ (x : Option Nat) (s : State), s.pk.busy = false ∧ s.pk.wipefail = false ∧ pkShape s.pk.op s.pk.nw s.pk.ord = none) ∧
    (∃ (r : PkRun) (x : PkEnd) (s : State), s.pk.run = some r ∧ s.pq.run = none ∧ s.pq.wait = [] ∧ s.rc.waiting = none ∧ s.rc.due = none ∧ s.rc.held = [] ∧ x.wipeBad = false ∧ s.pk.zeroing = false ∧ bit s.lg.mask 6 = false) ∧
    (∃ (n : Nat) (s : State), s.ms.job = none) ∧
    (∃ (s : State), s.ms.job = none) ∧
    (∃ (n : Nat) (s : State), s.ms.job.isSome = true) ∧
    (∃ (j : MsJob) (s : State), s.ms.job = some j) :=
  ⟨⟨none, { tI with pk := { tI.pk with busy := true } }, by decide⟩,
   ⟨none, { tI with pk := { tI.pk with wipefail := true } }, by decide, by decide⟩,
   ⟨tPk, _, by decide, by decide, rfl, by decide⟩,
   ⟨none, { tI with pk := { tI.pk with op := 0x3F } }, by decide, by decide, by decide⟩,
   ⟨⟨1, [], none, none, 0, 0, false, 0⟩, ⟨0, false, false, false, 0⟩, { tI with pk := { tI.pk with busy := true, run := some ⟨1, [], none, none, 0, 0, false, 0⟩ } }, by decide, by decide, by decide, by decide, by decide, by decide, by decide, by decide, by decide⟩,
   ⟨0, tI, by decide⟩,
   ⟨tI, by decide⟩,
   ⟨0, { tI with ms := { tI.ms with job := some ⟨1, 0⟩ } }, by decide⟩,
   ⟨⟨1, 0⟩, { tI with ms := { tI.ms with job := some ⟨1, 0⟩ } }, by decide⟩⟩

set_option maxRecDepth 20000 in
/-- The hypotheses of FunctionsResetsAndLinks can be met. -/
theorem witness_FunctionsResetsAndLinks :
    (∃ (d : Nat) (s : State), d < (portUnits s).length ∧ (fnS s d).perstN = true) ∧
    (∃ (d : Nat) (s : State), d < (portUnits s).length ∧ (fnS s d).up = true) ∧
    (∃ (c : Instr) (s : State), 0 < (portUnits s).length ∧ ((c = .perstNAssert 0 ∧ (fnS s 0).perstN = true) ∨ (c = .functionLevelReset 0 ∧ (fnS s 0).up = true) ∨ (c = .dataLinkLayerDown 0 ∧ (fnS s 0).up = true))) ∧
    (∃ (d : Nat) (s : State), 1 ≤ d ∧ (jobIds (fun j => j.st == .running && j.die == d) (apEndDie d s)) = []) ∧
    (∃ (d : Nat) (s : State), d < (portUnits s).length) ∧
    (∃ (d : Nat) (s : State) (gen : _) (w : _), d < (portUnits s).length ∧ (fnS s d).up = false ∧ (fnS s d).ltEn = true ∧ (fnS s d).perstN = true ∧ s.pkg.portPg = true ∧ s.pkg.refPcie = true ∧ unitUp s (unitOfOrd s d) = true ∧ ((d ≠ 0 ∨ s.mg.mreq = 0)) ∧ gen < 6 ∧ w ∈ Config.linkWidths) ∧
    (∃ (d gen w : Nat) (s : State), (fnS s d).perstN = false) ∧
    (∃ (d : Nat) (s : State), (fnS s d).up = true) ∧
    (∃ (d : Nat) (s : State), (fnS s d).pba = 0) ∧
    (∃ (d v : Nat) (s : State), (fnS s d).up = true ∧ (fnS s d).d3 = false ∧ d < s.hb.fns.length ∧ v < 64 ∧ (fnS s d).pba = 2 ^ v) :=
  ⟨⟨1, tI, by decide, by decide⟩,
   ⟨1, tI, by decide, by decide⟩,
   ⟨.perstNAssert 0, { tI with hb := { tI.hb with fns := List.replicate 4 { perstN := true } } }, by decide, .inl ⟨rfl, by decide⟩⟩,
   ⟨1, tI, by decide, (by simp only [jobIds]; rfl)⟩,
   ⟨0, tI, by decide⟩,
   ⟨0, { tI with hb := { tI.hb with fns := List.replicate 4 { ltEn := true, perstN := true } } }, 4, 16, by decide, by decide, by decide, by decide, by decide, by decide, by decide, by decide, by decide, by decide⟩,
   ⟨0, 0, 16, { tI with hb := { tI.hb with fns := List.replicate 4 { perstN := false } } }, by decide⟩,
   ⟨0, tI, by decide⟩,
   ⟨0, tI, by decide⟩,
   ⟨0, 63, { tI with hb := { tI.hb with fns := { up := true, pba := 2 ^ 63 } :: List.replicate 3 {} } }, by decide, by decide, by decide, by decide, by decide⟩⟩

/-- The hypotheses of ChannelHandshakeAndMover can be met. -/
theorem witness_ChannelHandshakeAndMover :
    (∃ (ch off : Nat) (data : Bytes) (s : State), ch < 8 ∧ barOn s 0 = true ∧ data.length ≤ 256 ∧ off + data.length ≤ 4096) ∧
    (∃ (ch off : Nat) (data : Bytes) (s : State), ch < 8 ∧ barOn s 0 = true ∧ (256 < data.length ∨ 4096 < off + data.length)) ∧
    (∃ (ch len : Nat) (s : State), ch < 8 ∧ barOn s 0 = true ∧ 32 ≤ len ∧ len ≤ 4096) ∧
    (∃ (ch : Nat) (s : State), barOn s 0 = true) ∧
    (∃ (ch : Nat) (s : State), (chanS s ch).move = none) ∧
    (∃ (ch : Nat) (s : State), (chanS s ch).move.isSome = true) ∧
    (∃ (ch : Nat) (s : State), (chanS s ch).move = some .take ∧ mvInside (chanS s ch) (chanS s ch).dbLen = false) ∧
    (∃ (ch : Nat) (s : State), (chanS s ch).move = some .take ∧ mvInside (chanS s ch) (chanS s ch).dbLen = true ∧ fwWfw s = true) ∧
    (∃ (n ch : Nat) (r : List Nat) (s : State), s.mb.arrivals = ch :: r) ∧
    (∃ (ch : Nat) (s : State), (chanS s ch).move = some .post) ∧
    (∃ (ch : Nat) (b : Bytes) (s : State), (chanS s ch).busy = true ∧ (chanS s ch).move = none ∧ hmbRaw (chanS s ch) s = some b ∧ bit s.lg.mask 1 = false) ∧
    (∃ (ch : Nat) (s : State), (chanS s ch).busy = true ∧ (chanS s ch).move = none ∧ hmbRaw (chanS s ch) s = none) ∧
    (∃ (ch : Nat) (b : Bytes) (s : State), ch < s.mb.chans.length ∧ (chanS s ch).irqEn = false ∧ (chanS s ch).resetAfter = false) ∧
    (∃ (ch c t : Nat) (f : Frame) (b : Bytes) (s : State), (chanS s ch).dupOf = some (c, t) ∧ (chanS s ch).frame = some f ∧ dupReply f.opcode f.tag c t s = some b) :=
  ⟨⟨7, 4095, [1#8], tI, by decide, by decide, by decide, by decide⟩,
   ⟨0, 4096, [1#8], tI, by decide, by decide, by decide⟩,
   ⟨7, 4096, tI, by decide, by decide, by decide, by decide⟩,
   ⟨7, tI, by decide⟩,
   ⟨0, tI, by decide⟩,
   ⟨0, chn { move := some .take } tI, by decide⟩,
   ⟨0, chn { move := some .take, dbLen := 32, addr := 5, len := 4096 } tI, by decide, by decide⟩,
   ⟨0, chn { move := some .take, dbLen := 32, addr := 0x10000000, len := 4096 } tI, by decide, by decide, by decide⟩,
   ⟨0, 0, [], { tI with mb := { tI.mb with arrivals := [0] } }, by decide⟩,
   ⟨0, chn { move := some .post } tI, by decide⟩,
   ⟨0, _, chn { busy := true, addr := 0x10000000, len := 32 } tI, by decide, by decide, rfl, by decide⟩,
   ⟨0, chn { busy := true, addr := 0x10000000, len := 31 } tI, by decide, by decide, by decide⟩,
   ⟨0, [], tI, by decide, by decide, by decide⟩,
   ⟨0, 1, 5, ⟨0x401, 0, 0, 9, 0, [], []⟩, expired 0x401 9, chn { dupOf := some (1, 5), frame := some ⟨0x401, 0, 0, 9, 0, [], []⟩ } tI, by decide, by decide, rfl⟩⟩

/-- The hypotheses of RestartReloadAndHealthCheck can be met. -/
theorem witness_RestartReloadAndHealthCheck :
    (∃ (u : Nat) (x : LoadIn) (s : State) (i : Img), u < 18 ∧ ((s.pkg.st = .idle ∨ s.pkg.st = .active)) ∧ s.sq.busy = false ∧ (unitS s u).ustate = .resetting ∧ (unitS s u).awaitReady = false ∧ (unitS s u).go = false ∧ (if u < 8 then (unitS s u).inReset else (unitS s u).ctrlHeld) = false) ∧
    (∃ (s : State), trialReady s = true ∧ (s.pq.wait ++ s.pq.run.toList).any (fun e => e.purp == .health false || e.purp == .health true) = false) ∧
    (∃ (s : State), trialReady s = true) ∧
    (∃ (ok : Bool) (s : State), s.upd.awaitCommit = false) :=
  ⟨⟨0, ⟨false, 0, none, false⟩, upd 0 { ustate := .resetting, inReset := false } tA, ⟨[], []⟩, by decide, .inr rfl, by decide, by decide, by decide, by decide, rfl⟩,
   ⟨{ tI with upd := { tI.upd with awaitCommit := true } }, by decide, by decide⟩,
   ⟨{ tI with upd := { tI.upd with awaitCommit := true } }, by decide⟩,
   ⟨true, tI, by decide⟩⟩

/-- The hypotheses of HostCommandsAnswerTheirFirstFailingCheck can be met. -/
theorem witness_HostCommandsAnswerTheirFirstFailingCheck :
    (∃ (i : Instr) (op : Nat) (c : HostCall) (s : State) (st : Nat), hostOp i = some (op, c) ∧ admission op c.sealed c.payload s = some st) ∧
    (∃ (op : Nat) (b : Bool) (p : Bytes) (s : State), opKnown op = true) ∧
    (∃ (op : Nat) (p : Bytes) (st : PState), st ∈ [.idle, .active, .quarantine, .recovery]) ∧
    (∃ (op : Nat) (b : Bool) (p : Bytes) (s : State), opKnown op = false) ∧
    (∃ (c : HostCall) (op w st d : Nat) (body : Bytes) (s : State), c.ch < 8 ∧ c.sealed = false ∧ namesStage op = false ∧ (chanS s c.ch).discard = false) :=
  ⟨⟨.jobSubmit (call []), 0x401, call [], tI, 0x0300, by decide, by decide⟩,
   ⟨0x401, false, [], tI, by decide⟩,
   ⟨0, [], .idle, by decide⟩,
   ⟨0x0FFF, false, [], tI, by decide⟩,
   ⟨call [], 0, 0, 0, 0, [], tI, by decide, by decide, by decide, by decide⟩⟩

/-- The hypotheses of BaseGroupCommands can be met. -/
theorem witness_BaseGroupCommands :
    (∃ (c : HostCall) (s : State), Admitted 0x000 c s ∧ c.payload = []) ∧
    (∃ (c : HostCall) (s : State), Admitted 0x001 c s ∧ c.payload.length = 16) ∧
    (∃ (c : HostCall) (s : State), Admitted 0x002 c s) ∧
    (∃ (c : HostCall) (n : Nat) (s : State), Admitted 0x003 c s ∧ c.payload = [BitVec.ofNat 8 n, 0, 0, 0] ∧ n < 8) ∧
    (∃ (c : HostCall) (s : State) (o : Bytes), Admitted 0x004 c s ∧ c.payload.length = 16 ∧ allZero (slice c.payload 12 4) = true ∧ field c.payload 8 4 ≠ 0 ∧ field c.payload 8 4 ≤ (if c.sealed then 4034 else 4064) ∧ lookupNat (field c.payload 0 4) (chanS s c.ch).objs = some o) ∧
    (∃ (c : HostCall) (s : State), Admitted 0x005 c s ∧ c.payload.length = 8 ∧ allZero (slice c.payload 4 4) = true) ∧
    (∃ (c : HostCall) (s : State), Admitted 0x006 c s ∧ c.ch < 8 ∧ 9 ≤ c.payload.length ∧ c.payload.length ≤ 4064 ∧ allZero (slice c.payload 4 4) = true ∧ field c.payload 0 4 + (c.payload.length - 8) ≤ 32768) ∧
    (∃ (c : HostCall) (s : State), Admitted 0x007 c s ∧ c.ch < 8 ∧ c.payload = []) :=
  ⟨⟨call [], tI, ⟨by decide, by decide⟩, by decide⟩,
   ⟨call (pay 16 [1]), tI, ⟨by decide, by decide⟩, by decide⟩,
   ⟨call [2, 0, 0, 0], tI, ⟨by decide, by decide⟩⟩,
   ⟨call [0, 0, 0, 0], 0, tI, ⟨by decide, by decide⟩, by decide, by decide⟩,
   ⟨call (pay 16 [1, 0, 0, 0, 0, 0, 0, 0, 1]), { tI with mb := { tI.mb with chans := { objs := [(1, [5#8])] } :: List.replicate 7 {} } }, [5#8], ⟨by decide, by decide⟩, by decide, by decide, by decide, by decide, by decide⟩,
   ⟨call (pay 8 [1]), tI, ⟨by decide, by decide⟩, by decide, by decide⟩,
   ⟨call (pay 9 []), tI, ⟨by decide, by decide⟩, by decide, by decide, by decide, by decide, by decide⟩,
   ⟨call [], tI, ⟨by decide, by decide⟩, by decide, by decide⟩⟩

/-- The hypotheses of AttestationAndRosterReads can be met. -/
theorem witness_AttestationAndRosterReads :
    (∃ (c : HostCall) (s : State), Admitted 0x100 c s ∧ c.payload.length = 36 ∧ field c.payload 32 1 < 2 ∧ allZero (slice c.payload 34 2) = true) ∧
    (∃ (c : HostCall) (s : State) (w : Nat), Admitted 0x101 c s ∧ c.payload = [BitVec.ofNat 8 w, 0, 0, 0] ∧ w < 2 ∧ ((w = 1 → feat s 3 = true)) ∧ ¬ (s.pkg.st = .quarantine ∧ s.pkg.qcause = 1)) ∧
    (∃ (c : HostCall) (s : State), Admitted 0x102 c s ∧ c.payload.length = 16 ∧ field c.payload 0 1 < 32 ∧ allZero (slice c.payload 1 3) = true ∧ allZero (slice c.payload 12 4) = true ∧ 1 ≤ field c.payload 8 4 ∧ field c.payload 8 4 ≤ 60) ∧
    (∃ (c : HostCall) (s : State), Admitted 0x103 c s ∧ c.payload = []) ∧
    (∃ (c : HostCall) (s : State), Admitted 0x205 c s ∧ c.payload.length = 8) ∧
    (∃ (c : HostCall) (s : State), Admitted 0x206 c s ∧ c.payload.length = 8 ∧ 1 ≤ field c.payload 2 2 ∧ field c.payload 2 2 ≤ 256 ∧ allZero (slice c.payload 4 4) = true) ∧
    (∃ (c : HostCall) (s : State), Admitted 0x207 c s ∧ c.payload.length = 8 ∧ field c.payload 0 8 ≠ 0) ∧
    (∃ (c : HostCall) (s : State) (r : ClearRcpt), Admitted 0x207 c s ∧ c.payload.length = 8 ∧ field c.payload 0 8 = 0 ∧ (s.tn.ring ++ s.tn.pend).getLast? = some r) :=
  ⟨⟨call (pay 36 []), tI, ⟨by decide, by decide⟩, by decide, by decide, by decide⟩,
   ⟨call [0, 0, 0, 0], tI, 0, ⟨by decide, by decide⟩, by decide, by decide, by decide, by decide⟩,
   ⟨call (pay 16 [0, 0, 0, 0, 0, 0, 0, 0, 1]), tI, ⟨by decide, by decide⟩, by decide, by decide, by decide, by decide, by decide, by decide⟩,
   ⟨call [], tI, ⟨by decide, by decide⟩, by decide⟩,
   ⟨call (pay 8 []), tI, ⟨by decide, by decide⟩, by decide⟩,
   ⟨call (pay 8 [0, 0, 1]), tI, ⟨by decide, by decide⟩, by decide, by decide, by decide, by decide⟩,
   ⟨call (pay 8 [1]), tI, ⟨by decide, by decide⟩, by decide, by decide⟩,
   ⟨call (pay 8 []), { tI with tn := { tI.tn with ring := [⟨0, []⟩] } }, ⟨0, []⟩, ⟨by decide, by decide⟩, by decide, by decide, by decide⟩⟩

/-- The hypotheses of RosterChangesCommitInFlash can be met. -/
theorem witness_RosterChangesCommitInFlash :
    (∃ (c : HostCall) (s : State), Admitted 0x200 c s ∧ c.ch < 8 ∧ c.payload.length = 32 ∧ stageOk c 8 s = true ∧ allZero (slice c.payload 12 4) = true) ∧
    (∃ (c : HostCall) (i : Nat) (r : TRec) (s : State), Admitted 0x201 c s ∧ c.payload.length = 8 ∧ tidIx (field c.payload 0 8) s = some i ∧ recS s i = some r) ∧
    (∃ (c : HostCall) (i : Nat) (r : TRec) (s : State), Admitted 0x204 c s ∧ c.ch < 8 ∧ c.payload.length = 32 ∧ stageOk c 8 s = true ∧ allZero (slice c.payload 12 4) = true) ∧
    (∃ (c : HostCall) (i : Nat) (r : TRec) (s : State), Admitted 0x204 c s ∧ c.payload.length = 32 ∧ stageOk c 8 s = true ∧ allZero (slice c.payload 12 4) = true ∧ stmtOk (stageBytes c s) 2 (field c.payload 0 8) = true ∧ tidIx (field c.payload 0 8) s = some i ∧ recS s i = some r ∧ r.state = .revoked) ∧
    (∃ (c : HostCall) (w i : Nat) (s : State), s.fq.sync = some (.stage c w i) ∧ s.fq.q = []) ∧
    (∃ (ok : Bool) (s : State), s.fq.busy = false) ∧
    (∃ (j : FJob) (q : List FJob) (s : State), s.fq.busy = true ∧ s.fq.q = j :: q) ∧
    (∃ (c : HostCall) (i : Nat) (r : TRec) (s : State), Admitted 0x202 c s ∧ c.payload.length = 8 ∧ tidIx (field c.payload 0 8) s = some i ∧ recS s i = some r) ∧
    (∃ (c : HostCall) (i : Nat) (r : TRec) (s : State), Admitted 0x203 c s ∧ c.payload.length = 8 ∧ residentIx s = some i ∧ recS s i = some r ∧ s.pkg.st = .active) :=
  ⟨⟨call (pay 8 [1] ++ sref), stg tI, ⟨by decide, by decide⟩, by decide, by decide, (by simp [stageOk, stageBytes, stg, call, sref, pay, mgCh, mgWith, field, slice, le, cellGets, Config.sha384]; exact ⟨rfl, rfl⟩), by decide⟩,
   ⟨call (pay 8 [9]), 0, tRec, ten tI, ⟨by decide, by decide⟩, by decide, by decide, by decide⟩,
   ⟨call (pay 8 [9] ++ sref), 0, tRec, stg tI, ⟨by decide, by decide⟩, by decide, by decide, (by simp [stageOk, stageBytes, stg, call, sref, pay, mgCh, mgWith, field, slice, le, cellGets, Config.sha384]; exact ⟨rfl, rfl⟩), by decide⟩,
   ⟨call (pay 8 [9] ++ srefB 7499 tStmt), 0, { tRec with state := .revoked }, stB 7499 tStmt (rec1 .revoked), ⟨by decide, by decide⟩, by decide, tStageOk 7499 rfl (by simp [stageBytes, call, mgCh, stB, cellGets]) rfl rfl, by decide, by decide +kernel, by decide, by decide, by decide⟩,
   ⟨call [], 0, 0, { tI with fq := { tI.fq with sync := some (.stage (call []) 0 0) } }, by decide, by decide⟩,
   ⟨true, tI, by decide⟩,
   ⟨.link, [], { tI with fq := { tI.fq with busy := true, q := [.link] } }, by decide, by decide⟩,
   ⟨call (pay 8 [9]), 0, tRec, ten tI, ⟨by decide, by decide⟩, by decide, by decide, by decide⟩,
   ⟨call (pay 8 [9]), 0, { tRec with state := .resident }, ten tA, ⟨by decide, by decide⟩, by decide, by decide, by decide, by decide⟩⟩

/-- The hypotheses of LoadingAcknowledgementsAndSwitchHalt can be met. -/
theorem witness_LoadingAcknowledgementsAndSwitchHalt :
    (∃ (t : Nat) (p : Bytes) (s : State), unitTakes s t 0x8001 = some p) ∧
    (∃ (u : Nat) (p : Bytes) (s : State), unitTakes s u 0x8101 = some p) ∧
    (∃ (t : Nat) (pass : Bool) (p : Bytes) (s : State), unitTakes s t 0x8005 = some p) ∧
    (∃ (t : Nat) (p : Bytes) (s : State), unitTakes s t 0x8006 = some p) ∧
    (∃ (u op : Nat) (r : Bytes) (s t : State), unitUp t u = true ∧ (unitS t u).rspValid = true) ∧
    (∃ (u : Nat) (f : Bytes) (s : State), s.wd.fw = .wfw ∧ (unitS s u).cmdOut = some (field f 4 4) ∧ field f 4 4 ≠ 0 ∧ field f 0 2 ≠ 0x8006 ∧ field f 0 2 ≠ 0x8104) ∧
    (∃ (u v : Nat) (r : List Nat) (s : State), s.pkg.st = .loading ∧ s.tn.ld.phase = .entry ∧ unitEntered u s = true ∧ u ∈ s.tn.ld.waiting) ∧
    (∃ (u : Nat) (s : State), u ∉ s.tn.ld.waiting) ∧
    (∃ (u : Nat) (r : List Nat) (s : State), s.pkg.st = .loading ∧ s.tn.ld.waiting = u :: r) ∧
    (∃ (t : Nat) (q p : Bytes) (s : State), s.pkg.st = .loading ∧ s.tn.ld.phase = .selftest ∧ t ∈ s.tn.ld.waiting) ∧
    (∃ (t : Nat) (q p : Bytes) (s : State), s.pkg.st ≠ .loading ∧ (tileJ s t).restoring = true ∧ (tileJ s t).epoch = epochOf s ∧ ((∀ x ∈ s.jb.progs, x.phandle ∈ (tileJ s t).store))) ∧
    (∃ (s : State), s.pkg.st = .loading ∧ s.tn.ld.phase = .selftest ∧ s.tn.ld.waiting = []) ∧
    (∃ (s : State), s.tn.sw.phase = .halt ∧ s.rc.cur = none ∧ s.rc.waiting = none ∧ s.rc.signing = none) ∧
    (∃ (b : Batch) (s : State), s.tn.sw.phase = .halt ∧ s.rc.cur = some b ∧ s.rc.waiting = none ∧ drained s = true) ∧
    (∃ (s : State), drained s = false) :=
  ⟨⟨7, [], tCmd 7 0x8001 [] (tL .entry [7]), (tTakes (by decide) rfl rfl rfl)⟩,
   ⟨8, [], tCmd 8 0x8101 [] (tL .entry [8]), (tTakes (by decide) rfl rfl rfl)⟩,
   ⟨0, true, [], tCmd 0 0x8005 [] tA, (tTakes (by decide) rfl rfl rfl)⟩,
   ⟨0, [], tCmd 0 0x8006 [] tA, (tTakes (by decide) rfl rfl rfl)⟩,
   ⟨0, 0, [], tI, upd 0 { tU with rspValid := true } tI, by decide, by decide⟩,
   ⟨0, [0, 0, 0, 0, 1], upd 0 { tU with cmdOut := some 1 } tI, by decide, by decide, by decide, by decide, by decide⟩,
   ⟨8, 9, [], tL .entry [8, 9], by decide, by decide, by decide, by decide⟩,
   ⟨8, tL .entry [], by decide⟩,
   ⟨0, [], tL .entry [0], by decide, by decide⟩,
   ⟨7, [], [], tL .selftest [7], by decide, by decide, by decide⟩,
   ⟨7, [], [], { tI with jb := { tI.jb with tiles := List.replicate 8 { restoring := true } } }, by decide, by decide, by decide, by decide⟩,
   ⟨tL .selftest [], by decide, by decide, by decide⟩,
   ⟨{ tA with tn := { tA.tn with sw := { phase := .halt } } }, by decide, by decide, by decide, by decide⟩,
   ⟨⟨1, 1, [], [], 0, false⟩, { tA with tn := { tA.tn with sw := { phase := .halt } }, rc := { tA.rc with cur := some ⟨1, 1, [], [], 0, false⟩ } }, by decide, by decide, by decide, by decide⟩,
   ⟨{ tA with xl := { tA.xl with asts := [{ tAst with held := [(7, [], 16)] }] } }, by decide⟩⟩

/-- The hypotheses of ProgramsLoadInstallAndCopy can be met. -/
theorem witness_ProgramsLoadInstallAndCopy :
    (∃ (c : HostCall) (s : State), Admitted 0x400 c s ∧ c.payload.length = 64 ∧ allZero (slice c.payload 1 3) = true) ∧
    (∃ (t ph : Nat) (p : Bytes) (s : State), unitTakes s t 0x8002 = some p ∧ field p 0 4 = ph) ∧
    (∃ (t ph word d e : Nat) (c : HostCall) (x : Prog) (q p : Bytes) (s : State), t < 8 ∧ s.jb.progs.find? (fun x => x.phandle == ph) = some x ∧ s.uw = [⟨1000, 0x8002, some (c, word), ph, d⟩, ⟨t, 0x8002, none, ph, e⟩] ∧ field q 0 4 = ph) ∧
    (∃ (t k ph word d e g : Nat) (c : HostCall) (q p : Bytes) (s : State), t < 8 ∧ k < 8 ∧ k ≠ t ∧ s.uw = [⟨1000, 0x8002, some (c, word), ph, d⟩, ⟨t, 0x8002, none, ph, e⟩, ⟨k, 0x8002, none, ph, g⟩] ∧ field q 0 4 = ph) ∧
    (∃ (src t ph : Nat) (p : Bytes) (s : State), unitTakes s src 0x8007 = some p ∧ field p 0 1 = t ∧ field p 4 4 = ph ∧ (tileJ s t).restoring = true ∧ s.jb.progs.any (fun p => p.phandle == ph) = true) ∧
    (∃ (src t : Nat) (q p : Bytes) (s : State), field q 0 1 = t) :=
  ⟨⟨call (pay 64 []), tA, ⟨by decide, by decide⟩, by decide, by decide⟩,
   ⟨7, 1, [1, 0, 0, 0], tCmd 7 0x8002 [1, 0, 0, 0] tA, (tTakes (by decide) rfl rfl rfl), by decide⟩,
   ⟨7, 1, 0, 0, 0, call [], tProg, [1], [], { tA with jb := { tA.jb with progs := [tProg] }, uw := [⟨1000, 0x8002, some (call [], 0), 1, 0⟩, ⟨7, 0x8002, none, 1, 0⟩] }, by decide, by decide, by decide, by decide⟩,
   ⟨7, 6, 1, 0, 0, 0, 0, call [], [1], [], { tA with uw := [⟨1000, 0x8002, some (call [], 0), 1, 0⟩, ⟨7, 0x8002, none, 1, 0⟩, ⟨6, 0x8002, none, 1, 0⟩] }, by decide, by decide, by decide, by decide, by decide⟩,
   ⟨1, 0, 1, [0, 0, 0, 0, 1, 0, 0, 0], tCmd 1 0x8007 [0, 0, 0, 0, 1, 0, 0, 0] { tA with jb := { tA.jb with progs := [tProg], tiles := { restoring := true } :: List.replicate 7 {} } }, (tTakes (by decide) rfl rfl rfl), by decide, by decide, by decide, by decide⟩,
   ⟨1, 0, [], [], tA, by decide⟩⟩

/-- The hypotheses of JobsSubmitQueueRunAndEnd can be met. -/
theorem witness_JobsSubmitQueueRunAndEnd :
    (∃ (c : HostCall) (s : State), Admitted 0x401 c s ∧ c.payload.length = 96) ∧
    (∃ (t jid : Nat) (j : Job) (p : Bytes) (s : State), unitTakes s t 0x8003 = some p ∧ field p 8 8 = jid ∧ field p 0 8 = j.order ∧ jobS s jid = some j ∧ j.st = .queued ∧ bit j.tiles t = true) ∧
    (∃ (t jid w d : Nat) (c : HostCall) (j : Job) (q p : Bytes) (s : State), s.uw = [⟨t, 0x8003, some (c, w), jid, d⟩] ∧ jobS s jid = some j ∧ field q 8 8 = jid) ∧
    (∃ (jid : Nat) (s : State) (j : Job), jobS s jid = some j ∧ s.pkg.st = .active ∧ j.st = .queued ∧ j.stale = false ∧ bit s.lg.mask 3 = false ∧ ((∀ t < 8, bit j.tiles t = true → (tileJ s t).eligible = true ∧ (unitS s t).clkStop = false ∧ ∃ o r, (tileJ s t).queue = (o, jid) :: r))) ∧
    (∃ (jid : Nat) (x : JobEnd) (j : Job) (s : State), jobS s jid = some j ∧ j.st = .running ∧ j.ending = false) ∧
    (∃ (c : HostCall) (j : Job) (s : State), Admitted 0x402 c s ∧ c.payload.length = 8 ∧ jobS s (field c.payload 0 8) = some j) ∧
    (∃ (c : HostCall) (s : State), Admitted 0x402 c s ∧ c.payload.length = 8 ∧ jobS s (field c.payload 0 8) = none) ∧
    (∃ (t jid n : Nat) (j : Job) (p : Bytes) (s : State), unitTakes s t 0x8004 = some p ∧ field p 0 8 = jid ∧ field p 8 2 = n ∧ jobS s jid = some j) ∧
    (∃ (t jid w d : Nat) (c : HostCall) (q p : Bytes) (s : State), s.uw = [⟨t, 0x8004, some (c, w), jid, d⟩] ∧ field q 0 8 = jid) ∧
    (∃ (c : HostCall) (j : Job) (s : State), Admitted 0x403 c s ∧ c.payload.length = 8 ∧ jobS s (field c.payload 0 8) = some j ∧ s.pw.quant = false ∧ s.mb.jobWin.any (fun e => e.job == field c.payload 0 8) = true) ∧
    (∃ (c : HostCall) (s : State), Admitted 0x403 c s ∧ c.payload.length = 8 ∧ jobS s (field c.payload 0 8) = none) :=
  ⟨⟨call (pay 96 []), tA, ⟨by decide, by decide⟩, by decide⟩,
   ⟨0, 7, tJob .queued, pay 16 [1, 0, 0, 0, 0, 0, 0, 0, 7], tCmd 0 0x8003 (pay 16 [1, 0, 0, 0, 0, 0, 0, 0, 7]) { tA with jb := { tA.jb with list := [tJob .queued] } }, (tTakes (by decide) rfl rfl rfl), by decide, by decide, by decide, by decide, by decide⟩,
   ⟨0, 7, 0, 0, call [], tJob .queued, pay 16 [1, 0, 0, 0, 0, 0, 0, 0, 7], [], { tA with jb := { tA.jb with list := [tJob .queued] }, uw := [⟨0, 0x8003, some (call [], 0), 7, 0⟩] }, by decide, by decide, by decide⟩,
   ⟨7, { tA with jb := { tA.jb with list := [tJob .queued], tiles := { eligible := true, queue := [(1, 7)] } :: List.replicate 7 {} } }, tJob .queued, by decide, by decide, by decide, by decide, by decide, by
     intro t ht hb; interval_cases t <;> first | exact ⟨by decide, by decide, 1, [], by decide⟩ | exact absurd hb (by decide)⟩,
   ⟨7, ⟨0, 0, false, false, 0⟩, tJob .running, { tA with jb := { tA.jb with list := [tJob .running] } }, by decide, by decide, by decide⟩,
   ⟨call (pay 8 [7]), tJob .parked, { tA with jb := { tA.jb with list := [tJob .parked] } }, ⟨by decide, by decide⟩, by decide, by decide⟩,
   ⟨call (pay 8 [7]), tA, ⟨by decide, by decide⟩, by decide, by decide⟩,
   ⟨0, 7, 0, tJob .running, pay 16 [7], tCmd 0 0x8004 (pay 16 [7]) { tA with jb := { tA.jb with list := [tJob .running] } }, (tTakes (by decide) rfl rfl rfl), by decide, by decide, by decide⟩,
   ⟨0, 7, 0, 0, call [], [7], [], { tA with uw := [⟨0, 0x8004, some (call [], 0), 7, 0⟩] }, by decide, by decide⟩,
   ⟨call (pay 8 [7]), tJob .parked, { tA with jb := { tA.jb with list := [tJob .parked] }, mb := { tA.mb with jobWin := [⟨7, 0, 0, [], none⟩] } }, ⟨by decide, by decide⟩, by decide, by decide, by decide, by decide⟩,
   ⟨call (pay 8 [7]), tA, ⟨by decide, by decide⟩, by decide, by decide⟩⟩

/-- The hypotheses of TileChecksRingsAndBatches can be met. -/
theorem witness_TileChecksRingsAndBatches :
    (∃ (t jid step : Nat) (j : Job) (s : State), jobS s jid = some j ∧ t < 8 ∧ j.st = .running ∧ bit j.tiles t = true ∧ (tileJ s t).gateClosed = false) ∧
    (∃ (t : Nat) (s : State), t < 8 ∧ (tileJ s t).gateClosed = false) ∧
    (∃ (t region line : Nat) (s : State), t < 8 ∧ unitUp s t = true ∧ line < regionLines region) ∧
    (∃ (t region line : Nat) (j h : Option Nat) (s : State), regionLines region ≤ line) ∧
    (∃ (tag ct : Nat) (a : Ast) (s : State), astS s tag = some a) ∧
    (∃ (s : State), s.pw.quant = false) ∧
    (∃ (s : State), s.pw.quant = true ∧ s.xl.asts = []) ∧
    (∃ (c : HostCall) (s : State), Admitted 0x404 c s ∧ c.payload = []) ∧
    (∃ (b : Batch) (s : State), s.rc.cur = some b) ∧
    (∃ (s : State), s.rc.cur = none) :=
  ⟨⟨0, 7, 0, tJob .running, { tA with jb := { tA.jb with list := [tJob .running] } }, by decide, by decide, by decide, by decide, by decide⟩,
   ⟨7, tA, by decide, by decide⟩,
   ⟨0, 0, 0, tA, by decide, by decide, by decide⟩,
   ⟨0, 0, 0x1000000000, none, none, tA, by decide⟩,
   ⟨3, 0, tAst, { tA with xl := { tA.xl with asts := [tAst] } }, by decide⟩,
   ⟨tA, by decide⟩,
   ⟨{ tA with pw := { tA.pw with quant := true } }, by decide, by decide⟩,
   ⟨call [], tA, ⟨by decide, by decide⟩, by decide⟩,
   ⟨⟨1, 1, [], [], 0, false⟩, { tA with rc := { tA.rc with cur := some ⟨1, 1, [], [], 0, false⟩ } }, by decide⟩,
   ⟨tA, by decide⟩⟩

/-- The hypotheses of StackMemoryAndSpill can be met. -/
theorem witness_StackMemoryAndSpill :
    (∃ (t addr : Nat) (od : Bool) (s : State), hasStack s t = true ∧ s.pkg.memPg = true) ∧
    (∃ (t line : Nat) (s : State), hasStack s t = true ∧ s.pkg.memPg = true ∧ line < 30 * 2 ^ 24 ∧ (portKey s t 0).isSome = true ∧ (portKey s t 1).isSome = true ∧ (mcS s t).heat ≠ 2 ∧ s.pkg.refLink = true) ∧
    (∃ (t line : Nat) (w : Option Bytes) (s : State), (portKey s t 0) = none) ∧
    (∃ (t temp : Nat) (s : State), hasStack s t = true ∧ s.pkg.memPg = true ∧ temp < 95 ∧ (mcS s t).heat ≠ 2) ∧
    (∃ (t temp : Nat) (s : State), hasStack s t = true ∧ s.pkg.memPg = true ∧ 105 ≤ temp ∧ t < s.jb.mc.length) ∧
    (∃ (page jid : Nat) (j : Job) (s : State), jobS s jid = some j ∧ s.sp.en = true ∧ s.sp.first ≤ page ∧ page < s.sp.first + s.sp.pages ∧ j.st = .running) ∧
    (∃ (page : Nat) (s : State), page ∈ s.sp.fetching ∧ ((∀ w ∈ s.sp.waiting, w.1 ≠ page))) ∧
    (∃ (page : Nat) (ok : Bool) (s : State), page ∉ s.sp.fetching) :=
  ⟨⟨0, 0, false, tA, by decide, by decide⟩,
   ⟨0, 30 * 2 ^ 24 - 1, upd 0 { tU with ports := [⟨0, []⟩, ⟨1, []⟩] } tA, by decide, by decide, by decide, by decide, by decide, by decide, by decide⟩,
   ⟨0, 0, none, tA, by decide⟩,
   ⟨0, 94, tA, by decide, by decide, by decide, by decide⟩,
   ⟨0, 105, tA, by decide, by decide, by decide, by decide⟩,
   ⟨3, 7, tJob .running, { tA with jb := { tA.jb with list := [tJob .running] }, sp := { tA.sp with en := true, pages := 4 } }, by decide, by decide, by decide, by decide, by decide⟩,
   ⟨3, { tA with sp := { tA.sp with fetching := [3] } }, by decide, by decide⟩,
   ⟨3, true, tA, by decide⟩⟩

/-- The hypotheses of WeightPackagesOpenLoadFinishClose can be met. -/
theorem witness_WeightPackagesOpenLoadFinishClose :
    (∃ (c : HostCall) (s : State), Admitted 0x300 c s ∧ c.ch < 8 ∧ c.payload.length = 48 ∧ stageOk c 0 s = false) ∧
    (∃ (c : HostCall) (s : State), Admitted 0x300 c s ∧ c.ch < 8 ∧ c.payload.length = 48 ∧ stageOk c 0 s = true ∧ allZero (slice c.payload 4 4) = true) ∧
    (∃ (c : HostCall) (s : State), Admitted 0x301 c s ∧ c.payload.length = 1720) ∧
    (∃ (c : HostCall) (st : Nat) (s : State), Admitted 0x302 c s ∧ c.ch < 8 ∧ c.payload.length = 32 ∧ stageOk c 8 s = true ∧ allZero (slice c.payload 12 4) = true ∧ releaseCheck (field c.payload 0 4) 2 s = some st) ∧
    (∃ (c : HostCall) (w : Wpk) (s : State), Admitted 0x302 c s ∧ c.ch < 8 ∧ c.payload.length = 32 ∧ stageOk c 8 s = true ∧ allZero (slice c.payload 12 4) = true ∧ releaseCheck (field c.payload 0 4) 2 s = none ∧ wpkOpen s (field c.payload 0 4) = some w ∧ allZero (slice c.payload 4 4) = true) ∧
    (∃ (c : HostCall) (w : Wpk) (s : State), Admitted 0x303 c s ∧ c.payload.length = 16 ∧ wpkOpen s (field c.payload 0 4) = some w ∧ allZero (slice c.payload 12 4) = true ∧ s.wk.load = none ∧ ((w.ws = .keyed ∨ w.ws = .loading)) ∧ field c.payload 8 4 ≠ 0 ∧ field c.payload 4 4 + field c.payload 8 4 ≤ w.pages ∧ field c.payload 4 4 ≤ w.loaded) ∧
    (∃ (x : PageIn) (l : WLoad) (w : Wpk) (k : Bytes) (s : State), s.wk.load = some l ∧ wpkS s l.handle = some w ∧ x.srcFault = false ∧ portKey s 8 0x40 = some k) ∧
    (∃ (c : HostCall) (w : Wpk) (s : State), Admitted 0x304 c s ∧ c.payload.length = 8 ∧ wpkOpen s (field c.payload 0 4) = some w ∧ allZero (slice c.payload 4 4) = true ∧ s.wk.load = none) ∧
    (∃ (c : HostCall) (w : Wpk) (s : State), Admitted 0x305 c s ∧ c.payload.length = 8 ∧ wpkOpen s (field c.payload 0 4) = some w ∧ allZero (slice c.payload 4 4) = true) ∧
    (∃ (c : HostCall) (s : State), Admitted 0x306 c s ∧ c.payload.length = 8) :=
  ⟨⟨call (pay 48 [1]), tA, ⟨by decide, by decide⟩, by decide, by decide, rfl⟩,
   ⟨call (sref ++ pay 24 []), stg tA, ⟨by decide, by decide⟩, by decide, by decide, (by simp [stageOk, stageBytes, stg, call, sref, pay, mgCh, mgWith, field, slice, le, cellGets, Config.sha384]; exact ⟨rfl, rfl⟩), by decide⟩,
   ⟨call (List.replicate 1720 0), tA, ⟨by decide, by decide⟩, List.length_replicate⟩,
   ⟨call (pay 8 [9] ++ sref), stBadHandle, stg tA, ⟨by decide, by decide⟩, by decide, by decide, (by simp [stageOk, stageBytes, stg, call, sref, pay, mgCh, mgWith, field, slice, le, cellGets, Config.sha384]; exact ⟨rfl, rfl⟩), by decide, by decide⟩,
   ⟨call (pay 8 [1] ++ sref), { tWpk .opened with bind := 2 }, { stg tA with wk := { hs := [{ tWpk .opened with bind := 2 }] } }, ⟨by decide, by decide⟩, by decide, by decide, (by simp [stageOk, stageBytes, stg, call, sref, pay, mgCh, mgWith, field, slice, le, cellGets, Config.sha384]; exact ⟨rfl, rfl⟩), by decide, by decide, by decide, by decide⟩,
   ⟨call (pay 16 [1, 0, 0, 0, 0, 0, 0, 0, 1]), tWpk .keyed, wp .keyed tA, ⟨by decide, by decide⟩, by decide, by decide, by decide, by decide, by decide, by decide, by decide, by decide⟩,
   ⟨⟨false, [], []⟩, ⟨1, call [], 1⟩, tWpk .loading, [], { upd 8 { tU with ports := [⟨0x40, []⟩] } (wp .loading tA) with wk := { hs := [tWpk .loading], load := some ⟨1, call [], 1⟩ } }, by decide, by decide, by decide, by decide⟩,
   ⟨call (pay 8 [1]), tWpk .loading, wp .loading tA, ⟨by decide, by decide⟩, by decide, by decide, by decide, by decide⟩,
   ⟨call (pay 8 [1]), tWpk .loading, wp .loading tA, ⟨by decide, by decide⟩, by decide, by decide, by decide⟩,
   ⟨call (pay 8 [1]), wp .loading tA, ⟨by decide, by decide⟩, by decide⟩⟩

/-- The hypotheses of TagsAndInvalidations can be met. -/
theorem witness_TagsAndInvalidations :
    (∃ (c : HostCall) (s : State), Admitted 0x500 c s ∧ c.payload.length = 16 ∧ field c.payload 8 8 ≠ 0 ∧ field c.payload 8 8 % 65536 = 0 ∧ bits (field c.payload 1 1) 4 4 = 0 ∧ ((bits (field c.payload 1 1) 0 4 = 0 ∨ (8 ≤ bits (field c.payload 1 1) 0 4 ∧ bits (field c.payload 1 1) 0 4 ≤ 14))) ∧ allZero (slice c.payload 3 5) = true ∧ ((s.pkg.mode = .opened → field c.payload 2 1 % 64 = 0))) ∧
    (∃ (c : HostCall) (s : State), Admitted 0x500 c s ∧ c.payload.length = 16 ∧ ((field c.payload 8 8 = 0 ∨ field c.payload 8 8 % 65536 ≠ 0))) ∧
    (∃ (c : HostCall) (s : State), Admitted 0x501 c s ∧ c.payload.length = 8 ∧ allZero (slice c.payload 1 7) = true) ∧
    (∃ (c : HostCall) (s : State), Admitted 0x502 c s ∧ c.payload.length = 16 ∧ field c.payload 1 1 < 2 ∧ allZero (slice c.payload 2 2) = true ∧ (astS s (field c.payload 0 1)).isSome = true ∧ ((field c.payload 1 1 = 0 → field c.payload 8 8 % 65536 = 0 ∧ field c.payload 8 8 < 2 ^ 52))) ∧
    (∃ (n v : Nat) (s : State), n < 64 ∧ barOn s 0 = true) ∧
    (∃ (lane : Option Nat) (call : Option (HostCall × Nat)) (tag page count : Nat) (all : Bool) (s : State), s.jb.list = []) ∧
    (∃ (i : Inval) (n : Nat) (s : State), s.xl.invs = [i] ∧ i.jobs = [] ∧ i.walks = [] ∧ i.pages = [] ∧ i.lane = some n ∧ i.call = none ∧ ((∀ a ∈ s.xl.asts, a.tag = i.tag → a.resid = []))) ∧
    (∃ (i : Inval) (c : HostCall) (w : Nat) (s : State), s.xl.invs = [i] ∧ i.jobs = [] ∧ i.walks = [] ∧ i.pages = [] ∧ i.lane = none ∧ i.call = some (c, w) ∧ c.payload.length = 16 ∧ ((∀ a ∈ s.xl.asts, a.tag = i.tag → a.resid = []))) ∧
    (∃ (i : Inval) (j : Nat) (x : Job) (s : State), s.xl.invs.find? (fun y => y.id == i.id) = some i ∧ j ∈ i.jobs ∧ jobS s j = some x ∧ x.st = .running) ∧
    (∃ (v : Word) (s : State), barOn s 0 = true ∧ s.xl.waiting = []) ∧
    (∃ (c : HostCall) (s : State), Admitted 0x506 c s ∧ c.payload.length = 24) :=
  ⟨⟨call (pay 16 [3, 0, 0, 0, 0, 0, 0, 0, 0, 0, 1]), tA, ⟨by decide, by decide⟩, by decide, by decide, by decide, by decide, by decide, by decide, by decide⟩,
   ⟨call (pay 16 [3]), tA, ⟨by decide, by decide⟩, by decide, by decide⟩,
   ⟨call (pay 8 [3]), tA, ⟨by decide, by decide⟩, by decide, by decide⟩,
   ⟨call (pay 16 [3, 1]), { tA with xl := { tA.xl with asts := [tAst] } }, ⟨by decide, by decide⟩, by decide, by decide, by decide, by decide, by decide⟩,
   ⟨63, 0, tA, by decide, by decide⟩,
   ⟨none, none, 3, 0, 0, true, tA, by decide⟩,
   ⟨tInv (some 0) none, 0, { tA with xl := { tA.xl with invs := [tInv (some 0) none] } }, by decide, by decide, by decide, by decide, by decide, by decide, by decide⟩,
   ⟨tInv none (some (call (pay 16 []), 0)), call (pay 16 []), 0, { tA with xl := { tA.xl with invs := [tInv none (some (call (pay 16 []), 0))] } }, by decide, by decide, by decide, by decide, by decide, by decide, by decide, by decide⟩,
   ⟨{ tInv (some 0) none with jobs := [7] }, 7, tJob .running, { tA with jb := { tA.jb with list := [tJob .running] }, xl := { tA.xl with invs := [{ tInv (some 0) none with jobs := [7] }] } }, by decide, by decide, by decide, by decide⟩,
   ⟨0#32, tA, by decide, by decide⟩,
   ⟨call (pay 24 []), tA, ⟨by decide, by decide⟩, by decide⟩⟩

/-- The hypotheses of WalksFaultsAndMigration can be met. -/
theorem witness_WalksFaultsAndMigration :
    (∃ (id : Nat) (es : List Nat) (s : State), s.xl.walks.find? (fun w => w.id == id) = none) ∧
    (∃ (w : Walk) (p : Nat × Bool) (c : HostCall) (a : Ast) (s : State), s.xl.walks = [w] ∧ w.todo = [p] ∧ w.done = [] ∧ w.overlap = false ∧ astS s w.tag = some a ∧ w.for_ = .prog c) ∧
    (∃ (w : Walk) (p q : Nat × Bool) (e t : Nat) (a : Ast) (s : State), s.xl.walks = [w] ∧ w.todo = [p, q] ∧ w.done = [] ∧ w.level = 3 ∧ w.overlap = false ∧ astS s w.tag = some a ∧ a.tag = w.tag ∧ a.resid = [] ∧ p.1 < 8191 * 2 ^ 23 ∧ entryKind 3 e = (2, t) ∧ s.xl.upper = []) ∧
    (∃ (w : Walk) (p q : Nat × Bool) (a : Ast) (s : State), s.xl.walks = [w] ∧ w.todo = [p, q] ∧ w.done = [] ∧ w.overlap = false ∧ astS s w.tag = some a ∧ a.tag = w.tag ∧ a.resid = [] ∧ q.1 < 8191 * 2 ^ 23 ∧ s.xl.upper = []) ∧
    (∃ (w : Walk) (j : Nat) (c : HostCall) (x : Job) (s : State), s.xl.walks.find? (fun y => y.id == w.id) = some w ∧ w.for_ = .submit j c ∧ jobS s j = some x) ∧
    (∃ (s : State), s.xl.cur = []) ∧
    (∃ (s : State), s.xl.cur ≠ [] ∧ s.xl.waiting = [] ∧ s.hb.frEn = false) ∧
    (∃ (tag page : Nat) (s : State), (tag, page) ∉ s.xl.migr) ∧
    (∃ (tag page : Nat) (s : State), (tag, page) ∈ s.xl.migr ∧ s.jb.list = []) ∧
    (∃ (tag page : Nat) (a : Ast) (s : State), astS s tag = some a ∧ a.resid.find? (fun r => r.page == page) = none) ∧
    (∃ (tag page : Nat) (a : Ast) (r : Resid) (s : State), astS s tag = some a ∧ a.resid.find? (fun r => r.page == page) = some r ∧ r.release = true ∧ s.jb.list = [] ∧ ((r.st = .clean ∨ (r.st = .dirty ∧ s.pkg.mode ≠ .opened)))) ∧
    (∃ (tag page : Nat) (a : Ast) (r : Resid) (s : State), astS s tag = some a ∧ a.resid.find? (fun r => r.page == page) = some r ∧ r.release = true ∧ pageUsed tag page s = false ∧ r.st = .dirty ∧ s.pkg.mode = .opened ∧ s.xl.walks = []) ∧
    (∃ (tag page : Nat) (a : Ast) (r : Resid) (s : State), astS s tag = some a ∧ a.resid.find? (fun r => r.page == page) = some r ∧ ((r.release = false ∨ pageUsed tag page s = true))) ∧
    (∃ (c : HostCall) (s : State), Admitted 0x503 c s ∧ c.payload.length = 24 ∧ allZero (slice c.payload 1 7) = true ∧ rangeArg (field c.payload 8 8) (field c.payload 16 8) = true ∧ (astS s (field c.payload 0 1)).isSome = true) ∧
    (∃ (c : HostCall) (a : Ast) (s : State), Admitted 0x504 c s ∧ c.payload.length = 24 ∧ allZero (slice c.payload 2 6) = true ∧ rangeArg (field c.payload 8 8) (field c.payload 16 8) = true ∧ astS s (field c.payload 0 1) = some a) ∧
    (∃ (c : HostCall) (s : State), Admitted 0x505 c s ∧ c.payload.length = 8 ∧ allZero (slice c.payload 4 4) = true) :=
  ⟨⟨1, [], tA, by decide⟩,
   ⟨tWalk (.prog (call [])) [(0, false)], (0, false), call [], tAst, wlk (tWalk (.prog (call [])) [(0, false)]) tA, by decide, by decide, by decide, by decide, by decide, by decide⟩,
   ⟨tWalk (.prog (call [])) [(0, false), (1, false)], (0, false), (1, false), 0x10001, 0x10000, tAst, wlk (tWalk (.prog (call [])) [(0, false), (1, false)]) tA, by decide, by decide, by decide, by decide, by decide, by decide, by decide, by decide, by decide, by decide, by decide⟩,
   ⟨tWalk (.prog (call [])) [(0, false), (1, false)], (0, false), (1, false), tAst, wlk (tWalk (.prog (call [])) [(0, false), (1, false)]) tA, by decide, by decide, by decide, by decide, by decide, by decide, by decide, by decide, by decide⟩,
   ⟨tWalk (.submit 7 (call [])) [(0, false)], 7, call [], tJob .parked, { wlk (tWalk (.submit 7 (call [])) [(0, false)]) tA with jb := { tA.jb with list := [tJob .parked] } }, by decide, by decide, by decide⟩,
   ⟨tA, by decide⟩,
   ⟨{ tA with xl := { tA.xl with cur := [⟨3, 1, 8, 0, 0, 7⟩] } }, by decide, by decide, by decide⟩,
   ⟨3, 0, tA, by decide⟩,
   ⟨3, 0, { tA with xl := { tA.xl with migr := [(3, 0)] } }, by decide, by decide⟩,
   ⟨3, 0, tAst, { tA with xl := { tA.xl with asts := [tAst] } }, by decide, by decide⟩,
   ⟨3, 0, { tAst with resid := [⟨0, 0, .clean, true⟩] }, ⟨0, 0, .clean, true⟩, { tA with xl := { tA.xl with asts := [{ tAst with resid := [⟨0, 0, .clean, true⟩] }] } }, by decide, by decide, by decide, by decide, by decide⟩,
   ⟨3, 0, { tAst with resid := [⟨0, 0, .dirty, true⟩] }, ⟨0, 0, .dirty, true⟩, { tA with xl := { tA.xl with asts := [{ tAst with resid := [⟨0, 0, .dirty, true⟩] }] } }, by decide, by decide, by decide, by decide, by decide, by decide, by decide⟩,
   ⟨3, 0, { tAst with resid := [⟨0, 0, .clean, false⟩] }, ⟨0, 0, .clean, false⟩, { tA with xl := { tA.xl with asts := [{ tAst with resid := [⟨0, 0, .clean, false⟩] }] } }, by decide, by decide, by decide⟩,
   ⟨call (pay 24 [3, 0, 0, 0, 0, 0, 0, 0, 0, 0, 0, 0, 0, 0, 0, 0, 0, 0, 1]), { tA with xl := { tA.xl with asts := [tAst] } }, ⟨by decide, by decide⟩, by decide, by decide, by decide, by decide⟩,
   ⟨call (pay 24 [3, 0, 0, 0, 0, 0, 0, 0, 0, 0, 0, 0, 0, 0, 0, 0, 0, 0, 1]), tAst, { tA with xl := { tA.xl with asts := [tAst] } }, ⟨by decide, by decide⟩, by decide, by decide, by decide, by decide⟩,
   ⟨call (pay 8 [1]), tA, ⟨by decide, by decide⟩, by decide, by decide⟩⟩

/-- The hypotheses of AperturesRecordsAndLanes can be met. -/
theorem witness_AperturesRecordsAndLanes :
    (∃ (c : HostCall) (s : State), Admitted 0x507 c s ∧ c.payload.length = 24 ∧ s.pkg.mode ≠ .confidential) ∧
    (∃ (c : HostCall) (s : State), Admitted 0x507 c s ∧ c.payload.length = 24 ∧ s.pkg.mode = .confidential ∧ allZero (slice c.payload 3 5) = true ∧ (astS s (field c.payload 0 1)).isSome = true) ∧
    (∃ (d a : Nat) (s : State), a ∉ (pxS s d).quiesce) ∧
    (∃ (d a : Nat) (s : State), a ∈ (pxS s d).quiesce) ∧
    (∃ (d a : Nat) (s : State), d < s.px.length ∧ a < (pxS s d).aps.length) ∧
    (∃ (a off : Nat) (v : Word) (s : State), a < 64 ∧ barOn s 0 = true) ∧
    (∃ (d a i : Nat) (x : RecIn) (k : Bytes) (s : State), d < 4 ∧ (apS s d a).valid = true ∧ (apS s d a).outbound = false ∧ i < (apS s d a).len / 4096 ∧ portKey s (unitOfOrd s d) a = some k ∧ (apS s d a).keyed = true ∧ a ∉ (pxS s d).quiesce ∧ (apS s d a).exh = false ∧ 1 ≤ x.rlen ∧ x.rlen ≤ 4096 ∧ x.kgen = (apS s d a).kgen ∧ x.seq ≠ 0 ∧ x.reach ≤ x.rlen ∧ ((d = 0 → a = 63 → s.sp.paired = false))) ∧
    (∃ (i : Nat) (x : RecIn) (k : Bytes) (s : State), apHas 0 63 i false s = true ∧ s.sp.paired = true ∧ portKey s 8 63 = some k ∧ (apS s 0 63).keyed = true ∧ 63 ∉ (pxS s 0).quiesce ∧ 1 ≤ x.rlen ∧ x.rlen ≤ 4096 ∧ x.kgen = 0 ∧ x.seq ≠ 0 ∧ x.reach ≤ x.rlen ∧ x.seq = recSt s 0 ((apS s 0 62).rtbase + i)) ∧
    (∃ (d a i : Nat) (x : RecIn) (s : State), apHas d a i false s = false) ∧
    (∃ (d a i : Nat) (b k : Bytes) (s : State), d < 4 ∧ (apS s d a).valid = true ∧ (apS s d a).outbound = true ∧ i < (apS s d a).len / 4096 ∧ 1 ≤ b.length ∧ b.length ≤ 4096 ∧ portKey s (unitOfOrd s d) a = some k ∧ (apS s d a).keyed = true ∧ a ∉ (pxS s d).quiesce ∧ (apS s d a).exh = false ∧ apGated d a i s = false) ∧
    (∃ (d a i : Nat) (b : Bytes) (s : State), (apHas d a i true s = false ∨ apGated d a i s = true)) ∧
    (∃ (d stream jid : Nat) (j : Job) (s : State), jobS s jid = some j ∧ d < 4 ∧ j.die = d ∧ j.st = .running ∧ stream < 62 ∧ j.stream = stream ∧ lookupNat stream (pxS s d).streams = none) ∧
    (∃ (jid chunk : Nat) (b : Bytes) (j : Job) (s : State), jobS s jid = some j ∧ j.st = .running ∧ j.receipt = true ∧ j.ending = false ∧ b ≠ []) ∧
    (∃ (c : HostCall) (plen : Nat) (dig b : Bytes) (r : List (HostCall × Nat × Bytes)) (chunk : Nat) (s : State), s.jb.progLoad = (c, plen, dig) :: r ∧ s.jb.progs.find? (fun x => x.dig == dig) = none ∧ Config.sha384 b ≠ dig) :=
  ⟨⟨call (pay 24 []), tA, ⟨by decide, by decide⟩, by decide, by decide⟩,
   ⟨⟨0, 1, true, pay 24 [3, 0]⟩, { tA with pkg := { tA.pkg with mode := .confidential }, xl := { tA.xl with asts := [tAst] } }, ⟨by decide, by decide⟩, by decide, by decide, by decide, by decide⟩,
   ⟨0, 63, tA, by decide⟩,
   ⟨0, 63, { tA with px := { quiesce := [63] } :: List.replicate 3 {} }, by decide⟩,
   ⟨3, 63, tA, by decide, by decide⟩,
   ⟨63, 0, 0#32, tA, by decide, by decide⟩,
   ⟨0, 0, 0, ⟨1, 1, 1, [], [], 1⟩, [], apn { valid := true, keyed := true, kgen := 1, len := 4096 } tA, by decide, by decide, by decide, by decide, by decide, by decide, by decide, by decide, by decide, by decide, by decide, by decide, by decide, by decide⟩,
   ⟨0, ⟨1, 1, 0, [], [], 0⟩, [], { upd 8 { tU with ports := [⟨63, []⟩] } tI with sp := { tI.sp with paired := true }, px := { aps := List.replicate 63 {} ++ [{ valid := true, keyed := true, len := 4096 }], recst := [(0, 1)] } :: List.replicate 3 {} }, by decide, by decide, by decide, by decide, by decide, by decide, by decide, by decide, by decide, by decide, by decide⟩,
   ⟨0, 0, 0, ⟨1, 1, 1, [], [], 1⟩, tA, by decide⟩,
   ⟨0, 0, 0, [1#8], [], apn { valid := true, outbound := true, keyed := true, kgen := 1, len := 4096 } tA, by decide, by decide, by decide, by decide, by decide, by decide, by decide, by decide, by decide, by decide, by decide⟩,
   ⟨0, 0, 0, [], tA, by decide⟩,
   ⟨0, 0, 7, tJob .running, { tA with jb := { tA.jb with list := [tJob .running] } }, by decide, by decide, by decide, by decide, by decide, by decide, by decide⟩,
   ⟨7, 0, [1#8], { tJob .running with receipt := true }, { tA with jb := { tA.jb with list := [{ tJob .running with receipt := true }] } }, by decide, by decide, by decide, by decide, by decide⟩,
   ⟨call [], 128, [], [], [], 0, { tA with jb := { tA.jb with progLoad := [(call [], 128, [])] } }, rfl, by decide, fun h => by simpa [Config.sha384] using congrArg List.length h⟩⟩

/-- The hypotheses of LinkCommands can be met. -/
theorem witness_LinkCommands :
    (∃ (c : HostCall) (s : State), Admitted 0x600 c s ∧ c.payload.length = 4 ∧ allZero (slice c.payload 1 3) = true) ∧
    (∃ (c : HostCall) (s : State), Admitted 0x602 c s ∧ c.payload.length = 8) ∧
    (∃ (j : Nat) (s : State), ((∀ i ∈ s.ln.inst, i.job ≠ j)) ∧ ((∀ p ∈ s.ln.pend, p.job ≠ j))) ∧
    (∃ (c : HostCall) (s : State), Admitted 0x603 c s ∧ c.payload.length = 16 ∧ unitType s (field c.payload 0 1) = .port ∧ allZero (slice c.payload 2 2) = true ∧ allZero (slice c.payload 15 1) = true) ∧
    (∃ (u p : Nat) (b q : Bytes) (s : State), unitTakes s u 0x8102 = some q ∧ field q 0 1 = p ∧ slice q 4 12 = slice b 0 12 ∧ lportOk s u p = true) ∧
    (∃ (u p w d : Nat) (c : HostCall) (q r : Bytes) (s : State), s.uw = [⟨u, 0x603, some (c, w), p, d⟩] ∧ field q 0 1 = p ∧ slice (slice q 4 12) 0 12 = slice c.payload 4 12) ∧
    (∃ (c : HostCall) (s : State), Admitted 0x604 c s ∧ c.ch < 8 ∧ c.payload.length = 32 ∧ stageOk c 8 s = true ∧ allZero (slice c.payload 12 4) = true) ∧
    (∃ (c : HostCall) (s : State), Admitted 0x601 c s ∧ c.ch < 8 ∧ c.payload.length = 32 ∧ stageOk c 8 s = true ∧ allZero (slice c.payload 12 4) = true) ∧
    (∃ (u : Nat) (q : Bytes) (s : State), unitTakes s u 0x8104 = some q) ∧
    (∃ (job : Nat) (s : State), ((∀ p ∈ s.ln.pend, p.job ≠ job))) ∧
    (∃ (p : KeyxPend) (s : State), s.ln.pend = [p]) :=
  ⟨⟨call (pay 4 [8]), tI, ⟨by decide, by decide⟩, by decide, by decide⟩,
   ⟨call (pay 8 [7]), tI, ⟨by decide, by decide⟩, by decide⟩,
   ⟨7, tI, by decide, by decide⟩,
   ⟨call (pay 16 [8]), tI, ⟨by decide, by decide⟩, by decide, by decide, by decide, by decide⟩,
   ⟨8, 11, [], pay 16 [11], tCmd 8 0x8102 (pay 16 [11]) tI, (tTakes (by decide) rfl rfl rfl), by decide, by decide, by decide⟩,
   ⟨8, 11, 0, 0, call [], pay 16 [11], [], { tI with uw := [⟨8, 0x603, some (call [], 0), 11, 0⟩] }, by decide, by decide, by decide⟩,
   ⟨call (pay 8 [] ++ sref), stg tI, ⟨by decide, by decide⟩, by decide, by decide, (by simp [stageOk, stageBytes, stg, call, sref, pay, mgCh, mgWith, field, slice, le, cellGets, Config.sha384]; exact ⟨rfl, rfl⟩), by decide⟩,
   ⟨call (pay 8 [7] ++ sref), stg tI, ⟨by decide, by decide⟩, by decide, by decide, (by simp [stageOk, stageBytes, stg, call, sref, pay, mgCh, mgWith, field, slice, le, cellGets, Config.sha384]; exact ⟨rfl, rfl⟩), by decide⟩,
   ⟨8, [], tCmd 8 0x8104 [] tI, (tTakes (by decide) rfl rfl rfl)⟩,
   ⟨7, tI, by decide⟩,
   ⟨⟨7, 60, 0, 0, [], []⟩, { tI with ln := { tI.ln with pend := [⟨7, 60, 0, 0, [], []⟩] } }, by decide⟩⟩

/-- The hypotheses of LinyaPortStates can be met. -/
theorem witness_LinyaPortStates :
    (∃ (u p : Nat) (s : State), lportOk s u p = false ∧ SqFree s) ∧
    (∃ (u p : Nat) (s : State), lportOk s u p = true) ∧
    (∃ (u p : Nat) (s : State), lportOk s u p = true ∧ ordOfUnit s u < s.ln.dies.length ∧ p < (ldS s (ordOfUnit s u)).ports.length ∧ s.jb.list = [] ∧ (lportS s (ordOfUnit s u) p).st ≠ .mappedOut) ∧
    (∃ (u p cause : Nat) (s : State), lportOk s u p = true ∧ bit (nth 0 s.ln.mapout (ordOfUnit s u)) p = false) ∧
    (∃ (u mask : Nat) (q : Bytes) (s : State), unitTakes s u 0x8103 = some q ∧ field q 0 2 = mask) ∧
    (∃ (u mask : Nat) (s : State), portFwRuns s u = false) ∧
    (∃ (u p : Nat) (s : State), portFwRuns s u = true ∧ p < 12 ∧ (lportS s (ordOfUnit s u) p).st = .down ∧ ((∀ q, q < 12 → q ≠ p → (lportS s (ordOfUnit s u) q).st ≠ .down))) :=
  ⟨⟨8, 12, tI, by decide, ⟨by decide, by decide, by decide, by decide⟩⟩,
   ⟨8, 11, tI, by decide⟩,
   ⟨8, 11, tI, by decide, by decide, by decide, by decide, by decide⟩,
   ⟨8, 11, 1, tI, by decide, by decide⟩,
   ⟨8, 0, [], tCmd 8 0x8103 [] tI, (tTakes (by decide) rfl rfl rfl), by decide⟩,
   ⟨8, 0, { tI with pkg := { tI.pkg with refLink := false } }, by decide⟩,
   ⟨8, 0, { tI with ln := { tI.ln with dies := { ports := {} :: List.replicate 11 { st := .up } } :: List.replicate 3 {} } }, by decide, by decide, by decide, by decide⟩⟩

set_option maxRecDepth 20000 in
/-- The hypotheses of FlitsAndMessages can be met. -/
theorem witness_FlitsAndMessages :
    (∃ (u p : Nat) (f : Bytes) (s : State), ((lportOk s u p = false ∨ f.length ≠ 256 ∨ field f 248 4 ≠ crc32c (f.take 248) ∨ (lportS s (ordOfUnit s u) p).st.carries = false))) ∧
    (∃ (u p : Nat) (f : Bytes) (s : State), lportOk s u p = true ∧ (((lportS s (ordOfUnit s u) p).st = .up ∨ (lportS s (ordOfUnit s u) p).st = .degraded)) ∧ f.length = 256 ∧ field f 248 4 = crc32c (f.take 248) ∧ bit (field f 254 1) 0 = false) ∧
    (∃ (u key : Nat) (m : Bytes) (s : State), 1 ≤ field m 16 4 ∧ field m 16 4 ≤ 65536 ∧ 32 + field m 16 4 ≤ m.length ∧ bit key 7 = false) ∧
    (∃ (x : SendIn) (j : Job) (s : State), unitType s x.u = .port ∧ unitUp s x.u = true ∧ jobS s x.job = some j ∧ j.st = .running ∧ s.ln.daddr ≠ 0 ∧ 1 ≤ x.body.length ∧ x.body.length ≤ 65536) ∧
    (∃ (x : SendIn) (j : Job) (s : State), jobS s x.job = some j ∧ j.st ≠ .running) ∧
    (∃ (b : Nat) (h pl : Bytes) (j : Option Nat) (s : State), h.length = 6 ∧ (lportS s (b / 12) (b % 12)).replay = [] ∧ (lportS s (b / 12) (b % 12)).queue = [] ∧ b / 12 < s.ln.dies.length ∧ b % 12 < (ldS s (b / 12)).ports.length) :=
  ⟨⟨8, 0, [], tI, by decide⟩,
   ⟨8, 11, List.replicate 248 0#8 ++ toLe 4 (crc32c (List.replicate 248 0#8)) ++ [0, 0, 0, 0], { tI with ln := { tI.ln with dies := { ports := List.replicate 12 { st := .up } } :: List.replicate 3 {} } }, by decide, .inl (by decide), by decide, by decide +kernel, by decide +kernel⟩,
   ⟨8, 0, pay 33 [0, 0, 0, 0, 0, 0, 0, 0, 0, 0, 0, 0, 0, 0, 0, 0, 1], tI, by decide, by decide, by decide, by decide⟩,
   ⟨⟨8, 0, false, 7, 0, 0, [1#8]⟩, tJob .running, { tA with jb := { tA.jb with list := [tJob .running] }, ln := { tA.ln with daddr := 1 } }, by decide, by decide, by decide, by decide, by decide, by decide, by decide⟩,
   ⟨⟨8, 0, false, 7, 0, 0, [1#8]⟩, tJob .queued, { tA with jb := { tA.jb with list := [tJob .queued] } }, by decide, by decide⟩,
   ⟨47, [0, 0, 0, 0, 0, 0], [], none, tI, by decide, by decide, by decide, by decide, by decide⟩⟩

/-- The hypotheses of PowerCommands can be met. -/
theorem witness_PowerCommands :
    (∃ (c : HostCall) (s : State), Admitted 0x700 c s ∧ c.payload = []) ∧
    (∃ (c : HostCall) (s : State), Admitted 0x701 c s ∧ c.payload.length = 4) ∧
    (∃ (c : HostCall) (s : State), Admitted 0x702 c s ∧ c.payload.length = 4) ∧
    (∃ (c : HostCall) (s : State), Admitted 0x703 c s ∧ c.payload.length = 4) ∧
    (∃ (c : HostCall) (s : State), Admitted 0x704 c s ∧ c.payload.length = 4 ∧ allZero (slice c.payload 1 3) = true) ∧
    (∃ (c : HostCall) (s : State), Admitted 0x705 c s ∧ c.payload.length = 4 ∧ allZero (slice c.payload 1 3) = true) ∧
    (∃ (c : HostCall) (s : State), Admitted 0x706 c s ∧ c.payload = []) ∧
    (∃ (c : HostCall) (s : State), Admitted 0x707 c s ∧ c.payload.length = 4 ∧ allZero (slice c.payload 3 1) = true) ∧
    (∃ (c : HostCall) (s : State), Admitted 0x708 c s ∧ c.payload.length = 4 ∧ allZero (slice c.payload 1 3) = true) :=
  ⟨⟨call [], tI, ⟨by decide, by decide⟩, by decide⟩,
   ⟨call (pay 4 []), tI, ⟨by decide, by decide⟩, by decide⟩,
   ⟨call (pay 4 []), tI, ⟨by decide, by decide⟩, by decide⟩,
   ⟨call (pay 4 [17]), tI, ⟨by decide, by decide⟩, by decide⟩,
   ⟨call (pay 4 [7]), tI, ⟨by decide, by decide⟩, by decide, by decide⟩,
   ⟨call (pay 4 [12]), tI, ⟨by decide, by decide⟩, by decide, by decide⟩,
   ⟨call [], tI, ⟨by decide, by decide⟩, by decide⟩,
   ⟨call (pay 4 []), tI, ⟨by decide, by decide⟩, by decide, by decide⟩,
   ⟨call (pay 4 [1]), tA, ⟨by decide, by decide⟩, by decide, by decide⟩⟩

/-- The hypotheses of TileTripsThrottleAndVoltage can be met. -/
theorem witness_TileTripsThrottleAndVoltage :
    (∃ (t : Nat) (s : State), ((8 ≤ t ∨ s.pkg.tilePg = false))) ∧
    (∃ (t : Nat) (s : State), t < 8 ∧ s.pkg.tilePg = true ∧ s.pkg.st.main = true) ∧
    (∃ (t n : Nat) (s : State), t < 8 ∧ s.pkg.tilePg = true ∧ n < 10 * s.pw.tjt ∧ n < 10 * s.pw.tjs) ∧
    (∃ (t n : Nat) (s : State), t < 8 ∧ s.pkg.tilePg = true ∧ 10 * s.pw.tjs ≤ n) ∧
    (∃ (t n : Nat) (s : State), t < 8 ∧ t < s.pw.tiles.length ∧ s.pkg.tilePg = true ∧ 10 * s.pw.tjt ≤ n ∧ n < 10 * s.pw.tjs) ∧
    (∃ (t : Nat) (s : State), (((tileP s t).throt = false ∨ 10 * s.pw.tjt < (tileP s t).tj + 30))) ∧
    (∃ (t : Nat) (s : State), (tileP s t).throt = true ∧ (tileP s t).tj + 30 ≤ 10 * s.pw.tjt) ∧
    (∃ (t target favs : Nat) (s : State), t < 8 ∧ t < s.pw.tiles.length ∧ s.pkg.tilePg = true ∧ 600 ≤ (tileP s t).setpoint ∧ (tileP s t).setpoint ≤ s.pw.vcm - 25) ∧
    (∃ (t : Nat) (s : State), t < 8 ∧ s.pkg.st.main = true ∧ s.pkg.tilePg = true) ∧
    (∃ (t : Nat) (s : State), ((s.pkg.st.main = false ∨ s.pkg.tilePg = false))) :=
  ⟨⟨8, tI, by decide⟩,
   ⟨7, tI, by decide, by decide, by decide⟩,
   ⟨7, 899, tI, by decide, by decide, by decide, by decide⟩,
   ⟨7, 100000, tI, by decide, by decide, by decide⟩,
   ⟨7, 900, tI, by decide, by decide, by decide, by decide, by decide⟩,
   ⟨7, tI, by decide⟩,
   ⟨7, { tI with pw := { tI.pw with tiles := List.replicate 8 { throt := true, tj := 870 } } }, by decide, by decide⟩,
   ⟨7, 0, 0, tI, by decide, by decide, by decide, by decide, by decide⟩,
   ⟨7, tI, by decide, by decide, by decide⟩,
   ⟨7, tR, by decide⟩⟩

/-- The hypotheses of BrakeLoopsAndTelemetry can be met. -/
theorem witness_BrakeLoopsAndTelemetry :
    (∃ (s : State), s.pw.brakeN = false) ∧
    (∃ (s : State), s.pw.brakeN = true ∧ ((s.pkg.st.main = false ∨ s.pkg.tilePg = false))) ∧
    (∃ (s : State), s.pw.brakeN = true ∧ s.pkg.st.main = true ∧ s.pkg.tilePg = true ∧ s.pkg.mode = .confidential) ∧
    (∃ (s : State), s.pw.brakeN = true ∧ s.pkg.st.main = true ∧ s.pkg.tilePg = true ∧ s.pkg.mode ≠ .confidential) ∧
    (∃ (s : State), s.pw.brakeN = true) ∧
    (∃ (s : State), s.pw.brakeN = false ∧ brakeOn s = false) ∧
    (∃ (s : State), s.pw.brakeN = false ∧ brakeOn s = true ∧ s.pkg.mode = .confidential) ∧
    (∃ (t : Nat) (s : State), brakeOn s = true) ∧
    (∃ (s : State), ((s.pw.brakeN = false ∨ (s.pw.brakeForce = false ∧ s.pw.brakeRamp = false)))) ∧
    (∃ (s : State), s.pw.brakeN = true ∧ ((s.pw.brakeForce = true ∨ s.pw.brakeRamp = true))) ∧
    (∃ (w : Nat) (s : State), w < 65536) ∧
    (∃ (s : State), ((s.pkg.st.main = false ∨ s.pkg.tilePg = false ∨ fwWfw s = false))) ∧
    (∃ (s : State), s.pkg.st.main = true ∧ s.pkg.tilePg = true ∧ fwWfw s = true ∧ 2 ≤ s.pw.monGood ∧ s.pw.samples ≠ []) ∧
    (∃ (s : State), s.pkg.st.main = true ∧ s.pkg.tilePg = true ∧ fwWfw s = true ∧ s.pw.monGood < 2) ∧
    (∃ (s : State), s.pkg.st.main = true ∧ s.pkg.tilePg = true ∧ fwWfw s = true) ∧
    (∃ (s : State), fwWfw s = false) ∧
    (∃ (s : State), fwWfw s = true) ∧
    (∃ (s : State), fwWfw s = true ∧ s.lg.waiting ≠ []) :=
  ⟨⟨{ tI with pw := { tI.pw with brakeN := false } }, by decide⟩,
   ⟨tR, by decide, by decide⟩,
   ⟨{ tI with pkg := { tI.pkg with mode := .confidential } }, by decide, by decide, by decide, by decide⟩,
   ⟨tI, by decide, by decide, by decide, by decide⟩,
   ⟨tI, by decide⟩,
   ⟨{ tR with pw := { tR.pw with brakeN := false } }, by decide, by decide⟩,
   ⟨{ tI with pkg := { tI.pkg with mode := .confidential }, pw := { tI.pw with brakeN := false } }, by decide, by decide, by decide⟩,
   ⟨0, { tI with pw := { tI.pw with brakeN := false } }, by decide⟩,
   ⟨tI, by decide⟩,
   ⟨{ tI with pw := { tI.pw with brakeRamp := true } }, by decide, by decide⟩,
   ⟨65535, tI, by decide⟩,
   ⟨tR, by decide⟩,
   ⟨{ tI with pw := { tI.pw with samples := [100] } }, by decide, by decide, by decide, by decide, by decide⟩,
   ⟨{ tI with pw := { tI.pw with monGood := 1 } }, by decide, by decide, by decide, by decide⟩,
   ⟨tI, by decide, by decide, by decide⟩,
   ⟨tR, by decide⟩,
   ⟨tI, by decide⟩,
   ⟨{ tI with lg := { tI.lg with waiting := [⟨1, 0, 0, 0, 0, 0, 0, []⟩] } }, by decide, by decide⟩⟩

/-- The hypotheses of UpdateCommands can be met. -/
theorem witness_UpdateCommands :
    (∃ (c : HostCall) (s : State), Admitted 0x800 c s ∧ c.payload = []) ∧
    (∃ (c : HostCall) (s : State), Admitted 0x801 c s ∧ c.payload.length = 8 ∧ allZero (slice c.payload 1 3) = true ∧ s.upd.pldm = false) ∧
    (∃ (c : HostCall) (s : State), Admitted 0x802 c s ∧ 9 ≤ c.payload.length ∧ c.payload.length ≤ 4064 ∧ allZero (slice c.payload 4 4) = true ∧ s.upd.pldm = false) ∧
    (∃ (c : HostCall) (s : State), Admitted 0x803 c s ∧ c.payload = [] ∧ s.upd.pldm = false) ∧
    (∃ (c : HostCall) (s : State), Admitted 0x804 c s ∧ c.payload = [] ∧ s.upd.pldm = false) ∧
    (∃ (c : HostCall) (w t : Nat) (s : State), bundleExtra s.upd.target s = some t ∧ c.ch ≠ pldmCh ∧ s.upd.status = 2) ∧
    (∃ (c : HostCall) (w k : Nat) (r : List Nat) (s : State), 1 ≤ imgCheck8 s s.upd.target k ∧ imgCheck8 s s.upd.target k ≤ 6 ∧ c.ch ≠ pldmCh ∧ s.upd.status = 2) ∧
    (∃ (c : HostCall) (s : State), Admitted 0x805 c s ∧ c.payload.length = 4 ∧ s.upd.pldm = false) ∧
    (∃ (c : HostCall) (s : State), Admitted 0x806 c s ∧ c.payload = [] ∧ s.upd.pldm = false) ∧
    (∃ (c : HostCall) (w off : Nat) (d : Bytes) (s : State), s.upd.prog = []) ∧
    (∃ (c : HostCall) (w : Nat) (s : State), s.upd.status ≠ 4) :=
  ⟨⟨call [], tI, ⟨by decide, by decide⟩, by decide⟩,
   ⟨call (pay 8 [1, 0, 0, 0, 0, 0, 1]), tI, ⟨by decide, by decide⟩, by decide, by decide, by decide⟩,
   ⟨call (pay 9 []), tI, ⟨by decide, by decide⟩, by decide, by decide, by decide, by decide⟩,
   ⟨call [], tI, ⟨by decide, by decide⟩, by decide, by decide⟩,
   ⟨call [], tI, ⟨by decide, by decide⟩, by decide, by decide⟩,
   ⟨call [], 0, 255, { tI with upd := { tI.upd with status := 2, target := 1 } }, by decide, by decide, by decide⟩,
   ⟨call [], 0, 1, [], { tI with upd := { tI.upd with status := 2, target := 1 } }, by decide, by decide, by decide, by decide⟩,
   ⟨call (pay 4 [1]), tI, ⟨by decide, by decide⟩, by decide, by decide⟩,
   ⟨call [], tI, ⟨by decide, by decide⟩, by decide, by decide⟩,
   ⟨call [], 0, 0, [], tI, by decide⟩,
   ⟨call [], 0, tI, by decide⟩⟩

/-- The hypotheses of LogsAndTraceAreRead can be met. -/
theorem witness_LogsAndTraceAreRead :
    (∃ (c : HostCall) (s : State), Admitted 0x900 c s ∧ c.payload.length = 16 ∧ allZero (slice c.payload 11 5) = true) ∧
    (∃ (c : HostCall) (s : State), Admitted 0x901 c s ∧ c.payload.length = 4) ∧
    (∃ (c : HostCall) (s : State), Admitted 0x902 c s ∧ c.payload.length = 8) ∧
    (∃ (c : HostCall) (s : State), Admitted 0x903 c s ∧ c.payload.length = 16 ∧ allZero (slice c.payload 10 6) = true) ∧
    (∃ (c : HostCall) (s : State), Admitted 0x904 c s ∧ c.payload.length = 8) :=
  ⟨⟨call (pay 16 [1, 0, 0, 0, 0, 0, 0, 0, 128]), tI, ⟨by decide, by decide⟩, by decide, by decide⟩,
   ⟨call (pay 4 []), tI, ⟨by decide, by decide⟩, by decide⟩,
   ⟨call (pay 8 []), tI, ⟨by decide, by decide⟩, by decide⟩,
   ⟨call (pay 16 [1, 0, 0, 0, 0, 0, 0, 0, 128]), tI, ⟨by decide, by decide⟩, by decide, by decide⟩,
   ⟨call (pay 8 [1]), tI, ⟨by decide, by decide⟩, by decide⟩⟩

/-- The hypotheses of ServiceCommandsAndTokens can be met. -/
theorem witness_ServiceCommandsAndTokens :
    (∃ (c : HostCall) (s : State), Admitted 0xA00 c s ∧ c.payload = []) ∧
    (∃ (c : HostCall) (s : State), Admitted 0xA01 c s ∧ c.payload.length = 32 ∧ stageOk c 8 s = true ∧ allZero (slice c.payload 12 4) = true) ∧
    (∃ (c : HostCall) (s : State), Admitted 0xA02 c s ∧ c.payload.length = 32 ∧ stageOk c 8 s = true ∧ allZero (slice c.payload 12 4) = true) ∧
    (∃ (c : HostCall) (w sel : Nat) (s : State), lcPermitted sel s = true ∧ (otLc sel (zeroAllSlots s)).otp.job.isSome = true) ∧
    (∃ (c : HostCall) (w k : Nat) (s : State), otherVkey k s = true ∧ (otRevoke k s).otp.job.isSome = true) ∧
    (∃ (c : HostCall) (w k : Nat) (s : State), otherVkey k s = false) ∧
    (∃ (c : HostCall) (w op arg e : Nat) (ok : Bool) (s : State), e ≠ 0) ∧
    (∃ (c : HostCall) (s : State), Admitted 0xA03 c s ∧ c.payload.length = 4) ∧
    (∃ (c : HostCall) (s : State), Admitted 0xA04 c s ∧ c.payload = []) :=
  ⟨⟨call [], tI, ⟨by decide, by decide⟩, by decide⟩,
   ⟨call (pay 8 [4] ++ sref), stg tI, ⟨by decide, by decide⟩, by decide, (by simp [stageOk, stageBytes, stg, call, sref, pay, mgCh, mgWith, field, slice, le, cellGets, Config.sha384]; exact ⟨rfl, rfl⟩), by decide⟩,
   ⟨call (pay 8 [3] ++ sref), stg tI, ⟨by decide, by decide⟩, by decide, (by simp [stageOk, stageBytes, stg, call, sref, pay, mgCh, mgWith, field, slice, le, cellGets, Config.sha384]; exact ⟨rfl, rfl⟩), by decide⟩,
   ⟨call [], 0, 3, tI, by decide, by decide +kernel⟩,
   ⟨call [], 0, 0, { tI with otp := { tI.otp with grp := List.replicate 8 1, rows := [(164, 1, 1), (212, 1, 1)] } }, by decide, by decide⟩,
   ⟨call [], 0, 0, { tI with otp := { tI.otp with revoke := 15 } }, by decide⟩,
   ⟨call [], 0, 1, 0, 7, true, tI, by decide⟩,
   ⟨call (pay 4 []), tI, ⟨by decide, by decide⟩, by decide⟩,
   ⟨call [], tI, ⟨by decide, by decide⟩, by decide⟩⟩

/-- The hypotheses of ManagementCommands can be met. -/
theorem witness_ManagementCommands :
    (∃ (s : State), MgIdle s) ∧
    (∃ (b : Bytes) (s : State), MgIdle s ∧ b.length = 4) ∧
    (∃ (b : Bytes) (s : State), MgIdle s ∧ b.length = 4 ∧ allZero (slice b 1 3) = true) ∧
    (∃ (b : Bytes) (s : State), MgIdle s ∧ b.length = 4 ∧ allZero (slice b 2 2) = true) ∧
    (∃ (b : Bytes) (s : State), MgIdle s ∧ b.length = 24 ∧ stageOk (mgWith b) 0 s = true ∧ allZero (slice b 4 4) = true ∧ s.tn.ro.hdr = .committed ∧ s.ln.rak = []) ∧
    (∃ (b : Bytes) (s : State), MgIdle s ∧ b.length = 4 ∧ allZero (slice b 1 3) = true ∧ field b 0 1 ≤ 1 ∧ ((s.otp.lc = 2 ∨ s.otp.lc = 3))) ∧
    (∃ (b : Bytes) (s : State), MgIdle s ∧ b.length = 28 ∧ stageOk (mgWith b) 4 s = true ∧ allZero (slice b 8 4) = true ∧ field b 0 1 ≤ 1 ∧ allZero (slice b 1 3) = true) ∧
    (∃ (s : State), MgIdle s) ∧
    (∃ (b : Bytes) (s : State), MgIdle s ∧ b.length = 4 ∧ allZero (slice b 1 3) = true) ∧
    (∃ (b : Bytes) (s : State), MgIdle s ∧ b.length = 8) ∧
    (∃ (b : Bytes) (s : State), s.wd.fw = .rom ∧ s.pkg.standby = true ∧ s.pkg.st ≠ .retired ∧ s.mg.busy = false ∧ s.mg.queue = [] ∧ s.otp.lc = 0 ∧ b.length = 8 ∧ allZero (slice b 1 1) = true ∧ ((field b 0 1 = 1 ∨ field b 0 1 = 2)) ∧ provOrder (field b 0 1) (field b 2 2 % 512) s.otp = true) ∧
    (∃ (s : State), ((s.mg.orphanArmed = false ∨ s.mg.orphan = true))) ∧
    (∃ (s : State), s.mg.orphanArmed = true ∧ s.mg.orphan = false) :=
  ⟨⟨tI, ⟨by decide, by decide, by decide, by decide, by decide⟩⟩,
   ⟨pay 4 [], tI, ⟨by decide, by decide, by decide, by decide, by decide⟩, by decide⟩,
   ⟨pay 4 [1], tI, ⟨by decide, by decide, by decide, by decide, by decide⟩, by decide, by decide⟩,
   ⟨pay 4 [0xFF, 0x0F], tI, ⟨by decide, by decide, by decide, by decide, by decide⟩, by decide, by decide⟩,
   ⟨sref, { tI with tn := { tI.tn with ro := { tI.tn.ro with hdr := .committed } } }, ⟨by decide, by decide, by decide, by decide, by decide⟩, by decide, (by simp [stageOk, stageBytes, stg, call, sref, pay, mgCh, mgWith, field, slice, le, cellGets, Config.sha384]; exact ⟨rfl, rfl⟩), by decide, by decide, by decide⟩,
   ⟨pay 4 [1], tI, ⟨by decide, by decide, by decide, by decide, by decide⟩, by decide, by decide, by decide, by decide⟩,
   ⟨pay 4 [] ++ sref, tI, ⟨by decide, by decide, by decide, by decide, by decide⟩, by decide, (by simp [stageOk, stageBytes, stg, call, sref, pay, mgCh, mgWith, field, slice, le, cellGets, Config.sha384]; exact ⟨rfl, rfl⟩), by decide, by decide, by decide⟩,
   ⟨tI, ⟨by decide, by decide, by decide, by decide, by decide⟩⟩,
   ⟨pay 4 [3], tI, ⟨by decide, by decide, by decide, by decide, by decide⟩, by decide, by decide⟩,
   ⟨pay 8 [], tI, ⟨by decide, by decide, by decide, by decide, by decide⟩, by decide⟩,
   ⟨pay 8 [1, 0, 32], { tRom with otp := { tRom.otp with lc := 0 } }, by decide, by decide, by decide, by decide, by decide, by decide, by decide, by decide, by decide, by decide⟩,
   ⟨tI, by decide⟩,
   ⟨{ tI with mg := { tI.mg with orphanArmed := true } }, by decide, by decide⟩⟩

/-- The hypotheses of ManagementTargetAndMctp can be met. -/
theorem witness_ManagementTargetAndMctp :
    (∃ (da : Nat) (s : State), ((s.mg.da = 0 ↔ da % 128 = 0))) ∧
    (∃ (da : Nat) (s : State), (¬ (s.mg.da = 0 ↔ da % 128 = 0))) ∧
    (∃ (p : Bytes) (s : State), ((s.pkg.standby = false ∨ 48 ≤ s.mg.rx.length))) ∧
    (∃ (p : Bytes) (s : State), s.pkg.standby = true ∧ s.mg.rx.length < 48 ∧ s.wd.fw = .nothing) ∧
    (∃ (p : Bytes) (s : State), s.pkg.standby = true ∧ s.mg.rx = [] ∧ s.mg.irqEn = false ∧ s.wd.fw ≠ .nothing ∧ 5 ≤ p.length ∧ p.length ≤ 68 ∧ field p 0 1 % 16 = 1 ∧ field p 1 1 = s.mg.eid ∧ bit (field p 3 1) 7 = true ∧ bit (field p 3 1) 6 = false) ∧
    (∃ (s : State), s.mg.reasm = none) ∧
    (∃ (s : State), s.mg.reasm ≠ none) ∧
    (∃ (b : Bytes) (s : State), MgIdle s ∧ b.length = 2 ∧ 8 ≤ field b 1 1 ∧ field b 1 1 ≠ 0xFF ∧ field b 0 1 % 4 ≤ 1) ∧
    (∃ (s : State), MgIdle s) :=
  ⟨⟨128, tI, by decide⟩,
   ⟨1, tI, by decide⟩,
   ⟨[], { tI with pkg := { tI.pkg with standby := false } }, by decide⟩,
   ⟨[], tR, by decide, by decide, by decide⟩,
   ⟨pay 68 [1, 0x4F, 0, 0x80], tI, by decide, by decide, by decide, by decide, by decide, by decide, by decide, by decide, by decide, by decide⟩,
   ⟨tI, by decide⟩,
   ⟨{ tI with mg := { tI.mg with reasm := some ⟨0, 0, 0, []⟩ } }, by decide⟩,
   ⟨[0#8, 8#8], tI, ⟨by decide, by decide, by decide, by decide, by decide⟩, by decide, by decide, by decide, by decide⟩,
   ⟨tI, ⟨by decide, by decide, by decide, by decide, by decide⟩⟩⟩

/-- The hypotheses of PldmSensorsAndEffecters can be met. -/
theorem witness_PldmSensorsAndEffecters :
    (∃ (s : State), MgIdle s) ∧
    (∃ (s : State), s.mg.events = []) ∧
    (∃ (e : PldmEvent) (r : List PldmEvent) (s : State), s.mg.events = e :: r) :=
  ⟨⟨tI, ⟨by decide, by decide, by decide, by decide, by decide⟩⟩,
   ⟨tI, by decide⟩,
   ⟨⟨1, 1, 0⟩, [], { tI with mg := { tI.mg with events := [⟨1, 1, 0⟩] } }, by decide⟩⟩

/-- The hypotheses of PldmFirmwareUpdate can be met. -/
theorem witness_PldmFirmwareUpdate :
    ∃ (b : Bytes) (s : State), MgIdle s :=
  ⟨[], tI, ⟨by decide, by decide, by decide, by decide, by decide⟩⟩

/-- The hypotheses of DoeObjectsAndNegotiation can be met. -/
theorem witness_DoeObjectsAndNegotiation :
    (∃ (ws : List Word) (s : State), (((fnS s 0).up = false ∨ s.sd.busy = true ∨ s.sd.err = true))) ∧
    (∃ (ws : List Word) (s : State), (fnS s 0).up = true ∧ s.sd.busy = false ∧ s.sd.err = false) ∧
    (∃ (i : Nat) (s : State), i ≤ 2 ∧ (fnS s 0).up = true ∧ s.sd.busy = false ∧ s.sd.err = false) ∧
    (∃ (m : SpdmMsg) (s : State), (((fnS s 0).up = false ∨ s.sd.busy = true ∨ s.pkg.st = .warden))) ∧
    (∃ (m : SpdmMsg) (s : State), SpdmOn s ∧ m.secured = false) ∧
    (∃ (m : SpdmMsg) (ch : Bytes) (s : State), SpdmOn s ∧ m.secured = false ∧ 3 ≤ s.sd.stage ∧ spdmChain s = some ch) ∧
    (∃ (code : Nat) (m : SpdmMsg) (s : State), SpdmOn s) :=
  ⟨⟨[], tR, by decide⟩,
   ⟨[], tI, by decide, by decide, by decide⟩,
   ⟨2, tI, by decide, by decide, by decide, by decide⟩,
   ⟨⟨0, 0, [], false⟩, tR, by decide⟩,
   ⟨⟨0, 0, [], false⟩, tI, ⟨by decide, by decide, .inl rfl⟩, by decide⟩,
   ⟨⟨0, 0, [], false⟩, _, tCert, ⟨by decide, by decide, .inl rfl⟩, by decide, by decide, tChain⟩,
   ⟨0, ⟨0, 0, [], false⟩, tI, ⟨by decide, by decide, .inl rfl⟩⟩⟩

/-- The hypotheses of SpdmEvidenceAndSession can be met. -/
theorem witness_SpdmEvidenceAndSession :
    (∃ (m : SpdmMsg) (ch : Bytes) (s : State), SpdmOn s ∧ m.secured = false ∧ 3 ≤ s.sd.stage ∧ spdmChain s = some ch ∧ m.p1 = 0 ∧ m.body.length = 40 ∧ m.p2 = 0) ∧
    (∃ (m : SpdmMsg) (s : State), SpdmOn s ∧ m.secured = false ∧ 3 ≤ s.sd.stage ∧ m.p1 % 2 = 0 ∧ m.body.length = 8) ∧
    (∃ (m : SpdmMsg) (ch : Bytes) (s : State), SpdmOn s ∧ m.secured = false ∧ 3 ≤ s.sd.stage) ∧
    (∃ (m : SpdmMsg) (x : Sess) (s : State), SpdmOn s ∧ m.secured = true ∧ 3 ≤ s.sd.stage ∧ s.sd.sess = some x ∧ x.opened = false) ∧
    (∃ (m : SpdmMsg) (s : State), SpdmOn s ∧ m.secured = false ∧ 3 ≤ s.sd.stage) ∧
    (∃ (m : SpdmMsg) (x : Sess) (s : State), SpdmOn s ∧ m.secured = true ∧ 3 ≤ s.sd.stage ∧ s.sd.sess = some x ∧ x.opened = true) ∧
    (∃ (s : State), ((∀ d a, (apS s d a).valid = false))) :=
  ⟨⟨⟨0, 0, pay 40 [], false⟩, _, tCert, ⟨by decide, by decide, .inl rfl⟩, by decide, by decide, tChain, by decide, by decide, by decide⟩,
   ⟨⟨0, 0, pay 8 [], false⟩, { tI with sd := { tI.sd with stage := 3 } }, ⟨by decide, by decide, .inl rfl⟩, by decide, by decide, by decide, by decide⟩,
   ⟨⟨0, 0, [], false⟩, [], tCert, ⟨by decide, by decide, .inl rfl⟩, by decide, by decide⟩,
   ⟨⟨0, 0, [], true⟩, ⟨1, false, 0, 0⟩, { tI with sd := { tI.sd with stage := 3, sess := some ⟨1, false, 0, 0⟩ } }, ⟨by decide, by decide, .inl rfl⟩, by decide, by decide, by decide, by decide⟩,
   ⟨⟨0, 0, [], false⟩, { tI with sd := { tI.sd with stage := 3 } }, ⟨by decide, by decide, .inl rfl⟩, by decide, by decide⟩,
   ⟨⟨0, 0, [], true⟩, ⟨1, true, 0, 0⟩, { tI with sd := { tI.sd with stage := 3, sess := some ⟨1, true, 0, 0⟩ } }, ⟨by decide, by decide, .inl rfl⟩, by decide, by decide, by decide, by decide⟩,
   ⟨tI, fun d a => tNoAp d a⟩⟩

/-- The hypotheses of RackPowerAndCooling can be met. -/
theorem witness_RackPowerAndCooling :
    (∃ (s : State), s.rk.holding = false) ∧
    (∃ (s : State), s.rk.holding = true) ∧
    (∃ (s : State), ((s.rk.activeAlive = false ∨ s.rk.shelves < 2))) ∧
    (∃ (s : State), s.rk.activeAlive = true ∧ 2 ≤ s.rk.shelves ∧ rackFull s ≤ s.rk.shelves) ∧
    (∃ (s : State), s.rk.activeAlive = true ∧ 2 ≤ s.rk.shelves ∧ s.rk.shelves < rackFull s ∧ MgIdle s) ∧
    (∃ (n : Nat) (s : State), s.rk.pumps ≤ n) ∧
    (∃ (n : Nat) (s : State), n < s.rk.pumps ∧ s.rk.activeAlive = false) ∧
    (∃ (n : Nat) (s : State), 2 ≤ n ∧ n < s.rk.pumps ∧ s.rk.activeAlive = true) ∧
    (∃ (s : State), 1 < s.rk.pumps ∧ s.rk.activeAlive = true) ∧
    (∃ (s : State), 0 < s.rk.pumps ∧ s.rk.activeAlive = true) ∧
    (∃ (n : Nat) (s : State), s.rk.pumps < min 4 n ∧ s.rk.activeAlive = true ∧ 3 ≤ n) ∧
    (∃ (n : Nat) (s : State), min 4 n ≤ s.rk.pumps) ∧
    (∃ (n : Nat) (s : State), s.rk.shelves < min 8 n ∧ ((s.rk.activeAlive = false ∨ s.rk.capShelf = none))) ∧
    (∃ (n : Nat) (s : State), s.rk.shelves < min 8 n ∧ s.rk.activeAlive = true ∧ s.rk.capShelf.isSome = true ∧ rackFull s ≤ min 8 n) ∧
    (∃ (s : State), s.rk.standbyAlive = false) ∧
    (∃ (s : State), s.rk.standbyAlive = true ∧ MgIdle s ∧ s.rk.capShelf = none ∧ s.rk.capPump = none) ∧
    (∃ (s : State), asmOf s = some .m8 ∧ s.rk.build ≠ 2) :=
  ⟨⟨tI, by decide⟩,
   ⟨{ tI with rk := { tI.rk with holding := true } }, by decide⟩,
   ⟨{ tI with rk := { tI.rk with shelves := 1 } }, by decide⟩,
   ⟨tI, by decide, by decide, by decide⟩,
   ⟨{ tI with rk := { tI.rk with shelves := 2 } }, by decide, by decide, by decide, ⟨by decide, by decide, by decide, by decide, by decide⟩⟩,
   ⟨4, tI, by decide⟩,
   ⟨3, { tI with rk := { tI.rk with activeAlive := false } }, by decide, by decide⟩,
   ⟨2, tI, by decide, by decide, by decide⟩,
   ⟨tI, by decide, by decide⟩,
   ⟨tI, by decide, by decide⟩,
   ⟨3, { tI with rk := { tI.rk with pumps := 2 } }, by decide, by decide, by decide⟩,
   ⟨9, tI, by decide⟩,
   ⟨8, { tI with rk := { tI.rk with shelves := 7 } }, by decide, by decide⟩,
   ⟨8, { tI with rk := { tI.rk with shelves := 7, capShelf := some 100 } }, by decide, by decide, by decide, by decide⟩,
   ⟨{ tI with rk := { tI.rk with standbyAlive := false } }, by decide⟩,
   ⟨tI, by decide, ⟨by decide, by decide, by decide, by decide, by decide⟩, by decide, by decide⟩,
   ⟨tI, by decide, by decide⟩⟩

set_option maxRecDepth 20000 in
/-- Inner cases of `StandbyAndResetPin` whose own premises are met. -/
theorem cases_StandbyAndResetPin :
    (∃ (s : State), s.pkg.standby = true ∧ s.pkg.progWin = true ∧ s.otp.job = none ∧ s.otp.busy = false) ∧
    (∃ (s : State), s.pkg.standby = true ∧ s.pkg.progWin = true ∧ s.otp.job.isSome = true ∧ s.otp.busy = true ∧ s.otp.loaded = true ∧ s.uw = []) :=
  ⟨⟨tI, by decide, by decide, by decide, by decide⟩,
   ⟨{ tI with pkg := { tI.pkg with progWin := true }, otp := { tI.otp with busy := true, job := some ⟨2, 0, []⟩ } }, by decide, by decide, by decide, by decide, by decide, by decide⟩⟩

set_option maxRecDepth 20000 in
/-- Inner cases of `ResetReleaseRunsTheInitialisers` whose own premises are met. -/
theorem cases_ResetReleaseRunsTheInitialisers :
    (∃ (s : State), s.wd.coreRun = true ∧ s.wd.sramReady = false ∧ s.wd.stall = none) ∧
    (∃ (s : State) (a : _) (v : _), s.wd.coreRun = true ∧ s.wd.sramReady = false ∧ s.wd.stall = some (a, v) ∧ a < 0x20000000) :=
  ⟨⟨{ tR with wd := { tR.wd with coreRun := true } }, by decide, by decide, by decide⟩,
   ⟨{ tI with wd := { tI.wd with sramReady := false, stall := some (0x10000000, 0) } }, 0x10000000, 0, by decide, by decide, by decide, by decide⟩⟩

set_option maxRecDepth 20000 in
/-- Inner cases of `RomAndFirmwareStart` whose own premises are met. -/
theorem cases_RomAndFirmwareStart :
    (∃ (x : RomIn) (s : State), s.wd.fw = .rom ∧ s.pkg.st = .rom ∧ s.otp.loaded = true ∧ s.wd.sramReady = true ∧ (let r := romPrepare x s; let m := romRecord (romMeasure r); r.otp.lc ≠ 0 ∧ r.otp.lc ≠ 4 ∧ r.otp.lc ≠ 7 ∧ nth 0 r.otp.grp 3 ≠ 2 ∧ selector r = none)) ∧
    (∃ (x : List PulseOut) (s : State), s.wd.fw = .wfw ∧ s.boot.inited = false ∧ s.pkg.st = .warden ∧ SqFree s ∧ s.units.length = 18 ∧ (s.wd.keys = false ∨ (s.wd.wdt = false ∧ s.wd.lockstep = false))) ∧
    (∃ (x : List PulseOut) (s : State), s.wd.fw = .wfw ∧ s.boot.inited = false ∧ s.pkg.st = .warden ∧ SqFree s ∧ s.units.length = 18 ∧ s.wd.keys = true ∧ (s.wd.wdt = true ∨ s.wd.lockstep = true)) :=
  ⟨⟨⟨false, false, false, false, []⟩, tRom, by decide, by decide, by decide, by decide, (by intros; decide)⟩,
   ⟨[], { tI with boot := { tI.boot with inited := false }, pkg := { tI.pkg with st := .warden } }, by decide, by decide, by decide, ⟨by decide, by decide, by decide, by decide⟩, by decide, by decide⟩,
   ⟨[], { tI with pkg := { tI.pkg with st := .warden }, boot := { tI.boot with inited := false }, wd := { tI.wd with wdt := true, keys := true } }, by decide, by decide, by decide, ⟨by decide, by decide, by decide, by decide⟩, by decide, by decide, by decide⟩⟩

set_option maxRecDepth 20000 in
/-- Inner cases of `BringupSteps` whose own premises are met. -/
theorem cases_BringupSteps :
    (∃ (hl : List Nat) (s : State), s.sq.busy = true ∧ s.sq.purpose = .user ∧ s.sq.abortReq = false ∧ s.sq.nextIx < Config.kSteps ∧ s.wd.access = none ∧ s.sq.wait = .rail 0 true ∧ s.pkg.portEn = true) ∧
    (∃ (hl : List Nat) (s : State), s.sq.busy = true ∧ s.sq.purpose = .user ∧ s.sq.abortReq = false ∧ s.sq.nextIx < Config.kSteps ∧ s.wd.access = none ∧ s.sq.wait = .rail 1 true ∧ s.pkg.tileEn = true ∧ s.pkg.mainOk = true) ∧
    (∃ (hl : List Nat) (s : State), s.sq.busy = true ∧ s.sq.purpose = .user ∧ s.sq.abortReq = false ∧ s.sq.nextIx < Config.kSteps ∧ s.wd.access = none ∧ s.sq.wait = .rail 2 true ∧ s.pkg.memEn = true ∧ s.pkg.tilePg = true ∧ s.pkg.mainOk = true) ∧
    (∃ (t : Nat) (s : State), s.boot.bphase = .train ∧ s.pkg.st = .bringup ∧ t ∈ loadUnits 2 s ∧ (let r := modMc t (fun m => { m with trained := true }) s; (loadUnits 2 r).all (fun t => (mcS r t).trained) = false)) ∧
    (∃ (t : Nat) (s : State), s.boot.bphase = .train ∧ s.pkg.st = .bringup ∧ t ∈ loadUnits 2 s ∧ (let r := modMc t (fun m => { m with trained := true }) s; (loadUnits 2 r).all (fun t => (mcS r t).trained) = true)) :=
  ⟨⟨[], { tI with sq := { tI.sq with busy := true, wait := .rail 0 true } }, by decide, by decide, by decide, by decide, by decide, by decide, by decide⟩,
   ⟨[], { tI with sq := { tI.sq with busy := true, wait := .rail 1 true } }, by decide, by decide, by decide, by decide, by decide, by decide, by decide, by decide⟩,
   ⟨[], { tI with sq := { tI.sq with busy := true, wait := .rail 2 true } }, by decide, by decide, by decide, by decide, by decide, by decide, by decide, by decide, by decide⟩,
   ⟨1, { tI with pkg := { tI.pkg with st := .bringup }, boot := { tI.boot with bphase := .train } }, by decide, by decide, by decide, (by intros; decide)⟩,
   ⟨7, { tI with pkg := { tI.pkg with st := .bringup }, boot := { tI.boot with bphase := .train }, jb := { tI.jb with mc := List.replicate 8 { trained := true } } }, by decide, by decide, by decide, (by intros; decide)⟩⟩

set_option maxRecDepth 20000 in
/-- Inner cases of `UnitImageLoadAndReady` whose own premises are met. -/
theorem cases_UnitImageLoadAndReady :
    (∃ (k : Nat) (x : LoadIn) (s : State), k < 3 ∧ s.pkg.st = .bringup ∧ s.boot.bphase = loadPhase k ∧ s.sq.busy = false ∧ s.units.length = 18 ∧ x.flashErr = true) ∧
    (∃ (k : Nat) (x : LoadIn) (s : State), k < 3 ∧ s.pkg.st = .bringup ∧ s.boot.bphase = loadPhase k ∧ s.sq.busy = false ∧ s.units.length = 18 ∧ x.flashErr = false ∧ x.windowErr = none ∧ imgCheck8 s s.boot.chosen (loadType k) ≠ 0) ∧
    (∃ (u gen v : Nat) (s : State), fwWfw s = true ∧ unitUp s u = true ∧ (unitS s u).rspValid = false ∧ (unitS s u).awaitReady = true ∧ (unitS s u).mcAwait = false ∧ gen = (unitS s u).gen.toNat ∧ v < 2 ^ 32 ∧ u < 18 ∧ s.units.length = 18 ∧ SqFree s ∧ s.pkg.st = .active) ∧
    (∃ (u gen v : Nat) (s : State), fwWfw s = true ∧ unitUp s u = true ∧ (unitS s u).rspValid = false ∧ (unitS s u).awaitReady = true ∧ (unitS s u).mcAwait = false ∧ gen = (unitS s u).gen.toNat ∧ v < 2 ^ 32 ∧ u < 18 ∧ s.units.length = 18 ∧ SqFree s ∧ s.pkg.st = .bringup ∧ ((∃ k w, k < 2 ∧ s.boot.bphase = readyPhase k ∧ w ∈ loadUnits k s ∧ w ≠ u ∧ (unitS s w).awaitReady = true))) ∧
    (∃ (u : Nat) (s : State), ((unitS s u).awaitReady = true ∨ (unitS s u).mcAwait = true) ∧ s.pkg.st = .bringup) ∧
    (∃ (u : Nat) (s : State), ((unitS s u).awaitReady = true ∨ (unitS s u).mcAwait = true) ∧ s.pkg.st ≠ .bringup) ∧
    (∃ (u : Nat) (x : LoadIn) (s : State), u < 18 ∧ s.units.length = 18 ∧ s.pkg.st = .active ∧ s.sq.busy = false ∧ (unitS s u).ustate = .resetting ∧ (unitS s u).awaitReady = false ∧ (unitS s u).go = false ∧ ((if u < 8 then (unitS s u).inReset else (unitS s u).ctrlHeld) = false) ∧ (let k := if u < 8 then 1 else 0; x.flashErr = true)) :=
  ⟨⟨0, ⟨true, 0, none, false⟩, { tI with pkg := { tI.pkg with st := .bringup }, boot := { tI.boot with bphase := .portImg } }, by decide, by decide, by decide, by decide, by decide, by decide⟩,
   ⟨0, ⟨false, 0, none, false⟩, { tI with pkg := { tI.pkg with st := .bringup }, boot := { tI.boot with bphase := .portImg } }, by decide, by decide, by decide, by decide, by decide, by decide, by decide, by decide⟩,
   ⟨8, 0, 0, upd 8 { tU with awaitReady := true } tA, by decide, by decide, by decide, by decide, by decide, by decide, by decide, by decide, by decide, ⟨by decide, by decide, by decide, by decide⟩, by decide⟩,
   ⟨0, 0, 0, { upd 0 { tU with awaitReady := true } (upd 1 { tU with awaitReady := true } tI) with pkg := { tI.pkg with st := .bringup }, boot := { tI.boot with bphase := .tileReady } }, by decide, by decide, by decide, by decide, by decide, by decide, by decide, by decide, by decide, ⟨by decide, by decide, by decide, by decide⟩, by decide, 1, 1, by decide, by decide, by decide, by decide, by decide⟩,
   ⟨0, { upd 0 { tU with awaitReady := true } tA with pkg := { tA.pkg with st := .bringup } }, by decide, by decide⟩,
   ⟨0, upd 0 { tU with awaitReady := true } tA, by decide, by decide⟩,
   ⟨0, ⟨true, 0, none, false⟩, upd 0 { tU with ustate := .resetting, go := false } tA, by decide, by decide, by decide, by decide, by decide, by decide, by decide, by decide, (by intros; decide)⟩⟩

set_option maxRecDepth 20000 in
/-- Inner cases of `MainPowerAndClockLoss` whose own premises are met. -/
theorem cases_MainPowerAndClockLoss :
    (∃ (s : State), s.pkg.mainOk = true ∧ (let r := { s with pkg := { s.pkg with mainOk := false }, pw := { s.pw with notice := setBit s.pw.notice 16 true }, outs := .wirq 0 :: s.outs }; s.pkg.st.main = false)) ∧
    (∃ (s : State), s.pkg.mainOk = true ∧ (let r := { s with pkg := { s.pkg with mainOk := false }, pw := { s.pw with notice := setBit s.pw.notice 16 true }, outs := .wirq 0 :: s.outs }; s.pkg.st.main = true)) ∧
    (∃ (s : State), s.pkg.st = .quarantine ∧ s.pkg.quarClr = true ∧ p0Healthy s = false) ∧
    (∃ (s : State), s.pkg.st = .quarantine ∧ s.pkg.quarClr = true ∧ p0Healthy s = true) ∧
    (∃ (s : State), s.wd.stopReq ≠ 0 ∧ s.pkg.st.main = false) ∧
    (∃ (s : State), s.wd.stopReq ≠ 0 ∧ s.pkg.st.main = true) :=
  ⟨⟨{ tI with pkg := { tI.pkg with st := .warden } }, by decide, (by intros; decide)⟩,
   ⟨tI, by decide, (by intros; decide)⟩,
   ⟨{ tI with pkg := { tI.pkg with st := .quarantine, quarClr := true, p0Bad := true } }, by decide, by decide, by decide⟩,
   ⟨{ tI with pkg := { tI.pkg with st := .quarantine, quarClr := true } }, by decide, by decide, by decide⟩,
   ⟨{ tI with pkg := { tI.pkg with st := .warden }, wd := { tI.wd with stopReq := 1 } }, by decide, by decide⟩,
   ⟨{ tI with wd := { tI.wd with stopReq := 1 } }, by decide, by decide⟩⟩

set_option maxRecDepth 20000 in
/-- Inner cases of `FabricWindowAndRegisterWrites` whose own premises are met. -/
theorem cases_FabricWindowAndRegisterWrites :
    (∃ (u off : Nat) (w a : Bool) (v : Word) (s : State), s.wd.coreRun = true ∧ s.wd.access = none ∧ ((unitUp s u = false ∨ 2 ^ 24 ≤ off ∨ off % 4 ≠ 0))) ∧
    (∃ (u off : Nat) (w a : Bool) (v : Word) (s : State), s.wd.coreRun = true ∧ s.wd.access = none ∧ unitUp s u = true ∧ off < 2 ^ 24 ∧ off % 4 = 0) ∧
    (∃ (a : Nat) (v : Word) (s : State), 0x10000000 ≤ a ∧ a < 0x10100000 ∧ a % 4 = 0 ∧ s.wd.coreRun = true ∧ s.wd.access = none ∧ s.wd.stall = none ∧ s.wd.sramReady = true) ∧
    (∃ (a : Nat) (v : Word) (s : State), 0x10000000 ≤ a ∧ a < 0x10100000 ∧ a % 4 = 0 ∧ s.wd.coreRun = true ∧ s.wd.access = none ∧ s.wd.stall = none ∧ s.wd.sramReady = false) :=
  ⟨⟨0, 2 ^ 24, false, false, 0#32, tI, by decide, by decide, by decide⟩,
   ⟨0, 0, false, false, 0#32, tI, by decide, by decide, by decide, by decide, by decide⟩,
   ⟨0x10000000, 0#32, tI, by decide, by decide, by decide, by decide, by decide, by decide, by decide⟩,
   ⟨0x10000000, 0, { tI with wd := { tI.wd with sramReady := false } }, by decide, by decide, by decide, by decide, by decide, by decide, by decide⟩⟩

set_option maxRecDepth 20000 in
/-- Inner cases of `InternalMailboxesAndHeartbeats` whose own premises are met. -/
theorem cases_InternalMailboxesAndHeartbeats :
    (∃ (u : Nat) (f : Bytes) (s : State), s.wd.coreRun = true ∧ unitUp s u = false) ∧
    (∃ (u : Nat) (f : Bytes) (s : State), s.wd.coreRun = true ∧ unitUp s u = true) ∧
    (∃ (u g : Nat) (f : Bytes) (s : State), unitUp s u = true ∧ (unitS s u).rspValid = true ∧ SqFree s) ∧
    (∃ (u g : Nat) (f : Bytes) (s : State), unitUp s u = true ∧ (unitS s u).rspValid = false ∧ (unitS s u).irqEn = true) ∧
    (∃ (u : Nat) (s : State), (unitS s u).held = [] ∧ SqFree s) ∧
    (∃ (u : Nat) (s : State) (g : _) (f : _) (r : _), (unitS s u).held = (g, f) :: r) :=
  ⟨⟨9, [], upd 9 {} tI, by decide, by decide⟩,
   ⟨0, [], tI, by decide, by decide⟩,
   ⟨17, 0, [], upd 17 { tU with rspValid := true } tI, by decide, by decide, ⟨by decide, by decide, by decide, by decide⟩⟩,
   ⟨0, 0, [], tI, by decide, by decide, by decide⟩,
   ⟨0, tI, by decide, ⟨by decide, by decide, by decide, by decide⟩⟩,
   ⟨9, upd 9 { tU with held := [(0, [])] } tI, 0, [], [], by decide⟩⟩

set_option maxRecDepth 20000 in
/-- Inner cases of `StepTablesStartRunAndEnd` whose own premises are met. -/
theorem cases_StepTablesStartRunAndEnd :
    (∃ (s : State), s.sq.busy = true) ∧
    (∃ (s : State), s.sq.busy = false) ∧
    (∃ (s : State), s.sq.busy = true ∧ s.wd.access = none ∧ s.sq.purpose = .user ∧ s.sq.queue = [] ∧ s.sq.ecode ≠ 4 ∧ s.sq.wait = .none) ∧
    (∃ (s : State), s.sq.busy = true ∧ s.wd.access = none ∧ s.sq.purpose = .user ∧ s.sq.queue = [] ∧ s.sq.ecode ≠ 4 ∧ s.sq.wait ≠ .none) ∧
    (∃ (s : State), SqAt 0x02 s ∧ s.sq.nextIx + 1 + stepC (sqStep s) < Config.kSteps ∧ (sqFlag s (stepA (sqStep s)) == (stepB (sqStep s) == 0)) = true) ∧
    (∃ (s : State), SqAt 0x02 s ∧ s.sq.nextIx + 1 + stepC (sqStep s) < Config.kSteps ∧ (sqFlag s (stepA (sqStep s)) == (stepB (sqStep s) == 0)) = false) :=
  ⟨⟨stp 0 0 0 0 tI, by decide⟩,
   ⟨tI, by decide⟩,
   ⟨stp 0 0 0 0 tI, by decide, by decide, by decide, by decide, by decide, by decide⟩,
   ⟨{ tI with sq := { tI.sq with busy := true, wait := .join } }, by decide, by decide, by decide, by decide, by decide, by decide⟩,
   ⟨stp 2 7 1 4 tI, ⟨by decide, by decide, by decide, by decide⟩, by decide, by decide⟩,
   ⟨stp 2 0 0 4 tI, ⟨by decide, by decide, by decide, by decide⟩, by decide, by decide⟩⟩

set_option maxRecDepth 20000 in
/-- Inner cases of `SettingStepsRailsClocksAndResets` whose own premises are met. -/
theorem cases_SettingStepsRailsClocksAndResets :
    (∃ (s : State), SqAt 0x07 s ∧ opsOut s = true) ∧
    (∃ (s : State), SqAt 0x07 s ∧ opsOut s = false) ∧
    (∃ (s : State), SqAt 0x41 s ∧ engineUp s (stepA (sqStep s)) = true) ∧
    (∃ (s : State), SqAt 0x41 s ∧ engineUp s (stepA (sqStep s)) = false ∧ s.sq.purpose = .user ∧ s.sq.queue = []) ∧
    (∃ (s : State) (h : Nat), SqAt 0x40 s ∧ (let u := stepA (sqStep s); (u < 8 ∨ unitType s u = .port))) ∧
    (∃ (s : State) (h : Nat), SqAt 0x40 s ∧ (let u := stepA (sqStep s); unitType s u = .port ∧ u < s.units.length)) ∧
    (∃ (s : State) (h : Nat), SqAt 0x40 s ∧ (let u := stepA (sqStep s); ((u < 8 ∧ 2 ≤ stepB (sqStep s)) ∨ (8 ≤ u ∧ unitType s u ≠ .port)) ∧ s.sq.purpose = .user ∧ s.sq.queue = [])) :=
  ⟨⟨stp 7 0 0 0 (upd 0 { tU with op := some (.clear 0 false) } tI), ⟨by decide, by decide, by decide, by decide⟩, by decide⟩,
   ⟨stp 7 0 0 0 tI, ⟨by decide, by decide, by decide, by decide⟩, by decide⟩,
   ⟨stp 0x41 7 1 0 tI, ⟨by decide, by decide, by decide, by decide⟩, by decide⟩,
   ⟨stp 0x41 3 0 0 { tI with pkg := { tI.pkg with tilePg := false } }, ⟨by decide, by decide, by decide, by decide⟩, by decide, by decide, by decide⟩,
   ⟨stp 0x40 7 0 0 tI, 0, ⟨by decide, by decide, by decide, by decide⟩, (by intros; decide)⟩,
   ⟨stp 0x40 8 0 0 tI, 0, ⟨by decide, by decide, by decide, by decide⟩, (by intros; decide)⟩,
   ⟨stp 0x40 1 2 0 tI, 0, ⟨by decide, by decide, by decide, by decide⟩, (by intros; decide)⟩⟩

set_option maxRecDepth 20000 in
/-- Inner cases of `UnitKeyAndDigestSteps` whose own premises are met. -/
theorem cases_UnitKeyAndDigestSteps :
    (∃ (s : State), SqAt 0x10 s ∧ regionOk s (stepA (sqStep s)) (stepB (sqStep s)) = true ∧ engineUp s (stepA (sqStep s)) = true ∧ (unitS s (stepA (sqStep s))).op.isSome = true) ∧
    (∃ (s : State), SqAt 0x10 s ∧ regionOk s (stepA (sqStep s)) (stepB (sqStep s)) = true ∧ engineUp s (stepA (sqStep s)) = true ∧ (unitS s (stepA (sqStep s))).op = none) ∧
    (∃ (s : State), SqAt 0x11 s ∧ regionOk s (stepA (sqStep s)) (stepB (sqStep s)) = true ∧ engineUp s (stepA (sqStep s)) = true ∧ (unitS s (stepA (sqStep s))).op.isSome = true) ∧
    (∃ (s : State), SqAt 0x11 s ∧ regionOk s (stepA (sqStep s)) (stepB (sqStep s)) = true ∧ engineUp s (stepA (sqStep s)) = true ∧ (unitS s (stepA (sqStep s))).op = none ∧ s.sq.seed = none) ∧
    (∃ (s : State), SqAt 0x11 s ∧ regionOk s (stepA (sqStep s)) (stepB (sqStep s)) = true ∧ engineUp s (stepA (sqStep s)) = true ∧ (unitS s (stepA (sqStep s))).op = none ∧ s.sq.seed.isSome = true) ∧
    (∃ (s : State) (op : Nat), ((op = 0x10 ∧ SqAt 0x10 s) ∨ (op = 0x11 ∧ SqAt 0x11 s)) ∧ s.sq.purpose = .user ∧ s.sq.queue = [] ∧ (let i := if op = 0x10 then Instr.sqClear else Instr.sqVerify; regionOk s (stepA (sqStep s)) (stepB (sqStep s)) = false)) ∧
    (∃ (s : State) (op : Nat), ((op = 0x10 ∧ SqAt 0x10 s) ∨ (op = 0x11 ∧ SqAt 0x11 s)) ∧ s.sq.purpose = .user ∧ s.sq.queue = [] ∧ (let i := if op = 0x10 then Instr.sqClear else Instr.sqVerify; regionOk s (stepA (sqStep s)) (stepB (sqStep s)) = true ∧ engineUp s (stepA (sqStep s)) = false)) ∧
    (∃ (u n : Nat) (s : State) (r : _) (p : _), SqFree s ∧ (unitS s u).op = some (.clear r p)) ∧
    (∃ (u n : Nat) (s : State) (r : _), SqFree s ∧ (unitS s u).op = some (.verify r)) ∧
    (∃ (u n : Nat) (s : State), SqFree s ∧ (unitS s u).op.isSome = true) :=
  ⟨⟨stp 0x10 0 0 0 (upd 0 { tU with op := some (.clear 0 false) } tI), ⟨by decide, by decide, by decide, by decide⟩, by decide, by decide, by decide⟩,
   ⟨stp 0x10 0 0 0 tI, ⟨by decide, by decide, by decide, by decide⟩, by decide, by decide, by decide⟩,
   ⟨stp 0x11 0 0 0 (upd 0 { tU with op := some (.clear 0 false) } tI), ⟨by decide, by decide, by decide, by decide⟩, by decide, by decide, by decide⟩,
   ⟨stp 0x11 0 0 0 tI, ⟨by decide, by decide, by decide, by decide⟩, by decide, by decide, by decide, by decide⟩,
   ⟨{ stp 0x11 0 0 0 tI with sq := { (stp 0x11 0 0 0 tI).sq with seed := some 0 } }, ⟨by decide, by decide, by decide, by decide⟩, by decide, by decide, by decide, by decide⟩,
   ⟨stp 0x10 0 9 0 tI, 0x10, .inl ⟨rfl, by decide, by decide, by decide, by decide⟩, by decide, by decide, by decide⟩,
   ⟨stp 0x10 3 0 0 { tI with pkg := { tI.pkg with tilePg := false } }, 0x10, .inl ⟨rfl, by decide, by decide, by decide, by decide⟩, by decide, by decide, by decide⟩,
   ⟨0, 0, upd 0 { tU with op := some (.clear 0 false) } tI, 0, false, ⟨by decide, by decide, by decide, by decide⟩, by decide⟩,
   ⟨0, 1, upd 0 { tU with op := some (.verify 0) } tI, 0, ⟨by decide, by decide, by decide, by decide⟩, by decide⟩,
   ⟨0, 0, upd 0 { tU with op := some (.clear 0 false) } tI, ⟨by decide, by decide, by decide, by decide⟩, by decide⟩⟩

set_option maxRecDepth 20000 in
/-- Inner cases of `OtpCommandsRunAndEnd` whose own premises are met. -/
theorem cases_OtpCommandsRunAndEnd :
    (∃ (s : State) (g : Nat × Nat × Nat), s.otp.busy = false ∧ s.otp.lc = 0 ∧ groupOfRow s.otp.addr = some g ∧ progLocked s.otp g s.otp.addr = false ∧ needs s.otp s.otp.addr s.otp.wdata ≠ 0) ∧
    (∃ (s : State) (g : Nat × Nat × Nat), s.otp.busy = false ∧ s.otp.lc = 0 ∧ groupOfRow s.otp.addr = some g ∧ progLocked s.otp g s.otp.addr = false ∧ needs s.otp s.otp.addr s.otp.wdata = 0) ∧
    (∃ (c v : Nat) (s : State), s.otp.busy = false ∧ 1 ≤ s.otp.lc ∧ s.otp.lc ≤ 3 ∧ c ≤ 3 ∧ v ≤ 64 ∧ s.pkg.progWin = true ∧ svnValue s.otp c < v) ∧
    (∃ (c v : Nat) (s : State), s.otp.busy = false ∧ 1 ≤ s.otp.lc ∧ s.otp.lc ≤ 3 ∧ c ≤ 3 ∧ v ≤ 64 ∧ s.pkg.progWin = true ∧ v ≤ svnValue s.otp c) ∧
    (∃ (c v k : Nat) (s : State), s.otp.busy = false ∧ ¬ (1 ≤ s.otp.lc ∧ s.otp.lc ≤ 3)) ∧
    (∃ (c v k : Nat) (s : State), s.otp.busy = false ∧ 1 ≤ s.otp.lc ∧ s.otp.lc ≤ 3 ∧ c ≤ 3 ∧ 64 < v) ∧
    (∃ (k : Nat) (s : State), s.otp.busy = false ∧ 1 ≤ s.otp.lc ∧ s.otp.lc ≤ 3 ∧ k ≤ 3 ∧ s.pkg.progWin = true ∧ (let ts := targetsOf [(24, needs s.otp 24 (15 * 16 ^ k)), (25, needs s.otp 25 (15 * 16 ^ k))]; ts ≠ [])) ∧
    (∃ (sel : Nat) (s : State), s.otp.busy = false ∧ ((¬ (1 ≤ sel ∧ sel ≤ 4) ∨ lcAllowed s.otp sel = false))) ∧
    (∃ (sel : Nat) (s : State), s.otp.busy = false ∧ 1 ≤ sel ∧ sel ≤ 4 ∧ lcAllowed s.otp sel = true ∧ occMask s ≠ 0) ∧
    (∃ (sel : Nat) (s : State), s.otp.busy = false ∧ 1 ≤ sel ∧ sel ≤ 4 ∧ lcAllowed s.otp sel = true ∧ occMask s = 0 ∧ s.pkg.progWin = true ∧ lcTargets s.otp sel ≠ []) :=
  ⟨⟨{ tI with otp := { tI.otp with lc := 0, addr := 32, wdata := 1 } }, (1, 32, 25), by decide, by decide, by decide, by decide, by decide⟩,
   ⟨{ tI with otp := { tI.otp with lc := 0, addr := 32 } }, (1, 32, 25), by decide, by decide, by decide, by decide, by decide⟩,
   ⟨0, 64, tI, by decide, by decide, by decide, by decide, by decide, by decide, by decide⟩,
   ⟨0, 0, { tI with otp := { tI.otp with lc := 1 }, pkg := { tI.pkg with progWin := true } }, by decide, by decide, by decide, by decide, by decide, by decide, by decide⟩,
   ⟨0, 0, 0, { tI with otp := { tI.otp with lc := 0 } }, by decide, by decide⟩,
   ⟨0, 65, 0, tI, by decide, by decide, by decide, by decide, by decide⟩,
   ⟨3, tI, by decide, by decide, by decide, by decide, by decide, (by intros; decide)⟩,
   ⟨2, tI, by decide, by decide⟩,
   ⟨2, { tI with otp := { tI.otp with lc := 1 }, ks := { tI.ks with slots := { origin := 3 } :: List.replicate 63 {} } }, by decide, by decide, by decide, by decide, by decide⟩,
   ⟨2, { tI with otp := { tI.otp with lc := 1 } }, by decide, by decide, by decide, by decide, by decide, by decide, by decide⟩⟩

set_option maxRecDepth 20000 in
/-- Inner cases of `DigestMessageOpensAbsorbsAndDelivers` whose own premises are met. -/
theorem cases_DigestMessageOpensAbsorbsAndDelivers :
    (∃ (s : State), s.otp.loaded = true ∧ s.dg.phase ≠ .idle) ∧
    (∃ (s : State), s.otp.loaded = true ∧ s.dg.phase = .idle ∧ dgCfgOk s.dg = false) ∧
    (∃ (s : State), s.otp.loaded = true ∧ s.dg.phase = .idle ∧ dgCfgOk s.dg = true ∧ dgKeyOk s = false) ∧
    (∃ (s : State), s.otp.loaded = true ∧ s.dg.phase = .idle ∧ dgCfgOk s.dg = true ∧ dgKeyOk s = true ∧ dgDstOk s = false) ∧
    (∃ (s : State), s.otp.loaded = true ∧ s.dg.phase = .open ∧ s.dg.buf = [] ∧ isHmac s.dg.mode = true) ∧
    (∃ (s : State), s.otp.loaded = true ∧ s.dg.phase = .open ∧ s.dg.buf = [] ∧ isHmac s.dg.mode = false ∧ s.dg.dest = false) ∧
    (∃ (s : State), s.otp.loaded = true ∧ s.dg.phase ≠ .idle ∧ (s.dg.dest = false ∨ (slotS s s.dg.dstslot).pending = false)) ∧
    (∃ (s : State), s.otp.loaded = true ∧ s.dg.phase ≠ .idle ∧ s.dg.dest = true ∧ (slotS s s.dg.dstslot).pending = true) ∧
    (∃ (s : State), s.otp.loaded = true ∧ s.dg.phase = .idle) ∧
    (∃ (s : State), s.otp.loaded = true ∧ s.dg.phase = .idle ∧ ((s.otp.root = 0 ∨ s.otp.disabled = true ∨ (slotS s 0).empty = false))) ∧
    (∃ (s : State), s.otp.loaded = true ∧ s.dg.phase = .idle ∧ s.otp.root ≠ 0 ∧ s.otp.disabled = false ∧ (slotS s 0).empty = true) :=
  ⟨⟨{ tI with dg := { tI.dg with phase := .open } }, by decide, by decide⟩,
   ⟨{ tI with dg := { tI.dg with mode := 15 } }, by decide, by decide, by decide⟩,
   ⟨{ tI with dg := { tI.dg with mode := 5, keyslot := 20 } }, by decide, by decide, by decide, by decide⟩,
   ⟨{ tI with dg := { tI.dg with dest := true, dstslot := 60 }, ks := { tI.ks with slots := (List.replicate 64 {}).set 60 { dead := true } } }, by decide, by decide, by decide, by decide, by decide⟩,
   ⟨{ tI with dg := { tI.dg with phase := .open, mode := 5 } }, by decide, by decide, by decide, by decide⟩,
   ⟨{ tI with dg := { tI.dg with phase := .open } }, by decide, by decide, by decide, by decide, by decide⟩,
   ⟨{ tI with dg := { tI.dg with phase := .open } }, by decide, by decide, by decide⟩,
   ⟨{ tI with dg := { tI.dg with phase := .open, dest := true, dstslot := 9 }, ks := { tI.ks with slots := (List.replicate 64 {}).set 9 { pending := true } } }, by decide, by decide, by decide, by decide⟩,
   ⟨tI, by decide, by decide⟩,
   ⟨{ tI with otp := { tI.otp with root := 0 } }, by decide, by decide, by decide⟩,
   ⟨tI, by decide, by decide, by decide, by decide, by decide⟩⟩

set_option maxRecDepth 20000 in
/-- Inner cases of `KeyStoreCommands` whose own premises are met. -/
theorem cases_KeyStoreCommands :
    (∃ (i : Nat) (s : State), s.ks.busy = false ∧ i < 64 ∧ (slotS s i).empty = true ∧ originAllows 3 s.ks.argUse = true ∧ s.ks.drbgOk = true) ∧
    (∃ (i : Nat) (s : State), s.ks.busy = false ∧ i < 64 ∧ (slotS s i).empty = false) ∧
    (∃ (i : Nat) (s : State), s.ks.busy = false ∧ i < 64 ∧ (slotS s i).empty = true ∧ originAllows 6 s.ks.argUse = true) ∧
    (∃ (i : Nat) (s : State), s.ks.busy = false ∧ i < 64 ∧ (slotS s i).dead = false ∧ s.dg.phase = .idle ∧ s.pk.run = none ∧ s.ks.drbgOk = true) ∧
    (∃ (i : Nat) (s : State), s.ks.busy = false ∧ i < 64 ∧ (slotS s i).dead = true) ∧
    (∃ (i k : Nat) (s : State), s.ks.busy = false ∧ i < 64 ∧ k < 64 ∧ (slotS s i).empty = true ∧ originAllows 4 s.ks.argUse = true ∧ (let n := 16 * (s.ks.argLen + 1); let w := slice s.ks.wbuf 0 (n + 8); slotServes (slotS s k) 3 = false)) ∧
    (∃ (i : Nat) (s : State), s.ks.busy = false ∧ i < 64 ∧ (slotS s i).origin ≠ 0 ∧ (slotS s i).pending = false ∧ (slotS s i).dead = false ∧ (slotS s i).lock = false ∧ (let y := { slotS s i with lock := true }; let z := { slotS s i with use := s.ks.argUse }; s.ks.argUse &&& (slotS s i).use = s.ks.argUse)) ∧
    (∃ (i : Nat) (s : State), s.ks.busy = false ∧ i < 64 ∧ (slotS s i).origin ≠ 0 ∧ (slotS s i).pending = false ∧ (slotS s i).dead = false ∧ (slotS s i).lock = false ∧ (let y := { slotS s i with lock := true }; let z := { slotS s i with use := s.ks.argUse }; s.ks.argUse &&& (slotS s i).use ≠ s.ks.argUse)) :=
  ⟨⟨63, tI, by decide, by decide, by decide, by decide, by decide⟩,
   ⟨0, { tI with ks := { tI.ks with slots := { origin := 3 } :: List.replicate 63 {} } }, by decide, by decide, by decide⟩,
   ⟨63, tI, by decide, by decide, by decide, by decide⟩,
   ⟨63, tI, by decide, by decide, by decide, by decide, by decide, by decide⟩,
   ⟨0, { tI with ks := { tI.ks with slots := { dead := true } :: List.replicate 63 {} } }, by decide, by decide, by decide⟩,
   ⟨63, 0, tI, by decide, by decide, by decide, by decide, by decide, (by intros; decide)⟩,
   ⟨0, { tI with ks := { tI.ks with slots := { origin := 3, len := 16 } :: List.replicate 63 {} } }, by decide, by decide, by decide, by decide, by decide, by decide, (by intros; decide)⟩,
   ⟨0, { tI with ks := { tI.ks with argUse := 1, slots := { origin := 3, len := 16, use := 2 } :: List.replicate 63 {} } }, by decide, by decide, by decide, by decide, by decide, by decide, (by intros; decide)⟩⟩

set_option maxRecDepth 20000 in
/-- Inner cases of `KcvRecheckAndDrbgHealth` whose own premises are met. -/
theorem cases_KcvRecheckAndDrbgHealth :
    ∃ (s : State), kcvBad s = [] ∧ s.ks.busy = false :=
  ⟨tI, by decide, by decide⟩

set_option maxRecDepth 20000 in
/-- Inner cases of `PkeJobsAndMeasurementCommands` whose own premises are met. -/
theorem cases_PkeJobsAndMeasurementCommands :
    (∃ (n : Nat) (s : State), s.ms.job = none ∧ 32 ≤ n) ∧
    (∃ (n : Nat) (s : State), s.ms.job = none ∧ n < 32 ∧ (nth {} s.ms.slots n).locked = false ∧ s.ms.slots.length = 32) ∧
    (∃ (n : Nat) (s : State), s.ms.job = none ∧ n < 32) :=
  ⟨⟨32, tI, by decide, by decide⟩,
   ⟨0, tI, by decide, by decide, by decide, by decide⟩,
   ⟨0, tI, by decide, by decide⟩⟩

set_option maxRecDepth 20000 in
/-- Inner cases of `ChannelHandshakeAndMover` whose own premises are met. -/
theorem cases_ChannelHandshakeAndMover :
    (∃ (ch len : Nat) (s : State), ch < 8 ∧ barOn s 0 = true ∧ 32 ≤ len ∧ len ≤ 4096 ∧ (chanS s ch).cmdFree = false) ∧
    (∃ (ch len : Nat) (s : State), ch < 8 ∧ barOn s 0 = true ∧ 32 ≤ len ∧ len ≤ 4096 ∧ (chanS s ch).gen = 0) ∧
    (∃ (ch len : Nat) (s : State), ch < 8 ∧ barOn s 0 = true ∧ 32 ≤ len ∧ len ≤ 4096 ∧ (chanS s ch).cmdFree = true ∧ (chanS s ch).gen ≠ 0 ∧ (chanS s ch).dbIrqEn = true) ∧
    (∃ (n ch : Nat) (r : List Nat) (s : State), s.mb.arrivals = ch :: r ∧ (chanS s ch).inSram = true) ∧
    (∃ (n ch : Nat) (r : List Nat) (s : State), s.mb.arrivals = ch :: r ∧ (chanS s ch).inSram = false) ∧
    (∃ (ch : Nat) (b : Bytes) (s : State), (chanS s ch).busy = true ∧ (chanS s ch).move = none ∧ hmbRaw (chanS s ch) s = some b ∧ bit s.lg.mask 1 = false ∧ (let r := jobWinFill ch b { s with wd := { s.wd with sram := cellPuts 0#8 ((chanS s ch).addr - 0x10000000) b s.wd.sram }, mb := { s.mb with arrivals := s.mb.arrivals.filter (· != ch) } }; (chanS s ch).reset = none)) :=
  ⟨⟨0, 32, chn { busy := true } tI, by decide, by decide, by decide, by decide, by decide⟩,
   ⟨7, 4096, tI, by decide, by decide, by decide, by decide, by decide⟩,
   ⟨0, 32, chn { gen := 1, dbIrqEn := true } tI, by decide, by decide, by decide, by decide, by decide, by decide, by decide⟩,
   ⟨3, 0, [], { chn { inSram := true } tI with mb := { (chn { inSram := true } tI).mb with arrivals := [0] } }, by decide, by decide⟩,
   ⟨0, 0, [], { tI with mb := { tI.mb with arrivals := [0] } }, by decide, by decide⟩,
   ⟨0, _, chn { busy := true, addr := 0x10000000, len := 32 } tI, by decide, by decide, rfl, by decide⟩⟩

set_option maxRecDepth 20000 in
/-- Inner cases of `RestartReloadAndHealthCheck` whose own premises are met. -/
theorem cases_RestartReloadAndHealthCheck :
    ∃ (s : State), trialReady s = true ∧ (s.pq.wait ++ s.pq.run.toList).any (fun e => e.purp == .health false || e.purp == .health true) = false ∧ ((∀ u ∈ coreUnits s, unitUp s u = true ∧ (unitS s u).hbAge ≤ (unitS s u).hbLim)) ∧ s.ks.drbgOk = true :=
  ⟨{ tI with upd := { tI.upd with awaitCommit := true } }, by decide, by decide, by decide, by decide⟩

set_option maxRecDepth 20000 in
/-- Inner cases of `HostCommandsAnswerTheirFirstFailingCheck` whose own premises are met. -/
theorem cases_HostCommandsAnswerTheirFirstFailingCheck :
    (∃ (op : Nat) (b : Bool) (p : Bytes) (s : State), opKnown op = true ∧ sealNeeded op p s = true) ∧
    (∃ (op : Nat) (b : Bool) (p : Bytes) (s : State), opKnown op = true ∧ sealNeeded op p s = false ∧ groupOk op p s.pkg.st = false ∧ awaits op p s.pkg.st = true) ∧
    (∃ (op : Nat) (b : Bool) (p : Bytes) (s : State), opKnown op = true ∧ sealNeeded op p s = false ∧ groupOk op p s.pkg.st = false ∧ awaits op p s.pkg.st = false) ∧
    (∃ (c : HostCall) (op w st d : Nat) (body : Bytes) (s : State), c.ch < 8 ∧ c.sealed = false ∧ namesStage op = false ∧ (chanS s c.ch).discard = false ∧ (let p := toLe 2 st ++ toLe 2 d ++ toLe 4 w ++ (if st = 0 then body else body ++ List.replicate (bodyLen op - body.length) 0#8); p.length ≤ 224)) ∧
    (∃ (c : HostCall) (op w st d : Nat) (body : Bytes) (s : State), c.ch < 8 ∧ c.sealed = false ∧ namesStage op = false ∧ (chanS s c.ch).discard = false ∧ (let p := toLe 2 st ++ toLe 2 d ++ toLe 4 w ++ (if st = 0 then body else body ++ List.replicate (bodyLen op - body.length) 0#8); let h := toLe 4 c.tag ++ toLe 4 p.length ++ (Config.sha384 p).take 8; 224 < p.length)) :=
  ⟨⟨0x705, false, [], { tA with pkg := { tA.pkg with mode := .confidential } }, by decide, by decide⟩,
   ⟨0x401, false, [], tRun .loading, by decide, by decide, by decide, by decide⟩,
   ⟨0x401, false, [], tI, by decide, by decide, by decide, by decide⟩,
   ⟨call [], 0, 0, 0, 0, [], tI, by decide, by decide, by decide, by decide, (by intros; decide)⟩,
   ⟨call [], 0, 0, 0, 0, List.replicate 217 0#8, tI, by decide, by decide, by decide, by decide, (by intros; decide)⟩⟩

set_option maxRecDepth 20000 in
/-- Inner cases of `BaseGroupCommands` whose own premises are met. -/
theorem cases_BaseGroupCommands :
    (∃ (c : HostCall) (s : State), Admitted 0x001 c s ∧ c.payload.length = 16 ∧ (let m := field c.payload 0 16; m &&& s.hb.offer ≠ m)) ∧
    (∃ (c : HostCall) (s : State), Admitted 0x001 c s ∧ c.payload.length = 16 ∧ (let m := field c.payload 0 16; m &&& s.hb.offer = m ∧ m ≠ s.hb.accept ∧ s.pkg.st = .idle)) ∧
    (∃ (c : HostCall) (s : State), Admitted 0x001 c s ∧ c.payload.length = 16 ∧ (let m := field c.payload 0 16; m = s.hb.accept ∧ m &&& s.hb.offer = m)) ∧
    (∃ (c : HostCall) (s : State), Admitted 0x001 c s ∧ c.payload.length = 16 ∧ (let m := field c.payload 0 16; m &&& s.hb.offer = m ∧ m ≠ s.hb.accept ∧ s.pkg.st ≠ .idle)) ∧
    (∃ (c : HostCall) (s : State), Admitted 0x002 c s ∧ c.payload = [2, 0, 0, 0] ∧ feat s 1 = true ∧ s.pkg.mode ≠ .opened) ∧
    (∃ (c : HostCall) (s : State), Admitted 0x002 c s ∧ c.payload = [2, 0, 0, 0] ∧ feat s 1 = true ∧ s.pkg.mode = .opened) ∧
    (∃ (c : HostCall) (s : State), Admitted 0x002 c s ∧ c.payload = [2, 0, 0, 0] ∧ feat s 1 = false) ∧
    (∃ (c : HostCall) (s : State), Admitted 0x002 c s ∧ c.payload = [1, 0, 0, 0] ∧ s.otp.lc = 2 ∧ s.pkg.mode ≠ .confidential) ∧
    (∃ (c : HostCall) (s : State), Admitted 0x002 c s ∧ c.payload = [1, 0, 0, 0] ∧ s.otp.lc ≠ 2) ∧
    (∃ (c : HostCall) (s : State), Admitted 0x002 c s ∧ c.payload = [1, 0, 0, 0] ∧ s.otp.lc = 2 ∧ s.pkg.mode = .confidential) ∧
    (∃ (c : HostCall) (n : Nat) (s : State), Admitted 0x003 c s ∧ c.payload = [BitVec.ofNat 8 n, 0, 0, 0] ∧ n < 8 ∧ n = c.ch) ∧
    (∃ (c : HostCall) (n : Nat) (s : State), Admitted 0x003 c s ∧ c.payload = [BitVec.ofNat 8 n, 0, 0, 0] ∧ n < 8 ∧ n ≠ c.ch ∧ (chanS s n).busy = true) ∧
    (∃ (c : HostCall) (n : Nat) (s : State), Admitted 0x003 c s ∧ c.payload = [BitVec.ofNat 8 n, 0, 0, 0] ∧ n < 8 ∧ n ≠ c.ch ∧ (chanS s n).busy = false ∧ s.mb.stageOwner ≠ some n) ∧
    (∃ (c : HostCall) (s : State) (o : Bytes), Admitted 0x004 c s ∧ c.payload.length = 16 ∧ allZero (slice c.payload 12 4) = true ∧ field c.payload 8 4 ≠ 0 ∧ (field c.payload 8 4 ≤ (if c.sealed then 4034 else 4064)) ∧ lookupNat (field c.payload 0 4) (chanS s c.ch).objs = some o ∧ field c.payload 4 4 + field c.payload 8 4 ≤ o.length) ∧
    (∃ (c : HostCall) (s : State) (o : Bytes), Admitted 0x004 c s ∧ c.payload.length = 16 ∧ allZero (slice c.payload 12 4) = true ∧ field c.payload 8 4 ≠ 0 ∧ (field c.payload 8 4 ≤ (if c.sealed then 4034 else 4064)) ∧ lookupNat (field c.payload 0 4) (chanS s c.ch).objs = some o ∧ o.length < field c.payload 4 4 + field c.payload 8 4) ∧
    (∃ (c : HostCall) (s : State), Admitted 0x006 c s ∧ c.ch < 8 ∧ 9 ≤ c.payload.length ∧ c.payload.length ≤ 4064 ∧ allZero (slice c.payload 4 4) = true ∧ field c.payload 0 4 + (c.payload.length - 8) ≤ 32768 ∧ (let n := field c.payload 0 4 + (c.payload.length - 8); ((∃ o, o ≠ c.ch ∧ s.mb.stageOwner = some o)))) ∧
    (∃ (c : HostCall) (s : State), Admitted 0x006 c s ∧ c.ch < 8 ∧ 9 ≤ c.payload.length ∧ c.payload.length ≤ 4064 ∧ allZero (slice c.payload 4 4) = true ∧ field c.payload 0 4 + (c.payload.length - 8) ≤ 32768 ∧ (let n := field c.payload 0 4 + (c.payload.length - 8); (s.mb.stageOwner = none ∨ s.mb.stageOwner = some c.ch))) ∧
    (∃ (c : HostCall) (s : State), Admitted 0x007 c s ∧ c.ch < 8 ∧ c.payload = [] ∧ s.mb.stageOwner = some c.ch) ∧
    (∃ (c : HostCall) (s : State), Admitted 0x007 c s ∧ c.ch < 8 ∧ c.payload = [] ∧ s.mb.stageOwner = none) ∧
    (∃ (c : HostCall) (s : State), Admitted 0x007 c s ∧ c.ch < 8 ∧ c.payload = [] ∧ ((∃ o, o ≠ c.ch ∧ s.mb.stageOwner = some o))) :=
  ⟨⟨call (pay 16 [0, 8]), tI, ⟨by decide, by decide⟩, by decide, (by intros; decide)⟩,
   ⟨call (pay 16 [1]), tI, ⟨by decide, by decide⟩, by decide, (by intros; decide)⟩,
   ⟨call (pay 16 [0xFF, 3]), tI, ⟨by decide, by decide⟩, by decide, (by intros; decide)⟩,
   ⟨call (pay 16 [1]), tA, ⟨by decide, by decide⟩, by decide, (by intros; decide)⟩,
   ⟨call [2, 0, 0, 0], { tI with pkg := { tI.pkg with mode := .none } }, ⟨by decide, by decide⟩, by decide, by decide, by decide⟩,
   ⟨call [2, 0, 0, 0], tI, ⟨by decide, by decide⟩, by decide, by decide, by decide⟩,
   ⟨call [2, 0, 0, 0], { tI with hb := { tI.hb with accept := 0 } }, ⟨by decide, by decide⟩, by decide, by decide⟩,
   ⟨call [1, 0, 0, 0], tI, ⟨by decide, by decide⟩, by decide, by decide, by decide⟩,
   ⟨call [1, 0, 0, 0], { tI with otp := { tI.otp with lc := 1 } }, ⟨by decide, by decide⟩, by decide, by decide⟩,
   ⟨⟨0, 1, true, [1, 0, 0, 0]⟩, { tI with pkg := { tI.pkg with mode := .confidential } }, ⟨by decide, by decide⟩, by decide, by decide, by decide⟩,
   ⟨call [0, 0, 0, 0], 0, tI, ⟨by decide, by decide⟩, by decide, by decide, by decide⟩,
   ⟨call [1, 0, 0, 0], 1, { tI with mb := { tI.mb with chans := {} :: { busy := true } :: List.replicate 6 {} } }, ⟨by decide, by decide⟩, by decide, by decide, by decide, by decide⟩,
   ⟨call [1, 0, 0, 0], 1, tI, ⟨by decide, by decide⟩, by decide, by decide, by decide, by decide, by decide⟩,
   ⟨call (pay 16 [1, 0, 0, 0, 0, 0, 0, 0, 1]), { tI with mb := { tI.mb with chans := { objs := [(1, [5#8])] } :: List.replicate 7 {} } }, [5#8], ⟨by decide, by decide⟩, by decide, by decide, by decide, by decide, by decide, by decide⟩,
   ⟨call (pay 16 [1, 0, 0, 0, 1, 0, 0, 0, 1]), { tI with mb := { tI.mb with chans := { objs := [(1, [5#8])] } :: List.replicate 7 {} } }, [5#8], ⟨by decide, by decide⟩, by decide, by decide, by decide, by decide, by decide, by decide⟩,
   ⟨call (pay 9 []), { tI with mb := { tI.mb with stageOwner := some 7 } }, ⟨by decide, by decide⟩, by decide, by decide, by decide, by decide, by decide, by exact ⟨7, by decide, rfl⟩⟩,
   ⟨call (pay 9 []), tI, ⟨by decide, by decide⟩, by decide, by decide, by decide, by decide, by decide, (by intros; decide)⟩,
   ⟨call [], { tI with mb := { tI.mb with stageOwner := some 0 } }, ⟨by decide, by decide⟩, by decide, by decide, by decide⟩,
   ⟨call [], tI, ⟨by decide, by decide⟩, by decide, by decide, by decide⟩,
   ⟨call [], { tI with mb := { tI.mb with stageOwner := some 7 } }, ⟨by decide, by decide⟩, by decide, by decide, ⟨7, by decide, rfl⟩⟩⟩

set_option maxRecDepth 20000 in
/-- Inner cases of `AttestationAndRosterReads` whose own premises are met. -/
theorem cases_AttestationAndRosterReads :
    (∃ (c : HostCall) (s : State), Admitted 0x100 c s ∧ c.payload.length = 36 ∧ field c.payload 32 1 < 2 ∧ allZero (slice c.payload 34 2) = true ∧ (let n := s.idn.serial + 1; let t := { s with idn := { s.idn with serial := n } }; field c.payload 33 1 = 1 ∧ field c.payload 32 1 = 0)) ∧
    (∃ (c : HostCall) (s : State), Admitted 0x100 c s ∧ c.payload.length = 36 ∧ field c.payload 32 1 < 2 ∧ allZero (slice c.payload 34 2) = true ∧ (let n := s.idn.serial + 1; let t := { s with idn := { s.idn with serial := n } }; let mr := measRecord (claimRecord (slice c.payload 0 32) n (breason true s) true false t) t; field c.payload 33 1 = 1 ∧ field c.payload 32 1 = 1)) ∧
    (∃ (c : HostCall) (s : State), Admitted 0x100 c s ∧ c.payload.length = 36 ∧ field c.payload 32 1 < 2 ∧ allZero (slice c.payload 34 2) = true ∧ (let n := s.idn.serial + 1; let t := { s with idn := { s.idn with serial := n } }; let mr := measRecord (claimRecord (slice c.payload 0 32) n (breason false s) false (feat s 3) t) t; field c.payload 33 1 = 0 ∧ field c.payload 32 1 = 1)) ∧
    (∃ (c : HostCall) (s : State), Admitted 0x100 c s ∧ c.payload.length = 36 ∧ field c.payload 32 1 < 2 ∧ allZero (slice c.payload 34 2) = true ∧ (let n := s.idn.serial + 1; let t := { s with idn := { s.idn with serial := n } }; let cl := claims (slice c.payload 0 32) n (breason false s) t; field c.payload 33 1 = 0 ∧ field c.payload 32 1 = 0)) ∧
    (∃ (c : HostCall) (s : State) (w : Nat), Admitted 0x101 c s ∧ c.payload = [BitVec.ofNat 8 w, 0, 0, 0] ∧ w < 2 ∧ ((w = 1 → feat s 3 = true)) ∧ ¬ (s.pkg.st = .quarantine ∧ s.pkg.qcause = 1) ∧ certOf w s = none) ∧
    (∃ (c : HostCall) (s : State) (w : Nat) (d : _), Admitted 0x101 c s ∧ c.payload = [BitVec.ofNat 8 w, 0, 0, 0] ∧ w < 2 ∧ ((w = 1 → feat s 3 = true)) ∧ ¬ (s.pkg.st = .quarantine ∧ s.pkg.qcause = 1) ∧ certOf w s = some d) ∧
    (∃ (c : HostCall) (s : State), Admitted 0x102 c s ∧ c.payload.length = 16 ∧ field c.payload 0 1 < 32 ∧ allZero (slice c.payload 1 3) = true ∧ allZero (slice c.payload 12 4) = true ∧ 1 ≤ field c.payload 8 4 ∧ field c.payload 8 4 ≤ 60 ∧ (let es := (((s.ms.logP ++ s.ms.logT).filter (fun e => e.slot == field c.payload 0 1)).drop (field c.payload 4 4)).take (field c.payload 8 4); (nth {} s.ms.slots (field c.payload 0 1)).count < field c.payload 4 4)) ∧
    (∃ (c : HostCall) (s : State), Admitted 0x102 c s ∧ c.payload.length = 16 ∧ field c.payload 0 1 < 32 ∧ allZero (slice c.payload 1 3) = true ∧ allZero (slice c.payload 12 4) = true ∧ 1 ≤ field c.payload 8 4 ∧ field c.payload 8 4 ≤ 60 ∧ (let es := (((s.ms.logP ++ s.ms.logT).filter (fun e => e.slot == field c.payload 0 1)).drop (field c.payload 4 4)).take (field c.payload 8 4); field c.payload 4 4 ≤ (nth {} s.ms.slots (field c.payload 0 1)).count)) ∧
    (∃ (c : HostCall) (s : State) (k : _) (q : _), Admitted 0x103 c s ∧ c.payload = [] ∧ s.idn.eph = some (k, q)) ∧
    (∃ (c : HostCall) (s : State), Admitted 0x103 c s ∧ c.payload = [] ∧ s.idn.eph = none ∧ s.ks.drbgOk = true ∧ (slotS s 58).empty = true ∧ (slotS s 59).empty = true ∧ s.ks.slots.length = 64) ∧
    (∃ (c : HostCall) (s : State), Admitted 0x205 c s ∧ c.payload.length = 8 ∧ (let ix := if field c.payload 0 8 = 0 then residentIx s else tidIx (field c.payload 0 8) s; ix = none)) ∧
    (∃ (c : HostCall) (s : State) (i : _) (r : _), Admitted 0x205 c s ∧ c.payload.length = 8 ∧ (let ix := if field c.payload 0 8 = 0 then residentIx s else tidIx (field c.payload 0 8) s; ix = some i ∧ recS s i = some r)) ∧
    (∃ (c : HostCall) (s : State), Admitted 0x207 c s ∧ c.payload.length = 8 ∧ field c.payload 0 8 ≠ 0 ∧ (s.tn.ring ++ s.tn.pend).find? (fun r => r.serial == field c.payload 0 8) = none) ∧
    (∃ (c : HostCall) (s : State) (r : _), Admitted 0x207 c s ∧ c.payload.length = 8 ∧ field c.payload 0 8 ≠ 0 ∧ (s.tn.ring ++ s.tn.pend).find? (fun r => r.serial == field c.payload 0 8) = some r) :=
  ⟨⟨call (pay 32 [] ++ [0, 1, 0, 0]), tI, ⟨by decide, by decide⟩, by decide, by decide, by decide, (by intros; decide)⟩,
   ⟨call (pay 32 [] ++ [1, 1, 0, 0]), tI, ⟨by decide, by decide⟩, by decide, by decide, by decide, (by intros; decide)⟩,
   ⟨call (pay 32 [] ++ [1, 0, 0, 0]), tI, ⟨by decide, by decide⟩, by decide, by decide, by decide, (by intros; decide)⟩,
   ⟨call (pay 36 []), tI, ⟨by decide, by decide⟩, by decide, by decide, by decide, (by intros; decide)⟩,
   ⟨call [0, 0, 0, 0], tI, 0, ⟨by decide, by decide⟩, by decide, by decide, by decide, by decide, by decide⟩,
   ⟨call [0, 0, 0, 0], tCert, 0, [1#8], ⟨by decide, by decide⟩, by decide, by decide, by decide, by decide, by simp [certOf, tCert, lookupNat, lcOf, tI, tRun, identQ]⟩,
   ⟨call (pay 16 [0, 0, 0, 0, 1, 0, 0, 0, 1]), tI, ⟨by decide, by decide⟩, by decide, by decide, by decide, by decide, by decide, by decide, (by intros; decide)⟩,
   ⟨call (pay 16 [0, 0, 0, 0, 0, 0, 0, 0, 1]), tI, ⟨by decide, by decide⟩, by decide, by decide, by decide, by decide, by decide, by decide, (by intros; decide)⟩,
   ⟨call [], { tI with idn := { tI.idn with eph := some ([], []) } }, [], [], ⟨by decide, by decide⟩, by decide, by decide⟩,
   ⟨call [], tI, ⟨by decide, by decide⟩, by decide, by decide, by decide, by decide, by decide, by decide⟩,
   ⟨call (pay 8 []), tI, ⟨by decide, by decide⟩, by decide, (by intros; decide)⟩,
   ⟨call (pay 8 [9]), ten tI, 0, tRec, ⟨by decide, by decide⟩, by decide, (by intros; decide)⟩,
   ⟨call (pay 8 [1]), tI, ⟨by decide, by decide⟩, by decide, by decide, by decide⟩,
   ⟨call (pay 8 [1]), { tI with tn := { tI.tn with ring := [⟨1, []⟩] } }, ⟨1, []⟩, ⟨by decide, by decide⟩, by decide, by decide, by decide⟩⟩

set_option maxRecDepth 20000 in
/-- Inner cases of `RosterChangesCommitInFlash` whose own premises are met. -/
theorem cases_RosterChangesCommitInFlash :
    (∃ (c : HostCall) (s : State), Admitted 0x200 c s ∧ c.ch < 8 ∧ c.payload.length = 32 ∧ stageOk c 8 s = true ∧ allZero (slice c.payload 12 4) = true ∧ (let b := stageBytes c s; let r : TRec := ⟨field c.payload 0 8, .enrolled, 0, 0, slice b 24 64, slice b 88 96, slice b 184 2592⟩; stmtOk b 1 (field c.payload 0 8) = false)) ∧
    (∃ (c : HostCall) (i : Nat) (r : TRec) (s : State), Admitted 0x201 c s ∧ c.payload.length = 8 ∧ tidIx (field c.payload 0 8) s = some i ∧ recS s i = some r ∧ r.state = .revoked) ∧
    (∃ (c : HostCall) (i : Nat) (r : TRec) (s : State), Admitted 0x201 c s ∧ c.payload.length = 8 ∧ tidIx (field c.payload 0 8) s = some i ∧ recS s i = some r ∧ r.state = .resident) ∧
    (∃ (c : HostCall) (i : Nat) (r : TRec) (s : State), Admitted 0x201 c s ∧ c.payload.length = 8 ∧ tidIx (field c.payload 0 8) s = some i ∧ recS s i = some r ∧ r.state = .staged) ∧
    (∃ (c : HostCall) (i : Nat) (r : TRec) (s : State), Admitted 0x201 c s ∧ c.payload.length = 8 ∧ tidIx (field c.payload 0 8) s = some i ∧ recS s i = some r ∧ (r.state = .enrolled ∨ r.state = .evicted) ∧ s.tn.ro.hdr = .committed ∧ policyFits r.policy s = false) ∧
    (∃ (c : HostCall) (w i : Nat) (s : State) (ok : _), s.fq.sync = some (.stage c w i) ∧ s.fq.q = [] ∧ (let a := irq 10 { s with fq := { s.fq with sync := none, bad := false } }; (ok = false ∨ s.fq.bad = true ∨ slotServes (slotS s 6) 2 = false))) ∧
    (∃ (c : HostCall) (i : Nat) (r : TRec) (s : State), Admitted 0x202 c s ∧ c.payload.length = 8 ∧ tidIx (field c.payload 0 8) s = some i ∧ recS s i = some r ∧ ((s.pkg.st ≠ .idle ∨ r.state ≠ .staged))) ∧
    (∃ (c : HostCall) (i : Nat) (r : TRec) (s : State), Admitted 0x203 c s ∧ c.payload.length = 8 ∧ residentIx s = some i ∧ recS s i = some r ∧ s.pkg.st = .active ∧ r.tid ≠ field c.payload 0 8) ∧
    (∃ (c : HostCall) (i : Nat) (r : TRec) (s : State), Admitted 0x203 c s ∧ c.payload.length = 8 ∧ residentIx s = some i ∧ recS s i = some r ∧ s.pkg.st = .active ∧ (let t := startSwitch 1 s; r.tid = field c.payload 0 8)) :=
  ⟨⟨call (pay 8 [1] ++ sref), stg tI, ⟨by decide, by decide⟩, by decide, by decide, (by simp [stageOk, stageBytes, stg, call, sref, pay, mgCh, mgWith, field, slice, le, cellGets, Config.sha384]; exact ⟨rfl, rfl⟩), by decide, (by intros; decide)⟩,
   ⟨call (pay 8 [9]), 0, { tRec with state := .revoked }, rec1 .revoked, ⟨by decide, by decide⟩, by decide, by decide, by decide, by decide⟩,
   ⟨call (pay 8 [9]), 0, { tRec with state := .resident }, rec1 .resident, ⟨by decide, by decide⟩, by decide, by decide, by decide, by decide⟩,
   ⟨call (pay 8 [9]), 0, tRec, ten tI, ⟨by decide, by decide⟩, by decide, by decide, by decide, by decide⟩,
   ⟨call (pay 8 [9]), 0, { tRec with state := .enrolled }, rec1 .enrolled, ⟨by decide, by decide⟩, by decide, by decide, by decide, by decide, by decide, by decide⟩,
   ⟨call [], 0, 0, { tI with fq := { tI.fq with sync := some (.stage (call []) 0 0) } }, false, by decide, by decide, (by intros; decide)⟩,
   ⟨call (pay 8 [9]), 0, { tRec with state := .enrolled }, rec1 .enrolled, ⟨by decide, by decide⟩, by decide, by decide, by decide, by decide⟩,
   ⟨call (pay 8 [8]), 0, { tRec with state := .resident }, ten tA, ⟨by decide, by decide⟩, by decide, by decide, by decide, by decide, by decide⟩,
   ⟨call (pay 8 [9]), 0, { tRec with state := .resident }, ten tA, ⟨by decide, by decide⟩, by decide, by decide, by decide, by decide, (by intros; decide)⟩⟩

set_option maxRecDepth 20000 in
/-- Inner cases of `LoadingAcknowledgementsAndSwitchHalt` whose own premises are met. -/
theorem cases_LoadingAcknowledgementsAndSwitchHalt :
    (∃ (u : Nat) (p : Bytes) (s : State), unitTakes s u 0x8101 = some p ∧ s.pkg.st = .loading ∧ s.tn.ld.phase = .entry) ∧
    (∃ (u : Nat) (p : Bytes) (s : State), unitTakes s u 0x8101 = some p ∧ s.pkg.st ≠ .loading) ∧
    (∃ (u v : Nat) (r : List Nat) (s : State), s.pkg.st = .loading ∧ s.tn.ld.phase = .entry ∧ unitEntered u s = true ∧ u ∈ s.tn.ld.waiting ∧ s.tn.ld.waiting.filter (· != u) = v :: r) ∧
    (∃ (u v : Nat) (r : List Nat) (s : State), s.pkg.st = .loading ∧ s.tn.ld.phase = .entry ∧ unitEntered u s = true ∧ u ∈ s.tn.ld.waiting ∧ s.tn.ld.waiting.filter (· != u) = []) ∧
    (∃ (u : Nat) (r : List Nat) (s : State), s.pkg.st = .loading ∧ s.tn.ld.waiting = u :: r ∧ s.tn.ld.phase = .entry) ∧
    (∃ (u : Nat) (r : List Nat) (s : State), s.pkg.st = .loading ∧ s.tn.ld.waiting = u :: r ∧ s.tn.ld.phase = .selftest) ∧
    (∃ (t : Nat) (q p : Bytes) (s : State), s.pkg.st = .loading ∧ s.tn.ld.phase = .selftest ∧ t ∈ s.tn.ld.waiting ∧ field p 0 1 = 1) ∧
    (∃ (t : Nat) (q p : Bytes) (s : State), s.pkg.st = .loading ∧ s.tn.ld.phase = .selftest ∧ t ∈ s.tn.ld.waiting ∧ field p 0 1 ≠ 1) ∧
    (∃ (t : Nat) (q p : Bytes) (s : State), s.pkg.st ≠ .loading ∧ (tileJ s t).restoring = true ∧ (tileJ s t).epoch = epochOf s ∧ ((∀ x ∈ s.jb.progs, x.phandle ∈ (tileJ s t).store)) ∧ field p 0 1 = 1) ∧
    (∃ (t : Nat) (q p : Bytes) (s : State), s.pkg.st ≠ .loading ∧ (tileJ s t).restoring = true ∧ (tileJ s t).epoch = epochOf s ∧ ((∀ x ∈ s.jb.progs, x.phandle ∈ (tileJ s t).store)) ∧ field p 0 1 ≠ 1) ∧
    (∃ (s : State), s.tn.sw.phase = .halt ∧ s.rc.cur = none ∧ s.rc.waiting = none ∧ s.rc.signing = none ∧ (let t := switchKeys { s with xl := { s.xl with asts := s.xl.asts.map (fun a => { a with held := [] }) }, rc := { s.rc with held := [] }, tn := { s.tn with sw := { s.tn.sw with phase := .batch } } }; drained s = true)) :=
  ⟨⟨8, [], tCmd 8 0x8101 [] (tL .entry [8]), (tTakes (by decide) rfl rfl rfl), by decide, by decide⟩,
   ⟨8, [], tCmd 8 0x8101 [] tA, (tTakes (by decide) rfl rfl rfl), by decide⟩,
   ⟨8, 9, [], tL .entry [8, 9], by decide, by decide, by decide, by decide, by decide⟩,
   ⟨8, 0, [], tL .entry [8], by decide, by decide, by decide, by decide, by decide⟩,
   ⟨0, [], tL .entry [0], by decide, by decide, by decide⟩,
   ⟨0, [], tL .selftest [0], by decide, by decide, by decide⟩,
   ⟨0, [], [1], tL .selftest [0], by decide, by decide, by decide, by decide⟩,
   ⟨7, [], [], tL .selftest [7], by decide, by decide, by decide, by decide⟩,
   ⟨0, [], [1], { tA with jb := { tA.jb with tiles := { restoring := true, epoch := epochOf tA } :: List.replicate 7 {} } }, by decide, by decide, by decide, by decide, by decide⟩,
   ⟨7, [], [], { tI with jb := { tI.jb with tiles := List.replicate 8 { restoring := true } } }, by decide, by decide, by decide, by decide, by decide⟩,
   ⟨{ tA with tn := { tA.tn with sw := { phase := .halt } } }, by decide, by decide, by decide, by decide, (by intros; decide)⟩⟩

set_option maxRecDepth 20000 in
/-- Inner cases of `ProgramsLoadInstallAndCopy` whose own premises are met. -/
theorem cases_ProgramsLoadInstallAndCopy :
    (∃ (c : HostCall) (s : State) (x : _), Admitted 0x400 c s ∧ c.payload.length = 64 ∧ allZero (slice c.payload 1 3) = true ∧ s.jb.progs.find? (fun x => x.dig == slice c.payload 16 48) = some x) ∧
    (∃ (c : HostCall) (s : State), Admitted 0x400 c s ∧ c.payload.length = 64 ∧ allZero (slice c.payload 1 3) = true ∧ s.jb.progs.find? (fun x => x.dig == slice c.payload 16 48) = none) ∧
    (∃ (src t : Nat) (q p : Bytes) (s : State), field q 0 1 = t ∧ tileRestored t s = true) ∧
    (∃ (src t : Nat) (q p : Bytes) (s : State), field q 0 1 = t ∧ tileRestored t s = false) :=
  ⟨⟨call (pay 64 []), { tA with jb := { tA.jb with progs := [{ tProg with dig := List.replicate 48 0 }] } }, { tProg with dig := List.replicate 48 0 }, ⟨by decide, by decide⟩, by decide, by decide, by decide⟩,
   ⟨call (pay 64 []), tA, ⟨by decide, by decide⟩, by decide, by decide, by decide⟩,
   ⟨1, 0, [], [], { tA with jb := { tA.jb with tiles := { restoring := true } :: List.replicate 7 {} } }, by decide, by decide⟩,
   ⟨1, 0, [], [], tA, by decide, by decide⟩⟩

set_option maxRecDepth 20000 in
/-- Inner cases of `JobsSubmitQueueRunAndEnd` whose own premises are met. -/
theorem cases_JobsSubmitQueueRunAndEnd :
    (∃ (c : HostCall) (s : State), Admitted 0x401 c s ∧ c.payload.length = 96 ∧ astS s (field c.payload 12 1) = none) ∧
    (∃ (c : HostCall) (s : State) (a : _), Admitted 0x401 c s ∧ c.payload.length = 96 ∧ astS s (field c.payload 12 1) = some a ∧ field c.payload 0 8 = 0) ∧
    (∃ (jid : Nat) (x : JobEnd) (j : Job) (s : State), jobS s jid = some j ∧ j.st = .running ∧ j.ending = false ∧ (let r := modJob jid (fun j => { j with retry := j.retry || x.retry, ovf := x.ovf, written := x.written }) s; x.status ≠ 0)) ∧
    (∃ (jid : Nat) (x : JobEnd) (j : Job) (s : State), jobS s jid = some j ∧ j.st = .running ∧ j.ending = false ∧ (let r := modJob jid (fun j => { j with retry := j.retry || x.retry, ovf := x.ovf, written := x.written }) s; x.status = 0 ∧ gateShut j s = true)) ∧
    (∃ (jid : Nat) (x : JobEnd) (j : Job) (s : State), jobS s jid = some j ∧ j.st = .running ∧ j.ending = false ∧ (let r := modJob jid (fun j => { j with retry := j.retry || x.retry, ovf := x.ovf, written := x.written }) s; x.status = 0 ∧ gateShut j s = false ∧ j.receipt = false)) ∧
    (∃ (jid : Nat) (x : JobEnd) (j : Job) (s : State), jobS s jid = some j ∧ j.st = .running ∧ j.ending = false ∧ (let r := modJob jid (fun j => { j with retry := j.retry || x.retry, ovf := x.ovf, written := x.written }) s; x.status = 0 ∧ gateShut j s = false ∧ j.receipt = true ∧ digestsIn j = false)) ∧
    (∃ (jid : Nat) (x : JobEnd) (j : Job) (s : State), jobS s jid = some j ∧ j.st = .running ∧ j.ending = false ∧ (let r := modJob jid (fun j => { j with retry := j.retry || x.retry, ovf := x.ovf, written := x.written }) s; x.status = 0 ∧ gateShut j s = false ∧ j.receipt = true ∧ digestsIn j = true)) ∧
    (∃ (c : HostCall) (j : Job) (s : State), Admitted 0x402 c s ∧ c.payload.length = 8 ∧ jobS s (field c.payload 0 8) = some j ∧ j.st = .parked) ∧
    (∃ (c : HostCall) (j : Job) (s : State), Admitted 0x402 c s ∧ c.payload.length = 8 ∧ jobS s (field c.payload 0 8) = some j ∧ j.st = .running) ∧
    (∃ (c : HostCall) (j : Job) (s : State), Admitted 0x402 c s ∧ c.payload.length = 8 ∧ jobS s (field c.payload 0 8) = some j ∧ j.st = .queued) ∧
    (∃ (t jid n : Nat) (j : Job) (p : Bytes) (s : State), unitTakes s t 0x8004 = some p ∧ field p 0 8 = jid ∧ field p 8 2 = n ∧ jobS s jid = some j ∧ n ≠ 5 ∧ j.st ≠ .queued ∧ j.st ≠ .parked) ∧
    (∃ (t jid w d : Nat) (c : HostCall) (q p : Bytes) (s : State), s.uw = [⟨t, 0x8004, some (c, w), jid, d⟩] ∧ field q 0 8 = jid ∧ field p 0 1 = 3) ∧
    (∃ (t jid w d : Nat) (c : HostCall) (q p : Bytes) (s : State), s.uw = [⟨t, 0x8004, some (c, w), jid, d⟩] ∧ field q 0 8 = jid ∧ field p 0 1 ≠ 3) :=
  ⟨⟨call (pay 96 []), tA, ⟨by decide, by decide⟩, by decide, by decide⟩,
   ⟨call (pay 96 [0, 0, 0, 0, 0, 0, 0, 0, 0, 0, 0, 0, 3]), { tA with xl := { tA.xl with asts := [tAst] } }, tAst, ⟨by decide, by decide⟩, by decide, by decide, by decide⟩,
   ⟨7, ⟨1, 0, false, false, 0⟩, tJob .running, { tA with jb := { tA.jb with list := [tJob .running] } }, by decide, by decide, by decide, (by intros; decide)⟩,
   ⟨7, ⟨0, 0, false, false, 0⟩, tJob .running, { tA with jb := { tA.jb with list := [tJob .running], tiles := { gateClosed := true } :: List.replicate 7 {} } }, by decide, by decide, by decide, (by intros; decide)⟩,
   ⟨7, ⟨0, 0, false, false, 0⟩, tJob .running, { tA with jb := { tA.jb with list := [tJob .running] } }, by decide, by decide, by decide, (by intros; decide)⟩,
   ⟨7, ⟨0, 0, false, false, 0⟩, { tJob .running with receipt := true }, { tA with jb := { tA.jb with list := [{ tJob .running with receipt := true }] } }, by decide, by decide, by decide, (by intros; decide)⟩,
   ⟨7, ⟨0, 0, false, false, 0⟩, { tJob .running with receipt := true, inDigs := [(0, [])], outDigs := [(0, [])] }, { tA with jb := { tA.jb with list := [{ tJob .running with receipt := true, inDigs := [(0, [])], outDigs := [(0, [])] }] } }, by decide, by decide, by decide, (by intros; decide)⟩,
   ⟨call (pay 8 [7]), tJob .parked, { tA with jb := { tA.jb with list := [tJob .parked] } }, ⟨by decide, by decide⟩, by decide, by decide, by decide⟩,
   ⟨call (pay 8 [7]), tJob .running, { tA with jb := { tA.jb with list := [tJob .running] } }, ⟨by decide, by decide⟩, by decide, by decide, by decide⟩,
   ⟨call (pay 8 [7]), tJob .queued, { tA with jb := { tA.jb with list := [tJob .queued] } }, ⟨by decide, by decide⟩, by decide, by decide, by decide⟩,
   ⟨0, 7, 0, tJob .running, pay 16 [7], tCmd 0 0x8004 (pay 16 [7]) { tA with jb := { tA.jb with list := [tJob .running] } }, (tTakes (by decide) rfl rfl rfl), by decide, by decide, by decide, by decide, by decide, by decide⟩,
   ⟨0, 7, 0, 0, call [], toLe 8 7, [3], { tA with uw := [⟨0, 0x8004, some (call [], 0), 7, 0⟩] }, by decide, by decide, by decide⟩,
   ⟨0, 7, 0, 0, call [], [7], [], { tA with uw := [⟨0, 0x8004, some (call [], 0), 7, 0⟩] }, by decide, by decide, by decide⟩⟩

set_option maxRecDepth 20000 in
/-- Inner cases of `TileChecksRingsAndBatches` whose own premises are met. -/
theorem cases_TileChecksRingsAndBatches :
    (∃ (t jid step : Nat) (j : Job) (s : State), jobS s jid = some j ∧ t < 8 ∧ j.st = .running ∧ bit j.tiles t = true ∧ (tileJ s t).gateClosed = false ∧ (let x := tileJ s t; let r := logEvent 0x0307 t (toLe 8 jid ++ toLe 4 step) (modTileJ t (fun y => { y with rescnt := min (y.rescnt + 1) 0xFFFFFFFF, fails := s.wd.time :: x.fails.filter (fun f => decide (s.wd.time - f < x.window * 100000)) }) s); (jid, step) ∈ x.rexec)) ∧
    (∃ (t jid step : Nat) (j : Job) (s : State), jobS s jid = some j ∧ t < 8 ∧ j.st = .running ∧ bit j.tiles t = true ∧ (tileJ s t).gateClosed = false ∧ (let x := tileJ s t; let r := logEvent 0x0307 t (toLe 8 jid ++ toLe 4 step) (modTileJ t (fun y => { y with rescnt := min (y.rescnt + 1) 0xFFFFFFFF, fails := s.wd.time :: x.fails.filter (fun f => decide (s.wd.time - f < x.window * 100000)) }) s); (jid, step) ∉ x.rexec)) ∧
    (∃ (t : Nat) (s : State), t < 8 ∧ (tileJ s t).gateClosed = false ∧ (let n := ((tileJ s t).fails.filter (fun f => decide (s.wd.time - f < (tileJ s t).window * 100000))).length; n ≤ (tileJ s t).limit)) ∧
    (∃ (t : Nat) (s : State), t < 8 ∧ (tileJ s t).gateClosed = false ∧ (let n := ((tileJ s t).fails.filter (fun f => decide (s.wd.time - f < (tileJ s t).window * 100000))).length; (tileJ s t).limit < n)) ∧
    (∃ (t region line : Nat) (s : State) (jid : Nat) (j : Job), t < 8 ∧ unitUp s t = true ∧ line < regionLines region ∧ (let r := logEvent 0x0306 t (toLe 1 region ++ toLe 8 line) (modTileJ t (fun x => { x with ue := min (x.ue + 1) 0xFFFFFFFF, eccAddr := line, poison := if (region, line) ∈ x.poison then x.poison else x.poison ++ [(region, line)] }) s); jobS r jid = some j ∧ j.st = .running ∧ bit j.tiles t = true)) ∧
    (∃ (t region line : Nat) (s : State) (h : Nat) (w : Wpk), t < 8 ∧ unitUp s t = true ∧ line < regionLines region ∧ (let r := logEvent 0x0306 t (toLe 1 region ++ toLe 8 line) (modTileJ t (fun x => { x with ue := min (x.ue + 1) 0xFFFFFFFF, eccAddr := line, poison := if (region, line) ∈ x.poison then x.poison else x.poison ++ [(region, line)] }) s); wpkS r h = some w ∧ w.ws ≠ .failed ∧ w.places.any (placeIn t region) = true)) ∧
    (∃ (tag ct : Nat) (a : Ast) (s : State), astS s tag = some a ∧ a.ring = 0) ∧
    (∃ (tag ct : Nat) (a : Ast) (s : State), astS s tag = some a ∧ a.ring ≠ 0 ∧ a.held = [] ∧ a.tag = tag) ∧
    (∃ (c : HostCall) (s : State), Admitted 0x404 c s ∧ c.payload = [] ∧ s.rc.cur = none) ∧
    (∃ (c : HostCall) (s : State) (b : _), Admitted 0x404 c s ∧ c.payload = [] ∧ s.rc.cur = some b ∧ s.rc.waiting = none) ∧
    (∃ (c : HostCall) (s : State) (b : _), Admitted 0x404 c s ∧ c.payload = [] ∧ s.rc.cur = some b ∧ s.rc.waiting.isSome = true) ∧
    (∃ (b : Batch) (s : State), s.rc.cur = some b ∧ s.rc.waiting = none) ∧
    (∃ (b : Batch) (s : State), s.rc.cur = some b ∧ s.rc.waiting.isSome = true ∧ s.rc.due = none) :=
  ⟨⟨0, 7, 0, tJob .running, { tA with jb := { tA.jb with list := [tJob .running], tiles := { rexec := [(7, 0)] } :: List.replicate 7 {} } }, by decide, by decide, by decide, by decide, by decide, (by intros; decide)⟩,
   ⟨0, 7, 0, tJob .running, { tA with jb := { tA.jb with list := [tJob .running] } }, by decide, by decide, by decide, by decide, by decide, (by intros; decide)⟩,
   ⟨7, tA, by decide, by decide, (by intros; decide)⟩,
   ⟨0, { tA with jb := { tA.jb with tiles := { limit := 1, fails := [0, 0] } :: List.replicate 7 {} } }, by decide, by decide, (by intros; decide)⟩,
   ⟨0, 0, 0, { tA with jb := { tA.jb with list := [tJob .running] } }, 7, tJob .running, by decide, by decide, by decide, (by intros; decide)⟩,
   ⟨0, 0, 0, { tA with wk := { hs := [{ tWpk .runnable with places := [.base 0 0] }] } }, 1, { tWpk .runnable with places := [.base 0 0] }, by decide, by decide, by decide, by intros; exact ⟨rfl, by decide, by decide⟩⟩,
   ⟨3, 0, tAst, { tA with xl := { tA.xl with asts := [tAst] } }, by decide, by decide⟩,
   ⟨3, 0, { tAst with ring := 8 }, { tA with xl := { tA.xl with asts := [{ tAst with ring := 8 }] } }, by decide, by decide, by decide, by decide⟩,
   ⟨call [], tA, ⟨by decide, by decide⟩, by decide, by decide⟩,
   ⟨call [], { tA with rc := { tA.rc with cur := some ⟨1, 1, [], [], 0, false⟩ } }, ⟨1, 1, [], [], 0, false⟩, ⟨by decide, by decide⟩, by decide, by decide, by decide⟩,
   ⟨call [], { tA with rc := { tA.rc with cur := some ⟨1, 1, [], [], 0, false⟩, waiting := some ⟨0, 1, [], []⟩ } }, ⟨1, 1, [], [], 0, false⟩, ⟨by decide, by decide⟩, by decide, by decide, by decide⟩,
   ⟨⟨1, 1, [], [], 0, false⟩, { tA with rc := { tA.rc with cur := some ⟨1, 1, [], [], 0, false⟩ } }, by decide, by decide⟩,
   ⟨⟨1, 1, [], [], 0, false⟩, { tA with rc := { tA.rc with cur := some ⟨1, 1, [], [], 0, false⟩, waiting := some ⟨0, 1, [], []⟩ } }, by decide, by decide, by decide⟩⟩

set_option maxRecDepth 20000 in
/-- Inner cases of `StackMemoryAndSpill` whose own premises are met. -/
theorem cases_StackMemoryAndSpill :
    (∃ (t line : Nat) (s : State), hasStack s t = true ∧ s.pkg.memPg = true ∧ line < 30 * 2 ^ 24 ∧ (portKey s t 0).isSome = true ∧ (portKey s t 1).isSome = true ∧ (mcS s t).heat ≠ 2 ∧ s.pkg.refLink = true ∧ line / 64 ∉ (mcS s t).init) ∧
    (∃ (page jid : Nat) (j : Job) (s : State), jobS s jid = some j ∧ s.sp.en = true ∧ s.sp.first ≤ page ∧ page < s.sp.first + s.sp.pages ∧ j.st = .running ∧ page ∈ s.sp.frames) ∧
    (∃ (page jid : Nat) (j : Job) (s : State), jobS s jid = some j ∧ s.sp.en = true ∧ s.sp.first ≤ page ∧ page < s.sp.first + s.sp.pages ∧ j.st = .running ∧ page ∉ s.sp.frames ∧ page ∈ s.sp.fetching) ∧
    (∃ (page jid : Nat) (j : Job) (s : State), jobS s jid = some j ∧ s.sp.en = true ∧ s.sp.first ≤ page ∧ page < s.sp.first + s.sp.pages ∧ j.st = .running ∧ (let new := ((List.range 64).map (· + page)).filter (fun p => decide (p < s.sp.first + s.sp.pages) && !decide (p ∈ s.sp.frames) && !decide (p ∈ s.sp.fetching)); page ∉ s.sp.frames ∧ page ∉ s.sp.fetching)) :=
  ⟨⟨0, 30 * 2 ^ 24 - 1, upd 0 { tU with ports := [⟨0, []⟩, ⟨1, []⟩] } tA, by decide, by decide, by decide, by decide, by decide, by decide, by decide, by decide⟩,
   ⟨3, 7, tJob .running, { tA with jb := { tA.jb with list := [tJob .running] }, sp := { tA.sp with en := true, first := 0, pages := 8, frames := [3] } }, by decide, by decide, by decide, by decide, by decide, by decide⟩,
   ⟨3, 7, tJob .running, { tA with jb := { tA.jb with list := [tJob .running] }, sp := { tA.sp with en := true, first := 0, pages := 8, fetching := [3] } }, by decide, by decide, by decide, by decide, by decide, by decide, by decide⟩,
   ⟨3, 7, tJob .running, { tA with jb := { tA.jb with list := [tJob .running] }, sp := { tA.sp with en := true, pages := 4 } }, by decide, by decide, by decide, by decide, by decide, (by intros; decide)⟩⟩

set_option maxRecDepth 20000 in
/-- Inner cases of `WeightPackagesOpenLoadFinishClose` whose own premises are met. -/
theorem cases_WeightPackagesOpenLoadFinishClose :
    (∃ (c : HostCall) (w : Wpk) (s : State), Admitted 0x303 c s ∧ c.payload.length = 16 ∧ wpkOpen s (field c.payload 0 4) = some w ∧ allZero (slice c.payload 12 4) = true ∧ s.wk.load = none ∧ ((w.ws = .keyed ∨ w.ws = .loading)) ∧ field c.payload 8 4 ≠ 0 ∧ field c.payload 4 4 + field c.payload 8 4 ≤ w.pages ∧ field c.payload 4 4 ≤ w.loaded ∧ field c.payload 4 4 + field c.payload 8 4 ≤ w.loaded) ∧
    (∃ (c : HostCall) (w : Wpk) (s : State), Admitted 0x303 c s ∧ c.payload.length = 16 ∧ wpkOpen s (field c.payload 0 4) = some w ∧ allZero (slice c.payload 12 4) = true ∧ s.wk.load = none ∧ ((w.ws = .keyed ∨ w.ws = .loading)) ∧ field c.payload 8 4 ≠ 0 ∧ field c.payload 4 4 + field c.payload 8 4 ≤ w.pages ∧ field c.payload 4 4 ≤ w.loaded ∧ w.loaded < field c.payload 4 4 + field c.payload 8 4) ∧
    (∃ (c : HostCall) (w : Wpk) (s : State), Admitted 0x304 c s ∧ c.payload.length = 8 ∧ wpkOpen s (field c.payload 0 4) = some w ∧ allZero (slice c.payload 4 4) = true ∧ s.wk.load = none ∧ (w.ws ≠ .loading ∨ w.loaded ≠ w.pages)) ∧
    (∃ (c : HostCall) (w : Wpk) (s : State), Admitted 0x304 c s ∧ c.payload.length = 8 ∧ wpkOpen s (field c.payload 0 4) = some w ∧ allZero (slice c.payload 4 4) = true ∧ s.wk.load = none ∧ w.ws = .loading ∧ w.loaded = w.pages ∧ mthClose w.stack = w.root) ∧
    (∃ (c : HostCall) (w : Wpk) (s : State), Admitted 0x304 c s ∧ c.payload.length = 8 ∧ wpkOpen s (field c.payload 0 4) = some w ∧ allZero (slice c.payload 4 4) = true ∧ s.wk.load = none ∧ w.ws = .loading ∧ w.loaded = w.pages ∧ mthClose w.stack ≠ w.root) ∧
    (∃ (c : HostCall) (s : State), Admitted 0x306 c s ∧ c.payload.length = 8 ∧ wpkOpen s (field c.payload 0 4) = none ∧ allZero (slice c.payload 4 4) = true) ∧
    (∃ (c : HostCall) (s : State) (w : _), Admitted 0x306 c s ∧ c.payload.length = 8 ∧ wpkOpen s (field c.payload 0 4) = some w ∧ allZero (slice c.payload 4 4) = true) :=
  ⟨⟨call (pay 16 [1, 0, 0, 0, 0, 0, 0, 0, 1]), { tWpk .loading with loaded := 2 }, { tA with wk := { hs := [{ tWpk .loading with loaded := 2 }] } }, ⟨by decide, by decide⟩, by decide, by decide, by decide, by decide, by decide, by decide, by decide, by decide, by decide⟩,
   ⟨call (pay 16 [1, 0, 0, 0, 0, 0, 0, 0, 1]), tWpk .keyed, wp .keyed tA, ⟨by decide, by decide⟩, by decide, by decide, by decide, by decide, by decide, by decide, by decide, by decide, by decide⟩,
   ⟨call (pay 8 [1]), tWpk .loading, wp .loading tA, ⟨by decide, by decide⟩, by decide, by decide, by decide, by decide, by decide⟩,
   ⟨call (pay 8 [1]), { tWpk .loading with loaded := 2, root := mthClose [] }, { tA with wk := { hs := [{ tWpk .loading with loaded := 2, root := mthClose [] }] } }, ⟨by decide, by decide⟩, by decide, rfl, by decide, by decide, by decide, by decide, rfl⟩,
   ⟨call (pay 8 [1]), { tWpk .loading with loaded := 2, root := [1] }, { tA with wk := { hs := [{ tWpk .loading with loaded := 2, root := [1] }] } }, ⟨by decide, by decide⟩, by decide, rfl, by decide, by decide, by decide, by decide, by decide⟩,
   ⟨call (pay 8 [1]), tA, ⟨by decide, by decide⟩, by decide, by decide, by decide⟩,
   ⟨call (pay 8 [1]), wp .runnable tA, tWpk .runnable, ⟨by decide, by decide⟩, by decide, by decide, by decide⟩⟩

set_option maxRecDepth 20000 in
/-- Inner cases of `TagsAndInvalidations` whose own premises are met. -/
theorem cases_TagsAndInvalidations :
    (∃ (c : HostCall) (s : State), Admitted 0x500 c s ∧ c.payload.length = 16 ∧ field c.payload 8 8 ≠ 0 ∧ field c.payload 8 8 % 65536 = 0 ∧ bits (field c.payload 1 1) 4 4 = 0 ∧ ((bits (field c.payload 1 1) 0 4 = 0 ∨ (8 ≤ bits (field c.payload 1 1) 0 4 ∧ bits (field c.payload 1 1) 0 4 ≤ 14))) ∧ allZero (slice c.payload 3 5) = true ∧ ((s.pkg.mode = .opened → field c.payload 2 1 % 64 = 0)) ∧ (let tag := field c.payload 0 1; let d := field c.payload 2 1 / 64; (astS s tag).isSome = true)) ∧
    (∃ (c : HostCall) (s : State), Admitted 0x500 c s ∧ c.payload.length = 16 ∧ field c.payload 8 8 ≠ 0 ∧ field c.payload 8 8 % 65536 = 0 ∧ bits (field c.payload 1 1) 4 4 = 0 ∧ ((bits (field c.payload 1 1) 0 4 = 0 ∨ (8 ≤ bits (field c.payload 1 1) 0 4 ∧ bits (field c.payload 1 1) 0 4 ≤ 14))) ∧ allZero (slice c.payload 3 5) = true ∧ ((s.pkg.mode = .opened → field c.payload 2 1 % 64 = 0)) ∧ (let tag := field c.payload 0 1; let d := field c.payload 2 1 / 64; astS s tag = none ∧ (((portUnits s).length ≤ d ∨ (fnS s d).up = false)))) ∧
    (∃ (c : HostCall) (s : State), Admitted 0x500 c s ∧ c.payload.length = 16 ∧ field c.payload 8 8 ≠ 0 ∧ field c.payload 8 8 % 65536 = 0 ∧ bits (field c.payload 1 1) 4 4 = 0 ∧ ((bits (field c.payload 1 1) 0 4 = 0 ∨ (8 ≤ bits (field c.payload 1 1) 0 4 ∧ bits (field c.payload 1 1) 0 4 ≤ 14))) ∧ allZero (slice c.payload 3 5) = true ∧ ((s.pkg.mode = .opened → field c.payload 2 1 % 64 = 0)) ∧ (let tag := field c.payload 0 1; let d := field c.payload 2 1 / 64; astS s tag = none ∧ d < (portUnits s).length ∧ (fnS s d).up = true)) ∧
    (∃ (c : HostCall) (s : State), Admitted 0x501 c s ∧ c.payload.length = 8 ∧ allZero (slice c.payload 1 7) = true ∧ (let tag := field c.payload 0 1; astS s tag = none)) ∧
    (∃ (c : HostCall) (s : State), Admitted 0x501 c s ∧ c.payload.length = 8 ∧ allZero (slice c.payload 1 7) = true ∧ (let tag := field c.payload 0 1; (astS s tag).isSome = true)) ∧
    (∃ (n v : Nat) (s : State), n < 64 ∧ barOn s 0 = true ∧ 16 ≤ (s.xl.invs.filter (fun i => i.lane == some n)).length) ∧
    (∃ (n v : Nat) (s : State), n < 64 ∧ barOn s 0 = true ∧ (let t := { s with xl := { s.xl with invReq := modNth n (fun x => (x + 1) % 2 ^ 32) s.xl.invReq } }; (s.xl.invs.filter (fun i => i.lane == some n)).length < 16)) ∧
    (∃ (c : HostCall) (s : State), Admitted 0x506 c s ∧ c.payload.length = 24 ∧ s.pkg.mode ≠ .opened) ∧
    (∃ (c : HostCall) (s : State), Admitted 0x506 c s ∧ c.payload.length = 24 ∧ s.pkg.mode = .opened ∧ allZero (slice c.payload 1 7) = true ∧ field c.payload 8 8 % 65536 = 0 ∧ field c.payload 16 8 % 65536 = 0 ∧ field c.payload 8 8 + field c.payload 16 8 ≤ 2 ^ 52 ∧ (astS s (field c.payload 0 1)).isSome = true) :=
  ⟨⟨call (pay 16 [3, 0, 0, 0, 0, 0, 0, 0, 0, 0, 1]), { tA with xl := { tA.xl with asts := [tAst] } }, ⟨by decide, by decide⟩, by decide, by decide, by decide, by decide, by decide, by decide, by decide, (by intros; decide)⟩,
   ⟨call (pay 16 [4, 0, 0, 0, 0, 0, 0, 0, 0, 0, 1]), { tA with hb := { tA.hb with fns := List.replicate 4 {} } }, ⟨by decide, by decide⟩, by decide, by decide, by decide, by decide, by decide, by decide, by decide, (by intros; decide)⟩,
   ⟨call (pay 16 [3, 0, 0, 0, 0, 0, 0, 0, 0, 0, 1]), tA, ⟨by decide, by decide⟩, by decide, by decide, by decide, by decide, by decide, by decide, by decide, (by intros; decide)⟩,
   ⟨call (pay 8 [3]), tA, ⟨by decide, by decide⟩, by decide, by decide, (by intros; decide)⟩,
   ⟨call (pay 8 [3]), { tA with xl := { tA.xl with asts := [tAst] } }, ⟨by decide, by decide⟩, by decide, by decide, (by intros; decide)⟩,
   ⟨0, 0, { tA with xl := { tA.xl with invs := List.replicate 16 (tInv (some 0) none) } }, by decide, by decide, by decide⟩,
   ⟨63, 0, tA, by decide, by decide, (by intros; decide)⟩,
   ⟨call (pay 24 []), { tA with pkg := { tA.pkg with mode := .confidential } }, ⟨by decide, by decide⟩, by decide, by decide⟩,
   ⟨call (pay 24 [3, 0, 0, 0, 0, 0, 0, 0, 0, 0, 0, 0, 0, 0, 0, 0, 0, 0, 1]), { tA with xl := { tA.xl with asts := [tAst] } }, ⟨by decide, by decide⟩, by decide, by decide, by decide, by decide, by decide, by decide, by decide⟩⟩

set_option maxRecDepth 20000 in
/-- Inner cases of `WalksFaultsAndMigration` whose own premises are met. -/
theorem cases_WalksFaultsAndMigration :
    (∃ (c : HostCall) (s : State), Admitted 0x503 c s ∧ c.payload.length = 24 ∧ allZero (slice c.payload 1 7) = true ∧ rangeArg (field c.payload 8 8) (field c.payload 16 8) = true ∧ (astS s (field c.payload 0 1)).isSome = true ∧ isS0 s = true) ∧
    (∃ (c : HostCall) (s : State), Admitted 0x503 c s ∧ c.payload.length = 24 ∧ allZero (slice c.payload 1 7) = true ∧ rangeArg (field c.payload 8 8) (field c.payload 16 8) = true ∧ (astS s (field c.payload 0 1)).isSome = true ∧ isS0 s = false) ∧
    (∃ (c : HostCall) (a : Ast) (s : State), Admitted 0x504 c s ∧ c.payload.length = 24 ∧ allZero (slice c.payload 2 6) = true ∧ rangeArg (field c.payload 8 8) (field c.payload 16 8) = true ∧ astS s (field c.payload 0 1) = some a ∧ (let k := field c.payload 1 1; let ps := rangePages (field c.payload 8 8) (field c.payload 16 8); let new := ps.filter (fun x => !a.resid.any (fun r => r.page == x)); ((k = 2 ∨ k = 3)) ∧ isS0 s = true)) ∧
    (∃ (c : HostCall) (a : Ast) (s : State), Admitted 0x504 c s ∧ c.payload.length = 24 ∧ allZero (slice c.payload 2 6) = true ∧ rangeArg (field c.payload 8 8) (field c.payload 16 8) = true ∧ astS s (field c.payload 0 1) = some a ∧ (let k := field c.payload 1 1; let ps := rangePages (field c.payload 8 8) (field c.payload 16 8); let new := ps.filter (fun x => !a.resid.any (fun r => r.page == x)); k = 1)) ∧
    (∃ (c : HostCall) (a : Ast) (s : State), Admitted 0x504 c s ∧ c.payload.length = 24 ∧ allZero (slice c.payload 2 6) = true ∧ rangeArg (field c.payload 8 8) (field c.payload 16 8) = true ∧ astS s (field c.payload 0 1) = some a ∧ (let k := field c.payload 1 1; let ps := rangePages (field c.payload 8 8) (field c.payload 16 8); let new := ps.filter (fun x => !a.resid.any (fun r => r.page == x)); k = 2 ∧ isS0 s = false ∧ 65536 * new.length ≤ freeCap s)) ∧
    (∃ (c : HostCall) (a : Ast) (s : State), Admitted 0x504 c s ∧ c.payload.length = 24 ∧ allZero (slice c.payload 2 6) = true ∧ rangeArg (field c.payload 8 8) (field c.payload 16 8) = true ∧ astS s (field c.payload 0 1) = some a ∧ (let k := field c.payload 1 1; let ps := rangePages (field c.payload 8 8) (field c.payload 16 8); let new := ps.filter (fun x => !a.resid.any (fun r => r.page == x)); k = 4)) ∧
    (∃ (c : HostCall) (a : Ast) (s : State), Admitted 0x504 c s ∧ c.payload.length = 24 ∧ allZero (slice c.payload 2 6) = true ∧ rangeArg (field c.payload 8 8) (field c.payload 16 8) = true ∧ astS s (field c.payload 0 1) = some a ∧ (let k := field c.payload 1 1; let ps := rangePages (field c.payload 8 8) (field c.payload 16 8); let new := ps.filter (fun x => !a.resid.any (fun r => r.page == x)); k = 3 ∧ isS0 s = false ∧ feat s 6 = false)) ∧
    (∃ (c : HostCall) (a : Ast) (s : State), Admitted 0x504 c s ∧ c.payload.length = 24 ∧ allZero (slice c.payload 2 6) = true ∧ rangeArg (field c.payload 8 8) (field c.payload 16 8) = true ∧ astS s (field c.payload 0 1) = some a ∧ (let k := field c.payload 1 1; let ps := rangePages (field c.payload 8 8) (field c.payload 16 8); let new := ps.filter (fun x => !a.resid.any (fun r => r.page == x)); k = 3 ∧ isS0 s = false ∧ feat s 6 = true ∧ a.advised.length < 64)) ∧
    (∃ (c : HostCall) (a : Ast) (s : State), Admitted 0x504 c s ∧ c.payload.length = 24 ∧ allZero (slice c.payload 2 6) = true ∧ rangeArg (field c.payload 8 8) (field c.payload 16 8) = true ∧ astS s (field c.payload 0 1) = some a ∧ (let k := field c.payload 1 1; let ps := rangePages (field c.payload 8 8) (field c.payload 16 8); let new := ps.filter (fun x => !a.resid.any (fun r => r.page == x)); k = 3 ∧ isS0 s = false ∧ feat s 6 = true ∧ 64 ≤ a.advised.length)) ∧
    (∃ (c : HostCall) (a : Ast) (s : State), Admitted 0x504 c s ∧ c.payload.length = 24 ∧ allZero (slice c.payload 2 6) = true ∧ rangeArg (field c.payload 8 8) (field c.payload 16 8) = true ∧ astS s (field c.payload 0 1) = some a ∧ (let k := field c.payload 1 1; let ps := rangePages (field c.payload 8 8) (field c.payload 16 8); let new := ps.filter (fun x => !a.resid.any (fun r => r.page == x)); (k = 0 ∨ 4 < k))) ∧
    (∃ (c : HostCall) (s : State), Admitted 0x505 c s ∧ c.payload.length = 8 ∧ allZero (slice c.payload 4 4) = true ∧ field c.payload 0 4 ∉ s.xl.written) ∧
    (∃ (c : HostCall) (s : State), Admitted 0x505 c s ∧ c.payload.length = 8 ∧ allZero (slice c.payload 4 4) = true ∧ field c.payload 0 4 ∈ s.xl.written ∧ ((∀ j ∈ s.jb.list, j.st ≠ .parked))) ∧
    (∃ (c : HostCall) (s : State) (js : List Job), Admitted 0x505 c s ∧ c.payload.length = 8 ∧ allZero (slice c.payload 4 4) = true ∧ js = s.jb.list.filter (fun j => j.st == .parked && j.park == .fault && decide (field c.payload 0 4 ∈ j.batches)) ∧ js ≠ [] ∧ field c.payload 0 4 ∈ s.xl.written) :=
  ⟨⟨call (pay 24 [3, 0, 0, 0, 0, 0, 0, 0, 0, 0, 0, 0, 0, 0, 0, 0, 0, 0, 1]), { tA with otp := { tA.otp with asm := 3 }, xl := { tA.xl with asts := [tAst] } }, ⟨by decide, by decide⟩, by decide, by decide, by decide, by decide, by decide⟩,
   ⟨call (pay 24 [3, 0, 0, 0, 0, 0, 0, 0, 0, 0, 0, 0, 0, 0, 0, 0, 0, 0, 1]), { tA with xl := { tA.xl with asts := [tAst] } }, ⟨by decide, by decide⟩, by decide, by decide, by decide, by decide, by decide⟩,
   ⟨call (pay 24 [3, 2, 0, 0, 0, 0, 0, 0, 0, 0, 0, 0, 0, 0, 0, 0, 0, 0, 1]), tAst, { tA with otp := { tA.otp with asm := 3 }, xl := { tA.xl with asts := [tAst] } }, ⟨by decide, by decide⟩, by decide, by decide, by decide, by decide, (by intros; decide)⟩,
   ⟨call (pay 24 [3, 1, 0, 0, 0, 0, 0, 0, 0, 0, 0, 0, 0, 0, 0, 0, 0, 0, 1]), tAst, { tA with xl := { tA.xl with asts := [tAst] } }, ⟨by decide, by decide⟩, by decide, by decide, by decide, by decide, (by intros; decide)⟩,
   ⟨call (pay 24 [3, 2, 0, 0, 0, 0, 0, 0, 0, 0, 0, 0, 0, 0, 0, 0, 0, 0, 1]), tAst, { tA with xl := { tA.xl with asts := [tAst] } }, ⟨by decide, by decide⟩, by decide, by decide, by decide, by decide, (by intros; decide)⟩,
   ⟨call (pay 24 [3, 4, 0, 0, 0, 0, 0, 0, 0, 0, 0, 0, 0, 0, 0, 0, 0, 0, 1]), tAst, { tA with xl := { tA.xl with asts := [tAst] } }, ⟨by decide, by decide⟩, by decide, by decide, by decide, by decide, (by intros; decide)⟩,
   ⟨call (pay 24 [3, 3, 0, 0, 0, 0, 0, 0, 0, 0, 0, 0, 0, 0, 0, 0, 0, 0, 1]), tAst, { tA with hb := { tA.hb with accept := 0 }, xl := { tA.xl with asts := [tAst] } }, ⟨by decide, by decide⟩, by decide, by decide, by decide, by decide, (by intros; decide)⟩,
   ⟨call (pay 24 [3, 3, 0, 0, 0, 0, 0, 0, 0, 0, 0, 0, 0, 0, 0, 0, 0, 0, 1]), tAst, { tA with xl := { tA.xl with asts := [tAst] } }, ⟨by decide, by decide⟩, by decide, by decide, by decide, by decide, (by intros; decide)⟩,
   ⟨call (pay 24 [3, 3, 0, 0, 0, 0, 0, 0, 0, 0, 0, 0, 0, 0, 0, 0, 0, 0, 1]), { tAst with advised := List.range 64 }, { tA with xl := { tA.xl with asts := [{ tAst with advised := List.range 64 }] } }, ⟨by decide, by decide⟩, by decide, by decide, by decide, by decide, (by intros; decide)⟩,
   ⟨call (pay 24 [3, 0, 0, 0, 0, 0, 0, 0, 0, 0, 0, 0, 0, 0, 0, 0, 0, 0, 1]), tAst, { tA with xl := { tA.xl with asts := [tAst] } }, ⟨by decide, by decide⟩, by decide, by decide, by decide, by decide, (by intros; decide)⟩,
   ⟨call (pay 8 [1]), tA, ⟨by decide, by decide⟩, by decide, by decide, by decide⟩,
   ⟨call (pay 8 [5]), { tA with xl := { tA.xl with written := [5] } }, ⟨by decide, by decide⟩, by decide, by decide, by decide, by decide⟩,
   ⟨call (pay 8 [5]), { tA with xl := { tA.xl with written := [5] }, jb := { tA.jb with list := [{ tJob .parked with park := .fault, batches := [5] }] } }, [{ tJob .parked with park := .fault, batches := [5] }], ⟨by decide, by decide⟩, by decide, by decide, by decide, by decide, by decide⟩⟩

set_option maxRecDepth 20000 in
/-- Inner cases of `AperturesRecordsAndLanes` whose own premises are met. -/
theorem cases_AperturesRecordsAndLanes :
    (∃ (c : HostCall) (s : State), Admitted 0x507 c s ∧ c.payload.length = 24 ∧ s.pkg.mode = .confidential ∧ allZero (slice c.payload 3 5) = true ∧ (astS s (field c.payload 0 1)).isSome = true ∧ (let r := field c.payload 1 1; let d := field c.payload 2 1 / 64; let a := field c.payload 2 1 % 64; let dbase := field c.payload 8 8; let len := field c.payload 16 8; r ≤ 2 ∧ ((r = 0 → dbase = 0 ∧ len = 0)) ∧ sessOpen s = false)) ∧
    (∃ (a off : Nat) (v : Word) (s : State), a < 64 ∧ barOn s 0 = true ∧ s.pkg.mode = .confidential) ∧
    (∃ (a off : Nat) (v : Word) (s : State), a < 64 ∧ barOn s 0 = true ∧ s.pkg.mode = .none) ∧
    (∃ (a off : Nat) (v : Word) (s : State), a < 64 ∧ barOn s 0 = true ∧ s.pkg.mode = .opened ∧ spillAp s 0 a = true) ∧
    (∃ (a off : Nat) (v : Word) (s : State), a < 64 ∧ barOn s 0 = true ∧ s.pkg.mode = .opened ∧ spillAp s 0 a = false ∧ a ∉ (pxS s 0).quiesce) ∧
    (∃ (d a i : Nat) (x : RecIn) (k : Bytes) (s : State), d < 4 ∧ (apS s d a).valid = true ∧ (apS s d a).outbound = false ∧ i < (apS s d a).len / 4096 ∧ portKey s (unitOfOrd s d) a = some k ∧ (apS s d a).keyed = true ∧ a ∉ (pxS s d).quiesce ∧ (apS s d a).exh = false ∧ 1 ≤ x.rlen ∧ x.rlen ≤ 4096 ∧ x.kgen = (apS s d a).kgen ∧ x.seq ≠ 0 ∧ x.reach ≤ x.rlen ∧ ((d = 0 → a = 63 → s.sp.paired = false)) ∧ (let e := (apS s d a).rtbase + i; x.seq ≤ recSt s d e ∧ s.jb.list = [])) ∧
    (∃ (d a i : Nat) (x : RecIn) (k : Bytes) (s : State), d < 4 ∧ (apS s d a).valid = true ∧ (apS s d a).outbound = false ∧ i < (apS s d a).len / 4096 ∧ portKey s (unitOfOrd s d) a = some k ∧ (apS s d a).keyed = true ∧ a ∉ (pxS s d).quiesce ∧ (apS s d a).exh = false ∧ 1 ≤ x.rlen ∧ x.rlen ≤ 4096 ∧ x.kgen = (apS s d a).kgen ∧ x.seq ≠ 0 ∧ x.reach ≤ x.rlen ∧ ((d = 0 → a = 63 → s.sp.paired = false)) ∧ (let e := (apS s d a).rtbase + i; recSt s d e < x.seq)) ∧
    (∃ (d a i : Nat) (b k : Bytes) (s : State), d < 4 ∧ (apS s d a).valid = true ∧ (apS s d a).outbound = true ∧ i < (apS s d a).len / 4096 ∧ 1 ≤ b.length ∧ b.length ≤ 4096 ∧ portKey s (unitOfOrd s d) a = some k ∧ (apS s d a).keyed = true ∧ a ∉ (pxS s d).quiesce ∧ (apS s d a).exh = false ∧ apGated d a i s = false ∧ (let e := (apS s d a).rtbase + i; let q := recSt s d e + 1; let r := (List.range (b.length + 16)).map (Config.gcmByte true (k.take 32) (apIv k i q) (apAad (64 * d + a) 2 (apS s d a).kgen i q b.length) b); recSt s d e ≠ 0xFFFFFFFF)) ∧
    (∃ (d stream jid : Nat) (j : Job) (s : State), jobS s jid = some j ∧ d < 4 ∧ j.die = d ∧ j.st = .running ∧ stream < 62 ∧ j.stream = stream ∧ lookupNat stream (pxS s d).streams = none ∧ (pxS s d).conf = true ∧ ((∃ e ∈ j.exts, e.kind = 0))) ∧
    (∃ (d stream jid : Nat) (j : Job) (s : State), jobS s jid = some j ∧ d < 4 ∧ j.die = d ∧ j.st = .running ∧ stream < 62 ∧ j.stream = stream ∧ lookupNat stream (pxS s d).streams = none ∧ (((pxS s d).conf = false ∨ ∀ e ∈ j.exts, e.kind ≠ 0))) ∧
    (∃ (jid chunk : Nat) (b : Bytes) (j : Job) (s : State), jobS s jid = some j ∧ j.st = .running ∧ j.receipt = true ∧ j.ending = false ∧ b ≠ [] ∧ b.length = chunkLen j.inLen chunk) ∧
    (∃ (jid chunk : Nat) (b : Bytes) (j : Job) (s : State), jobS s jid = some j ∧ j.st = .running ∧ j.receipt = true ∧ j.ending = false ∧ b ≠ [] ∧ b.length = chunkLen j.outLen chunk) :=
  ⟨⟨⟨0, 1, true, pay 24 [3, 0]⟩, { tA with pkg := { tA.pkg with mode := .confidential }, xl := { tA.xl with asts := [tAst] } }, ⟨by decide, by decide⟩, by decide, by decide, by decide, by decide, (by intros; decide)⟩,
   ⟨0, 0, 0#32, { tA with pkg := { tA.pkg with mode := .confidential } }, by decide, by decide, by decide⟩,
   ⟨0, 0, 0#32, { tA with pkg := { tA.pkg with mode := .none } }, by decide, by decide, by decide⟩,
   ⟨62, 0, 0#32, { tA with sp := { tA.sp with en := true } }, by decide, by decide, by decide, by decide⟩,
   ⟨63, 0, 0#32, tA, by decide, by decide, by decide, by decide, by decide⟩,
   ⟨0, 0, 0, ⟨1, 1, 1, [], [], 1⟩, [], { apn { valid := true, keyed := true, kgen := 1, len := 4096 } tA with px := { aps := { valid := true, keyed := true, kgen := 1, len := 4096 } :: List.replicate 63 {}, recst := [(0, 1)] } :: List.replicate 3 {} }, by decide, by decide, by decide, by decide, by decide, by decide, by decide, by decide, by decide, by decide, by decide, by decide, by decide, by decide, (by intros; decide)⟩,
   ⟨0, 0, 0, ⟨1, 1, 1, [], [], 1⟩, [], apn { valid := true, keyed := true, kgen := 1, len := 4096 } tA, by decide, by decide, by decide, by decide, by decide, by decide, by decide, by decide, by decide, by decide, by decide, by decide, by decide, by decide, (by intros; decide)⟩,
   ⟨0, 0, 0, [1#8], [], apn { valid := true, outbound := true, keyed := true, kgen := 1, len := 4096 } tA, by decide, by decide, by decide, by decide, by decide, by decide, by decide, by decide, by decide, by decide, by decide, (by intros; decide)⟩,
   ⟨0, 3, 7, { tJob .running with stream := 3, exts := [⟨0, 0, 0, 0, false, false⟩] }, { tA with jb := { tA.jb with list := [{ tJob .running with stream := 3, exts := [⟨0, 0, 0, 0, false, false⟩] }] }, px := { conf := true } :: List.replicate 3 {} }, by decide, by decide, by decide, by decide, by decide, by decide, by decide, by decide, by decide⟩,
   ⟨0, 0, 7, tJob .running, { tA with jb := { tA.jb with list := [tJob .running] } }, by decide, by decide, by decide, by decide, by decide, by decide, by decide, by decide⟩,
   ⟨7, 0, [1], { tJob .running with receipt := true, inLen := 1 }, { tA with jb := { tA.jb with list := [{ tJob .running with receipt := true, inLen := 1 }] } }, by decide, by decide, by decide, by decide, by decide, by decide⟩,
   ⟨7, 0, [1#8], { tJob .running with receipt := true }, { tA with jb := { tA.jb with list := [{ tJob .running with receipt := true }] } }, by decide, by decide, by decide, by decide, by decide, by decide⟩⟩

set_option maxRecDepth 20000 in
/-- Inner cases of `LinkCommands` whose own premises are met. -/
theorem cases_LinkCommands :
    (∃ (c : HostCall) (s : State), Admitted 0x600 c s ∧ c.payload.length = 4 ∧ allZero (slice c.payload 1 3) = true ∧ unitType s (field c.payload 0 1) ≠ .port) ∧
    (∃ (c : HostCall) (s : State), Admitted 0x600 c s ∧ c.payload.length = 4 ∧ allZero (slice c.payload 1 3) = true ∧ unitType s (field c.payload 0 1) = .port ∧ (unitS s (field c.payload 0 1)).ustate = .up) ∧
    (∃ (c : HostCall) (s : State), Admitted 0x600 c s ∧ c.payload.length = 4 ∧ allZero (slice c.payload 1 3) = true ∧ unitType s (field c.payload 0 1) = .port ∧ (unitS s (field c.payload 0 1)).ustate ≠ .up) ∧
    (∃ (c : HostCall) (s : State), Admitted 0x603 c s ∧ c.payload.length = 16 ∧ unitType s (field c.payload 0 1) = .port ∧ allZero (slice c.payload 2 2) = true ∧ allZero (slice c.payload 15 1) = true ∧ 12 ≤ field c.payload 1 1 ∧ field c.payload 1 1 ≠ 0xFF) ∧
    (∃ (c : HostCall) (s : State), Admitted 0x603 c s ∧ c.payload.length = 16 ∧ unitType s (field c.payload 0 1) = .port ∧ allZero (slice c.payload 2 2) = true ∧ allZero (slice c.payload 15 1) = true ∧ ((field c.payload 1 1 < 12 ∨ field c.payload 1 1 = 0xFF)) ∧ (unitS s (field c.payload 0 1)).ustate ≠ .up) ∧
    (∃ (c : HostCall) (s : State), Admitted 0x603 c s ∧ c.payload.length = 16 ∧ unitType s (field c.payload 0 1) = .port ∧ allZero (slice c.payload 2 2) = true ∧ allZero (slice c.payload 15 1) = true ∧ field c.payload 1 1 < 12 ∧ (unitS s (field c.payload 0 1)).ustate = .up) ∧
    (∃ (c : HostCall) (s : State), Admitted 0x603 c s ∧ c.payload.length = 16 ∧ unitType s (field c.payload 0 1) = .port ∧ allZero (slice c.payload 2 2) = true ∧ allZero (slice c.payload 15 1) = true ∧ field c.payload 1 1 = 0xFF ∧ (unitS s (field c.payload 0 1)).ustate = .up) ∧
    (∃ (c : HostCall) (s : State), Admitted 0x604 c s ∧ c.ch < 8 ∧ c.payload.length = 32 ∧ stageOk c 8 s = true ∧ allZero (slice c.payload 12 4) = true ∧ (let b := stageBytes c s; let t := { s with idn := { s.idn with nonce := none } }; let u := field c.payload 0 1; let p := field c.payload 1 1; lportOk s u p = false)) ∧
    (∃ (c : HostCall) (s : State), Admitted 0x601 c s ∧ c.ch < 8 ∧ c.payload.length = 32 ∧ stageOk c 8 s = true ∧ allZero (slice c.payload 12 4) = true ∧ (let b := stageBytes c s; let job := field c.payload 0 8; field b 0 4 ≠ 0x4B4E4C54)) :=
  ⟨⟨call [0, 0, 0, 0], tI, ⟨by decide, by decide⟩, by decide, by decide, by decide⟩,
   ⟨call (pay 4 [8]), tI, ⟨by decide, by decide⟩, by decide, by decide, by decide, by decide⟩,
   ⟨call [8, 0, 0, 0], upd 8 {} tI, ⟨by decide, by decide⟩, by decide, by decide, by decide, by decide⟩,
   ⟨call (pay 16 [8, 12]), tA, ⟨by decide, by decide⟩, by decide, by decide, by decide, by decide, by decide, by decide⟩,
   ⟨call (pay 16 [8, 0]), upd 8 {} tA, ⟨by decide, by decide⟩, by decide, by decide, by decide, by decide, by decide, by decide⟩,
   ⟨call (pay 16 [8]), tI, ⟨by decide, by decide⟩, by decide, by decide, by decide, by decide, by decide, by decide⟩,
   ⟨call (pay 16 [8, 0xFF]), tA, ⟨by decide, by decide⟩, by decide, by decide, by decide, by decide, by decide, by decide⟩,
   ⟨call (pay 8 [] ++ sref), stg tI, ⟨by decide, by decide⟩, by decide, by decide, (by simp [stageOk, stageBytes, stg, call, sref, pay, mgCh, mgWith, field, slice, le, cellGets, Config.sha384]; exact ⟨rfl, rfl⟩), by decide, (by intros; decide)⟩,
   ⟨call (pay 8 [7] ++ sref), stg tI, ⟨by decide, by decide⟩, by decide, by decide, (by simp [stageOk, stageBytes, stg, call, sref, pay, mgCh, mgWith, field, slice, le, cellGets, Config.sha384]; exact ⟨rfl, rfl⟩), by decide, (by intros; decide)⟩⟩

set_option maxRecDepth 20000 in
/-- Inner cases of `LinyaPortStates` whose own premises are met. -/
theorem cases_LinyaPortStates :
    (∃ (u p : Nat) (s : State), lportOk s u p = true ∧ (let d := ordOfUnit s u; let x := lportS s d p; let g := (unitS s u).gen.toNat; portFwRuns s u = true ∧ x.st = .down)) ∧
    (∃ (u p : Nat) (s : State), lportOk s u p = true ∧ (let d := ordOfUnit s u; let x := lportS s d p; let g := (unitS s u).gen.toNat; x.st ≠ .down)) ∧
    (∃ (u p : Nat) (s : State), lportOk s u p = true ∧ (let d := ordOfUnit s u; let x := lportS s d p; let g := (unitS s u).gen.toNat; x.st = .training ∧ x.attempts < 2 ∧ SqFree s)) ∧
    (∃ (u p : Nat) (s : State), lportOk s u p = true ∧ (let d := ordOfUnit s u; let x := lportS s d p; let g := (unitS s u).gen.toNat; x.st = .training ∧ 2 ≤ x.attempts)) ∧
    (∃ (u p : Nat) (s : State), lportOk s u p = true ∧ (let d := ordOfUnit s u; let x := lportS s d p; let g := (unitS s u).gen.toNat; ((x.st = .up ∨ x.st = .degraded)))) ∧
    (∃ (u p : Nat) (s : State), lportOk s u p = true ∧ (let d := ordOfUnit s u; let x := lportS s d p; let g := (unitS s u).gen.toNat; x.st = .training)) ∧
    (∃ (u p : Nat) (s : State), lportOk s u p = true ∧ (let d := ordOfUnit s u; let x := lportS s d p; let g := (unitS s u).gen.toNat; x.holding = true ∧ x.st = .down)) ∧
    (∃ (u p : Nat) (s : State), lportOk s u p = true ∧ (let d := ordOfUnit s u; let x := lportS s d p; let g := (unitS s u).gen.toNat; x.holding = false)) ∧
    (∃ (u p : Nat) (s : State), lportOk s u p = true ∧ (let d := ordOfUnit s u; let x := lportS s d p; let g := (unitS s u).gen.toNat; x.st = .up)) ∧
    (∃ (u p : Nat) (s : State), lportOk s u p = true ∧ (let d := ordOfUnit s u; let x := lportS s d p; let g := (unitS s u).gen.toNat; x.st = .degraded)) ∧
    (∃ (u p : Nat) (s : State), lportOk s u p = true ∧ (let d := ordOfUnit s u; let x := lportS s d p; let g := (unitS s u).gen.toNat; portFwRuns s u = true ∧ ((x.st = .up ∨ x.st = .degraded)))) ∧
    (∃ (u p : Nat) (s : State), lportOk s u p = true ∧ (let d := ordOfUnit s u; let x := lportS s d p; let g := (unitS s u).gen.toNat; x.st = .mappedOut)) ∧
    (∃ (u p : Nat) (s : State), lportOk s u p = true ∧ (let d := ordOfUnit s u; let x := lportS s d p; let g := (unitS s u).gen.toNat; ((x.st = .up ∨ x.st = .degraded)) ∧ x.replay ≠ [] ∧ 8 ≤ x.resends)) ∧
    (∃ (u p : Nat) (s : State) (cause : Nat) (f : State → State), lportOk s u p = true ∧ (let d := ordOfUnit s u; let x := lportS s d p; let g := (unitS s u).gen.toNat; x.st ≠ .mappedOut ∧ (unitS (f s) u).gen.toNat = g ∧ ordOfUnit (f s) u = d ∧ (lportS (f s) d p).st = .mappedOut)) :=
  ⟨⟨8, 11, tI, by decide, (by intros; decide)⟩,
   ⟨8, 11, modLport 0 11 (fun x => { x with st := .training }) tI, by decide, (by intros; decide)⟩,
   ⟨8, 11, modLport 0 11 (fun x => { x with st := .training }) tI, by decide, by intros; exact ⟨by decide, by decide, by decide, by decide, by decide, by decide⟩⟩,
   ⟨8, 11, modLport 0 11 (fun x => { x with st := .training, attempts := 2 }) tI, by decide, (by intros; decide)⟩,
   ⟨8, 11, modLport 0 11 (fun x => { x with st := .degraded }) tI, by decide, (by intros; decide)⟩,
   ⟨8, 11, modLport 0 11 (fun x => { x with st := .training }) tI, by decide, (by intros; decide)⟩,
   ⟨8, 11, modLport 0 11 (fun x => { x with holding := true }) tI, by decide, (by intros; decide)⟩,
   ⟨8, 11, tI, by decide, (by intros; decide)⟩,
   ⟨8, 11, modLport 0 11 (fun x => { x with st := .up }) tI, by decide, (by intros; decide)⟩,
   ⟨8, 11, modLport 0 11 (fun x => { x with st := .degraded }) tI, by decide, (by intros; decide)⟩,
   ⟨8, 11, modLport 0 11 (fun x => { x with st := .up }) tI, by decide, (by intros; decide)⟩,
   ⟨8, 11, modLport 0 11 (fun x => { x with st := .mappedOut }) tI, by decide, (by intros; decide)⟩,
   ⟨8, 11, modLport 0 11 (fun x => { x with st := .up, replay := [[]], resends := 8 }) tI, by decide, (by intros; decide)⟩,
   ⟨8, 11, tI, 0, fun s => modLport 0 11 (fun x => { x with st := .mappedOut }) s, by decide, (by intros; decide)⟩⟩

set_option maxRecDepth 20000 in
/-- Inner cases of `FlitsAndMessages` whose own premises are met. -/
theorem cases_FlitsAndMessages :
    (∃ (u p : Nat) (f : Bytes) (s : State), lportOk s u p = true ∧ (((lportS s (ordOfUnit s u) p).st = .up ∨ (lportS s (ordOfUnit s u) p).st = .degraded)) ∧ f.length = 256 ∧ field f 248 4 = crc32c (f.take 248) ∧ bit (field f 254 1) 0 = false ∧ (let d := ordOfUnit s u; let t := modLport d p (fun x => { x with rxLseq := field f 6 2 }) s; let own := s.ln.daddr; ((field f 6 2 ≠ ((lportS s d p).rxLseq + 1) % 65536 ∨ field f 4 1 % 16 = 8)))) ∧
    (∃ (u key : Nat) (m : Bytes) (s : State), 1 ≤ field m 16 4 ∧ field m 16 4 ≤ 65536 ∧ 32 + field m 16 4 ≤ m.length ∧ bit key 7 = false ∧ (pxS s (ordOfUnit s u)).conf = true) ∧
    (∃ (u key : Nat) (m : Bytes) (s : State), 1 ≤ field m 16 4 ∧ field m 16 4 ≤ 65536 ∧ 32 + field m 16 4 ≤ m.length ∧ bit key 7 = false ∧ (pxS s (ordOfUnit s u)).conf = false) ∧
    (∃ (x : SendIn) (j : Job) (s : State), unitType s x.u = .port ∧ unitUp s x.u = true ∧ jobS s x.job = some j ∧ j.st = .running ∧ s.ln.daddr ≠ 0 ∧ 1 ≤ x.body.length ∧ x.body.length ≤ 65536 ∧ (let d := ordOfUnit s x.u; x.enc = false ∧ (pxS s d).conf = true)) ∧
    (∃ (x : SendIn) (j : Job) (s : State), unitType s x.u = .port ∧ unitUp s x.u = true ∧ jobS s x.job = some j ∧ j.st = .running ∧ s.ln.daddr ≠ 0 ∧ 1 ≤ x.body.length ∧ x.body.length ≤ 65536 ∧ (let d := ordOfUnit s x.u; x.enc = false ∧ (pxS s d).conf = false)) ∧
    (∃ (b : Nat) (h pl : Bytes) (j : Option Nat) (s : State), h.length = 6 ∧ (lportS s (b / 12) (b % 12)).replay = [] ∧ (lportS s (b / 12) (b % 12)).queue = [] ∧ b / 12 < s.ln.dies.length ∧ b % 12 < (ldS s (b / 12)).ports.length ∧ (lportS s (b / 12) (b % 12)).st.carries = true) ∧
    (∃ (b : Nat) (h pl : Bytes) (j : Option Nat) (s : State), h.length = 6 ∧ (lportS s (b / 12) (b % 12)).replay = [] ∧ (lportS s (b / 12) (b % 12)).queue = [] ∧ b / 12 < s.ln.dies.length ∧ b % 12 < (ldS s (b / 12)).ports.length ∧ (lportS s (b / 12) (b % 12)).st.carries = false) :=
  ⟨⟨8, 11, List.replicate 248 0#8 ++ toLe 4 (crc32c (List.replicate 248 0#8)) ++ [0, 0, 0, 0], { tI with ln := { tI.ln with dies := { ports := List.replicate 12 { st := .up } } :: List.replicate 3 {} } }, by decide, .inl (by decide), by decide, by decide +kernel, by decide +kernel⟩,
   ⟨8, 0, pay 33 [0, 0, 0, 0, 0, 0, 0, 0, 0, 0, 0, 0, 0, 0, 0, 0, 1], { tA with px := { conf := true } :: List.replicate 3 {} }, by decide, by decide, by decide, by decide, by decide⟩,
   ⟨8, 0, pay 33 [0, 0, 0, 0, 0, 0, 0, 0, 0, 0, 0, 0, 0, 0, 0, 0, 1], tI, by decide, by decide, by decide, by decide, by decide⟩,
   ⟨⟨8, 0, false, 7, 0, 0, [1]⟩, tJob .running, { tA with jb := { tA.jb with list := [tJob .running] }, ln := { tA.ln with daddr := 1 }, px := { conf := true } :: List.replicate 3 {} }, by decide, by decide, by decide, by decide, by decide, by decide, by decide, (by intros; decide)⟩,
   ⟨⟨8, 0, false, 7, 0, 0, [1#8]⟩, tJob .running, { tA with jb := { tA.jb with list := [tJob .running] }, ln := { tA.ln with daddr := 1 } }, by decide, by decide, by decide, by decide, by decide, by decide, by decide, (by intros; decide)⟩,
   ⟨0, [0, 0, 0, 0, 0, 0], [], none, modLport 0 0 (fun x => { x with st := .up }) tA, by decide, by decide, by decide, by decide, by decide, by decide⟩,
   ⟨47, [0, 0, 0, 0, 0, 0], [], none, tI, by decide, by decide, by decide, by decide, by decide, by decide⟩⟩

set_option maxRecDepth 20000 in
/-- Inner cases of `PowerCommands` whose own premises are met. -/
theorem cases_PowerCommands :
    (∃ (c : HostCall) (s : State), Admitted 0x700 c s ∧ c.payload = [] ∧ s.pkg.mode ≠ .confidential) ∧
    (∃ (c : HostCall) (s : State), Admitted 0x700 c s ∧ c.payload = [] ∧ s.pkg.mode = .confidential) ∧
    (∃ (c : HostCall) (s : State), Admitted 0x701 c s ∧ c.payload.length = 4 ∧ rating s < field c.payload 0 2) ∧
    (∃ (c : HostCall) (s : State), Admitted 0x701 c s ∧ c.payload.length = 4 ∧ allZero (slice c.payload 2 2) = true ∧ field c.payload 0 2 ≤ rating s) ∧
    (∃ (c : HostCall) (s : State), Admitted 0x702 c s ∧ c.payload.length = 4 ∧ (let t := { s with pw := { s.pw with tjt := min s.pw.tjt (field c.payload 0 1), tjs := min s.pw.tjs (field c.payload 1 1), vcm := min s.pw.vcm (field c.payload 2 2) } }; ((field c.payload 1 1 ≤ field c.payload 0 1 ∨ field c.payload 0 1 < 60 ∨ 110 < field c.payload 1 1 ∨ field c.payload 2 2 < 600 ∨ 950 < field c.payload 2 2)))) ∧
    (∃ (c : HostCall) (s : State), Admitted 0x702 c s ∧ c.payload.length = 4 ∧ (let t := { s with pw := { s.pw with tjt := min s.pw.tjt (field c.payload 0 1), tjs := min s.pw.tjs (field c.payload 1 1), vcm := min s.pw.vcm (field c.payload 2 2) } }; field c.payload 0 1 < field c.payload 1 1 ∧ 60 ≤ field c.payload 0 1 ∧ field c.payload 1 1 ≤ 110 ∧ 600 ≤ field c.payload 2 2 ∧ field c.payload 2 2 ≤ 950)) ∧
    (∃ (c : HostCall) (s : State), Admitted 0x703 c s ∧ c.payload.length = 4 ∧ 18 ≤ field c.payload 0 1) ∧
    (∃ (c : HostCall) (s : State), Admitted 0x703 c s ∧ c.payload.length = 4 ∧ field c.payload 0 1 < 18 ∧ allZero (slice c.payload 1 3) = true ∧ ((unitType s (field c.payload 0 1) = .stack ∨ unitType s (field c.payload 0 1) = .blank))) ∧
    (∃ (c : HostCall) (s : State), Admitted 0x703 c s ∧ c.payload.length = 4 ∧ (let u := field c.payload 0 1; let v := viewCheck u none 2 s; field c.payload 0 1 < 18 ∧ allZero (slice c.payload 1 3) = true ∧ ((unitType s (field c.payload 0 1) = .tile ∨ unitType s (field c.payload 0 1) = .port)))) ∧
    (∃ (c : HostCall) (s : State), Admitted 0x704 c s ∧ c.payload.length = 4 ∧ allZero (slice c.payload 1 3) = true ∧ (let u := field c.payload 0 1; let t := if u < 8 then u else u - 9; 18 ≤ u)) ∧
    (∃ (c : HostCall) (s : State), Admitted 0x704 c s ∧ c.payload.length = 4 ∧ allZero (slice c.payload 1 3) = true ∧ (let u := field c.payload 0 1; let t := if u < 8 then u else u - 9; u < 8 ∧ hasStack s u = false)) ∧
    (∃ (c : HostCall) (s : State), Admitted 0x704 c s ∧ c.payload.length = 4 ∧ allZero (slice c.payload 1 3) = true ∧ (let u := field c.payload 0 1; let t := if u < 8 then u else u - 9; u < 8 ∧ hasStack s u = true ∧ unitUp s t = false)) ∧
    (∃ (c : HostCall) (s : State), Admitted 0x704 c s ∧ c.payload.length = 4 ∧ allZero (slice c.payload 1 3) = true ∧ (let u := field c.payload 0 1; let t := if u < 8 then u else u - 9; u < 18 ∧ ((if u < 8 then hasStack s u = true else unitType s u = .stack)) ∧ unitUp s t = true)) ∧
    (∃ (c : HostCall) (s : State), Admitted 0x705 c s ∧ c.payload.length = 4 ∧ allZero (slice c.payload 1 3) = true ∧ 12 < field c.payload 0 1) ∧
    (∃ (c : HostCall) (s : State), Admitted 0x705 c s ∧ c.payload.length = 4 ∧ allZero (slice c.payload 1 3) = true ∧ field c.payload 0 1 ≤ 12) ∧
    (∃ (c : HostCall) (s : State), Admitted 0x706 c s ∧ c.payload = [] ∧ s.pkg.st ≠ .idle) ∧
    (∃ (c : HostCall) (s : State), Admitted 0x706 c s ∧ c.payload = [] ∧ s.pkg.st = .idle) ∧
    (∃ (c : HostCall) (s : State), Admitted 0x708 c s ∧ c.payload.length = 4 ∧ allZero (slice c.payload 1 3) = true ∧ 1 < field c.payload 0 1) ∧
    (∃ (c : HostCall) (s : State), Admitted 0x708 c s ∧ c.payload.length = 4 ∧ allZero (slice c.payload 1 3) = true ∧ field c.payload 0 1 = 1 ∧ s.pw.quant = false) ∧
    (∃ (c : HostCall) (s : State), Admitted 0x708 c s ∧ c.payload.length = 4 ∧ allZero (slice c.payload 1 3) = true ∧ field c.payload 0 1 = 0 ∧ s.xl.asts = []) :=
  ⟨⟨call [], tI, ⟨by decide, by decide⟩, by decide, by decide⟩,
   ⟨call [], { tI with pkg := { tI.pkg with mode := .confidential } }, ⟨by decide, by decide⟩, by decide, by decide⟩,
   ⟨call [0xFF, 0xFF, 0, 0], tI, ⟨by decide, by decide⟩, by decide, by decide⟩,
   ⟨call (pay 4 []), tI, ⟨by decide, by decide⟩, by decide, by decide, by decide⟩,
   ⟨call (pay 4 []), tI, ⟨by decide, by decide⟩, by decide, (by intros; decide)⟩,
   ⟨call [60, 61, 0x58, 2], tI, ⟨by decide, by decide⟩, by decide, (by intros; decide)⟩,
   ⟨call [18, 0, 0, 0], tI, ⟨by decide, by decide⟩, by decide, by decide⟩,
   ⟨call [9, 0, 0, 0], tI, ⟨by decide, by decide⟩, by decide, by decide, by decide, by decide⟩,
   ⟨call (pay 4 [17]), tI, ⟨by decide, by decide⟩, by decide, (by intros; decide)⟩,
   ⟨call [18, 0, 0, 0], tI, ⟨by decide, by decide⟩, by decide, by decide, (by intros; decide)⟩,
   ⟨call [3, 0, 0, 0], { tI with otp := { tI.otp with asm := 2 } }, ⟨by decide, by decide⟩, by decide, by decide, (by intros; decide)⟩,
   ⟨call [3, 0, 0, 0], upd 3 {} tI, ⟨by decide, by decide⟩, by decide, by decide, (by intros; decide)⟩,
   ⟨call (pay 4 [7]), tI, ⟨by decide, by decide⟩, by decide, by decide, (by intros; decide)⟩,
   ⟨call [13, 0, 0, 0], tI, ⟨by decide, by decide⟩, by decide, by decide, by decide⟩,
   ⟨call (pay 4 [12]), tI, ⟨by decide, by decide⟩, by decide, by decide, by decide⟩,
   ⟨call [], tA, ⟨by decide, by decide⟩, by decide, by decide⟩,
   ⟨call [], tI, ⟨by decide, by decide⟩, by decide, by decide⟩,
   ⟨call [2, 0, 0, 0], tA, ⟨by decide, by decide⟩, by decide, by decide, by decide⟩,
   ⟨call (pay 4 [1]), tA, ⟨by decide, by decide⟩, by decide, by decide, by decide, by decide⟩,
   ⟨call [0, 0, 0, 0], tA, ⟨by decide, by decide⟩, by decide, by decide, by decide, by decide⟩⟩

set_option maxRecDepth 20000 in
/-- Inner cases of `TileTripsThrottleAndVoltage` whose own premises are met. -/
theorem cases_TileTripsThrottleAndVoltage :
    ∃ (t n : Nat) (s : State), t < 8 ∧ s.pkg.tilePg = true ∧ 10 * s.pw.tjs ≤ n ∧ n < 10 * s.pw.tjt :=
  ⟨0, 850, { tI with pw := { tI.pw with tjt := 90, tjs := 80 } }, by decide, by decide, by decide, by decide⟩

set_option maxRecDepth 20000 in
/-- Inner cases of `BrakeLoopsAndTelemetry` whose own premises are met. -/
theorem cases_BrakeLoopsAndTelemetry :
    (∃ (s : State), s.pkg.st.main = true ∧ s.pkg.tilePg = true ∧ fwWfw s = true ∧ 2 ≤ s.pw.monGood ∧ s.pw.samples ≠ [] ∧ (let l := s.pw.samples.take 10; let sum := l.foldl (· + ·) 0; l.length * pCap s < sum ∧ ((∀ x ∈ s.pw.tiles, x.capReq = 400)))) ∧
    (∃ (s : State), s.pkg.st.main = true ∧ s.pkg.tilePg = true ∧ fwWfw s = true ∧ 2 ≤ s.pw.monGood ∧ s.pw.samples ≠ [] ∧ (let l := s.pw.samples.take 10; let sum := l.foldl (· + ·) 0; l.length * pCap s < sum ∧ ((∃ x ∈ s.pw.tiles, x.capReq ≠ 400)))) ∧
    (∃ (s : State), s.pkg.st.main = true ∧ s.pkg.tilePg = true ∧ fwWfw s = true ∧ 2 ≤ s.pw.monGood ∧ s.pw.samples ≠ [] ∧ (let l := s.pw.samples.take 10; let sum := l.foldl (· + ·) 0; sum ≤ l.length * pCap s ∧ 20 * sum < 19 * l.length * pCap s)) ∧
    (∃ (s : State) (w : _), s.pw.pHost = some w) ∧
    (∃ (s : State) (w : _), s.pw.pMgmt = some w) ∧
    (∃ (s : State), s.mg.orphan = true) ∧
    (∃ (s : State), fwWfw s = true ∧ s.pkg.mode ≠ .confidential) ∧
    (∃ (s : State), fwWfw s = true ∧ s.pkg.mode = .confidential) :=
  ⟨⟨{ tI with pw := { tI.pw with monGood := 2, samples := [70000], tiles := List.replicate 8 { capReq := 400 } } }, by decide, by decide, by decide, by decide, by decide, (by intros; decide)⟩,
   ⟨{ tI with pw := { tI.pw with monGood := 2, samples := [70000], tiles := List.replicate 8 { capReq := 401 } } }, by decide, by decide, by decide, by decide, by decide, (by intros; decide)⟩,
   ⟨{ tI with pw := { tI.pw with samples := [100] } }, by decide, by decide, by decide, by decide, by decide, (by intros; decide)⟩,
   ⟨{ tI with pw := { tI.pw with pHost := some 5 } }, 5, by decide⟩,
   ⟨{ tI with pw := { tI.pw with pMgmt := some 5 } }, 5, by decide⟩,
   ⟨{ tI with mg := { tI.mg with orphan := true } }, by decide⟩,
   ⟨tI, by decide, by decide⟩,
   ⟨{ tI with pkg := { tI.pkg with mode := .confidential } }, by decide, by decide⟩⟩

set_option maxRecDepth 20000 in
/-- Inner cases of `UpdateCommands` whose own premises are met. -/
theorem cases_UpdateCommands :
    (∃ (c : HostCall) (s : State), Admitted 0x801 c s ∧ c.payload.length = 8 ∧ allZero (slice c.payload 1 3) = true ∧ s.upd.pldm = false ∧ (let t := field c.payload 0 1; let n := field c.payload 4 4; ((2 < t ∨ t = s.boot.chosen ∨ n = 0 ∨ regionSize t < n)))) ∧
    (∃ (c : HostCall) (s : State), Admitted 0x801 c s ∧ c.payload.length = 8 ∧ allZero (slice c.payload 1 3) = true ∧ s.upd.pldm = false ∧ (let t := field c.payload 0 1; let n := field c.payload 4 4; t ≤ 2 ∧ t ≠ s.boot.chosen ∧ n ≠ 0 ∧ n ≤ regionSize t ∧ ((s.pkg.st ≠ .quarantine ∨ t = 2)))) ∧
    (∃ (c : HostCall) (s : State), Admitted 0x802 c s ∧ 9 ≤ c.payload.length ∧ c.payload.length ≤ 4064 ∧ allZero (slice c.payload 4 4) = true ∧ s.upd.pldm = false ∧ s.upd.status ≠ 1) ∧
    (∃ (c : HostCall) (s : State), Admitted 0x802 c s ∧ 9 ≤ c.payload.length ∧ c.payload.length ≤ 4064 ∧ allZero (slice c.payload 4 4) = true ∧ s.upd.pldm = false ∧ s.upd.status = 1 ∧ s.pkg.st ≠ .quarantine ∧ s.upd.length < field c.payload 0 4 + (c.payload.length - 8)) ∧
    (∃ (c : HostCall) (s : State), Admitted 0x802 c s ∧ 9 ≤ c.payload.length ∧ c.payload.length ≤ 4064 ∧ allZero (slice c.payload 4 4) = true ∧ s.upd.pldm = false ∧ s.upd.status = 1 ∧ s.pkg.st ≠ .quarantine ∧ field c.payload 0 4 + (c.payload.length - 8) ≤ s.upd.length ∧ s.upd.prog = [] ∧ rosterBusy s = false) ∧
    (∃ (c : HostCall) (s : State), Admitted 0x803 c s ∧ c.payload = [] ∧ s.upd.pldm = false ∧ ((s.upd.status = 2 ∨ s.upd.status = 3))) ∧
    (∃ (c : HostCall) (s : State), Admitted 0x803 c s ∧ c.payload = [] ∧ s.upd.pldm = false ∧ s.upd.status = 1 ∧ programmed s ≠ s.upd.length) ∧
    (∃ (c : HostCall) (s : State), Admitted 0x803 c s ∧ c.payload = [] ∧ s.upd.pldm = false ∧ s.upd.status = 1 ∧ programmed s = s.upd.length ∧ s.pkg.st ≠ .quarantine ∧ rosterBusy s = false) ∧
    (∃ (c : HostCall) (s : State), Admitted 0x804 c s ∧ c.payload = [] ∧ s.upd.pldm = false ∧ s.upd.status ≠ 2 ∧ s.upd.status ≠ 3) ∧
    (∃ (c : HostCall) (s : State), Admitted 0x804 c s ∧ c.payload = [] ∧ s.upd.pldm = false ∧ ((s.upd.status = 2 ∨ s.upd.status = 3)) ∧ s.pkg.st ≠ .quarantine) ∧
    (∃ (c : HostCall) (s : State), Admitted 0x805 c s ∧ c.payload.length = 4 ∧ s.upd.pldm = false ∧ 1 < field c.payload 0 1) ∧
    (∃ (c : HostCall) (s : State), Admitted 0x805 c s ∧ c.payload.length = 4 ∧ s.upd.pldm = false ∧ allZero (slice c.payload 1 3) = true ∧ field c.payload 0 1 ≤ 1 ∧ ((s.upd.status ≠ 3 ∨ 2 ≤ s.upd.target))) ∧
    (∃ (c : HostCall) (s : State), Admitted 0x805 c s ∧ c.payload.length = 4 ∧ s.upd.pldm = false ∧ allZero (slice c.payload 1 3) = true ∧ field c.payload 0 1 ≤ 1 ∧ s.upd.status = 3 ∧ s.upd.target < 2 ∧ ((s.pkg.st = .idle ∨ s.pkg.st = .recovery)) ∧ rosterBusy s = false) ∧
    (∃ (c : HostCall) (s : State), Admitted 0x806 c s ∧ c.payload = [] ∧ s.upd.pldm = false ∧ s.upd.status = 0) ∧
    (∃ (c : HostCall) (s : State), Admitted 0x806 c s ∧ c.payload = [] ∧ s.upd.pldm = false ∧ 5 ≤ s.upd.status) ∧
    (∃ (c : HostCall) (s : State), Admitted 0x806 c s ∧ c.payload = [] ∧ s.upd.pldm = false ∧ ((s.upd.status = 1 ∨ s.upd.status = 2 ∨ s.upd.status = 3)) ∧ s.pkg.st ≠ .quarantine ∧ rosterBusy s = false) ∧
    (∃ (c : HostCall) (w t n : Nat) (s : State), (let e := flashErase (regionBase t) ((n + 65535) / 65536 * 65536) (writeUpd t 1 n s); s.upd.status ≠ 1)) :=
  ⟨⟨call (pay 8 [3]), tI, ⟨by decide, by decide⟩, by decide, by decide, by decide, (by intros; decide)⟩,
   ⟨call (pay 8 [1, 0, 0, 0, 0, 0, 1]), tI, ⟨by decide, by decide⟩, by decide, by decide, by decide, (by intros; decide)⟩,
   ⟨call (pay 9 []), tI, ⟨by decide, by decide⟩, by decide, by decide, by decide, by decide, by decide⟩,
   ⟨call (pay 9 [8]), { tI with upd := { tI.upd with status := 1, length := 8 } }, ⟨by decide, by decide⟩, by decide, by decide, by decide, by decide, by decide, by decide, by decide⟩,
   ⟨call (pay 9 []), { tI with upd := { tI.upd with status := 1, length := 8 } }, ⟨by decide, by decide⟩, by decide, by decide, by decide, by decide, by decide, by decide, by decide, by decide, by decide⟩,
   ⟨call [], { tI with upd := { tI.upd with status := 2 } }, ⟨by decide, by decide⟩, by decide, by decide, by decide⟩,
   ⟨call [], { tI with upd := { tI.upd with status := 1, length := 8 } }, ⟨by decide, by decide⟩, by decide, by decide, by decide, by decide⟩,
   ⟨call [], { tI with upd := { tI.upd with status := 1 } }, ⟨by decide, by decide⟩, by decide, by decide, by decide, by decide, by decide, by decide⟩,
   ⟨call [], tI, ⟨by decide, by decide⟩, by decide, by decide, by decide, by decide⟩,
   ⟨call [], { tI with upd := { tI.upd with status := 2 } }, ⟨by decide, by decide⟩, by decide, by decide, by decide, by decide⟩,
   ⟨call [2, 0, 0, 0], tI, ⟨by decide, by decide⟩, by decide, by decide, by decide⟩,
   ⟨call (pay 4 [1]), tI, ⟨by decide, by decide⟩, by decide, by decide, by decide, by decide, by decide⟩,
   ⟨call [1, 0, 0, 0], { tI with upd := { tI.upd with status := 3, target := 1 } }, ⟨by decide, by decide⟩, by decide, by decide, by decide, by decide, by decide, by decide, by decide, by decide⟩,
   ⟨call [], tI, ⟨by decide, by decide⟩, by decide, by decide, by decide⟩,
   ⟨call [], { tI with upd := { tI.upd with status := 5 } }, ⟨by decide, by decide⟩, by decide, by decide, by decide⟩,
   ⟨call [], { tI with upd := { tI.upd with status := 1 } }, ⟨by decide, by decide⟩, by decide, by decide, by decide, by decide, by decide⟩,
   ⟨call [], 0, 1, 8, tI, (by intros; decide)⟩⟩

set_option maxRecDepth 20000 in
/-- Inner cases of `LogsAndTraceAreRead` whose own premises are met. -/
theorem cases_LogsAndTraceAreRead :
    (∃ (c : HostCall) (s : State), Admitted 0x900 c s ∧ c.payload.length = 16 ∧ allZero (slice c.payload 11 5) = true ∧ (let f := field c.payload 0 8; let n := field c.payload 8 2; ((n = 0 ∨ 128 < n ∨ 1 < field c.payload 10 1)))) ∧
    (∃ (c : HostCall) (s : State), Admitted 0x900 c s ∧ c.payload.length = 16 ∧ allZero (slice c.payload 11 5) = true ∧ (let f := field c.payload 0 8; let n := field c.payload 8 2; 1 ≤ n ∧ n ≤ 128 ∧ field c.payload 10 1 = 1 ∧ ((∀ e ∈ s.lg.ten.head?, f < e.seq)) ∧ ((s.lg.ten = [] → f < s.lg.tenSeq)))) ∧
    (∃ (c : HostCall) (s : State), Admitted 0x900 c s ∧ c.payload.length = 16 ∧ allZero (slice c.payload 11 5) = true ∧ (let f := field c.payload 0 8; let n := field c.payload 8 2; let es := ((s.lg.ten.filter (fun e => decide (f ≤ e.seq))).take n); 1 ≤ n ∧ n ≤ 128 ∧ field c.payload 10 1 = 1 ∧ ((∀ e ∈ s.lg.ten.head?, e.seq ≤ f)) ∧ ((s.lg.ten = [] → s.lg.tenSeq ≤ f)))) ∧
    (∃ (c : HostCall) (s : State), Admitted 0x900 c s ∧ c.payload.length = 16 ∧ allZero (slice c.payload 11 5) = true ∧ (let f := field c.payload 0 8; let n := field c.payload 8 2; 1 ≤ n ∧ n ≤ 128 ∧ field c.payload 10 1 = 0 ∧ s.lg.pkg = [] ∧ f = s.lg.pkgSeq ∧ f < 2 ^ 64 ∧ c.ch ≠ mgCh)) ∧
    (∃ (c : HostCall) (s : State), Admitted 0x901 c s ∧ c.payload.length = 4 ∧ allZero (slice c.payload 2 2) = false) ∧
    (∃ (c : HostCall) (s : State), Admitted 0x901 c s ∧ c.payload.length = 4 ∧ allZero (slice c.payload 2 2) = true) ∧
    (∃ (c : HostCall) (s : State), Admitted 0x902 c s ∧ c.payload.length = 8 ∧ 2 ^ 16 ≤ field c.payload 0 8) ∧
    (∃ (c : HostCall) (s : State), Admitted 0x902 c s ∧ c.payload.length = 8 ∧ field c.payload 0 8 < 2 ^ 16) ∧
    (∃ (c : HostCall) (s : State), Admitted 0x903 c s ∧ c.payload.length = 16 ∧ allZero (slice c.payload 10 6) = true ∧ (let f := field c.payload 0 8; let n := field c.payload 8 2; ((n = 0 ∨ 128 < n)))) ∧
    (∃ (c : HostCall) (s : State), Admitted 0x903 c s ∧ c.payload.length = 16 ∧ allZero (slice c.payload 10 6) = true ∧ (let f := field c.payload 0 8; let n := field c.payload 8 2; let es := ((s.lg.trace.filter (fun e => decide (f ≤ e.seq))).take n); 1 ≤ n ∧ n ≤ 128 ∧ ((∀ e ∈ s.lg.trace.head?, e.seq ≤ f)) ∧ ((s.lg.trace = [] → s.lg.traceSeq ≤ f)))) ∧
    (∃ (c : HostCall) (s : State) (b : _), Admitted 0x904 c s ∧ c.payload.length = 8 ∧ (let n := field c.payload 0 8; let all := s.rc.archive ++ s.rc.last.toList; all.find? (fun b => b.1 == n) = some b)) ∧
    (∃ (c : HostCall) (s : State), Admitted 0x904 c s ∧ c.payload.length = 8 ∧ (let n := field c.payload 0 8; let all := s.rc.archive ++ s.rc.last.toList; all.find? (fun b => b.1 == n) = none ∧ ((∃ b, s.rc.waiting = some b ∧ b.num = n)))) ∧
    (∃ (c : HostCall) (s : State), Admitted 0x904 c s ∧ c.payload.length = 8 ∧ (let n := field c.payload 0 8; let all := s.rc.archive ++ s.rc.last.toList; all.find? (fun b => b.1 == n) = none ∧ s.rc.waiting = none ∧ s.rc.signing = none)) :=
  ⟨⟨call (pay 16 []), tI, ⟨by decide, by decide⟩, by decide, by decide, (by intros; decide)⟩,
   ⟨call (pay 16 [0, 0, 0, 0, 0, 0, 0, 0, 128, 0, 1]), { tI with lg := { tI.lg with ten := [], tenSeq := 1 } }, ⟨by decide, by decide⟩, by decide, by decide, (by intros; decide)⟩,
   ⟨call (pay 16 [1, 0, 0, 0, 0, 0, 0, 0, 128, 0, 1]), { tI with lg := { tI.lg with ten := [], tenSeq := 1 } }, ⟨by decide, by decide⟩, by decide, by decide, (by intros; decide)⟩,
   ⟨call (pay 16 [1, 0, 0, 0, 0, 0, 0, 0, 128]), tI, ⟨by decide, by decide⟩, by decide, by decide, (by intros; decide)⟩,
   ⟨call [0, 0, 1, 0], tI, ⟨by decide, by decide⟩, by decide, by decide⟩,
   ⟨call (pay 4 []), tI, ⟨by decide, by decide⟩, by decide, by decide⟩,
   ⟨call (pay 8 [0, 0, 1]), tI, ⟨by decide, by decide⟩, by decide, by decide⟩,
   ⟨call (pay 8 []), tI, ⟨by decide, by decide⟩, by decide, by decide⟩,
   ⟨call (pay 16 []), tI, ⟨by decide, by decide⟩, by decide, by decide, (by intros; decide)⟩,
   ⟨call (pay 16 [1, 0, 0, 0, 0, 0, 0, 0, 128]), tI, ⟨by decide, by decide⟩, by decide, by decide, (by intros; decide)⟩,
   ⟨call (pay 8 [4]), { tI with rc := { tI.rc with last := some (4, []) } }, (4, []), ⟨by decide, by decide⟩, by decide, (by intros; decide)⟩,
   ⟨call (pay 8 [4]), { tI with rc := { tI.rc with waiting := some ⟨4, 1, [], []⟩ } }, ⟨by decide, by decide⟩, by decide, by intros; exact ⟨by decide, _, rfl, rfl⟩⟩,
   ⟨call (pay 8 [1]), tI, ⟨by decide, by decide⟩, by decide, (by intros; decide)⟩⟩

set_option maxRecDepth 20000 in
/-- Inner cases of `ServiceCommandsAndTokens` whose own premises are met. -/
theorem cases_ServiceCommandsAndTokens :
    (∃ (c : HostCall) (s : State), Admitted 0xA01 c s ∧ c.payload.length = 32 ∧ stageOk c 8 s = true ∧ allZero (slice c.payload 12 4) = true ∧ (let sel := field c.payload 0 1; ((sel < 2 ∨ 4 < sel)))) ∧
    (∃ (c : HostCall) (s : State), Admitted 0xA01 c s ∧ c.payload.length = 32 ∧ stageOk c 8 s = true ∧ allZero (slice c.payload 12 4) = true ∧ (let sel := field c.payload 0 1; allZero (slice c.payload 1 7) = true ∧ 2 ≤ sel ∧ sel ≤ 4 ∧ lcPermitted sel s = false)) ∧
    (∃ (c : HostCall) (s : State), Admitted 0xA02 c s ∧ c.payload.length = 32 ∧ stageOk c 8 s = true ∧ allZero (slice c.payload 12 4) = true ∧ 3 < field c.payload 0 1) ∧
    (∃ (c : HostCall) (s : State), Admitted 0xA02 c s ∧ c.payload.length = 32 ∧ stageOk c 8 s = true ∧ allZero (slice c.payload 12 4) = true ∧ (let b := stageBytes c s; let u := { s with idn := { s.idn with nonce := none } }; allZero (slice c.payload 1 7) = true ∧ field c.payload 0 1 ≤ 3)) ∧
    (∃ (c : HostCall) (s : State), Admitted 0xA03 c s ∧ c.payload.length = 4 ∧ s.pkg.st = .quarantine) ∧
    (∃ (c : HostCall) (s : State), Admitted 0xA03 c s ∧ c.payload.length = 4 ∧ s.pkg.st = .recovery) ∧
    (∃ (c : HostCall) (s : State), Admitted 0xA03 c s ∧ c.payload.length = 4 ∧ (let t := logEvent 0x0102 0xFF (toLe 4 (stateWord s) ++ toLe 1 0x0D ++ slice c.payload 0 4) (quarantine 0x0D s); s.pkg.st ≠ .quarantine ∧ s.pkg.st ≠ .recovery)) :=
  ⟨⟨call (pay 8 [5] ++ pay 8 [] ++ (Config.sha384 []).take 16), stg tI, ⟨by decide, by decide⟩, by decide, (by simp [stageOk, stageBytes, stg, call, sref, pay, mgCh, mgWith, field, slice, le, cellGets, Config.sha384]; exact ⟨rfl, rfl⟩), by decide, (by intros; decide)⟩,
   ⟨call (pay 8 [2] ++ pay 8 [] ++ (Config.sha384 []).take 16), stg tI, ⟨by decide, by decide⟩, by decide, (by simp [stageOk, stageBytes, stg, call, sref, pay, mgCh, mgWith, field, slice, le, cellGets, Config.sha384]; exact ⟨rfl, rfl⟩), by decide, (by intros; decide)⟩,
   ⟨call (pay 8 [4] ++ pay 8 [] ++ (Config.sha384 []).take 16), stg tI, ⟨by decide, by decide⟩, by decide, (by simp [stageOk, stageBytes, stg, call, sref, pay, mgCh, mgWith, field, slice, le, cellGets, Config.sha384]; exact ⟨rfl, rfl⟩), by decide, by decide⟩,
   ⟨call (pay 8 [3] ++ sref), stg tI, ⟨by decide, by decide⟩, by decide, (by simp [stageOk, stageBytes, stg, call, sref, pay, mgCh, mgWith, field, slice, le, cellGets, Config.sha384]; exact ⟨rfl, rfl⟩), by decide, (by intros; decide)⟩,
   ⟨call [1, 0, 0, 0], { tI with pkg := { tI.pkg with st := .quarantine } }, ⟨by decide, by decide⟩, by decide, by decide⟩,
   ⟨call [1, 0, 0, 0], { tI with pkg := { tI.pkg with st := .recovery } }, ⟨by decide, by decide⟩, by decide, by decide⟩,
   ⟨call (pay 4 []), tI, ⟨by decide, by decide⟩, by decide, (by intros; decide)⟩⟩

set_option maxRecDepth 20000 in
/-- Inner cases of `ManagementCommands` whose own premises are met. -/
theorem cases_ManagementCommands :
    (∃ (s : State), MgIdle s ∧ (let t := { mgBegun 0x1D s with mg := { (mgBegun 0x1D s).mg with orphanArmed := true, orphan := false } }; s.mg.orphan = false)) ∧
    (∃ (s : State), MgIdle s ∧ (let t := { mgBegun 0x1D s with mg := { (mgBegun 0x1D s).mg with orphanArmed := true, orphan := false } }; s.mg.orphan = true)) ∧
    (∃ (b : Bytes) (s : State), MgIdle s ∧ b.length = 4 ∧ rating s < field b 0 2) ∧
    (∃ (b : Bytes) (s : State), MgIdle s ∧ b.length = 4 ∧ field b 0 2 ≤ rating s ∧ allZero (slice b 2 2) = true) ∧
    (∃ (b : Bytes) (s : State), MgIdle s ∧ b.length = 4 ∧ allZero (slice b 1 3) = true ∧ 1 < field b 0 1) ∧
    (∃ (b : Bytes) (s : State), MgIdle s ∧ b.length = 4 ∧ allZero (slice b 1 3) = true ∧ field b 0 1 ≤ 1) ∧
    (∃ (b : Bytes) (s : State), MgIdle s ∧ b.length = 4 ∧ allZero (slice b 2 2) = true ∧ 4096 ≤ field b 0 2) ∧
    (∃ (b : Bytes) (s : State), MgIdle s ∧ b.length = 4 ∧ allZero (slice b 2 2) = true ∧ field b 0 2 < 4096 ∧ ((s.pkg.st = .active ∨ s.pkg.st = .loading))) ∧
    (∃ (b : Bytes) (s : State), MgIdle s ∧ b.length = 4 ∧ allZero (slice b 2 2) = true ∧ field b 0 2 < 4096 ∧ ((s.pkg.st = .warden ∨ s.pkg.st = .bringup ∨ s.pkg.st = .idle ∨ s.pkg.st = .quarantine))) ∧
    (∃ (b : Bytes) (s : State), MgIdle s ∧ b.length = 24 ∧ stageOk (mgWith b) 0 s = true ∧ allZero (slice b 4 4) = true ∧ s.tn.ro.hdr = .committed ∧ s.ln.rak = [] ∧ (let t := mgBegun 0x1D s; (stageBytes (mgWith b) s).length ≠ 2688)) ∧
    (∃ (b : Bytes) (s : State), MgIdle s ∧ b.length = 4 ∧ allZero (slice b 1 3) = true ∧ field b 0 1 ≤ 1 ∧ ((s.otp.lc = 2 ∨ s.otp.lc = 3)) ∧ (let k := field b 0 1; let m := csrInfo k s; s.pkg.st ≠ .idle)) ∧
    (∃ (b : Bytes) (s : State), MgIdle s ∧ b.length = 4 ∧ allZero (slice b 1 3) = true ∧ field b 0 1 ≤ 1 ∧ ((s.otp.lc = 2 ∨ s.otp.lc = 3)) ∧ (let k := field b 0 1; let m := csrInfo k s; s.pkg.st = .idle ∧ s.idn.ident = none)) ∧
    (∃ (b : Bytes) (s : State), MgIdle s ∧ b.length = 4 ∧ allZero (slice b 1 3) = true ∧ field b 0 1 ≤ 1 ∧ ((s.otp.lc = 2 ∨ s.otp.lc = 3)) ∧ (let k := field b 0 1; let m := csrInfo k s; s.pkg.st = .idle ∧ s.idn.ident.isSome = true ∧ pqRoom 1 s = true)) ∧
    (∃ (b : Bytes) (s : State), MgIdle s ∧ b.length = 28 ∧ stageOk (mgWith b) 4 s = true ∧ allZero (slice b 8 4) = true ∧ field b 0 1 ≤ 1 ∧ allZero (slice b 1 3) = true ∧ (let t := mgBegun 0x1D s; let der := stageBytes (mgWith b) s; der.length ≤ 65472 ∧ s.idn.ident = none)) ∧
    (∃ (s : State), MgIdle s ∧ s.otp.lc ≠ 2) ∧
    (∃ (s : State), MgIdle s ∧ s.otp.lc = 2 ∧ s.idn.setPair.isSome = true ∧ s.idn.ident.isSome = true ∧ pqRoom 2 s = true) ∧
    (∃ (b : Bytes) (s : State), MgIdle s ∧ b.length = 4 ∧ allZero (slice b 1 3) = true ∧ 3 < field b 0 1) ∧
    (∃ (b : Bytes) (s : State), MgIdle s ∧ b.length = 4 ∧ allZero (slice b 1 3) = true ∧ field b 0 1 ≤ 3) :=
  ⟨⟨tI, ⟨by decide, by decide, by decide, by decide, by decide⟩, (by intros; decide)⟩,
   ⟨{ tI with mg := { tI.mg with orphan := true } }, ⟨by decide, by decide, by decide, by decide, by decide⟩, (by intros; decide)⟩,
   ⟨[0xFF, 0xFF, 0, 0], tI, ⟨by decide, by decide, by decide, by decide, by decide⟩, by decide, by decide⟩,
   ⟨pay 4 [], tI, ⟨by decide, by decide, by decide, by decide, by decide⟩, by decide, by decide, by decide⟩,
   ⟨[2, 0, 0, 0], tI, ⟨by decide, by decide, by decide, by decide, by decide⟩, by decide, by decide, by decide⟩,
   ⟨pay 4 [1], tI, ⟨by decide, by decide, by decide, by decide, by decide⟩, by decide, by decide, by decide⟩,
   ⟨[0, 16, 0, 0], tI, ⟨by decide, by decide, by decide, by decide, by decide⟩, by decide, by decide, by decide⟩,
   ⟨[1, 0, 0, 0], tA, ⟨by decide, by decide, by decide, by decide, by decide⟩, by decide, by decide, by decide, by decide⟩,
   ⟨pay 4 [0xFF, 0x0F], tI, ⟨by decide, by decide, by decide, by decide, by decide⟩, by decide, by decide, by decide, by decide⟩,
   ⟨sref, { tI with tn := { tI.tn with ro := { tI.tn.ro with hdr := .committed } } }, ⟨by decide, by decide, by decide, by decide, by decide⟩, by decide, (by simp [stageOk, stageBytes, stg, call, sref, pay, mgCh, mgWith, field, slice, le, cellGets, Config.sha384]; exact ⟨rfl, rfl⟩), by decide, by decide, by decide, (by intros; decide)⟩,
   ⟨[0, 0, 0, 0], tA, ⟨by decide, by decide, by decide, by decide, by decide⟩, by decide, by decide, by decide, by decide, (by intros; decide)⟩,
   ⟨pay 4 [1], tI, ⟨by decide, by decide, by decide, by decide, by decide⟩, by decide, by decide, by decide, by decide, (by intros; decide)⟩,
   ⟨[0, 0, 0, 0], tCert, ⟨by decide, by decide, by decide, by decide, by decide⟩, by decide, by decide, by decide, by decide, (by intros; decide)⟩,
   ⟨pay 4 [] ++ sref, tI, ⟨by decide, by decide, by decide, by decide, by decide⟩, by decide, (by simp [stageOk, stageBytes, stg, call, sref, pay, mgCh, mgWith, field, slice, le, cellGets, Config.sha384]; exact ⟨rfl, rfl⟩), by decide, by decide, by decide, (by intros; decide)⟩,
   ⟨{ tI with otp := { tI.otp with lc := 1 } }, ⟨by decide, by decide, by decide, by decide, by decide⟩, by decide⟩,
   ⟨{ tCert with idn := { tCert.idn with setPair := some ([], []) } }, ⟨by decide, by decide, by decide, by decide, by decide⟩, by decide, by decide, by decide, by decide⟩,
   ⟨[4, 0, 0, 0], tI, ⟨by decide, by decide, by decide, by decide, by decide⟩, by decide, by decide, by decide⟩,
   ⟨pay 4 [3], tI, ⟨by decide, by decide, by decide, by decide, by decide⟩, by decide, by decide, by decide⟩⟩

set_option maxRecDepth 20000 in
/-- Inner cases of `PldmSensorsAndEffecters` whose own premises are met. -/
theorem cases_PldmSensorsAndEffecters :
    (∃ (s : State), (let rsp (ty cmd cc : Nat) (d : Bytes) (t : State) : State := mgSend ([1#8, 0#8] ++ toLe 1 ty ++ toLe 1 cmd ++ toLe 1 cc ++ d) t; let t := mgBegun 0x80 s; MgIdle s)) ∧
    (∃ (s : State) (b : Bytes), (let rsp (ty cmd cc : Nat) (d : Bytes) (t : State) : State := mgSend ([1#8, 0#8] ++ toLe 1 ty ++ toLe 1 cmd ++ toLe 1 cc ++ d) t; let t := mgBegun 0x80 s; MgIdle s ∧ b.length = 1 ∧ ((field b 0 1 = 0 ∨ field b 0 1 = 0xFF)))) ∧
    (∃ (s : State) (b : Bytes), (let rsp (ty cmd cc : Nat) (d : Bytes) (t : State) : State := mgSend ([1#8, 0#8] ++ toLe 1 ty ++ toLe 1 cmd ++ toLe 1 cc ++ d) t; let t := mgBegun 0x80 s; MgIdle s ∧ b.length = 1 ∧ field b 0 1 ≠ 0 ∧ field b 0 1 ≠ 0xFF)) ∧
    (∃ (s : State) (b : Bytes), (let rsp (ty cmd cc : Nat) (d : Bytes) (t : State) : State := mgSend ([1#8, 0#8] ++ toLe 1 ty ++ toLe 1 cmd ++ toLe 1 cc ++ d) t; let t := mgBegun 0x80 s; MgIdle s ∧ b.length = 6 ∧ ((field b 5 1 = 0 ∨ field b 5 1 = 2 ∨ field b 5 1 = 5)))) ∧
    (∃ (s : State) (b : Bytes), (let rsp (ty cmd cc : Nat) (d : Bytes) (t : State) : State := mgSend ([1#8, 0#8] ++ toLe 1 ty ++ toLe 1 cmd ++ toLe 1 cc ++ d) t; let t := mgBegun 0x80 s; MgIdle s ∧ b.length = 5 ∧ field b 0 1 = 2)) ∧
    (∃ (s : State) (b : Bytes), MgIdle s ∧ (let t := mgBegun 0x80 s; let l := (List.range (pdrList s).length).map (fun i => (pdrBytes s (i + 1)).length); let h := max 1 (field b 0 4); b.length = 13)) ∧
    (∃ (s : State) (b : Bytes), MgIdle s ∧ (let t := mgBegun 0x80 s; let l := (List.range (pdrList s).length).map (fun i => (pdrBytes s (i + 1)).length); let i := field b 0 2; b.length = 3)) ∧
    (∃ (s : State) (b : Bytes), MgIdle s ∧ (let t := mgBegun 0x80 s; let l := (List.range (pdrList s).length).map (fun i => (pdrBytes s (i + 1)).length); let i := field b 0 2; b.length = 4 ∧ sensorHas s i = true ∧ sensorState i = true)) ∧
    (∃ (s : State) (b : Bytes), MgIdle s ∧ (let t := mgBegun 0x80 s; let l := (List.range (pdrList s).length).map (fun i => (pdrBytes s (i + 1)).length); let w := field b 3 2; b.length = 5 ∧ field b 0 2 = 1)) ∧
    (∃ (s : State) (b : Bytes), MgIdle s ∧ (let t := mgBegun 0x80 s; let l := (List.range (pdrList s).length).map (fun i => (pdrBytes s (i + 1)).length); b.length = 5 ∧ field b 0 2 = 2 ∧ field b 2 1 = 1 ∧ field b 3 1 ≠ 0 ∧ ((field b 4 1 = 1 ∨ field b 4 1 = 2)))) ∧
    (∃ (s : State) (b : Bytes), MgIdle s ∧ (let t := mgBegun 0x80 s; let l := (List.range (pdrList s).length).map (fun i => (pdrBytes s (i + 1)).length); b.length = 3 ∧ field b 0 1 = 1 ∧ field b 1 1 = 0)) ∧
    (∃ (s : State) (b : Bytes), MgIdle s ∧ (let t := mgBegun 0x80 s; let l := (List.range (pdrList s).length).map (fun i => (pdrBytes s (i + 1)).length); b.length = 3 ∧ field b 0 1 = 0 ∧ field b 1 1 = 0)) ∧
    (∃ (s : State) (b : Bytes), MgIdle s ∧ (let t := mgBegun 0x80 s; let l := (List.range (pdrList s).length).map (fun i => (pdrBytes s (i + 1)).length); b.length = 8 ∧ field b 6 2 = 0)) ∧
    (∃ (s : State), s.pkg.mode ≠ .confidential) ∧
    (∃ (s : State), s.pkg.mode = .confidential) ∧
    (∃ (e : PldmEvent) (r : List PldmEvent) (s : State), s.mg.events = e :: r ∧ 2 ≤ e.resends) ∧
    (∃ (e : PldmEvent) (r : List PldmEvent) (s : State), s.mg.events = e :: r ∧ e.resends < 2) :=
  ⟨⟨tI, by intros; exact ⟨by decide, by decide, by decide, by decide, by decide⟩⟩,
   ⟨tI, [0xFF], by intros; exact ⟨⟨by decide, by decide, by decide, by decide, by decide⟩, by decide, by decide⟩⟩,
   ⟨tI, [1], by intros; exact ⟨⟨by decide, by decide, by decide, by decide, by decide⟩, by decide, by decide, by decide⟩⟩,
   ⟨tI, pay 6 [0, 0, 0, 0, 0, 5], by intros; exact ⟨⟨by decide, by decide, by decide, by decide, by decide⟩, by decide, by decide⟩⟩,
   ⟨tI, pay 5 [2], by intros; exact ⟨⟨by decide, by decide, by decide, by decide, by decide⟩, by decide, by decide⟩⟩,
   ⟨tI, pay 13 [], ⟨by decide, by decide, by decide, by decide, by decide⟩, by intros; rfl⟩,
   ⟨tI, pay 3 [], ⟨by decide, by decide, by decide, by decide, by decide⟩, by intros; rfl⟩,
   ⟨tI, pay 4 [1], ⟨by decide, by decide, by decide, by decide, by decide⟩, (by intros; decide)⟩,
   ⟨tI, pay 5 [1], ⟨by decide, by decide, by decide, by decide, by decide⟩, (by intros; decide)⟩,
   ⟨tI, [2, 0, 1, 1, 2], ⟨by decide, by decide, by decide, by decide, by decide⟩, (by intros; decide)⟩,
   ⟨tI, [1, 0, 0], ⟨by decide, by decide, by decide, by decide, by decide⟩, (by intros; decide)⟩,
   ⟨tI, [0, 0, 0], ⟨by decide, by decide, by decide, by decide, by decide⟩, (by intros; decide)⟩,
   ⟨tI, pay 8 [], ⟨by decide, by decide, by decide, by decide, by decide⟩, (by intros; decide)⟩,
   ⟨tI, by decide⟩,
   ⟨{ tI with pkg := { tI.pkg with mode := .confidential } }, by decide⟩,
   ⟨⟨0, 2, 2⟩, [], { tI with mg := { tI.mg with events := [⟨0, 2, 2⟩] } }, by decide, by decide⟩,
   ⟨⟨1, 1, 0⟩, [], { tI with mg := { tI.mg with events := [⟨1, 1, 0⟩] } }, by decide, by decide⟩⟩

set_option maxRecDepth 20000 in
/-- Inner cases of `PldmFirmwareUpdate` whose own premises are met. -/
theorem cases_PldmFirmwareUpdate :
    (∃ (b : Bytes) (s : State), (let rsp (cmd cc : Nat) (d : Bytes) (t : State) : State := mgSend ([1#8, 0#8, 5#8] ++ toLe 1 cmd ++ toLe 1 cc ++ d) t; let t := mgBegun 0x80 s; MgIdle s ∧ 11 ≤ b.length ∧ ((s.upd.pldm = true ∨ s.upd.status ≠ 0 ∨ hostBegin s = true)))) ∧
    (∃ (b : Bytes) (s : State), (let rsp (cmd cc : Nat) (d : Bytes) (t : State) : State := mgSend ([1#8, 0#8, 5#8] ++ toLe 1 cmd ++ toLe 1 cc ++ d) t; let t := mgBegun 0x80 s; MgIdle s ∧ 11 ≤ b.length ∧ s.upd.pldm = false ∧ s.upd.status = 0 ∧ hostBegin s = false)) ∧
    (∃ (b : Bytes) (s : State), (let rsp (cmd cc : Nat) (d : Bytes) (t : State) : State := mgSend ([1#8, 0#8, 5#8] ++ toLe 1 cmd ++ toLe 1 cc ++ d) t; let t := mgBegun 0x80 s; MgIdle s ∧ s.upd.pldm = false)) ∧
    (∃ (b : Bytes) (s : State), (let rsp (cmd cc : Nat) (d : Bytes) (t : State) : State := mgSend ([1#8, 0#8, 5#8] ++ toLe 1 cmd ++ toLe 1 cc ++ d) t; let t := mgBegun 0x80 s; MgIdle s ∧ s.upd.pldm = true ∧ s.upd.pldmSt = 1 ∧ 12 ≤ b.length ∧ ((field b 3 2 = 1 ∨ field b 3 2 = 2)))) ∧
    (∃ (b : Bytes) (s : State), (let rsp (cmd cc : Nat) (d : Bytes) (t : State) : State := mgSend ([1#8, 0#8, 5#8] ++ toLe 1 cmd ++ toLe 1 cc ++ d) t; let t := mgBegun 0x80 s; MgIdle s ∧ s.upd.pldm = true ∧ s.upd.pldmSt = 2 ∧ 19 ≤ b.length ∧ ((field b 2 2 = 1 ∨ field b 2 2 = 2)) ∧ updBeginCheck (compTarget (field b 2 2) s) (field b 9 4) s = none)) ∧
    (∃ (b : Bytes) (s : State), (let rsp (cmd cc : Nat) (d : Bytes) (t : State) : State := mgSend ([1#8, 0#8, 5#8] ++ toLe 1 cmd ++ toLe 1 cc ++ d) t; let t := mgBegun 0x80 s; MgIdle s ∧ s.upd.pldm = true ∧ s.upd.pldmSt = 2 ∧ b.length = 1 ∧ field b 0 1 ≤ 1 ∧ ¬ (s.upd.pldmComp = 2 ∧ s.upd.status = 0) ∧ updActivateCheck s = none)) ∧
    (∃ (b : Bytes) (s : State), (let rsp (cmd cc : Nat) (d : Bytes) (t : State) : State := mgSend ([1#8, 0#8, 5#8] ++ toLe 1 cmd ++ toLe 1 cc ++ d) t; let t := mgBegun 0x80 s; MgIdle s ∧ s.upd.pldm = true ∧ 3 ≤ s.upd.pldmSt ∧ s.upd.status = 0)) ∧
    (∃ (b : Bytes) (s : State), (let rsp (cmd cc : Nat) (d : Bytes) (t : State) : State := mgSend ([1#8, 0#8, 5#8] ++ toLe 1 cmd ++ toLe 1 cc ++ d) t; let t := mgBegun 0x80 s; MgIdle s ∧ s.upd.pldm = true ∧ s.upd.status ≠ 0 ∧ updCancelCheck s = none)) ∧
    (∃ (b : Bytes) (s : State), (let rsp (cmd cc : Nat) (d : Bytes) (t : State) : State := mgSend ([1#8, 0#8, 5#8] ++ toLe 1 cmd ++ toLe 1 cc ++ d) t; let t := mgBegun 0x80 s; MgIdle s ∧ s.upd.pldm = true ∧ s.upd.status = 0)) ∧
    (∃ (b : Bytes) (s : State), (let rsp (cmd cc : Nat) (d : Bytes) (t : State) : State := mgSend ([1#8, 0#8, 5#8] ++ toLe 1 cmd ++ toLe 1 cc ++ d) t; let t := mgBegun 0x80 s; MgIdle s)) ∧
    (∃ (b : Bytes) (s : State), MgIdle s ∧ (let t := { mgBegun 0 s with mg := { (mgBegun 0 s).mg with busy := false } }; let n := min s.upd.pldmMax (s.upd.length - s.upd.pldmOff); ((s.upd.pldm = false ∨ s.upd.pldmSt ≠ 3)))) ∧
    (∃ (b : Bytes) (s : State), MgIdle s ∧ (let t := { mgBegun 0 s with mg := { (mgBegun 0 s).mg with busy := false } }; let n := min s.upd.pldmMax (s.upd.length - s.upd.pldmOff); s.upd.pldm = true ∧ s.upd.pldmSt = 3 ∧ s.fq.sync = none ∧ 1 + n ≤ b.length ∧ field b 0 1 = 0 ∧ updDataCheck s.upd.pldmOff ((b.drop 1).take n) s = none)) :=
  ⟨⟨pay 11 [], { tI with upd := { tI.upd with status := 1 } }, by intros; exact ⟨⟨by decide, by decide, by decide, by decide, by decide⟩, by decide, by decide⟩⟩,
   ⟨pay 11 [], tI, by intros; exact ⟨⟨by decide, by decide, by decide, by decide, by decide⟩, by decide, by decide, by decide, by decide⟩⟩,
   ⟨[], tI, by intros; exact ⟨⟨by decide, by decide, by decide, by decide, by decide⟩, by decide⟩⟩,
   ⟨pay 12 [0, 0, 0, 2], { tI with upd := { tI.upd with pldm := true, pldmSt := 1 } }, by intros; exact ⟨⟨by decide, by decide, by decide, by decide, by decide⟩, by decide, by decide, by decide, by decide⟩⟩,
   ⟨pay 19 [0, 0, 1, 0, 0, 0, 0, 0, 0, 16], { tI with upd := { tI.upd with pldm := true, pldmSt := 2 } }, by intros; exact ⟨⟨by decide, by decide, by decide, by decide, by decide⟩, by decide, by decide, by decide, by decide, by decide⟩⟩,
   ⟨[1], { tI with upd := { tI.upd with pldm := true, pldmSt := 2, status := 3, target := 1 } }, by intros; exact ⟨⟨by decide, by decide, by decide, by decide, by decide⟩, by decide, by decide, by decide, by decide, by decide, by decide⟩⟩,
   ⟨[], { tI with upd := { tI.upd with pldm := true, pldmSt := 3 } }, by intros; exact ⟨⟨by decide, by decide, by decide, by decide, by decide⟩, by decide, by decide, by decide⟩⟩,
   ⟨[], { tI with upd := { tI.upd with pldm := true, status := 1 } }, by intros; exact ⟨⟨by decide, by decide, by decide, by decide, by decide⟩, by decide, by decide, by decide⟩⟩,
   ⟨[], { tI with upd := { tI.upd with pldm := true } }, by intros; exact ⟨⟨by decide, by decide, by decide, by decide, by decide⟩, by decide, by decide⟩⟩,
   ⟨[], tI, by intros; exact ⟨by decide, by decide, by decide, by decide, by decide⟩⟩,
   ⟨[], tI, ⟨by decide, by decide, by decide, by decide, by decide⟩, (by intros; decide)⟩,
   ⟨pay 9 [], { tI with upd := { tI.upd with pldm := true, pldmSt := 3, status := 1, length := 8, pldmMax := 8 } }, ⟨by decide, by decide, by decide, by decide, by decide⟩, (by intros; decide)⟩⟩

set_option maxRecDepth 20000 in
/-- Inner cases of `DoeObjectsAndNegotiation` whose own premises are met. -/
theorem cases_DoeObjectsAndNegotiation :
    (∃ (ws : List Word) (s : State), (fnS s 0).up = true ∧ s.sd.busy = false ∧ s.sd.err = false ∧ ((ws.length < 2 ∨ 1040 < ws.length ∨ (nth 0#32 ws 1).toNat % 2 ^ 18 ≠ ws.length))) ∧
    (∃ (ws : List Word) (s : State), (fnS s 0).up = true ∧ s.sd.busy = false ∧ s.sd.err = false ∧ 2 ≤ ws.length ∧ ws.length ≤ 1040 ∧ (nth 0#32 ws 1).toNat % 2 ^ 18 = ws.length ∧ (nth 0#32 ws 0).toNat % 2 ^ 16 ≠ 1) ∧
    (∃ (m : SpdmMsg) (s : State), SpdmOn s ∧ m.secured = false ∧ (let b (code : Nat) := spdmBegin code m s; s.sd.stage ≠ 1)) ∧
    (∃ (m : SpdmMsg) (s : State), SpdmOn s ∧ m.secured = false ∧ (let b (code : Nat) := spdmBegin code m s; s.sd.stage = 1)) ∧
    (∃ (m : SpdmMsg) (s : State), SpdmOn s ∧ m.secured = false ∧ (let b (code : Nat) := spdmBegin code m s; s.sd.stage ≠ 2)) ∧
    (∃ (m : SpdmMsg) (s : State), SpdmOn s ∧ m.secured = false ∧ (let b (code : Nat) := spdmBegin code m s; s.sd.stage = 2)) ∧
    (∃ (m : SpdmMsg) (s : State), SpdmOn s ∧ m.secured = false ∧ (let b (code : Nat) := spdmBegin code m s; s.sd.stage < 3)) :=
  ⟨⟨[], tI, by decide, by decide, by decide, by decide⟩,
   ⟨[2, 2], tI, by decide, by decide, by decide, by decide, by decide, by decide, by decide⟩,
   ⟨⟨0, 0, [], false⟩, tI, ⟨by decide, by decide, .inl rfl⟩, by decide, (by intros; decide)⟩,
   ⟨⟨0, 0, [], false⟩, { tI with sd := { tI.sd with stage := 1 } }, ⟨by decide, by decide, .inl rfl⟩, by decide, (by intros; decide)⟩,
   ⟨⟨0, 0, [], false⟩, tI, ⟨by decide, by decide, .inl rfl⟩, by decide, (by intros; decide)⟩,
   ⟨⟨0, 0, [], false⟩, { tI with sd := { tI.sd with stage := 2 } }, ⟨by decide, by decide, .inl rfl⟩, by decide, (by intros; decide)⟩,
   ⟨⟨0, 0, [], false⟩, tI, ⟨by decide, by decide, .inl rfl⟩, by decide, (by intros; decide)⟩⟩

set_option maxRecDepth 20000 in
/-- Inner cases of `SpdmEvidenceAndSession` whose own premises are met. -/
theorem cases_SpdmEvidenceAndSession :
    (∃ (m : SpdmMsg) (s : State), SpdmOn s ∧ m.secured = false ∧ 3 ≤ s.sd.stage ∧ m.p1 % 2 = 0 ∧ m.body.length = 8 ∧ (let b := spdmBegin 0xE0 m s; let n := (drawBytes 32 b).1; let t := (drawBytes 32 b).2; m.p2 = 0)) ∧
    (∃ (m : SpdmMsg) (s : State), SpdmOn s ∧ m.secured = false ∧ 3 ≤ s.sd.stage ∧ m.p1 % 2 = 0 ∧ m.body.length = 8 ∧ (let b := spdmBegin 0xE0 m s; let n := (drawBytes 32 b).1; let t := (drawBytes 32 b).2; let r := measBlock m.p2 (nth {} s.ms.slots (m.p2 - 1)).val; 1 ≤ m.p2 ∧ m.p2 ≤ 32)) ∧
    (∃ (m : SpdmMsg) (s : State), SpdmOn s ∧ m.secured = false ∧ 3 ≤ s.sd.stage ∧ m.p1 % 2 = 0 ∧ m.body.length = 8 ∧ (let b := spdmBegin 0xE0 m s; let n := (drawBytes 32 b).1; let t := (drawBytes 32 b).2; 33 < m.p2 ∧ m.p2 ≠ 0xFF)) ∧
    (∃ (m : SpdmMsg) (ch : Bytes) (s : State), SpdmOn s ∧ m.secured = false ∧ 3 ≤ s.sd.stage ∧ (let b := spdmBegin 0xE4 m s; s.sd.sess.isSome = true)) :=
  ⟨⟨⟨0, 0, pay 8 [], false⟩, { tI with sd := { tI.sd with stage := 3 } }, ⟨by decide, by decide, .inl rfl⟩, by decide, by decide, by decide, by decide, (by intros; decide)⟩,
   ⟨⟨0, 32, pay 8 [], false⟩, { tI with sd := { tI.sd with stage := 3 } }, ⟨by decide, by decide, .inl rfl⟩, by decide, by decide, by decide, by decide, (by intros; decide)⟩,
   ⟨⟨0, 34, pay 8 [], false⟩, { tI with sd := { tI.sd with stage := 3 } }, ⟨by decide, by decide, .inl rfl⟩, by decide, by decide, by decide, by decide, (by intros; decide)⟩,
   ⟨⟨0, 0, [], false⟩, [], { tI with sd := { tI.sd with stage := 3, sess := some ⟨0, true, 0, 0⟩ } }, ⟨by decide, by decide, .inl rfl⟩, by decide, by decide, (by intros; decide)⟩⟩

set_option maxRecDepth 20000 in
/-- Inner cases of `RackPowerAndCooling` whose own premises are met. -/
theorem cases_RackPowerAndCooling :
    (∃ (s : State), s.rk.holding = true ∧ rackRated s ≤ s.rk.shelves * 60000) ∧
    (∃ (s : State), s.rk.holding = true ∧ s.rk.shelves * 60000 < rackRated s) ∧
    (∃ (s : State), s.rk.activeAlive = true ∧ 2 ≤ s.rk.shelves ∧ rackFull s ≤ s.rk.shelves ∧ s.rk.waitRelease = false) ∧
    (∃ (s : State), s.rk.activeAlive = true ∧ 2 ≤ s.rk.shelves ∧ rackFull s ≤ s.rk.shelves ∧ s.rk.waitRelease = true) ∧
    (∃ (s : State), s.rk.activeAlive = true ∧ 2 ≤ s.rk.shelves ∧ s.rk.shelves < rackFull s ∧ MgIdle s ∧ (let u := rackSend { s with rk := { s.rk with capShelf := some (shelfCap s.rk.shelves s) } }; s.rk.waitRelease = false)) ∧
    (∃ (s : State), s.rk.activeAlive = true ∧ 2 ≤ s.rk.shelves ∧ s.rk.shelves < rackFull s ∧ MgIdle s ∧ (let u := rackSend { s with rk := { s.rk with capShelf := some (shelfCap s.rk.shelves s) } }; s.rk.waitRelease = true)) :=
  ⟨⟨{ tI with rk := { tI.rk with holding := true } }, by decide, by decide⟩,
   ⟨{ tI with rk := { tI.rk with holding := true, shelves := 0 } }, by decide, by decide⟩,
   ⟨tI, by decide, by decide, by decide, by decide⟩,
   ⟨{ tI with rk := { tI.rk with activeAlive := true, shelves := 20, waitRelease := true } }, by decide, by decide, by decide, by decide⟩,
   ⟨{ tI with rk := { tI.rk with shelves := 2 } }, by decide, by decide, by decide, ⟨by decide, by decide, by decide, by decide, by decide⟩, (by intros; decide)⟩,
   ⟨{ tI with rk := { tI.rk with activeAlive := true, shelves := 2, waitRelease := true } }, by decide, by decide, by decide, ⟨by decide, by decide, by decide, by decide, by decide⟩, (by intros; decide)⟩⟩

end Sys2Proof.Tests
end

section
/-! # Package states and modes

The statements on reset, standby power, the core's start, BRINGUP, the main input, and the base and power groups of commands.
A helper definition that serves proofs alone is `noncomputable`: nothing runs it. -/
open Sys2Proof
namespace Sys2Proof.Machine

/-! ## Values at reset -/

/-- Settles O6: the reset state is a closed value. -/
theorem resetLeavesTheStatedValues : Obligations.ResetLeavesTheStatedValues := by
  unfold Obligations.ResetLeavesTheStatedValues; decide

/-! ## Standby power and the reset pin -/

/-- A warden reset looks at no pin: what it leaves of a state whose package inputs changed is what it leaves of the state. -/
theorem WardenReset.of_pkg {s t : State} {p : Pkg} (hm : p.mainOk = s.pkg.mainOk) (h : WardenReset { s with pkg := p } t) :
    WardenReset s t := by
  simp only [WardenReset, hm] at h ⊢
  exact h

/-- A cut command leaves the controller's BUSY and LOADED bits: only rows, counters and the job change (R94). -/
theorem cutPulses_busy_loaded (d n : Nat) (ts : List (Nat × Nat)) (o : Otp) :
    (cutPulses d n ts o).busy = o.busy ∧ (cutPulses d n ts o).loaded = o.loaded := by
  induction d, n, ts, o using cutPulses.induct with
  | case1 => simp [cutPulses]
  | case2 d r m ts o => rw [cutPulses, burnRow]; split <;> simp
  | case3 d n r m ts o ih => rw [cutPulses, ih.1, ih.2, burnRow]; split <;> simp

theorem otShow_busy_loaded (j : OtpJob) (v n : Nat) (o : Otp) :
    (otShow j v n o).busy = o.busy ∧ (otShow j v n o).loaded = o.loaded := by
  unfold otShow; split
  · simp
  · split <;> simp

theorem otCut_busy_loaded (s : State) : (otCut s).otp.busy = s.otp.busy ∧ (otCut s).otp.loaded = s.otp.loaded := by
  unfold otCut; split
  · simp
  · dsimp only; rw [(otShow_busy_loaded _ _ _ _).1, (otShow_busy_loaded _ _ _ _).2, (cutPulses_busy_loaded _ _ _ _).1, (cutPulses_busy_loaded _ _ _ _).2]; simp

theorem otCut_uw (s : State) : (otCut s).uw = s.uw := by unfold otCut; split <;> rfl
theorem setNotice_uw (b : Nat) (s : State) : (setNotice b s).uw = s.uw := by unfold setNotice; dsimp only; split <;> rfl

/-- With no command that waits for the OTP controller, its end answers nothing. -/
theorem tokenOtpEnd_none {s : State} (h : s.uw = []) : tokenOtpEnd s = s := by
  unfold tokenOtpEnd; rw [h]; cases s; cases h; rfl

/-- The programming window ends while the controller is idle: only the window closes (R94). -/
theorem otWindowExit_idle {s : State} (hj : s.otp.job = none) (hb : s.otp.busy = false) :
    otWindowExit s = { s with pkg := { s.pkg with progWin := false } } := by
  simp [otWindowExit, otCut_idle (s := { s with pkg := { s.pkg with progWin := false } }) hj, hb]

/-- The programming window ends under a command: the pulse is cut and the command ends with ECODE 7 (R94). -/
theorem otWindowExit_busy {s : State} (hb : s.otp.busy = true) (hl : s.otp.loaded = true) :
    otWindowExit s = otEnd 7 (otCut { s with pkg := { s.pkg with progWin := false } }) := by
  obtain ⟨h1, h2⟩ := otCut_busy_loaded { s with pkg := { s.pkg with progWin := false } }
  unfold otWindowExit; dsimp only; rw [h1, h2]; simp [hb, hl]

/-- Settles O9: every clause is `wardenReset_spec` for the reset its event asserts, or the window's exit on an idle or a
busy controller. -/
theorem standbyAndResetPin : Obligations.StandbyAndResetPin := by
  unfold Obligations.StandbyAndResetPin
  refine ⟨?_, ?_, ?_, ?_, ?_⟩
  · intro w s hs hr
    show execStandbyGood w s = _
    simp [execStandbyGood, standbyUp, hs, hr]
  · intro s hs
    have e : standbyDown s = { wardenReset { por := true } 0 s with
        pkg := { (wardenReset { por := true } 0 s).pkg with st := .cold, standby := false, progWin := false },
        mg := { (wardenReset { por := true } 0 s).mg with hold := false } } := by simp [standbyDown, hs]
    exact ⟨standbyDown s, rfl, rfl, wardenReset { por := true } 0 s, wardenReset_spec _ _ _, rfl, e⟩
  · intro s hr hs hc
    refine ⟨wardenReset { ext := true } 0 { s with pkg := { s.pkg with rstN := false } }, ?_,
      WardenReset.of_pkg (p := { s.pkg with rstN := false }) rfl (wardenReset_spec _ _ _), ?_⟩
    · show execWardenRstNAssert s = _
      simp [execWardenRstNAssert, hr, hs, hc]
    · simp [wardenReset]
  · intro s hr hc hs
    refine ⟨wardenReset { por := true } 0 { s with pkg := { s.pkg with rstN := true } }, ?_,
      WardenReset.of_pkg (p := { s.pkg with rstN := true }) rfl (wardenReset_spec _ _ _), ?_⟩
    · show execWardenRstNDeassert s = _
      simp [execWardenRstNDeassert, hr, hs, hc]
    · simp [wardenReset]
  · intro s hs hp
    refine ⟨fun hj hb => ?_, fun hj hb hl hu => ?_⟩
    · show execStandbyProgWindowExit s = _
      simp [execStandbyProgWindowExit, hs, hp, hj, otWindowExit_idle hj hb]
    · have hu' : (setNotice 14 (otWindowExit s)).uw = [] := by
        rw [setNotice_uw, otWindowExit_busy hb hl]; exact (otCut_uw _).trans hu
      show Host.Outcome.next (if _ then if _ then _ else _ else _) = _
      rw [if_pos (by rw [hs, hp]; rfl), if_pos hj, tokenOtpEnd_none hu', otWindowExit_busy hb hl]

/-! ## Admission and the layout of a response -/

/-- A command that fails a check of admission ends with that check's status and no payload (R244). -/
theorem runCmd_refused {op st : Nat} {f : HostCall → State → CmdRes} {c : HostCall} {s : State}
    (h : admission op c.sealed c.payload s = some st) : runCmd op f c s = buildRsp c op 0 st [] s := by
  unfold runCmd; rw [h]

theorem resultReadRun_refused {st : Nat} {c : HostCall} {s : State}
    (h : admission 4 c.sealed c.payload s = some st) : resultReadRun c s = buildRsp c 4 0 st [] s := by
  unfold resultReadRun; rw [h]

/-- Every row of `hostOp` but RESULT_READ runs a body of its opcode through `runCmd`. -/
theorem exec_hostOp {i : Instr} {op : Nat} {c : HostCall} (h : hostOp i = some (op, c)) (s : State) :
    (∃ f, exec i s = .next (runCmd op f c s)) ∨ (op = 4 ∧ exec i s = .next (resultReadRun c s)) := by
  cases i <;> cases h
  case resultRead => exact .inr ⟨rfl, rfl⟩
  all_goals exact .inl ⟨_, rfl⟩

/-- Two updates of one channel are one. -/
theorem modChan_modChan (i : Nat) (f g : Chan → Chan) (s : State) : modChan i g (modChan i f s) = modChan i (fun x => g (f x)) s := by
  simp [modChan, modNth, List.modify_modify_eq, Function.comp_def]

/-- An update of a channel looks at that channel alone. -/
theorem modChan_congr {i : Nat} {f g : Chan → Chan} {s : State} (h : f (chanS s i) = g (chanS s i)) : modChan i f s = modChan i g s := by
  have e : modNth i f s.mb.chans = modNth i g s.mb.chans := by
    refine List.ext_getElem? fun n => ?_
    simp only [modNth, List.getElem?_modify]
    split
    · rename_i e; subst e
      cases hn : s.mb.chans[i]? with
      | none => rfl
      | some x =>
        have : chanS s i = x := by simp [chanS, nth, hn]
        rw [this] at h; simp [h]
    · rfl
  simp only [modChan, e]

/-- An unsealed response of a mailbox channel is built on the channel as a plain frame (R223). -/
theorem buildRsp_plain {c : HostCall} (hc : c.ch < 8) (hs : c.sealed = false) (op fl st : Nat) (p : Bytes) (s : State) :
    buildRsp c op fl st p s = modChan c.ch (fun x => { x with built := some (rspFrame op fl c.tag st p) }) s := by
  unfold buildRsp; rw [if_neg (by unfold mgCh; omega), if_pos (by simp [hs])]

theorem answerBytes_inline {c : HostCall} {p : Bytes} (h : p.length ≤ 224) (op st : Nat) (s : State) :
    answerBytes c op st p s = buildRsp c op 0 st p s := by
  unfold answerBytes; rw [if_pos (by simp [h])]

/-- A payload above 224 bytes becomes a result object of the channel, and the frame names it (R232, R245). -/
theorem answerBytes_object {c : HostCall} (hc : c.ch < 8) (hs : c.sealed = false) {s : State} (hd : (chanS s c.ch).discard = false)
    {p : Bytes} (h : 224 < p.length) (op st : Nat) :
    answerBytes c op st p s = modChan c.ch (fun x => { x with
      objs := x.objs ++ [(c.tag, p)], ref := some c.tag,
      built := some (rspFrame op 4 c.tag st (toLe 4 c.tag ++ toLe 4 p.length ++ (Config.sha384 p).take 8)) }) s := by
  unfold answerBytes; rw [if_neg (by simp only [Bool.or_eq_true, decide_eq_true_eq, mgCh]; omega)]
  dsimp only
  rw [buildRsp_plain hc hs, modChan_modChan]
  exact modChan_congr (by simp [hd])

/-- The response of a command that names no stage is its prefix and its body, zero-filled where the command failed (R244). -/
theorem answer_eq {op : Nat} (hn : namesStage op = false) (c : HostCall) (w st d : Nat) (body : Bytes) (s : State) :
    answer c op w st d body s = answerBytes c op st (toLe 2 st ++ toLe 2 d ++ toLe 4 w
      ++ (if st = 0 then body else body ++ List.replicate (bodyLen op - body.length) 0#8)) s := by
  unfold answer; rw [hn]; rfl

/-- Settles O31: each clause is one branch of `admission`, of `awaits`, or of the response's layout. -/
theorem hostCommandsAnswerTheirFirstFailingCheck : Obligations.HostCommandsAnswerTheirFirstFailingCheck := by
  unfold Obligations.HostCommandsAnswerTheirFirstFailingCheck
  refine ⟨?_, ?_, ?_, ?_, ?_⟩
  · intro i op c s st hi ha
    rcases exec_hostOp hi s with ⟨f, e⟩ | ⟨rfl, e⟩
    · rw [e, runCmd_refused ha]
    · rw [e, resultReadRun_refused ha]
  · intro op b p s hk
    refine ⟨fun hs => ?_, fun hs hg hw => ?_, fun hs hg hw => ?_⟩ <;> simp [admission, *]
  · intro op p st hst
    simp only [List.mem_cons, List.not_mem_nil, or_false] at hst
    rcases hst with rfl | rfl | rfl | rfl <;> rfl
  · intro op b p s hk
    simp [admission, hk]
  · intro c op w st d body s hc hs hn hd
    refine ⟨fun hp => ?_, fun hp => ?_⟩
    · rw [answer_eq hn, answerBytes_inline hp, buildRsp_plain hc hs]
    · rw [answer_eq hn, answerBytes_object hc hs hd hp]

/-! ## The base group -/

/-- An admitted command whose body ends at once with ST_OK. -/
theorem runCmd_replied {op : Nat} {f : HostCall → State → CmdRes} {c : HostCall} {s t : State} {b : Bytes} (h : Admitted op c s)
    (e : f c s = cmdOk t b) : Host.Outcome.next (runCmd op f c s) = (.next (replied op c s b t) : Res) := runCmd_reply h e

/-- An admitted command whose body refuses it. -/
theorem runCmd_failed {op st d : Nat} {f : HostCall → State → CmdRes} {c : HostCall} {s : State} (h : Admitted op c s)
    (e : f c s = cmdFail s st d) : Host.Outcome.next (runCmd op f c s) = (.next (failed op c s st d s) : Res) := runCmd_reply h e

/-- RESULT_READ needs no room in the PKE queue: admitted, it reads (R233). -/
theorem exec_resultRead {c : HostCall} {s : State} (h : Admitted 0x004 c s) : exec (.resultRead c) s = .next (resultRead c s) := by
  show Host.Outcome.next (resultReadRun c s) = _
  unfold resultReadRun; rw [h.1]

/-- RESULT_READ of a well-formed request whose handle names an object (R233). -/
theorem resultRead_object {c : HostCall} {s : State} {o : Bytes} (hl : c.payload.length = 16)
    (hz : allZero (slice c.payload 12 4) = true) (hn : field c.payload 8 4 ≠ 0) (hm : field c.payload 8 4 ≤ (if c.sealed then 4034 else 4064))
    (ho : lookupNat (field c.payload 0 4) (chanS s c.ch).objs = some o) :
    resultRead c s = if o.length < field c.payload 4 4 + field c.payload 8 4 then answer c 4 (stateWord s) stMalformed 0 [] s
      else buildRsp c 4 0 stOk (slice o (field c.payload 4 4) (field c.payload 8 4))
        (modChan c.ch (fun x => { x with ref := some (field c.payload 0 4) }) s) := by
  have hm' := Nat.not_lt.2 hm
  unfold resultRead; dsimp only
  rw [if_neg (by simpa [hl, hz, hn] using hm), ho]

/-- Settles O32: for each command of Table 11-4 the branch of its body that the clause's hypotheses select. -/
theorem baseGroupCommands : Obligations.BaseGroupCommands := by
  unfold Obligations.BaseGroupCommands
  refine ⟨fun c s h hp => ?offer, fun c s h hl => ?accept, fun c s h => ?mode, fun c n s h hp hn => ?reset,
    fun c s o h hl hz hn hm ho => ?read, fun c s h hl hz => ?release, fun c s h hc h9 hl hz hr => ?put, fun c s h hc hp => ?clear⟩
  case offer => exact runCmd_replied h (sized_eq (by rw [hp]; rfl) s)
  case accept =>
    refine ⟨fun ho => ?_, fun ho ha hi => ?_, fun ha ho => ?_, fun ho ha hi => ?_⟩
    · exact runCmd_failed h ((sized_eq hl s).trans (if_pos (by simpa using ho)))
    · exact runCmd_replied h ((sized_eq hl s).trans ((if_neg (by simpa using ho)).trans ((if_neg ha).trans (if_neg (by simp [hi])))))
    · exact runCmd_replied h ((sized_eq hl s).trans ((if_neg (by simpa using ho)).trans (if_pos ha)))
    · exact runCmd_failed h ((sized_eq hl s).trans ((if_neg (by simpa using ho)).trans ((if_neg ha).trans (if_pos (by simpa using hi)))))
  case mode =>
    have opened : field [2#8, 0#8, 0#8, 0#8] 0 1 = 2 ∧ allZero (slice [2#8, 0#8, 0#8, 0#8] 1 3) = true := ⟨rfl, rfl⟩
    have conf : field [1#8, 0#8, 0#8, 0#8] 0 1 = 1 ∧ allZero (slice [1#8, 0#8, 0#8, 0#8] 1 3) = true := ⟨rfl, rfl⟩
    refine ⟨fun hp hf hm => ?_, fun hp hf hm => ?_, fun hp hf => ?_, fun hp hl hm => ?_, fun hp hl => ?_, fun hp hl hm => ?_⟩
    · exact runCmd_replied h (by simp [modeSetBody, sized, hp, opened, hf, hm])
    · exact runCmd_replied h (by simp [modeSetBody, sized, hp, opened, hf, hm])
    · exact runCmd_failed h (by simp [modeSetBody, sized, hp, opened, hf])
    · exact runCmd_replied h (by simp [modeSetBody, sized, hp, conf, lcOf, hl, hm])
    · exact runCmd_failed h (by simp [modeSetBody, sized, hp, conf, lcOf, hl])
    · exact runCmd_replied h (by simp [modeSetBody, sized, hp, conf, lcOf, hl, hm])
  case reset =>
    have ht : field c.payload 0 1 = n := by rw [hp]; simp [field, le]; omega
    have hz : allZero (slice c.payload 1 3) = true := by rw [hp]; rfl
    have hl : c.payload.length = 4 := by rw [hp]; rfl
    have hn' := Nat.not_le.2 hn
    refine ⟨fun hc => ?_, fun hc hb => ?_, fun hc hb ho => ?_⟩
    · subst hc; exact runCmd_replied h (by simp [channelResetBody, sized, hl, ht, hz, hn'])
    · exact runCmd_failed h (by simp [channelResetBody, sized, hl, ht, hz, hn', hc, hb])
    · exact runCmd_replied h (by simp [channelResetBody, sized, hl, ht, hz, hn', hc, hb, genAdvance, ho, modChan_modChan])
  case read =>
    rw [exec_resultRead h, resultRead_object hl hz hn hm ho]
    exact ⟨fun hr => by rw [if_neg (by omega)], fun hr => by rw [if_pos hr]⟩
  case release => exact runCmd_replied h ((sized_eq hl s).trans (if_neg (by simp [hz])))
  case put =>
    have hm : c.ch ≠ mgCh := by unfold mgCh; omega
    refine ⟨fun ⟨o, ho, he⟩ => ?_, fun ho => ?_⟩
    · exact runCmd_failed h (by simp [stagePutBody, Nat.not_lt.2 h9, Nat.not_lt.2 hl, hz, hm, he, ho])
    · refine runCmd_replied h ?_
      rcases ho with he | he <;> simp [stagePutBody, Nat.not_lt.2 h9, Nat.not_lt.2 hl, hz, hm, he, Nat.not_lt.2 hr]
  case clear =>
    have hm : c.ch ≠ mgCh := by unfold mgCh; omega
    refine ⟨fun he => ?_, fun he => ?_, fun ⟨o, ho, he⟩ => ?_⟩
    · exact runCmd_replied h (by simp [stageClearBody, sized, hp, he, stageClearFor, hm, stageEmpty])
    · exact runCmd_replied h (by simp [stageClearBody, sized, hp, he, stageClearFor, hm])
    · exact runCmd_failed h (by simp [stageClearBody, sized, hp, he, hm, ho])

/-! ## The power commands -/

/-- PWR_STATUS reads the live values in OPEN and those of the telemetry page in CONFIDENTIAL (R488). -/
theorem pwrStatusBody_eq (c : HostCall) (s : State) (hp : c.payload = []) : pwrStatusBody c s = cmdOk s (
    if s.pkg.mode = .confidential then
      toLe 2 s.hb.tele.pwr ++ toLe 2 (pCap s) ++ toLe 1 s.hb.tele.tjmax ++ toLe 1 s.hb.tele.throt
        ++ toLe 2 (1 + 2 * b2n s.hb.tele.brake) ++ toLe 4 (limitsNow s)
    else toLe 2 s.pw.pwr ++ toLe 2 (pCap s) ++ toLe 1 (s.pw.tiles.foldl (fun m x => max m (x.tj / 10)) 0)
      ++ toLe 1 (s.pw.tiles.filter (fun x => x.throt)).length ++ toLe 2 (2 * b2n (brakeOn s)) ++ toLe 4 (limitsNow s)) := by
  rw [pwrStatusBody, sized_eq (by rw [hp]; rfl)]
  by_cases hm : s.pkg.mode = .confidential <;> simp [coarse, hm, b2n]

/-- MEM_TELEM of a well-formed request: the first refusal that holds, or the stack's temperature and counts (R265). -/
theorem memTelemBody_eq {c : HostCall} (hl : c.payload.length = 4) (hz : allZero (slice c.payload 1 3) = true) (s : State) :
    memTelemBody c s =
      let u := field c.payload 0 1
      let t := if u < 8 then u else u - 9
      if 18 ≤ u then cmdFail s stMalformed 0
      else if !(if u < 8 then hasStack s u else unitType s u == .stack) then cmdFail s stUnavailable 0
      else if !unitUp s t then cmdFail s stUnitAbort 0
      else cmdOk s (toLe 1 (if s.pkg.mode = .confidential then nth 0 s.hb.tele.stk t else (mcS s t).temp) ++ toLe 3 0
        ++ toLe 4 (mcS s t).corr ++ toLe 4 (mcS s t).tagf) := by
  rw [memTelemBody, sized_eq hl]; simp [hz, coarse]

/-- Settles O47: for each command of Table 11-12 the branch of its body that the clause's hypotheses select. -/
theorem powerCommands : Obligations.PowerCommands := by
  unfold Obligations.PowerCommands
  refine ⟨fun c s h hp => ?status, fun c s h hl => ?cap, fun c s h hl => ?limit, fun c s h hl => ?unit, fun c s h hl hz => ?mem,
    fun c s h hl hz => ?perf, fun c s h hp => ?down, fun c s h hl hz => ?thresh, fun c s h hl hz => ?quant⟩
  case status =>
    refine ⟨fun hm => ?_, fun hm => ?_⟩ <;> exact runCmd_replied h (by rw [pwrStatusBody_eq c s hp]; simp [hm])
  case cap =>
    refine ⟨fun hr => ?_, fun hz hr => ?_⟩
    · exact runCmd_failed h ((sized_eq hl s).trans (if_pos (by simp [hr])))
    · exact runCmd_replied h ((sized_eq hl s).trans (if_neg (by simpa [hz] using hr)))
  case limit =>
    refine ⟨fun hb => ?_, fun h1 h2 h3 h4 h5 => ?_⟩
    · exact runCmd_failed h ((sized_eq hl s).trans (if_pos (by simpa [or_assoc] using hb)))
    · exact runCmd_replied h ((sized_eq hl s).trans (if_neg (by simp; omega)))
  case unit =>
    refine ⟨fun hu => ?_, fun hu hz ht => ?_, fun hu hz ht => ?_⟩
    · exact runCmd_failed h ((sized_eq hl s).trans (if_pos (by simp [hu])))
    · exact runCmd_replied h ((sized_eq hl s).trans ((if_neg (by simpa [hz] using hu)).trans (if_pos (by simpa using ht))))
    · have e : unitStatusBody c s = _ := (sized_eq hl s).trans ((if_neg (by simpa [hz] using hu)).trans (if_neg (by rcases ht with ht | ht <;> simp [ht])))
      refine ⟨fun hv => ?_, fun hv => ?_⟩
      · exact runCmd_wait h (e.trans (if_pos (by simpa using hv)))
      · exact runCmd_reply h (e.trans (if_neg (by simpa using hv)))
  case mem =>
    refine ⟨fun hu => ?_, fun hu hs => ?_, fun hu hs ht => ?_, fun hu hs ht => ?_⟩
    · exact runCmd_failed h (by rw [memTelemBody_eq hl hz]; simp [hu])
    · exact runCmd_failed h (by rw [memTelemBody_eq hl hz]; simp [hu, hs, show ¬ 18 ≤ field c.payload 0 1 by omega])
    · rw [if_pos hu] at ht
      exact runCmd_failed h (by rw [memTelemBody_eq hl hz]; simp [hu, hs, ht, show ¬ 18 ≤ field c.payload 0 1 by omega])
    · refine runCmd_replied h ?_
      have hs' : (if field c.payload 0 1 < 8 then hasStack s (field c.payload 0 1) else unitType s (field c.payload 0 1) == .stack) = true := by
        split at hs <;> simp [*]
      rw [memTelemBody_eq hl hz]; dsimp only; rw [if_neg (by omega), hs', ht]; rfl
  case perf =>
    refine ⟨fun hn => ?_, fun hn => ?_⟩
    · exact runCmd_failed h ((sized_eq hl s).trans (if_pos (by simp [hn])))
    · exact runCmd_replied h ((sized_eq hl s).trans (if_neg (by simpa [hz] using hn)))
  case down =>
    refine ⟨fun hi => ?_, fun hi => ?_⟩
    · exact runCmd_failed h ((sized_eq (by rw [hp]; rfl) s).trans (if_pos (by simpa using hi)))
    · have e : powerDownBody c s = ⟨toWarden s, some (stOk, 0, []), true⟩ := by
        rw [powerDownBody, sized_eq (by rw [hp]; rfl), if_neg (by simp [hi]), cmdOk]
      exact runCmd_after h e
  case thresh => exact runCmd_replied h ((sized_eq hl s).trans (if_neg (by simp [hz])))
  case quant =>
    refine ⟨fun hn => ?_, fun hn hq => ?_, fun hn hx => ?_⟩
    · exact runCmd_failed h ((sized_eq hl s).trans (if_pos (by simp [hn])))
    · exact runCmd_replied h ((sized_eq hl s).trans (by simp [hz, hn, hq]))
    · exact runCmd_replied h ((sized_eq hl s).trans (by simp [hz, hn, hx]))

/-! ## What ending the package's work leaves

`StepSteady k pq b s`: from `b` to `s` the package's state, mode and cause, its main input, its sites, its pending clear, the
running image and the boot record's start flag are as they were, and every slot that was zero is zero. With `k` the rail
enables are as they were too, which a table with a RAIL step may change; with `pq` so are the running table's purpose and the
queue of tables, which firmware's own tables replace. -/

def StepSteady (k pq : Bool) (b s : State) : Prop :=
  (s.pkg.st = b.pkg.st ∧ s.pkg.mode = b.pkg.mode ∧ s.pkg.qcause = b.pkg.qcause ∧ s.pkg.mainOk = b.pkg.mainOk)
  ∧ (s.pkg.fill = b.pkg.fill ∧ s.pkg.p0Bad = b.pkg.p0Bad ∧ s.boot.inited = b.boot.inited ∧ s.wd.fw = b.wd.fw ∧ s.pkg.quarClr = b.pkg.quarClr)
  ∧ (k = true → s.pkg.portEn = b.pkg.portEn ∧ s.pkg.tileEn = b.pkg.tileEn ∧ s.pkg.memEn = b.pkg.memEn)
  ∧ (pq = true → s.sq.purpose = b.sq.purpose ∧ s.sq.queue = b.sq.queue)
  ∧ ∀ i, slotS b i = {} → slotS s i = {}

/-- What firmware's own tables and the package's transitions keep. -/
abbrev Steady (k : Bool) (b s : State) : Prop := StepSteady k false b s

section
variable {k pq : Bool} {b s : State}

theorem StepSteady.refl (k pq : Bool) (s : State) : StepSteady k pq s s :=
  ⟨⟨rfl, rfl, rfl, rfl⟩, ⟨rfl, rfl, rfl, rfl, rfl⟩, fun _ => ⟨rfl, rfl, rfl⟩, fun _ => ⟨rfl, rfl⟩, fun _ h => h⟩
theorem Steady.refl (k : Bool) (s : State) : Steady k s s := StepSteady.refl k false s

/-- What looks at no field of `Steady` keeps it. -/
theorem Steady.of_eq {t : State} (h : Steady k b s) (hp : t.pkg = s.pkg) (hi : t.boot.inited = s.boot.inited) (hf : t.wd.fw = s.wd.fw)
    (hs : t.ks.slots = s.ks.slots) : Steady k b t := by
  obtain ⟨h1, h2, h3, -, h5⟩ := h
  unfold slotS at h5
  unfold Steady StepSteady slotS; rw [hp, hi, hf, hs]
  exact ⟨h1, h2, h3, fun h => absurd h Bool.false_ne_true, h5⟩

theorem steady_foldl {α : Type} {f : State → α → State} (hf : ∀ s a, StepSteady k pq b s → StepSteady k pq b (f s a)) (l : List α) (h : StepSteady k pq b s) :
    StepSteady k pq b (l.foldl f s) := by
  induction l generalizing s with
  | nil => exact h
  | cons a l ih => exact ih (hf s a h)

theorem steady_ite {c : Prop} [Decidable c] {x y : State} (hx : StepSteady k pq b x) (hy : StepSteady k pq b y) : StepSteady k pq b (if c then x else y) := by
  split <;> assumption

theorem steady_irq (n : Nat) (h : StepSteady k pq b s) : StepSteady k pq b (irq n s) := h

/-! Keys: a slot is only ever zeroed. -/

theorem slotS_setSlot_zero (i j : Nat) (s : State) : slotS (setSlot i {} s) j = {} ∨ slotS (setSlot i {} s) j = slotS s j := by
  unfold slotS setSlot nth
  by_cases e : i = j
  · subst e
    by_cases g : i < s.ks.slots.length
    · exact .inl (by simp [g])
    · exact .inr (by simp [g])
  · exact .inr (by simp [e])

theorem steady_setSlot (i : Nat) (h : StepSteady k pq b s) : StepSteady k pq b (setSlot i {} s) := by
  obtain ⟨h1, h2, h3, hq, h4⟩ := h
  refine ⟨h1, h2, h3, hq, fun j hj => ?_⟩
  rcases slotS_setSlot_zero i j s with e | e
  · exact e
  · exact e.trans (h4 j hj)

theorem steady_dgEnd (e : Nat) (h : StepSteady k pq b s) : StepSteady k pq b (dgEnd e s) := by
  unfold dgEnd; dsimp only
  split
  · exact steady_irq 6 (s := { setSlot s.dg.dstslot {} s with dg := _ }) (steady_setSlot s.dg.dstslot h)
  · exact h

theorem steady_pkCut (i : Nat) (h : StepSteady k pq b s) : StepSteady k pq b (pkCut i s) := by
  unfold pkCut; split
  · exact steady_ite h h
  · exact h

theorem steady_pkCutAll (h : StepSteady k pq b s) : StepSteady k pq b (pkCutAll s) := steady_ite h h

theorem steady_zeroSlot (i : Nat) (h : StepSteady k pq b s) : StepSteady k pq b (zeroSlot i false s) := by
  unfold zeroSlot; dsimp only
  refine steady_ite h (steady_setSlot i ?_)
  have hc (c : Prop) [Decidable c] : StepSteady k pq b (pkCut i (if c then dgEnd 5 s else s)) := steady_pkCut i (steady_ite (steady_dgEnd 5 h) h)
  exact steady_ite (hc _) (hc _)

theorem steady_zeroSlots (l : List Nat) (h : StepSteady k pq b s) : StepSteady k pq b (zeroSlots l s) := steady_foldl (fun _ a => steady_zeroSlot a) l h

/-! Logs, traces and messages. -/

theorem steady_trace (p u x y : Nat) (h : StepSteady k pq b s) : StepSteady k pq b (trace p u x y s) := by
  obtain ⟨_, e⟩ := trace_frame p u x y s; rw [e]; exact h
theorem steady_logEvent (c u : Nat) (d : Bytes) (h : StepSteady k pq b s) : StepSteady k pq b (logEvent c u d s) := by
  obtain ⟨_, _, _, e⟩ := logEvent_frame c u d s; rw [e]; exact h
theorem steady_sendVec (d v : Nat) (h : StepSteady k pq b s) : StepSteady k pq b (sendVec d v s) := by
  obtain ⟨_, _, e⟩ := sendVec_frame d v s; rw [e]; exact h
theorem steady_setNotice (n : Nat) (h : StepSteady k pq b s) : StepSteady k pq b (setNotice n s) := steady_ite h h
theorem steady_setAlarm (n : Nat) (h : StepSteady k pq b s) : StepSteady k pq b (setAlarm n s) := by
  unfold setAlarm; dsimp only
  refine steady_logEvent _ _ _ (steady_irq 0 (steady_ite ?_ ?_)) <;> exact steady_ite (steady_dgEnd 8 h) h

/-! Responses. -/

theorem steady_mgTransmit (ps : List Bytes) (h : StepSteady k pq b s) : StepSteady k pq b (mgTransmit ps s) := by
  refine steady_foldl (fun s i h => ?_) _ h
  exact h
theorem steady_mgSend (m : Bytes) (h : StepSteady k pq b s) : StepSteady k pq b (mgSend m s) := by
  have ho : StepSteady k pq b (mgOut m { s with mg := { s.mg with busy := false } }) := steady_mgTransmit _ h
  exact steady_ite ho ho
theorem steady_buildRsp (c : HostCall) (op fl st : Nat) (p : Bytes) (h : StepSteady k pq b s) : StepSteady k pq b (buildRsp c op fl st p s) := by
  unfold buildRsp
  refine steady_ite (steady_mgSend _ h) (steady_ite h ?_)
  split <;> exact h
theorem steady_answer (c : HostCall) (op w st d : Nat) (p : Bytes) (h : StepSteady k pq b s) : StepSteady k pq b (answer c op w st d p s) := by
  have hc : StepSteady k pq b (if namesStage op then stageClearFor c s else s) := steady_ite (steady_ite h (steady_ite h h)) h
  unfold answer answerBytes
  exact steady_ite (steady_buildRsp _ _ _ _ _ hc) (steady_buildRsp _ _ _ _ _ hc)

/-! The sequencer and its steps. -/

theorem steady_sqStop {f : Seqr → Seqr} (hf : pq = true → ∀ q, (f q).purpose = q.purpose ∧ (f q).queue = q.queue) (h : StepSteady k pq b s) :
    StepSteady k pq b (sqStop f s) := by
  refine steady_irq 2 (steady_trace _ _ _ _ ?_)
  obtain ⟨h1, h2, h3, hq, h4⟩ := h
  refine ⟨h1, h2, h3, fun e => ?_, h4⟩
  obtain ⟨e1, e2⟩ := hf e { s.sq with busy := false, wait := .none, abortReq := false }
  obtain ⟨g1, g2⟩ := hq e
  exact ⟨e1.trans g1, e2.trans g2⟩
theorem steady_sqError (e : Nat) (h : StepSteady k pq b s) : StepSteady k pq b (sqError e s) := steady_sqStop (fun _ _ => ⟨rfl, rfl⟩) h
theorem steady_sqAdvance (h : StepSteady k pq b s) : StepSteady k pq b (sqAdvance s) :=
  steady_ite (steady_sqStop (fun _ _ => ⟨rfl, rfl⟩) h) (steady_ite (steady_sqError 7 h) h)
theorem steady_kpZero (u i : Nat) (h : StepSteady k pq b s) : StepSteady k pq b (kpZero u i s) := steady_ite h h
theorem steady_kpush (i u n : Nat) (c : Bool) (h : StepSteady k pq b s) : StepSteady k pq b (kpush i u n c s) := by
  unfold kpush; dsimp only; split
  · exact steady_sqError 1 h
  · exact steady_ite (steady_sqError 1 h) (steady_ite (steady_sqError 5 h) (steady_ite
      (steady_sqAdvance (s := kpInstall _ _ _ s) (steady_ite h h)) (steady_sqAdvance (s := { s with sq := _ }) h)))
theorem steady_portsLeave (u : Nat) (h : StepSteady k pq b s) : StepSteady k pq b (portsLeave u s) := by
  refine steady_foldl (fun s p h => steady_ite h ?_) _ h
  exact steady_trace _ _ _ _ (s := modLport _ p LPort.leave s) h
theorem steady_releaseReset (u n : Nat) (h : StepSteady k pq b s) : StepSteady k pq b (releaseReset u n s) := by
  obtain ⟨_, _, e⟩ := releaseReset_frame u n s; rw [e]; exact h
theorem steady_sqReset (u n x : Nat) (h : StepSteady k pq b s) : StepSteady k pq b (sqReset u n x s) := by
  unfold sqReset; dsimp only
  refine steady_ite (steady_sqError 1 h) (steady_ite (steady_ite ?_ ?_) (steady_ite ?_ ?_))
  · exact steady_sqAdvance (s := modUnit _ _ s) h
  · exact steady_sqAdvance (steady_portsLeave u (s := modUnit _ _ s) h)
  · exact steady_sqAdvance (steady_releaseReset u x h)
  · exact steady_sqAdvance (s := assertReset u s) h
theorem steady_sqClock (t n : Nat) (h : StepSteady k pq b s) : StepSteady k pq b (sqClock t n s) :=
  steady_ite (steady_sqError 5 h) (steady_ite (steady_sqAdvance (s := modUnit _ _ { s with wd := _ }) h)
    (steady_ite (steady_sqAdvance h) (steady_sqAdvance (s := modUnit _ _ s) h)))
theorem steady_sqDigest (n : Nat) (e : Bool) (h : StepSteady k pq b s) : StepSteady k pq b (sqDigest n e s) := by
  unfold sqDigest; dsimp only
  refine steady_ite (steady_sqError 6 h) ?_
  split
  · exact steady_sqError 6 h
  · refine steady_ite (steady_sqError 8 (steady_dgEnd 2 h)) (steady_ite (steady_sqError 8 (steady_dgEnd 7 h)) (steady_sqAdvance ?_))
    exact steady_ite (k := k) (b := b) (y := setNotice 11 _) h (steady_setNotice 11 h)
theorem steady_sqStartOp (u r : Nat) (op : UnitOp) (h : StepSteady k pq b s) : StepSteady k pq b (sqStartOp u r op s) := by
  refine steady_ite (steady_sqError 1 h) (steady_ite (steady_sqError 5 h) (steady_ite h ?_))
  unfold sqIssue; dsimp only
  refine steady_sqAdvance (s := modUnit u _ _) ?_
  cases op with
  | clear => exact h
  | verify => dsimp only; split <;> exact h
theorem steady_sqKszero (l : List Nat) (h : StepSteady k pq b s) : StepSteady k pq b (sqKszero l [] s) := by
  unfold sqKszero
  simp only [List.not_mem_nil, decide_false, Bool.false_and, List.filter_false, List.isEmpty_nil, if_true]
  exact steady_zeroSlots l (steady_ite (steady_pkCutAll h) h)

theorem driveRail_frame (r : Nat) (on : Bool) (s : State) :
    ∃ a b c, driveRail r on s = { s with pkg := { s.pkg with portEn := a, tileEn := b, memEn := c } } := by
  unfold driveRail; dsimp only
  split
  · exact ⟨on, s.pkg.tileEn, s.pkg.memEn, rfl⟩
  · split
    · exact ⟨s.pkg.portEn, _, s.pkg.memEn, rfl⟩
    · exact ⟨s.pkg.portEn, s.pkg.tileEn, _, rfl⟩

/-- A step that takes nothing from outside leaves the package steady, the rail enables too unless it is a RAIL step. -/
theorem steady_stepEffect {w : Step64} {x : StepIn} (hb : x.bad = []) (hw : k = true → stepOp w ≠ 0x42) (h : StepSteady k pq b s) :
    StepSteady k pq b (stepEffect w x s) := by
  unfold stepEffect; dsimp only
  split
  · exact steady_sqAdvance h
  · exact steady_sqStop (fun _ _ => ⟨rfl, rfl⟩) h
  · exact steady_ite (steady_ite (steady_sqError 2 h) (steady_sqAdvance (s := { s with sq := _ }) h)) (steady_sqAdvance h)
  · exact h
  · exact steady_sqAdvance (s := { s with sq := _ }) h
  · exact steady_sqAdvance (s := { s with sq := _ }) h
  · exact steady_sqAdvance (s := irq 2 { s with sq := _ }) h
  · exact steady_ite h (steady_sqAdvance h)
  · exact steady_sqStartOp _ _ _ h
  · exact steady_sqStartOp _ _ _ h
  · exact steady_kpush _ _ _ _ h
  · exact steady_ite (steady_sqError 1 h) (steady_ite (steady_sqError 5 h) (steady_sqAdvance (steady_kpZero _ _ h)))
  · rw [hb]; exact steady_sqAdvance (steady_sqKszero _ h)
  · exact steady_sqDigest _ _ h
  · exact steady_sqReset _ _ _ h
  · exact steady_sqClock _ _ h
  · rename_i hop
    have hk : k = false := by
      cases k with
      | false => rfl
      | true => exact absurd hop (hw rfl)
    subst hk
    have hd : ∀ r o, StepSteady false pq b (driveRail r o s) := by
      intro r o
      obtain ⟨h1, h2, -, h4⟩ := h
      obtain ⟨_, _, _, e⟩ := driveRail_frame r o s
      rw [e]; exact ⟨h1, h2, fun hk => absurd hk Bool.false_ne_true, h4⟩
    exact steady_ite (steady_sqAdvance (hd _ _)) (hd _ _)
  · exact steady_sqError 1 h


/-! Firmware's own tables. -/

/-- The opcode of a step word whose fields fit their bits. -/
theorem stepOp_mkStep {op x y z : Nat} (h0 : op < 256) (h1 : x < 256) (h2 : y < 256) (h3 : z < 2 ^ 40) : stepOp (mkStep op x y z) = op := by
  unfold stepOp mkStep; rw [BitVec.toNat_ofNat]; omega

/-- A key port stands on a TILE or PORT unit, at an index of Table 5-5. -/
theorem keyPort_bound {u i : Nat} (h : (keyPort s u i).isSome = true) : u < 18 ∧ i < 256 := by
  unfold keyPort at h
  constructor
  · by_contra hu
    have : unitType s u = .blank := by unfold unitType; rw [if_neg (by omega), if_pos (by omega)]
    rw [this] at h; simp at h
  · by_contra hi
    split at h
    · rw [if_neg (by simp; omega), if_neg (by simp; omega)] at h; simp at h
    · rw [if_neg (by omega), if_neg (by omega), if_neg (by simp; omega)] at h; simp at h
    · simp at h

theorem steady_sqStart (q : SqPurpose) (h : Steady k b s) : Steady k b (sqStart q s) :=
  steady_ite (Steady.of_eq h rfl rfl rfl rfl) (steady_trace _ _ _ _ (Steady.of_eq h rfl rfl rfl rfl))

theorem steady_runSteps {fall : Nat → State → State} (hf : ∀ r s, Steady k b s → Steady k b (fall r s)) {t : List Step64}
    (ht : k = true → ∀ w ∈ t, stepOp w ≠ 0x42) (h : Steady k b s) : Steady k b (runSteps fall t s) := by
  unfold runSteps
  induction t generalizing s with
  | nil => exact h
  | cons w t ih =>
    refine ih (fun hk v hv => ht hk v (List.mem_cons_of_mem _ hv)) ?_
    refine steady_ite h ?_
    have he := steady_stepEffect (x := quietStep) (w := w) rfl (fun hk => ht hk w (List.mem_cons_self ..)) (s := sqPast s) h
    dsimp only
    split
    · exact steady_sqAdvance (hf _ _ he)
    · exact he

theorem steady_fwRun {fall : Nat → State → State} (hf : ∀ r s, Steady k b s → Steady k b (fall r s)) {t : List Step64}
    (ht : k = true → ∀ w ∈ t, stepOp w ≠ 0x42) (h : Steady k b s) : Steady k b (fwRun fall t s) := by
  have hr := steady_runSteps hf ht (steady_sqStart .user (s := fwReady t s) h)
  exact steady_ite (Steady.of_eq hr rfl rfl rfl rfl) hr

theorem steady_fwDo {t : List Step64} (ht : ∀ w ∈ t, stepOp w ≠ 0x42) (h : Steady k b s) : Steady k b (fwDo t s) :=
  steady_fwRun (fun _ _ h => h) (fun _ => ht) h

theorem steady_fwKpzero (u i : Nat) (h : Steady k b s) : Steady k b (fwKpzero u i s) := by
  unfold fwKpzero; split
  · rename_i hc
    simp only [Bool.and_eq_true] at hc
    obtain ⟨hu, hi⟩ := keyPort_bound hc.1.2
    refine steady_fwDo ?_ h
    have hop : stepOp (mkStep 0x21 0 u i) = 0x21 := stepOp_mkStep (by omega) (by omega) (by omega) (by omega)
    simp only [List.mem_cons, List.not_mem_nil, or_false, forall_eq_or_imp, forall_eq, hop]
    decide
  · exact steady_kpZero _ _ h

theorem steady_fwKpzeroAll (h : Steady k b s) : Steady k b (fwKpzeroAll s) :=
  steady_foldl (fun _ u h => steady_foldl (fun _ _ h => steady_fwKpzero u _ h) _ h) _ h

theorem steady_fwKszero {a n : Nat} (hn : a + n ≤ 64) (h : Steady k b s) : Steady k b (fwKszero a n s) := by
  refine steady_fwDo (fun w hw => ?_) h
  rcases List.mem_append.1 hw with hw | hw
  · obtain ⟨i, hi, rfl⟩ := List.mem_map.1 hw
    rw [List.mem_range] at hi
    rw [stepOp_mkStep (by omega) (by omega) (by omega) (by omega)]; decide
  · rw [List.mem_singleton.1 hw]; decide

theorem steady_fwAbort (h : Steady k b s) : Steady k b (fwAbort s) := steady_ite (steady_sqStop (fun h => absurd h Bool.false_ne_true) h) (Steady.of_eq h rfl rfl rfl rfl)

/-! Jobs, link entries, apertures and sessions. -/

theorem steady_modRec (i : Nat) (f : TRec → TRec) (h : Steady k b s) : Steady k b (modRec i f s) := h
theorem steady_recQueue (i : Nat) (h : Steady k b s) : Steady k b (recQueue i s) := by
  unfold recQueue; split <;> exact h
theorem steady_lkeEnd (n : Nat) (h : Steady k b s) : Steady k b (lkeEnd n s) := by
  refine steady_foldl (fun s d h => ?_) _ h
  exact steady_fwKpzero (unitOfOrd s d) (0x80 + n) h
theorem steady_lkeJobEnd (j : Nat) (h : Steady k b s) : Steady k b (lkeJobEnd j s) :=
  steady_foldl (fun _ _ h => steady_lkeEnd _ h) _ h
theorem steady_perfAdd (x y n : Nat) (h : Steady k b s) : Steady k b (perfAdd x y n s) := steady_ite h h
theorem steady_outRec (d a i : Nat) (x : Bytes) (h : Steady k b s) : Steady k b (outRec d a i x s).1 := by
  unfold outRec; dsimp only; split
  · exact h
  · split
    · exact h
    · split
      · exact h
      · exact steady_perfAdd 0 4 x.length (s := setRecSt _ _ _ s) h
theorem steady_ringWrite {a : Ast} {n : Nat} {r : Bytes} {t : State} (e : ringWrite a n r s = some t) (h : Steady k b s) : Steady k b t := by
  unfold ringWrite at e; dsimp only at e
  split at e
  · split at e
    · cases e
    · split at e
      · cases e; exact steady_outRec _ _ _ _ h
      · cases e
  · cases e; exact h
theorem steady_jobVector (j v : Nat) (h : Steady k b s) : Steady k b (jobVector j v s) := by
  refine steady_ite h ?_
  split
  · exact steady_sendVec _ _ h
  · exact h
theorem steady_ringFlushN (tag n : Nat) (h : Steady k b s) : Steady k b (ringFlushN tag n s) := by
  induction n generalizing s with
  | zero => exact h
  | succ n ih =>
    unfold ringFlushN; split
    · exact h
    · split
      · exact h
      · split
        · exact h
        · split
          · exact h
          · rename_i s1 e
            have hw := steady_ringWrite e h
            exact ih (steady_jobVector _ _ (s := modAst tag _ s1) hw)
theorem steady_postCompletion (j : Nat) (h : Steady k b s) : Steady k b (postCompletion j s) := by
  unfold postCompletion; split
  · exact h
  · split
    · exact h
    · refine steady_ite (steady_jobVector _ _ h) (steady_ite h ?_)
      split
      · exact steady_ringFlushN _ _ h
      · exact h
theorem steady_jobEnd (st : JState) (x y j : Nat) (h : Steady k b s) : Steady k b (jobEnd st x y j s) := by
  unfold jobEnd; split
  · exact h
  · refine steady_ite h ?_
    extract_lets s1 rc jb s2 idn s3 s4
    have h2 : Steady k b s2 := h
    have h3 : Steady k b s3 := steady_ite (steady_perfAdd 0 0 1 (s := { s2 with idn := _ }) h2) (steady_ite (steady_perfAdd 0 1 1 h2) h2)
    have h4 : Steady k b s4 := steady_ite (steady_lkeJobEnd j h3) h3
    exact steady_postCompletion _ (steady_trace _ _ _ _ h4)
theorem steady_jobsEnd (st : JState) (x y : Nat) (l : List Nat) (h : Steady k b s) : Steady k b (jobsEnd st x y l s) :=
  steady_foldl (fun _ j h => steady_jobEnd st x y j h) l h
theorem steady_apClose (d a : Nat) (h : Steady k b s) : Steady k b (apClose d a s) := by
  unfold apClose
  extract_lets js s1 s2
  have h1 : Steady k b s1 := steady_fwKpzero _ _ h
  exact steady_jobsEnd _ _ _ js (s := modPx d _ s2) h1
theorem steady_apEnd (d a : Nat) (h : Steady k b s) : Steady k b (apEnd d a s) := steady_ite h (steady_ite h (steady_apClose d a h))
theorem steady_apEndDie (d : Nat) (h : Steady k b s) : Steady k b (apEndDie d s) :=
  steady_foldl (fun _ a h => steady_ite h (steady_apEnd d a h)) _ h
theorem steady_apEndAll (h : Steady k b s) : Steady k b (apEndAll s) := steady_foldl (fun _ d h => steady_apEndDie d h) _ h
theorem steady_apCloseAll (h : Steady k b s) : Steady k b (apCloseAll s) :=
  steady_foldl (fun _ d h => steady_foldl (fun _ a h => steady_ite (steady_apClose d a h) h) _ h) _ h
theorem steady_sessEnd (h : Steady k b s) : Steady k b (sessEnd s) := by
  unfold sessEnd; split
  · exact h
  · exact steady_apEndAll (steady_zeroSlot 8 (s := { s with sd := _ }) h)
theorem steady_linkEndAll (h : Steady k b s) : Steady k b (linkEndAll s) :=
  steady_foldl (fun _ n h => steady_lkeEnd n h) _ (steady_zeroSlots _ h)
theorem steady_abandonBatches (h : Steady k b s) : Steady k b (abandonBatches s) := by
  unfold abandonBatches
  extract_lets log s1 s2 s3
  have hl (n r : Nat) {s : State} (h : Steady k b s) : Steady k b (log n r s) := steady_logEvent _ _ _ h
  have h1 : Steady k b s1 := by unfold s1; split; exacts [hl _ _ h, h]
  have h2 : Steady k b s2 := by unfold s2; split; exacts [hl _ _ h1, h1]
  have h3 : Steady k b s3 := by unfold s3; split; exacts [hl _ _ h2, h2]
  exact h3
theorem steady_loadEnd (st d f : Nat) (h : Steady k b s) : Steady k b (loadEnd st d f s) := by
  unfold loadEnd; split
  · exact h
  · exact steady_answer _ _ _ _ _ _ (s := { s with wk := _ }) h

/-! The package's large transitions. -/

theorem steady_failWaiting (st d : Nat) (h : Steady k b s) : Steady k b (failWaiting st d s) := by
  unfold failWaiting
  extract_lets ans s1 s2 jb s3 s4 s5
  have ha (op : Nat) (c : HostCall) (w : Nat) {s : State} (h : Steady k b s) : Steady k b (ans op c w s) := steady_answer _ _ _ _ _ _ h
  have h1 : Steady k b s1 := by
    refine steady_foldl (fun s w h => ?_) _ (s := { s with uw := _ }) h
    split; exacts [ha _ _ _ h, h]
  have h2 : Steady k b s2 := by
    refine steady_foldl (fun s w h => ?_) _ h1
    split; exacts [ha _ _ _ (s := { s with jb := _ }) h, ha _ _ _ h, ha _ _ _ h, h, h]
  have h3 : Steady k b s3 := steady_foldl (fun s _ h => ha _ _ _ h) _ (s := { s2 with jb := _ }) h2
  have h4 : Steady k b s4 := steady_loadEnd _ _ _ h3
  have h5 : Steady k b s5 := by
    refine steady_foldl (fun s i h => ?_) _ h4
    split; exacts [steady_ite (ha _ _ _ h) (ha _ _ _ h), h]
  exact h5
theorem steady_unitsOff (p : Nat → Bool) (h : Steady k b s) : Steady k b (unitsOff p s) := by
  refine steady_foldl (fun s u h => steady_ite ?_ h) _ h
  refine Steady.of_eq (s := assertReset u s) h ?_ ?_ ?_ ?_ <;> simp
theorem steady_mcOff (h : Steady k b s) : Steady k b (mcOff s) := by
  refine steady_foldl (fun s t h => ?_) _ (s := { s with jb := _ }) h
  exact h
theorem steady_tilesOff (h : Steady k b s) : Steady k b (tilesOff s) := by
  have hu := steady_unitsOff (fun u => decide (u < 8)) h
  unfold tilesOff
  generalize unitsOff _ s = t at hu ⊢
  exact hu
theorem steady_primaryEnd (h : Steady k b s) : Steady k b (primaryEnd s) := steady_sessEnd h
theorem steady_portsOff (h : Steady k b s) : Steady k b (portsOff s) := by
  have hu := steady_unitsOff (fun u => decide (8 ≤ u)) h
  unfold portsOff
  generalize unitsOff _ s = t at hu ⊢
  exact steady_primaryEnd hu
theorem steady_railFall (r : Nat) (h : Steady k b s) : Steady k b (railFall r s) := by
  refine steady_ite (steady_portsOff h) (steady_ite (steady_mcOff (steady_tilesOff ?_)) (steady_mcOff ?_)) <;> exact h
theorem steady_dropTileMem (h : Steady false b s) : Steady false b (dropTileMem s) :=
  steady_fwRun (fun r _ => steady_railFall r) (fun hk => absurd hk Bool.false_ne_true) h
theorem steady_dropPort (h : Steady false b s) : Steady false b (dropPort s) :=
  steady_fwRun (fun r _ => steady_railFall r) (fun hk => absurd hk Bool.false_ne_true) h
theorem steady_clearPortBufs (h : Steady k b s) : Steady k b (clearPortBufs s) := h
theorem steady_workGone (h : Steady k b s) : Steady k b (workGone s) := Steady.of_eq h rfl rfl rfl rfl
/-- The rails of QUARANTINE go down and the clear is no longer pending. -/
theorem steady_quarRails (s : State) : Steady false { s with pkg := { s.pkg with quarClr := false } } (quarRails s) := by
  have hc := steady_clearPortBufs (steady_dropTileMem (Steady.refl false { s with pkg := { s.pkg with quarClr := false } }))
  exact steady_ite hc (steady_dropPort hc)
theorem steady_logFlush (h : Steady k b s) : Steady k b (logFlush s) := steady_ite h h
theorem steady_revertDue (h : Steady k b s) : Steady k b (revertDue s) := steady_ite h h
theorem steady_noSession (h : Steady k b s) : Steady k b { s with sd := { s.sd with sess := none, kgens := [] } } := h
theorem steady_quarStop (h : Steady k b s) : Steady k b (quarStop s) := by
  have h1 := steady_fwKszero (a := 8) (n := 48) (by omega)
    (steady_abandonBatches (steady_failWaiting stBadState 0 (steady_fwAbort (s := stopTiles s) h)))
  exact steady_jobsEnd _ _ _ _ (steady_linkEndAll (steady_apCloseAll (steady_noSession h1)))
theorem steady_quarHalt (h : Steady k b s) : Steady k b (quarHalt s) := by
  have h1 := steady_fwKpzeroAll (steady_quarStop h)
  unfold quarHalt
  generalize fwKpzeroAll _ = t at h1 ⊢
  refine steady_workGone ?_
  split <;> exact h1
theorem steady_mainStop (h : Steady k b s) : Steady k b (mainStop s) :=
by
  have h1 := steady_linkEndAll (steady_apCloseAll (steady_sessEnd (steady_failWaiting stBadState 0 h)))
  unfold mainStop
  generalize linkEndAll _ = t at h1 ⊢
  exact h1

end

/-! ## The rails drop and the keys go by firmware's own tables -/

/-- The tables of firmware that stand before those of the units, whatever the assembly. -/
noncomputable def fwFixed : List (List Step64) :=
  [clearTable, portUpTable, tileUpTable, memUpTable, p0UpTable, mainOffTable, portOffTable, keyTable 8 48, keyTable 16 40, digestTable 65536]

theorem tableIx_append {t : List Step64} {l r : List (List Step64)} {n : Nat} (h : tableIx t l = some n) : tableIx t (l ++ r) = some n := by
  induction l generalizing n with
  | nil => cases h
  | cons x l ih =>
    simp only [tableIx, List.cons_append] at h ⊢
    split at h
    · rw [if_pos ‹_›]; exact h
    · rw [if_neg ‹_›]
      obtain ⟨m, hm, e⟩ := Option.map_eq_some_iff.1 h
      rw [ih hm, ← e]; rfl

/-- A table that stands before the units' tables has its index whatever the state. -/
theorem fwEntry_fixed {t : List Step64} {n : Nat} (h : tableIx t fwFixed = some n) (s : State) : fwEntry t s = n := by
  unfold fwEntry
  have e : tableIx t (fwTables s) = some n := by
    unfold fwTables; rw [List.append_assoc, List.append_assoc]; exact tableIx_append h
  rw [e]; rfl

theorem stepA_mkStep {op x y z : Nat} (h1 : x < 256) (h2 : y < 256) (h3 : z < 2 ^ 40) : stepA (mkStep op x y z) = x := by
  unfold stepA mkStep bits; rw [BitVec.toNat_ofNat]; omega
theorem stepB_mkStep {op x y z : Nat} (h2 : y < 256) (h3 : z < 2 ^ 40) : stepB (mkStep op x y z) = y := by
  unfold stepB mkStep bits; rw [BitVec.toNat_ofNat]; omega

/-- The sequencer runs, with no abort asked, and its next index is `n`. -/
def SeqAt (n : Nat) (s : State) : Prop := s.sq.busy = true ∧ s.sq.abortReq = false ∧ s.sq.nextIx = n

theorem seqAt_start (t : List Step64) (s : State) : SeqAt (fwEntry t s) (sqStart .user (fwReady t s)) := by
  unfold sqStart; rw [if_neg (by simp [fwReady])]
  obtain ⟨_, e⟩ := trace_frame 7 0xFF (fwReady t s).sq.entry 0 _
  rw [e]; exact ⟨rfl, rfl, rfl⟩

theorem start_pkg (t : List Step64) (s : State) : (sqStart .user (fwReady t s)).pkg = s.pkg := by
  unfold sqStart; rw [if_neg (by simp [fwReady])]
  obtain ⟨_, e⟩ := trace_frame 7 0xFF (fwReady t s).sq.entry 0 _
  rw [e]; rfl

theorem fwRun_pkg (fall : Nat → State → State) (t : List Step64) (s : State) :
    (fwRun fall t s).pkg = (runSteps fall t (sqStart .user (fwReady t s))).pkg := by
  unfold fwRun; dsimp only; split <;> rfl

theorem runSteps_cons (fall : Nat → State → State) (w : Step64) (t : List Step64) (s : State) :
    runSteps fall (w :: t) s = runSteps fall t (runSteps fall [w] s) := rfl

theorem runSteps_one {fall : Nat → State → State} {w : Step64} {s : State} (h : s.sq.busy = true) : runSteps fall [w] s =
    match (stepEffect w quietStep (sqPast s)).sq.wait with
    | .rail r false => sqAdvance (fall r (stepEffect w quietStep (sqPast s)))
    | _ => stepEffect w quietStep (sqPast s) := by
  unfold runSteps; rw [List.foldl_cons, List.foldl_nil, if_neg (by simp [h])]; rfl

/-- What RAIL off does, power-good falling at once where it still stood. -/
theorem runSteps_railOff {fall : Nat → State → State} {r : Nat} (hr : r < 3) {s : State} (hb : s.sq.busy = true) (ha : s.sq.abortReq = false)
    (hn : s.sq.nextIx + 1 < Config.kSteps) : runSteps fall [railStep r false] s =
      if railPg s r = false then { driveRail r false (sqPast s) with sq := { (sqPast s).sq with wait := .none } }
      else sqAdvance (fall r { driveRail r false (sqPast s) with sq := { (sqPast s).sq with wait := .rail r false } }) := by
  have hop : stepOp (railStep r false) = 0x42 := stepOp_mkStep (by omega) (by omega) (by decide) (by omega)
  have hA : stepA (railStep r false) = r := stepA_mkStep (by omega) (by decide) (by omega)
  have hB : stepB (railStep r false) = 0 := stepB_mkStep (by decide) (by omega)
  have hpg : railPg (driveRail r false (sqPast s)) r = railPg s r := by
    unfold railPg driveRail; dsimp only [sqPast]; split
    · rfl
    · split <;> rfl
  have he : stepEffect (railStep r false) quietStep (sqPast s) = if railPg s r = false then sqAdvance (driveRail r false (sqPast s))
      else { driveRail r false (sqPast s) with sq := { (sqPast s).sq with wait := .rail r false } } := by
    unfold stepEffect; rw [hop, hA, hB]; dsimp only
    simp only [show ((0 : Nat) == 1) = false from rfl, hpg, beq_iff_eq]; rfl
  have hadv : sqAdvance (driveRail r false (sqPast s)) = { driveRail r false (sqPast s) with sq := { (sqPast s).sq with wait := .none } } :=
    sqAdvance_on (s := driveRail r false (sqPast s)) ha hn
  rw [runSteps_one hb, he, hadv]
  by_cases hp : railPg s r = false
  · rw [if_pos hp, if_pos hp]
  · rw [if_neg hp, if_neg hp]

theorem unitsOff_sq (p : Nat → Bool) (s : State) : (unitsOff p s).sq = s.sq := by
  unfold unitsOff
  generalize List.range 18 = l
  induction l generalizing s with
  | nil => rfl
  | cons u l ih => rw [List.foldl_cons, ih]; split <;> simp [assertReset]
theorem mcOff_sq (s : State) : (mcOff s).sq = s.sq := by
  unfold mcOff
  exact List.foldlRecOn (motive := fun t : State => t.sq = s.sq) _ _ rfl (fun _ h _ _ => h)
theorem tilesOff_sq (s : State) : (tilesOff s).sq = s.sq := by
  have h := unitsOff_sq (fun u => decide (u < 8)) s
  unfold tilesOff
  generalize unitsOff _ s = t at h ⊢
  exact h
/-- The fall of the tile or the memory rail leaves the sequencer: its key ports go with the power. -/
theorem railFall_sq {r : Nat} (h : r ≠ 0) (s : State) : (railFall r s).sq = s.sq := by
  unfold railFall; rw [if_neg h]; split
  · rw [mcOff_sq, tilesOff_sq]
  · rw [mcOff_sq]

/-- RAIL off and the fall it brings change the enables as the step says. -/
theorem steady_runSteps_railOff {r n : Nat} (hr : r < 3) {s : State} (h : SeqAt n s) (hn : n + 1 < Config.kSteps) :
    Steady true (driveRail r false (sqPast s)) (runSteps railFall [railStep r false] s) := by
  obtain ⟨hb, ha, hi⟩ := h
  rw [runSteps_railOff hr hb ha (by rw [hi]; exact hn)]
  exact steady_ite (Steady.refl _ _) (steady_sqAdvance (steady_railFall r (Steady.refl _ _)))

theorem seqAt_runSteps_railOff {r n : Nat} (hr : r < 3) (h0 : r ≠ 0) {s : State} (h : SeqAt n s) (hn : n + 1 < Config.kSteps) :
    SeqAt (n + 1) (runSteps railFall [railStep r false] s) := by
  obtain ⟨hb, ha, hi⟩ := h
  rw [runSteps_railOff hr hb ha (by rw [hi]; exact hn)]
  split
  · exact ⟨hb, ha, congrArg (· + 1) hi⟩
  · have hq := railFall_sq h0 { driveRail r false (sqPast s) with sq := { (sqPast s).sq with wait := .rail r false } }
    rw [sqAdvance_on (by rw [hq]; exact ha) (by rw [hq]; show s.sq.nextIx + 1 < _; omega)]
    unfold SeqAt; dsimp only; rw [hq]
    exact ⟨hb, ha, congrArg (· + 1) hi⟩

theorem steady_runSteps_end {k : Bool} {b s : State} {fall : Nat → State → State} (hf : ∀ r s, Steady k b s → Steady k b (fall r s))
    (h : Steady k b s) : Steady k b (runSteps fall [endStep] s) :=
  steady_runSteps hf (fun _ w hw => by rw [List.mem_singleton.1 hw]; decide) h

/-- After the table of R47 step 4 the tile and memory rails are off, and the port rail is as it was. -/
theorem dropTileMem_rails (s : State) :
    (dropTileMem s).pkg.tileEn = false ∧ (dropTileMem s).pkg.memEn = false ∧ (dropTileMem s).pkg.portEn = s.pkg.portEn := by
  have hs := seqAt_start mainOffTable s
  rw [fwEntry_fixed (n := 71) (by decide)] at hs
  unfold dropTileMem; rw [fwRun_pkg, ← start_pkg mainOffTable s]
  generalize sqStart .user (fwReady mainOffTable s) = s0 at hs ⊢
  obtain ⟨-, -, h1, -⟩ := steady_runSteps_railOff (r := 2) (by decide) hs (by decide)
  have hs1 := seqAt_runSteps_railOff (r := 2) (by decide) (by decide) hs (by decide)
  unfold mainOffTable
  rw [runSteps_cons, runSteps_cons]
  generalize runSteps railFall [railStep 2 false] s0 = s1 at h1 hs1 ⊢
  have h2 := steady_runSteps_end (fun r _ => steady_railFall r) (steady_runSteps_railOff (r := 1) (by decide) hs1 (by decide))
  obtain ⟨-, -, h2, -⟩ := h2
  obtain ⟨hp2, ht2, hm2⟩ := h2 rfl
  obtain ⟨hp1, ht1, hm1⟩ := h1 rfl
  exact ⟨ht2.trans rfl, hm2.trans (hm1.trans rfl), hp2.trans (hp1.trans rfl)⟩

/-- After the port rail's table the port rail is off, and the others are as they were. -/
theorem dropPort_rails (s : State) :
    (dropPort s).pkg.portEn = false ∧ (dropPort s).pkg.tileEn = s.pkg.tileEn ∧ (dropPort s).pkg.memEn = s.pkg.memEn := by
  have hs := seqAt_start portOffTable s
  rw [fwEntry_fixed (n := 74) (by decide)] at hs
  unfold dropPort; rw [fwRun_pkg, ← start_pkg portOffTable s]
  generalize sqStart .user (fwReady portOffTable s) = s0 at hs ⊢
  obtain ⟨-, -, h1, -⟩ := steady_runSteps_end (fun r _ => steady_railFall r) (steady_runSteps_railOff (r := 0) (by decide) hs (by decide))
  exact h1 rfl

/-- QUARANTINE's rails: tiles and memory off, the port rail up only if P0 is healthy (R47 steps 4 and 5). -/
theorem quarRails_rails (s : State) : (quarRails s).pkg.tileEn = false ∧ (quarRails s).pkg.memEn = false
    ∧ (quarRails s).pkg.portEn = (s.pkg.portEn && p0Healthy s) := by
  obtain ⟨ht, hm, hp⟩ := dropTileMem_rails { s with pkg := { s.pkg with quarClr := false } }
  have hst := steady_dropTileMem (Steady.refl false { s with pkg := { s.pkg with quarClr := false } })
  obtain ⟨-, ⟨hf, hb, -⟩, -, -⟩ := hst
  have hh : p0Healthy (clearPortBufs (dropTileMem { s with pkg := { s.pkg with quarClr := false } })) = p0Healthy s := by
    unfold p0Healthy clearPortBufs; rw [hf, hb]
  unfold quarRails; dsimp only; rw [hh]
  cases p0Healthy s with
  | true => exact ⟨ht, hm, by rw [Bool.and_true]; exact hp⟩
  | false =>
    obtain ⟨hp', ht', hm'⟩ := dropPort_rails (clearPortBufs (dropTileMem { s with pkg := { s.pkg with quarClr := false } }))
    exact ⟨ht'.trans ht, hm'.trans hm, by rw [Bool.and_false]; exact hp'⟩

/-! ## Keys destroyed by a table of KSZERO steps -/

/-- From `s` to `t` some slots became zero; the others are as they were. -/
def OnlyZeroed (s t : State) : Prop := t.ks.slots.length = s.ks.slots.length ∧ ∀ j, slotS t j = {} ∨ slotS t j = slotS s j

theorem OnlyZeroed.refl (s : State) : OnlyZeroed s s := ⟨rfl, fun _ => .inr rfl⟩
theorem OnlyZeroed.trans {s t u : State} (h : OnlyZeroed s t) (g : OnlyZeroed t u) : OnlyZeroed s u := by
  refine ⟨g.1.trans h.1, fun j => ?_⟩
  rcases g.2 j with e | e
  · exact .inl e
  · rcases h.2 j with e' | e'
    · exact .inl (e.trans e')
    · exact .inr (e.trans e')

theorem onlyZeroed_setSlot (i : Nat) (s : State) : OnlyZeroed s (setSlot i {} s) := ⟨by simp [setSlot], fun j => slotS_setSlot_zero i j s⟩

theorem onlyZeroed_dgEnd (e : Nat) (s : State) : OnlyZeroed s (dgEnd e s) := by
  unfold dgEnd; dsimp only; split
  · exact onlyZeroed_setSlot s.dg.dstslot s
  · exact OnlyZeroed.refl s

theorem dgEnd_sq (e : Nat) (s : State) : (dgEnd e s).sq = s.sq := by unfold dgEnd; dsimp only; split <;> rfl
theorem pkCut_sq (i : Nat) (s : State) : (pkCut i s).sq = s.sq := by unfold pkCut; split; split; all_goals rfl
theorem pkCut_ks (i : Nat) (s : State) : (pkCut i s).ks = s.ks := by unfold pkCut; split; split; all_goals rfl

theorem zeroSlot_sq (i : Nat) (b : Bool) (s : State) : (zeroSlot i b s).sq = s.sq := by
  unfold zeroSlot; split
  · rfl
  · have h (t : State) (ht : t.sq = s.sq) :
        (setSlot i { dead := b } (if t.ks.drbgOk then { t with draws := t.draws + 1 } else { t with ks := { t.ks with patfb := true } })).sq = s.sq := by
      split <;> exact ht
    refine h _ ((pkCut_sq _ _).trans ?_)
    split
    · exact dgEnd_sq _ _
    · rfl

/-- ZERO of a live slot writes it, after cutting the message and the job that use it. -/
theorem zeroSlot_slots {i : Nat} {s : State} (hd : (slotS s i).dead = false) :
    ∃ e, OnlyZeroed s e ∧ (zeroSlot i false s).ks.slots = e.ks.slots.set i {} := by
  have key (e : State) (he : OnlyZeroed s e) : ∃ e', OnlyZeroed s e' ∧ (setSlot i {} (if (pkCut i e).ks.drbgOk then
      { pkCut i e with draws := (pkCut i e).draws + 1 } else { pkCut i e with ks := { (pkCut i e).ks with patfb := true } })).ks.slots
        = e'.ks.slots.set i {} := ⟨e, he, by split <;> simp [setSlot, pkCut_ks]⟩
  unfold zeroSlot; rw [if_neg (by simp [hd])]
  refine key _ ?_
  split
  · exact onlyZeroed_dgEnd 5 s
  · exact OnlyZeroed.refl s

/-- ZERO of a slot whose read-back is zero: a live slot is zero, and no other slot changes but one that a cut message was filling (R125). -/
theorem zeroSlot_zeroes (i : Nat) (s : State) :
    OnlyZeroed s (zeroSlot i false s) ∧ (i < s.ks.slots.length → (slotS s i).dead = false → slotS (zeroSlot i false s) i = {}) := by
  cases hd : (slotS s i).dead with
  | true =>
    have e : zeroSlot i false s = s := if_pos hd
    rw [e]; exact ⟨OnlyZeroed.refl s, fun _ h => absurd h (by simp)⟩
  | false =>
    obtain ⟨e, he, hs⟩ := zeroSlot_slots hd
    have hz : OnlyZeroed e (zeroSlot i false s) :=
      ⟨by rw [hs]; simp, fun j => by rw [slotS, hs]; exact slotS_setSlot_zero i j e⟩
    exact ⟨he.trans hz, fun hi _ => by rw [← he.1] at hi; simp [slotS, hs, nth, hi]⟩

/-- One KSZERO step of a table. -/
theorem runSteps_kszero {fall : Nat → State → State} {i n : Nat} (hi : i < 0xFF) {s : State} (h : SeqAt n s) (hn : n + 1 < Config.kSteps) :
    SeqAt (n + 1) (runSteps fall [mkStep 0x22 i 0 0] s) ∧ OnlyZeroed s (runSteps fall [mkStep 0x22 i 0 0] s)
      ∧ (i < s.ks.slots.length → (slotS s i).dead = false → slotS (runSteps fall [mkStep 0x22 i 0 0] s) i = {}) := by
  obtain ⟨hb, ha, hx⟩ := h
  have hop : stepOp (mkStep 0x22 i 0 0) = 0x22 := stepOp_mkStep (by omega) (by omega) (by decide) (by omega)
  have hA : stepA (mkStep 0x22 i 0 0) = i := stepA_mkStep (by omega) (by decide) (by omega)
  have he : stepEffect (mkStep 0x22 i 0 0) quietStep (sqPast s) = sqAdvance (sqKszero [i] [] (sqPast s)) := by
    unfold stepEffect; rw [hop, hA]; simp only [quietStep]; rw [if_neg (show ¬ i = 0xFF by omega)]
  have hz : sqKszero [i] [] (sqPast s) = irq 7 { zeroSlot i false (sqPast s) with ks := { (zeroSlot i false (sqPast s)).ks with done := true, ecode := 0 } } := by
    simp [sqKszero]
  have hq := zeroSlot_sq i false (sqPast s)
  have hadv : sqAdvance (sqKszero [i] [] (sqPast s)) =
      { sqKszero [i] [] (sqPast s) with sq := { (sqPast s).sq with wait := .none } } := by
    rw [hz, ← hq]
    exact sqAdvance_on (by show (zeroSlot i false (sqPast s)).sq.abortReq = false; rw [hq]; exact ha)
      (by show (zeroSlot i false (sqPast s)).sq.nextIx < _; rw [hq]; show s.sq.nextIx + 1 < _; omega)
  have hr : runSteps fall [mkStep 0x22 i 0 0] s = { sqKszero [i] [] (sqPast s) with sq := { (sqPast s).sq with wait := .none } } := by
    rw [runSteps_one hb, he, hadv]
  rw [hr, hz]
  exact ⟨⟨hb, ha, congrArg (· + 1) hx⟩, zeroSlot_zeroes i (sqPast s)⟩

/-- A run of KSZERO steps: each live slot it names is zero at its end. -/
theorem runSteps_kszeros {fall : Nat → State → State} {l : List Nat} (hl : ∀ i ∈ l, i < 0xFF) {n : Nat} {s : State} (h : SeqAt n s)
    (hn : n + l.length < Config.kSteps) :
    OnlyZeroed s (runSteps fall (l.map (fun i => mkStep 0x22 i 0 0)) s)
      ∧ ∀ i ∈ l, i < s.ks.slots.length → (slotS s i).dead = false → slotS (runSteps fall (l.map (fun i => mkStep 0x22 i 0 0)) s) i = {} := by
  induction l generalizing n s with
  | nil => exact ⟨OnlyZeroed.refl s, fun _ h => absurd h List.not_mem_nil⟩
  | cons a l ih =>
    rw [List.length_cons] at hn
    rw [List.map_cons, runSteps_cons]
    obtain ⟨h1, hz, ha⟩ := runSteps_kszero (fall := fall) (hl a List.mem_cons_self) h (by omega)
    generalize runSteps fall [mkStep 0x22 a 0 0] s = s1 at h1 hz ha ⊢
    obtain ⟨hz', hr⟩ := ih (fun i hi => hl i (List.mem_cons_of_mem _ hi)) h1 (by omega)
    refine ⟨hz.trans hz', fun i hi hlen hd => ?_⟩
    have keeps (e : slotS s1 i = {}) : slotS (runSteps fall (l.map (fun i => mkStep 0x22 i 0 0)) s1) i = {} := by
      rcases hz'.2 i with g | g
      · exact g
      · exact g.trans e
    rcases List.mem_cons.1 hi with rfl | hi
    · exact keeps (ha hlen hd)
    · rcases hz.2 i with e | e
      · exact keeps e
      · exact hr i hi (by rw [hz.1]; exact hlen) (by rw [e]; exact hd)

theorem fwRun_ks (fall : Nat → State → State) (t : List Step64) (s : State) :
    (fwRun fall t s).ks = (runSteps fall t (sqStart .user (fwReady t s))).ks := by
  unfold fwRun; dsimp only; split <;> rfl

/-- Firmware's own destruction of the tenant slots (R43): every live slot from 16 to 55 is zero. -/
theorem fwKszero_tenant {s : State} {i : Nat} (hlen : s.ks.slots.length = 64) (h1 : 16 ≤ i) (h2 : i < 56) (hd : (slotS s i).dead = false) :
    slotS (fwKszero 16 40 s) i = {} := by
  have hs := seqAt_start (keyTable 16 40) s
  rw [fwEntry_fixed (n := 125) (by decide)] at hs
  have hk : (sqStart .user (fwReady (keyTable 16 40) s)).ks = s.ks := by
    unfold sqStart; rw [if_neg (by simp [fwReady])]
    obtain ⟨_, e⟩ := trace_frame 7 0xFF (fwReady (keyTable 16 40) s).sq.entry 0 _
    rw [e]; rfl
  have hslot (j : Nat) : slotS (fwKszero 16 40 s) j = slotS (runSteps (fun _ s => s) (keyTable 16 40) (sqStart .user (fwReady (keyTable 16 40) s))) j := by
    unfold fwKszero fwDo; rw [slotS, fwRun_ks]; rfl
  rw [hslot]
  generalize sqStart .user (fwReady (keyTable 16 40) s) = s0 at hs hk ⊢
  have hslots : slotS s0 i = slotS s i := by unfold slotS; rw [hk]
  have ht : keyTable 16 40 = ((List.range 40).map (16 + ·)).map (fun i => mkStep 0x22 i 0 0) ++ [endStep] := by
    unfold keyTable; rw [List.map_map]; rfl
  have hrun : runSteps (fun _ s => s) (keyTable 16 40) s0 =
      runSteps (fun _ s => s) [endStep] (runSteps (fun _ s => s) (((List.range 40).map (16 + ·)).map (fun i => mkStep 0x22 i 0 0)) s0) := by
    rw [ht]; exact List.foldl_append ..
  obtain ⟨-, hz⟩ := runSteps_kszeros (fall := fun _ s => s) (l := (List.range 40).map (16 + ·)) (fun i hi => by
    obtain ⟨j, hj, rfl⟩ := List.mem_map.1 hi
    have := List.mem_range.1 hj; omega) hs (by decide)
  have hi := hz i (List.mem_map.2 ⟨i - 16, List.mem_range.2 (by omega), by omega⟩) (by rw [hk, hlen]; omega) (by rw [hslots]; exact hd)
  rw [hrun]
  generalize runSteps (fun _ s => s) (((List.range 40).map (16 + ·)).map (fun i => mkStep 0x22 i 0 0)) s0 = z at hi ⊢
  obtain ⟨-, -, -, -, h⟩ := steady_runSteps_end (k := false) (fall := fun _ s => s) (fun _ _ h => h) (Steady.refl false z)
  exact h i hi

/-! ## QUARANTINE, WARDEN and the loss of power and clocks -/

/-- A change of STATE and MODE writes the word's fields, logs and announces; nothing else moves. -/
theorem setStateIn_changed {m : Mode} {st : PState} {s : State} (c : Nat) (h : s.pkg.st ≠ st) : ∃ l f mg o, setStateIn m st c s =
    { s with pkg := { s.pkg with st := st, mode := m, qcause := if st = .quarantine then c else 0, seq := s.pkg.seq + 1#16 },
             lg := l, hb := { s.hb with fns := f }, mg := mg, outs := o } := by
  unfold setStateIn; rw [if_neg h]; dsimp only
  obtain ⟨_, _, _, e⟩ := announce_frame { s with pkg := { s.pkg with st := st, mode := m, qcause := if st = .quarantine then c else 0, seq := s.pkg.seq + 1#16 } }
  rw [e]
  obtain ⟨_, _, _, e1⟩ := logEvent_frame 0x0102 0xFF (toLe 4 (stateWord s) ++ toLe 1 c) _
  rw [e1]; exact ⟨_, _, _, _, rfl⟩

theorem setState_pkg {st : PState} {s : State} (c : Nat) (h : s.pkg.st ≠ st) : (setState st c s).pkg =
    { s.pkg with st := st, qcause := if st = .quarantine then c else 0, seq := s.pkg.seq + 1#16 } := by
  obtain ⟨_, _, _, _, e⟩ := setStateIn_changed (m := s.pkg.mode) c h
  unfold setState; rw [e]

/-- Entry to QUARANTINE from a state that has none of its own end (R47): the word reads QUARANTINE with the cause. -/
theorem quarantine_spec {s : State} (c : Nat) (h1 : s.pkg.st ≠ .quarantine) (h2 : s.pkg.st ≠ .retired) (h3 : s.pkg.st ≠ .cold) :
    (quarantine c s).pkg.st = .quarantine ∧ (quarantine c s).pkg.qcause = c ∧ (quarantine c s).boot.inited = s.boot.inited
      ∧ (quarantine c s).wd.fw = s.wd.fw := by
  unfold quarantine
  extract_lets p s0 trial main s1 s2 u s3
  have h0 : s0.pkg.st = s.pkg.st ∧ s0.boot = s.boot ∧ s0.wd = s.wd := by unfold s0 p; split <;> exact ⟨rfl, rfl, rfl⟩
  obtain ⟨hst, hboot, hwd⟩ := h0
  rw [if_neg (by simp [hst, h1]), if_neg (by simp [hst, h2, h3])]
  have hs1 : Steady false s0 s1 := steady_ite (steady_quarHalt (Steady.refl _ _)) (Steady.refl _ _)
  obtain ⟨⟨hst1, -⟩, ⟨-, -, hin1, hfw1, -⟩, -⟩ := hs1
  obtain ⟨_, _, _, _, _, hfr⟩ := setState_frame .quarantine c (emptyTenantLog s1)
  have hpkg := setState_pkg (st := .quarantine) (s := emptyTenantLog s1) c (by show s1.pkg.st ≠ _; rw [hst1, hst]; exact h1)
  have hin2 : (setState .quarantine c (emptyTenantLog s1)).boot.inited = s.boot.inited := by
    rw [hfr, ← hboot]; exact hin1
  have hfw2 : (setState .quarantine c (emptyTenantLog s1)).wd.fw = s.wd.fw := by
    rw [hfr, ← hwd]; exact hfw1
  have hs3 : Steady false (setState .quarantine c (emptyTenantLog s1)) s3 := steady_logFlush (Steady.refl _ _)
  have fin (t : State) (ht : t.pkg.st = s3.pkg.st ∧ t.pkg.qcause = s3.pkg.qcause ∧ t.boot.inited = s3.boot.inited ∧ t.wd.fw = s3.wd.fw) :
      t.pkg.st = .quarantine ∧ t.pkg.qcause = c ∧ t.boot.inited = s.boot.inited ∧ t.wd.fw = s.wd.fw := by
    obtain ⟨⟨hst3, -, hqc3, -⟩, ⟨-, -, hin3, hfw3, -⟩, -⟩ := hs3
    obtain ⟨t1, t2, t3, t4⟩ := ht
    exact ⟨t1.trans (hst3.trans (by rw [hpkg])), t2.trans (hqc3.trans (by rw [hpkg]; rfl)), t3.trans (hin3.trans hin2), t4.trans (hfw3.trans hfw2)⟩
  refine fin _ ?_
  split
  · exact ⟨rfl, rfl, rfl, rfl⟩
  · have hr : Steady false { s3 with pkg := { s3.pkg with quarClr := false } } (revertDue (quarRails s3)) := steady_revertDue (steady_quarRails s3)
    obtain ⟨⟨a1, -, a2, -⟩, ⟨-, -, a3, a4, -⟩, -⟩ := hr
    have hn : Steady false s3 (revertDue s3) := steady_revertDue (Steady.refl _ _)
    obtain ⟨⟨b1, -, b2, -⟩, ⟨-, -, b3, b4, -⟩, -⟩ := hn
    split
    · exact ⟨a1, a2, a3, a4⟩
    · exact ⟨b1, b2, b3, b4⟩

/-- From a state with main rails the entry always runs. -/
theorem quarantine_of_main {s : State} (c : Nat) (h : s.pkg.st.main = true) :
    (quarantine c s).pkg.st = .quarantine ∧ (quarantine c s).pkg.qcause = c ∧ (quarantine c s).boot.inited = s.boot.inited
      ∧ (quarantine c s).wd.fw = s.wd.fw := by
  refine quarantine_spec c ?_ ?_ ?_ <;> (intro e; rw [e] at h; cases h)

/-- The end of the main-rail states drops every rail last. -/
theorem mainDown_rails (s : State) : ∃ w, mainDown s = dropPort (dropTileMem w) ∧ Steady false s w := by
  have h1 := steady_fwAbort (steady_mainStop (Steady.refl false s))
  unfold mainDown
  generalize fwAbort (mainStop s) = t at h1 ⊢
  exact ⟨_, rfl, Steady.of_eq h1 rfl rfl rfl rfl⟩

/-- WARDEN after a loss of main power or POWER_DOWN: the mode is gone and every rail is off (R41, R43). -/
theorem toWarden_spec {s : State} (h : s.pkg.st ≠ .warden) :
    (toWarden s).pkg.st = .warden ∧ (toWarden s).pkg.mode = .none ∧ (toWarden s).pkg.mainOk = s.pkg.mainOk
      ∧ ((toWarden s).pkg.tileEn = false ∧ (toWarden s).pkg.memEn = false ∧ (toWarden s).pkg.portEn = false)
      ∧ ∀ i, slotS s i = {} → slotS (toWarden s) i = {} := by
  obtain ⟨w, hw, hsw⟩ := mainDown_rails s
  have hd : Steady false s (mainDown s) := by rw [hw]; exact steady_dropPort (steady_dropTileMem hsw)
  have hr : (mainDown s).pkg.tileEn = false ∧ (mainDown s).pkg.memEn = false ∧ (mainDown s).pkg.portEn = false := by
    rw [hw]
    obtain ⟨hp, ht, hm⟩ := dropPort_rails (dropTileMem w)
    obtain ⟨ht', hm', -⟩ := dropTileMem_rails w
    exact ⟨ht.trans ht', hm.trans hm', hp⟩
  obtain ⟨⟨hst, hmode, hq, hok⟩, -, -, -, hz⟩ := hd
  unfold toWarden
  generalize mainDown s = d at hst hok hr hz ⊢
  have hne : ({ d with pkg := { d.pkg with mode := .none } } : State).pkg.st ≠ .warden := fun e => h (hst.symm.trans e)
  have hp := setState_pkg 0 hne
  obtain ⟨_, _, _, _, _, hfr⟩ := setState_frame .warden 0 { d with pkg := { d.pkg with mode := .none } }
  refine ⟨by rw [hp], by rw [hp], by rw [hp]; exact hok, by rw [hp]; exact hr, fun i hi => ?_⟩
  show slotS (setState .warden 0 { d with pkg := { d.pkg with mode := .none } }) i = {}
  rw [hfr]; exact hz i hi

/-- What loss of the main input does in a main-rail state: the tenant's live keys are zero before the package goes to WARDEN (R43). -/
theorem mainLost_warden {s : State} (h : s.pkg.st.main = true) : ∃ w, mainLost s = toWarden w ∧ Steady false s w
    ∧ (s.ks.slots.length = 64 → tkeys s = true → ∀ i, 16 ≤ i → i < 56 → (slotS s i).dead = false → slotS w i = {}) := by
  have hks : (bindsMove (fwAbort (stopTiles s))).ks = s.ks := by
    show (fwAbort (stopTiles s)).ks = s.ks
    unfold fwAbort sqStop; dsimp only; split
    · obtain ⟨_, e⟩ := trace_frame 8 0xFF _ _ _
      rw [e]; rfl
    · rfl
  have hs : Steady false s (bindsMove (fwAbort (stopTiles s))) := steady_fwAbort (s := stopTiles s) (Steady.refl false s)
  have ht : tkeys (bindsMove (fwAbort (stopTiles s))) = tkeys s := by unfold tkeys slotS; rw [hks]
  unfold mainLost
  rw [if_neg (by simp [h])]
  generalize bindsMove (fwAbort (stopTiles s)) = b at hks hs ht ⊢
  dsimp only
  cases hk : tkeys b with
  | false => exact ⟨b, rfl, hs, fun _ hk' => absurd (hk'.symm.trans (ht.symm.trans hk)) (by simp)⟩
  | true =>
    have hz : Steady false s (fwKszero 16 40 b) := steady_fwKszero (by omega) hs
    have after (z : State) (hz : Steady false s z) (hb : ∀ i, slotS (fwKszero 16 40 b) i = {} → slotS z i = {}) :
        ∃ w, toWarden (abandonBatches z) = toWarden w ∧ Steady false s w
          ∧ (s.ks.slots.length = 64 → tkeys s = true → ∀ i, 16 ≤ i → i < 56 → (slotS s i).dead = false → slotS w i = {}) := by
      refine ⟨_, rfl, steady_abandonBatches hz, fun hl _ i h1 h2 hd => ?_⟩
      obtain ⟨-, -, -, -, keep⟩ := steady_abandonBatches (Steady.refl false z)
      refine keep i (hb i (fwKszero_tenant (by rw [hks]; exact hl) h1 h2 ?_))
      unfold slotS; rw [hks]; exact hd
    rw [if_pos rfl]
    split
    · refine after _ (steady_recQueue _ (steady_logEvent _ _ _ (steady_modRec _ _ hz))) fun i => ?_
      obtain ⟨-, -, -, -, keep⟩ := steady_recQueue _ (steady_logEvent _ _ _ (steady_modRec _ _ (Steady.refl false (fwKszero 16 40 b))))
      exact keep i
    · exact after _ hz fun _ h => h

/-! ## The link reference clock -/

/-- A port after a loss of its reference clock: one that was DOWN or mapped out is as it was. -/
noncomputable def portLeft (x : LPort) : LPort := if x.st = .down then x else x.leave

theorem portLeft_portLeft (x : LPort) : portLeft (portLeft x) = portLeft x := by
  unfold portLeft LPort.leave
  cases h : x.st <;> simp [h]

/-- From `s` to `t` nothing but ports and the log moved, and each port stands as it was or has left. -/
def PortsLeft (s t : State) : Prop :=
  (∃ d l, t = { s with ln := { s.ln with dies := d }, lg := l }) ∧ ∀ d p, lportS t d p = lportS s d p ∨ lportS t d p = portLeft (lportS s d p)

theorem PortsLeft.refl (s : State) : PortsLeft s s := ⟨⟨s.ln.dies, s.lg, rfl⟩, fun _ _ => .inl rfl⟩
theorem PortsLeft.trans {s t u : State} (h : PortsLeft s t) (g : PortsLeft t u) : PortsLeft s u := by
  obtain ⟨⟨d, l, rfl⟩, h⟩ := h
  obtain ⟨⟨d', l', rfl⟩, g⟩ := g
  refine ⟨⟨d', l', rfl⟩, fun a p => ?_⟩
  rcases h a p with e | e <;> rcases g a p with e' | e'
  · exact .inl (e'.trans e)
  · exact .inr (by rw [e', e])
  · exact .inr (e'.trans e)
  · exact .inr (by rw [e', e, portLeft_portLeft])
/-- A port that has left stays so. -/
theorem PortsLeft.keeps {s t u : State} (g : PortsLeft t u) {d p : Nat} (h : lportS t d p = portLeft (lportS s d p)) :
    lportS u d p = portLeft (lportS s d p) := by
  rcases g.2 d p with e | e
  · exact e.trans h
  · rw [e, h, portLeft_portLeft]

/-- A port beyond the dies or beyond a die's ports reads as one that is DOWN. -/
theorem lport_inRange {s : State} {d p : Nat} (h : (lportS s d p).st ≠ .down) : d < s.ln.dies.length ∧ p < (nth ({} : LDie) s.ln.dies d).ports.length := by
  have hp : p < (nth ({} : LDie) s.ln.dies d).ports.length := by
    by_contra hp
    exact h (by unfold lportS; rw [nth, List.getElem?_eq_none (by omega)]; rfl)
  refine ⟨by_contra fun hd => h ?_, hp⟩
  have : nth ({} : LDie) s.ln.dies d = {} := by rw [nth, List.getElem?_eq_none (by omega)]; rfl
  unfold lportS; rw [this] at hp ⊢
  have hl : ({} : LDie).ports = List.replicate 12 {} := rfl
  rw [hl, List.length_replicate] at hp
  rw [hl, nth, List.getElem?_replicate, if_pos hp]; rfl

/-- One port of `portsLeave`. -/
noncomputable def portLeave (u : Nat) (s : State) (p : Nat) : State :=
  if (lportS s (ordOfUnit s u) p).st == .mappedOut || (lportS s (ordOfUnit s u) p).st == .down then s
  else traceLink u p (modLport (ordOfUnit s u) p LPort.leave s)

theorem portsLeave_eq (u : Nat) (s : State) : portsLeave u s = (List.range 12).foldl (portLeave u) s := rfl

theorem lportS_modLport_other {d p a : Nat} (f : LPort → LPort) (s : State) (h : a ≠ d) (q : Nat) : lportS (modLport d p f s) a q = lportS s a q := by
  unfold lportS modLport modLd
  dsimp only; rw [nth_modNth_ne _ _ _ (Ne.symm h)]

theorem traceLink_frame (u p : Nat) (s : State) : ∃ l, traceLink u p s = { s with lg := l } := by
  unfold traceLink; exact trace_frame _ _ _ _ s

theorem portLeave_spec (u p : Nat) (s : State) :
    PortsLeft s (portLeave u s p) ∧ lportS (portLeave u s p) (ordOfUnit s u) p = portLeft (lportS s (ordOfUnit s u) p) := by
  unfold portLeave; split
  · rename_i h
    refine ⟨PortsLeft.refl s, ?_⟩
    unfold portLeft LPort.leave
    rcases (Bool.or_eq_true _ _).mp h with h | h <;> simp [beq_iff_eq.1 h]
  · rename_i h
    simp only [Bool.or_eq_true, beq_iff_eq, not_or] at h
    obtain ⟨-, hdn⟩ := h
    obtain ⟨hd, hp⟩ := lport_inRange hdn
    have hsame : lportS (modLport (ordOfUnit s u) p LPort.leave s) (ordOfUnit s u) p = portLeft (lportS s (ordOfUnit s u) p) := by
      rw [lportS_modLport_same _ hd hp, portLeft, if_neg hdn]
    obtain ⟨l, e⟩ := traceLink_frame u p (modLport (ordOfUnit s u) p LPort.leave s)
    rw [e]
    refine ⟨⟨⟨_, _, rfl⟩, fun d q => ?_⟩, hsame⟩
    by_cases hdd : d = ordOfUnit s u
    · subst hdd
      by_cases hq : q = p
      · subst hq; exact .inr hsame
      · exact .inl (lportS_modLport_ne _ s hq)
    · exact .inl (lportS_modLport_other _ s hdd q)

/-- The frame of a step that moves ports alone keeps the ordinals. -/
theorem PortsLeft.ordOfUnit {s t : State} (h : PortsLeft s t) (u : Nat) : ordOfUnit t u = ordOfUnit s u := by
  obtain ⟨⟨_, _, rfl⟩, -⟩ := h; rfl

theorem portLeaves_spec (u : Nat) (l : List Nat) (s : State) :
    PortsLeft s (l.foldl (portLeave u) s) ∧ ∀ p ∈ l, lportS (l.foldl (portLeave u) s) (ordOfUnit s u) p = portLeft (lportS s (ordOfUnit s u) p) := by
  induction l generalizing s with
  | nil => exact ⟨PortsLeft.refl s, fun _ h => absurd h List.not_mem_nil⟩
  | cons a l ih =>
    obtain ⟨h1, ha⟩ := portLeave_spec u a s
    obtain ⟨h2, hl⟩ := ih (portLeave u s a)
    rw [List.foldl_cons]
    refine ⟨h1.trans h2, fun p hp => ?_⟩
    rcases List.mem_cons.1 hp with rfl | hp
    · exact h2.keeps ha
    · have hx := hl p hp
      rw [h1.ordOfUnit] at hx
      rcases h1.2 (ordOfUnit s u) p with e | e
      · rw [hx, e]
      · rw [hx, e, portLeft_portLeft]

theorem linksLeave_spec (l : List Nat) (s : State) : PortsLeft s (l.foldl (fun s u => portsLeave u s) s)
    ∧ ∀ u ∈ l, ∀ p < 12, lportS (l.foldl (fun s u => portsLeave u s) s) (ordOfUnit s u) p = portLeft (lportS s (ordOfUnit s u) p) := by
  induction l generalizing s with
  | nil => exact ⟨PortsLeft.refl s, fun _ h => absurd h List.not_mem_nil⟩
  | cons a l ih =>
    obtain ⟨h1, ha⟩ := portLeaves_spec a (List.range 12) s
    rw [← portsLeave_eq] at h1 ha
    obtain ⟨h2, hl⟩ := ih (portsLeave a s)
    rw [List.foldl_cons]
    refine ⟨h1.trans h2, fun u hu p hp => ?_⟩
    rcases List.mem_cons.1 hu with rfl | hu
    · exact h2.keeps (ha p (List.mem_range.2 hp))
    · have hx := hl u hu p hp
      rw [h1.ordOfUnit] at hx
      rcases h1.2 (ordOfUnit s u) p with e | e
      · rw [hx, e]
      · rw [hx, e, portLeft_portLeft]

theorem linksDown_spec (s : State) : PortsLeft s (linksDown s)
    ∧ ∀ u ∈ portUnits s, ∀ p < 12, lportS (linksDown s) (ordOfUnit s u) p = portLeft (lportS s (ordOfUnit s u) p) :=
  linksLeave_spec (portUnits s) s

theorem steady_mclkLost {k : Bool} {b s : State} (h : Steady k b s) : Steady k b (mclkLost s) := by
  unfold mclkLost; dsimp only
  have ha := steady_setAlarm 16 h
  generalize setAlarm 16 s = a at ha ⊢
  refine steady_ite h (steady_foldl (fun s t h => ?_) _ ha)
  exact steady_logEvent _ _ _ h

/-- The alarm of a clock failure and the drop of the tile rail leave STATE. -/
theorem clkFail_st (s : State) : (driveRail 1 false (setAlarm 21 s)).pkg.st = s.pkg.st := by
  obtain ⟨⟨h, -⟩, -⟩ := steady_setAlarm 21 (Steady.refl false s)
  exact h

theorem foldl_range_four {α : Type} (f : α → Nat → α) (a : α) : (List.range 4).foldl f a = f (f (f (f a 0) 1) 2) 3 := rfl

/-- Settles O16: what a loss does in a state with main rails is `toWarden_spec` or `quarantine_of_main` after the steps that keep the package's word. -/
theorem mainPowerAndClockLoss : Obligations.MainPowerAndClockLoss := by
  unfold Obligations.MainPowerAndClockLoss
  refine ⟨fun s => rfl, fun s hok => ⟨fun hm => ?_, fun hm => ?_⟩, fun s hall => ?_, fun s hst hany => ?_, fun s => ?_, fun s hst hclr => ?_,
    fun s hreq => ⟨fun hm => ?_, fun hm => ?_⟩, fun s hreq => ?_⟩
  · have hr : execMainInputLost s = .next (mainLost _) := congrArg Host.Outcome.next (if_pos hok)
    have e : mainLost (irq 0 { s with pkg := { s.pkg with mainOk := false }, pw := { s.pw with notice := setBit s.pw.notice 16 true } }) = _ :=
      if_pos (by show (!s.pkg.st.main) = true; rw [hm]; rfl)
    rw [e] at hr
    exact ⟨hr, hr⟩
  · obtain ⟨w, hw, hsw, hz⟩ := mainLost_warden (s := irq 0 { s with
      pkg := { s.pkg with mainOk := false }, pw := { s.pw with notice := setBit s.pw.notice 16 true } }) hm
    have hr : execMainInputLost s = .next (mainLost _) := congrArg Host.Outcome.next (if_pos hok)
    obtain ⟨⟨hst, -, -, hmo⟩, -⟩ := hsw
    have hne : w.pkg.st ≠ .warden := fun e => by
      have := hst.symm.trans e; change s.pkg.st = _ at this; rw [this] at hm; cases hm
    obtain ⟨h1, h2, h3, ⟨h4, h5, h6⟩, h7⟩ := toWarden_spec hne
    refine ⟨hr, hr, _, hr, ?_⟩
    rw [hw]
    exact ⟨h1, h2, h3.trans hmo, h4, h5, h6, fun i hl hk hi hj hd => h7 i (hz hl hk i hi hj hd)⟩
  · obtain ⟨⟨⟨d, l, e⟩, -⟩, hp⟩ := linksDown_spec { s with pkg := { s.pkg with refLink := false } }
    refine ⟨linksDown { s with pkg := { s.pkg with refLink := false } }, congrArg Host.Outcome.next (if_neg ?_), ?_, ?_, hp⟩
    · rw [e]
      show ¬ (_ && (stackTiles s).any (fun t => (mcS s t).trained)) = true
      rw [show (stackTiles s).any (fun t => (mcS s t).trained) = false by simpa using hall, Bool.and_false]; exact Bool.false_ne_true
    · rw [e]
    · rw [e]
  · obtain ⟨⟨⟨d, l, e⟩, -⟩, -⟩ := linksDown_spec { s with pkg := { s.pkg with refLink := false } }
    have hm : (mclkLost (linksDown { s with pkg := { s.pkg with refLink := false } })).pkg.st.main = true := by
      obtain ⟨⟨hst', -⟩, -⟩ := steady_mclkLost (Steady.refl false (linksDown { s with pkg := { s.pkg with refLink := false } }))
      rw [hst', e]; show s.pkg.st.main = true
      rcases hst with h | h | h <;> rw [h] <;> rfl
    obtain ⟨h1, h2, -⟩ := quarantine_of_main 8 hm
    refine ⟨_, congrArg Host.Outcome.next (if_pos ?_), h1, h2⟩
    rw [e]
    show (_ && (stackTiles s).any (fun t => (mcS s t).trained)) = true
    rw [hany, Bool.and_true]
    show (s.pkg.st == .loading || s.pkg.st == .active || s.pkg.st == .switching) = true
    rcases hst with h | h | h <;> rw [h] <;> rfl
  · exact congrArg Host.Outcome.next (foldl_range_four (fun s d => dllDown d s) _)
  · have hr : execQuarantineClearDone s = .next (quarCleared s) := rfl
    have e : quarCleared s = _ := if_pos (by rw [hst, hclr]; rfl)
    rw [e] at hr
    refine ⟨hr, _, hr, ?_⟩
    generalize hu : s.units.map (fun x => { x with baseHeld := false, clusterHeld := false, scratchHeld := false }) = us
    obtain ⟨ht, hm, hp⟩ := quarRails_rails { s with units := us }
    obtain ⟨⟨hst', -⟩, ⟨-, -, -, -, hq⟩, -⟩ := steady_quarRails { s with units := us }
    have hpkg (t : State) : (revertDue t).pkg = t.pkg := by unfold revertDue; split <;> rfl
    rw [hpkg]
    refine ⟨hst'.trans hst, hq, ht, hm, fun h => ?_, fun h => ?_⟩
    · rw [hp]; show (s.pkg.portEn && p0Healthy s) = false; rw [h, Bool.and_false]
    · rw [hp]; show (s.pkg.portEn && p0Healthy s) = _; rw [h, Bool.and_true]
  · exact congrArg Host.Outcome.next ((if_neg hreq).trans (if_neg (by rw [clkFail_st, hm]; exact Bool.false_ne_true)))
  · have hf : (driveRail 1 false (setAlarm 21 s)).pkg.st.main = true := by rw [clkFail_st, hm]
    have hr : exec .clkstopConfirmTimeout s = .next (quarantine 0x0C (driveRail 1 false (setAlarm 21 s))) :=
      congrArg Host.Outcome.next ((if_neg hreq).trans (if_pos hf))
    obtain ⟨h1, h2, -⟩ := quarantine_of_main 0x0C hf
    exact ⟨hr, _, hr, h1, h2⟩
  · exact congrArg Host.Outcome.next (if_pos hreq)

/-! ## What firmware's bookkeeping leaves

`Calm b s`: from `b` to `s` the package, the boot record, the sequencer, the core's and the units' registers, the tenant
mask with its lock and the masks of the features are as they were. -/

def Calm (b s : State) : Prop :=
  (s.pkg = b.pkg ∧ s.boot = b.boot ∧ s.sq = b.sq ∧ s.wd = b.wd ∧ s.units = b.units)
  ∧ (s.ks.tenant = b.ks.tenant ∧ s.ks.tlock = b.ks.tlock) ∧ s.hb.accept = b.hb.accept ∧ s.hb.offer = b.hb.offer

section
variable {b s : State}

theorem Calm.refl (s : State) : Calm s s := ⟨⟨rfl, rfl, rfl, rfl, rfl⟩, ⟨rfl, rfl⟩, rfl, rfl⟩

theorem calm_foldl {α : Type} {f : State → α → State} (hf : ∀ s a, Calm b s → Calm b (f s a)) (l : List α) (h : Calm b s) : Calm b (l.foldl f s) := by
  induction l generalizing s with
  | nil => exact h
  | cons a l ih => exact ih (hf s a h)
theorem calm_ite {c : Prop} [Decidable c] {x y : State} (hx : Calm b x) (hy : Calm b y) : Calm b (if c then x else y) := by
  split <;> assumption

theorem calm_logWith (f c u : Nat) (d : Bytes) (h : Calm b s) : Calm b (logWith f c u d s) := by
  obtain ⟨_, _, _, e⟩ := logWith_frame f c u d s; rw [e]; exact h
theorem calm_logEvent (c u : Nat) (d : Bytes) (h : Calm b s) : Calm b (logEvent c u d s) := calm_logWith 0 c u d h
theorem calm_msExtend (n kind typ : Nat) (x : Bytes) (h : Calm b s) : Calm b (msExtend n kind typ x s) := calm_ite (calm_logEvent _ _ _ h) h
theorem calm_msLock (n : Nat) (h : Calm b s) : Calm b (msLock n s) := h
theorem calm_fqAdd (j : FJob) (h : Calm b s) : Calm b (fqAdd j s) := h
theorem calm_recQueue (i : Nat) (h : Calm b s) : Calm b (recQueue i s) := by
  unfold recQueue; split
  · exact calm_fqAdd _ h
  · exact h

theorem calm_rosterOpen (h : Calm b s) : Calm b (rosterOpen s) := by
  unfold rosterOpen
  refine calm_ite h ?_
  split
  · refine calm_fqAdd _ (calm_foldl (fun s i h => ?_) _ ?_)
    · split
      · exact calm_ite (calm_recQueue _ (calm_logEvent _ _ _ h)) h
      · exact h
    · exact h
  · exact calm_fqAdd _ (calm_logEvent _ _ _ h)
end

/-- Once it has run the roster is open (R316). -/
theorem rosterOpen_opened (s : State) : (rosterOpen s).tn.ro.opened = true := by
  unfold rosterOpen
  split
  · assumption
  · split
    · dsimp only [fqAdd]
      refine List.foldlRecOn (motive := fun t : State => t.tn.ro.opened = true) _ _ rfl (fun t ht i _ => ?_)
      split
      · split
        · obtain ⟨_, _, _, e⟩ := logEvent_frame 0x0401 0xFF _ (modRec i (fun r => { r with state := RState.evicted }) t)
          rw [e]; unfold recQueue; split <;> exact ht
        · exact ht
      · exact ht
    · dsimp only [fqAdd, drawBytes]
      obtain ⟨_, _, _, e⟩ := logEvent_frame 0x0402 0xFF _ _
      rw [e]

/-! ## BRINGUP -/

theorem calm_extendMode {b s : State} (h : Calm b s) : Calm b (extendMode s) := calm_msExtend _ _ _ _ h

/-- What stands when BRINGUP starts its first table (R41, R42, R206, R316). -/
def Entered (s b : State) : Prop :=
  (b.pkg.st = .bringup ∧ b.pkg.mode = defaultMode s ∧ b.pkg.portPg = s.pkg.portPg)
  ∧ (b.boot.bphase = .portRail ∧ b.boot.bringups = s.boot.bringups + 1)
  ∧ (b.hb.accept = 0 ∧ b.hb.offer = offerMask { s with pkg := { s.pkg with mode := defaultMode s } })
  ∧ b.tn.ro.opened = true ∧ b.sq = s.sq ∧ b.wd = s.wd

theorem bringupStart_enters {s : State} (h1 : s.pkg.st = .warden) (h2 : s.boot.inited = true) (h3 : s.pkg.mainOk = true) (h4 : s.mg.hold = false) :
    ∃ b, bringupStart s = sqTable .portUp b ∧ Entered s b := by
  unfold bringupStart
  rw [if_neg (by simp [h1, h2, h3, h4])]
  extract_lets lg s1 boot s2 s3 hb s4 s5 s6 ln s7
  have e1 : ∃ l, s1 = { s with lg := l } := by unfold s1; split <;> exact ⟨_, rfl⟩
  obtain ⟨l1, e1⟩ := e1
  have e2 : s2 = { s with lg := l1, boot := { s.boot with bringups := s.boot.bringups + 1, bphase := .portRail } } := by
    unfold s2 boot; rw [e1]
  have hne : s2.pkg.st ≠ .bringup := by rw [e2]; show s.pkg.st ≠ _; rw [h1]; decide
  obtain ⟨_, _, _, _, e3⟩ := setStateIn_changed (m := defaultMode s2) 0 hne
  have hc : Calm s4 s6 := calm_rosterOpen (calm_extendMode (Calm.refl s4))
  obtain ⟨⟨cp, cb, cq, cw, -⟩, -, ca, co⟩ := hc
  have e4 : s4.pkg = { s2.pkg with st := .bringup, mode := defaultMode s2, qcause := 0, seq := s2.pkg.seq + 1#16 } := by
    show s3.pkg = _; unfold s3; rw [e3]; rfl
  have e4' : s4.boot = s2.boot ∧ s4.sq = s2.sq ∧ s4.wd = s2.wd ∧ s4.otp = s2.otp := by
    show s3.boot = _ ∧ s3.sq = _ ∧ s3.wd = _ ∧ s3.otp = _; unfold s3; rw [e3]; exact ⟨rfl, rfl, rfl, rfl⟩
  refine ⟨s7, rfl, ⟨?_, ?_, ?_⟩, ⟨?_, ?_⟩, ⟨?_, ?_⟩, rosterOpen_opened s5, ?_, ?_⟩
  · show s6.pkg.st = _; rw [cp, e4]
  · show s6.pkg.mode = _; rw [cp, e4, e2]; rfl
  · show s6.pkg.portPg = _; rw [cp, e4, e2]
  · show s6.boot.bphase = _; rw [cb, e4'.1, e2]
  · show s6.boot.bringups = _; rw [cb, e4'.1, e2]
  · show s6.hb.accept = _; rw [ca]
  · show s6.hb.offer = _; rw [co]
    show offerMask s3 = _
    unfold s3; rw [e3, e2]; rfl
  · show s6.sq = _; rw [cq, e4'.2.1, e2]
  · show s6.wd = _; rw [cw, e4'.2.2.1, e2]

theorem sqBurst_stop {s : State} (hl : List Nat) (n : Nat) (h : (s.sq.busy && s.sq.wait == .none) = false) : sqBurst hl n s = s := by
  cases n with
  | zero => rfl
  | succ n => unfold sqBurst; rw [h]; rfl

theorem sqBurst_step {s : State} (hl : List Nat) (n : Nat) {w : Step64} (hb : s.sq.busy = true) (hw : s.sq.wait = .none) (hs : stepAt s s.sq.nextIx = w)
    (hg : stepLegal w = true) : sqBurst hl (n + 1) s = sqBurst hl n (stepEffect w { quietStep with hlres := nth 31 hl (stepA w) } (sqPast s)) := by
  subst hs
  rw [sqBurst, hb, hw]; dsimp only; rw [hg]; rfl

/-- RAIL on where the rail is down: the step waits for its power-good. -/
theorem stepEffect_railUp {r : Nat} (hr : r < 3) (x : StepIn) {s : State} (hpg : railPg s r = false) :
    stepEffect (railStep r true) x s = { driveRail r true s with sq := { s.sq with wait := .rail r true } } := by
  have hop : stepOp (railStep r true) = 0x42 := stepOp_mkStep (by omega) (by omega) (by decide) (by omega)
  have hA : stepA (railStep r true) = r := stepA_mkStep (by omega) (by decide) (by omega)
  have hB : stepB (railStep r true) = 1 := stepB_mkStep (by decide) (by omega)
  have hpg' : railPg (driveRail r true s) r = false := by
    rw [← hpg]
    unfold railPg driveRail; dsimp only; split
    · rfl
    · split <;> rfl
  unfold stepEffect; rw [hop, hA, hB]; dsimp only
  simp only [show ((1 : Nat) == 1) = true from rfl, hpg', Bool.false_eq_true, beq_iff_eq, if_false]; rfl

/-- A table whose first step raises a rail that is down waits for its power-good. -/
theorem sqBegin_railUp {p : SqPurpose} {s : State} {r : Nat} (hr : r < 3) (hp : p.rails = true) (h : stepAt s (fwEntry (sqTableOf p) s) = railStep r true)
    (hpg : railPg s r = false) : ∃ q l, sqBegin p s = { driveRail r true { s with lg := l } with sq := q }
      ∧ q.busy = true ∧ q.wait = .rail r true ∧ q.purpose = p := by
  have hlg : stepLegal (railStep r true) = true := by
    have hr' : r = 0 ∨ r = 1 ∨ r = 2 := by omega
    rcases hr' with rfl | rfl | rfl <;> decide
  have e : ∃ q l, sqStart p (fwReady (sqTableOf p) s) = { s with sq := q, lg := l }
      ∧ q.busy = true ∧ q.wait = .none ∧ q.purpose = p ∧ q.nextIx = fwEntry (sqTableOf p) s ∧ q.ram = s.sq.ram := by
    unfold sqStart; rw [if_neg (by simp [fwReady])]
    obtain ⟨l, e⟩ := trace_frame 7 0xFF (fwReady (sqTableOf p) s).sq.entry 0 _
    rw [e]; exact ⟨_, l, rfl, rfl, rfl, rfl, rfl, rfl⟩
  obtain ⟨q, l, e, hb, hw, hpp, hn, hram⟩ := e
  unfold sqBegin; dsimp only; rw [if_pos hp, e]
  have hs : stepAt { s with sq := q, lg := l } q.nextIx = railStep r true := by
    rw [hn]; unfold stepAt; dsimp only; rw [hram]; exact h
  rw [sqBurst_step [] 15 hb hw hs hlg, stepEffect_railUp hr _ (by exact hpg)]
  rw [sqBurst_stop [] 15 (by simp [sqPast, hb])]
  exact ⟨_, l, rfl, hb, rfl, hpp⟩

theorem portUpTable_entry (s t : State) : fwEntry portUpTable s = fwEntry portUpTable t := by
  rw [fwEntry_fixed (n := 49) (by decide), fwEntry_fixed (n := 49) (by decide)]

/-- The package once power-good of rail `r` matches its enable (R558). -/
noncomputable def railUpPkg (r : Nat) (p : Pkg) : Pkg :=
  if r = 0 then { p with portPg := p.portEn } else if r = 1 then { p with tilePg := p.tileEn && p.mainOk }
  else { p with memPg := p.memEn && p.tilePg && p.mainOk }

theorem railUpPkg_port {p : Pkg} (h : p.portEn = true) : railUpPkg 0 p = { p with portPg := true } :=
  congrArg (fun x => ({ p with portPg := x } : Pkg)) h
theorem railUpPkg_tile {p : Pkg} (h1 : p.tileEn = true) (h2 : p.mainOk = true) : railUpPkg 1 p = { p with tilePg := true } :=
  congrArg (fun x => ({ p with tilePg := x } : Pkg)) (show (p.tileEn && p.mainOk) = true by rw [h1, h2]; rfl)
theorem railUpPkg_mem {p : Pkg} (h1 : p.memEn = true) (h2 : p.tilePg = true) (h3 : p.mainOk = true) : railUpPkg 2 p = { p with memPg := true } :=
  congrArg (fun x => ({ p with memPg := x } : Pkg)) (show (p.memEn && p.tilePg && p.mainOk) = true by rw [h1, h2, h3]; rfl)

/-- Power-good rises for the RAIL step that waits for it: the step ends, and a table of rails goes on. -/
theorem railGoodEv_up {s : State} {r : Nat} (hl : List Nat) (hb : s.sq.busy = true) (ha : s.sq.abortReq = false) (hn : s.sq.nextIx < Config.kSteps)
    (hw : s.sq.wait = .rail r true) (hpg : railPg { s with pkg := railUpPkg r s.pkg } r = true) : railGoodEv r hl s =
      let t := { s with pkg := railUpPkg r s.pkg, sq := { s.sq with wait := .none } }
      if s.sq.purpose.rails then sqBurst hl 16 t else t := by
  have he : ({ s with pkg := if r = 0 then { s.pkg with portPg := s.pkg.portEn } else if r = 1 then { s.pkg with tilePg := s.pkg.tileEn && s.pkg.mainOk }
    else { s.pkg with memPg := s.pkg.memEn && s.pkg.tilePg && s.pkg.mainOk } } : State) = { s with pkg := railUpPkg r s.pkg } := rfl
  unfold railGoodEv; dsimp only
  rw [he, hpg, if_neg (by simp), if_neg (by simp), hw]
  dsimp only
  rw [if_pos (by simp [hb, hpg]), sqAdvance_on (s := { s with pkg := railUpPkg r s.pkg }) ha hn]

/-- In a table of the user's the end of the RAIL step is all that happens. -/
theorem railGood_user {s : State} {r : Nat} (hl : List Nat) (hb : s.sq.busy = true) (hp : s.sq.purpose = .user) (ha : s.sq.abortReq = false)
    (hn : s.sq.nextIx < Config.kSteps) (hacc : s.wd.access = none) (hw : s.sq.wait = .rail r true)
    (hpg : railPg { s with pkg := railUpPkg r s.pkg } r = true) :
    exec (.railPowerGood ⟨r, hl⟩) s = .next { s with pkg := railUpPkg r s.pkg, sq := { s.sq with wait := .none } } := by
  have e : railGoodEv r hl s = { s with pkg := railUpPkg r s.pkg, sq := { s.sq with wait := .none } } := by
    rw [railGoodEv_up hl hb ha hn hw hpg]; exact if_neg (by rw [hp]; decide)
  refine congrArg Host.Outcome.next ((sqEvent_busy ?_ ?_).trans e)
  · rw [e]; exact hb
  · rw [e]; exact hacc

theorem stepEffect_end (x : StepIn) (s : State) : stepEffect endStep x s = sqStop (fun q => { q with done := true }) s := by
  have hop : stepOp endStep = 0x01 := by decide
  unfold stepEffect; rw [hop]; rfl

/-- The end of a table the sequencer stands at. -/
theorem sqBurst_end {s : State} (hl : List Nat) (n : Nat) (hb : s.sq.busy = true) (hw : s.sq.wait = .none) (hs : stepAt s s.sq.nextIx = endStep) :
    ∃ l, sqBurst hl (n + 1) s = { s with
      sq := { (sqPast s).sq with busy := false, wait := .none, abortReq := false, done := true }, lg := l, outs := .wirq 2 :: s.outs } := by
  rw [sqBurst_step hl n hb hw hs (by decide), stepEffect_end]
  unfold sqStop; dsimp only
  obtain ⟨l, e⟩ := trace_frame 8 0xFF (({ (sqPast s).sq with busy := false, wait := .none, abortReq := false, done := true } : Seqr)).status
    (({ (sqPast s).sq with busy := false, wait := .none, abortReq := false, done := true } : Seqr)).steps
    { sqPast s with sq := { (sqPast s).sq with busy := false, wait := .none, abortReq := false, done := true } }
  rw [e, sqBurst_stop hl n rfl]
  exact ⟨l, rfl⟩

/-- A table of rails has ended, with no operation error that an event raised: what it was started for goes on, and nothing else is queued. -/
theorem settle_rails {s t : State} {p : SqPurpose} (hb : t.sq.busy = false) (he : (s.sq.busy && t.sq.err) = false) (hp : t.sq.purpose = p) (hr : p.rails = true)
    (hq : t.sq.queue = []) {u : State} (hu : railsDone p { t with sq := { t.sq with purpose := .user } } = u) (h1 : u.sq.busy = false)
    (h2 : u.sq.purpose = .user) (h3 : u.sq.queue = []) : settle s t = u := by
  have hd : tableDone p { t with sq := { t.sq with purpose := .user } } = u := by
    cases p with
    | portUp | tileUp | memUp | p0Up => exact hu
    | user | powerUp | switchClear | tile _ | port _ => cases hr
  have hne : p ≠ .user := fun e => by rw [e] at hr; cases hr
  unfold settle
  rw [if_neg (by simp [hb])]
  simp only [he, Bool.false_and, Bool.false_eq_true, if_false, hq, List.length_nil]
  rw [settleN, if_neg (by simp [hb]), hp, if_pos (by simpa using hne), hd]
  exact settleN_free _ h1 h2 h3

theorem railsDone_memUp {t : State} (hst : t.pkg.st = .bringup) (he : t.sq.err = false) (ha : t.sq.aborted = false) :
    railsDone .memUp t = { t with boot := { t.boot with bphase := .memImg } } := by
  unfold railsDone
  rw [if_neg (by decide), if_neg (by simp [hst]), if_neg (by simp [he, ha]), if_neg (by decide), if_neg (by decide)]

theorem dropAccess_none {s : State} (h : s.wd.access = none) : dropAccess s = s := by unfold dropAccess; rw [h]

/-- Settles O14: BRINGUP_START by what stands before its table and the first step of that; RAIL_POWER_GOOD by `railGoodEv_up`. -/
theorem bringupSteps : Obligations.BringupSteps := by
  unfold Obligations.BringupSteps
  refine ⟨fun s h1 h2 h3 h4 hf hpg hram => ?start, fun s hf hh => ?hold,
    fun hl s hb hp ha hn hacc => ⟨fun hw h1 => ?_, fun hw h1 h2 => ?_, fun hw h1 h2 h3 => ?_⟩,
    fun hl s hst hb hp hq ha hw h1 h2 h3 hn hend herr hab hacc => ?mem, fun t s hph hst ht => ?trained, fun t s hph hst hs htr => ?timeout⟩
  case start =>
    obtain ⟨hbusy, hpur, hque, hacc⟩ := hf
    obtain ⟨b, e, ⟨bst, bmode, bpg⟩, ⟨bph, bbr⟩, ⟨bacc, boff⟩, bop, bsq, bwd⟩ := bringupStart_enters h1 h2 h3 h4
    have hram' : stepAt b (fwEntry portUpTable b) = railStep 0 true := by
      rw [portUpTable_entry b s, ← hram]; unfold stepAt; rw [bsq]
    obtain ⟨q, l, e', hqb, hqw, hqp⟩ := sqBegin_railUp (p := .portUp) (r := 0) (by decide) rfl hram' (bpg.trans hpg)
    have et : bringupStart s = { driveRail 0 true { b with lg := l } with sq := q } := by
      rw [e, sqTable, if_neg (by rw [bsq, hbusy]; decide), e']
    refine ⟨_, congrArg Host.Outcome.next ((sqEvent_busy ?_ ?_).trans et), bst, bmode, rfl, bph, bbr, bacc, boff, bop, hqb, hqw, hqp⟩
    · rw [et]; exact hqb
    · rw [et]; show b.wd.access = none; rw [bwd]; exact hacc
  case hold =>
    have e : bringupStart s = s := if_pos (by simp [hh])
    exact congrArg Host.Outcome.next ((sqEvent_idle hf.1 (by rw [e]; exact hf)).trans e)
  · have hpk := railUpPkg_port h1
    rw [railGood_user hl hb hp ha hn hacc hw (by rw [hpk]; rfl), hpk]
  · have hpk := railUpPkg_tile h1 h2
    rw [railGood_user hl hb hp ha hn hacc hw (by rw [hpk]; rfl), hpk]
  · have hpk := railUpPkg_mem h1 h2 h3
    rw [railGood_user hl hb hp ha hn hacc hw (by rw [hpk]; rfl), hpk]
  case mem =>
    have hpk := railUpPkg_mem h1 h2 h3
    obtain ⟨l, e⟩ := sqBurst_end (s := { s with pkg := { s.pkg with memPg := true }, sq := { s.sq with wait := .none } }) hl 15 hb rfl hend
    have er := railGoodEv_up hl hb ha (by omega) hw (by rw [hpk]; rfl)
    rw [hpk] at er
    have er' := er.trans ((if_pos (by show s.sq.purpose.rails = true; rw [hp]; rfl)).trans e)
    generalize hT : railGoodEv 2 hl s = T at er'
    have hu := railsDone_memUp (t := { T with sq := { T.sq with purpose := .user } }) (by rw [er']; exact hst) (by rw [er']; exact herr) (by rw [er']; exact hab)
    have hset : settle s T = _ := settle_rails (by rw [er']) (by rw [er', hb]; exact herr) (p := .memUp) (by rw [er']; exact hp) rfl (by rw [er']; exact hq) hu
      (by rw [er']) rfl (by rw [er']; exact hq)
    have hrun : sqEvent (railGoodEv 2 hl) s = dropAccess _ := congrArg dropAccess ((congrArg (settle s) hT).trans hset)
    refine ⟨_, congrArg Host.Outcome.next (hrun.trans (dropAccess_none (by rw [er']; exact hacc))), by rw [er'], rfl, by rw [er'], by rw [er']⟩
  case trained =>
    refine ⟨fun h => ?_, fun h => ?_⟩
    · exact congrArg Host.Outcome.next ((if_neg (by simp [hph, hst, ht])).trans (if_neg (by rw [h]; decide)))
    · exact congrArg Host.Outcome.next ((if_neg (by simp [hph, hst, ht])).trans (if_pos h))
  case timeout =>
    have e : exec (.stackTrainingTimeout t) s = .next (quarantine 5 s) := congrArg Host.Outcome.next (if_pos (by simp [hph, hst, hs, htr]))
    obtain ⟨q1, q2, -⟩ := quarantine_of_main 5 (s := s) (by rw [hst]; rfl)
    exact ⟨e, _, e, q1, q2⟩

/-! ## The ROM -/

theorem msExtend_frame (n kind typ : Nat) (x : Bytes) (s : State) : ∃ l f o m, msExtend n kind typ x s =
    { s with lg := l, hb := { s.hb with fns := f }, outs := o, ms := m } := by
  unfold msExtend; dsimp only; split
  · obtain ⟨_, _, _, e⟩ := logEvent_frame 0x0106 0xFF (toLe 1 n ++ toLe 1 3) s
    rw [e]; exact ⟨_, _, _, _, rfl⟩
  · exact ⟨s.lg, s.hb.fns, s.outs, _, rfl⟩

/-- An extend of the ROM changes the measurement unit, the note in SRAM and the log alone (R162). -/
theorem romExtend_frame (n kind typ : Nat) (x : Bytes) (s : State) : ∃ l f o m c, romExtend n kind typ x s =
    { s with lg := l, hb := { s.hb with fns := f }, outs := o, ms := m, wd := { s.wd with sram := c } } := by
  unfold romExtend
  obtain ⟨_, _, _, _, e⟩ := msExtend_frame n kind typ x s
  rw [e]; exact ⟨_, _, _, _, _, rfl⟩

theorem otEnd_frame (e : Nat) (s : State) : ∃ p o, otEnd e s = { s with otp := p, outs := o } := ⟨_, _, rfl⟩
theorem otBegin_frame (c l : Nat) (ts : List (Nat × Nat)) (s : State) : ∃ p o, otBegin c l ts s = { s with otp := p, outs := o } := by
  unfold otBegin; split
  · exact otEnd_frame _ _
  · split
    · exact otEnd_frame _ _
    · exact ⟨_, s.outs, rfl⟩
theorem otComplete_frame (ps : List PulseOut) (s : State) : ∃ p o, otComplete ps s = { s with otp := p, outs := o } := by
  unfold otComplete; split
  · exact ⟨s.otp, s.outs, rfl⟩
  · exact ⟨_, _, rfl⟩
theorem otRepair_frame (s : State) : ∃ p o, otRepair s = { s with otp := p, outs := o } := by
  unfold otRepair; split
  · exact ⟨_, _, rfl⟩
  · obtain ⟨_, _, e⟩ := otBegin_frame 7 0 (repairTargets s.otp) (modOtp (fun o => { o with stillMarg := 0 }) (otAccept s))
    rw [e]; exact ⟨_, _, rfl⟩

/-- The repair and the watchdog leave the package, the image that runs and the boot record. -/
theorem romPrepare_frame (x : RomIn) (s : State) : ∃ p o, romPrepare x s = { s with
    wd := { s.wd with wdtEn := true, wdtLoad := 2000000, wdtCount := 2000000 }, mg := { s.mg with irqEn := true, ibiEn := true }, otp := p, outs := o } := by
  unfold romPrepare
  obtain ⟨_, _, e⟩ := otRepair_frame { s with
    wd := { s.wd with wdtEn := true, wdtLoad := 2000000, wdtCount := 2000000 }, mg := { s.mg with irqEn := true, ibiEn := true } }
  rw [e]
  obtain ⟨_, _, e1⟩ := otComplete_frame x.pulses _
  rw [e1]; exact ⟨_, _, rfl⟩

theorem dgEnd_frame (e : Nat) (s : State) : ∃ k d o, dgEnd e s = { s with ks := k, dg := d, outs := o } := by
  unfold dgEnd; dsimp only; split
  · exact ⟨_, _, _, rfl⟩
  · exact ⟨s.ks, _, _, rfl⟩
theorem dgRootKdf_frame (s : State) : ∃ k d o, dgRootKdf s = { s with ks := k, dg := d, outs := o } := by
  unfold dgRootKdf dgGuard; split
  · exact ⟨s.ks, _, s.outs, rfl⟩
  · dsimp only; split
    · exact dgEnd_frame _ _
    · split
      · exact dgEnd_frame _ _
      · exact ⟨_, _, _, rfl⟩

/-- A warden image starts (R162 steps 9 to 11): WARDEN, the image's entry address and what the boot record takes of it. -/
theorem romStart_warden {s : State} (h : s.pkg.st = .rom) (k tried a b : Nat) (i : Img) : ∃ t, romStart k tried a b 1 i s = t
    ∧ t.pkg.st = .warden ∧ t.wd.fw = .wfw ∧ t.wd.entry = 0x10000000 + field i.h 20 4 + field i.h 24 4
    ∧ t.boot.chosen = k ∧ t.boot.tried = tried ∧ t.boot.eWarden = imgE i ∧ t.boot.wardenVersion = field i.h 12 4 := by
  unfold romStart
  extract_lets gen s1 s2 wd boot s3 s4
  obtain ⟨_, _, _, _, _, e1⟩ := romExtend_frame 1 1 1 (imgE i) s
  obtain ⟨_, _, _, _, _, e2⟩ := romExtend_frame 2 2 0 (Config.sha384 (toLe 1 k ++ toLe 1 tried ++ toLe 1 a ++ toLe 1 b ++ toLe 4 gen ++ toLe 8 0)) s1
  obtain ⟨_, _, _, e4⟩ := dgRootKdf_frame s3
  have h4 : s4.pkg.st = .rom ∧ s4.boot = s3.boot ∧ s4.wd = s3.wd := by
    unfold s4; rw [e4]; refine ⟨?_, rfl, rfl⟩
    show s2.pkg.st = _; unfold s2; rw [e2]; show s1.pkg.st = _; unfold s1; rw [e1]; exact h
  obtain ⟨hst, hb, hw⟩ := h4
  have hp := setState_pkg (st := .warden) (s := s4) 0 (by rw [hst]; decide)
  obtain ⟨_, _, _, _, _, e5⟩ := setState_frame .warden 0 s4
  have hb5 : (setState .warden 0 s4).boot = s3.boot := by rw [e5]; exact hb
  have hw5 : (setState .warden 0 s4).wd = s3.wd := by rw [e5]; exact hw
  refine ⟨setState .warden 0 s4, if_neg (by simp [hst]), by rw [hp], ?_, ?_, ?_, ?_, ?_, ?_⟩
  · rw [hw5]; rfl
  · rw [hw5]
  · rw [hb5]
  · rw [hb5]
  · rw [hb5]
  · rw [hb5]

/-- With no selector the boot record takes slot A and no trial (R180). -/
theorem romRecord_fresh {s : State} (h : selector s = none) : (romRecord s).boot.pref = 0 ∧ (romRecord s).boot.trial = false ∧ (romRecord s).pkg = s.pkg
    ∧ (romRecord s).wd = s.wd ∧ (romRecord s).otp = s.otp := by
  unfold romRecord; rw [h]; exact ⟨rfl, rfl, rfl, rfl, rfl⟩

/-- The first image the ROM tries with no selector in force is slot A's; accepted, it starts (R162). -/
theorem romSelect_first {x : RomIn} {s : State} {i : Img} (hs : selector s = none) (ha : x.errA = false) (hc : imgCheck8 (romRecord s) 0 1 = 0)
    (hi : readImg (romRecord s) 0 1 = some i) (hok : imgBodyOk i = true) : ∃ c, romSelect x s =
      romStart 0 1 0 0 1 i { romRecord s with wd := { (romRecord s).wd with sram := c } } := by
  obtain ⟨hp, ht, -, -, -⟩ := romRecord_fresh hs
  have hr : romTry 0 1 false (romRecord s) = (0, { romRecord s with wd := { (romRecord s).wd with
      sram := cellPuts 0#8 (field i.h 20 4) i.body (romRecord s).wd.sram } }) := by
    simp [romTry, hc, hi, hok]
  refine ⟨cellPuts 0#8 (field i.h 20 4) i.body (romRecord s).wd.sram, ?_⟩
  unfold romSelect
  simp only [hs, hp, ht, Bool.false_and, Bool.false_eq_true, if_false, ha, if_true, hr, hi, pow_zero]

/-- The ROM notes that it could not read the warden image of region `k` (code 10). -/
noncomputable def romUnread (k typ : Nat) (s : State) : State := romRefuse typ 10 (readImg s k typ) s

theorem romUnread_pkg (k typ : Nat) (s : State) : (romUnread k typ s).pkg = s.pkg := rfl
theorem romUnread_fw (k typ : Nat) (s : State) : (romUnread k typ s).wd.fw = s.wd.fw := rfl

theorem romRecovery_unread {x : RomIn} (h : x.errRec = true) (tried a b : Nat) (s : State) : romRecovery x tried a b s = quarantine 2 (romUnread 2 5 s) := by
  unfold romRecovery; rw [h]; rfl

/-- With no image readable QUARANTINE follows, from the state the refusals leave (R163). -/
theorem romSelect_unread {x : RomIn} {s : State} (hs : selector s = none) (ha : x.errA = true) (hb : x.errB = true) (hr : x.errRec = true)
    (hv : nth 2 s.otp.grp 1 ≠ 2) : romSelect x s = quarantine 2 (romUnread 2 5 (romUnread 1 1 (romUnread 0 1 (romRecord s)))) := by
  obtain ⟨hp, ht, -, -, hotp⟩ := romRecord_fresh hs
  have htry (k typ : Nat) (t : State) : romTry k typ true t = (10, t) := rfl
  unfold romSelect
  simp only [hs, hp, ht, Bool.false_and, Bool.false_eq_true, if_false, ha, hb, if_true, htry, hotp, hv, romRecovery_unread hr, Nat.sub_zero, one_ne_zero, ite_self]
  rfl

/-! ## The start of warden firmware -/

section
variable {b s : State}

theorem calm_log (l : Logs) (h : Calm b s) : Calm b { s with lg := l } := h
theorem calm_adoptLog (h : Calm b s) : Calm b (adoptLog s) := by
  unfold adoptLog; split
  · exact h
  · exact calm_foldl (fun _ _ h => calm_log _ h) _ h
theorem calm_adoptRom (h : Calm b s) : Calm b (adoptRom s) := calm_foldl (fun _ _ h => calm_logWith _ _ _ _ h) _ h
theorem calm_logGroups (h : Calm b s) : Calm b (logGroups s) :=
  calm_foldl (fun _ _ h => calm_ite (calm_logEvent _ _ _ h) (calm_ite (calm_logEvent _ _ _ h) h)) _ h
theorem calm_derive (p : Nat) (l : String) (c : Bytes) (n i u : Nat) (k : Bool) (h : Calm b s) : Calm b (derive p l c n i u k s) := calm_ite h h
theorem calm_derivePrism (h : Calm b s) : Calm b (derivePrism s) := by
  unfold derivePrism
  extract_lets s1 s2 s3 s4 s5 s6 s7 s8
  have h7 : Calm b s7 := calm_derive _ _ _ _ _ _ _ (calm_derive _ _ _ _ _ _ _ (calm_derive _ _ _ _ _ _ _ (calm_derive _ _ _ _ _ _ _
    (calm_derive _ _ _ _ _ _ _ (calm_derive _ _ _ _ _ _ _ (calm_derive _ _ _ _ _ _ _ h))))))
  exact calm_ite h7 (calm_derive _ _ _ _ _ _ _ (calm_derive _ _ _ _ _ _ _ h7))
theorem calm_drawBytes (n : Nat) (h : Calm b s) : Calm b (drawBytes n s).2 := h
theorem calm_identities (h : Calm b s) : Calm b (identities s) := h
theorem calm_drawGens (h : Calm b s) : Calm b (drawGens s) := by
  unfold drawGens; dsimp only
  refine calm_foldl (fun s c h => ?_) _ ?_
  · exact h
  · exact h
theorem calm_updStart (h : Calm b s) : Calm b (updStart s) := by
  unfold updStart
  extract_lets done s1
  have h1 : Calm b s1 := calm_ite h h
  split; exact h1
theorem calm_otIncr (c t : Nat) (h : Calm b s) : Calm b (otIncr c t s) := by
  have hb (ts : List (Nat × Nat)) : Calm b (otBegin 4 c ts (otAccept s)) := by
    obtain ⟨_, _, e⟩ := otBegin_frame 4 c ts (otAccept s)
    rw [e]; exact h
  exact calm_ite h (calm_ite h (calm_ite h (calm_ite h (hb _))))
theorem calm_otComplete (ps : List PulseOut) (h : Calm b s) : Calm b (otComplete ps s) := by
  obtain ⟨_, _, e⟩ := otComplete_frame ps s
  rw [e]; exact h
theorem calm_burnSvn (tgt : List Nat) (x : List PulseOut) (h : Calm b s) : Calm b (burnSvn tgt x s) :=
  List.foldlRecOn (motive := fun p : State × List PulseOut => Calm b p.1) _ _ h (fun _ hp c _ => calm_otComplete _ (calm_otIncr c _ hp))
theorem calm_wfwReissue (x : List PulseOut) (h : Calm b s) : Calm b (wfwReissue x s) := calm_ite (calm_burnSvn _ _ h) h
end

theorem writeTables_calm (t : State) : ∃ r k, Calm { t with sq := { t.sq with ram := r, bound := k, lock := true } } (writeTables t) :=
  ⟨_, _, calm_msLock 6 (calm_msExtend 6 2 0 _ (Calm.refl _))⟩

/-- Firmware's start but for its bookkeeping: the registers of R164, the boot record's nonce and flag, and the step tables, bounded and locked. -/
theorem wfwStart_calm (s : State) : ∃ a n r k, Calm s a ∧ Calm { wfwRegs a with
    boot := { a.boot with bootNonce := n, inited := true }, sq := { a.sq with ram := r, bound := k, lock := true } } (wfwStart s) := by
  unfold wfwStart
  extract_lets s1 n s2
  have h1 : Calm s s1 := calm_logGroups (calm_adoptRom (calm_adoptLog (calm_logEvent _ _ _ (Calm.refl s))))
  clear_value s1
  have ha : Calm s n.2 := calm_drawBytes 32 h1
  clear_value n
  obtain ⟨r, k, hw⟩ := writeTables_calm { s2 with boot := { s2.boot with bootNonce := n.1, inited := true } }
  have hz := calm_updStart (calm_drawGens (calm_identities (calm_derivePrism hw)))
  exact ⟨n.2, n.1, r, k, ha, hz⟩

/-- QUARANTINE entered with no main rail leaves the sequencer and the core alone. -/
theorem quarantine_offMain {s : State} (c : Nat) (hm : s.pkg.st.main = false) (n1 : s.pkg.st ≠ .quarantine) (n2 : s.pkg.st ≠ .retired)
    (n3 : s.pkg.st ≠ .cold) : (quarantine c s).sq = s.sq ∧ (quarantine c s).wd = s.wd := by
  unfold quarantine
  extract_lets p s0 trial main s1 s2 u s3
  have h0 : s0.sq = s.sq ∧ s0.wd = s.wd ∧ s0.pkg.st = s.pkg.st ∧ s0.pkg.st.main = false := by
    unfold s0 p; split <;> exact ⟨rfl, rfl, rfl, hm⟩
  obtain ⟨hsq, hwd, hst, hm0⟩ := h0
  have hmain : main = false := hm0
  have hs1 : s1 = s0 := if_neg (by rw [hmain]; decide)
  have h2 : s3.sq = s0.sq ∧ s3.wd = s0.wd := by
    obtain ⟨_, _, _, _, _, e⟩ := setState_frame .quarantine c (emptyTenantLog s1)
    show (logFlush (setState .quarantine c (emptyTenantLog s1))).sq = _ ∧ (logFlush (setState .quarantine c (emptyTenantLog s1))).wd = _
    rw [e, hs1]
    unfold logFlush; split <;> exact ⟨rfl, rfl⟩
  obtain ⟨h3, h4⟩ := h2
  rw [hmain, Bool.false_and, Bool.false_and, if_neg Bool.false_ne_true, if_neg Bool.false_ne_true]
  have hfin : (revertDue s3).sq = s3.sq ∧ (revertDue s3).wd = s3.wd := by unfold revertDue; split <;> exact ⟨rfl, rfl⟩
  obtain ⟨h5, h6⟩ := hfin
  rw [if_neg (by simp [hst, n1]), if_neg (by simp [hst, n2, n3])]
  exact ⟨h5.trans (h3.trans hsq), h6.trans (h4.trans hwd)⟩

theorem steady_sqBurst {pq : Bool} {b : State} (hl : List Nat) (n : Nat) {s : State} (h : StepSteady false pq b s) : StepSteady false pq b (sqBurst hl n s) := by
  induction n generalizing s with
  | zero => exact h
  | succ n ih =>
    refine steady_ite (ih (steady_ite ?_ ?_)) h
    · exact steady_stepEffect rfl (fun e => absurd e Bool.false_ne_true) (s := sqPast s) h
    · exact steady_ite (steady_sqError 1 (s := sqPast s) h) h

/-- What firmware's start leaves of a state in WARDEN (R164), before the crash check. -/
theorem wfwReissue_start (x : List PulseOut) (s : State) : ∃ a n r k, Calm s a ∧ Calm { wfwRegs a with
    boot := { a.boot with bootNonce := n, inited := true }, sq := { a.sq with ram := r, bound := k, lock := true } } (wfwReissue x (wfwStart s)) := by
  obtain ⟨a, n, r, k, ha, hz⟩ := wfwStart_calm s
  exact ⟨a, n, r, k, ha, calm_wfwReissue x hz⟩

theorem unitS_wfwRegs {s : State} {u : Nat} (h : u < s.units.length) : (unitS (wfwRegs s) u).hbLim = Config.kHeartbeatUs
    ∧ (unitS (wfwRegs s) u).hbIrqEn = true ∧ (unitS (wfwRegs s) u).irqEn = true := by
  simp [unitS, nth, wfwRegs, h]

theorem wfwInit_eq {x : List PulseOut} {s : State} (hf : s.wd.fw = .wfw) (hi : s.boot.inited = false) (hs : s.pkg.st = .warden) :
    wfwInit x s = if (wfwCrash (s.wd.keys && (s.wd.wdt || s.wd.lockstep)) (wfwReissue x (wfwStart s))).pkg.st == .warden
      then wfwCrash (s.wd.keys && (s.wd.wdt || s.wd.lockstep)) (wfwReissue x (wfwStart s))
      else p0Only (wfwCrash (s.wd.keys && (s.wd.wdt || s.wd.lockstep)) (wfwReissue x (wfwStart s))) := by
  unfold wfwInit; rw [if_neg (by simp [fwWfw, hf, hi, hs])]

/-- P0's table keeps the word: the burst it starts with is steady, and what follows its end enables link training at most. -/
theorem settle_p0Only {s0 q : State} (h0 : s0.sq.busy = false) (hf : SqFree q) :
    ∃ t, dropAccess (settle s0 (p0Only q)) = t ∧ t.pkg.st = q.pkg.st ∧ t.pkg.qcause = q.pkg.qcause ∧ t.boot.inited = q.boot.inited := by
  obtain ⟨hb, hp, hq, ha⟩ := hf
  have keep (t : State) : (dropAccess t).pkg = t.pkg ∧ (dropAccess t).boot = t.boot := by
    unfold dropAccess; split
    · split <;> exact ⟨rfl, rfl⟩
    · exact ⟨rfl, rfl⟩
  have fin (t : State) (h1 : t.pkg.st = q.pkg.st) (h2 : t.pkg.qcause = q.pkg.qcause) (h3 : t.boot.inited = q.boot.inited) :
      ∃ u, dropAccess t = u ∧ u.pkg.st = q.pkg.st ∧ u.pkg.qcause = q.pkg.qcause ∧ u.boot.inited = q.boot.inited := by
    obtain ⟨k1, k2⟩ := keep t
    exact ⟨_, rfl, by rw [k1, h1], by rw [k1, h2], by rw [k2, h3]⟩
  unfold p0Only
  split
  · have hstart : ∃ z l, sqStart .p0Up (fwReady p0UpTable q) = { q with sq := z, lg := l } ∧ z.purpose = .p0Up ∧ z.queue = [] := by
      unfold sqStart; rw [if_neg (by simp [fwReady])]
      obtain ⟨l, e⟩ := trace_frame 7 0xFF (fwReady p0UpTable q).sq.entry 0 _
      rw [e]; exact ⟨_, l, rfl, rfl, hq⟩
    obtain ⟨z, l, e, hz, hzq⟩ := hstart
    have et : sqTable .p0Up q = sqBurst [] 16 { q with sq := z, lg := l } := by
      unfold sqTable; rw [if_neg (by simp [hb])]
      unfold sqBegin; dsimp only; rw [if_pos (by decide)]; exact congrArg (sqBurst [] 16) e
    obtain ⟨⟨b1, -, b2, -⟩, ⟨-, -, b3, -⟩, -, bq, -⟩ := steady_sqBurst [] 16 (StepSteady.refl false true { q with sq := z, lg := l })
    obtain ⟨bp, bque⟩ := bq rfl
    rw [et]
    generalize sqBurst [] 16 { q with sq := z, lg := l } = t at b1 b2 b3 bp bque ⊢
    cases hbt : t.sq.busy with
    | true =>
      have hs : settle s0 t = t := if_pos hbt
      rw [hs]; exact fin t b1 b2 b3
    | false =>
      have hr : ∃ f, railsDone .p0Up { t with sq := { t.sq with purpose := .user } } =
          { t with sq := { t.sq with purpose := .user }, hb := { t.hb with fns := f } } := by
        unfold railsDone; dsimp only; rw [if_pos (by decide)]; split
        · exact ⟨t.hb.fns, rfl⟩
        · exact ⟨_, rfl⟩
      obtain ⟨f, hu⟩ := hr
      have hs := settle_rails (s := s0) hbt (by rw [h0]; rfl) (bp.trans hz) rfl (bque.trans hzq) hu hbt rfl (bque.trans hzq)
      rw [hs]; exact fin _ b1 b2 b3
  · have hs : settle s0 q = q := by
      unfold settle; rw [if_neg (by simp [hb])]; dsimp only
      rw [h0]; exact settleN_free _ hb hp hq
    rw [hs]; exact fin q rfl rfl rfl

theorem romBoot_go {x : RomIn} {s : State} (hfw : s.wd.fw = .rom) (hst : s.pkg.st = .rom) (hl : s.otp.loaded = true) (hr : s.wd.sramReady = true) :
    exec (.romBoot x) s = .next (romGo x (romPrepare x s)) :=
  congrArg Host.Outcome.next (if_neg (by simp [hfw, hst, hl, hr]))

/-- A part in a life cycle that boots measures itself and selects an image (R162). -/
theorem romBoot_measured {x : RomIn} {s : State} (hfw : s.wd.fw = .rom) (hst : s.pkg.st = .rom) (hl : s.otp.loaded = true) (hr : s.wd.sramReady = true)
    (h0 : (romPrepare x s).otp.lc ≠ 0) (h4 : (romPrepare x s).otp.lc ≠ 4) (h7 : (romPrepare x s).otp.lc ≠ 7) (hg : nth 0 (romPrepare x s).otp.grp 3 ≠ 2) :
    exec (.romBoot x) s = .next (romSelect x (romMeasure (romPrepare x s))) := by
  rw [romBoot_go hfw hst hl hr]
  exact congrArg Host.Outcome.next ((if_neg h4).trans ((if_neg h0).trans (if_neg (by simp [h7, hg]))))

/-- The measured slot 0 leaves the word, the running image, OTP and the selector of flash. -/
theorem romMeasure_prepared (x : RomIn) (s : State) : (romMeasure (romPrepare x s)).pkg.st = s.pkg.st ∧ (romMeasure (romPrepare x s)).wd.fw = s.wd.fw
    ∧ (romMeasure (romPrepare x s)).otp = (romPrepare x s).otp ∧ selector (romMeasure (romPrepare x s)) = selector (romPrepare x s) := by
  obtain ⟨_, _, hp⟩ := romPrepare_frame x s
  obtain ⟨_, _, _, _, _, e⟩ := romExtend_frame 0 2 0 (Config.sha384 (slot0Record (romPrepare x s))) (romPrepare x s)
  unfold romMeasure; rw [e]
  exact ⟨by rw [hp], by rw [hp], rfl, rfl⟩

/-- Settles O13: the ROM's branches by life cycle and by the image it accepts; firmware's start by what `Calm` keeps of its registers. -/
theorem romAndFirmwareStart : Obligations.RomAndFirmwareStart := by
  unfold Obligations.RomAndFirmwareStart
  refine ⟨fun x s hfw hst hld hsr => ⟨fun h => ?_, fun h => ?_, fun h0 h4 h => ?_,
    fun h0 h4 h7 hg hsel => ⟨fun i ha hc hi hok => ?first, fun ha hb hr hv => ?none⟩⟩,
    fun x s hfw hin hst hf hlen => ⟨fun hk => ?calm, fun hk hw => ?crash⟩, fun x s hf h => ?_⟩
  · rw [romBoot_go hfw hst hld hsr]; exact congrArg Host.Outcome.next (if_pos h)
  · rw [romBoot_go hfw hst hld hsr]; exact congrArg Host.Outcome.next ((if_neg (by omega)).trans (if_pos h))
  · rw [romBoot_go hfw hst hld hsr]
    exact congrArg Host.Outcome.next ((if_neg h4).trans ((if_neg h0).trans (if_pos (by simpa using h))))
  case first =>
    obtain ⟨hst', -, -, hs'⟩ := romMeasure_prepared x s
    have hsel' := hs'.trans hsel
    obtain ⟨-, -, hp, -, -⟩ := romRecord_fresh hsel'
    obtain ⟨c, e⟩ := romSelect_first hsel' ha hc hi hok
    have e1 := romBoot_measured (x := x) hfw hst hld hsr h0 h4 h7 hg
    rw [e] at e1
    generalize romRecord (romMeasure (romPrepare x s)) = m at hp e1
    obtain ⟨t, et, ht⟩ := romStart_warden (s := { m with wd := { m.wd with sram := c } })
      ((congrArg Pkg.st hp).trans (hst'.trans hst)) 0 1 0 0 i
    exact ⟨t, by rw [e1, et], ht⟩
  case none =>
    obtain ⟨hst', hfw', hotp, hs'⟩ := romMeasure_prepared x s
    have hsel' := hs'.trans hsel
    obtain ⟨-, -, hp, hw, -⟩ := romRecord_fresh hsel'
    have e1 := romBoot_measured (x := x) hfw hst hld hsr h0 h4 h7 hg
    rw [romSelect_unread hsel' ha hb hr (by rw [hotp]; exact hv)] at e1
    generalize romRecord (romMeasure (romPrepare x s)) = m at hp hw e1
    obtain ⟨hpu, hwu⟩ : (romUnread 2 5 (romUnread 1 1 (romUnread 0 1 m))).pkg = m.pkg ∧ (romUnread 2 5 (romUnread 1 1 (romUnread 0 1 m))).wd.fw = m.wd.fw := by
      simp only [romUnread_pkg, romUnread_fw, and_self]
    generalize romUnread 2 5 (romUnread 1 1 (romUnread 0 1 m)) = u at hpu hwu e1
    have hst2 : u.pkg.st = .rom := (congrArg Pkg.st (hpu.trans hp)).trans (hst'.trans hst)
    obtain ⟨q1, q2, -, q4⟩ := quarantine_spec 2 (by rw [hst2]; decide) (by rw [hst2]; decide) (by rw [hst2]; decide)
    exact ⟨_, e1, q1, q2, q4.trans (hwu.trans ((congrArg Warden.fw hw).trans (hfw'.trans hfw)))⟩
  case calm =>
    obtain ⟨a, n, r, k, ha, hz⟩ := wfwReissue_start x s
    obtain ⟨⟨ap, ab, aq, aw, au⟩, -⟩ := ha
    obtain ⟨hb, hpu, hq, hacc⟩ := hf
    have hcr : (s.wd.keys && (s.wd.wdt || s.wd.lockstep)) = false := by
      rcases hk with h | ⟨h1, h2⟩
      · rw [h]; rfl
      · rw [h1, h2, Bool.or_false, Bool.and_false]
    have e := wfwInit_eq (x := x) hfw hin hst
    rw [hcr] at e
    generalize wfwReissue x (wfwStart s) = t at hz e
    have hc : wfwCrash false t = t := if_neg Bool.false_ne_true
    obtain ⟨⟨tp, tb, tq, tw, tu⟩, ⟨kt, kl⟩, -, -⟩ := hz
    have hst' : t.pkg.st = .warden := by rw [tp]; show a.pkg.st = _; rw [ap, hst]
    rw [hc, if_pos (by rw [hst']; rfl)] at e
    have hfree : SqFree (wfwInit x s) := by
      rw [e]; unfold SqFree; rw [tq, tw]
      exact ⟨(congrArg Seqr.busy aq).trans hb, (congrArg Seqr.purpose aq).trans hpu, (congrArg Seqr.queue aq).trans hq, (congrArg Warden.access aw).trans hacc⟩
    refine ⟨t, congrArg Host.Outcome.next ((sqEvent_idle hb hfree).trans e), hst', by rw [tb], by rw [tw]; rfl, by rw [tw]; rfl, by rw [tw]; rfl, by rw [tw]; rfl,
      kt, kl, by rw [tq], fun u hu => ?_⟩
    have hun : unitS t u = unitS (wfwRegs a) u := by unfold unitS; rw [tu]
    rw [hun]; exact unitS_wfwRegs (by rw [au, hlen]; exact hu)
  case crash =>
    obtain ⟨a, n, r, k, ha, hz⟩ := wfwReissue_start x s
    obtain ⟨⟨ap, ab, aq, aw, au⟩, -⟩ := ha
    obtain ⟨hb, hpu, hq, hacc⟩ := hf
    have hcr : (s.wd.keys && (s.wd.wdt || s.wd.lockstep)) = true := by
      rcases hw with h | h <;> rw [hk, h] <;> simp
    have e := wfwInit_eq (x := x) hfw hin hst
    rw [hcr] at e
    generalize wfwReissue x (wfwStart s) = t at hz e
    obtain ⟨⟨tp, tb, tq, tw, -⟩, -⟩ := hz
    have hst' : t.pkg.st = .warden := by rw [tp]; show a.pkg.st = _; rw [ap, hst]
    have hc : wfwCrash true t = quarantine 7 t := if_pos (by rw [hst']; rfl)
    obtain ⟨q1, q2, q3, -⟩ := quarantine_spec 7 (s := t) (by rw [hst']; decide) (by rw [hst']; decide) (by rw [hst']; decide)
    obtain ⟨f1, f2⟩ := quarantine_offMain 7 (s := t) (by rw [hst']; rfl) (by rw [hst']; decide) (by rw [hst']; decide) (by rw [hst']; decide)
    rw [hc, if_neg (by rw [q1]; decide)] at e
    have hfree : SqFree (quarantine 7 t) := by
      unfold SqFree; rw [f1, f2, tq, tw]
      exact ⟨(congrArg Seqr.busy aq).trans hb, (congrArg Seqr.purpose aq).trans hpu, (congrArg Seqr.queue aq).trans hq, (congrArg Warden.access aw).trans hacc⟩
    obtain ⟨u, eu, u1, u2, u3⟩ := settle_p0Only hb hfree
    refine ⟨u, congrArg Host.Outcome.next ?_, u1.trans q1, u2.trans q2, u3.trans (q3.trans (by rw [tb]))⟩
    unfold sqEvent; rw [e]; exact eu
  · have e : wfwInit x s = s := by
      refine if_pos ?_
      rcases h with ⟨h1, h2⟩ | h
      · simp [fwWfw, h1, h2]
      · simp [h]
    exact congrArg Host.Outcome.next ((sqEvent_idle hf.1 (by rw [e]; exact hf)).trans e)

end Sys2Proof.Machine
end

section
/-! # The warden die

The statements on the queue and the dispatch, the warden's resets, memories and timers, the fabric window, the internal mailboxes, and
the step sequencer. -/
open Sys2Proof
namespace Sys2Proof

open Machine

/-! What `SqAt` and `SqFree` say, part by part. -/

theorem SqAt.legal {op : Nat} {s : State} (h : SqAt op s) : stepLegal (sqStep s) = true := ((Bool.and_eq_true _ _).mp h.1).2
theorem SqAt.notLast {op : Nat} {s : State} (h : SqAt op s) : s.sq.nextIx + 1 < Config.kSteps := h.2.2.1
theorem SqAt.noAccess {op : Nat} {s : State} (h : SqAt op s) : s.wd.access = none := h.2.2.2
theorem SqFree.idle {s : State} (h : SqFree s) : s.sq.busy = false := h.1
/-- What leaves the sequencer and the warden's registers leaves it free. -/
theorem SqFree.of_eq {s t : State} (h : SqFree s) (hq : t.sq = s.sq) (hw : t.wd = s.wd) : SqFree t := by unfold SqFree; rw [hq, hw]; exact h

end Sys2Proof

namespace Sys2Proof.Machine

/-! ## The queue, the invariant at reset, and the dispatch -/

/-- Settles O1: `step` looks at the queue's front alone. -/
theorem stepRunsTheFrontCommand : Obligations.StepRunsTheFrontCommand := by
  unfold Obligations.StepRunsTheFrontCommand
  refine ⟨fun c r s h => ?_, fun s h => ?_⟩ <;> unfold step <;> rw [h]

/-- Settles O4: the memories are empty, the tables have their sizes, and each bounded register resets within its bounds. -/
theorem resetMeetsTheInvariant : Obligations.ResetMeetsTheInvariant := by
  unfold Obligations.ResetMeetsTheInvariant
  refine ⟨?wd, ?units, ?sq, ?otp, ?ks, ?pk, ?ms, rfl, rfl, ?mb⟩
  case wd => unfold WdOk; decide
  case units => exact List.length_replicate
  case sq => unfold SqOk; decide
  case otp => unfold OtOk; decide
  case ks => unfold KsOk; decide
  case pk => unfold PkOk; decide
  case ms => exact List.length_replicate
  case mb =>
    refine ⟨rfl, List.length_replicate, fun c hc => ?_⟩
    rw [List.eq_of_mem_replicate hc]; rfl

/-- REGISTER_WRITE has a next state at every address that is not one of an undescribed unit's registers. -/
theorem exec_registerWrite {a : Nat} (h : undescribed a = false ∨ 2 ^ 32 ≤ a) (v : Word) (s : State) :
    exec (.registerWrite a v) s = .next (regWrite a v.toNat s) := by
  refine if_neg ?_
  rcases h with h | h
  · simp [h]
  · rw [decide_eq_false (Nat.not_lt.2 h)]; simp

/-- Settles O5: every arm of the dispatch but REGISTER_WRITE's is written as a next state. -/
theorem everyCommandIsAnswered : Obligations.EveryCommandIsAnswered := by
  unfold Obligations.EveryCommandIsAnswered
  refine ⟨fun c s h => ?_, fun a v s h => ⟨_, exec_registerWrite h v s⟩⟩
  cases c with
  | registerWrite a v => exact absurd rfl (h a v)
  | _ => exact ⟨_, rfl⟩

/-! ## Warden resets -/

/-- Settles O10: every cause asserts `wardenReset`, whose frame is `wardenReset_spec`; its source sets its own bit. -/
theorem everyResetCauseResetsTheWarden : Obligations.EveryResetCauseResetsTheWarden := by
  unfold Obligations.EveryResetCauseResetsTheWarden
  refine ⟨?_, ?_, ?_, ?_, ?_⟩
  · intro s hc
    refine ⟨wardenReset { lockstep := true } 0 s, ?_, wardenReset_spec _ _ _, ?_⟩
    · show execLockstepMismatch s = _
      simp [execLockstepMismatch, hc]
    · simp [wardenReset]
  · intro s he
    refine ⟨wardenReset { wdt := true } 0 s, ?_, wardenReset_spec _ _ _, ?_⟩
    · show execWatchdogStage2 s = _
      simp [execWatchdogStage2, he]
    · simp [wardenReset, tkeys, slotS]
  · intro s v hc hv
    refine ⟨softReset (bits v.toNat 16 8) s, ?_, wardenReset_spec _ _ _, ?_⟩
    · show execWdSwrstWrite v s = _
      simp [execWdSwrstWrite, hc, hv]
    · simp [softReset, wardenReset]
  · intro s v hv
    show execWdSwrstWrite v s = _
    simp [execWdSwrstWrite, hv]
  · intro s a hc hf
    refine ⟨softReset 1 { s with wd := { s.wd with last := .busError } }, ?_, wardenReset_spec _ _ _, ?_⟩
    · show execSramUncorrectableError a s = _
      simp [execSramUncorrectableError, hc, hf]
    · simp [softReset, wardenReset]

/-! ## Release and initialisation -/

/-- No entry waits for the big-number engine: nothing starts (R152). -/
theorem pqDispatch_empty {s : State} (h : s.pq.wait = []) : pqDispatch s = s := by
  unfold pqDispatch; rw [h]; exact ite_self _
theorem pkStallDone_none {s : State} (h : s.wd.stall = none) : pkStallDone s = s := by unfold pkStallDone; rw [h]

/-- Settles O11: each row's guard holds, and with nothing stalled or queued it does what its block's initialiser does. -/
theorem resetReleaseRunsTheInitialisers : Obligations.ResetReleaseRunsTheInitialisers := by
  unfold Obligations.ResetReleaseRunsTheInitialisers
  refine ⟨?_, ?_, ?_, ?_⟩
  · intro s hst hr hc
    show execCoreResetRelease s = _
    simp [execCoreResetRelease, hst, hr, hc]
  · intro s hc hr
    refine ⟨fun hs => ?_, fun a v hs ha => ?_⟩ <;> show execSramInitDone s = _
    · simp [execSramInitDone, hc, hr, hs]
    · simp [execSramInitDone, hc, hr, hs, ha]
  · intro s hz hw hs
    have e : execPkeBankZeroDone s = .next (pkZeroDone s) := by
      unfold execPkeBankZeroDone
      rw [if_pos hz, pkStallDone_none (s := pkZeroDone s) hs, pqDispatch_empty (s := pkZeroDone s) hw]
    exact ⟨pkZeroDone s, e, rfl, rfl, rfl, rfl⟩
  · intro s hl hst
    refine ⟨_, congrArg Host.Outcome.next (if_neg (by simp [hl, hst])), ?_⟩
    exact ⟨rfl, rfl, rfl, rfl, rfl, rfl, rfl, rfl, rfl⟩

/-! ## Watchdog, timer and clock stop -/

/-- Settles O12: each row's guard is one of the clause's hypotheses. -/
theorem watchdogTimerAndClockStop : Obligations.WatchdogTimerAndClockStop := by
  unfold Obligations.WatchdogTimerAndClockStop
  refine ⟨?_, ?_, ?_, ?_, ?_, ?_, ?_⟩
  · exact fun s v hv => congrArg Host.Outcome.next (if_pos hv)
  · exact fun s v hv => congrArg Host.Outcome.next (if_neg hv)
  · exact fun s he h1 => ⟨_, congrArg Host.Outcome.next (if_pos (by rw [he, h1]; rfl)), rfl⟩
  · intro s ht
    show execTimerCompare s = _
    unfold execTimerCompare; rw [Nat.max_eq_right ht]; rfl
  · exact fun s hf => congrArg Host.Outcome.next (if_pos (by rcases hf with hf | hf <;> simp [fwWfw, hf]))
  · exact fun s h1 h2 => congrArg Host.Outcome.next (if_neg (by simp [fwWfw, h1, h2]))
  · exact fun s m => rfl

/-! ## The fabric window (R69, R70) -/

section
variable {u off v : Nat} {w a : Bool} {s : State}
theorem fabricAccess_busError (hc : s.wd.coreRun = true) (ha : s.wd.access = none) (h : unitUp s u = false ∨ 2 ^ 24 ≤ off ∨ off % 4 ≠ 0) :
    fabricAccess u off w v a s = { s with wd := { s.wd with last := .busError } } := by
  unfold fabricAccess
  rw [if_neg (by simp [hc, ha]), if_pos]
  rcases h with h | h | h
  · simp [h]
  · rw [decide_eq_true h]; simp
  · simp [h]
/-- An access that the map takes: the unit answers it, or it stays in flight. -/
theorem fabricAccess_taken (hc : s.wd.coreRun = true) (ha : s.wd.access = none) (hu : unitUp s u = true) (ho : off < 2 ^ 24) (h4 : off % 4 = 0) :
    fabricAccess u off w v a s =
      if !a then { s with wd := { s.wd with access := some ⟨u, off, w, v⟩ } }
      else if w then unitWrite u off v { s with wd := { s.wd with last := .ok 0 } }
      else { s with wd := { s.wd with last := .ok (unitRead u off s) }, draws := s.draws + 1 } := by
  unfold fabricAccess
  rw [if_neg (by simp [hc, ha]), if_neg (by rw [decide_eq_false (Nat.not_le.2 ho)]; simp [hu, h4])]
end

/-! ## REGISTER_WRITE -/

/-- A write of the core while it issues accesses. -/
theorem regWrite_core {a v : Nat} {s : State} (h : a < 2 ^ 32) (hc : s.wd.coreRun = true) (ha : s.wd.access = none) (hs : s.wd.stall = none) :
    regWrite a v s = coreWrite a v s := by
  unfold regWrite; rw [if_neg (Nat.not_le.2 h), if_neg (by simp [hc, ha, hs])]

/-- SRAM lies in no undescribed block (Table 3-2). -/
theorem undescribed_sram {a : Nat} (h1 : 0x10000000 ≤ a) (h2 : a < 0x10100000) : undescribed a = false := by
  unfold undescribed; simp; omega

theorem coreWrite_sram {a v : Nat} {s : State} (h1 : 0x10000000 ≤ a) (h2 : a < 0x10100000) (h4 : a % 4 = 0) : coreWrite a v s =
    if s.wd.sramReady then wdOk { s with wd := { s.wd with
        sram := cellPuts 0#8 (a - 0x10000000) (toLe 4 v) s.wd.sram, flips := s.wd.flips.filter (· != a) } }
    else wdStall a v s := by
  unfold coreWrite; rw [if_neg (by simp [h4]), if_pos (by simp [h1, h2])]

/-- A host write that meets no mailbox buffer: dropped with an Unsupported Request, or taken by the register blocks (R202). -/
theorem hostWrite_noBuffer {d o n v : Nat} {b w : Bool} {s : State} (hb : barOn s d = true) (hm : mbxBuffer o = none) : hostWrite d b o n v w s =
    if !w || !(n = 4 || n = 8) || o % n ≠ 0 then aerUr s
    else if b then s
    else if n = 4 then bar0Word32 d o (v % 2 ^ 32) s
    else if d = 0 && 0x110000 ≤ o && o < 0x150000 then (if o % 0x1000 = 0 then invLane ((o - 0x110000) / 0x1000) v s else s)
    else bar0Word32 d (o + 4) (v / 2 ^ 32) (bar0Word32 d o (v % 2 ^ 32) s) := by
  have hnone : (if b || d ≠ 0 then none else mbxBuffer o) = none := by rw [hm]; exact ite_self _
  unfold hostWrite; rw [if_neg (by simp [hb]), hnone]

/-- Settles O17: the window by the two cases of `fabricAccess`, SRAM by `coreWrite_sram`, host writes by `hostWrite_noBuffer`. -/
theorem fabricWindowAndRegisterWrites : Obligations.FabricWindowAndRegisterWrites := by
  unfold Obligations.FabricWindowAndRegisterWrites
  refine ⟨?_, ?_, ?_, ?_, ?_, ?_, ?_, ?_⟩
  · intro u off w a v s hc ha
    refine ⟨fun h => congrArg Host.Outcome.next (fabricAccess_busError hc ha h), fun hu ho h4 => ?_⟩
    have e : exec (.fabricWindowAccess u off w v a) s = .next _ := congrArg Host.Outcome.next (fabricAccess_taken (v := v.toNat) hc ha hu ho h4)
    refine ⟨?_, ?_, ?_⟩
    · rintro rfl; exact e
    · rintro rfl rfl; exact e
    · rintro rfl rfl; exact e
  · exact fun s x h => congrArg Host.Outcome.next (if_pos (by rw [h]; rfl))
  · intro a v s h hu h4 hc
    exact if_pos (by rw [decide_eq_true h, hu, h4, hc]; rfl)
  · exact fun a v s h hu hc ha hs => (exec_registerWrite (.inl hu) v s).trans (congrArg Host.Outcome.next (regWrite_core h hc ha hs))
  · intro a v s h1 h2 h4 hc ha hs
    have e := (exec_registerWrite (.inl (undescribed_sram h1 h2)) v s).trans
      (congrArg Host.Outcome.next ((regWrite_core (by omega) hc ha hs).trans (coreWrite_sram h1 h2 h4)))
    refine ⟨fun hr => e.trans ?_, fun hr => e.trans ?_⟩ <;> rw [hr] <;> rfl
  · exact fun a v s h => (exec_registerWrite (.inr h) v s).trans (congrArg Host.Outcome.next (if_pos h))
  · intro d o v s hb hm h4
    rw [hostWrite_noBuffer hb hm, if_neg (by simp [h4]), if_neg Bool.false_ne_true, if_pos rfl]
  · intro d o n v b w s hb hm h
    rw [hostWrite_noBuffer hb hm]
    refine if_pos ?_
    rcases h with h | h
    · simp [h]
    · simp [h]

/-! ## What follows from an event of the sequencer (R76) -/

/-- Where nothing runs before and after, nothing follows. -/
theorem sqEvent_free {f : State → State} {s t : State} (h : s.sq.busy = false) (e : f s = t) (ht : SqFree t) : sqEvent f s = t := by
  subst e; exact sqEvent_idle h ht
/-- Where the table goes on, nothing follows. -/
theorem sqEvent_running {f : State → State} {s t : State} (e : f s = t) (hb : t.sq.busy = true) (ha : t.wd.access = none) : sqEvent f s = t := by
  subst e; exact sqEvent_busy hb ha
theorem sqEvent_congr {f g : State → State} {s : State} (h : f s = g s) : sqEvent f s = sqEvent g s := by unfold sqEvent; rw [h]

/-! ## Internal mailboxes (R71, R72, R224) -/

section
variable {u g : Nat} {f : Bytes} {s : State}
theorem imbPost_down (hu : unitUp s u = false) : imbPost u g f s = s := if_pos (by simp [hu])
/-- The response buffer is full: the unit keeps the frame. -/
theorem imbPost_held (hu : unitUp s u = true) (hv : (unitS s u).rspValid = true) :
    imbPost u g f s = modUnit u (fun x => { x with held := x.held ++ [(BitVec.ofNat 8 g, f.take 896)] }) s := by
  unfold imbPost; rw [if_neg (by simp [hu])]; exact if_pos hv
/-- The response buffer is free: the frame is posted, and firmware is told where the unit's interrupt is enabled. -/
theorem imbPost_posted (hu : unitUp s u = true) (hv : (unitS s u).rspValid = false) (hi : (unitS s u).irqEn = true) :
    imbPost u g f s = imbHandle u g (f.take 896)
      (irq 3 (modUnit u (fun x => { x with rspValid := true, rspLen := (f.take 896).length, rspBuf := f.take 896 }) s)) := by
  unfold imbPost; rw [if_neg (by simp [hu])]; dsimp only
  rw [if_neg (Bool.eq_false_iff.1 hv), if_pos hi]
/-- A frame of the release before is discarded (R72). -/
theorem imbHandle_stale (hf : s.wd.fw = .wfw) (ho : field f 0 2 ≠ 0xFF01) (hg : g = ((unitS s u).gen.toNat + 255) % 256) : imbHandle u g f s = s := by
  unfold imbHandle; rw [if_neg (by simp [fwWfw, hf])]; dsimp only
  rw [if_neg (by simp [ho]), if_pos hg]
/-- Clearing RSP_VALID leaves the frames that the unit keeps. -/
theorem held_rspClear : (unitS (modUnit u (fun x => { x with rspValid := false }) s) u).held = (unitS s u).held := by
  by_cases h : u < s.units.length
  · rw [unitS_modUnit h]
  · simp [unitS, modUnit, modNth, nth, h]
end

/-! ## Heartbeats (R73, R500) -/

theorem heartbeatOver_crash {u : Nat} {s : State} (hu : unitUp s u = true) (hl : (unitS s u).hbLim < (unitS s u).hbAge)
    (hi : (unitS s u).hbIrqEn = true) (hf : fwWfw s = true) : heartbeatOver u s = unitCrash u 1 (irq 3 s) := by
  unfold heartbeatOver; rw [if_neg (by simp [hu, hl])]; dsimp only
  rw [hi, if_pos rfl, if_pos (by rw [Bool.and_true]; exact hf)]

/-- Settles O18: a frame is refused, kept or posted by `imbPost`'s cases; heartbeats by their own guards. -/
theorem internalMailboxesAndHeartbeats : Obligations.InternalMailboxesAndHeartbeats := by
  unfold Obligations.InternalMailboxesAndHeartbeats
  refine ⟨?_, ?_, ?_, ?_, ?_, ?_, ?_, ?_, ?_, ?_⟩
  · intro u f s hc
    refine ⟨fun hu => ?_, fun hu => ?_⟩ <;> show Host.Outcome.next (imbSend u f s) = _ <;> unfold imbSend <;> rw [if_neg (by simp [hc])]
    · rw [if_pos (by simp [hu])]
    · rw [if_neg (by simp [hu])]; rfl
  · intro u g f s hu
    refine ⟨fun hv hfree => ?_, fun hv hi => ?_⟩ <;> refine congrArg Host.Outcome.next ?_
    · exact sqEvent_free hfree.idle (imbPost_held hu hv) hfree
    · exact sqEvent_congr (imbPost_posted hu hv hi)
  · exact fun u g f s hu hfree => congrArg Host.Outcome.next (sqEvent_free hfree.idle (imbPost_down hu) hfree)
  · exact fun u g f s hf ho hg => imbHandle_stale hf ho hg
  · intro u s
    refine ⟨fun hh hfree => ?_, fun g f r hh => ?_⟩ <;> refine congrArg Host.Outcome.next ?_
    · have e : imbClear u s = modUnit u (fun x => { x with rspValid := false }) s := by
        unfold imbClear; dsimp only; rw [held_rspClear, hh]
      exact sqEvent_free hfree.idle e hfree
    · refine sqEvent_congr ?_
      unfold imbClear; dsimp only; rw [held_rspClear, hh]
  · exact fun u g p s => rfl
  · exact fun u g p s hu hv hi => congrArg Host.Outcome.next (sqEvent_congr (imbPost_posted hu hv hi))
  · exact fun u s hu hc => congrArg Host.Outcome.next (if_pos (by rw [hu, hc]; rfl))
  · exact fun u s hu hl hi hf => congrArg Host.Outcome.next (heartbeatOver_crash hu hl hi hf)
  · exact fun u s hl => congrArg Host.Outcome.next (if_pos (by simp [hl]))

/-! ## One step of a table -/

/-- A ready step runs with its index counted (R76). -/
theorem sqRun_at {op : Nat} {x : StepIn} {s : State} (h : SqAt op s) : sqRun op x s = stepEffect (sqStep s) x (sqPast s) := if_pos h.1

/-- Past a step that is not the last of step RAM the table goes on, whatever the step did to other units. -/
theorem sqAdvance_past {op : Nat} {s t : State} (h : SqAt op s) (ht : t.sq = (sqPast s).sq) : sqAdvance t = t :=
  h.adv (by rw [ht]; rfl) (by rw [ht]; exact h.notLast) (by rw [ht]; rfl)

/-- A step that completes at once and leaves the sequencer past it: nothing settles. -/
theorem sqRun_past {op : Nat} {x : StepIn} {s t : State} (h : SqAt op s) (e : stepEffect (sqStep s) x (sqPast s) = sqAdvance t)
    (hq : t.sq = (sqPast s).sq) (ha : t.wd.access = none) : sqEvent (sqRun op x) s = t :=
  sqRun_of h (e.trans (sqAdvance_past h hq)) (by rw [hq]; exact h.busy) ha

/-- What an end of a table may do to the registers beside its own flags: nothing that firmware goes on from. -/
def EndsBy (f : Seqr → Seqr) : Prop := ∀ q : Seqr, (f q).busy = q.busy ∧ (f q).purpose = q.purpose ∧ (f q).queue = q.queue

theorem sqEnded_sq (f : Seqr → Seqr) (s : State) : (sqEnded f s).sq = f { s.sq with busy := false, wait := .none, abortReq := false } := by
  simp [sqEnded]
theorem sqEnded_wd (f : Seqr → Seqr) (s : State) : (sqEnded f s).wd = s.wd := by simp [sqEnded]

/-- A user table that ends, with nothing queued behind it and no failed operation, leaves firmware nothing to do. -/
theorem sqEvent_ended {g : State → State} {f : Seqr → Seqr} {s t : State} (e : g s = sqStop f t) (hf : EndsBy f)
    (hp : t.sq.purpose = .user) (hq : t.sq.queue = []) (he : (sqEnded f t).sq.ecode ≠ 4) (ha : t.wd.access = none) :
    sqEvent g s = sqEnded f t := by
  obtain ⟨hb', hp', hq'⟩ := hf { t.sq with busy := false, wait := .none, abortReq := false }
  rw [← sqEnded_sq f t] at hb' hp' hq'
  exact sqEvent_done e hb' (hp'.trans hp) (hq'.trans hq) he ((congrArg Warden.access (sqEnded_wd f t)).trans ha)

/-- A step that ends the table (END or an error). -/
theorem sqRun_ended {op : Nat} {x : StepIn} {f : Seqr → Seqr} {s t : State} (h : SqAt op s) (e : stepEffect (sqStep s) x (sqPast s) = sqStop f t)
    (hf : EndsBy f) (hp : t.sq.purpose = .user) (hq : t.sq.queue = []) (he : (sqEnded f t).sq.ecode ≠ 4) (ha : t.wd.access = none) :
    sqEvent (sqRun op x) s = sqEnded f t :=
  sqEvent_ended ((sqRun_at h).trans e) hf hp hq he ha

/-- A step that ends a user table with an error of its own. -/
theorem sqRun_error {op n : Nat} {x : StepIn} {s : State} (h : SqAt op s) (e : stepEffect (sqStep s) x (sqPast s) = sqError n (sqPast s))
    (hn : n ≠ 4) (hp : s.sq.purpose = .user) (hq : s.sq.queue = []) :
    sqEvent (sqRun op x) s = sqEnded (fun q => { q with err := true, ecode := n }) (sqPast s) :=
  sqRun_ended h e (fun _ => ⟨rfl, rfl, rfl⟩) hp hq (by rw [sqEnded_sq]; exact hn) h.noAccess

/-! ## What each step does (Table 3-5) -/

/-- Driving an enable is seen by no power-good before its row comes (R558). -/
theorem railPg_driveRail (r q : Nat) (on : Bool) (s : State) : railPg (driveRail r on s) q = railPg s q := by
  obtain ⟨_, _, _, e⟩ := driveRail_frame r on s
  rw [e]; rfl

section
variable {w : Step64} {x : StepIn} {s : State}
theorem stepEffect_nop (h : stepOp w = 0x00) : stepEffect w x s = sqAdvance s := by unfold stepEffect; rw [h]; rfl
theorem stepEffect_endOp (h : stepOp w = 0x01) : stepEffect w x s = sqStop (fun q => { q with done := true }) s := by unfold stepEffect; rw [h]; rfl
theorem stepEffect_skip (h : stepOp w = 0x02) : stepEffect w x s =
    if sqFlag s (stepA w) == (stepB w == 0) then
      (if Config.kSteps ≤ s.sq.pc + 1 + stepC w then sqError 2 s else sqAdvance { s with sq := { s.sq with nextIx := s.sq.pc + 1 + stepC w } })
    else sqAdvance s := by unfold stepEffect; rw [h]; rfl
theorem stepEffect_delay (h : stepOp w = 0x03) : stepEffect w x s = { s with sq := { s.sq with wait := .delay (stepC w) } } := by
  unfold stepEffect; rw [h]; rfl
theorem stepEffect_setarg (h : stepOp w = 0x04) : stepEffect w x s = sqAdvance { s with sq := { s.sq with args := s.sq.args.set (stepA w) (stepC w) } } := by
  unfold stepEffect; rw [h]; rfl
theorem stepEffect_setflag (h : stepOp w = 0x05) :
    stepEffect w x s = sqAdvance { s with sq := { s.sq with sw := setBit s.sq.sw (stepA w - 24) (stepB w == 1) } } := by
  unfold stepEffect; rw [h]; rfl
theorem stepEffect_irq (h : stepOp w = 0x06) : stepEffect w x s = sqAdvance (irq 2 { s with sq := { s.sq with irqcode := stepC w } }) := by
  unfold stepEffect; rw [h]; rfl
theorem stepEffect_join (h : stepOp w = 0x07) :
    stepEffect w x s = if opsOut s then { s with sq := { s.sq with wait := .join } } else sqAdvance s := by
  unfold stepEffect; rw [h]; rfl
theorem stepEffect_reset (h : stepOp w = 0x40) : stepEffect w x s = sqReset (stepA w) (stepB w) x.hlres s := by unfold stepEffect; rw [h]; rfl
theorem stepEffect_clock (h : stepOp w = 0x41) : stepEffect w x s = sqClock (stepA w) (stepB w) s := by unfold stepEffect; rw [h]; rfl
theorem stepEffect_rail (h : stepOp w = 0x42) : stepEffect w x s =
    if railPg s (stepA w) == (stepB w == 1) then sqAdvance (driveRail (stepA w) (stepB w == 1) s)
    else { driveRail (stepA w) (stepB w == 1) s with sq := { s.sq with wait := .rail (stepA w) (stepB w == 1) } } := by
  rw [← railPg_driveRail (stepA w) (stepA w) (stepB w == 1) s]
  unfold stepEffect; rw [h]; rfl
theorem stepEffect_clear (h : stepOp w = 0x10) : stepEffect w x s = sqStartOp (stepA w) (stepB w) (.clear (stepB w) (stepC w == 1)) s := by
  unfold stepEffect; rw [h]; rfl
theorem stepEffect_verify (h : stepOp w = 0x11) : stepEffect w x s = sqStartOp (stepA w) (stepB w) (.verify (stepB w)) s := by
  unfold stepEffect; rw [h]; rfl
theorem stepEffect_kpush (h : stepOp w = 0x20) : stepEffect w x s = kpush (stepA w) (stepB w) (stepC w) x.corrupt s := by
  unfold stepEffect; rw [h]; rfl
theorem stepEffect_kpzero (h : stepOp w = 0x21) : stepEffect w x s =
    if (keyPort s (stepB w) (stepC w)).isNone || (decide (stepB w < 8) && !s.pkg.memPg) then sqError 1 s
    else if !portUp s (stepB w) then sqError 5 s else sqAdvance (kpZero (stepB w) (stepC w) s) := by
  unfold stepEffect; rw [h]; rfl
theorem stepEffect_kszero (h : stepOp w = 0x22) :
    stepEffect w x s = sqAdvance (sqKszero (if stepA w = 0xFF then List.range 64 else [stepA w]) x.bad s) := by
  unfold stepEffect; rw [h]; rfl
theorem stepEffect_digest (h : stepOp w = 0x30) : stepEffect w x s = sqDigest (stepC w) x.busErr s := by unfold stepEffect; rw [h]; rfl
end

/-! ## How a table starts, runs and ends -/

/-- Settles O19: a step that completes goes on by `sqRun_past`, and every end is `sqEvent_ended`. -/
theorem stepTablesStartRunAndEnd : Obligations.StepTablesStartRunAndEnd := by
  unfold Obligations.StepTablesStartRunAndEnd
  refine ⟨?_, ?_, ?_, ?_, ?_, ?_, ?_, ?_, ?_, ?_⟩
  · exact fun s => ⟨fun hb => congrArg Host.Outcome.next (if_pos hb), fun hb => congrArg Host.Outcome.next (if_neg (by simp [hb]))⟩
  · intro s hb ha hp hq he
    refine ⟨fun hw => congrArg Host.Outcome.next ?_, fun hw => congrArg Host.Outcome.next ?_⟩
    · exact sqEvent_ended (by simp [sqAbort, hb, hw]) (fun _ => ⟨rfl, rfl, rfl⟩) hp hq (by rw [sqEnded_sq]; exact he) ha
    · have e : sqAbort s = { s with sq := { s.sq with abortReq := true } } := by simp [sqAbort, hb, hw]
      exact sqEvent_running e hb ha
  · exact fun s h => congrArg Host.Outcome.next (sqRun_past h (stepEffect_nop h.op) rfl h.noAccess)
  · intro s h hp hq he
    exact congrArg Host.Outcome.next
      (sqRun_ended h (stepEffect_endOp h.op) (fun _ => ⟨rfl, rfl, rfl⟩) hp hq (by rw [sqEnded_sq]; exact he) h.noAccess)
  · intro s h hn
    have e := stepEffect_skip (x := quietStep) (s := sqPast s) h.op
    refine ⟨fun hf => congrArg Host.Outcome.next ?_, fun hf => congrArg Host.Outcome.next ?_⟩
    · have hf' : (sqFlag (sqPast s) (stepA (sqStep s)) == (stepB (sqStep s) == 0)) = true := hf
      have hn' : ¬ Config.kSteps ≤ (sqPast s).sq.pc + 1 + stepC (sqStep s) := Nat.not_le.2 hn
      rw [if_pos hf', if_neg hn'] at e
      exact sqRun_of h (e.trans (h.adv rfl hn rfl)) h.busy h.noAccess
    · have hf' : ¬ (sqFlag (sqPast s) (stepA (sqStep s)) == (stepB (sqStep s) == 0)) = true := Bool.eq_false_iff.1 hf
      rw [if_neg hf'] at e
      exact sqRun_past h e rfl h.noAccess
  · exact fun s h => congrArg Host.Outcome.next (sqRun_of h (stepEffect_delay h.op) h.busy h.noAccess)
  · intro s n hb hw hr hn ha
    refine congrArg Host.Outcome.next (sqEvent_running ?_ (t := { s with sq := { s.sq with wait := .none } }) hb ha)
    dsimp only; rw [hw, if_pos hb]; exact sqAdvance_on hr hn
  · intro s hb hw hl ha hp hq
    refine congrArg Host.Outcome.next (sqEvent_ended (t := sqPast s) ?_ (fun _ => ⟨rfl, rfl, rfl⟩) hp hq
      (by rw [sqEnded_sq]; exact (by decide : (1 : Nat) ≠ 4)) ha)
    exact if_pos (by rw [hb, hw]; exact congrArg Bool.not hl)
  · intro s hb hw ha hp hq
    refine congrArg Host.Outcome.next (sqEvent_ended (t := s) ?_ (fun _ => ⟨rfl, rfl, rfl⟩) hp hq
      (by rw [sqEnded_sq]; exact (by decide : (3 : Nat) ≠ 4)) ha)
    unfold sqTimeout
    rcases hw with hw | ⟨n, hw⟩ <;> rw [hw] <;> exact if_pos hb
  · intro s u hb hw ha
    have e : sqTimeout s = s := by unfold sqTimeout; rw [hw]
    exact congrArg Host.Outcome.next (sqEvent_running e hb ha)

/-! ## The flags of SKIP -/

/-- Flags 10 to 23 are reserved and read 0 (Table 3-7). -/
theorem sqFlag_reserved {f : Nat} (s : State) (h1 : 10 ≤ f) (h2 : f ≤ 23) : sqFlag s f = false := by
  have ne (k : Nat) (hk : k < 10) : f ≠ k := by omega
  unfold sqFlag
  simp only [ne, Nat.reduceLT, if_false]
  exact if_neg (by simp; omega)

/-- Flags 24 to 31 are the software flags (Table 3-7). -/
theorem sqFlag_software {k : Nat} (s : State) (h : k < 8) : sqFlag s (24 + k) = bit s.sq.sw k := by
  have ne (j : Nat) (hj : j < 10) : 24 + k ≠ j := by omega
  unfold sqFlag
  simp only [ne, Nat.reduceLT, if_false]
  rw [if_pos (by simp; omega), Nat.add_sub_cancel_left]

/-- Settles O7: flags 0 to 9 are the definition's own, and a reserved flag is 0, which POL = 0 does not skip on. -/
theorem skipTestsTheFlagsOfTheTable : Obligations.SkipTestsTheFlagsOfTheTable := by
  unfold Obligations.SkipTestsTheFlagsOfTheTable
  refine ⟨fun s => ⟨rfl, rfl, rfl, rfl, rfl, rfl, rfl, rfl, rfl, rfl, fun f => sqFlag_reserved s, fun k => sqFlag_software s⟩, fun s h h1 h2 hb => ?_⟩
  have hf : ¬ (sqFlag (sqPast s) (stepA (sqStep s)) == (stepB (sqStep s) == 0)) = true := by
    rw [sqFlag_reserved _ h1 h2, hb]; decide
  exact congrArg Host.Outcome.next (sqRun_past h ((stepEffect_skip h.op).trans (if_neg hf)) rfl h.noAccess)

/-! ## Steps that set registers, rails, clocks and resets

CLOCK (R73, R78, R475). -/

theorem sqClock_stop {t : Nat} {s : State} (h : engineUp s t = true) : sqClock t 0 s =
    sqAdvance (modUnit t (fun x => { x with clkStop := true, hbAge := 0 }) { s with wd := { s.wd with stopReq := setBit s.wd.stopReq t false } }) := by
  unfold sqClock; rw [if_neg (by simp [h]), if_pos rfl]
theorem sqClock_start {t : Nat} {s : State} (h : engineUp s t = true) : sqClock t 1 s =
    if (tileP s t).tripped then sqAdvance s else sqAdvance (modUnit t (fun x => { x with clkStop := false }) s) := by
  unfold sqClock tileP; rw [if_neg (by simp [h]), if_neg (by decide)]
theorem sqClock_down {t b : Nat} {s : State} (h : engineUp s t = false) : sqClock t b s = sqError 5 s := if_pos (by simp [h])

/-! RESET (R80, R501). -/

/-- Units 0 to 7 are the tiles, whatever the assembly (R33). -/
theorem unitType_tile {s : State} {u : Nat} : unitType s u = .tile ↔ u < 8 := by
  unfold unitType
  constructor
  · intro h
    by_contra hu
    rw [if_neg hu] at h
    split at h
    · cases h
    · split at h <;> cases h
  · exact fun h => if_pos h

theorem sqReset_hold {u hl : Nat} {s : State} (h : u < 8 ∨ unitType s u = .port) : sqReset u 0 hl s = sqAdvance (assertReset u s) := by
  rcases h with h | h
  · simp [sqReset, unitType_tile.2 h, bit]
  · simp [sqReset, h, bit]
theorem sqReset_release {u hl : Nat} {s : State} (h : u < 8 ∨ unitType s u = .port) : sqReset u 1 hl s = sqAdvance (releaseReset u hl s) := by
  rcases h with h | h
  · simp [sqReset, unitType_tile.2 h, bit]
  · simp [sqReset, h, bit]
theorem sqReset_ctrlRelease {u hl : Nat} {s : State} (h : unitType s u = .port) : sqReset u 3 hl s =
    sqAdvance (modUnit u (fun x => { x with
      ctrlHeld := false, gen := x.gen + 1#8, hbCnt := 0, hbAge := 0, go := false, rung := false, cmdOut := none, outQ := [], tag := 1 }) s) := by
  simp [sqReset, h, bit]
/-- A port die whose controller alone is held in reset (R501). -/
noncomputable def ctrlReset (x : UnitS) : UnitS :=
  { x with ctrlHeld := true, go := false, held := [], inbox := [], doorbell := 0, rung := false, cmdOut := none, outQ := [], awaitReady := false, hbAge := 0 }

theorem sqReset_ctrlHold {u hl : Nat} {s : State} (h : unitType s u = .port) : sqReset u 2 hl s =
    sqAdvance (portsLeave u (modUnit u ctrlReset s)) := by
  simp [sqReset, h, bit]; rfl
/-- No unit but a TILE or a PORT has a reset, and a tile has no port controller. -/
theorem sqReset_refused {u b hl : Nat} {s : State} (h : (u < 8 ∧ bit b 1 = true) ∨ (8 ≤ u ∧ unitType s u ≠ .port)) :
    sqReset u b hl s = sqError 1 s := by
  rcases h with ⟨hu, hb⟩ | ⟨hu, ht⟩
  · simp [sqReset, unitType_tile.2 hu, hb]
  · have hn : unitType s u ≠ .tile := fun e => absurd (unitType_tile.1 e) (by omega)
    simp [sqReset, hn, ht]

/-- B of a legal RESET step is at most 3 (Table 3-5). -/
theorem reset_stepB {s : State} (h : SqAt 0x40 s) : stepB (sqStep s) ≤ 3 := by
  have hl := h.legal
  unfold stepLegal at hl
  rw [h.op] at hl
  simp at hl
  exact hl.1

/-- A port that has left is neither UP nor DEGRADED. -/
theorem portLeft_st (x : LPort) : (portLeft x).st ≠ .up ∧ (portLeft x).st ≠ .degraded := by
  unfold portLeft LPort.leave
  cases h : x.st <;> simp [h]

/-- The ports of a die leave: nothing but ports and the log moves, and none of them is UP or DEGRADED. -/
theorem portsLeave_spec (u : Nat) (s : State) : (∃ d l, portsLeave u s = { s with ln := { s.ln with dies := d }, lg := l })
    ∧ ∀ p < 12, (lportS (portsLeave u s) (ordOfUnit s u) p).st ≠ .up ∧ (lportS (portsLeave u s) (ordOfUnit s u) p).st ≠ .degraded := by
  obtain ⟨⟨hf, -⟩, hp⟩ := portLeaves_spec u (List.range 12) s
  rw [← portsLeave_eq] at hf hp
  exact ⟨hf, fun p h => by rw [hp p (List.mem_range.2 h)]; exact portLeft_st _⟩

theorem releaseReset_sq (u hl : Nat) (s : State) : (releaseReset u hl s).sq = s.sq := by
  obtain ⟨_, _, e⟩ := releaseReset_frame u hl s; rw [e]
theorem releaseReset_wd (u hl : Nat) (s : State) : (releaseReset u hl s).wd = s.wd := by
  obtain ⟨_, _, e⟩ := releaseReset_frame u hl s; rw [e]

/-- Settles O20: each step by its equation above; it goes on past itself, waits, or ends the table with its ECODE. -/
theorem settingStepsRailsClocksAndResets : Obligations.SettingStepsRailsClocksAndResets := by
  unfold Obligations.SettingStepsRailsClocksAndResets
  refine ⟨?_, ?_, ?_, ?_, ?_, ?_, ?_⟩
  · exact fun s h => congrArg Host.Outcome.next (sqRun_of h ((stepEffect_setarg h.op).trans (h.adv rfl h.notLast rfl)) h.busy h.noAccess)
  · exact fun s h => congrArg Host.Outcome.next (sqRun_of h ((stepEffect_setflag h.op).trans (h.adv rfl h.notLast rfl)) h.busy h.noAccess)
  · exact fun s h => congrArg Host.Outcome.next (sqRun_of h ((stepEffect_irq h.op).trans (h.adv rfl h.notLast rfl)) h.busy h.noAccess)
  · intro s h
    have e := stepEffect_join (x := quietStep) (s := sqPast s) h.op
    refine ⟨fun ho => congrArg Host.Outcome.next (sqRun_of h (e.trans (if_pos ho)) h.busy h.noAccess), fun ho => congrArg Host.Outcome.next ?_⟩
    exact sqRun_past h (e.trans (if_neg (Bool.eq_false_iff.1 ho))) rfl h.noAccess
  · intro s h
    have e := stepEffect_rail (x := quietStep) (s := sqPast s) h.op
    refine congrArg Host.Outcome.next ?_
    by_cases hg : (railPg s (stepA (sqStep s)) == (stepB (sqStep s) == 1)) = true
    · rw [if_pos hg]; exact sqRun_past h (e.trans (if_pos hg)) rfl h.noAccess
    · rw [if_neg hg]; exact sqRun_of h (e.trans (if_neg hg)) h.busy h.noAccess
  · intro s h
    have e := stepEffect_clock (x := quietStep) (s := sqPast s) h.op
    refine ⟨fun hu => ⟨fun hb => ?_, fun hb ht => ?_, fun hb ht => ?_⟩, fun hu hp hq => ?_⟩ <;> refine congrArg Host.Outcome.next ?_
    · rw [hb] at e; exact sqRun_past h (e.trans (sqClock_stop hu)) rfl h.noAccess
    · rw [hb] at e; exact sqRun_past h (e.trans ((sqClock_start (s := sqPast s) hu).trans (if_neg (Bool.eq_false_iff.1 ht)))) rfl h.noAccess
    · rw [hb] at e; exact sqRun_past h (e.trans ((sqClock_start (s := sqPast s) hu).trans (if_pos ht))) rfl h.noAccess
    · exact sqRun_error h (e.trans (sqClock_down hu)) (by decide) hp hq
  · intro s hl h u
    have e := stepEffect_reset (x := { quietStep with hlres := hl }) (s := sqPast s) h.op
    refine ⟨fun hu => ⟨fun hb => ?_, fun hb => ?_⟩, fun hu hlen => ⟨fun hb => ?_, fun hb => ?_⟩, fun hr hp hq => ?_⟩
    · rw [hb] at e; exact congrArg Host.Outcome.next (sqRun_past h (e.trans (sqReset_hold hu)) rfl h.noAccess)
    · rw [hb] at e
      exact congrArg Host.Outcome.next (sqRun_past h (e.trans (sqReset_release hu)) (releaseReset_sq _ _ _) (by rw [releaseReset_wd]; exact h.noAccess))
    · rw [hb] at e
      exact ⟨_, congrArg Host.Outcome.next (sqRun_past h (e.trans (sqReset_ctrlRelease hu)) rfl h.noAccess), rfl, unitS_modUnit (s := sqPast s) hlen⟩
    · rw [hb] at e
      have e := e.trans (sqReset_ctrlHold hu)
      obtain ⟨⟨d, l, ef⟩, hports⟩ := portsLeave_spec u (modUnit u ctrlReset (sqPast s))
      have eu := unitS_modUnit (s := sqPast s) (f := ctrlReset) hlen
      refine ⟨_, congrArg Host.Outcome.next (sqRun_past h e (by rw [ef]; rfl) (by rw [ef]; exact h.noAccess)), by rw [ef]; rfl, ?_, ?_, ?_, hports⟩
      all_goals rw [ef]; unfold unitS at eu ⊢; rw [eu]; rfl
    · have hr' : (u < 8 ∧ bit (stepB (sqStep s)) 1 = true) ∨ (8 ≤ u ∧ unitType s u ≠ .port) := by
        refine hr.imp_left fun ⟨hu, h2⟩ => ⟨hu, ?_⟩
        have h3 := reset_stepB h
        unfold bit; simp; omega
      exact congrArg Host.Outcome.next (sqRun_error h (e.trans (sqReset_refused hr')) (by decide) hp hq)

/-! ## Steps toward units -/

section
variable {u r : Nat} {op : UnitOp} {s : State}
theorem sqStartOp_badRegion (h : regionOk s u r = false) : sqStartOp u r op s = sqError 1 s := if_pos (by simp [h])
theorem sqStartOp_down (h : regionOk s u r = true) (hu : engineUp s u = false) : sqStartOp u r op s = sqError 5 s := by
  unfold sqStartOp; rw [if_neg (by simp [h]), if_pos (by simp [hu])]
theorem sqStartOp_waits (h : regionOk s u r = true) (hu : engineUp s u = true) (ho : (unitS s u).op.isSome = true) :
    sqStartOp u r op s = { s with sq := { s.sq with wait := .start u } } := by
  unfold sqStartOp; rw [if_neg (by simp [h]), if_neg (by simp [hu]), if_pos ho]
theorem sqStartOp_issues (h : regionOk s u r = true) (hu : engineUp s u = true) (ho : (unitS s u).op = none) : sqStartOp u r op s = sqIssue u op s := by
  unfold sqStartOp; rw [if_neg (by simp [h]), if_neg (by simp [hu]), if_neg (by simp [ho])]
/-- The first VERIFY of a table draws its seed (R327). -/
theorem sqIssue_seeds (h : s.sq.seed = none) : sqIssue u (.verify r) s =
    sqAdvance (modUnit u (fun x => { x with op := some (.verify r) }) { s with sq := { s.sq with seed := some s.draws }, draws := s.draws + 1 }) := by
  simp [sqIssue, h]
theorem sqIssue_seeded (h : s.sq.seed.isSome = true) :
    sqIssue u (.verify r) s = sqAdvance (modUnit u (fun x => { x with op := some (.verify r) }) s) := by
  rw [Option.isSome_iff_exists] at h
  obtain ⟨d, h⟩ := h
  simp [sqIssue, h]
end

theorem poisonClear_sq (u r : Nat) (s : State) : (poisonClear u r s).sq = s.sq := by unfold poisonClear; split <;> rfl
theorem poisonClear_wd (u r : Nat) (s : State) : (poisonClear u r s).wd = s.wd := by unfold poisonClear; split <;> rfl

section
variable {u n r : Nat} {s : State}
/-- A unit's operation that completes while no table runs (R80). -/
theorem unitOpDone_clear {p : Bool} (hb : s.sq.busy = false) (h : (unitS s u).op = some (.clear r p)) : unitOpDone u n false s =
    poisonClear u r (modUnit u (regionCleared r p (decide (u < 8))) (modUnit u (fun x => { x with op := none }) s)) := by
  unfold unitOpDone; rw [h]; dsimp only
  rw [if_neg Bool.false_ne_true, if_neg (by rw [poisonClear_sq]; exact Bool.eq_false_iff.1 hb)]
theorem unitOpDone_verify (hb : s.sq.busy = false) (h : (unitS s u).op = some (.verify r)) : unitOpDone u n false s =
    { modUnit u (fun x => { x with op := none }) s with sq := { s.sq with vfail := s.sq.vfail || n ≠ 0 } } := by
  unfold unitOpDone; rw [h]; dsimp only
  rw [if_neg Bool.false_ne_true]
  by_cases hn : n = 0
  · rw [if_pos hn, if_neg (by simpa using hb)]; simp [modUnit, hn]
  · rw [if_neg hn, if_neg (by simpa using hb)]; simp [modUnit, hn]
theorem unitOpDone_fault (h : (unitS s u).op.isSome = true) : unitOpDone u n true s =
    if s.sq.busy then sqError 4 (modUnit u (fun x => { x with op := none }) s) else modUnit u (fun x => { x with op := none }) s := by
  rw [Option.isSome_iff_exists] at h
  obtain ⟨op, h⟩ := h
  unfold unitOpDone; rw [h]; rfl
end

/-! ## Key ports (R124) -/

theorem kpInstall_sq (u i : Nat) (k : Bytes) (s : State) : (kpInstall u i k s).sq = s.sq := by unfold kpInstall mapReset; split <;> rfl
theorem kpInstall_wd (u i : Nat) (k : Bytes) (s : State) : (kpInstall u i k s).wd = s.wd := by unfold kpInstall mapReset; split <;> rfl
theorem kpZero_sq (u i : Nat) (s : State) : (kpZero u i s).sq = s.sq := by unfold kpZero mapReset; split <;> rfl
theorem kpZero_wd (u i : Nat) (s : State) : (kpZero u i s).wd = s.wd := by unfold kpZero mapReset; split <;> rfl

section
variable {k u i cls len : Nat} {c : Bool} {s : State}
/-- No such key port, or a memory controller held in reset. -/
theorem kpush_illegal (h : keyPort s u i = none ∨ (u < 8 ∧ s.pkg.memPg = false)) : kpush k u i c s = sqError 1 s := by
  unfold kpush
  cases hk : keyPort s u i with
  | none => rfl
  | some p =>
    obtain ⟨hu, hm⟩ : u < 8 ∧ s.pkg.memPg = false := h.resolve_left (by simp [hk])
    exact if_pos (by simp [hu, hm])
/-- A port that takes the beat judges class and KCV. -/
theorem kpush_judged (hk : keyPort s u i = some (cls, len)) (hu : portUp s u = true) (hm : u < 8 → s.pkg.memPg = true) : kpush k u i c s =
    if slotServes (slotS s k) cls && slotKcv (slotS s k) == (slotS s k).kcv && !c then sqAdvance (kpInstall u i (slice (slotS s k).content 0 len) s)
    else sqAdvance { s with sq := { s.sq with kperr := true } } := by
  unfold kpush; rw [hk]; dsimp only
  rw [if_neg (by simpa using hm), if_neg (by simp [hu])]
end

/-! ## Zeroing key slots (R117, R125, R146) -/

/-- From `s` to `t` at most messages and jobs were cut: the sequencer, the warden's registers, the alarms and the key store's end
flags stand, and a slot is as it was, or it was PENDING and is empty. -/
def Cut (s t : State) : Prop :=
  (t.sq = s.sq ∧ t.wd = s.wd) ∧ (t.pw.alarm = s.pw.alarm ∧ t.ks.err = s.ks.err ∧ t.ks.ecode = s.ks.ecode)
  ∧ t.ks.slots.length = s.ks.slots.length ∧ ∀ j, slotS t j = slotS s j ∨ ((slotS s j).pending = true ∧ slotS t j = {})

theorem Cut.refl (s : State) : Cut s s := ⟨⟨rfl, rfl⟩, ⟨rfl, rfl, rfl⟩, rfl, fun _ => .inl rfl⟩
/-- What moves none of these fields is no more than a cut. -/
theorem Cut.of_eq {s t u : State} (h : Cut s t) (hq : u.sq = t.sq) (hw : u.wd = t.wd) (ha : u.pw.alarm = t.pw.alarm) (he : u.ks.err = t.ks.err)
    (hc : u.ks.ecode = t.ks.ecode) (hs : u.ks.slots = t.ks.slots) : Cut s u := by
  unfold Cut slotS at *; rw [hq, hw, ha, he, hc, hs]; exact h
theorem Cut.trans {s t u : State} (h : Cut s t) (g : Cut t u) : Cut s u := by
  obtain ⟨⟨hq, hw⟩, ⟨ha, he, hc⟩, hl, hs⟩ := h
  obtain ⟨⟨gq, gw⟩, ⟨ga, ge, gc⟩, gl, gs⟩ := g
  refine ⟨⟨gq.trans hq, gw.trans hw⟩, ⟨ga.trans ha, ge.trans he, gc.trans hc⟩, gl.trans hl, fun j => ?_⟩
  rcases hs j with e | ⟨hp, e⟩
  · rw [← e]; exact gs j
  · rcases gs j with e' | ⟨-, e'⟩
    · exact .inr ⟨hp, e'.trans e⟩
    · exact .inr ⟨hp, e'⟩
theorem Cut.seq {s t : State} (h : Cut s t) : t.sq = s.sq ∧ t.wd = s.wd := h.1
theorem Cut.len {s t : State} (h : Cut s t) : t.ks.slots.length = s.ks.slots.length := h.2.2.1
/-- A slot that was not PENDING is as it was. -/
theorem Cut.keeps {s t : State} (h : Cut s t) {j : Nat} (hp : (slotS s j).pending = false) : slotS t j = slotS s j :=
  (h.2.2.2 j).resolve_right fun ⟨e, _⟩ => by simp [hp] at e
/-- A cut makes no slot DEAD. -/
theorem Cut.live {s t : State} (h : Cut s t) {j : Nat} (hd : (slotS s j).dead = false) : (slotS t j).dead = false := by
  rcases h.2.2.2 j with e | ⟨-, e⟩ <;> rw [e]
  exact hd

theorem slotS_setSlot_self {i : Nat} {x : Slot} {s : State} (h : i < s.ks.slots.length) : slotS (setSlot i x s) i = x := by simp [slotS, setSlot, nth, h]
theorem slotS_setSlot_ne {i j : Nat} (x : Slot) (s : State) (h : j ≠ i) : slotS (setSlot i x s) j = slotS s j := by
  simp [slotS, setSlot, nth, Ne.symm h]

theorem cut_setSlot_pending {i : Nat} {s : State} (h : (slotS s i).pending = true) : Cut s (setSlot i {} s) := by
  refine ⟨⟨rfl, rfl⟩, ⟨rfl, rfl, rfl⟩, by simp [setSlot], fun j => ?_⟩
  by_cases e : j = i
  · subst e; exact (slotS_setSlot_zero j j s).symm.imp_right fun e => ⟨h, e⟩
  · exact .inl (slotS_setSlot_ne _ _ e)
theorem cut_dgEnd (e : Nat) (s : State) : Cut s (dgEnd e s) := by
  unfold dgEnd; dsimp only; split
  · rename_i h
    simp only [Bool.and_eq_true] at h
    exact (cut_setSlot_pending h.2).of_eq rfl rfl rfl rfl rfl rfl
  · exact (Cut.refl s).of_eq rfl rfl rfl rfl rfl rfl
theorem cut_pkCut (i : Nat) (s : State) : Cut s (pkCut i s) := by
  unfold pkCut; split
  · split <;> exact (Cut.refl s).of_eq rfl rfl rfl rfl rfl rfl
  · exact Cut.refl s
theorem cut_pkCutAll (s : State) : Cut s (pkCutAll s) := by
  unfold pkCutAll; split <;> exact (Cut.refl s).of_eq rfl rfl rfl rfl rfl rfl

/-- ZERO of a live slot writes it, after cutting the message and the job that use it. -/
theorem zeroSlot_cut {i : Nat} {b : Bool} {s : State} (h : (slotS s i).dead = false) : ∃ e, Cut s e ∧ zeroSlot i b s = setSlot i { dead := b } e := by
  have key (t : State) (ht : Cut s t) : ∃ e, Cut s e ∧
      setSlot i { dead := b } (if t.ks.drbgOk then { t with draws := t.draws + 1 } else { t with ks := { t.ks with patfb := true } })
        = setSlot i { dead := b } e := by
    refine ⟨_, ?_, rfl⟩
    split <;> exact ht.of_eq rfl rfl rfl rfl rfl rfl
  unfold zeroSlot; rw [if_neg (by simp [h])]
  refine key _ (Cut.trans ?_ (cut_pkCut i _))
  split
  · exact cut_dgEnd 5 s
  · exact Cut.refl s
theorem zeroSlot_dead {i : Nat} {b : Bool} {s : State} (h : (slotS s i).dead = true) : zeroSlot i b s = s := if_pos h

/-- What ZERO of the slots `l` leaves, of which `bad` read back nonzero: a live slot it names is zero, DEAD where it read back nonzero; any
other slot is as it was unless it was PENDING. -/
def Zeroed (l bad : List Nat) (s t : State) : Prop :=
  (t.sq = s.sq ∧ t.wd = s.wd) ∧ t.ks.slots.length = s.ks.slots.length
  ∧ (∀ i ∈ l, i < s.ks.slots.length → (slotS s i).dead = false → slotS t i = { dead := decide (i ∈ bad) })
  ∧ ∀ i, i ∉ l ∨ (slotS s i).dead = true → (slotS s i).pending = false → slotS t i = slotS s i

/-- What moves none of these fields leaves them zeroed. -/
theorem Zeroed.of_eq {l bad : List Nat} {s t u : State} (h : Zeroed l bad s t) (hq : u.sq = t.sq) (hw : u.wd = t.wd) (hs : u.ks.slots = t.ks.slots) :
    Zeroed l bad s u := by
  unfold Zeroed slotS at *; rw [hq, hw, hs]; exact h
/-- A cut afterwards finds no PENDING slot among those zeroed. -/
theorem Zeroed.cut {l bad : List Nat} {s t u : State} (h : Zeroed l bad s t) (g : Cut t u) : Zeroed l bad s u := by
  obtain ⟨⟨hq, hw⟩, hl, hz, hr⟩ := h
  refine ⟨⟨g.seq.1.trans hq, g.seq.2.trans hw⟩, g.len.trans hl, fun i hi hlen hd => ?_, fun i hi hp => ?_⟩
  · rw [g.keeps (by rw [hz i hi hlen hd]), hz i hi hlen hd]
  · rw [g.keeps (by rw [hr i hi hp]; exact hp), hr i hi hp]
/-- What is zeroed depends on the slots alone. -/
theorem Zeroed.of_slots {l bad : List Nat} {s t u : State} (hq : t.sq = s.sq) (hw : t.wd = s.wd) (hs : t.ks.slots = s.ks.slots) (h : Zeroed l bad t u) :
    Zeroed l bad s u := by
  unfold Zeroed slotS at *; rw [hq, hw, hs] at h; exact h

/-- ZERO of slots one after another (R125): a slot is named once, so what it is left with stands. -/
theorem zeroed_foldl (bad : List Nat) {l : List Nat} (hl : l.Nodup) (s : State) :
    Zeroed l bad s (l.foldl (fun s i => zeroSlot i (decide (i ∈ bad)) s) s) := by
  induction l generalizing s with
  | nil => exact ⟨⟨rfl, rfl⟩, rfl, fun _ h => absurd h List.not_mem_nil, fun _ _ _ => rfl⟩
  | cons a l ih =>
    obtain ⟨ha, hl⟩ := List.nodup_cons.1 hl
    rw [List.foldl_cons]
    cases hd : (slotS s a).dead with
    | true =>
      rw [zeroSlot_dead hd]
      obtain ⟨hsame, hl', hzero, hrest⟩ := ih hl s
      refine ⟨hsame, hl', fun i hi hlen hdi => ?_, fun i hi => hrest i ?_⟩
      · rcases List.mem_cons.1 hi with rfl | hi
        · simp [hd] at hdi
        · exact hzero i hi hlen hdi
      · exact hi.imp_left fun h h' => h (List.mem_cons_of_mem _ h')
    | false =>
      obtain ⟨e, hc, he⟩ := zeroSlot_cut (b := decide (a ∈ bad)) hd
      rw [he]
      obtain ⟨⟨gq, gw⟩, gl, hzero, hrest⟩ := ih hl (setSlot a { dead := decide (a ∈ bad) } e)
      have hlen' : (setSlot a { dead := decide (a ∈ bad) } e).ks.slots.length = s.ks.slots.length := by simp [setSlot, hc.len]
      have hne {i : Nat} (h : i ≠ a) := slotS_setSlot_ne { dead := decide (a ∈ bad) } e h
      refine ⟨⟨gq.trans hc.seq.1, gw.trans hc.seq.2⟩, gl.trans hlen', fun i hi hlen hdi => ?_, fun i hi hp => ?_⟩
      · by_cases hia : i = a
        · subst hia
          have hself := slotS_setSlot_self (x := { dead := decide (i ∈ bad) }) (by rw [hc.len]; exact hlen)
          rw [hrest i (.inl ha) (by rw [hself]), hself]
        · exact hzero i ((List.mem_cons.1 hi).resolve_left hia) (by rw [hlen']; exact hlen) (by rw [hne hia]; exact hc.live hdi)
      · have hia : i ≠ a := by
          rintro rfl
          rcases hi with h | h
          · exact h List.mem_cons_self
          · simp [hd] at h
        have hk : slotS (setSlot a { dead := decide (a ∈ bad) } e) i = slotS s i := (hne hia).trans (hc.keeps hp)
        rw [hrest i ?_ (by rw [hk]; exact hp), hk]
        rw [hk]; exact hi.imp_left fun h h' => h (List.mem_cons_of_mem _ h')

theorem cut_logEvent (c u : Nat) (d : Bytes) (s : State) : Cut s (logEvent c u d s) := by
  obtain ⟨_, _, _, e⟩ := logEvent_frame c u d s
  rw [e]; exact (Cut.refl s).of_eq rfl rfl rfl rfl rfl rfl

/-- A safety alarm cuts what is open and sets its bit (R474). -/
theorem cut_setAlarm (b : Nat) (s : State) : Cut { s with pw := { s.pw with alarm := setBit s.pw.alarm b true } } (setAlarm b s) := by
  have key (t : State) (ht : Cut { s with pw := { s.pw with alarm := setBit s.pw.alarm b true } } t) :
      Cut { s with pw := { s.pw with alarm := setBit s.pw.alarm b true } } (irq 0 (if t.pk.busy then { t with pk := { t.pk with alarm := true } } else t)) := by
    split <;> exact ht.of_eq rfl rfl rfl rfl rfl rfl
  unfold setAlarm; dsimp only
  refine (key _ ?_).trans (cut_logEvent _ _ _ _)
  split
  · exact cut_dgEnd 8 { s with pw := { s.pw with alarm := setBit s.pw.alarm b true, thermtripLow := s.pw.thermtripLow || decide (b < 8) || b == 20 } }
  · exact (Cut.refl _).of_eq rfl rfl rfl rfl rfl rfl

/-- KSZERO of the slots `l` (R125): they are zeroed; DONE where each live one read back zero, otherwise ECODE 8 and its alarm. -/
theorem sqKszero_spec {l : List Nat} (hl : l.Nodup) (bad : List Nat) (s : State) :
    Zeroed l bad s (sqKszero l bad s)
    ∧ ((∀ i ∈ l, i ∈ bad → (slotS s i).dead = true) → (sqKszero l bad s).ks.done = true ∧ (sqKszero l bad s).ks.ecode = 0)
    ∧ ((∃ i ∈ l, i ∈ bad ∧ (slotS s i).dead = false) →
        (sqKszero l bad s).ks.err = true ∧ (sqKszero l bad s).ks.ecode = 8 ∧ bit (sqKszero l bad s).pw.alarm 17 = true) := by
  have hz : Zeroed l bad s (l.foldl (fun s i => zeroSlot i (decide (i ∈ bad)) s) (if 64 ≤ l.length then pkCutAll s else s)) := by
    split
    · have hk : (pkCutAll s).ks = s.ks := by unfold pkCutAll; split <;> rfl
      obtain ⟨hq, hw⟩ := (cut_pkCutAll s).seq
      exact Zeroed.of_slots hq hw (by rw [hk]) (zeroed_foldl bad hl _)
    · exact zeroed_foldl bad hl s
  unfold sqKszero; dsimp only
  generalize l.foldl (fun s i => zeroSlot i (decide (i ∈ bad)) s) (if 64 ≤ l.length then pkCutAll s else s) = z at hz ⊢
  by_cases hn : ∀ i ∈ l, i ∈ bad → (slotS s i).dead = true
  · have he : (l.filter (fun i => decide (i ∈ bad) && !(slotS s i).dead)).isEmpty = true := by
      rw [List.isEmpty_iff, List.filter_eq_nil_iff]
      intro i hi
      simpa using hn i hi
    rw [if_pos he]
    refine ⟨hz.of_eq rfl rfl rfl, fun _ => ⟨rfl, rfl⟩, fun ⟨i, hi, hb, hd⟩ => ?_⟩
    rw [hn i hi hb] at hd; cases hd
  · have he : ¬ (l.filter (fun i => decide (i ∈ bad) && !(slotS s i).dead)).isEmpty = true := by
      rw [List.isEmpty_iff, List.filter_eq_nil_iff]
      simpa using hn
    rw [if_neg he]
    have hc := cut_setAlarm 17 (irq 7 { z with ks := { z.ks with err := true, ecode := 8 } })
    have ⟨_, ⟨halarm, herr, hecode⟩, _⟩ := hc
    refine ⟨Zeroed.cut ?_ hc, fun h => absurd h hn, fun _ => ⟨herr, hecode, ?_⟩⟩
    · exact hz.of_eq rfl rfl rfl
    · rw [halarm]; exact bit_setBit _ _

/-- The slots a KSZERO step names (Table 3-5). -/
noncomputable def kszeroList (a : Nat) : List Nat := if a = 0xFF then List.range 64 else [a]
theorem kszeroList_nodup (a : Nat) : (kszeroList a).Nodup := by
  unfold kszeroList; split
  · exact List.nodup_range
  · exact List.nodup_singleton a
theorem kszeroList_all : kszeroList 0xFF = List.range 64 := rfl
theorem kszeroList_one {a : Nat} (h : a ≠ 0xFF) : kszeroList a = [a] := if_neg h

/-- A of a legal KSZERO step names a slot or all of them (Table 3-5). -/
theorem kszero_stepA {s : State} (h : SqAt 0x22 s) : stepA (sqStep s) < 64 ∨ stepA (sqStep s) = 0xFF := by
  have hl := h.legal
  unfold stepLegal at hl
  rw [h.op] at hl
  simp at hl
  exact hl.1.1

/-- The zeroing a ready KSZERO step runs, its read-back outcome drawn (R125). -/
noncomputable def kszeroDone (s : State) : State := sqKszero (kszeroList (stepA (sqStep s))) (ksZeroBad s.draws) { sqPast s with draws := s.draws + 1 }

theorem exec_sqKszero {s : State} (h : SqAt 0x22 s) : exec .sqKszero s = .next (kszeroDone s) := by
  obtain ⟨hz, -, -⟩ := sqKszero_spec (kszeroList_nodup (stepA (sqStep s))) (ksZeroBad s.draws) { sqPast s with draws := s.draws + 1 }
  obtain ⟨⟨hq, hw⟩, -⟩ := hz
  have hq : (kszeroDone s).sq = (sqPast s).sq := hq
  have e : sqKszeroRun s = kszeroDone s := by
    unfold sqKszeroRun; rw [if_pos h.1]
    exact (stepEffect_kszero (w := sqStep s) h.op).trans (sqAdvance_past h hq)
  exact congrArg Host.Outcome.next (sqEvent_running e (by rw [hq]; exact h.busy) ((congrArg Warden.access hw).trans h.noAccess))

/-- KSZERO of one live slot: zero, and DEAD with ECODE 8 and the alarm where it read back nonzero. -/
theorem kszeroDone_one {s : State} (h : SqAt 0x22 s) (ha : stepA (sqStep s) ≠ 0xFF) (hlen : s.ks.slots.length = 64)
    (hd : (slotS s (stepA (sqStep s))).dead = false) :
    slotS (kszeroDone s) (stepA (sqStep s)) = { dead := decide (stepA (sqStep s) ∈ ksZeroBad s.draws) } ∧
      (stepA (sqStep s) ∈ ksZeroBad s.draws → (kszeroDone s).ks.err = true ∧ (kszeroDone s).ks.ecode = 8 ∧ bit (kszeroDone s).pw.alarm 17 = true) := by
  have hm : stepA (sqStep s) ∈ kszeroList (stepA (sqStep s)) := by rw [kszeroList_one ha]; exact List.mem_singleton_self _
  have ha' := (kszero_stepA h).resolve_right ha
  obtain ⟨hz, -, hbad⟩ := sqKszero_spec (kszeroList_nodup (stepA (sqStep s))) (ksZeroBad s.draws) { sqPast s with draws := s.draws + 1 }
  obtain ⟨-, -, hzero, -⟩ := hz
  exact ⟨hzero _ hm (by rw [← hlen] at ha'; exact ha') hd, fun hb => hbad ⟨_, hm, hb, hd⟩⟩

/-- KSZERO of one slot that no engine holds and that reads back zero, the DRBG good. -/
theorem kszeroDone_idle {s : State} (ha : stepA (sqStep s) ≠ 0xFF) (hdg : s.dg.phase = .idle) (hpk : s.pk.run = none) (hok : s.ks.drbgOk = true)
    (hd : (slotS s (stepA (sqStep s))).dead = false) (hb : stepA (sqStep s) ∉ ksZeroBad s.draws) :
    kszeroDone s = { sqPast s with
      ks := { s.ks with slots := s.ks.slots.set (stepA (sqStep s)) {}, done := true, ecode := 0 }, draws := s.draws + 2, outs := .wirq 7 :: s.outs } := by
  have hz := zeroSlot_ready (s := { sqPast s with draws := s.draws + 1 }) (i := stepA (sqStep s)) (b := false) hd hdg hpk hok
  unfold kszeroDone sqKszero
  rw [kszeroList_one ha]
  simp only [List.filter_cons, hb, decide_false, Bool.false_and, Bool.false_eq_true, if_false, List.filter_nil, List.isEmpty_nil, if_true,
    List.foldl_cons, List.foldl_nil, List.length_singleton]
  rw [if_neg (by decide), hz]; rfl

/-- KSZERO of all slots. -/
theorem kszeroDone_all {s : State} (ha : stepA (sqStep s) = 0xFF) (hlen : s.ks.slots.length = 64) :
    (∀ i < 64, (slotS s i).dead = false → slotS (kszeroDone s) i = { dead := decide (i ∈ ksZeroBad s.draws) }) ∧
    (∀ i < 64, (slotS s i).dead = true → (slotS s i).pending = false → slotS (kszeroDone s) i = slotS s i) ∧
    ((∀ i < 64, i ∈ ksZeroBad s.draws → (slotS s i).dead = true) →
      (kszeroDone s).sq = (sqPast s).sq ∧ (kszeroDone s).ks.done = true ∧ (kszeroDone s).ks.ecode = 0) ∧
    ((∃ i < 64, i ∈ ksZeroBad s.draws ∧ (slotS s i).dead = false) →
      (kszeroDone s).ks.err = true ∧ (kszeroDone s).ks.ecode = 8 ∧ bit (kszeroDone s).pw.alarm 17 = true) := by
  have hm (i : Nat) : i ∈ kszeroList (stepA (sqStep s)) ↔ i < 64 := by rw [ha, kszeroList_all, List.mem_range]
  obtain ⟨hz, hgood, hbad⟩ := sqKszero_spec (kszeroList_nodup (stepA (sqStep s))) (ksZeroBad s.draws) { sqPast s with draws := s.draws + 1 }
  obtain ⟨⟨hq, -⟩, -, hzero, hrest⟩ := hz
  refine ⟨fun i hi hd => hzero i ((hm i).2 hi) (by rw [← hlen] at hi; exact hi) hd, fun i _ hd hp => hrest i (.inr hd) hp, fun hall => ?_, fun ⟨i, hi, hb, hd⟩ => ?_⟩
  · exact ⟨hq, hgood fun i hi hb => hall i ((hm i).1 hi) hb⟩
  · exact hbad ⟨i, (hm i).2 hi, hb, hd⟩

/-! ## The digest step (R81) -/

theorem sramScrub_clean {s : State} (h : s.wd.flips = []) (a n : Nat) : sramScrub a n s = s := by unfold sramScrub; rw [h]; rfl
theorem sqDigest_feeds {len : Nat} {data : Bytes} {s : State} (hl : len % dgBlock s.dg.mode = 0) (hr : readMap s (nth 0 s.sq.args 0) len = some data)
    (hp : s.dg.phase = .open) (hb : s.dg.buf = []) (hf : s.wd.flips = []) : sqDigest len false s = sqAdvance (dgFeed data s) := by
  unfold sqDigest; dsimp only
  rw [if_neg (by simp [hl]), hr]; dsimp only
  rw [if_neg (by simp [hp, hb]), if_neg Bool.false_ne_true, sramScrub_clean hf]

/-! ## Starting steps and operations that fail -/

/-- A failed unit operation ends the user table with ECODE 4 and raises CLRFAULT (R80). -/
theorem sqEvent_opError {f : State → State} {s t : State} (hs : s.sq.busy = true) (e : f s = sqError 4 t) (hp : t.sq.purpose = .user)
    (hq : t.sq.queue = []) (ha : t.wd.access = none) :
    sqEvent f s = setAlarm 19 (sqEnded (fun q => { q with err := true, ecode := 4 }) t) := by
  have hsq := sqEnded_sq (fun q => { q with err := true, ecode := 4 }) t
  have hwd := sqEnded_wd (fun q => { q with err := true, ecode := 4 }) t
  have e : f s = sqEnded (fun q => { q with err := true, ecode := 4 }) t := e
  generalize sqEnded (fun q => { q with err := true, ecode := 4 }) t = u at e hsq hwd ⊢
  obtain ⟨hq', hw'⟩ := (cut_setAlarm 19 u).seq
  have hq' : (setAlarm 19 u).sq = u.sq := hq'
  have hset : settle s u = setAlarm 19 u := by
    have halarm : (s.sq.busy && u.sq.err && u.sq.ecode == 4) = true := by simp [hs, hsq]
    unfold settle; dsimp only
    rw [if_neg (by simp [hsq]), if_pos halarm]
    exact settleN_free _ (by rw [hq', hsq]) (by rw [hq', hsq]; exact hp) (by rw [hq', hsq]; exact hq)
  unfold sqEvent; rw [e, hset]
  exact dropAccess_none ((congrArg Warden.access (hw'.trans hwd)).trans ha)

/-- CLEAR or VERIFY toward a region or a unit that is not there ends the table (R80). -/
theorem startStep_errors {op : Nat} {o : UnitOp} {s : State} (h : SqAt op s)
    (e : stepEffect (sqStep s) quietStep (sqPast s) = sqStartOp (stepA (sqStep s)) (stepB (sqStep s)) o (sqPast s))
    (hp : s.sq.purpose = .user) (hq : s.sq.queue = []) :
    (regionOk s (stepA (sqStep s)) (stepB (sqStep s)) = false →
      sqEvent (sqRun op quietStep) s = sqEnded (fun q => { q with err := true, ecode := 1 }) (sqPast s)) ∧
    (regionOk s (stepA (sqStep s)) (stepB (sqStep s)) = true → engineUp s (stepA (sqStep s)) = false →
      sqEvent (sqRun op quietStep) s = sqEnded (fun q => { q with err := true, ecode := 5 }) (sqPast s)) :=
  ⟨fun hr => sqRun_error h (e.trans (sqStartOp_badRegion (s := sqPast s) hr)) (by decide) hp hq,
    fun hr hu => sqRun_error h (e.trans (sqStartOp_down (s := sqPast s) hr hu)) (by decide) hp hq⟩

/-- Settles O21: starting steps by `sqStartOp`'s cases, key ports by `kpush_judged`, slots by `sqKszero_spec`. -/
theorem unitKeyAndDigestSteps : Obligations.UnitKeyAndDigestSteps := by
  unfold Obligations.UnitKeyAndDigestSteps
  refine ⟨?_, ?_, ?_, ?_, ?_, ?_, ?_, ?_, ?_, ?_, ?_, ?_⟩
  · intro s h hr hu
    have e := stepEffect_clear (x := quietStep) (s := sqPast s) h.op
    refine ⟨fun ho => ?_, fun ho => ?_⟩ <;> refine congrArg Host.Outcome.next ?_
    · exact sqRun_of h (e.trans (sqStartOp_waits (s := sqPast s) hr hu ho)) h.busy h.noAccess
    · exact sqRun_past h (e.trans (sqStartOp_issues (s := sqPast s) hr hu ho)) rfl h.noAccess
  · intro s h hr hu
    have e := stepEffect_verify (x := quietStep) (s := sqPast s) h.op
    refine ⟨fun ho => ?_, fun ho hs => ?_, fun ho hs => ?_⟩ <;> refine congrArg Host.Outcome.next ?_
    · exact sqRun_of h (e.trans (sqStartOp_waits (s := sqPast s) hr hu ho)) h.busy h.noAccess
    · have e := e.trans ((sqStartOp_issues (s := sqPast s) hr hu ho).trans (sqIssue_seeds (s := sqPast s) hs))
      exact sqRun_of h (e.trans (h.adv rfl h.notLast rfl)) h.busy h.noAccess
    · exact sqRun_past h (e.trans ((sqStartOp_issues (s := sqPast s) hr hu ho).trans (sqIssue_seeded (s := sqPast s) hs))) rfl h.noAccess
  · intro s op hop hp hq
    rcases hop with ⟨rfl, h⟩ | ⟨rfl, h⟩
    · obtain ⟨h1, h5⟩ := startStep_errors h (stepEffect_clear h.op) hp hq
      exact ⟨fun hr => congrArg Host.Outcome.next (h1 hr), fun hr hu => congrArg Host.Outcome.next (h5 hr hu)⟩
    · obtain ⟨h1, h5⟩ := startStep_errors h (stepEffect_verify h.op) hp hq
      exact ⟨fun hr => congrArg Host.Outcome.next (h1 hr), fun hr hu => congrArg Host.Outcome.next (h5 hr hu)⟩
  · intro u n s hf
    refine ⟨fun r p ho => ?_, fun r ho => ?_, fun ho => ?_⟩ <;> refine congrArg Host.Outcome.next ?_
    · exact sqEvent_free hf.idle (unitOpDone_clear hf.idle ho) (SqFree.of_eq hf (poisonClear_sq _ _ _) (poisonClear_wd _ _ _))
    · exact sqEvent_free hf.idle (unitOpDone_verify hf.idle ho) hf
    · exact sqEvent_free hf.idle ((unitOpDone_fault ho).trans (if_neg (Bool.eq_false_iff.1 hf.idle))) hf
  · intro u n s hb ha hp hq ho
    exact congrArg Host.Outcome.next (sqEvent_opError hb ((unitOpDone_fault ho).trans (if_pos hb)) hp hq ha)
  · intro s cls len h hk hu hm x
    refine ⟨fun hs hc => ?_, fun k hbad => ?_⟩ <;> refine congrArg Host.Outcome.next ?_
    · have e := (stepEffect_kpush (x := { quietStep with corrupt := false }) (s := sqPast s) h.op).trans (kpush_judged (s := sqPast s) hk hu hm)
      have hserve : (slotServes x cls && slotKcv x == x.kcv && !false) = true := by simp [hs, hc]
      exact sqRun_past h (e.trans (if_pos hserve)) (kpInstall_sq _ _ _ _) (by rw [kpInstall_wd]; exact h.noAccess)
    · have e := (stepEffect_kpush (x := { quietStep with corrupt := k }) (s := sqPast s) h.op).trans (kpush_judged (s := sqPast s) hk hu hm)
      have hserve : ¬ (slotServes x cls && slotKcv x == x.kcv && !k) = true := by
        rcases hbad with hk | hs | hc
        · simp [hk]
        · simp [hs]
        · simp [hc]
      exact sqRun_of h ((e.trans (if_neg hserve)).trans (h.adv rfl h.notLast rfl)) h.busy h.noAccess
  · intro s h hk hu hm
    have e := stepEffect_kpzero (x := quietStep) (s := sqPast s) h.op
    have hlegal : ¬ ((keyPort s (stepB (sqStep s)) (stepC (sqStep s))).isNone || (decide (stepB (sqStep s) < 8) && !s.pkg.memPg)) = true := by
      rw [Option.isSome_iff_ne_none] at hk
      simpa [hk] using hm
    have hup : ¬ (!portUp s (stepB (sqStep s))) = true := by simp [hu]
    refine congrArg Host.Outcome.next (sqRun_past h (e.trans ((if_neg hlegal).trans (if_neg hup))) (kpZero_sq _ _ _) ?_)
    rw [kpZero_wd]; exact h.noAccess
  · intro s k h hp hq hbad
    have e := (stepEffect_kpush (x := { quietStep with corrupt := k }) (s := sqPast s) h.op).trans (kpush_illegal (s := sqPast s) hbad)
    exact congrArg Host.Outcome.next (sqRun_error h e (by decide) hp hq)
  · intro s h ha hdg hpk hok hlen hd
    refine ⟨_, exec_sqKszero h, ?_⟩
    obtain ⟨hslot, hbad⟩ := kszeroDone_one h ha hlen hd
    split
    · rename_i hb
      exact ⟨by rw [hslot]; simp [hb], hbad hb⟩
    · rename_i hb
      exact kszeroDone_idle ha hdg hpk hok hd hb
  · exact fun s h ha hlen => ⟨_, exec_sqKszero h, kszeroDone_all ha hlen⟩
  · exact fun s h ha hlen hd => ⟨_, exec_sqKszero h, kszeroDone_one h ha hlen hd⟩
  · intro s data h hl hr hp hb hf
    have e := (stepEffect_digest (x := { quietStep with busErr := false }) (s := sqPast s) h.op).trans (sqDigest_feeds (s := sqPast s) hl hr hp hb hf)
    exact congrArg Host.Outcome.next (sqRun_past h e rfl h.noAccess)

end Sys2Proof.Machine
end

section
/-! # OTP, the service commands and the management-only commands

The statements on the OTP controller's commands and their end, on the service commands and their tokens (R252), and on the
commands that the management path alone carries (Table 23-5). -/
open Sys2Proof
namespace Sys2Proof.Machine

/-! ## OTP commands

An idle controller takes a command: one of the cases below ends it at once, or its pulses begin. -/

/-- A programming command with cells to burn starts its pulses inside the programming window; outside it ends with ECODE 7
(R93, R94). -/
theorem otBegin_burns {s : State} {ts : List (Nat × Nat)} (ht : ts ≠ []) (cmd sel : Nat) :
    otBegin cmd sel ts (otAccept s) = if s.pkg.progWin then otRuns cmd sel ts s else otEnd 7 (otAccept s) := by
  refine (if_neg (by simpa using ht)).trans ?_
  cases hp : s.pkg.progWin with
  | true => exact if_neg (by simp [otAccept, modOtp, hp])
  | false => exact if_pos (by simp [otAccept, modOtp, hp])

theorem otBegin_runs {s : State} {ts : List (Nat × Nat)} (ht : ts ≠ []) (hp : s.pkg.progWin = true) (cmd sel : Nat) :
    otBegin cmd sel ts (otAccept s) = otRuns cmd sel ts s := (otBegin_burns ht cmd sel).trans (if_pos hp)

/-- With no cell to burn it ends at once (R93). -/
theorem otBegin_done (cmd sel : Nat) (s : State) : otBegin cmd sel [] s = otEnd 0 s := rfl

/-- The controller's own test of FACTORY, MISSION or RETURN. -/
theorem lcField_iff {n : Nat} : (!(decide (1 ≤ n) && decide (n ≤ 3))) = true ↔ ¬ (1 ≤ n ∧ n ≤ 3) := by
  simp only [Bool.not_eq_true', Bool.and_eq_false_iff, decide_eq_false_iff_not]; omega

section
variable {s : State} (hb : s.otp.busy = false)
include hb

/-- READ of an idle controller (R90). -/
theorem otRead_idle : otRead s = { s with
    otp := { s.otp with
      weak := false, pulses := 0,
      rdata := if secretRow s.otp.addr then 0 else if s.otp.margin then strRow s.otp s.otp.addr else nomRow s.otp s.otp.addr,
      done := true, err := false, ecode := 0, job := none, busy := false },
    outs := .wirq 11 :: s.outs } := if_neg (Bool.eq_false_iff.1 hb)

/-- PROG and GEN outside BLANK are refused (R95). -/
theorem otProg_notBlank (hl : s.otp.lc ≠ 0) : otProg s = otEnd 2 (otAccept s) := (if_neg (Bool.eq_false_iff.1 hb)).trans (if_pos hl)
theorem otGen_notBlank (hl : s.otp.lc ≠ 0) : otGen s = otEnd 2 (otAccept s) := (if_neg (Bool.eq_false_iff.1 hb)).trans (if_pos hl)

/-- PROG in BLANK of a row of no TMR group is refused; in a group it is refused where the row is locked (R95). -/
theorem otProg_blank (hl : s.otp.lc = 0) : otProg s = (groupOfRow s.otp.addr).elim (otEnd 3 (otAccept s)) fun g =>
    if progLocked s.otp g s.otp.addr then otEnd 3 (otAccept s)
    else otBegin 2 0 (targetsOf [(s.otp.addr, needs s.otp s.otp.addr s.otp.wdata)]) (otAccept s) := by
  refine (if_neg (Bool.eq_false_iff.1 hb)).trans ((if_neg (not_not.2 hl)).trans ?_)
  cases groupOfRow s.otp.addr <;> rfl

/-- GEN in BLANK of a word below 16 while ROOT is open: a fresh DRBG word into its three copies (R95). -/
theorem otGen_open (hl : s.otp.lc = 0) (hw : s.otp.addr % 32 < 16) (hk : groupLocked s.otp (1, 32, 25) = false) :
    otGen s = otBegin 3 0 (targetsOf ((List.range 3).map fun k => (32 + 25 * k + s.otp.addr % 32,
      needs s.otp (32 + 25 * k + s.otp.addr % 32) (le (Config.draw s.draws 4))))) (otAccept { s with draws := s.draws + 1 }) :=
  (if_neg (Bool.eq_false_iff.1 hb)).trans ((if_neg (not_not.2 hl)).trans (if_neg (by simp [hk, hw])))

/-- INCR_TO and REVOKE need FACTORY, MISSION or RETURN (R96). -/
theorem otIncr_badLc (hl : ¬ (1 ≤ s.otp.lc ∧ s.otp.lc ≤ 3)) (c v : Nat) : otIncr c v s = otEnd 2 (otAccept s) :=
  (if_neg (Bool.eq_false_iff.1 hb)).trans (if_pos (lcField_iff.2 hl))
theorem otRevoke_badLc (hl : ¬ (1 ≤ s.otp.lc ∧ s.otp.lc ≤ 3)) (k : Nat) : otRevoke k s = otEnd 2 (otAccept s) :=
  (if_neg (Bool.eq_false_iff.1 hb)).trans (if_pos (lcField_iff.2 hl))

/-- INCR_TO of a counter that exists, to a value above 64 and to one a counter can hold (R96). -/
theorem otIncr_range (hl : 1 ≤ s.otp.lc ∧ s.otp.lc ≤ 3) {c v : Nat} (hc : c ≤ 3) :
    otIncr c v s = if 64 < v then otEnd 4 (otAccept s) else otBegin 4 c (incrTargets c (svnValue s.otp c) v) (otAccept s) :=
  (if_neg (Bool.eq_false_iff.1 hb)).trans ((if_neg fun h => lcField_iff.1 h hl).trans (if_neg (Nat.not_lt.2 hc)))

/-- REVOKE of a slot that exists (R96). -/
theorem otRevoke_slot (hl : 1 ≤ s.otp.lc ∧ s.otp.lc ≤ 3) {k : Nat} (hk : k ≤ 3) :
    otRevoke k s = otBegin 5 k (targetsOf [(24, needs s.otp 24 (15 * 16 ^ k)), (25, needs s.otp 25 (15 * 16 ^ k))]) (otAccept s) :=
  (if_neg (Bool.eq_false_iff.1 hb)).trans ((if_neg fun h => lcField_iff.1 h hl).trans (if_neg (Nat.not_lt.2 hk)))

/-- LC_ADVANCE: a transition Table 4-5 does not list, an occupied key store, and a transition that goes on (R101). -/
theorem otLc_refused {sel : Nat} (h : ¬ (1 ≤ sel ∧ sel ≤ 4) ∨ lcAllowed s.otp sel = false) : otLc sel s = otEnd 5 (otAccept s) := by
  refine (if_neg (Bool.eq_false_iff.1 hb)).trans (if_pos ?_)
  rcases h with h | h
  · simp only [Bool.or_eq_true, Bool.not_eq_true', Bool.and_eq_false_iff, decide_eq_false_iff_not]; omega
  · simp [h]
theorem otLc_allowed {sel : Nat} (h1 : 1 ≤ sel) (h4 : sel ≤ 4) (ha : lcAllowed s.otp sel = true) :
    otLc sel s = if occMask s ≠ 0 then otEnd 6 (otAccept s)
      else otBegin 6 sel (lcTargets s.otp sel) (otAccept { s with otp := { s.otp with disabled := true } }) :=
  (if_neg (Bool.eq_false_iff.1 hb)).trans (if_neg (by simp [h1, h4, ha]))

/-- REPAIR of an idle controller (R98). -/
theorem otRepair_idle : otRepair s = otBegin 7 0 (repairTargets s.otp) (otAccept { s with otp := { s.otp with stillMarg := 0 } }) :=
  if_neg (Bool.eq_false_iff.1 hb)

end

/-- A row that needs cells is a target. -/
theorem targetsOf_single {r m : Nat} (h : m ≠ 0) : targetsOf [(r, m)] = [(r, m)] := by simp [targetsOf, h]

theorem incrTargets_eq_nil_iff {c a t : Nat} : incrTargets c a t = [] ↔ t ≤ a := by
  have h : incrTargets c a t = [] ↔ ∀ i, t ≤ i + a := by simp [incrTargets, List.flatMap_eq_nil_iff]
  rw [h]
  exact ⟨fun h => by simpa using h 0, fun h i => by omega⟩

/-- Settles O22: each clause is one branch of its command above, and `otBegin` ends it at once or starts its pulses. -/
theorem otpCommandsRunAndEnd : Obligations.OtpCommandsRunAndEnd := by
  unfold Obligations.OtpCommandsRunAndEnd
  refine ⟨fun s hb => congrArg Host.Outcome.next (otRead_idle hb), fun s g hb hl hg => ?prog,
    fun s hb hl hg => congrArg Host.Outcome.next ((otProg_blank hb hl).trans (by rw [hg]; rfl)),
    fun s hb hl => ⟨congrArg Host.Outcome.next (otProg_notBlank hb hl), congrArg Host.Outcome.next (otGen_notBlank hb hl)⟩,
    fun s hb hl hw hk hp ht => ?gen, fun c v s hb h1 h3 hc hv hp => ?incr, fun c v k s hb => ?badLc,
    fun k s hb h1 h3 hk hp ht => ?revoke, fun sel s hb => ?lc, fun s hb hp ht => ?repair, fun s hb ht => ?whole,
    fun c s hb hc => ?illegal, fun s hb c v => ?busy⟩
  case prog =>
    have e : otProg s = _ := (otProg_blank hb hl).trans (by rw [hg, Option.elim_some])
    refine ⟨fun hk => congrArg Host.Outcome.next (e.trans (if_pos hk)), fun hk hn => congrArg Host.Outcome.next ?_,
      fun hk hn => congrArg Host.Outcome.next ?_⟩
    · rw [e, if_neg (by simp [hk]), targetsOf_single hn]; exact otBegin_burns (List.cons_ne_nil _ _) 2 0
    · rw [e, if_neg (by simp [hk]), hn]; rfl
  case gen => exact congrArg Host.Outcome.next ((otGen_open hb hl hw hk).trans (otBegin_runs (s := { s with draws := s.draws + 1 }) ht hp 3 0))
  case incr =>
    have e := (otIncr_range hb ⟨h1, h3⟩ hc).trans (if_neg (Nat.not_lt.2 hv))
    refine ⟨fun hlt => congrArg Host.Outcome.next (e.trans (otBegin_runs ?_ hp 4 c)), fun hle => congrArg Host.Outcome.next (e.trans ?_)⟩
    · rw [Ne, incrTargets_eq_nil_iff]; omega
    · rw [incrTargets_eq_nil_iff.2 hle]; exact otBegin_done 4 c _
  case badLc =>
    refine ⟨fun hl => ⟨congrArg Host.Outcome.next (otIncr_badLc hb hl c v), congrArg Host.Outcome.next (otRevoke_badLc hb hl k)⟩,
      fun h1 h3 hc hv => congrArg Host.Outcome.next ((otIncr_range hb ⟨h1, h3⟩ hc).trans (if_pos hv))⟩
  case revoke => exact congrArg Host.Outcome.next ((otRevoke_slot hb ⟨h1, h3⟩ hk).trans (otBegin_runs ht hp 5 k))
  case lc =>
    refine ⟨fun h => congrArg Host.Outcome.next (otLc_refused hb h),
      fun h1 h4 ha ho => congrArg Host.Outcome.next ((otLc_allowed hb h1 h4 ha).trans (if_pos ho)), fun h1 h4 ha ho hp ht => ?_⟩
    exact congrArg Host.Outcome.next ((otLc_allowed hb h1 h4 ha).trans ((if_neg (not_not.2 ho)).trans (otBegin_runs (s := { s with otp := { s.otp with disabled := true } }) ht hp 6 sel)))
  case repair => exact congrArg Host.Outcome.next ((otRepair_idle hb).trans (otBegin_runs (s := { s with otp := { s.otp with stillMarg := 0 } }) ht hp 7 0))
  case whole =>
    have e := otRepair_idle hb
    rw [ht] at e
    exact congrArg Host.Outcome.next e
  case illegal =>
    refine congrArg Host.Outcome.next ((if_neg (Bool.eq_false_iff.1 hb)).trans (if_neg ?_))
    simp only [Bool.and_eq_true, decide_eq_true_eq]; omega
  case busy => exact congrArg Host.Outcome.next (if_pos hb : otIncr c v s = otBusy s)

/-! ## What OT_CMD_COMPLETE burns -/

theorem otShow_rows (j : OtpJob) (v n : Nat) (o : Otp) : (otShow j v n o).rows = o.rows := by
  unfold otShow; split
  · rfl
  · split <;> rfl

/-- Reads see the rows alone. -/
theorem nomRow_of_rows {o o' : Otp} (h : o'.rows = o.rows) (r : Nat) : nomRow o' r = nomRow o r := by
  unfold nomRow; rw [h]

/-- A command's end leaves the cells: it writes the status and the job alone (R104). -/
theorem otEnd_rows (e : Nat) (s : State) : (otEnd e s).otp.rows = s.otp.rows := by
  show (if e = 0 then _ else _ : Otp).rows = _
  split <;> rfl

/-- No command waits for the controller: its end answers nothing. -/
theorem tokenOtpEnd_no_waiter {s : State} (h : ∀ w ∈ s.uw, w.u ≠ 2000) : tokenOtpEnd s = s := by
  have hn : s.uw.filter (fun w => w.u == 2000) = [] := by simpa [List.filter_eq_nil_iff] using h
  have hk : s.uw.filter (fun w => w.u != 2000) = s.uw := by simpa [List.filter_eq_self] using h
  unfold tokenOtpEnd; rw [hn, hk]; rfl

theorem exec_otCmdComplete {j : OtpJob} {s : State} (hj : s.otp.job = some j) (hw : ∀ w ∈ s.uw, w.u ≠ 2000) (x : List PulseOut) :
    exec (.otCmdComplete x) s = .next (otComplete x s) := by
  have hu : ∀ w ∈ (otComplete x s).uw, w.u ≠ 2000 := by
    obtain ⟨_, _, e⟩ := otComplete_frame x s
    rw [e]; exact hw
  show Host.Outcome.next (if s.otp.job.isSome then tokenOtpEnd (otComplete x s) else s) = _
  rw [hj, Option.isSome_some, if_pos rfl, tokenOtpEnd_no_waiter hu]

/-- With no command under way the row changes nothing (log entry 3). -/
theorem exec_otCmdComplete_idle {s : State} (hj : s.otp.job = none) (x : List PulseOut) : exec (.otCmdComplete x) s = .next s := by
  show Host.Outcome.next (if s.otp.job.isSome then tokenOtpEnd (otComplete x s) else s) = _
  rw [hj]; rfl

/-- The cells a finished command leaves are those its pulses left. -/
theorem nomRow_otComplete {j : OtpJob} {s : State} (hj : s.otp.job = some j) (x : List PulseOut) (r : Nat) :
    nomRow (otComplete x s).otp r = nomRow (applyPulses (j.cmd == 7) j.targets x s.otp 0).1 r := by
  unfold otComplete; rw [hj]
  exact nomRow_of_rows ((otEnd_rows _ _).trans (otShow_rows _ _ _ _)) r

/-- A command whose pulses all pass ends with DONE (R93, R104). -/
theorem otComplete_good {j : OtpJob} {s : State} (hj : s.otp.job = some j) : ∃ o, otComplete [] s = otEnd 0 { s with otp := o } := by
  unfold otComplete; rw [hj]; dsimp only
  rw [(applyPulses_good (j.cmd == 7) j.targets s.otp 0).1]
  exact ⟨_, rfl⟩

/-- Settles O23: with good pulses `applyPulses_good` says which cells burn; whatever the pulses do, `applyPulses_le` says that
none is unburned. -/
theorem otpCellsBurnAndStayBurned : Obligations.OtpCellsBurnAndStayBurned := by
  unfold Obligations.OtpCellsBurnAndStayBurned
  refine ⟨fun j s hj hw => ?_, fun x s r hw => ?_⟩
  · obtain ⟨-, hburn, hkeep⟩ := applyPulses_good (j.cmd == 7) j.targets s.otp 0
    obtain ⟨o, ho⟩ := otComplete_good hj
    refine ⟨_, exec_otCmdComplete hj hw [], ?_, ?_, ?_, ?_, fun p hp => ?_, fun r hr => ?_⟩
    · rw [ho]; rfl
    · rw [ho]; rfl
    · rw [ho]; rfl
    · rw [ho]; rfl
    · rw [nomRow_otComplete hj]; exact hburn p hp
    · rw [nomRow_otComplete hj]; exact hkeep r hr
  · cases hj : s.otp.job with
    | none => exact ⟨s, exec_otCmdComplete_idle hj x, Nat.and_self _⟩
    | some j =>
      refine ⟨_, exec_otCmdComplete hj hw x, ?_⟩
      dsimp only; rw [nomRow_otComplete hj]; exact applyPulses_le ..

/-! ## Service commands and their tokens -/

/-- A request of a command that names the stage, once the reference and its reserved bytes are right (R251). -/
theorem staged_eq {n off : Nat} {f : Bytes → HostCall → State → CmdRes} {c : HostCall} {s : State} (hl : c.payload.length = n)
    (hk : stageOk c off s = true) (hz : allZero (slice c.payload (off + 4) 4) = true) : staged n off f c s = f (stageBytes c s) c s := by
  unfold staged; rw [if_neg (by simp [hl]), if_neg (by simp [hk]), if_neg (by simp [hz])]

/-- The nonce is consumed when the token's checks begin (R253). -/
noncomputable def nonceUsed (s : State) : State := { s with idn := { s.idn with nonce := none } }

/-- The fixed header of a service token: length, magic, version, reserved bytes (R252 check 1). -/
def TokenShape (b : Bytes) : Prop :=
  b.length = 7475 ∧ field b 0 4 = 0x43565354 ∧ field b 4 2 = 1 ∧ allZero (slice b 57 7) = true

/-- The token names the operation and its argument (R252 check 2). -/
def TokenFor (op arg : Nat) (b : Bytes) : Prop := field b 6 2 = op ∧ field b 8 8 = arg

/-- The token names a usable vendor key, and carries it (R252 check 5). -/
def TokenKey (b : Bytes) (s : State) : Prop :=
  field b 56 1 ≤ 3 ∧ vkeyUsable s (field b 56 1) = true ∧ Config.sha384 (slice b 64 2688) = vkh s (field b 56 1)

section
variable {op arg : Nat} {b : Bytes} {c : HostCall} {s : State}

/-- A token of another length is malformed (R252 check 1). -/
theorem tokenCheck_length (h : b.length ≠ 7475) : tokenCheck op arg b c s = cmdFail (nonceUsed s) stMalformed 1 :=
  if_pos (by simp [h])

theorem TokenShape.passes (h : TokenShape b) :
    ¬ (b.length ≠ 7475 || field b 0 4 ≠ 0x43565354 || field b 4 2 ≠ 1 || !allZero (slice b 57 7)) = true := by
  obtain ⟨hl, hm, hv, hz⟩ := h
  simp [hl, hm, hv, hz]

theorem TokenFor.passes (h : TokenFor op arg b) : ¬ (field b 6 2 ≠ op || field b 8 8 ≠ arg) = true := by
  obtain ⟨ho, ha⟩ := h
  simp [ho, ha]

theorem TokenKey.passes (h : TokenKey b s) :
    ¬ (decide (3 < field b 56 1) || !vkeyUsable s (field b 56 1) || Config.sha384 (slice b 64 2688) != vkh s (field b 56 1)) = true := by
  obtain ⟨hk, hu, hd⟩ := h
  simp [hu, hd, Nat.not_lt.2 hk]

theorem tokenCheck_operation (h : TokenShape b) (ho : field b 6 2 ≠ op ∨ field b 8 8 ≠ arg) :
    tokenCheck op arg b c s = cmdFail (nonceUsed s) stAuthFail 2 :=
  (if_neg h.passes).trans (if_pos (by simpa using ho))

theorem tokenCheck_package (h : TokenShape b) (ho : TokenFor op arg b) (hm : slice b 16 8 ≠ mfgId s) :
    tokenCheck op arg b c s = cmdFail (nonceUsed s) stAuthFail 3 :=
  (if_neg h.passes).trans ((if_neg ho.passes).trans (if_pos (bne_iff_ne.2 hm)))

theorem tokenCheck_nonce (h : TokenShape b) (ho : TokenFor op arg b) (hm : slice b 16 8 = mfgId s)
    (hn : s.idn.nonce ≠ some (slice b 24 32)) : tokenCheck op arg b c s = cmdFail (nonceUsed s) stAuthFail 4 :=
  (if_neg h.passes).trans ((if_neg ho.passes).trans ((if_neg fun e => bne_iff_ne.1 e hm).trans (if_pos (bne_iff_ne.2 hn))))

/-- A token that passes checks 1 to 5 queues the verification of its two signatures (R252 check 6). -/
theorem tokenCheck_fits (h : TokenShape b) (ho : TokenFor op arg b) (hm : slice b 16 8 = mfgId s)
    (hn : s.idn.nonce = some (slice b 24 32)) (hk : TokenKey b s) :
    tokenCheck op arg b c s = cmdWait (pqAdd 2 (.token c (stateWord s) op arg)
      (verifyJobs (slice b 64 96) (slice b 160 2592) (b.take 2752) (slice b 2752 96) (slice b 2848 4627)) (nonceUsed s)) :=
  (if_neg h.passes).trans ((if_neg ho.passes).trans ((if_neg fun e => bne_iff_ne.1 e hm).trans
    ((if_neg fun e => bne_iff_ne.1 e hn).trans (if_neg hk.passes))))

/-! LC_ADVANCE and VKEY_REVOKE of a request whose stage reference is right. -/

theorem lcAdvanceBody_eq (hl : c.payload.length = 32) (hk : stageOk c 8 s = true) (hz : allZero (slice c.payload 12 4) = true) :
    lcAdvanceBody c s = if !allZero (slice c.payload 1 7) || !(2 ≤ field c.payload 0 1 && field c.payload 0 1 ≤ 4) then cmdFail s stMalformed 0
      else if !lcPermitted (field c.payload 0 1) s then cmdFail s stBadState 0 else tokenCheck 1 (field c.payload 0 1) (stageBytes c s) c s :=
  staged_eq hl hk hz

theorem vkeyRevokeBody_eq (hl : c.payload.length = 32) (hk : stageOk c 8 s = true) (hz : allZero (slice c.payload 12 4) = true) :
    vkeyRevokeBody c s = if !allZero (slice c.payload 1 7) || 3 < field c.payload 0 1 then cmdFail s stMalformed 0
      else tokenCheck 2 (field c.payload 0 1) (stageBytes c s) c s :=
  staged_eq hl hk hz

end

/-! The token's signatures have been checked (R252 check 6). -/

theorem tokenDone_error {e : Nat} (he : e ≠ 0) (c : HostCall) (w op arg : Nat) (ok : Bool) (s : State) :
    tokenDone c w op arg e ok s = answer c (if op = 1 then 0xA01 else 0xA02) w stPkeError e (toLe 4 0) s := if_pos he

/-- Waiting for a unit, or for the OTP controller, is noted beside the controller's state. -/
theorem unitSend_otp (u op : Nat) (call : Option (HostCall × Nat)) (arg : Nat) (s : State) : (unitSend u op call arg s).otp = s.otp := rfl

theorem tokenDone_lc {sel : Nat} {s : State} (hp : lcPermitted sel s = true) (hj : (otLc sel (zeroAllSlots s)).otp.job.isSome = true)
    (c : HostCall) (w : Nat) : tokenDone c w 1 sel 0 true s = unitSend 2000 0xA01 (some (c, w)) sel (otLc sel (zeroAllSlots s)) := by
  unfold tokenDone; dsimp only
  rw [if_neg (by simp), if_neg (by simp), if_pos rfl, if_neg (by simp [hp]), if_pos (by rwa [unitSend_otp])]

theorem tokenDone_revoke {k : Nat} {s : State} (ho : otherVkey k s = true) (hj : (otRevoke k s).otp.job.isSome = true)
    (c : HostCall) (w : Nat) : tokenDone c w 2 k 0 true s = unitSend 2000 0xA02 (some (c, w)) k (otRevoke k s) := by
  unfold tokenDone; dsimp only
  rw [if_neg (by simp), if_neg (by simp), if_neg (by simp), if_neg (by simp [ho]), if_pos (by rwa [unitSend_otp])]

/-- The last usable vendor key stays (R157, log entry 37). -/
theorem tokenDone_lastKey {k : Nat} {s : State} (ho : otherVkey k s = false) (c : HostCall) (w : Nat) :
    tokenDone c w 2 k 0 true s = answer c 0xA02 w stLimit 0 (toLe 4 0) s := by
  unfold tokenDone; dsimp only
  rw [if_neg (by simp), if_neg (by simp), if_neg (by simp), if_pos (by simp [ho])]; rfl

/-- Settles O52: the requests by their bodies, the token by the first check of R252 that fails, its end by `tokenDone`. -/
theorem serviceCommandsAndTokens : Obligations.ServiceCommandsAndTokens := by
  unfold Obligations.ServiceCommandsAndTokens
  refine ⟨fun c s h hp => ?nonce, fun c s h hl hk hz => ?advance, fun c s h hl hk hz => ?revoke, fun c w sel s hp hj => tokenDone_lc hp hj c w,
    fun c w k s ho hj => tokenDone_revoke ho hj c w, fun c w k s ho => tokenDone_lastKey ho c w,
    fun c w op arg e ok s he => tokenDone_error he c w op arg ok s, fun c s h hl => ?quarantine, fun c s h hp => ?reset⟩
  case nonce => exact runCmd_replied h (sized_eq (by rw [hp]; rfl) s)
  case advance =>
    have e := lcAdvanceBody_eq hl hk hz
    refine ⟨fun hsel => ?_, fun hr h2 h4 hp => ?_, fun hr h2 h4 hp hlen hmag hver hres => ?_⟩
    · refine runCmd_failed h (e.trans (if_pos ?_))
      simp only [Bool.or_eq_true, Bool.not_eq_true', Bool.and_eq_false_iff, decide_eq_false_iff_not]; omega
    · exact runCmd_failed h (e.trans ((if_neg (by simp [hr, h2, h4])).trans (if_pos (by simp [hp]))))
    · have e : lcAdvanceBody c s = tokenCheck 1 (field c.payload 0 1) (stageBytes c s) c s :=
        e.trans ((if_neg (by simp [hr, h2, h4])).trans (if_neg (by simp [hp])))
      have shape : TokenShape (stageBytes c s) := ⟨hlen, hmag, hver, hres⟩
      refine ⟨fun ho => ?_, fun h6 h8 hm => ?_, fun h6 h8 hm hn => ?_, fun h6 h8 hm hn hk3 hu hd => ?_⟩
      · exact runCmd_reply h (e.trans (tokenCheck_operation shape ho))
      · exact runCmd_reply h (e.trans (tokenCheck_package shape ⟨h6, h8⟩ hm))
      · exact runCmd_reply h (e.trans (tokenCheck_nonce shape ⟨h6, h8⟩ hm hn))
      · exact runCmd_wait h (e.trans (tokenCheck_fits shape ⟨h6, h8⟩ hm hn ⟨hk3, hu, hd⟩))
  case revoke =>
    have e := vkeyRevokeBody_eq hl hk hz
    refine ⟨fun h3 => ?_, fun hr h3 => ?_⟩
    · exact runCmd_failed h (e.trans (if_pos (by simp [h3])))
    · have e : vkeyRevokeBody c s = tokenCheck 2 (field c.payload 0 1) (stageBytes c s) c s :=
        e.trans (if_neg (by simp [hr, Nat.not_lt.2 h3]))
      refine ⟨fun hlen => ?_, fun hlen hmag hver hres h6 h8 hm hn hk3 hu hd => ?_⟩
      · exact runCmd_reply h (e.trans (tokenCheck_length hlen))
      · exact runCmd_wait h (e.trans (tokenCheck_fits ⟨hlen, hmag, hver, hres⟩ ⟨h6, h8⟩ hm hn ⟨hk3, hu, hd⟩))
  case quarantine =>
    have e : svcQuarantineBody c s = _ := sized_eq hl s
    refine ⟨fun hq => ?_, fun hr => ?_, fun hq hr => ?_⟩
    · exact runCmd_after h (e.trans ((if_neg (by simp [hq])).trans (if_pos (by simp [hq]))))
    · exact runCmd_failed h (e.trans (if_pos (by simp [hr])))
    · exact runCmd_after h (e.trans ((if_neg (by simpa using hr)).trans (if_neg (by simpa using hq))))
  case reset => exact runCmd_replied h ((sized_eq (by rw [hp]; rfl) s).trans (by split <;> simp [resetAfterReply, *]))

/-! ## The management-only commands -/

/-! Taking a request changes the management path alone. -/

section
variable (i : Nat) (s : State)
theorem mgBegun_pkg : (mgBegun i s).pkg = s.pkg := rfl
theorem mgBegun_wd : (mgBegun i s).wd = s.wd := rfl
theorem mgBegun_idn : (mgBegun i s).idn = s.idn := rfl
theorem mgBegun_orphan : (mgBegun i s).mg.orphan = s.mg.orphan := rfl
theorem mgBegun_stageBytes (b : Bytes) : stageBytes (mgWith b) (mgBegun i s) = stageBytes (mgWith b) s := rfl
theorem mgBegun_certFits (k : Nat) (der : Bytes) : certFits k der (mgBegun i s) = certFits k der s := rfl
theorem mgBegun_rosterBusy : rosterBusy (mgBegun i s) = rosterBusy s := rfl
theorem mgBegun_pqRoom (n : Nat) : pqRoom n (mgBegun i s) = pqRoom n s := rfl
theorem mgBegun_rating : rating (mgBegun i s) = rating s := rfl
theorem mgBegun_lcOf : lcOf (mgBegun i s) = s.otp.lc := rfl
theorem mgWith_payload (b : Bytes) : (mgWith b).payload = b := rfl
end

/-- An event enters the lists of events; what waits to be executed stays (R525). -/
theorem pldmEvent_queue (n v : Nat) (s : State) : (pldmEvent n v s).mg.queue = s.mg.queue := by
  unfold pldmEvent; dsimp only; split <;> rfl

/-- A new module address concerns the routes and, where it names no module, the log (R446, R534). -/
theorem routesSet_mg (s : State) : (routesSet s).mg = s.mg := by
  unfold routesSet; dsimp only; split
  · rfl
  · split <;> rfl
theorem daddrSet_mg (a : Nat) (s : State) : (daddrSet a s).mg = s.mg := by
  have hlog (d : Bytes) : (logEvent 0x0601 0xFF d (routesSet { s with ln := { s.ln with daddr := a } })).mg = s.mg := by
    obtain ⟨_, _, _, e⟩ := logEvent_frame 0x0601 0xFF d (routesSet { s with ln := { s.ln with daddr := a } })
    rw [e]; exact routesSet_mg _
  unfold daddrSet; dsimp only; split
  · split
    · exact hlog _
    · exact routesSet_mg _
  · exact hlog _

section
variable {op : Nat} {f : HostCall → State → CmdRes} {b body : Bytes} {s t : State}

/-- A management-only command that ends with ST_OK, or is refused, on an idle path (R519). -/
theorem mgRow_ok (h : MgIdle s) (hop : op < 65536) (hf : mgBody op = some f) (e : f (mgWith b) (mgBegun 0x1D s) = cmdOk t body)
    (q : t.mg.queue = []) : Host.Outcome.next (mgRow (mgVendorMsg op b) s) = (.next (mgReplied op s stOk 0 body t) : Res) :=
  mgRow_vendor h hop hf e q
theorem mgRow_fail {st : Nat} (h : MgIdle s) (hop : op < 65536) (hf : mgBody op = some f)
    (e : f (mgWith b) (mgBegun 0x1D s) = cmdFail (mgBegun 0x1D s) st 0) :
    Host.Outcome.next (mgRow (mgVendorMsg op b) s) = (.next (mgReplied op s st 0 [] (mgBegun 0x1D s)) : Res) :=
  mgRow_vendor h hop hf e rfl

end

/-- An event leaves the power limits and whether the module is orphaned (R473, R526). -/
theorem pCap_pldmEvent (n v : Nat) (s : State) : pCap (pldmEvent n v s) = pCap s := by
  unfold pldmEvent; dsimp only; split <;> rfl

/-- MG_KEEPALIVE ends the orphan condition, which its answer still shows (R526, log entry 25). -/
theorem mgKeepaliveBody_eq (s : State) : mgKeepaliveBody (mgWith []) s =
    let t := { s with mg := { s.mg with orphanArmed := true, orphan := false } }
    cmdOk (if s.mg.orphan then pldmEvent 26 1 t else t) (toLe 1 (b2n s.mg.orphan) ++ [0#8] ++ toLe 2 (pCap t)) := by
  unfold mgKeepaliveBody; rw [sized_mg (p := []) (n := 0) rfl]; dsimp only
  split
  · rw [pCap_pldmEvent]
  · rfl

/-- MG_RAK_SET of the first authority key, the roster's header committed (R462). -/
theorem mgRakBody_first {b : Bytes} {s : State} (hl : b.length = 24) (hk : stageOk (mgWith b) 0 s = true) (hz : allZero (slice b 4 4) = true)
    (hh : s.tn.ro.hdr = .committed) (hr : s.ln.rak = []) : mgRakBody (mgWith b) s =
      if (stageBytes (mgWith b) s).length ≠ 2688 then cmdFail s stMalformed 0 else cmdOk (rakPut ((stageBytes (mgWith b) s).take 2688) s) [] := by
  have hc : hdrCheck s = none := by unfold hdrCheck; rw [hh]
  unfold mgRakBody; rw [staged_eq (c := mgWith b) hl hk hz]; dsimp only
  rw [hc]; dsimp only; rw [if_pos (by simp [hr])]

/-- MG_PROVISION while the ROM runs in BLANK, of GEN or PROG in the order of R103. -/
theorem mgProvisionBody_runs {b : Bytes} {s : State} (hl : b.length = 8) (hf : s.wd.fw = .rom) (hlc : s.otp.lc = 0) (hz : allZero (slice b 1 1) = true)
    (h12 : field b 0 1 = 1 ∨ field b 0 1 = 2) (ho : provOrder (field b 0 1) (field b 2 2 % 512) s.otp = true)
    (hj : (let u := { s with otp := { s.otp with addr := field b 2 2 % 512, wdata := field b 4 4 } }
      if field b 0 1 = 1 then otGen u else otProg u).otp.job.isSome = true) :
    mgProvisionBody (mgWith b) s =
      let u := { s with otp := { s.otp with addr := field b 2 2 % 512, wdata := field b 4 4 } }
      cmdWait (unitSend 2000 0xB10 (some (mgWith b, stateWord s)) (field b 0 1) (if field b 0 1 = 1 then otGen u else otProg u)) := by
  have hlc' : lcOf s = 0 := hlc
  unfold mgProvisionBody; rw [sized_mg hl]; dsimp only
  rw [show (mgWith b).payload = b from rfl, if_neg (by simp [hf, hlc']), if_neg (by rcases h12 with h | h <;> simp [h, hz]), if_neg (by simp [ho])]
  have hop : ∀ u : State, (if field b 0 1 = 1 then otGen u else if field b 0 1 = 2 then otProg u else otLc 1 u)
      = if field b 0 1 = 1 then otGen u else otProg u := by
    intro u; rcases h12 with h | h <;> simp [h]
  rw [hop, unitSend_otp, if_pos hj]; rfl

/-- A vendor request that the ROM serves, alone on the path, whose command goes on (R527). -/
theorem mgRow_rom_wait {op : Nat} {f : HostCall → State → CmdRes} {b : Bytes} {s t : State} (hf : s.wd.fw = .rom) (hs : s.pkg.standby = true)
    (hr : s.pkg.st ≠ .retired) (hb : s.mg.busy = false) (hq : s.mg.queue = []) (hop : op < 65536) (hm : mgRomOp op s = true) (hf' : mgBody op = some f)
    (e : f (mgWith b) (mgBegun 0x1D s) = cmdWait t) (q : t.mg.busy = true) : mgRow (mgVendorMsg op b) s = t := by
  have est : mgStart ⟨s.mg.peer, s.mg.peerTag, mgVendorMsg op b⟩ { s with mg := { s.mg with queue := [] } } = t :=
    (mgStart_vendor op hop b { s with mg := { s.mg with queue := [] } } f hf' hr (fun _ => hm) s.mg.peer s.mg.peerTag).trans
      (mgRun_wait (u := mgBegun 0x1D s) e)
  unfold mgRow mgMessage
  rw [if_neg (by simp [hf, hs]), if_neg (by simp [hq])]
  unfold mgPump; simp only [hb, hq, List.nil_append, Bool.false_eq_true, if_false]
  exact (congrArg (mgPump 4) est).trans (mgPump_idle 4 (.inl q))

/-- Settles O53: each command by the branch of its body that the clause's hypotheses select, on an idle path. -/
theorem managementCommands : Obligations.ManagementCommands := by
  unfold Obligations.ManagementCommands
  refine ⟨fun s h => ?keepalive, fun b s h hl => ?cap, fun b s h hl hz => ?hold, fun b s h hl hz => ?daddr,
    fun b s h hl hk hz hh hr => ?rak, fun b s h hl hz h1 hlc => ?csr, fun b s h hl hk hz h1 hr => ?cert, fun s h => ?setkey,
    fun b s h hl hz => ?request, fun b s h hl => ?provision, fun b s hf hs hr hb hq hlc hl hz h12 ho hj hmg => ?rom,
    fun s ho => ?stands, fun s ha ho => ?expires⟩
  case keepalive =>
    have e := mgKeepaliveBody_eq (mgBegun 0x1D s)
    refine ⟨fun ho => mgRow_ok h (by decide) rfl ?_ rfl, fun ho => mgRow_ok h (by decide) rfl ?_ (pldmEvent_queue _ _ _)⟩
    · rw [e, mgBegun_orphan, ho]; rfl
    · rw [e, mgBegun_orphan, ho]; rfl
  case cap =>
    have e : mgCapBody (mgWith b) (mgBegun 0x1D s) = _ := sized_mg hl _
    refine ⟨fun hr => mgRow_fail h (by decide) rfl (e.trans (if_pos (by simp [mgWith_payload, mgBegun_rating, hr]))), fun hr hz => ?_⟩
    exact mgRow_ok h (by decide) rfl (e.trans (if_neg (by simp [mgWith_payload, mgBegun_rating, hz, Nat.not_lt.2 hr]))) rfl
  case hold =>
    have e : mgHoldBody (mgWith b) (mgBegun 0x1D s) = _ := sized_mg hl _
    refine ⟨fun h1 => mgRow_fail h (by decide) rfl (e.trans (if_pos (by simp [mgWith_payload, h1]))), fun h1 => ?_⟩
    exact mgRow_ok h (by decide) rfl (e.trans (if_neg (by simp [mgWith_payload, hz, Nat.not_lt.2 h1]))) rfl
  case daddr =>
    have e : mgDaddrBody (mgWith b) (mgBegun 0x1D s) = _ := sized_mg hl _
    refine ⟨fun ha => mgRow_fail h (by decide) rfl (e.trans (if_pos (by simp [mgWith_payload, ha]))), fun ha hs => ?_, fun ha hs => ?_⟩
    · refine mgRow_fail h (by decide) rfl (e.trans ((if_neg (by simp [mgWith_payload, hz, Nat.not_le.2 ha])).trans (if_pos ?_)))
      rcases hs with hs | hs <;> simp [mgBegun_pkg, hs]
    · refine mgRow_ok h (by decide) rfl (e.trans ((if_neg (by simp [mgWith_payload, hz, Nat.not_le.2 ha])).trans (if_neg ?_))) ?_
      · rcases hs with hs | hs | hs | hs <;> simp [mgBegun_pkg, hs]
      · rw [daddrSet_mg]; rfl
  case rak =>
    have e := mgRakBody_first (s := mgBegun 0x1D s) hl hk hz hh hr
    refine ⟨fun hn => mgRow_fail h (by decide) rfl (e.trans (if_pos hn)), fun hn => mgRow_ok h (by decide) rfl ?_ rfl⟩
    rw [e, mgBegun_stageBytes, if_neg (not_not.2 hn), List.take_of_length_le (by omega)]; rfl
  case csr =>
    have e : mgCsrBody (mgWith b) (mgBegun 0x1D s) = _ := (sized_mg hl _).trans (if_neg (by simp [mgWith_payload, hz, Nat.not_lt.2 h1]))
    have hgate (hs : s.pkg.st = .idle) : ¬ (s.pkg.st != .idle || !(s.otp.lc = 2 || s.otp.lc = 3)) = true := by
      rcases hlc with hlc | hlc <;> simp [hs, hlc]
    refine ⟨fun hs => mgRow_fail h (by decide) rfl (e.trans (if_pos (by simp [mgBegun_pkg, hs]))), fun hs hi => ?_, fun hs hi hp => ?_⟩
    · exact mgRow_fail h (by decide) rfl (e.trans ((if_neg (hgate hs)).trans (if_pos (by simp [mgBegun_idn, hi]))))
    · refine mgRow_vendor_wait h (by decide) rfl (e.trans ((if_neg (hgate hs)).trans
        ((if_neg (by simp [mgBegun_idn, Option.isSome_iff_ne_none.1 hi])).trans (if_neg (by simp [mgBegun_pqRoom, hp]))))) ?_
      rw [pqAdd_mg]; rfl
  case cert =>
    have e : mgCertBody (mgWith b) (mgBegun 0x1D s) = _ := staged_eq (c := mgWith b) hl hk hz
    have hfits (hn : (stageBytes (mgWith b) s).length ≤ 65472) : ¬ (1 < field b 0 1 || !allZero (slice b 1 3)
        || 65472 < (stageBytes (mgWith b) s).length) = true := by simp [hr, Nat.not_lt.2 h1, Nat.not_lt.2 hn]
    have hkey (hi : s.idn.ident.isSome = true) : ¬ s.idn.ident.isNone = true := by simp [Option.isSome_iff_ne_none.1 hi]
    refine ⟨fun hn => mgRow_fail h (by decide) rfl (e.trans (if_pos (by simp [mgBegun_stageBytes, hn]))), fun hn hi => ?_,
      fun hn hi hc => ?_, fun hn hi hc hb => ?_⟩
    · exact mgRow_fail h (by decide) rfl (e.trans ((if_neg (hfits hn)).trans (if_pos (by simp [mgBegun_idn, hi]))))
    · exact mgRow_fail h (by decide) rfl (e.trans ((if_neg (hfits hn)).trans ((if_neg (hkey hi)).trans
        (if_pos (by simp [mgWith_payload, mgBegun_stageBytes, mgBegun_certFits, hc])))))
    · exact mgRow_vendor_wait h (by decide) rfl (e.trans ((if_neg (hfits hn)).trans ((if_neg (hkey hi)).trans
        ((if_neg (by simp [mgWith_payload, mgBegun_stageBytes, mgBegun_certFits, hc])).trans (if_neg (by simp [mgBegun_rosterBusy, hb])))))) rfl
  case setkey =>
    have e : mgSetkeyBody (mgWith []) (mgBegun 0x1D s) = _ := sized_mg (p := []) (n := 0) rfl _
    refine ⟨fun hlc => mgRow_fail h (by decide) rfl (e.trans (if_pos (by simp [mgBegun_lcOf, hlc]))), fun hlc hp hi hq => ?_⟩
    refine mgRow_vendor_wait h (by decide) rfl (e.trans ((if_neg (by simp [mgBegun_lcOf, hlc])).trans
      ((if_neg (by simp [mgBegun_idn, Option.isSome_iff_ne_none.1 hp, Option.isSome_iff_ne_none.1 hi])).trans
        (if_neg (by simp [mgBegun_pqRoom, hq]))))) ?_
    rw [pqAdd_mg]; rfl
  case request =>
    have e : mgRequestBody (mgWith b) (mgBegun 0x1D s) = _ := sized_mg hl _
    refine ⟨fun h3 => mgRow_fail h (by decide) rfl (e.trans (if_pos (by simp [mgWith_payload, h3]))), fun h3 => ?_⟩
    refine mgRow_ok h (by decide) rfl (e.trans (if_neg (by simp [mgWith_payload, hz, Nat.not_lt.2 h3]))) ?_
    obtain ⟨_, _, er⟩ := raiseHost_frame 0 6 0 { mgBegun 0x1D s with mg := { (mgBegun 0x1D s).mg with mreq := setBit s.mg.mreq (field b 0 1) true } }
    rw [er]; rfl
  case provision =>
    exact mgRow_fail h (by decide) rfl ((sized_mg hl _).trans (if_pos (by simp [mgBegun_wd, (fwWfw_runs h.1).2])))
  case rom =>
    have e := mgProvisionBody_runs (s := mgBegun 0x1D s) hl hf hlc hz h12 ho hj
    have hm : mgRomOp 0xB10 s = true := by simp [mgRomOp, lcOf, hlc]
    exact congrArg Host.Outcome.next (mgRow_rom_wait hf hs hr hb hq (by decide) hm rfl e ((congrArg Mgmt.busy hmg).trans rfl))
  case stands =>
    refine congrArg Host.Outcome.next (if_pos ?_)
    rcases ho with h | h <;> simp [h]
  case expires => exact congrArg Host.Outcome.next (if_neg (by simp [ha, ho]))

end Sys2Proof.Machine
end

section
/-! # The digest engine and the key store

The invariant along every step, and the statements on the digest engine's message, the key store's commands, the KCV recheck and the
DRBG's health. -/
open Sys2Proof
namespace Sys2Proof.Machine

/-! ## The invariant along a step -/

section
variable {q : List Instr} {s t : State}

/-- Every command keeps the invariant and the queue: each row of the table by what its meaning keeps. -/
theorem inv_exec (c : Instr) (h : Kept q s) : Keeps q (exec c s) :=
  match c with
  | .standbyGood progWin => inv_execStandbyGood progWin h
  | .standbyLost => inv_execStandbyLost h
  | .standbyOvervoltage => inv_execStandbyOvervoltage h
  | .wardenRstNAssert => inv_execWardenRstNAssert h
  | .coreResetRelease => inv_execCoreResetRelease h
  | .sramInitDone => inv_execSramInitDone h
  | .pkeBankZeroDone => inv_execPkeBankZeroDone h
  | .otpAutoload => inv_execOtpAutoload h
  | .romBoot x => inv_execRomBoot x h
  | .wfwInit x => inv_execWfwInit x h
  | .bringupStart => inv_execBringupStart h
  | .railPowerGood x => inv_execRailPowerGood x h
  | .unitImageLoad kind x => inv_execUnitImageLoad kind x h
  | .unitReady u gen version => inv_execUnitReady u gen version h
  | .unitReadyTimeout u => inv_execUnitReadyTimeout u h
  | .stackTrainingDone t => inv_execStackTrainingDone t h
  | .stackTrainingTimeout t => inv_execStackTrainingTimeout t h
  | .mainInputGood => inv_execMainInputGood h
  | .mainInputLost => inv_execMainInputLost h
  | .mainOvervoltage => inv_execMainOvervoltage h
  | .refclkPcieLoss => inv_execRefclkPcieLoss h
  | .refclkLinkLoss => inv_execRefclkLinkLoss h
  | .quarantineClearDone => inv_execQuarantineClearDone h
  | .lockstepMismatch => inv_execLockstepMismatch h
  | .sramUncorrectableError addr => inv_execSramUncorrectableError addr h
  | .wdSwrstWrite value => inv_execWdSwrstWrite value h
  | .watchdogKick value => inv_execWatchdogKick value h
  | .watchdogStage1 => inv_execWatchdogStage1 h
  | .watchdogStage2 => inv_execWatchdogStage2 h
  | .timerCompare => inv_execTimerCompare h
  | .hbTickIncrement => inv_execHbTickIncrement h
  | .registerWrite addr value => inv_execRegisterWrite addr value h
  | .fabricWindowAccess u off write value answered => inv_execFabricWindowAccess u off write value answered h
  | .fabricWindowTimeout => inv_execFabricWindowTimeout h
  | .imbCommandDoorbell u frame => inv_execImbCommandDoorbell u frame h
  | .imbResponse u gen frame => inv_execImbResponse u gen frame h
  | .imbRspClear u => inv_execImbRspClear u h
  | .unitEvent u gen payload => inv_execUnitEvent u gen payload h
  | .unitHeartbeat u => inv_execUnitHeartbeat u h
  | .heartbeatLimit u => inv_execHeartbeatLimit u h
  | .sqStart => inv_execSqStart h
  | .sqAbort => inv_execSqAbort h
  | .sqNop => inv_execSqNop h
  | .sqEnd => inv_execSqEnd h
  | .sqSkip => inv_execSqSkip h
  | .sqDelay => inv_execSqDelay h
  | .sqDelayExpiry => inv_execSqDelayExpiry h
  | .sqSetarg => inv_execSqSetarg h
  | .sqSetflag => inv_execSqSetflag h
  | .sqIrq => inv_execSqIrq h
  | .sqJoin => inv_execSqJoin h
  | .sqClear => inv_execSqClear h
  | .sqVerify => inv_execSqVerify h
  | .unitOpComplete u nonzero fault => inv_execUnitOpComplete u nonzero fault h
  | .sqKpush corrupt => inv_execSqKpush corrupt h
  | .sqKpzero => inv_execSqKpzero h
  | .sqKszero => inv_execSqKszero h
  | .sqDigest busErr => inv_execSqDigest busErr h
  | .sqReset hlres => inv_execSqReset hlres h
  | .sqClock => inv_execSqClock h
  | .sqRail => inv_execSqRail h
  | .sqIllegalStep => inv_execSqIllegalStep h
  | .sqStepTimeout => inv_execSqStepTimeout h
  | .wdClkstopWrite tiles => inv_execWdClkstopWrite tiles h
  | .clkstopConfirmTimeout => inv_execClkstopConfirmTimeout h
  | .otRead => inv_execOtRead h
  | .otProg => inv_execOtProg h
  | .otGen => inv_execOtGen h
  | .otIncrTo sel value => inv_execOtIncrTo sel value h
  | .otRevoke sel => inv_execOtRevoke sel h
  | .otLcAdvance sel => inv_execOtLcAdvance sel h
  | .otRepair => inv_execOtRepair h
  | .otIllegalCmd cmd => inv_execOtIllegalCmd cmd h
  | .otCmdComplete x => inv_execOtCmdComplete x h
  | .dgStart => inv_execDgStart h
  | .dgDataWrite value => inv_execDgDataWrite value h
  | .dgBlockAbsorbed => inv_execDgBlockAbsorbed h
  | .dgFinish => inv_execDgFinish h
  | .dgOuterPassDone => inv_execDgOuterPassDone h
  | .dgClear => inv_execDgClear h
  | .dgRootkdf => inv_execDgRootkdf h
  | .ksGen slot => inv_execKsGen slot h
  | .ksUnwrap slot kek => inv_execKsUnwrap slot kek h
  | .ksZero slot bad => inv_execKsZero slot bad h
  | .ksZeroAll bad => inv_execKsZeroAll bad h
  | .ksSetuse slot => inv_execKsSetuse slot h
  | .ksLock slot => inv_execKsLock slot h
  | .ksLoad slot => inv_execKsLoad slot h
  | .ksRecheck => inv_execKsRecheck h
  | .kcvRecheckPass upset => inv_execKcvRecheckPass upset h
  | .pkStart streamErr => inv_execPkStart streamErr h
  | .pkeJobComplete x => inv_execPkeJobComplete x h
  | .msExtend slot => inv_execMsExtend slot h
  | .msLock slot => inv_execMsLock slot h
  | .msTzero => inv_execMsTzero h
  | .unitRestartReload u x => inv_execUnitRestartReload u x h
  | .trialHealthCheck ok => inv_execTrialHealthCheck ok h
  | .perstNAssert d => inv_execPerstNAssert d h
  | .perstNDeassert d => inv_execPerstNDeassert d h
  | .functionLevelReset d => inv_execFunctionLevelReset d h
  | .dataLinkLayerDown d => inv_execDataLinkLayerDown d h
  | .linkUp x => inv_execLinkUp x h
  | .d3hotEntry d => inv_execD3hotEntry d h
  | .d0Entry d => inv_execD0Entry d h
  | .msixUnmask d vector => inv_execMsixUnmask d vector h
  | .mbxBufferWrite ch off data => inv_execMbxBufferWrite ch off data h
  | .mbxDoorbell ch len => inv_execMbxDoorbell ch len h
  | .mbxRspAck ch => inv_execMbxRspAck ch h
  | .hmbTake ch => inv_execHmbTake ch h
  | .hmbMoveDone ch => inv_execHmbMoveDone ch h
  | .jobDuplicateRelease ch => inv_execJobDuplicateRelease ch h
  | .hmbPost ch => inv_execHmbPost ch h
  | .hmbClrrsp ch => inv_execHmbClrrsp ch h
  | .featureOffer c => inv_execFeatureOffer c h
  | .featureAccept c => inv_execFeatureAccept c h
  | .modeSet c => inv_execModeSet c h
  | .channelReset c => inv_execChannelReset c h
  | .resultRead c => inv_execResultRead c h
  | .resultRelease c => inv_execResultRelease c h
  | .stagePut c => inv_execStagePut c h
  | .stageClear c => inv_execStageClear c h
  | .attReport c => inv_execAttReport c h
  | .attCerts c => inv_execAttCerts c h
  | .attMeasLog c => inv_execAttMeasLog c h
  | .attEphemeral c => inv_execAttEphemeral c h
  | .tenantEnroll c => inv_execTenantEnroll c h
  | .tenantStage c => inv_execTenantStage c h
  | .tenantLoad c => inv_execTenantLoad c h
  | .loadingUnitAck u => inv_execLoadingUnitAck u h
  | .loadingAckTimeout => inv_execLoadingAckTimeout h
  | .loadingSelftestPass => inv_execLoadingSelftestPass h
  | .tenantEvict c => inv_execTenantEvict c h
  | .tenantRevoke c => inv_execTenantRevoke c h
  | .tenantStatus c => inv_execTenantStatus c h
  | .tenantList c => inv_execTenantList c h
  | .tenantClearReceipt c => inv_execTenantClearReceipt c h
  | .switchHaltDone => inv_execSwitchHaltDone h
  | .switchHaltTimeout => inv_execSwitchHaltTimeout h
  | .flashWriteDone ok => inv_execFlashWriteDone ok h
  | .wpkOpen c => inv_execWpkOpen c h
  | .keyRelease c => inv_execKeyRelease c h
  | .keyReleaseSet c => inv_execKeyReleaseSet c h
  | .wpkLoad c => inv_execWpkLoad c h
  | .wpkPageFold x => inv_execWpkPageFold x h
  | .wpkFinish c => inv_execWpkFinish c h
  | .wpkStatus c => inv_execWpkStatus c h
  | .wpkClose c => inv_execWpkClose c h
  | .progLoad c => inv_execProgLoad c h
  | .jobSubmit c => inv_execJobSubmit c h
  | .jobCancel c => inv_execJobCancel c h
  | .jobStatus c => inv_execJobStatus c h
  | .rcptFlush c => inv_execRcptFlush c h
  | .astCreate c => inv_execAstCreate c h
  | .astDestroy c => inv_execAstDestroy c h
  | .astInvalidate c => inv_execAstInvalidate c h
  | .prefetch c => inv_execPrefetch c h
  | .advise c => inv_execAdvise c h
  | .faultResume c => inv_execFaultResume c h
  | .mirrorSet c => inv_execMirrorSet c h
  | .regionSet c => inv_execRegionSet c h
  | .linkStatus c => inv_execLinkStatus c h
  | .linkKeyx c => inv_execLinkKeyx c h
  | .linkJobEnd c => inv_execLinkJobEnd c h
  | .linkBounds c => inv_execLinkBounds c h
  | .linkClear c => inv_execLinkClear c h
  | .pwrStatus c => inv_execPwrStatus c h
  | .pwrCapSet c => inv_execPwrCapSet c h
  | .limitTighten c => inv_execLimitTighten c h
  | .unitStatus c => inv_execUnitStatus c h
  | .memTelem c => inv_execMemTelem c h
  | .perfRead c => inv_execPerfRead c h
  | .powerDown c => inv_execPowerDown c h
  | .telemThresh c => inv_execTelemThresh c h
  | .irqQuant c => inv_execIrqQuant c h
  | .updStatus c => inv_execUpdStatus c h
  | .updBegin c => inv_execUpdBegin c h
  | .updData c => inv_execUpdData c h
  | .updEnd c => inv_execUpdEnd c h
  | .updVerify c => inv_execUpdVerify c h
  | .updActivate c => inv_execUpdActivate c h
  | .updCancel c => inv_execUpdCancel c h
  | .logRead c => inv_execLogRead c h
  | .logConfig c => inv_execLogConfig c h
  | .traceConfig c => inv_execTraceConfig c h
  | .traceRead c => inv_execTraceRead c h
  | .rcptBatch c => inv_execRcptBatch c h
  | .svcNonce c => inv_execSvcNonce c h
  | .lcAdvance c => inv_execLcAdvance c h
  | .vkeyRevoke c => inv_execVkeyRevoke c h
  | .svcQuarantine c => inv_execSvcQuarantine c h
  | .wardenReset c => inv_execWardenReset c h
  | .mgKeepalive body => inv_execMgKeepalive body h
  | .mgCapSet body => inv_execMgCapSet body h
  | .mgHold body => inv_execMgHold body h
  | .mgDaddrSet body => inv_execMgDaddrSet body h
  | .mgRakSet body => inv_execMgRakSet body h
  | .mgCsr body => inv_execMgCsr body h
  | .mgCertWrite body => inv_execMgCertWrite body h
  | .mgSetkey body => inv_execMgSetkey body h
  | .mgRequest body => inv_execMgRequest body h
  | .mgProvision body => inv_execMgProvision body h
  | .tileEnter t => inv_execTileEnter t h
  | .progInstall t phandle => inv_execProgInstall t phandle h
  | .jobEnqueue t job => inv_execJobEnqueue t job h
  | .jobAbort t job reason => inv_execJobAbort t job reason h
  | .selftest t pass => inv_execSelftest t pass h
  | .tileStatus t => inv_execTileStatus t h
  | .progCopy src target phandle good => inv_execProgCopy src target phandle good h
  | .portEnter u => inv_execPortEnter u h
  | .linkCfg u port bounds => inv_execLinkCfg u port bounds h
  | .linkTrain u mask => inv_execLinkTrain u mask h
  | .linkQuery u => inv_execLinkQuery u h
  | .jobStart job => inv_execJobStart job h
  | .residueCheckFail t job step => inv_execResidueCheckFail t job step h
  | .residueAlarm t => inv_execResidueAlarm t h
  | .eccUncorrectable t region line job handle => inv_execEccUncorrectable t region line job handle h
  | .jobFinal job x => inv_execJobFinal job x h
  | .completionRingRoom tag ctail => inv_execCompletionRingRoom tag ctail h
  | .completionQuantGrid => inv_execCompletionQuantGrid h
  | .tagFailure t addr onDie => inv_execTagFailure t addr onDie h
  | .stackLineAccess t line write => inv_execStackLineAccess t line write h
  | .stackTempThreshold t temp => inv_execStackTempThreshold t temp h
  | .spillPageRead page job => inv_execSpillPageRead page job h
  | .spillFetchDone page ok => inv_execSpillFetchDone page ok h
  | .dmaDescriptorStart d stream job => inv_execDmaDescriptorStart d stream job h
  | .inboundRecord d a ix x => inv_execInboundRecord d a ix x h
  | .outboundRecord d a ix data => inv_execOutboundRecord d a ix data h
  | .apertureQuiesceTimeout d a => inv_execApertureQuiesceTimeout d a h
  | .apDescriptorWrite a off value => inv_execApDescriptorWrite a off value h
  | .digestLaneResult dest chunk data => inv_execDigestLaneResult dest chunk data h
  | .rcptBatchTimeout => inv_execRcptBatchTimeout h
  | .invLaneDoorbell lane value => inv_execInvLaneDoorbell lane value h
  | .invalidationComplete id => inv_execInvalidationComplete id h
  | .tableReadDone walk entries => inv_execTableReadDone walk entries h
  | .tableReadTimeout walk => inv_execTableReadTimeout walk h
  | .walkBudgetExpiry walk => inv_execWalkBudgetExpiry walk h
  | .faultBatchWindow => inv_execFaultBatchWindow h
  | .faultRingTailWrite value => inv_execFaultRingTailWrite value h
  | .migrationPageLanded tag page => inv_execMigrationPageLanded tag page h
  | .migrationAbandon tag page => inv_execMigrationAbandon tag page h
  | .pageRelease tag page => inv_execPageRelease tag page h
  | .linkSignalDetect u p => inv_execLinkSignalDetect u p h
  | .linkHelloComplete u p daddr ntag => inv_execLinkHelloComplete u p daddr ntag h
  | .linkTrainingFail u p => inv_execLinkTrainingFail u p h
  | .linkSignalLost u p => inv_execLinkSignalLost u p h
  | .linkHoldExpiry u p => inv_execLinkHoldExpiry u p h
  | .flitReceived u p flit => inv_execFlitReceived u p flit h
  | .linkMessageSend x => inv_execLinkMessageSend x h
  | .flitAckTimeout u p => inv_execFlitAckTimeout u p h
  | .linkUncorrLimit u p => inv_execLinkUncorrLimit u p h
  | .linkDegraded u p => inv_execLinkDegraded u p h
  | .linkDegradedTimeout u p => inv_execLinkDegradedTimeout u p h
  | .linkRetrainWrite u p => inv_execLinkRetrainWrite u p h
  | .keyxPendingTimeout job => inv_execKeyxPendingTimeout job h
  | .tjShutdownTrip t => inv_execTjShutdownTrip t h
  | .vcoreCeilingTrip t => inv_execVcoreCeilingTrip t h
  | .sensorMismatch t => inv_execSensorMismatch t h
  | .throttleConversion t tenths => inv_execThrottleConversion t tenths h
  | .throttleReleaseStep t => inv_execThrottleReleaseStep t h
  | .avsLoopStep t target favs => inv_execAvsLoopStep t target favs h
  | .droopEvent t => inv_execDroopEvent t h
  | .brakeNAssert => inv_execBrakeNAssert h
  | .brakeNDeassert => inv_execBrakeNDeassert h
  | .brakeRampStep => inv_execBrakeRampStep h
  | .powerCapLoop => inv_execPowerCapLoop h
  | .thermalLoop => inv_execThermalLoop h
  | .telemetryUpdate => inv_execTelemetryUpdate h
  | .persistentLogFlush => inv_execPersistentLogFlush h
  | .doeObject words => inv_execDoeObject words h
  | .doeAbort => inv_execDoeAbort h
  | .getVersion m => inv_execGetVersion m h
  | .getCapabilities m => inv_execGetCapabilities m h
  | .negotiateAlgorithms m => inv_execNegotiateAlgorithms m h
  | .getDigests m => inv_execGetDigests m h
  | .getCertificate m => inv_execGetCertificate m h
  | .challenge m => inv_execChallenge m h
  | .getMeasurements m => inv_execGetMeasurements m h
  | .keyExchange m => inv_execKeyExchange m h
  | .finish m => inv_execFinish m h
  | .endSession m => inv_execEndSession m h
  | .spdmUnsupportedRequest x => inv_execSpdmUnsupportedRequest x h
  | .i3cAddressAssign da => inv_execI3cAddressAssign da h
  | .mctpPacketRx pkt => inv_execMctpPacketRx pkt h
  | .mctpReassemblyTimeout => inv_execMctpReassemblyTimeout h
  | .wdMgTxgoWrite n => inv_execWdMgTxgoWrite n h
  | .setEndpointId body => inv_execSetEndpointId body h
  | .getEndpointId body => inv_execGetEndpointId body h
  | .getEndpointUuid body => inv_execGetEndpointUuid body h
  | .getMctpVersionSupport body => inv_execGetMctpVersionSupport body h
  | .getMessageTypeSupport body => inv_execGetMessageTypeSupport body h
  | .getVendorMessageSupport body => inv_execGetVendorMessageSupport body h
  | .getTid body => inv_execGetTid body h
  | .setTid body => inv_execSetTid body h
  | .getPldmVersion body => inv_execGetPldmVersion body h
  | .getPldmTypes body => inv_execGetPldmTypes body h
  | .getPldmCommands body => inv_execGetPldmCommands body h
  | .getPdrRepositoryInfo body => inv_execGetPdrRepositoryInfo body h
  | .getPdr body => inv_execGetPdr body h
  | .getSensorReading body => inv_execGetSensorReading body h
  | .getStateSensorReadings body => inv_execGetStateSensorReadings body h
  | .setNumericEffecterValue body => inv_execSetNumericEffecterValue body h
  | .setStateEffecterStates body => inv_execSetStateEffecterStates body h
  | .setEventReceiver body => inv_execSetEventReceiver body h
  | .pollPlatformEventMessage body => inv_execPollPlatformEventMessage body h
  | .platformEventResend => inv_execPlatformEventResend h
  | .requestUpdate body => inv_execRequestUpdate body h
  | .passComponentTable body => inv_execPassComponentTable body h
  | .updateComponent body => inv_execUpdateComponent body h
  | .firmwareDataResponse body => inv_execFirmwareDataResponse body h
  | .activateFirmware body => inv_execActivateFirmware body h
  | .cancelUpdateComponent body => inv_execCancelUpdateComponent body h
  | .cancelUpdate body => inv_execCancelUpdate body h
  | .getStatus body => inv_execGetStatus body h
  | .orphanTimerExpiry => inv_execOrphanTimerExpiry h
  | .bbcShelfEvent shelves => inv_execBbcShelfEvent shelves h
  | .bbcHoldExpiry => inv_execBbcHoldExpiry h
  | .rmBrakeRelease => inv_execRmBrakeRelease h
  | .pumpLoss pumps => inv_execPumpLoss pumps h
  | .rmFailover => inv_execRmFailover h
  | .ksCmdComplete => inv_execKsCmdComplete h
  | .msCmdComplete => inv_execMsCmdComplete h
  | .spiFlashOpDone ok => inv_execSpiFlashOpDone ok h
  | .standbyProgWindowExit => inv_execStandbyProgWindowExit h
  | .wardenRstNDeassert => inv_execWardenRstNDeassert h
  | .powerMonitorSample watts => inv_execPowerMonitorSample watts h
  | .linkDegradedRecovery u p => inv_execLinkDegradedRecovery u p h
  | .drbgHealthFailure => inv_execDrbgHealthFailure h
  | .hbFrCtrlWrite value => inv_execHbFrCtrlWrite value h
  | .pumpRestored pumps => inv_execPumpRestored pumps h
  | .shelfRestored shelves => inv_execShelfRestored shelves h

/-- A step keeps the invariant: on an empty queue the tick does, otherwise the command at the front, run with the queue's rest. -/
theorem inv_step (h : Inv s) (hs : step s = .next t) : Inv t := by
  obtain ⟨hcommand, htick⟩ := stepRunsTheFrontCommand
  cases hp : s.pending with
  | nil =>
    obtain rfl : tick s = t := Host.Outcome.next.inj ((htick s hp).symm.trans hs)
    have hk : Kept [] (tick s) := inv_tick ⟨h, hp⟩
    exact hk.1
  | cons c r =>
    have hk : Kept r { s with pending := r } := ⟨h, rfl⟩
    exact (inv_exec c hk t ((hcommand c r s hp).symm.trans hs)).1
end

/-- Settles O2: `inv_step`, which is `inv_tick` on an empty queue and `inv_exec` otherwise. -/
theorem everyStepKeepsTheInvariant : Obligations.EveryStepKeepsTheInvariant := by
  unfold Obligations.EveryStepKeepsTheInvariant
  exact fun s t h hs => inv_step h hs

/-! ## The digest engine's message -/

section
variable {f : State → State} {s : State}

/-- The auto-load releases the engine (R97). -/
theorem dgGuard_loaded (h : s.otp.loaded = true) : dgGuard f s = f s := if_neg (by simp [dgHeld, h])
/-- Until then a write is ignored and recorded (Table 5-7 code 0xA). -/
theorem dgGuard_held (h : s.otp.loaded = false) : dgGuard f s = { s with dg := { s.dg with ecode := 10 } } := if_pos (by simp [dgHeld, h])

/-- The message delivered to the result register (R116). -/
theorem dgDeliver_result (hd : s.dg.dest = false) : dgDeliver s = { s with
    dg := { s.dg with phase := .idle, done := true, result := slice (dgResult s.dg) 0 64, key := [], buf := [], absorbed := [] },
    outs := .wirq 6 :: s.outs } :=
  if_pos (by simp [hd])
/-- The message delivered to a slot and committed there (R119). -/
theorem dgDeliver_commits (hd : s.dg.dest = true) (hc : s.dg.commit = true) (hcfg : dgCfgOk s.dg = true) (hdst : dgDstOk s = true) :
    dgDeliver s =
      let x := slotS s s.dg.dstslot
      let w := (dgResult s.dg).take (16 * (s.dg.dlen1 + 1))
      let top := max x.len ((16 * s.dg.doff + w.length + 15) / 16 * 16)
      { slotIs s.dg.dstslot (committed (slice (overlay x.content (16 * s.dg.doff) w) 0 top) 2 s.dg.use s.dg.lock) s with
        dg := { s.dg with phase := .idle, done := true, result := [], key := [], buf := [], absorbed := [] }, outs := .wirq 6 :: s.outs } :=
  (if_neg (by simp [hd])).trans <| (if_neg (by simp [hcfg])).trans <| (if_neg (by simp [hdst])).trans (if_pos hc)

/-! A block is absorbed (R116). -/

theorem dgAbsorbed_keyBlock (hp : s.dg.phase = .keyBlock) :
    dgAbsorbed s = { s with dg := { s.dg with phase := .open }, outs := .wirq 6 :: s.outs } := by
  unfold dgAbsorbed; rw [hp]; rfl
theorem dgAbsorbed_block (hp : s.dg.phase = .absorbing) : dgAbsorbed s = { s with
    dg := { s.dg with phase := .open, absorbed := s.dg.absorbed ++ s.dg.buf, buf := [], blocks := s.dg.blocks + 1 },
    outs := .wirq 6 :: s.outs } := by
  unfold dgAbsorbed; rw [hp]; rfl

theorem dgOuter_delivers (h : s.dg.phase = .outer) : dgOuter s = dgDeliver s := if_pos h

/-! START's checks in their order (R116, R117). -/

section
variable (hl : s.otp.loaded = true)
include hl
theorem dgStart_open (hp : s.dg.phase ≠ .idle) : dgStart s = dgEnd 3 s := (dgGuard_loaded hl).trans (if_pos hp)
variable (hp : s.dg.phase = .idle)
include hp
theorem dgStart_illegal (hcfg : dgCfgOk s.dg = false) : dgStart s = dgEnd 1 s :=
  (dgGuard_loaded hl).trans <| (if_neg (by simp [hp])).trans (if_pos (by simp [hcfg]))
variable (hcfg : dgCfgOk s.dg = true)
include hcfg
theorem dgStart_badKey (hk : dgKeyOk s = false) : dgStart s = dgEnd 5 s :=
  (dgGuard_loaded hl).trans <| (if_neg (by simp [hp])).trans <| (if_neg (by simp [hcfg])).trans (if_pos (by simp [hk]))
variable (hk : dgKeyOk s = true)
include hk
theorem dgStart_badSlot (hd : dgDstOk s = false) : dgStart s = dgEnd 6 s :=
  (dgGuard_loaded hl).trans <| (if_neg (by simp [hp])).trans <| (if_neg (by simp [hcfg])).trans <| (if_neg (by simp [hk])).trans
    (if_pos (by simp [hd]))
theorem dgStart_opens (hd : dgDstOk s = true) : dgStart s = { s with dg := { s.dg with
    phase := if isHmac s.dg.mode then .keyBlock else .open, buf := [], absorbed := [], blocks := 0,
    key := if isHmac s.dg.mode then dgKey s else [] } } :=
  (dgGuard_loaded hl).trans <| (if_neg (by simp [hp])).trans <| (if_neg (by simp [hcfg])).trans <| (if_neg (by simp [hk])).trans
    (if_neg (by simp [hd]))
end

/-! CLEAR (R117, R128). -/

section
variable (hl : s.otp.loaded = true)
include hl
theorem dgClear_idle (hp : s.dg.phase = .idle) : dgClear s = s := (dgGuard_loaded hl).trans (if_pos hp)
variable (hp : s.dg.phase ≠ .idle)
include hp
/-- The message ends; bytes it left PENDING in its destination go with it. -/
theorem dgClear_ends : dgClear s =
    { if s.dg.dest && (slotS s s.dg.dstslot).pending then slotIs s.dg.dstslot {} s else s with
      dg := { s.dg with phase := .idle, buf := [], absorbed := [], key := [], result := [] } } := by
  refine (dgGuard_loaded hl).trans ((if_neg hp).trans ?_)
  split <;> rfl
end

/-! FINISH of an open message (R116). -/

section
variable (hl : s.otp.loaded = true) (hp : s.dg.phase = .open)
include hl hp
theorem dgFinish_open : dgFinish s =
    if !s.dg.buf.isEmpty then dgEnd 4 s else if isHmac s.dg.mode then { s with dg := { s.dg with phase := .outer } } else dgDeliver s := by
  unfold dgFinish; rw [dgGuard_loaded hl, hp]
theorem dgFinish_insideBlock (hb : s.dg.buf ≠ []) : dgFinish s = dgEnd 4 s :=
  (dgFinish_open hl hp).trans (if_pos (by simpa using hb))
variable (hb : s.dg.buf = [])
include hb
theorem dgFinish_hmac (hm : isHmac s.dg.mode = true) : dgFinish s = { s with dg := { s.dg with phase := .outer } } :=
  (dgFinish_open hl hp).trans <| (if_neg (by simp [hb])).trans (if_pos hm)
theorem dgFinish_hash (hm : isHmac s.dg.mode = false) : dgFinish s = dgDeliver s :=
  (dgFinish_open hl hp).trans <| (if_neg (by simp [hb])).trans (if_neg (by simp [hm]))
end

/-! ROOTKDF with no message open (R113). -/

section
variable (hl : s.otp.loaded = true) (hp : s.dg.phase = .idle)
include hl hp
theorem dgRootKdf_refused (h : s.otp.root = 0 ∨ s.otp.disabled = true ∨ (slotS s 0).empty = false) : dgRootKdf s = dgEnd 9 s := by
  refine (dgGuard_loaded hl).trans <| (if_neg (by simp [hp])).trans (if_pos ?_)
  rcases h with h | h | h <;> simp [h]
theorem dgRootKdf_derives (hr : s.otp.root ≠ 0) (hd : s.otp.disabled = false) (he : (slotS s 0).empty = true) :
    dgRootKdf s = { slotIs 0 (committed (k0 s.otp) 1 2 true) s with dg := { s.dg with done := true }, outs := .wirq 6 :: s.outs } :=
  (dgGuard_loaded hl).trans <| (if_neg (by simp [hp])).trans (if_neg (by simp [hr, hd, he]))
end
end

/-- Settles O24: each command by the branch of its meaning that the clause's hypotheses select, behind the auto-load's guard. -/
theorem digestMessageOpensAbsorbsAndDelivers : Obligations.DigestMessageOpensAbsorbsAndDelivers := by
  unfold Obligations.DigestMessageOpensAbsorbsAndDelivers
  refine ⟨?start, ?startFails, ?data, ?keyBlock, ?block, ?finish, ?finishInside, ?outer, ?outerSlot, ?clear, ?rootkdf, ?held⟩
  case start => exact fun s hl hp hcfg hk hd => congrArg Host.Outcome.next (dgStart_opens hl hp hcfg hk hd)
  case startFails =>
    intro s hl
    refine ⟨fun hp => ?_, fun hp hcfg => ?_, fun hp hcfg hk => ?_, fun hp hcfg hk hd => ?_⟩ <;> refine congrArg Host.Outcome.next ?_
    · exact dgStart_open hl hp
    · exact dgStart_illegal hl hp hcfg
    · exact dgStart_badKey hl hp hcfg hk
    · exact dgStart_badSlot hl hp hcfg hk hd
  case data => exact fun w s hl hp => congrArg Host.Outcome.next ((dgGuard_loaded hl).trans (if_neg (by simp [hp])))
  case keyBlock => exact fun s hp => congrArg Host.Outcome.next (dgAbsorbed_keyBlock hp)
  case block => exact fun s hp => congrArg Host.Outcome.next (dgAbsorbed_block hp)
  case finish =>
    intro s hl hp hb
    refine ⟨fun hm => congrArg Host.Outcome.next (dgFinish_hmac hl hp hb hm), fun hm hd => ?_⟩
    exact congrArg Host.Outcome.next ((dgFinish_hash hl hp hb hm).trans (dgDeliver_result hd))
  case finishInside => exact fun s hl hp hb => congrArg Host.Outcome.next (dgFinish_insideBlock hl hp hb)
  case outer => exact fun s hp hd => congrArg Host.Outcome.next ((dgOuter_delivers hp).trans (dgDeliver_result hd))
  case outerSlot =>
    exact fun s hp hd hc hcfg hdst => congrArg Host.Outcome.next ((dgOuter_delivers hp).trans (dgDeliver_commits hd hc hcfg hdst))
  case clear =>
    intro s hl
    refine ⟨fun hp h => ?_, fun hp hd hx => ?_, fun hp => ?_⟩ <;> refine congrArg Host.Outcome.next ?_
    · have hkeep : ¬ (s.dg.dest && (slotS s s.dg.dstslot).pending) = true := by rcases h with h | h <;> simp [h]
      exact (dgClear_ends hl hp).trans (by rw [if_neg hkeep])
    · exact (dgClear_ends hl hp).trans (by rw [if_pos (by simp [hd, hx])])
    · exact dgClear_idle hl hp
  case rootkdf =>
    exact fun s hl hp => ⟨fun h => congrArg Host.Outcome.next (dgRootKdf_refused hl hp h),
      fun hr hd he => congrArg Host.Outcome.next (dgRootKdf_derives hl hp hr hd he)⟩
  case held => exact fun s hl w => congrArg Host.Outcome.next (dgGuard_held hl)

/-! ## Key store commands -/

/-- GEN of slot `i` under way with the bytes drawn and committed, to end without an error (R120). -/
noncomputable def genCommitted (i : Nat) (s : State) : State :=
  { ksRuns 1 i 0 (slotIs i (committed (Config.draw s.draws (16 * (s.ks.argLen + 1))) 3 s.ks.argUse s.ks.argLock) s) with draws := s.draws + 1 }
theorem genCommitted_slots (i : Nat) (s : State) : (genCommitted i s).ks.slots =
    s.ks.slots.set i (committed (Config.draw s.draws (16 * (s.ks.argLen + 1))) 3 s.ks.argUse s.ks.argLock) := rfl

section
variable {i : Nat} {s : State}

theorem ksJob_eq (cmd slot e : Nat) (s : State) : ksJob cmd slot e s = ksRuns cmd slot e s := rfl

/-! GEN of an EMPTY slot (R120). -/

section
variable (hb : s.ks.busy = false) (hi : i < 64) (he : (slotS s i).empty = true) (hu : originAllows 3 s.ks.argUse = true)
include hb hi he hu
theorem ksGen_fills (hd : s.ks.drbgOk = true) : ksGen i s = genCommitted i s :=
  (if_neg (by simp [hb])).trans <| (if_neg (Nat.not_le.2 hi)).trans <| (if_neg (by simp [he])).trans <| (if_neg (by simp [hu])).trans
    (if_neg (by simp [hd]))
theorem ksGen_unhealthy (hd : s.ks.drbgOk = false) : ksGen i s = ksRuns 1 i 6 s :=
  (if_neg (by simp [hb])).trans <| (if_neg (Nat.not_le.2 hi)).trans <| (if_neg (by simp [he])).trans <| (if_neg (by simp [hu])).trans
    (if_pos (by simp [hd]))
end

/-! GEN and LOAD of a slot that is not EMPTY, and LOAD of one that is (R120, R122). -/

section
variable (hb : s.ks.busy = false) (hi : i < 64)
include hb hi
theorem ksGen_full (he : (slotS s i).empty = false) : ksGen i s = ksRuns 1 i 3 s :=
  (if_neg (by simp [hb])).trans <| (if_neg (Nat.not_le.2 hi)).trans (if_pos (by simp [he]))
theorem ksLoad_full (he : (slotS s i).empty = false) : ksLoad i s = ksRuns 7 i 3 s :=
  (if_neg (by simp [hb])).trans <| (if_neg (Nat.not_le.2 hi)).trans (if_pos (by simp [he]))
theorem ksLoad_loads (he : (slotS s i).empty = true) (hu : originAllows 6 s.ks.argUse = true) : ksLoad i s =
    ksRuns 7 i 0 (slotIs i (committed (slice s.ks.wbuf 0 (16 * (s.ks.argLen + 1))) 6 s.ks.argUse s.ks.argLock) s) :=
  (if_neg (by simp [hb])).trans <| (if_neg (Nat.not_le.2 hi)).trans <| (if_neg (by simp [he])).trans (if_neg (by simp [hu]))
end

/-! How a command ends (R129), and the DRBG's failure while one runs (R120). -/

theorem ksComplete_job {j : KsJob} (h : s.ks.job = some j) : ksComplete s = { s with
    ks := { s.ks with
      busy := false, job := none, wbuf := [], done := s.ks.done || j.ecode == 0, err := s.ks.err || j.ecode != 0, ecode := j.ecode },
    outs := .wirq 7 :: s.outs } := by
  unfold ksComplete; rw [h]; rfl
theorem drbgFail_idle (h : s.ks.job = none) : drbgFail s = { s with ks := { s.ks with drbgOk := false }, outs := .wirq 8 :: s.outs } := by
  unfold drbgFail; simp only [irq_ks, h]; rfl
theorem drbgFail_gen (h : s.ks.job = some ⟨1, i, 0⟩) : drbgFail s =
    { s with ks := { s.ks with drbgOk := false, job := some ⟨1, i, 6⟩, slots := s.ks.slots.set i {} }, outs := .wirq 8 :: s.outs } := by
  unfold drbgFail; simp only [irq_ks, h]; rfl

/-! UNWRAP of an EMPTY slot (R121). -/

section
variable {k : Nat} (hb : s.ks.busy = false) (hi : i < 64) (hk : k < 64) (he : (slotS s i).empty = true)
include hb hi hk he
theorem ksUnwrap_badKek (hs : slotServes (slotS s k) 3 = false) : ksUnwrap i k s = ksRuns 2 i 4 s :=
  (if_neg (by simp [hb])).trans <| (if_neg (by simp [hi, hk])).trans <| (if_neg (by simp [he])).trans (if_pos (by simp [hs]))
theorem ksUnwrap_opens (hs : slotServes (slotS s k) 3 = true) (hu : originAllows 4 s.ks.argUse = true) : ksUnwrap i k s =
    let n := 16 * (s.ks.argLen + 1)
    let w := slice s.ks.wbuf 0 (n + 8)
    if Config.kwOk (slotS s k).content w then
      ksRuns 2 i 0 (slotIs i (committed ((List.range n).map (Config.kwByte (slotS s k).content w)) 4 s.ks.argUse s.ks.argLock) s)
    else ksRuns 2 i 7 s :=
  (if_neg (by simp [hb])).trans <| (if_neg (by simp [hi, hk])).trans <| (if_neg (by simp [he])).trans <| (if_neg (by simp [hs])).trans
    (if_neg (by simp [hu]))
end

/-! ZERO of one slot and of all (R125). -/

section
variable (hb : s.ks.busy = false) (hi : i < 64)
include hb hi
theorem ksZero_dead {b : Bool} (hd : (slotS s i).dead = true) : ksZero i b s = ksRuns 3 i 3 s :=
  (if_neg (by simp [hb])).trans <| (if_neg (Nat.not_le.2 hi)).trans (if_pos hd)
theorem ksZero_live {b : Bool} (hd : (slotS s i).dead = false) :
    ksZero i b s = if b then setAlarm 17 (ksRuns 3 i 8 (zeroSlot i b s)) else ksRuns 3 i 0 (zeroSlot i b s) :=
  (if_neg (by simp [hb])).trans <| (if_neg (Nat.not_le.2 hi)).trans (if_neg (by simp [hd]))
end

theorem pkCutAll_idle (h : s.pk.run = none) : pkCutAll s = s := if_neg (by simp [h])
/-- ZERO_ALL of which every slot reads back zero. -/
theorem ksZeroAll_zeroes (hb : s.ks.busy = false) (hr : s.pk.run = none) : ksZeroAll [] s = ksRuns 4 0 0 (zeroSlots (List.range 64) s) := by
  unfold ksZeroAll
  rw [if_neg (by simp [hb]), pkCutAll_idle hr]
  simp only [List.not_mem_nil, decide_false, List.any_nil, Bool.false_eq_true, if_false, ksJob_eq, zeroSlots]

/-! SETUSE and LOCK of a committed and unlocked slot (R123). -/

section
variable (hb : s.ks.busy = false) (hi : i < 64) (ho : (slotS s i).origin ≠ 0) (hp : (slotS s i).pending = false)
  (hd : (slotS s i).dead = false) (hl : (slotS s i).lock = false)
include ho hp hd hl
/-- The slot is one that SETUSE and LOCK may change. -/
theorem slot_changeable : ¬ ((slotS s i).empty || (slotS s i).pending || (slotS s i).dead || (slotS s i).lock) = true := by
  simp [Slot.empty, ho, hp, hd, hl]
include hb hi
theorem ksLock_locks : ksLock i s =
    let y := { slotS s i with lock := true }
    ksRuns 6 i 0 (slotIs i { y with kcv := slotKcv y } s) :=
  (if_neg (by simp [hb])).trans <| (if_neg (Nat.not_le.2 hi)).trans (if_neg (slot_changeable ho hp hd hl))
theorem ksSetUse_narrows (hu : s.ks.argUse &&& (slotS s i).use = s.ks.argUse) : ksSetUse i s =
    let z := { slotS s i with use := s.ks.argUse }
    ksRuns 5 i 0 (slotIs i { z with kcv := slotKcv z } s) :=
  (if_neg (by simp [hb])).trans <| (if_neg (Nat.not_le.2 hi)).trans <| (if_neg (slot_changeable ho hp hd hl)).trans (if_neg (by simp [hu]))
theorem ksSetUse_widening (hu : s.ks.argUse &&& (slotS s i).use ≠ s.ks.argUse) : ksSetUse i s = ksRuns 5 i 5 s :=
  (if_neg (by simp [hb])).trans <| (if_neg (Nat.not_le.2 hi)).trans <| (if_neg (slot_changeable ho hp hd hl)).trans (if_pos (by simpa using hu))
end
end

/-- Settles O25: each command by the branch of its meaning that the clause's hypotheses select; zeroing meets no engine. -/
theorem keyStoreCommands : Obligations.KeyStoreCommands := by
  unfold Obligations.KeyStoreCommands
  refine ⟨?slots, ?unwrap, ?change, ?outOfRange, ?zeroAll, ?complete, ?busy⟩
  case slots =>
    intro i s hb hi
    refine ⟨fun he hu hd => ?gen, fun he => ⟨?genFull, ?loadFull⟩, fun he hu => ?load, fun hd hdg hpk hok => ⟨?zero, ?zeroBad⟩,
      fun hd => ?zeroDead⟩ <;> refine congrArg Host.Outcome.next ?_
    case gen => exact ksGen_fills hb hi he hu hd
    case genFull => exact ksGen_full hb hi he
    case loadFull => exact ksLoad_full hb hi he
    case load => exact ksLoad_loads hb hi he hu
    case zero => rw [ksZero_live hb hi hd, if_neg Bool.false_ne_true, zeroSlot_ready hd hdg hpk hok]; rfl
    case zeroBad => rw [ksZero_live hb hi hd, if_pos rfl, zeroSlot_ready hd hdg hpk hok]; rfl
    case zeroDead => exact ksZero_dead hb hi hd
  case unwrap =>
    exact fun i k s hb hi hk he hu => ⟨fun hs => congrArg Host.Outcome.next (ksUnwrap_badKek hb hi hk he hs),
      fun hs => congrArg Host.Outcome.next (ksUnwrap_opens hb hi hk he hs hu)⟩
  case change =>
    intro i s hb hi ho hp hd hl
    refine ⟨?_, fun hu => ?_, fun hu => ?_⟩ <;> refine congrArg Host.Outcome.next ?_
    · exact ksLock_locks hb hi ho hp hd hl
    · exact ksSetUse_narrows hb hi ho hp hd hl hu
    · exact ksSetUse_widening hb hi ho hp hd hl hu
  case outOfRange => exact fun i s hb hi => congrArg Host.Outcome.next ((if_neg (by simp [hb])).trans (if_pos hi))
  case zeroAll =>
    intro s hb hdg hpk hlen hd
    obtain ⟨p, d, e⟩ := zeroSlots_idle (List.range 64) hd hdg hpk
    rw [set_range_64 _ hlen] at e
    have ht : ksZeroAll [] s = _ := (ksZeroAll_zeroes hb hpk).trans (congrArg (ksRuns 4 0 0) e)
    exact ⟨_, congrArg Host.Outcome.next ht, rfl, rfl, rfl⟩
  case complete => exact fun j s hj => congrArg Host.Outcome.next (ksComplete_job hj)
  case busy => exact fun i s hb => congrArg Host.Outcome.next (if_pos hb)

/-! ## The DRBG while GEN runs -/

/-- Settles O8: GEN is `ksGen_fills` or `ksGen_unhealthy`; after it either it completes, or `drbgFail_gen` clears its slot first. -/
theorem genFillsAnEmptySlotOrCommitsNothing : Obligations.GenFillsAnEmptySlotOrCommitsNothing := by
  unfold Obligations.GenFillsAnEmptySlotOrCommitsNothing
  intro i s hb hi hlen he hu
  refine ⟨fun hd => ?good, fun hd => ?bad⟩
  case good =>
    have hgen : exec (.ksGen i) s = .next (genCommitted i s) := congrArg Host.Outcome.next (ksGen_fills hb hi he hu hd)
    have hlen' : i < s.ks.slots.length := by rw [hlen]; exact hi
    refine ⟨_, hgen, slotS_setSlot_self hlen', fun j hj => slotS_setSlot_ne _ _ hj, rfl, ?completes, ?fails⟩
    case completes =>
      refine ⟨_, congrArg Host.Outcome.next (ksComplete_job (s := genCommitted i s) rfl), rfl, rfl, ?_, rfl⟩
      exact Bool.or_true _
    case fails =>
      refine ⟨_, _, congrArg Host.Outcome.next (drbgFail_gen (s := genCommitted i s) rfl), congrArg Host.Outcome.next (ksComplete_job rfl),
        ?_, fun j hj => ?_, ?_, rfl, rfl⟩
      · exact slotS_setSlot_self (s := genCommitted i s) (by rw [genCommitted_slots, List.length_set]; exact hlen')
      · exact (slotS_setSlot_ne {} (genCommitted i s) hj).trans (slotS_setSlot_ne _ s hj)
      · exact Bool.or_true _
  case bad => exact ⟨_, congrArg Host.Outcome.next (ksGen_unhealthy hb hi he hu hd), rfl, rfl⟩

/-! ## The KCV recheck and the DRBG's health -/

section
variable {i : Nat} {s : State}
theorem kcvPass_clean (h : kcvBad s = []) : kcvPass s = s := by unfold kcvPass; rw [h]; rfl
theorem kcvPass_one (h : kcvBad s = [i]) :
    kcvPass s = kcvReact i { s with ks := { s.ks with kcverr := true, kcvslot := i }, outs := .wirq 7 :: s.outs } := by
  unfold kcvPass; rw [h]; rfl
/-- No firmware runs that could answer. -/
theorem kcvReact_unanswered (h : fwWfw s = false) : kcvReact i s = s := if_pos (by simp [h])
/-- Firmware destroys the slot, and logs that it stays empty where nothing derives it again (R127). -/
theorem kcvReact_destroys (hf : fwWfw s = true) (hdg : s.dg.phase = .idle) (hpk : s.pk.run = none) (hok : s.ks.drbgOk = true) (h6 : i ≠ 6)
    (hi : i < s.ks.slots.length) (hd : (slotS s i).dead = false) (ho : (slotS s i).origin ∉ [1, 2]) :
    kcvReact i s = logEvent 0x0204 0xFF (toLe 1 i ++ [0#8]) { slotIs i {} s with draws := s.draws + 1 } := by
  have hslot : slotS { slotIs i {} s with draws := s.draws + 1 } i = {} := slotS_setSlot_self (s := s) hi
  unfold kcvReact
  rw [if_neg (by simp [hf])]; dsimp only
  rw [zeroSlot_ready hd hdg hpk hok, if_neg h6, if_neg (by simpa using ho), hslot]; rfl
end

/-- Settles O26: the pass by the slots that do not match, the answer by `kcvReact`'s cases, the failure by the job it meets. -/
theorem kcvRecheckAndDrbgHealth : Obligations.KcvRecheckAndDrbgHealth := by
  unfold Obligations.KcvRecheckAndDrbgHealth
  refine ⟨?clean, ?one, ?upset, ?destroys, ?unanswered, ?idle, ?gen⟩
  case clean =>
    refine fun s h => ⟨congrArg Host.Outcome.next (kcvPass_clean h), fun hb => congrArg Host.Outcome.next ?_⟩
    rw [if_neg (by simp [hb]), kcvPass_clean h]; rfl
  case one => exact fun i s h => congrArg Host.Outcome.next (kcvPass_one h)
  case upset => exact fun i b s => rfl
  case destroys => exact fun i s hf hdg hpk hok _ h6 hi hd ho => kcvReact_destroys hf hdg hpk hok h6 hi hd ho
  case unanswered => exact fun i s h => kcvReact_unanswered h
  case idle => exact fun s h => congrArg Host.Outcome.next (drbgFail_idle h)
  case gen => exact fun i s h => congrArg Host.Outcome.next (drbgFail_gen h)

end Sys2Proof.Machine
end

section
/-! # The big-number engine and the measurement bank

The statement on a PKE job's start and end, and on the measurement bank's commands. -/
open Sys2Proof
namespace Sys2Proof.Machine

/-! ## A PKE job begins -/

section
variable {s : State}

/-- A trace point that the mask leaves out records nothing (R509). -/
theorem trace_masked {p : Nat} (h : bit s.lg.mask p = false) (u a b : Nat) : trace p u a b s = s := if_neg (ne_true_of_eq_false h)

/-- The engine has taken run `r`, with the trace point of a job's start off (R138). -/
noncomputable def pkBegan (r : PkRun) (s : State) : State := { s with
  draws := s.draws + 1, pk := { s.pk with busy := true, alarm := false, kscut := false, jobs := s.pk.jobs + 1, run := some r } }
theorem pkBegin_untraced (h : bit s.lg.mask 5 = false) (r : PkRun) : pkBegin r s = pkBegan r s := trace_masked (s := pkBegan r s) h ..

/-- With no SRAM word to correct, the fetch of the STREAM operands leaves the state (R144). -/
theorem pkSnapshot_clean (hf : s.wd.flips = []) (hs : s.pk.snap = false) (l : List (Nat × Nat)) : pkSnapshot l s = s := by
  unfold pkSnapshot
  dsimp only
  rw [List.foldl_fixed' fun p => sramScrub_clean (by exact hf) p.1 p.2, ← hs]

theorem pkStart_busy (h : s.pk.busy = true) (x : Option Nat) : pkStart x s = { s with pk := { s.pk with ovr := true } } := if_pos h

section
variable (hb : s.pk.busy = false)
include hb
theorem pkStart_wipefail (hw : s.pk.wipefail = true) (x : Option Nat) : pkStart x s = { s with pk := { s.pk with err := true, ecode := 1 } } :=
  (if_neg (ne_true_of_eq_false hb)).trans (if_pos hw)
variable (hw : s.pk.wipefail = false)
include hw
theorem pkStart_illegal (hsh : pkShape s.pk.op s.pk.nw s.pk.ord = none) (x : Option Nat) : pkStart x s = pkBegin (pkRunOf 2 [] s) s :=
  (if_neg (ne_true_of_eq_false hb)).trans <| (if_neg (ne_true_of_eq_false hw)).trans (by rw [hsh])

/-- START of a legal operation: phase 1's ECODE, then the DRBG, then the fetch of the STREAM operands (Table 6-1). -/
theorem pkStart_legal {sh : PkShape} (hsh : pkShape s.pk.op s.pk.nw s.pk.ord = some sh) (x : Option Nat) : pkStart x s =
    if pkCheck s ≠ 0 then pkBegin (pkRunOf (pkCheck s) [] s) s
    else if sh.random && !s.ks.drbgOk then pkBegin (pkRunOf 4 [] s) s
    else (x.filter fun a => (pkStreams s.pk sh).any fun p => decide (p.1 ≤ a) && decide (a < p.1 + p.2)).elim
      (pkSnapshot (pkStreams s.pk sh) (pkBegin (pkRunOf 0 ((List.range sh.ins.length).map
        (fun i => pkOpndBytes s (nth {} s.pk.opnds i) (nth 0 sh.ins i)) ++ if sh.priv.isSome then [(slotS s s.pk.kslot).content] else []) s) s))
      (fun a => pkBegin (pkRunOf 6 [] s) { s with pk := { s.pk with eaddr := a } }) := by
  refine (if_neg (ne_true_of_eq_false hb)).trans <| (if_neg (ne_true_of_eq_false hw)).trans ?_
  rw [hsh]; dsimp only
  cases x.filter fun a => (pkStreams s.pk sh).any fun p => decide (p.1 ≤ a) && decide (a < p.1 + p.2) <;> rfl
end
end

/-! ## A PKE job ends -/

section
variable {s : State}

/-- The results go to KEEP slots and to the key store alone (R138, R142). -/
theorem pkCommit_frame (r : PkRun) (s : State) : ∃ m k, pkCommit r s = { s with pk := { s.pk with keep := m }, ks := k } := by
  unfold pkCommit; split
  · exact ⟨_, _, rfl⟩
  · dsimp only
    split <;> split <;> split <;> exact ⟨_, _, rfl⟩

/-- What a job's commit phase leaves (R138): the results where no ECODE ends it. -/
noncomputable def pkCommitted (r : PkRun) (x : PkEnd) (s : State) : State := if pkOutcome r x s = 0 then pkCommit r s else s
theorem pkCommitted_frame (r : PkRun) (x : PkEnd) (s : State) : ∃ m k, pkCommitted r x s = { s with pk := { s.pk with keep := m }, ks := k } := by
  unfold pkCommitted; split
  · exact pkCommit_frame r s
  · exact ⟨_, _, rfl⟩

/-- The state a job's end leaves, with the trace point of a job's end off (R138, R145, R146). -/
noncomputable def pkEnded (r : PkRun) (x : PkEnd) (s : State) : State :=
  let e := pkOutcome r x s
  let p := pkCommitted r x s
  let cut := match r.dslot with | some d => !(slotS s d).empty | none => false
  { p with
    pk := { p.pk with
      busy := false, run := none, wipeMem := [], wiping := false, done := p.pk.done || e == 0, err := p.pk.err || e != 0, ecode := e
      kscut := p.pk.kscut || cut, valid := if pkVerdictOp r.op then e == 0 && pkVerdict r.op r.ins else p.pk.valid
      iter := pkIter r x e p.pk.iter, cycles := x.cycles }
    outs := .wirq 5 :: p.outs }
theorem pkEnded_frame (r : PkRun) (x : PkEnd) (s : State) : ∃ p k, pkEnded r x s = { s with pk := p, ks := k, outs := .wirq 5 :: s.outs } := by
  obtain ⟨m, k, hc⟩ := pkCommitted_frame r x s
  unfold pkEnded; rw [hc]; exact ⟨_, _, rfl⟩

/-- The WIPE bank reads back zero (R145). -/
theorem pkWipe_clean (s : State) : pkWipe false s = { s with pk := { s.pk with wipeMem := [], wiping := false } } := by
  simp only [pkWipe, Bool.or_false]; rfl

theorem pkFinish_ends {r : PkRun} {x : PkEnd} (hr : s.pk.run = some r) (hz : s.pk.zeroing = false) (hx : x.wipeBad = false)
    (hm : bit s.lg.mask 6 = false) : pkFinish x s = pkEnded r x s := by
  have hmask : bit (pkEnded r x s).lg.mask 6 = false := by obtain ⟨p, k, he⟩ := pkEnded_frame r x s; rw [he]; exact hm
  unfold pkFinish
  rw [hr]; dsimp only
  rw [if_neg (ne_true_of_eq_false hz), hx, pkWipe_clean]
  exact trace_masked hmask ..

/-- The event of a failed job leaves the big-number engine's queue and the receipts (Table 22-1). -/
theorem pkErrorEv_frame (op e : Nat) (s : State) : ∃ l h o, pkErrorEv op e s = { s with lg := l, hb := { s.hb with fns := h }, outs := o } := by
  unfold pkErrorEv; split
  · exact ⟨_, _, _, rfl⟩
  · exact logEvent_frame ..

/-- Nothing waits for the hold's end (R358). -/
theorem rcResume_clear (hw : s.rc.waiting = none) (hd : s.rc.due = none) (hh : s.rc.held = []) : rcResume s = s := by
  unfold rcResume
  rw [if_neg (by simp [hw])]; dsimp only
  rw [hd]; dsimp only
  rw [hh, List.foldl_nil, ← hh]

/-- A job started through the registers ends, with nothing queued behind it: ECODE 6 also resets the warden (R146). -/
theorem pkComplete_ends {r : PkRun} {x : PkEnd} (hr : s.pk.run = some r) (hq : s.pq.run = none) (hqw : s.pq.wait = []) (hw : s.rc.waiting = none)
    (hd : s.rc.due = none) (hh : s.rc.held = []) (hx : x.wipeBad = false) (hz : s.pk.zeroing = false) (hm : bit s.lg.mask 6 = false) :
    let t := pkErrorEv r.op (pkOutcome r x s) (pkEnded r x s)
    pkComplete x s = if pkOutcome r x s = 6 then softReset 1 t else t := by
  intro t
  have ht : t.pq = s.pq ∧ t.rc = s.rc := by
    obtain ⟨p, k, he⟩ := pkEnded_frame r x s
    obtain ⟨l, f, o, hev⟩ := pkErrorEv_frame r.op (pkOutcome r x s) (pkEnded r x s)
    rw [show t = _ from hev, he]; exact ⟨rfl, rfl⟩
  obtain ⟨hpq, hrc⟩ := ht
  have hidle : rcResume (pqDispatch t) = t := by
    rw [pqDispatch_empty (by rw [hpq]; exact hqw)]
    exact rcResume_clear (by rw [hrc]; exact hw) (by rw [hrc]; exact hd) (by rw [hrc]; exact hh)
  unfold pkComplete
  rw [hr]; dsimp only
  rw [pkFinish_ends hr hz hx hm, show (pkErrorEv r.op (pkOutcome r x s) (pkEnded r x s)).pq.run = none from (congrArg _ hpq).trans hq]
  exact congrArg _ hidle
end

/-! ## The measurement bank's commands -/

section
variable {n : Nat} {s : State}

/-- The value and the count that EXTEND with `b` leaves in a slot (R158). -/
noncomputable def MSlot.extended (b : Bytes) (x : MSlot) : MSlot :=
  { x with val := Config.sha384 (x.val ++ slice b 0 48), count := min (x.count + 1) 0xFFFFFFFF }

/-- An unlocked slot is extended, and the log of its partition takes an entry or has lost one (R158, R159). -/
theorem msExtend_extends (h : (nth {} s.ms.slots n).locked = false) (kind typ : Nat) (b : Bytes) : ∃ m : Meas,
    msExtend n kind typ b s = { s with ms := m } ∧ m.slots = s.ms.slots.set n ((nth {} s.ms.slots n).extended b) := by
  refine ⟨_, if_neg (ne_true_of_eq_false h), ?_⟩
  dsimp only
  split <;> split <;> rfl

theorem msCmd_busy (h : s.ms.job.isSome = true) : msCmdExtend n s = msBusy s ∧ msCmdLock n s = msBusy s ∧ msCmdTzero s = msBusy s :=
  ⟨if_pos h, if_pos h, if_pos h⟩

section
variable (hj : s.ms.job = none)
include hj
theorem ms_notBusy : ¬ s.ms.job.isSome = true := by simp [hj]
theorem msCmdExtend_outOfRange (hn : 32 ≤ n) : msCmdExtend n s = msJob 1 2 s := (if_neg (ms_notBusy hj)).trans (if_pos hn)
theorem msCmdLock_outOfRange (hn : 32 ≤ n) : msCmdLock n s = msJob 2 2 s := (if_neg (ms_notBusy hj)).trans (if_pos hn)
theorem msCmdExtend_extends (hn : n < 32) (h : (nth {} s.ms.slots n).locked = false) : msCmdExtend n s = msJob 1 0 (msExtend n 2 0 s.ms.msIn s) :=
  (if_neg (ms_notBusy hj)).trans <| (if_neg (Nat.not_le.2 hn)).trans (if_neg (ne_true_of_eq_false h))
theorem msCmdLock_locks (hn : n < 32) : msCmdLock n s = msJob 2 0 (msLock n s) :=
  (if_neg (ms_notBusy hj)).trans (if_neg (Nat.not_le.2 hn))
theorem msCmdTzero_refused (ht : tkeys s = true) : msCmdTzero s = msJob 3 4 (logEvent 0x0106 0xFF [0x10, 0x04] s) :=
  (if_neg (ms_notBusy hj)).trans (if_pos ht)
theorem msCmdTzero_zeroes (ht : tkeys s = false) : msCmdTzero s = msJob 3 0 (msTzeroNow s) :=
  (if_neg (ms_notBusy hj)).trans (if_neg (ne_true_of_eq_false ht))
end

theorem msComplete_job {j : MsJob} (h : s.ms.job = some j) : msComplete s = { s with ms := { s.ms with
    job := none, msIn := [], done := s.ms.done || j.ecode == 0, err := s.ms.err || j.ecode != 0, ecode := j.ecode } } := by
  unfold msComplete; rw [h]
end

/-- Settles O27: START by the first of its checks that fails, a job's end by `pkComplete_ends`, and each measurement command by the branch
of its meaning that the clause's hypotheses select. -/
theorem pkeJobsAndMeasurementCommands : Obligations.PkeJobsAndMeasurementCommands := by
  unfold Obligations.PkeJobsAndMeasurementCommands
  refine ⟨?busy, ?wipefail, ?legal, ?illegal, ?ends, ?slots, ?tzero, ?msBusy, ?msEnds⟩
  case busy => exact fun x s hb => congrArg Host.Outcome.next (pkStart_busy hb x)
  case wipefail => exact fun x s hb hw => congrArg Host.Outcome.next (pkStart_wipefail hb hw x)
  case legal =>
    intro s sh hb hw hsh hm
    refine ⟨fun hc hr hs hf => ?runs, fun x hc => ?fails, fun x hc hr hd => ?unhealthy, fun a hc hr ha => ?streamError⟩ <;>
      refine congrArg Host.Outcome.next ((pkStart_legal hb hw hsh _).trans ?_)
    case runs =>
      rw [if_neg (not_not.2 hc), if_neg (by simpa using hr), pkBegin_untraced hm]
      exact pkSnapshot_clean (s := pkBegan _ s) hf hs _
    case fails => exact (if_pos hc).trans (pkBegin_untraced hm _)
    case unhealthy => rw [if_neg (not_not.2 hc), if_pos (by simp [hr, hd])]; exact pkBegin_untraced hm _
    case streamError =>
      rw [if_neg (not_not.2 hc), if_neg (by simpa using hr), Option.filter_some, if_pos ha]
      exact pkBegin_untraced (s := { s with pk := { s.pk with eaddr := a } }) hm _
  case illegal =>
    intro x s hb hw hsh
    exact ⟨_, congrArg Host.Outcome.next (pkStart_illegal hb hw hsh x), by simp [pkBegin], by simp [pkBegin]⟩
  case ends =>
    intro r x s hr hq hqw hw hd hh hx hz hm
    have hend := pkComplete_ends hr hq hqw hw hd hh hx hz hm
    refine ⟨fun he => congrArg Host.Outcome.next (hend.trans (if_neg he)), fun he => ?_⟩
    exact ⟨_, congrArg Host.Outcome.next (hend.trans (if_pos he)), wardenReset_spec _ _ _, rfl⟩
  case slots =>
    intro n s hj
    refine ⟨fun hn => ⟨?_, ?_⟩, fun hn hl hlen => ?extend, fun hn => congrArg Host.Outcome.next (msCmdLock_locks hj hn)⟩
    · exact congrArg Host.Outcome.next (msCmdExtend_outOfRange hj hn)
    · exact congrArg Host.Outcome.next (msCmdLock_outOfRange hj hn)
    case extend =>
      obtain ⟨m, he, hm⟩ := msExtend_extends hl 2 0 s.ms.msIn
      have hself : nth {} m.slots n = (nth {} s.ms.slots n).extended s.ms.msIn := by simp [hm, nth, hlen, hn]
      have hother : ∀ k, k ≠ n → nth {} m.slots k = nth {} s.ms.slots k := fun k hk => by simp [hm, nth, List.getElem?_set_ne hk.symm]
      refine ⟨_, congrArg Host.Outcome.next ((msCmdExtend_extends hj hn hl).trans (congrArg (msJob 1 0) he)), ?_, ?_, hother, rfl, rfl⟩
      · exact congrArg MSlot.val hself
      · exact congrArg MSlot.count hself
  case tzero =>
    exact fun s hj => ⟨fun ht => congrArg Host.Outcome.next (msCmdTzero_refused hj ht),
      fun ht => congrArg Host.Outcome.next (msCmdTzero_zeroes hj ht)⟩
  case msBusy =>
    intro n s hj
    obtain ⟨hext, hlock, hzero⟩ := msCmd_busy (n := n) hj
    exact ⟨congrArg Host.Outcome.next hext, congrArg Host.Outcome.next hlock, congrArg Host.Outcome.next hzero⟩
  case msEnds => exact fun j s hj => congrArg Host.Outcome.next (msComplete_job hj)

end Sys2Proof.Machine
end

section
/-! # Unit images, READY and the health check

The statements on the load of unit images in BRINGUP and after a restart, on READY, and on a trial's health check. -/
open Sys2Proof
namespace Sys2Proof.Machine

/-! ## What the digest of an image leaves

`LoadKept b s`: from `b` to `s` the package, the boot record, the units and the tiles' power side are as they were. -/

def LoadKept (b s : State) : Prop := s.pkg = b.pkg ∧ s.boot = b.boot ∧ s.units = b.units ∧ s.pw.tiles = b.pw.tiles

section
variable {b s : State}

theorem LoadKept.refl (s : State) : LoadKept s s := ⟨rfl, rfl, rfl, rfl⟩
/-- What looks at no field of `LoadKept` keeps it. -/
theorem LoadKept.of_eq {t : State} (h : LoadKept b s) (hp : t.pkg = s.pkg) (hb : t.boot = s.boot) (hu : t.units = s.units) (ht : t.pw.tiles = s.pw.tiles) :
    LoadKept b t := by unfold LoadKept; rw [hp, hb, hu, ht]; exact h

theorem loadKept_ite {c : Prop} [Decidable c] {x y : State} (hx : LoadKept b x) (hy : LoadKept b y) : LoadKept b (if c then x else y) := by
  split <;> assumption

theorem loadKept_trace (p u x y : Nat) (h : LoadKept b s) : LoadKept b (trace p u x y s) := by
  obtain ⟨_, e⟩ := trace_frame p u x y s; rw [e]; exact h
theorem loadKept_sqStop (f : Seqr → Seqr) (h : LoadKept b s) : LoadKept b (sqStop f s) := loadKept_trace _ _ _ _ (s := { s with sq := _ }) h
theorem loadKept_sqError (e : Nat) (h : LoadKept b s) : LoadKept b (sqError e s) := loadKept_sqStop _ h
theorem loadKept_sqAdvance (h : LoadKept b s) : LoadKept b (sqAdvance s) := loadKept_ite (loadKept_sqStop _ h) (loadKept_ite (loadKept_sqError 7 h) h)
theorem loadKept_sqStart (p : SqPurpose) (h : LoadKept b s) : LoadKept b (sqStart p s) :=
  loadKept_ite h (loadKept_trace _ _ _ _ (s := { s with sq := _ }) h)
theorem loadKept_dgEnd (e : Nat) (h : LoadKept b s) : LoadKept b (dgEnd e s) := by
  obtain ⟨_, _, _, e⟩ := dgEnd_frame e s; rw [e]; exact h
theorem loadKept_setNotice (n : Nat) (h : LoadKept b s) : LoadKept b (setNotice n s) := loadKept_ite h h
theorem loadKept_sramScrub (a n : Nat) (h : LoadKept b s) : LoadKept b (sramScrub a n s) :=
  loadKept_ite h (loadKept_setNotice 11 (s := { s with wd := _, pw := _ }) h)

/-- Whatever a DIGEST step meets (R81). -/
theorem loadKept_sqDigest (n : Nat) (e : Bool) (h : LoadKept b s) : LoadKept b (sqDigest n e s) := by
  unfold sqDigest; dsimp only
  refine loadKept_ite (loadKept_sqError 6 h) ?_
  split
  · exact loadKept_sqError 6 h
  · refine loadKept_ite (loadKept_sqError 8 (loadKept_dgEnd 2 h)) (loadKept_ite (loadKept_sqError 8 (loadKept_dgEnd 7 h)) (loadKept_sqAdvance ?_))
    exact loadKept_sramScrub (nth 0 s.sq.args 0) n h

/-- The steps of a chunk's table are DIGEST and END. -/
theorem loadKept_digestStep {n : Nat} (hn : n < 2 ^ 40) {w : Step64} (hw : w ∈ digestTable n) (x : StepIn) (h : LoadKept b s) :
    LoadKept b (stepEffect w x s) := by
  rcases List.mem_pair.1 hw with rfl | rfl
  · have hop : stepOp (mkStep 0x30 0 0 n) = 0x30 := stepOp_mkStep (by omega) (by omega) (by omega) hn
    unfold stepEffect; rw [hop]; exact loadKept_sqDigest _ _ h
  · rw [stepEffect_end]; exact loadKept_sqStop _ h

theorem loadKept_fwDigest {n : Nat} (hn : n < 2 ^ 40) (h : LoadKept b s) : LoadKept b (fwDo (digestTable n) s) := by
  have hrun : LoadKept b (runSteps (fun _ s => s) (digestTable n) (sqStart .user (fwReady (digestTable n) s))) := by
    refine List.foldlRecOn (motive := LoadKept b) _ _ (loadKept_sqStart _ (s := fwReady _ s) h) (fun t ht w hw => loadKept_ite ht ?_)
    have he := loadKept_digestStep hn hw quietStep (s := sqPast t) ht
    dsimp only
    split
    · exact loadKept_sqAdvance he
    · exact he
  exact loadKept_ite (x := { runSteps _ _ _ with sq := s.sq }) hrun hrun

theorem loadKept_digestChunk {c : Bytes} (hc : c.length ≤ 65536) (h : LoadKept b s) : LoadKept b (digestChunk s c) :=
  loadKept_fwDigest (by omega) (h.of_eq rfl rfl rfl rfl)

/-- The digest engine's own registers are none of these. Stated for any state, so that a body's chunks are never unfolded. -/
theorem LoadKept.withDg (h : LoadKept b s) (d : Digest) : LoadKept b { s with dg := d } := h

/-- A body's digest is taken in chunks of at most 64 KiB (R166). -/
theorem loadKept_bodyDigest (d : Bytes) (h : LoadKept b s) : LoadKept b (bodyDigest d s) := by
  obtain ⟨o, x, e⟩ : ∃ o x, bodyDigest d s =
      { (chunks (d.take (d.length / 128 * 128))).foldl digestChunk { s with dg := o } with dg := x } := ⟨_, _, rfl⟩
  rw [e]
  refine LoadKept.withDg (List.foldlRecOn (motive := LoadKept b) _ _ (h.withDg o) fun t ht c hc => ?_) x
  obtain ⟨i, -, rfl⟩ := List.mem_map.1 hc
  exact loadKept_digestChunk (List.length_take_le ..) ht

theorem loadKept_digestFail (h : LoadKept b s) : LoadKept b (digestFail s) :=
  loadKept_sqError 8 (loadKept_dgEnd 7 (loadKept_sqStart _ (s := fwReady _ s) h))
end

/-! ## The image and GO in a unit's registers (R166) -/

theorem modUnit_length (u : Nat) (f : UnitS → UnitS) (s : State) : (modUnit u f s).units.length = s.units.length := List.length_modify ..

/-- A run of updates of units by one function that is idempotent. -/
theorem unitS_foldl_modUnit {f : UnitS → UnitS} (hf : ∀ x, f (f x) = f x) (us : List Nat) (s : State) {v : Nat} (hv : v < s.units.length) :
    unitS (us.foldl (fun s u => modUnit u f s) s) v = if v ∈ us then f (unitS s v) else unitS s v := by
  induction us generalizing s with
  | nil => rfl
  | cons a us ih =>
    rw [List.foldl_cons, ih (modUnit a f s) (by rw [modUnit_length]; exact hv)]
    by_cases ha : a = v
    · subst ha; simp [unitS_modUnit hv, hf]
    · simp [unitS_modUnit_ne ha, Ne.symm ha]

theorem foldl_modUnit_frame (f : UnitS → UnitS) (us : List Nat) (s : State) :
    ∃ x, us.foldl (fun s u => modUnit u f s) s = { s with units := x } ∧ x.length = s.units.length := by
  refine List.foldlRecOn (motive := fun t : State => ∃ x, t = { s with units := x } ∧ x.length = s.units.length) _ _ ⟨_, rfl, rfl⟩ ?_
  rintro _ ⟨x, rfl, hx⟩ u -
  exact ⟨modNth u f x, rfl, (List.length_modify ..).trans hx⟩

/-- A unit with image `d` in its region, of its controller or of its memory controller. -/
noncomputable def withImage (k : Nat) (d : Bytes) (y : UnitS) : UnitS := if k = 2 then { y with mcImage := d } else { y with image := d }
/-- A unit with GO at entry offset `e`. -/
noncomputable def withGo (k e : Nat) (y : UnitS) : UnitS :=
  if k = 2 then { y with mcGo := true, mcEntry := e, mcAwait := true } else { y with go := true, entry := e, awaitReady := true }
/-- The entry offset that an image's header gives. -/
noncomputable def Img.entry (i : Img) : Nat := field i.h 24 4 % 2 ^ 23 / 4 * 4

theorem withImage_idem (k : Nat) (d : Bytes) (y : UnitS) : withImage k d (withImage k d y) = withImage k d y := by
  unfold withImage; split <;> rfl
theorem withGo_idem (k e : Nat) (y : UnitS) : withGo k e (withGo k e y) = withGo k e y := by
  unfold withGo; split <;> rfl

section
variable {k : Nat} {x : LoadIn} {s : State} {i : Img}

/-- An image goes to each of a list of units and to no other, and nothing else that `LoadKept` names moves. -/
theorem withImage_foldl_spec {t : State} (h : LoadKept s t) (d : Bytes) (us : List Nat) :
    let w := us.foldl (fun s u => modUnit u (withImage k d) s) t
    w.pkg = s.pkg ∧ w.boot = s.boot ∧ w.pw.tiles = s.pw.tiles ∧ w.units.length = s.units.length
      ∧ ∀ v < s.units.length, unitS w v = if v ∈ us then withImage k d (unitS s v) else unitS s v := by
  obtain ⟨hpkg, hboot, hunits, htiles⟩ := h
  have hview : ∀ v, unitS t v = unitS s v := fun v => by unfold unitS; rw [hunits]
  obtain ⟨y, e, hlen⟩ := foldl_modUnit_frame (withImage k d) us t
  refine ⟨by rw [e]; exact hpkg, by rw [e]; exact hboot, by rw [e]; exact htiles, by rw [e]; exact hlen.trans (by rw [hunits]), fun v hv => ?_⟩
  rw [unitS_foldl_modUnit (withImage_idem k d) us t (by rw [hunits]; exact hv), hview]

/-- The write of a body changes the image of the units it is for, and nothing that a load is judged by. -/
theorem loadWrite_spec (us : List Nat) : (loadWrite k x us i s).pkg = s.pkg ∧ (loadWrite k x us i s).boot = s.boot
    ∧ (loadWrite k x us i s).pw.tiles = s.pw.tiles ∧ (loadWrite k x us i s).units.length = s.units.length
    ∧ ∀ v < s.units.length, unitS (loadWrite k x us i s) v = if v ∈ us then withImage k i.body (unitS s v) else unitS s v := by
  have hw : loadWrite k x us i s =
      us.foldl (fun s u => modUnit u (withImage k i.body) s) (bodyDigest i.body (if x.digestFails = 0 then s else digestFail s)) := rfl
  rw [hw]
  exact withImage_foldl_spec (loadKept_bodyDigest _ (loadKept_ite (LoadKept.refl s) (loadKept_digestFail (LoadKept.refl s)))) i.body us

theorem loadE_of_boot {s t : State} (h : t.boot = s.boot) : loadE k t = loadE k s := by unfold loadE; rw [h]

theorem loadWrite_loadE (us : List Nat) : loadE k (loadWrite k x us i s) = loadE k s := by
  obtain ⟨-, hboot, -⟩ := loadWrite_spec (k := k) (x := x) (i := i) (s := s) us; exact loadE_of_boot hboot

/-! ## The code of a load (Table 7-6) -/

theorem loadCode_flashErr (h : x.flashErr = true) : loadCode k x s = 10 := if_pos h
/-- A header that fails checks 1 to 8. -/
theorem loadCode_check (hf : x.flashErr = false) (hc : imgCheck8 s s.boot.chosen (loadType k) ≠ 0) :
    loadCode k x s = imgCheck8 s s.boot.chosen (loadType k) := (if_neg (ne_true_of_eq_false hf)).trans (if_pos hc)
/-- No body is written: the flash could not be read, or the header is refused. -/
theorem loadCode_unread (h : x.flashErr = true ∨ imgCheck8 s s.boot.chosen (loadType k) ≠ 0) : loadCode k x s ≠ 0 := by
  cases hf : x.flashErr with
  | true => rw [loadCode_flashErr hf]; decide
  | false =>
    have hc := h.resolve_left (ne_true_of_eq_false hf)
    rw [loadCode_check hf hc]; exact hc

/-- The state once the body is written, where one is. -/
noncomputable def loaded (k : Nat) (x : LoadIn) (us : List Nat) (i : Img) (s : State) : State :=
  if x.flashErr || imgCheck8 s s.boot.chosen (loadType k) ≠ 0 then s else loadWrite k x us i s
theorem loaded_unread (h : x.flashErr = true ∨ imgCheck8 s s.boot.chosen (loadType k) ≠ 0) (us : List Nat) : loaded k x us i s = s :=
  if_pos (by simpa using h)
theorem loaded_written (hf : x.flashErr = false) (hc : imgCheck8 s s.boot.chosen (loadType k) = 0) (us : List Nat) :
    loaded k x us i s = loadWrite k x us i s := if_neg (by simp [hf, hc])

/-- An image that every check of Table 7-6 accepts, read without an error. -/
def LoadGood (k : Nat) (x : LoadIn) (i : Img) (s : State) : Prop :=
  (x.flashErr = false ∧ x.digestFails = 0 ∧ x.windowErr = none ∧ x.digestBad = false)
  ∧ imgCheck8 s s.boot.chosen (loadType k) = 0 ∧ readImg s s.boot.chosen (loadType k) = some i ∧ imgBodyOk i = true

theorem LoadGood.read (h : LoadGood k x i s) : readImg s s.boot.chosen (loadType k) = some i := by
  obtain ⟨-, -, hr, -⟩ := h; exact hr
theorem LoadGood.loaded (h : LoadGood k x i s) (us : List Nat) : loaded k x us i s = loadWrite k x us i s := by
  obtain ⟨⟨hf, -⟩, hc, -⟩ := h; exact loaded_written hf hc us
theorem LoadGood.code (h : LoadGood k x i s) : loadCode k x s = 0 := by
  obtain ⟨⟨hf, hd, hw, hb⟩, hc, hr, hi⟩ := h
  unfold loadCode; simp [hf, hc, hd, hw, hb, hr, hi]
end

/-! ## A restarted unit's reload (R169) -/

/-- A unit of an IDLE or ACTIVE package is out of reset after its restart and has no image yet. -/
def ReloadDue (u : Nat) (s : State) : Prop :=
  ((s.pkg.st = .idle ∨ s.pkg.st = .active) ∧ s.sq.busy = false)
  ∧ (unitS s u).ustate = .resetting ∧ (unitS s u).awaitReady = false ∧ (unitS s u).go = false
  ∧ (if u < 8 then (unitS s u).inReset else (unitS s u).ctrlHeld) = false

/-- The kind of load that a unit's image takes: TILE_FW or PORT_FW. -/
noncomputable def reloadKind (u : Nat) : Nat := if u < 8 then 1 else 0
theorem reloadKind_ne (u : Nat) : reloadKind u ≠ 2 := by unfold reloadKind; split <;> decide
/-- The step of R381 or R501 that a refused reload fails. -/
noncomputable def reloadStep (u : Nat) : Nat := if u < 8 then 4 else 2
/-- A reload that is accepted: one more restart, GO with the entry offset, slot 9 and the trace (R169). -/
noncomputable def reloaded (u : Nat) (i : Img) (s : State) : State :=
  let t := loadGo (reloadKind u) u i (modUnit u (fun y => { y with restarts := y.restarts + 1 }) s)
  trace 13 u (reloadStep u) (unitS t u).gen.toNat (slot9 u 1 (unitS t u).restarts (imgE i) t)

section
variable {u : Nat} {x : LoadIn} {s : State} {i : Img}

theorem ReloadDue.guard (h : ReloadDue u s) : ¬ ((!(s.pkg.st.main && (unitS s u).ustate == .resetting && !(unitS s u).awaitReady && !(unitS s u).go
    && !(if u < 8 then (unitS s u).inReset else (unitS s u).ctrlHeld) && s.pkg.st != .bringup)) || s.sq.busy) = true := by
  obtain ⟨⟨hst, hb⟩, hu, ha, hg, hr⟩ := h
  rcases hst with hst | hst <;> rw [hst, hb, hu, ha, hg, hr] <;> decide

/-- A reload whose image the flash holds. -/
theorem unitReload_read (h : ReloadDue u s) (hr : readImg s s.boot.chosen (loadType (reloadKind u)) = some i) : unitReload u x s =
    if loadCode (reloadKind u) x s ≠ 0 || loadE (reloadKind u) (loaded (reloadKind u) x [u] i s) != some (imgE i)
      || (decide (u < 8) && (tileP (loaded (reloadKind u) x [u] i s) u).hlres != 31) then
      unitFail u (reloadStep u) (loadCode (reloadKind u) x s) (loaded (reloadKind u) x [u] i s)
    else reloaded u i (loaded (reloadKind u) x [u] i s) := by
  unfold reloadKind at hr
  refine (if_neg h.guard).trans ?_
  dsimp only
  rw [hr]; rfl
theorem unitReload_missing (h : ReloadDue u s) (hr : readImg s s.boot.chosen (loadType (reloadKind u)) = none) :
    unitReload u x s = unitFail u (reloadStep u) (loadCode (reloadKind u) x s) s := by
  unfold reloadKind at hr
  refine (if_neg h.guard).trans ?_
  dsimp only
  rw [hr]; rfl

/-- No body is written where the image cannot be read or its header is refused. -/
theorem unitReload_unread (h : ReloadDue u s) (hc : x.flashErr = true ∨ imgCheck8 s s.boot.chosen (loadType (reloadKind u)) ≠ 0) :
    unitReload u x s = unitFail u (reloadStep u) (loadCode (reloadKind u) x s) s := by
  cases hr : readImg s s.boot.chosen (loadType (reloadKind u)) with
  | none => exact unitReload_missing h hr
  | some i =>
    rw [unitReload_read h hr, loaded_unread hc]
    exact if_pos (by simp [loadCode_unread hc])

/-- A written image that is refused, or is not the recorded one, fails the unit (R169). -/
theorem unitReload_refused (h : ReloadDue u s) (hr : readImg s s.boot.chosen (loadType (reloadKind u)) = some i) (hf : x.flashErr = false)
    (hc : imgCheck8 s s.boot.chosen (loadType (reloadKind u)) = 0) (hd : loadCode (reloadKind u) x s ≠ 0 ∨ loadE (reloadKind u) s ≠ some (imgE i)) :
    unitReload u x s = unitFail u (reloadStep u) (loadCode (reloadKind u) x s) (loadWrite (reloadKind u) x [u] i s) := by
  rw [unitReload_read h hr, loaded_written hf hc, loadWrite_loadE]
  exact if_pos (by simpa [Bool.or_assoc, or_assoc] using hd.imp_right Or.inl)

/-- The recorded image, accepted again. -/
theorem unitReload_accepted (h : ReloadDue u s) (hg : LoadGood (reloadKind u) x i s) (he : loadE (reloadKind u) s = some (imgE i))
    (hl : u < 8 → (tileP s u).hlres = 31) : unitReload u x s = reloaded u i (loadWrite (reloadKind u) x [u] i s) := by
  obtain ⟨-, -, htiles, -⟩ := loadWrite_spec (k := reloadKind u) (x := x) (i := i) (s := s) [u]
  have ht : tileP (loadWrite (reloadKind u) x [u] i s) u = tileP s u := by unfold tileP; rw [htiles]
  rw [unitReload_read h hg.read, hg.loaded, loadWrite_loadE, hg.code, he, ht]
  exact if_neg (by simpa using hl)

/-- A trace record leaves what firmware's bookkeeping leaves. -/
theorem calm_trace {b : State} (p w y z : Nat) (h : Calm b s) : Calm b (trace p w y z s) := by
  obtain ⟨_, e⟩ := trace_frame p w y z s; rw [e]; exact h

/-- What an accepted reload leaves of the unit and of the package. -/
theorem reloaded_spec (hu : u < s.units.length) : (reloaded u i s).pkg = s.pkg
    ∧ unitS (reloaded u i s) u = { unitS s u with restarts := (unitS s u).restarts + 1, go := true, entry := i.entry, awaitReady := true } := by
  have hc : Calm (loadGo (reloadKind u) u i (modUnit u (fun y => { y with restarts := y.restarts + 1 }) s)) (reloaded u i s) :=
    calm_trace _ _ _ _ (calm_msExtend _ _ _ _ (Calm.refl _))
  obtain ⟨⟨hpkg, -, -, -, hunits⟩, -⟩ := hc
  refine ⟨hpkg, ?_⟩
  have hgo : loadGo (reloadKind u) u i (modUnit u (fun y => { y with restarts := y.restarts + 1 }) s) =
      modUnit u (withGo (reloadKind u) i.entry) (modUnit u (fun y => { y with restarts := y.restarts + 1 }) s) := rfl
  rw [hgo] at hunits
  calc unitS (reloaded u i s) u
      = unitS (modUnit u (withGo (reloadKind u) i.entry) (modUnit u (fun y => { y with restarts := y.restarts + 1 }) s)) u := congrArg (nth ({} : UnitS) · u) hunits
    _ = withGo (reloadKind u) i.entry { unitS s u with restarts := (unitS s u).restarts + 1 } := by
        rw [unitS_modUnit (by rw [modUnit_length]; exact hu), unitS_modUnit hu]
    _ = _ := if_neg (reloadKind_ne u)
end

/-! ## A load of BRINGUP (R166 to R168) -/

/-- BRINGUP stands at the load of an image type, and the sequencer is free. -/
def LoadDue (k : Nat) (s : State) : Prop := s.pkg.st = .bringup ∧ s.boot.bphase = loadPhase k ∧ s.sq.busy = false

section
variable {k : Nat} {x : LoadIn} {s : State} {i : Img}

theorem LoadDue.guard (h : LoadDue k s) : ¬ (!(s.pkg.st == .bringup && s.boot.bphase == loadPhase k) || s.sq.busy) = true := by
  obtain ⟨hst, hph, hb⟩ := h
  simp [hst, hph, hb]

/-- The units that a refused load names (R167). -/
noncomputable def refusedUnits (k : Nat) (x : LoadIn) (s : State) : List Nat :=
  match x.windowErr with | some u => if loadCode k x s = 11 then [u] else loadUnits k s | none => loadUnits k s
theorem refusedUnits_all (h : x.windowErr = none ∨ loadCode k x s ≠ 11) : refusedUnits k x s = loadUnits k s := by
  unfold refusedUnits
  split
  · rename_i u hu
    exact if_neg (h.resolve_left (by simp [hu]))
  · rfl

/-- A load whose image the flash holds. -/
theorem unitLoad_read (h : LoadDue k s) (hr : readImg s s.boot.chosen (loadType k) = some i) : unitLoad k x s =
    if loadCode k x s ≠ 0 then verifyFail (refusedUnits k x s) (loadType k) (loadCode k x s) (loaded k x (loadUnits k s) i s)
    else if (loadE k (loaded k x (loadUnits k s) i s)).isSome && loadE k (loaded k x (loadUnits k s) i s) != some (imgE i) then
      quarantine 4 ((loadUnits k s).foldl (fun s u => logEvent 0x0301 u (toLe 1 (loadType k) ++ toLe 1 0) s) (loaded k x (loadUnits k s) i s))
    else (loadUnits k s).foldl (fun s u => modUnit u (withGo k i.entry) s) (loadMeasure k (loadUnits k s) i (loaded k x (loadUnits k s) i s)) := by
  refine (if_neg h.guard).trans ?_
  dsimp only
  rw [hr]; rfl
theorem unitLoad_missing (h : LoadDue k s) (hr : readImg s s.boot.chosen (loadType k) = none) :
    unitLoad k x s = verifyFail (loadUnits k s) (loadType k) (loadCode k x s) s := by
  refine (if_neg h.guard).trans ?_
  dsimp only
  rw [hr]

/-- No body is written where the image cannot be read or its header is refused. -/
theorem unitLoad_unread (h : LoadDue k s) (hc : x.flashErr = true ∨ imgCheck8 s s.boot.chosen (loadType k) ≠ 0)
    (hw : x.windowErr = none ∨ loadCode k x s ≠ 11) : unitLoad k x s = verifyFail (loadUnits k s) (loadType k) (loadCode k x s) s := by
  cases hr : readImg s s.boot.chosen (loadType k) with
  | none => exact unitLoad_missing h hr
  | some i => rw [unitLoad_read h hr, if_pos (loadCode_unread hc), loaded_unread hc, refusedUnits_all hw]

/-- A load that is accepted: the image and its record, then GO (R166). -/
noncomputable def loadAccepted (k : Nat) (x : LoadIn) (i : Img) (s : State) : State :=
  (loadUnits k s).foldl (fun s u => modUnit u (withGo k i.entry) s) (loadMeasure k (loadUnits k s) i (loadWrite k x (loadUnits k s) i s))

/-- An accepted image that is the first of its type, or the recorded one. -/
theorem unitLoad_accepted (h : LoadDue k s) (hg : LoadGood k x i s) (he : loadE k s = none ∨ loadE k s = some (imgE i)) :
    unitLoad k x s = loadAccepted k x i s := by
  rw [unitLoad_read h hg.read, if_neg (not_not.2 hg.code), hg.loaded, loadWrite_loadE]
  exact if_neg (by rcases he with he | he <;> simp [he])

/-- An accepted image that differs from the recorded one (R168). -/
theorem unitLoad_differs {e : Bytes} (h : LoadDue k s) (hg : LoadGood k x i s) (he : loadE k s = some e) (hne : e ≠ imgE i) : unitLoad k x s =
    quarantine 4 ((loadUnits k s).foldl (fun s u => logEvent 0x0301 u (toLe 1 (loadType k) ++ toLe 1 0) s) (loadWrite k x (loadUnits k s) i s)) := by
  rw [unitLoad_read h hg.read, if_neg (not_not.2 hg.code), hg.loaded, loadWrite_loadE]
  exact if_pos (by simp [he, hne])

/-- What the record of an accepted image leaves (R159, R168): the phase, the SVN and e in the boot record, and no unit moved. -/
theorem loadMeasure_spec (hk : k < 3) (us : List Nat) : (loadMeasure k us i s).units = s.units ∧ (loadMeasure k us i s).boot.bphase = readyPhase k
    ∧ loadE k (loadMeasure k us i s) = some (imgE i)
    ∧ (loadMeasure k us i s).boot.runSvn = s.boot.runSvn.set ((svnCounter (loadType k)).getD 0) (field i.h 8 1) := by
  unfold loadMeasure
  extract_lets e b svn t
  have hc (z : State) (hz : Calm t z) : z.units = s.units ∧ z.boot.bphase = readyPhase k ∧ loadE k z = some (imgE i)
      ∧ z.boot.runSvn = s.boot.runSvn.set ((svnCounter (loadType k)).getD 0) (field i.h 8 1) := by
    obtain ⟨⟨-, hboot, -, -, hunits⟩, -⟩ := hz
    refine ⟨hunits, congrArg _ hboot, (loadE_of_boot hboot).trans ?_, congrArg _ hboot⟩
    rcases (show k = 0 ∨ k = 1 ∨ k = 2 by omega) with rfl | rfl | rfl <;> rfl
  refine hc _ (calm_ite (calm_msLock _ (calm_msExtend _ _ _ _ (Calm.refl t))) (calm_ite (Calm.refl t) ?_))
  exact calm_foldl (fun s u h => calm_msExtend _ _ _ _ h) us (Calm.refl t)

theorem loadUnits_bound {u : Nat} (h : u ∈ loadUnits k s) : u < 18 := by
  unfold loadUnits at h
  split at h
  · exact List.mem_range.1 (List.mem_of_mem_filter (List.mem_of_mem_filter h))
  · split at h
    · have := List.mem_range.1 h; omega
    · have := List.mem_range.1 (List.mem_of_mem_filter (List.mem_of_mem_filter h)); omega

theorem loadAccepted_boot (hk : k < 3) : (loadAccepted k x i s).boot.bphase = readyPhase k ∧ loadE k (loadAccepted k x i s) = some (imgE i)
    ∧ (loadAccepted k x i s).boot.runSvn = s.boot.runSvn.set ((svnCounter (loadType k)).getD 0) (field i.h 8 1) := by
  obtain ⟨-, hboot, -⟩ := loadWrite_spec (k := k) (x := x) (i := i) (s := s) (loadUnits k s)
  obtain ⟨-, hph, he, hsvn⟩ := loadMeasure_spec (i := i) (s := loadWrite k x (loadUnits k s) i s) hk (loadUnits k s)
  obtain ⟨_, hgo, -⟩ := foldl_modUnit_frame (withGo k i.entry) (loadUnits k s) (loadMeasure k (loadUnits k s) i (loadWrite k x (loadUnits k s) i s))
  unfold loadAccepted; rw [hgo]
  exact ⟨hph, he, hsvn.trans (by rw [hboot])⟩

/-- Every unit of the type has the image and GO. -/
theorem loadAccepted_unit (hk : k < 3) {u : Nat} (hu : u ∈ loadUnits k s) (hlen : s.units.length = 18) :
    unitS (loadAccepted k x i s) u = withGo k i.entry (withImage k i.body (unitS s u)) := by
  have hul : u < s.units.length := hlen ▸ loadUnits_bound hu
  obtain ⟨-, -, -, hwlen, hwrite⟩ := loadWrite_spec (k := k) (x := x) (i := i) (s := s) (loadUnits k s)
  obtain ⟨hunits, -⟩ := loadMeasure_spec (i := i) (s := loadWrite k x (loadUnits k s) i s) hk (loadUnits k s)
  have hm : unitS (loadMeasure k (loadUnits k s) i (loadWrite k x (loadUnits k s) i s)) u = unitS (loadWrite k x (loadUnits k s) i s) u :=
    congrArg (nth ({} : UnitS) · u) hunits
  unfold loadAccepted
  rw [unitS_foldl_modUnit (withGo_idem k i.entry) _ _ (by rw [hunits, hwlen]; exact hul), if_pos hu, hm, hwrite u hul, if_pos hu]

/-- What the failure of a verification in BRINGUP leaves (R167). -/
theorem verifyFail_spec (us : List Nat) (typ code : Nat) (h : s.pkg.st = .bringup) : (verifyFail us typ code s).pkg.st = .quarantine
    ∧ (verifyFail us typ code s).pkg.qcause = if 8 ∈ us then 0x0B else 4 := by
  obtain ⟨⟨hpkg, -⟩, -⟩ := calm_foldl (f := fun s u => logEvent 0x0301 u (toLe 1 typ ++ toLe 1 code) s) (fun _ u h => calm_logEvent _ u _ h) us (Calm.refl s)
  obtain ⟨hst, hq, -⟩ := quarantine_of_main (if decide (8 ∈ us) then 0x0B else 4) (by rw [hpkg, h]; rfl)
  exact ⟨hst, hq.trans (by simp)⟩
end

/-! ## READY's frame (R224, R225) -/

/-- READY of unit `u` with GEN and VERSION. -/
noncomputable def readyFrame (u gen v : Nat) : Bytes := unitFrame 0xFF01 0 gen (toLe 1 u ++ [0#8] ++ toLe 1 gen ++ [0#8] ++ toLe 4 v)

section
variable {u gen v : Nat}

theorem readyFrame_length : (readyFrame u gen v).length = 40 := by
  simp [readyFrame, unitFrame, Config.sha384]
theorem readyFrame_fits : (readyFrame u gen v).take 896 = readyFrame u gen v := List.take_of_length_le (by rw [readyFrame_length]; decide)
theorem readyFrame_op : field (readyFrame u gen v) 0 2 = 0xFF01 := by
  unfold readyFrame unitFrame
  simp only [List.append_assoc]
  rw [field_front (toLe_length 2 _), le_toLe]; rfl
theorem readyFrame_tag : field (readyFrame u gen v) 4 4 = 0 := by
  unfold readyFrame unitFrame
  rw [List.append_assoc, List.append_assoc, List.append_assoc, List.append_assoc, field_append (by simp), field_front (toLe_length 4 _), le_toLe]; rfl
theorem readyFrame_payload : (readyFrame u gen v).drop 32 = toLe 1 u ++ [0#8] ++ toLe 1 gen ++ [0#8] ++ toLe 4 v :=
  List.drop_left' (by simp [Config.sha384])
theorem readyFrame_gen (h : gen < 256) : field ((readyFrame u gen v).drop 32) 2 1 = gen := by
  rw [readyFrame_payload, List.append_assoc, List.append_assoc, field_append (by simp), field_front (toLe_length 1 _), le_toLe]
  omega
theorem readyFrame_version (h : v < 2 ^ 32) : field ((readyFrame u gen v).drop 32) 4 4 = v := by
  rw [readyFrame_payload, field_append (by simp), ← List.append_nil (toLe 4 v), field_front (toLe_length 4 _), le_toLe]
  omega
end

/-! ## What firmware does with READY

`ReadyKept u b s`: from `b` to `s` the sequencer, the core's registers, the boot record and what READY sets of unit `u` are as they were. -/

/-- What READY sets of its unit: the state, the READY owed, the heartbeat's age, the version and the response port. -/
noncomputable def readyView (y : UnitS) : UState × Bool × Nat × Nat × Bool × Nat := (y.ustate, y.awaitReady, y.hbAge, y.version, y.rspValid, y.rspLen)

def ReadyKept (u : Nat) (b s : State) : Prop := s.sq = b.sq ∧ s.wd = b.wd ∧ s.boot = b.boot ∧ readyView (unitS s u) = readyView (unitS b u)

/-- What an update of any unit leaves of every unit, where it leaves it of its own. -/
theorem unitS_modUnit_view {α : Type} {g : UnitS → α} {f : UnitS → UnitS} (hf : ∀ y, g (f y) = g y) (k u : Nat) (s : State) :
    g (unitS (modUnit k f s) u) = g (unitS s u) := by
  by_cases hk : k = u
  · subst hk
    by_cases hl : k < s.units.length
    · rw [unitS_modUnit hl, hf]
    · simp [unitS, modUnit, modNth, nth, hl]
  · rw [unitS_modUnit_ne hk]

section
variable {u : Nat} {b s : State}

theorem ReadyKept.refl (u : Nat) (s : State) : ReadyKept u s s := ⟨rfl, rfl, rfl, rfl⟩

theorem readyKept_modUnit {f : UnitS → UnitS} (hf : ∀ y, readyView (f y) = readyView y) (k : Nat) (h : ReadyKept u b s) : ReadyKept u b (modUnit k f s) := by
  obtain ⟨hsq, hwd, hboot, hu⟩ := h
  exact ⟨hsq, hwd, hboot, (unitS_modUnit_view hf k u s).trans hu⟩
theorem readyKept_foldl {α : Type} {f : State → α → State} (hf : ∀ s a, ReadyKept u b s → ReadyKept u b (f s a)) (l : List α) (h : ReadyKept u b s) :
    ReadyKept u b (l.foldl f s) := List.foldlRecOn (motive := ReadyKept u b) l f h fun s hs a _ => hf s a hs
theorem readyKept_trace (p w x y : Nat) (h : ReadyKept u b s) : ReadyKept u b (trace p w x y s) := by
  obtain ⟨_, e⟩ := trace_frame p w x y s; rw [e]; exact h
theorem readyKept_logEvent (c w : Nat) (d : Bytes) (h : ReadyKept u b s) : ReadyKept u b (logEvent c w d s) := by
  obtain ⟨_, _, _, e⟩ := logEvent_frame c w d s; rw [e]; exact h
/-- A command for a unit reaches its inbox and its queue of commands alone (R224). -/
theorem readyKept_unitCmd (k op : Nat) (p : Bytes) (h : ReadyKept u b s) : ReadyKept u b (unitCmd k op p s) := by
  unfold unitCmd; split
  · have hq : ReadyKept u b (modUnit k (fun x => { x with outQ := x.outQ ++ [(op, p)] }) s) := readyKept_modUnit (by intro; rfl) k h
    unfold unitPump; dsimp only
    split
    · exact hq
    · split
      · exact hq
      · exact readyKept_modUnit (by intro; rfl) k hq
  · exact h
theorem readyKept_restoreTile (t : Nat) (h : ReadyKept u b s) : ReadyKept u b (restoreTile t s) := by
  have ht := readyKept_trace 13 t 5 (unitS s t).gen.toNat h
  unfold restoreTile; dsimp only
  split
  · unfold tileEnterSend; split
    · exact readyKept_unitCmd _ _ _ (readyKept_trace _ _ _ _ ht)
    · exact ht
  · split
    · exact readyKept_foldl (fun _ _ h => readyKept_unitCmd _ _ _ h) _ ht
    · exact ht
theorem readyKept_restorePort (t : Nat) (h : ReadyKept u b s) : ReadyKept u b (restorePort t s) :=
  readyKept_unitCmd _ _ _ (readyKept_trace _ _ _ _ (readyKept_foldl (fun _ _ h => readyKept_unitCmd _ _ _ h) _ (readyKept_unitCmd _ _ _ h)))

/-- BRINGUP's phase stands while a unit that it loaded owes READY. -/
theorem bringupReady_waits {k w : Nat} (hk : k < 2) (hph : s.boot.bphase = readyPhase k) (hw : w ∈ loadUnits k s) (ha : (unitS s w).awaitReady = true) :
    bringupReady s = s := by
  have hall {l : List Nat} (hl : w ∈ l) : l.all (fun u => !(unitS s u).awaitReady && !(unitS s u).mcAwait) = false :=
    List.all_eq_false.2 ⟨w, hl, by simp [ha]⟩
  unfold bringupReady; rw [hph]
  rcases (show k = 0 ∨ k = 1 by omega) with rfl | rfl
  · exact if_neg (ne_true_of_eq_false (hall hw))
  · exact if_pos (congrArg not (hall hw))

/-- Unit `u` is UP with its READY taken. -/
noncomputable def readied (u v : Nat) (s : State) : State := setU u .up (modUnit u (fun y => { y with awaitReady := false, hbAge := 0, version := v }) s)
/-- The tile side of a unit that is UP again. -/
noncomputable def tileReadied (u : Nat) (s : State) : State :=
  if u < 8 then modTileJ u (fun t => { t with limit := 8, window := 1000, lock := true, restoring := s.pkg.st != .bringup }) s else s

theorem readied_frame (u v : Nat) (s : State) : ∃ i, readied u v s = { s with
    idn := i, units := modNth u (fun y => { y with ustate := .up }) (modNth u (fun y => { y with awaitReady := false, hbAge := 0, version := v }) s.units) } := by
  unfold readied setU; dsimp only; split <;> exact ⟨_, rfl⟩
theorem readied_unit (v : Nat) (h : u < s.units.length) : unitS (readied u v s) u = { unitS s u with awaitReady := false, hbAge := 0, version := v, ustate := .up } := by
  obtain ⟨i, e⟩ := readied_frame u v s
  rw [e]; unfold unitS modNth; simp [nth, h]
theorem readied_other (v : Nat) {w : Nat} (h : w ≠ u) : unitS (readied u v s) w = unitS s w := by
  obtain ⟨i, e⟩ := readied_frame u v s
  rw [e]; unfold unitS; rw [nth_modNth_ne _ _ _ h.symm, nth_modNth_ne _ _ _ h.symm]

/-- READY with the unit's GEN (R225). -/
theorem unitReady_taken {gen v : Nat} (hu : unitUp s u = true) (ha : (unitS s u).awaitReady = true) (hm : (unitS s u).mcAwait = false)
    (hg : gen = (unitS s u).gen.toNat) :
    unitReady u gen v s = if s.pkg.st == .bringup then bringupReady (tileReadied u (readied u v s))
      else logEvent 0x0303 u (toLe 1 gen ++ toLe 4 (unitS s u).restarts)
        (if u < 8 then tileReadied u (readied u v s) else trace 13 u 4 gen (tileReadied u (readied u v s))) := by
  subst hg
  have hst : (tileReadied u (readied u v s)).pkg.st = s.pkg.st := by
    obtain ⟨i, e⟩ := readied_frame u v s
    unfold tileReadied; rw [e]; split <;> rfl
  refine (if_neg (by simp [hu, ha])).trans <| (if_neg (not_not.2 rfl)).trans <| (if_neg (ne_true_of_eq_false hm)).trans ?_
  rw [← hst]; rfl

/-- Outside BRINGUP a unit that is UP by its READY is set up again (R381, R501). -/
theorem readyHandle_restarted {gen v : Nat} (hst : s.pkg.st ≠ .bringup) (ha : (unitS s u).awaitReady = true)
    (hup : (unitS (unitReady u gen v s) u).ustate = .up) :
    readyHandle u gen v s = if u < 8 then restoreTile u (unitReady u gen v s) else restorePort u (unitReady u gen v s) :=
  if_neg (by simp [hst, ha, hup])
theorem readyHandle_bringup {gen v : Nat} (hst : s.pkg.st = .bringup) : readyHandle u gen v s = unitReady u gen v s := if_pos (by simp [hst])

/-- Firmware tells READY of a unit that owes one from every other frame (R224). -/
theorem imbHandle_ready {gen v : Nat} (hf : fwWfw s = true) (ha : (unitS s u).awaitReady = true) (hg : gen = (unitS s u).gen.toNat) (hv : v < 2 ^ 32) :
    imbHandle u gen (readyFrame u gen v) s = readyHandle u gen v s := by
  have hlt : gen < 256 := by have := (unitS s u).gen.isLt; omega
  unfold imbHandle; rw [if_neg (by simp [hf])]; dsimp only
  rw [readyFrame_op, readyFrame_tag, if_pos (by simp [ha]), if_pos hg, readyFrame_gen hlt, readyFrame_version hv]

/-! ## READY at a free response port -/

/-- A unit whose response buffer holds `f`. -/
noncomputable def withRsp (f : Bytes) (y : UnitS) : UnitS := { y with rspValid := true, rspLen := f.length, rspBuf := f }
/-- READY is in the response buffer, and firmware is told where the unit's interrupt is enabled. -/
noncomputable def readyPosted (u gen v : Nat) (s : State) : State :=
  if (unitS s u).irqEn then irq 3 (modUnit u (withRsp (readyFrame u gen v)) s) else modUnit u (withRsp (readyFrame u gen v)) s
/-- READY is posted and taken. -/
noncomputable def readyTaken (u gen v : Nat) (s : State) : State := tileReadied u (readied u v (readyPosted u gen v s))

section
variable {gen v : Nat}

theorem readyPosted_frame (u gen v : Nat) (s : State) :
    ∃ o, readyPosted u gen v s = { s with units := modNth u (withRsp (readyFrame u gen v)) s.units, outs := o } := by
  unfold readyPosted; split <;> exact ⟨_, rfl⟩
theorem readyTaken_frame (u gen v : Nat) (s : State) : ∃ i x o j, readyTaken u gen v s = { s with idn := i, units := x, outs := o, jb := j } := by
  obtain ⟨_, e⟩ := readyPosted_frame u gen v s
  obtain ⟨_, e'⟩ := readied_frame u v (readyPosted u gen v s)
  unfold readyTaken tileReadied; rw [e', e]
  split <;> exact ⟨_, _, _, _, rfl⟩

theorem readyPosted_pkg (u gen v : Nat) (s : State) : (readyPosted u gen v s).pkg = s.pkg := by
  obtain ⟨_, e⟩ := readyPosted_frame u gen v s; rw [e]
theorem readyPosted_unit (h : u < s.units.length) : unitS (readyPosted u gen v s) u = withRsp (readyFrame u gen v) (unitS s u) := by
  obtain ⟨_, e⟩ := readyPosted_frame u gen v s
  rw [e]; exact unitS_modUnit h
theorem readyPosted_other {w : Nat} (h : w ≠ u) : unitS (readyPosted u gen v s) w = unitS s w := by
  obtain ⟨_, e⟩ := readyPosted_frame u gen v s
  rw [e]; exact unitS_modUnit_ne h.symm
theorem tileReadied_units (u : Nat) (s : State) : (tileReadied u s).units = s.units := by unfold tileReadied; split <;> rfl

theorem readyTaken_unit (h : u < s.units.length) : unitS (readyTaken u gen v s) u =
    { withRsp (readyFrame u gen v) (unitS s u) with awaitReady := false, hbAge := 0, version := v, ustate := .up } := by
  have hlen : u < (readyPosted u gen v s).units.length := by
    obtain ⟨_, e⟩ := readyPosted_frame u gen v s
    rw [e]; exact lt_of_lt_of_eq h (modNth_length ..).symm
  calc unitS (readyTaken u gen v s) u
      = unitS (readied u v (readyPosted u gen v s)) u := congrArg (nth ({} : UnitS) · u) (tileReadied_units _ _)
    _ = _ := by rw [readied_unit v hlen, readyPosted_unit h]
theorem readyTaken_other {w : Nat} (h : w ≠ u) : unitS (readyTaken u gen v s) w = unitS s w :=
  calc unitS (readyTaken u gen v s) w
      = unitS (readied u v (readyPosted u gen v s)) w := congrArg (nth ({} : UnitS) · w) (tileReadied_units _ _)
    _ = _ := by rw [readied_other v h, readyPosted_other h]

section
variable (hu : unitUp s u = true) (hl : u < s.units.length)
include hu hl

theorem readyPosted_up : unitUp (readyPosted u gen v s) u = true := by
  have hr : (unitS (readyPosted u gen v s) u).inReset = (unitS s u).inReset := by rw [readyPosted_unit hl]; rfl
  rw [← hu]; unfold unitUp; rw [hr]
  obtain ⟨_, e⟩ := readyPosted_frame u gen v s
  rw [e]; rfl

variable (ha : (unitS s u).awaitReady = true) (hg : gen = (unitS s u).gen.toNat)
include ha hg

theorem imbPost_ready (hf : fwWfw s = true) (hv : (unitS s u).rspValid = false) (hver : v < 2 ^ 32) :
    imbPost u gen (readyFrame u gen v) s = readyHandle u gen v (readyPosted u gen v s) := by
  have hunit := readyPosted_unit (gen := gen) (v := v) hl
  have hfw : fwWfw (readyPosted u gen v s) = true := by
    obtain ⟨_, e⟩ := readyPosted_frame u gen v s
    rw [e]; exact hf
  have haw : (unitS (readyPosted u gen v s) u).awaitReady = true := by rw [hunit]; exact ha
  have hgen : gen = (unitS (readyPosted u gen v s) u).gen.toNat := by rw [hunit]; exact hg
  refine (if_neg (by simp [hu])).trans <| (if_neg (ne_true_of_eq_false hv)).trans ?_
  rw [readyFrame_fits]
  exact imbHandle_ready hfw haw hgen hver

theorem unitReady_posted (hm : (unitS s u).mcAwait = false) : unitReady u gen v (readyPosted u gen v s) =
    if s.pkg.st == .bringup then bringupReady (readyTaken u gen v s)
    else logEvent 0x0303 u (toLe 1 gen ++ toLe 4 (unitS s u).restarts)
      (if u < 8 then readyTaken u gen v s else trace 13 u 4 gen (readyTaken u gen v s)) := by
  have hunit := readyPosted_unit (gen := gen) (v := v) hl
  rw [unitReady_taken (readyPosted_up hu hl) (by rw [hunit]; exact ha) (by rw [hunit]; exact hm) (by rw [hunit]; exact hg), readyPosted_pkg, hunit]; rfl

/-- A restarted unit's READY (R225, R381, R501). -/
theorem readyHandle_posted_restarted (hm : (unitS s u).mcAwait = false) (hst : s.pkg.st ≠ .bringup) :
    ReadyKept u (readyTaken u gen v s) (readyHandle u gen v (readyPosted u gen v s)) := by
  have hunit := readyPosted_unit (gen := gen) (v := v) hl
  have hk : ReadyKept u (readyTaken u gen v s) (unitReady u gen v (readyPosted u gen v s)) := by
    rw [unitReady_posted hu hl ha hg hm, if_neg (by simpa using hst)]
    refine readyKept_logEvent _ _ _ ?_
    split
    · exact ReadyKept.refl ..
    · exact readyKept_trace _ _ _ _ (ReadyKept.refl ..)
  have hup : (unitS (unitReady u gen v (readyPosted u gen v s)) u).ustate = .up := by
    obtain ⟨-, -, -, hview⟩ := hk
    exact (congrArg Prod.fst hview).trans (by rw [readyTaken_unit hl]; rfl)
  rw [readyHandle_restarted (by rw [readyPosted_pkg]; exact hst) (by rw [hunit]; exact ha) hup]
  split
  · exact readyKept_restoreTile u hk
  · exact readyKept_restorePort u hk

/-- READY in BRINGUP while another unit of the phase owes its own (R167). -/
theorem readyHandle_posted_bringup (hm : (unitS s u).mcAwait = false) (hst : s.pkg.st = .bringup) {k w : Nat} (hk : k < 2)
    (hph : s.boot.bphase = readyPhase k) (hw : w ∈ loadUnits k s) (hne : w ≠ u) (hwa : (unitS s w).awaitReady = true) :
    readyHandle u gen v (readyPosted u gen v s) = readyTaken u gen v s := by
  have hsame : (readyTaken u gen v s).boot = s.boot ∧ loadUnits k (readyTaken u gen v s) = loadUnits k s := by
    obtain ⟨_, _, _, _, e⟩ := readyTaken_frame u gen v s
    rw [e]; exact ⟨rfl, rfl⟩
  obtain ⟨hboot, hus⟩ := hsame
  rw [readyHandle_bringup (by rw [readyPosted_pkg]; exact hst), unitReady_posted hu hl ha hg hm, if_pos (by simp [hst])]
  exact bringupReady_waits hk (by rw [hboot]; exact hph) (by rw [hus]; exact hw) (by rw [readyTaken_other hne]; exact hwa)
end

/-- What stands once READY has been taken. -/
theorem ReadyKept.taken {t : State} (hl : u < s.units.length) (h : ReadyKept u (readyTaken u gen v s) t) :
    ((unitS t u).ustate = .up ∧ (unitS t u).awaitReady = false ∧ (unitS t u).hbAge = 0 ∧ (unitS t u).version = v
      ∧ (unitS t u).rspValid = true ∧ (unitS t u).rspLen = 40) ∧ t.sq = s.sq ∧ t.wd = s.wd ∧ t.boot = s.boot := by
  obtain ⟨hsq, hwd, hboot, hview⟩ := h
  obtain ⟨_, _, _, _, e⟩ := readyTaken_frame u gen v s
  refine ⟨?_, hsq.trans (by rw [e]), hwd.trans (by rw [e]), hboot.trans (by rw [e])⟩
  rw [readyTaken_unit hl] at hview
  simpa [readyView, withRsp, readyFrame_length] using hview

/-- Nothing follows a READY that leaves the sequencer free. -/
theorem exec_unitReady {t : State} (hfree : SqFree s) (hl : u < s.units.length) (hp : imbPost u gen (readyFrame u gen v) s = t)
    (hk : ReadyKept u (readyTaken u gen v s) t) : exec (.unitReady u gen v) s = .next t := by
  obtain ⟨-, hsq, hwd, -⟩ := hk.taken hl
  exact congrArg Host.Outcome.next (sqEvent_free hfree.idle hp (hfree.of_eq hsq hwd))
end
end

/-- Settles O15: a load by `unitLoad_unread`, `unitLoad_accepted` and `unitLoad_differs`, READY by what `ReadyKept` carries past the restore,
and a reload by the cases of `unitReload`. -/
theorem unitImageLoadAndReady : Obligations.UnitImageLoadAndReady := by
  unfold Obligations.UnitImageLoadAndReady
  refine ⟨?load, ?ready, ?held, ?timeout, ?reload⟩
  case load =>
    intro k x s hk hst hph hb hlen
    have hd : LoadDue k s := ⟨hst, hph, hb⟩
    refine ⟨fun hf => ?_, fun hf hw hc => ?_, fun i hf hdf hw hdb hc hr hi => ?_⟩
    · have hcode := loadCode_flashErr (k := k) (s := s) hf
      refine congrArg Host.Outcome.next ((unitLoad_unread hd (.inl hf) (.inr ?_)).trans ?_) <;> rw [hcode]
      decide
    · exact congrArg Host.Outcome.next ((unitLoad_unread hd (.inr hc) (.inl hw)).trans (by rw [loadCode_check hf hc]))
    have hg : LoadGood k x i s := ⟨⟨hf, hdf, hw, hdb⟩, hc, hr, hi⟩
    refine ⟨fun he => ?accepted, fun e he hne => ?differs⟩
    case accepted =>
      obtain ⟨hbph, hle, hsvn⟩ := loadAccepted_boot (x := x) (i := i) (s := s) hk
      refine ⟨_, congrArg Host.Outcome.next (unitLoad_accepted hd hg he), hbph, hle, hsvn, fun u hu => ?_⟩
      rw [loadAccepted_unit hk hu hlen]
      by_cases hk2 : k = 2 <;> simp [hk2, withGo, withImage, Img.entry]
    case differs =>
      obtain ⟨hpkg, -⟩ := loadWrite_spec (k := k) (x := x) (i := i) (s := s) (loadUnits k s)
      have hlog := calm_foldl (f := fun s u => logEvent 0x0301 u (toLe 1 (loadType k) ++ toLe 1 0) s) (fun _ u h => calm_logEvent _ u _ h) (loadUnits k s)
        (Calm.refl (loadWrite k x (loadUnits k s) i s))
      obtain ⟨⟨hlpkg, -⟩, -⟩ := hlog
      obtain ⟨hq, hqc, -⟩ := quarantine_of_main 4 (by rw [hlpkg, hpkg, hst]; rfl)
      exact ⟨_, congrArg Host.Outcome.next (unitLoad_differs hd hg he hne), hq, hqc⟩
  case ready =>
    intro u gen v s hf hu hv ha hm hg hver hu18 hlen hfree
    have hl : u < s.units.length := hlen ▸ hu18
    have hpost := imbPost_ready hu hl ha hg hf hv hver
    refine ⟨fun hst => ?_, fun hst ⟨k, w, hk, hph, hw, hne, hwa⟩ => ?_⟩
    · have hk := readyHandle_posted_restarted (v := v) hu hl ha hg hm (by rw [hst]; decide)
      exact ⟨_, exec_unitReady hfree hl hpost hk, (hk.taken hl).1⟩
    · have ht := readyHandle_posted_bringup (v := v) hu hl ha hg hm hst hk hph hw hne hwa
      have hkept := ReadyKept.refl u (readyTaken u gen v s)
      obtain ⟨⟨h1, h2, h3, h4, h5, h6⟩, -, -, hboot⟩ := hkept.taken hl
      exact ⟨_, exec_unitReady hfree hl (hpost.trans ht) hkept, h1, h2, h3, h4, h5, h6, congrArg _ hboot⟩
  case held =>
    intro u v s _ hu hv hfree gen
    refine congrArg Host.Outcome.next (sqEvent_free hfree.idle ?_ hfree)
    exact (imbPost_held (f := readyFrame u gen v) hu hv).trans (by rw [readyFrame_fits]; rfl)
  case timeout =>
    intro u s hw
    have hput : ¬ (!((unitS s u).awaitReady || (unitS s u).mcAwait)) = true := by rcases hw with h | h <;> simp [h]
    refine ⟨fun hst => ?_, fun hst => congrArg Host.Outcome.next ((if_neg hput).trans (if_neg (by simpa using hst)))⟩
    have he : exec (.unitReadyTimeout u) s = .next (verifyFail [u] (awaitedType u s) 0 s) :=
      congrArg Host.Outcome.next ((if_neg hput).trans (if_pos (by simpa using hst)))
    obtain ⟨hq, hqc⟩ := verifyFail_spec [u] (awaitedType u s) 0 hst
    exact ⟨he, _, he, hq, hqc.trans (by simp [eq_comm])⟩
  case reload =>
    intro u x s hu18 hlen hst hb hus ha hgo hr k
    have hd : ReloadDue u s := ⟨⟨.inr hst, hb⟩, hus, ha, hgo, hr⟩
    refine ⟨fun hf => ?_, fun i hf hdf hw hdb hc hri hi he hl => ?_⟩
    · exact congrArg Host.Outcome.next ((unitReload_unread hd (.inl hf)).trans (by rw [loadCode_flashErr hf]; rfl))
    have hg : LoadGood (reloadKind u) x i s := ⟨⟨hf, hdf, hw, hdb⟩, hc, hri, hi⟩
    have hul : u < s.units.length := hlen ▸ hu18
    obtain ⟨hpkg, -, -, hulen, hunit⟩ := loadWrite_spec (k := reloadKind u) (x := x) (i := i) (s := s) [u]
    obtain ⟨hrpkg, hru⟩ := reloaded_spec (i := i) (s := loadWrite (reloadKind u) x [u] i s) (by rw [hulen]; exact hul)
    rw [hunit u hul, if_pos (List.mem_singleton.2 rfl), withImage, if_neg (reloadKind_ne u)] at hru
    exact ⟨_, congrArg Host.Outcome.next (unitReload_accepted hd hg he hl), congrArg UnitS.image hru, congrArg UnitS.go hru, congrArg UnitS.awaitReady hru,
      congrArg UnitS.entry hru, congrArg UnitS.restarts hru, hrpkg.trans hpkg⟩

/-! ## The health check of an image not yet confirmed (R189, R191) -/

section
variable {s : State}

theorem trialReady_awaits (h : s.upd.awaitCommit = false) : trialReady s = false := by simp [trialReady, h]
theorem trialCheck_early (ok : Bool) (h : trialReady s = false) : trialCheck ok s = s := if_pos (by simp [h])

section
variable (hr : trialReady s = true) (hn : (s.pq.wait ++ s.pq.run.toList).any (fun e => e.purp == .health false || e.purp == .health true) = false)
include hr hn
theorem trialCheck_due (ok : Bool) : trialCheck ok s =
    if !(ok && (coreUnits s).all (fun u => unitUp s u && decide ((unitS s u).hbAge ≤ (unitS s u).hbLim)) && s.ks.drbgOk) then trialFail s
    else pqAdd 1 (.health false) (signJobs s katMsg) s := if_neg (by rw [hr, hn]; decide)
theorem trialCheck_fails {ok : Bool} (h : ok = false ∨ s.ks.drbgOk = false) : trialCheck ok s = trialFail s := by
  rw [trialCheck_due hr hn]
  exact if_pos (by rcases h with h | h <;> simp [h])
theorem trialCheck_signs (hu : ∀ u ∈ coreUnits s, unitUp s u = true ∧ (unitS s u).hbAge ≤ (unitS s u).hbLim) (hd : s.ks.drbgOk = true) :
    trialCheck true s = pqAdd 1 (.health false) (signJobs s katMsg) s := by
  have hbeats : (coreUnits s).all (fun u => unitUp s u && decide ((unitS s u).hbAge ≤ (unitS s u).hbLim)) = true :=
    List.all_eq_true.2 fun u h => by simpa using hu u h
  rw [trialCheck_due hr hn, hbeats, hd]; rfl
end

/-- The verifies of the known-answer entry have ended: their verdict is the trial's. -/
theorem healthDone_verified (hr : trialReady s = true) (ec ml : Bytes) (ok : Bool) :
    healthDone true 0 ec ml ok s = if ok then trialPass s else trialFail s := if_neg (by simp [hr])
theorem trialPass_ready (hr : trialReady s = true) : trialPass s = flashSync (.selector s.boot.chosen (if s.upd.status = 5 then 1 else 2) false) s := if_pos hr
end

/-- Settles O30: a reload by the cases of `unitReload`, the health check by those of `trialCheck`, its end by the verdict. -/
theorem restartReloadAndHealthCheck : Obligations.RestartReloadAndHealthCheck := by
  unfold Obligations.RestartReloadAndHealthCheck
  refine ⟨?reload, ?check, ?verdict, ?early⟩
  case reload =>
    intro u x s i _ hst hb hus ha hgo hr k hri
    have hd : ReloadDue u s := ⟨⟨hst, hb⟩, hus, ha, hgo, hr⟩
    exact ⟨fun hf hc hbad => congrArg Host.Outcome.next (unitReload_refused hd hri hf hc hbad),
      fun hc => congrArg Host.Outcome.next (unitReload_unread hd hc)⟩
  case check =>
    exact fun s hr hn => ⟨fun hu hd => congrArg Host.Outcome.next (trialCheck_signs hr hn hu hd),
      congrArg Host.Outcome.next (trialCheck_fails hr hn (.inl rfl)),
      fun ok hd => congrArg Host.Outcome.next (trialCheck_fails hr hn (.inr hd))⟩
  case verdict =>
    exact fun s hr => ⟨fun ec ml => (healthDone_verified hr ec ml true).trans (trialPass_ready hr), fun ec ml => healthDone_verified hr ec ml false⟩
  case early => exact fun ok s h => congrArg Host.Outcome.next (trialCheck_early ok (trialReady_awaits h))

end Sys2Proof.Machine
end

section
/-! # Firmware update

The statements on the update commands and the flash work they wait for (R183 to R187, R192, R193), and on PLDM firmware
update, which runs the same work from the management path (R196, Table 8-6). -/
open Sys2Proof
namespace Sys2Proof.Machine

/-! ## The checks the update commands make

The first check that fails answers; the same checks stand before a PLDM request's work. -/

section
variable {s : State}

/-- Outside QUARANTINE every target is admitted, and in it the recovery region (R193). -/
theorem updTargetOk_admits {t : Nat} (h : s.pkg.st ≠ .quarantine ∨ t = 2) : updTargetOk t s = true := by
  rcases h with h | h <;> simp [updTargetOk, h]

/-- UPD_BEGIN of no target, of the boot slot, or of a length the region does not hold (R177, R184). -/
theorem updBeginCheck_malformed {t n : Nat} (h : 2 < t ∨ t = s.boot.chosen ∨ n = 0 ∨ regionSize t < n) : updBeginCheck t n s = some stMalformed :=
  if_pos (by simpa [or_assoc] using h)

/-- UPD_BEGIN of a target and length that fit: what the update status and the flash say (R184, R189). -/
theorem updBeginCheck_fits {t n : Nat} (h2 : t ≤ 2) (hc : t ≠ s.boot.chosen) (h0 : n ≠ 0) (hn : n ≤ regionSize t)
    (ho : s.pkg.st ≠ .quarantine ∨ t = 2) : updBeginCheck t n s =
      if !(s.upd.status = 0 || s.upd.status = 2 || s.upd.status = 3) then some stBadState else if rosterBusy s then some stBusy else none :=
  (if_neg (by simp [Nat.not_lt.2 h2, hc, h0, Nat.not_lt.2 hn])).trans (if_neg (by simp [updTargetOk_admits ho]))

/-- UPD_DATA outside a transfer (R184). -/
theorem updDataCheck_noTransfer (h : s.upd.status ≠ 1) (off : Nat) (d : Bytes) : updDataCheck off d s = some stBadState := if_pos (by simp [h])

/-- UPD_DATA past the end of the download (R184). -/
theorem updDataCheck_outside {off : Nat} {d : Bytes} (h1 : s.upd.status = 1) (hq : s.pkg.st ≠ .quarantine) (h : s.upd.length < off + d.length) :
    updDataCheck off d s = some stMalformed :=
  (if_neg (by simp [h1, updTargetOk_admits (.inl hq)])).trans (if_pos h)

/-- UPD_DATA within the download, nothing of which is programmed yet (R184). -/
theorem updDataCheck_fresh {off : Nat} {d : Bytes} (h1 : s.upd.status = 1) (hq : s.pkg.st ≠ .quarantine) (h : off + d.length ≤ s.upd.length)
    (hp : s.upd.prog = []) (hb : rosterBusy s = false) : updDataCheck off d s = none := by
  have hnew : ∀ o, isProg s o = false := fun o => by simp [isProg, hp]
  refine (if_neg (by simp [h1, updTargetOk_admits (.inl hq)])).trans ((if_neg (Nat.not_lt.2 h)).trans ?_)
  simp [hnew, hb]

/-- UPD_ACTIVATE without a verified slot (R187). -/
theorem updActivateCheck_unverified (h : s.upd.status ≠ 3 ∨ 2 ≤ s.upd.target) : updActivateCheck s = some stBadState :=
  if_pos (by rcases h with h | h <;> simp [h])

/-- UPD_ACTIVATE of a verified slot in IDLE or RECOVERY with the flash free (R187). -/
theorem updActivateCheck_verified (h3 : s.upd.status = 3) (ht : s.upd.target < 2) (hs : s.pkg.st = .idle ∨ s.pkg.st = .recovery)
    (hb : rosterBusy s = false) : updActivateCheck s = none :=
  (if_neg (by rcases hs with hs | hs <;> simp [h3, Nat.not_le.2 ht, hs])).trans (if_neg (by simp [hb]))

/-- UPD_CANCEL of a trial or a fallback (R192). -/
theorem updCancelCheck_trial (h : 5 ≤ s.upd.status) : updCancelCheck s = some stBadState := if_pos (by simp [h])

/-- UPD_CANCEL of a download, staged or verified, with the flash free (R192). -/
theorem updCancelCheck_download (h : s.upd.status < 4) (hq : s.pkg.st ≠ .quarantine) (hb : rosterBusy s = false) : updCancelCheck s = none :=
  (if_neg (by simp [Nat.not_le.2 (Nat.lt_succ_of_lt h), Nat.ne_of_lt h, updTargetOk_admits (.inl hq)])).trans (if_neg (by simp [hb]))

end

/-- An admitted command whose body goes on answers later. -/
theorem runCmd_waits {op : Nat} {f : HostCall → State → CmdRes} {c : HostCall} {s t : State} (h : Admitted op c s) (e : f c s = cmdWait t) :
    Host.Outcome.next (runCmd op f c s) = (.next t : Res) := runCmd_wait h e

/-! ## The bodies of the commands

A well-formed request, no PLDM update in the way: refused by its checks, or its flash work begins. -/

section
variable {c : HostCall} {s : State} {st : Nat}

theorem updBeginBody_eq (hl : c.payload.length = 8) (hz : allZero (slice c.payload 1 3) = true) (hp : s.upd.pldm = false) :
    updBeginBody c s = (updBeginCheck (field c.payload 0 1) (field c.payload 4 4) s).elim
      (cmdWait (flashSync (.updBegin (some c) (stateWord s) (field c.payload 0 1) (field c.payload 4 4)) s)) (fun st => cmdFail s st 0) := by
  refine (sized_eq hl s).trans ((if_neg (by simp [hz])).trans ((if_neg (by simp [hp])).trans ?_))
  cases updBeginCheck (field c.payload 0 1) (field c.payload 4 4) s <;> rfl

theorem updDataBody_eq (h9 : 9 ≤ c.payload.length) (hl : c.payload.length ≤ 4064) (hz : allZero (slice c.payload 4 4) = true) (hp : s.upd.pldm = false) :
    updDataBody c s = (updDataCheck (field c.payload 0 4) (c.payload.drop 8) s).elim
      (cmdWait (flashSync (.updData (some c) (stateWord s) (field c.payload 0 4) (c.payload.drop 8)) s)) (fun st => cmdFail s st 0) := by
  refine (if_neg (by simp [Nat.not_lt.2 h9, Nat.not_lt.2 hl, hz])).trans ((if_neg (by simp [hp])).trans ?_)
  cases updDataCheck (field c.payload 0 4) (c.payload.drop 8) s <;> rfl

theorem updActivateBody_eq (hl : c.payload.length = 4) (hz : allZero (slice c.payload 1 3) = true) (h1 : field c.payload 0 1 ≤ 1) (hp : s.upd.pldm = false) :
    updActivateBody c s = (updActivateCheck s).elim
      (cmdWait (flashSync (.updActivate (some c) (stateWord s) (field c.payload 0 1 == 1)) s)) (fun st => cmdFail s st 0) := by
  refine (sized_eq hl s).trans ((if_neg (by simp [hz, Nat.not_lt.2 h1])).trans ((if_neg (by simp [hp])).trans ?_))
  cases updActivateCheck s <;> rfl

theorem updCancelBody_eq (hl : c.payload = []) (hp : s.upd.pldm = false) (h0 : s.upd.status ≠ 0) :
    updCancelBody c s = (updCancelCheck s).elim (cmdWait (flashSync (.updCancel (some c) (stateWord s)) s)) (fun st => cmdFail s st 0) := by
  refine (sized_eq (by rw [hl]; rfl) s).trans ((if_neg (by simp [hp])).trans ((if_neg h0).trans ?_))
  cases updCancelCheck s <;> rfl

theorem updEndBody_eq (hl : c.payload = []) (hp : s.upd.pldm = false) : updEndBody c s =
    if s.upd.status = 2 || s.upd.status = 3 then cmdOk s (toLe 1 s.upd.status ++ toLe 3 0)
    else if s.upd.status ≠ 1 || !updTargetOk s.upd.target s || programmed s ≠ s.upd.length then cmdFail s stBadState 0
    else if rosterBusy s then cmdFail s stBusy 0
    else cmdWait (flashSync (.updEnd (some c) (stateWord s)) s) :=
  (sized_eq (by rw [hl]; rfl) s).trans (if_neg (by simp [hp]))

theorem updVerifyBody_eq (hl : c.payload = []) (hp : s.upd.pldm = false) : updVerifyBody c s =
    if !(s.upd.status = 2 || s.upd.status = 3) || !updTargetOk s.upd.target s then cmdFail s stBadState 0
    else cmdWait (updVerifyBegin c (stateWord s) s) :=
  (sized_eq (by rw [hl]; rfl) s).trans (if_neg (by simp [hp]))

end

/-! ## What a verify and the flash work end with -/

theorem setUpd_same {n : Nat} {s : State} (h : s.upd.status = n) : setUpd n s = s := if_pos h

/-- A change of the update status is told to the host and to PLDM, which leaves the status (R183, R525). -/
@[simp] theorem setUpd_status (n : Nat) (s : State) : (setUpd n s).upd.status = n := by
  unfold setUpd; split
  · assumption
  · obtain ⟨_, _, er⟩ := raiseHost_frame 0 3 12 (pldmEvent 2 (n + 1) { bindsMove s with upd := { s.upd with status := n } })
    obtain ⟨_, _, ep⟩ := pldmEvent_frame 2 (n + 1) { bindsMove s with upd := { s.upd with status := n } }
    rw [er, ep]

/-- A verify on the mailbox ends with its answer (R185). -/
theorem updVerifyEnd_answers {c : HostCall} (hc : c.ch ≠ pldmCh) (w st d typ code : Nat) (s : State) :
    updVerifyEnd c w st d typ code s =
      answer c 0x804 w st d (toLe 1 s.upd.status ++ toLe 1 typ ++ toLe 1 code ++ toLe 1 0) { s with upd := { s.upd with rtype := typ, rcode := code } } :=
  if_neg hc

/-- A STAGED bundle that is refused stays STAGED (R185). -/
theorem updVerifyEnd_refused {c : HostCall} {s : State} (hc : c.ch ≠ pldmCh) (h2 : s.upd.status = 2) (w st d typ code : Nat) :
    updVerifyEnd c w st d typ code (setUpd 2 s) =
      answer c 0x804 w st d (toLe 1 2 ++ toLe 1 typ ++ toLe 1 code ++ toLe 1 0) { s with upd := { s.upd with rtype := typ, rcode := code } } := by
  rw [setUpd_same h2, updVerifyEnd_answers hc, h2]

theorem updVerifyBegin_extra {t : Nat} {s : State} (h : bundleExtra s.upd.target s = some t) (c : HostCall) (w : Nat) :
    updVerifyBegin c w s = updVerifyEnd c w stVerifyFail 0 t 2 (setUpd 2 s) := by
  unfold updVerifyBegin; rw [h]

theorem updVerifyNext_refused {k : Nat} {s : State} (h1 : 1 ≤ imgCheck8 s s.upd.target k) (h6 : imgCheck8 s s.upd.target k ≤ 6)
    (c : HostCall) (w : Nat) (r : List Nat) :
    updVerifyNext c w (k :: r) s = updVerifyEnd c w stVerifyFail 0 k (imgCheck8 s s.upd.target k) (setUpd 2 s) :=
  if_pos (by simp [h1, h6])

/-- The first range of a download is its whole programmed part (R184). -/
theorem updProgrammed_first {s : State} (hp : s.upd.prog = []) (c : HostCall) (w off : Nat) (d : Bytes) :
    updProgrammed (some c) w off d true s =
      let p := flashProg (regionBase s.upd.target + off) d s
      answer c 0x802 w stOk 0 (toLe 4 d.length ++ toLe 4 0) { p with upd := { p.upd with prog := [(off, d.length)] } } := by
  have hr : rangeAdd off d.length (flashProg (regionBase s.upd.target + off) d s).upd.prog = [(off, d.length)] := by
    show rangeAdd off d.length s.upd.prog = _
    rw [hp]; rfl
  unfold updProgrammed; dsimp only
  rw [if_neg (by simp), hr]
  simp [programmed]

/-- Settles O50: each command by the first of its checks that fails, or its flash work; the work's end by its own equation. -/
theorem updateCommands : Obligations.UpdateCommands := by
  unfold Obligations.UpdateCommands
  refine ⟨fun c s h hl => ?status, fun c s h hl hz hp => ?begins, fun c s h h9 hl hz hp => ?data, fun c s h hl hp => ?ends,
    fun c s h hl hp => ?verify, fun c w t s hx hc h2 => ?extra, fun c w k r s h1 h6 hc h2 => ?image, fun c s h hl hp => ?activate,
    fun c s h hl hp => ?cancel, fun c w t n s => ?begun, fun c w off d s hp => updProgrammed_first hp c w off d, fun c w s => rfl,
    fun c w s h4 => ?cancelled, fun c w defer s => ?activated⟩
  case status => exact runCmd_replied h (sized_eq (by rw [hl]; rfl) s)
  case begins =>
    have e := updBeginBody_eq hl hz hp
    refine ⟨fun hbad => runCmd_failed h (by rw [e, updBeginCheck_malformed hbad]; rfl), fun ht hc hn hlen ho => ?_⟩
    have ec := updBeginCheck_fits ht hc hn hlen ho
    refine ⟨fun hs => runCmd_failed h ?_, fun hs hb => runCmd_failed h ?_, fun hs hb => runCmd_waits h ?_⟩
    · rw [e, ec, if_pos (by rcases hs with hs | hs | hs <;> simp [hs])]; rfl
    · rw [e, ec, if_neg (by rcases hs with hs | hs | hs <;> simp [hs]), if_pos hb]; rfl
    · rw [e, ec, if_neg (by rcases hs with hs | hs | hs <;> simp [hs]), if_neg (by simp [hb])]; rfl
  case data =>
    have e := updDataBody_eq h9 hl hz hp
    refine ⟨fun hs => runCmd_failed h (by rw [e, updDataCheck_noTransfer hs]; rfl), fun hs hq hlen => runCmd_failed h ?_,
      fun hs hq hlen hpr hb => runCmd_waits h ?_⟩
    · rw [e, updDataCheck_outside hs hq (by simpa using hlen)]; rfl
    · rw [e, updDataCheck_fresh hs hq (by simpa using hlen) hpr hb]; rfl
  case ends =>
    have e := updEndBody_eq hl hp
    refine ⟨fun hs => runCmd_replied h (e.trans (if_pos (by simpa using hs))), fun hs hpr => runCmd_failed h ?_, fun hs hpr hq hb => runCmd_waits h ?_⟩
    · exact e.trans ((if_neg (by simp [hs])).trans (if_pos (by simp [hpr])))
    · exact e.trans ((if_neg (by simp [hs])).trans ((if_neg (by simp [hs, hpr, updTargetOk_admits (.inl hq)])).trans (if_neg (by simp [hb]))))
  case verify =>
    have e := updVerifyBody_eq hl hp
    refine ⟨fun hs2 hs3 => runCmd_failed h (e.trans (if_pos (by simp [hs2, hs3]))), fun hs hq => runCmd_waits h (e.trans (if_neg ?_))⟩
    rcases hs with hs | hs <;> simp [hs, updTargetOk_admits (.inl hq)]
  case extra => exact (updVerifyBegin_extra hx c w).trans (updVerifyEnd_refused hc h2 ..)
  case image => exact (updVerifyNext_refused h1 h6 c w r).trans (updVerifyEnd_refused hc h2 ..)
  case activate =>
    refine ⟨fun hf => runCmd_failed h ((sized_eq hl s).trans (if_pos (by simp [hf]))), fun hz hf hs => runCmd_failed h ?_,
      fun hz hf hs ht hst hb => runCmd_waits h ?_⟩
    · rw [updActivateBody_eq hl hz hf hp, updActivateCheck_unverified hs]; rfl
    · rw [updActivateBody_eq hl hz hf hp, updActivateCheck_verified hs ht hst hb]; rfl
  case cancel =>
    refine ⟨fun hs => runCmd_replied h ?_, fun hs => runCmd_failed h ?_, fun hs hq hb => runCmd_waits h ?_⟩
    · exact (sized_eq (by rw [hl]; rfl) s).trans ((if_neg (by simp [hp])).trans (if_pos hs))
    · rw [updCancelBody_eq hl hp (by omega), updCancelCheck_trial hs]; rfl
    · rw [updCancelBody_eq hl hp (by omega), updCancelCheck_download (by omega) hq hb]; rfl
  case begun =>
    refine ⟨fun _ => ?_, rfl⟩
    show answer c 0x801 w stOk 0 (ustat _) _ = _
    rw [ustat, setUpd_status]
  case cancelled =>
    show (let u := if s.upd.status = 4 then _ else _; answer c 0x806 w stOk 0 (ustat u) u) = _
    rw [if_neg h4]
  case activated => exact ⟨rfl, setUpd_status _ _, rfl⟩

/-! ## PLDM firmware update: a request on an idle path

The management path hands a firmware update request to its command, and with what the command leaves it is idle again. -/

/-- A firmware update request of the row's sender, and what its command leaves with no request waiting. -/
theorem mgRow_update {cmd : Nat} {b : Bytes} {s r : State} (h : MgIdle s) (hc : cmd < 256) (e : pldmUpdate cmd b (mgBegun 0x80 s) = r)
    (q : r.mg.queue = []) : Host.Outcome.next (mgRow (pldmMsg 5 cmd b) s) = (.next r : Res) := by
  refine congrArg Host.Outcome.next (mgRow_idle h ?_ (.inr q))
  have hcmd : field (pldmMsg 5 cmd b) 3 1 = cmd := by
    show le [BitVec.ofNat 8 cmd] = cmd
    simp [le]; omega
  have hready : pldmReady 5 cmd b (mgBegun 0x80 s) = true := by
    obtain ⟨hfw, -, hret, -, -⟩ := h
    simp [pldmReady, mgBegun_pkg, mgBegun_wd, hret, (fwWfw_runs hfw).2]
  have hreq : ¬ field (pldmMsg 5 cmd b) 1 1 < 128 := by
    show ¬ field [0x01#8, 0x80#8] 1 1 < 128
    decide
  show mgPldm (pldmMsg 5 cmd b) (mgBegun 0x80 s) = r
  unfold mgPldm; dsimp only
  rw [if_neg hreq, hcmd]
  refine (if_neg ?_).trans e
  show ¬ (!pldmReady 5 cmd b (mgBegun 0x80 s)) = true
  simp [hready]

/-- The reply to a request that the row sent carries the identifier 0 (DSP0240). -/
theorem pldmReply_begun {t : State} (h : t.mg.peerInst = 0x80) (cmd cc : Nat) (d : Bytes) :
    pldmReply 5 cmd cc d t = mgSend ([1#8, 0#8, 5#8] ++ toLe 1 cmd ++ toLe 1 cc ++ d) t := by
  unfold pldmReply; rw [h]; rfl

/-- A firmware update request whose command replies at once. -/
theorem mgRow_updReply {cmd cc : Nat} {b d : Bytes} {s t : State} (h : MgIdle s) (hc : cmd < 256)
    (e : pldmUpdate cmd b (mgBegun 0x80 s) = pldmReply 5 cmd cc d t) (hi : t.mg.peerInst = 0x80) (q : t.mg.queue = []) :
    Host.Outcome.next (mgRow (pldmMsg 5 cmd b) s) = (.next (mgSend ([1#8, 0#8, 5#8] ++ toLe 1 cmd ++ toLe 1 cc ++ d) t) : Res) :=
  mgRow_update h hc (e.trans (pldmReply_begun hi ..)) ((mgSend_queue ..).trans q)

/-- A firmware update request whose command replies and begins flash work. -/
theorem mgRow_updWork {cmd cc : Nat} {b d : Bytes} {s t : State} {f : FSync} (h : MgIdle s) (hc : cmd < 256)
    (e : pldmUpdate cmd b (mgBegun 0x80 s) = flashSync f (pldmReply 5 cmd cc d t)) (hi : t.mg.peerInst = 0x80) (q : t.mg.queue = []) :
    Host.Outcome.next (mgRow (pldmMsg 5 cmd b) s) = (.next (flashSync f (mgSend ([1#8, 0#8, 5#8] ++ toLe 1 cmd ++ toLe 1 cc ++ d) t)) : Res) :=
  mgRow_update h hc (e.trans (congrArg (flashSync f) (pldmReply_begun hi ..))) ((mgSend_queue ..).trans q)

/-- The answer to RequestFirmwareData on an idle path goes to the transfer, and nothing stays in execution (R196). -/
theorem mgRow_fwData {b : Bytes} {s r : State} (h : MgIdle s)
    (e : fwData b { mgBegun 0 s with mg := { (mgBegun 0 s).mg with busy := false } } = r) (q : r.mg.queue = []) :
    Host.Outcome.next (mgRow ([0x01#8, 0x00#8, 0x05#8, 0x15#8] ++ b) s) = (.next r : Res) :=
  congrArg Host.Outcome.next (mgRow_idle h e (.inr q))

/-! ## PLDM firmware update: the commands

Each by the first of its tests that answers (Table 8-6). A row's request is taken in `mgBegun 0x80 s`. -/

section
variable {b : Bytes} {s : State}

/-- One update runs at a time, on either path (R196). -/
theorem fwRequest_busy (hl : 11 ≤ b.length) (h : s.upd.pldm = true ∨ s.upd.status ≠ 0 ∨ hostBegin s = true) : fwRequest b s = pldmReply 5 0x10 0x81 [] s :=
  (if_neg (Nat.not_lt.2 hl)).trans (if_pos (by simpa [or_assoc] using h))
theorem fwRequest_free (hl : 11 ≤ b.length) (hp : s.upd.pldm = false) (hs : s.upd.status = 0) (hh : hostBegin s = false) :
    fwRequest b s = pldmReply 5 0x10 0 (toLe 3 0)
      { s with upd := { s.upd with pldm := true, pldmSt := 1, pldmMax := max 32 (field b 0 4), pldmOff := 0, pldmRes := 0 } } :=
  (if_neg (Nat.not_lt.2 hl)).trans (if_neg (by simp [hp, hs, hh]))

/-! No command but RequestUpdate and GetStatus outside an update. -/

section
variable (hp : s.upd.pldm = false)
include hp
theorem fwTable_idle : fwTable b s = pldmReply 5 0x13 0x80 [] s := if_pos (by simp [hp])
theorem fwUpdate_idle : fwUpdate b s = pldmReply 5 0x14 0x80 [] s := if_pos (by simp [hp])
theorem fwActivate_idle : fwActivate b s = pldmReply 5 0x1A 0x80 [] s := if_pos (by simp [hp])
theorem fwCancelComp_idle : fwCancelComp s = pldmReply 5 0x1C 0x80 [] s := if_pos (by simp [hp])
theorem fwCancelAll_idle : fwCancelAll s = pldmReply 5 0x1D 0x80 [] s := if_pos (by simp [hp])
theorem fwData_idle : fwData b s = s := if_pos (by simp [hp])
end

section
variable (hp : s.upd.pldm = true)
include hp

/-- A component that the package has is accepted into the table, whose end leads to READY XFER. -/
theorem fwTable_accepts (h1 : s.upd.pldmSt = 1) (hl : 12 ≤ b.length) (hid : field b 3 2 = 1 ∨ field b 3 2 = 2) :
    fwTable b s = pldmReply 5 0x13 0 [0#8, 0#8] (if bit (field b 0 1) 2 then { s with upd := { s.upd with pldmSt := 2 } } else s) := by
  have hok : (decide (field b 3 2 = 1) || decide (field b 3 2 = 2)) = true := by simpa using hid
  refine (if_neg (by simp [hp])).trans ((if_neg (not_not.2 h1)).trans ((if_neg (Nat.not_lt.2 hl)).trans ?_))
  dsimp only; rw [hok, if_pos rfl]

/-- A component that UPD_BEGIN's checks admit begins its transfer's flash work. -/
theorem fwUpdate_begins (h2 : s.upd.pldmSt = 2) (hl : 19 ≤ b.length) (hf : s.wd.fw ≠ .rom) (hid : field b 2 2 = 1 ∨ field b 2 2 = 2)
    (hb : updBeginCheck (compTarget (field b 2 2) s) (field b 9 4) s = none) :
    fwUpdate b s = flashSync (.updBegin none 0 (compTarget (field b 2 2) s) (field b 9 4))
      (pldmReply 5 0x14 0 ([0#8, 0#8] ++ toLe 6 0) { s with upd := { s.upd with pldmComp := field b 2 2 } }) := by
  have hknown : ¬ (!(field b 2 2 = 1 || field b 2 2 = 2) || (s.wd.fw == .rom && field b 2 2 ≠ 2)) = true := by
    rcases hid with h | h <;> simp [h, hf]
  refine (if_neg (by simp [hp])).trans ((if_neg (not_not.2 h2)).trans ((if_neg (Nat.not_lt.2 hl)).trans ((if_neg hknown).trans ?_)))
  rw [hb]

/-- An activation that UPD_ACTIVATE's checks admit. -/
theorem fwActivate_begins (h2 : s.upd.pldmSt = 2) (hl : b.length = 1) (h1 : field b 0 1 ≤ 1) (hr : ¬ (s.upd.pldmComp = 2 ∧ s.upd.status = 0))
    (ha : updActivateCheck s = none) : fwActivate b s = flashSync (.updActivate none 0 (field b 0 1 == 0))
      (pldmReply 5 0x1A 0 (toLe 2 0) { s with upd := { s.upd with pldmSt := 6 } }) := by
  refine (if_neg (by simp [hp])).trans ((if_neg (not_not.2 h2)).trans ((if_neg (by simp [hl, Nat.not_lt.2 h1])).trans ((if_neg (by simpa using hr)).trans ?_)))
  rw [ha]

/-- A component is cancelled with nothing in flash to cancel. -/
theorem fwCancelComp_none (h3 : 3 ≤ s.upd.pldmSt) (h0 : s.upd.status = 0) :
    fwCancelComp s = fwCancel (pldmReply 5 0x1C 0 [] { s with upd := { s.upd with pldmSt := 2, pldmOff := 0 } }) :=
  (if_neg (by simp [hp])).trans ((if_neg (Nat.not_lt.2 h3)).trans (if_neg (by simp [h0])))

/-- The update is cancelled where UPD_CANCEL may run or has nothing to do. -/
theorem fwCancelAll_admitted (h : s.upd.status = 0 ∨ updCancelCheck s = none) :
    fwCancelAll s = fwCancel (pldmReply 5 0x1D 0 (toLe 9 0) { s with upd := { s.upd with pldm := false, pldmSt := 0 } }) :=
  (if_neg (by simp [hp])).trans (if_neg (by rcases h with h | h <;> simp [h]))

end

/-- Data that no transfer asked for is dropped. -/
theorem fwData_unasked (h : s.upd.pldmSt ≠ 3) : fwData b s = s := if_pos (by simp [h])

/-- The part asked for is programmed where UPD_DATA's checks admit it. -/
theorem fwData_programs (hp : s.upd.pldm = true) (h3 : s.upd.pldmSt = 3) (hf : s.fq.sync = none)
    (hl : 1 + min s.upd.pldmMax (s.upd.length - s.upd.pldmOff) ≤ b.length) (h0 : field b 0 1 = 0)
    (hd : updDataCheck s.upd.pldmOff ((b.drop 1).take (min s.upd.pldmMax (s.upd.length - s.upd.pldmOff))) s = none) :
    fwData b s = flashSync (.updData none 0 s.upd.pldmOff ((b.drop 1).take (min s.upd.pldmMax (s.upd.length - s.upd.pldmOff)))) s := by
  have hwhole : ¬ (b.drop 1).length < min s.upd.pldmMax (s.upd.length - s.upd.pldmOff) := by rw [List.length_drop]; omega
  refine (if_neg (by simp [hp, h3, hf])).trans ((if_neg (by simpa [h0] using hwhole)).trans ?_)
  rw [hd]

end

/-- Packets on the management path concern that path alone (R517). -/
theorem mgTransmit_frame (ps : List Bytes) (s : State) : ∃ m, mgTransmit ps s = { s with mg := m } := by
  unfold mgTransmit
  generalize List.range ((ps.length + 47) / 48) = l
  induction l generalizing s with
  | nil => exact ⟨s.mg, rfl⟩
  | cons i l ih =>
    obtain ⟨m, e⟩ := ih (mgTxgo 48 { s with mg := { s.mg with tx := (ps.drop (48 * i)).take 48 } })
    exact ⟨m, e⟩

/-- A response of the management path changes that path and what has left the package (R518). -/
theorem mgSend_frame (d : Bytes) (s : State) : ∃ m o, mgSend d s = { s with mg := m, outs := o } := by
  obtain ⟨m, o, e⟩ : ∃ m o, mgOut d { s with mg := { s.mg with busy := false } } = { s with mg := m, outs := o } := by
    unfold mgOut; dsimp only
    obtain ⟨m, e⟩ := mgTransmit_frame (mctpPackets s.mg.eid s.mg.peer s.mg.peerTag d) { s with mg := { s.mg with busy := false, resp := d :: s.mg.resp } }
    rw [e]; exact ⟨_, _, rfl⟩
  unfold mgSend; dsimp only; rw [e]; split <;> exact ⟨_, _, rfl⟩

theorem mgSend_upd (d : Bytes) (s : State) : (mgSend d s).upd = s.upd := by
  obtain ⟨_, _, e⟩ := mgSend_frame d s; rw [e]

theorem pldmReply_upd (ty cmd cc : Nat) (d : Bytes) (s : State) : (pldmReply ty cmd cc d s).upd = s.upd := mgSend_upd ..

/-- With status NONE a cancel has nothing in flash to undo; else UPD_CANCEL's work begins (Table 8-6). -/
theorem fwCancel_none {s : State} (h : s.upd.status = 0) : fwCancel s = s := if_pos h
theorem fwCancel_begins {s : State} (h : s.upd.status ≠ 0) : fwCancel s = flashSync (.updCancel none 0) s := if_neg h

/-- Settles O56: each request by the test of its command that answers, on an idle path; the data by the transfer's own tests. -/
theorem pldmFirmwareUpdate : Obligations.PldmFirmwareUpdate := by
  unfold Obligations.PldmFirmwareUpdate
  refine ⟨fun b s h => ⟨fun hl hb => ?busy, fun hl hp h0 hh => ?request, fun hp => ?noUpdate, fun hp h1 hl hid => ?table,
    fun hp h2 hl hid hb => ?component, fun hp h2 hl h1 hr ha => ?activate, fun hp h3 h0 => ?cancelComponent, fun hp h0 hc => ?cancelWork,
    fun hp h0 => ?cancelNone, mgRow_updReply h (by decide) rfl rfl rfl⟩, fun b s h => ⟨fun hn => ?unasked, fun hp h3 hf hl h0 hd => ?programs⟩⟩
  case busy => exact mgRow_updReply h (by decide) (fwRequest_busy (s := mgBegun 0x80 s) hl hb) rfl rfl
  case request => exact mgRow_updReply h (by decide) (fwRequest_free (s := mgBegun 0x80 s) hl hp h0 hh) rfl rfl
  case noUpdate =>
    exact ⟨mgRow_updReply h (by decide) (fwTable_idle (s := mgBegun 0x80 s) hp) rfl rfl, mgRow_updReply h (by decide) (fwUpdate_idle (s := mgBegun 0x80 s) hp) rfl rfl,
      mgRow_updReply h (by decide) (fwActivate_idle (s := mgBegun 0x80 s) hp) rfl rfl,
      mgRow_updReply h (by decide) (fwCancelComp_idle (s := mgBegun 0x80 s) hp) rfl rfl,
      mgRow_updReply h (by decide) (fwCancelAll_idle (s := mgBegun 0x80 s) hp) rfl rfl⟩
  case table => exact mgRow_updReply h (by decide) (fwTable_accepts (s := mgBegun 0x80 s) hp h1 hl hid) (by split <;> rfl) (by split <;> rfl)
  case component => exact mgRow_updWork h (by decide) (fwUpdate_begins (s := mgBegun 0x80 s) hp h2 hl (fwWfw_runs h.1).2 hid hb) rfl rfl
  case activate => exact mgRow_updWork h (by decide) (fwActivate_begins (s := mgBegun 0x80 s) hp h2 hl h1 hr ha) rfl rfl
  case cancelComponent =>
    exact mgRow_updReply h (by decide) ((fwCancelComp_none (s := mgBegun 0x80 s) hp h3 h0).trans (fwCancel_none (by rw [pldmReply_upd]; exact h0))) rfl rfl
  case cancelWork =>
    exact mgRow_updWork h (by decide) ((fwCancelAll_admitted (s := mgBegun 0x80 s) hp (.inr hc)).trans (fwCancel_begins (by rw [pldmReply_upd]; exact h0))) rfl rfl
  case cancelNone =>
    exact mgRow_updReply h (by decide) ((fwCancelAll_admitted (s := mgBegun 0x80 s) hp (.inl h0)).trans (fwCancel_none (by rw [pldmReply_upd]; exact h0))) rfl rfl
  case unasked =>
    refine mgRow_fwData h ?_ rfl
    rcases hn with hp | h3
    · exact fwData_idle hp
    · exact fwData_unasked h3
  case programs => exact mgRow_fwData h (fwData_programs hp h3 hf hl h0 hd) rfl

end Sys2Proof.Machine
end

section
/-! # The host's functions and their links

The statement on PERST_N, function resets, links and MSI-X, with what the end of a session leaves of the SPDM responder. -/
open Sys2Proof
namespace Sys2Proof.Machine

/-! ## What ends an aperture leaves the SPDM responder

Every operation that the end of an aperture runs keeps `sd`, so the session that `sessEnd` ended stays ended (R216, R284). -/

theorem foldl_sd {α : Type} {f : State → α → State} (hf : ∀ s a, (f s a).sd = s.sd) (l : List α) (s : State) : (l.foldl f s).sd = s.sd :=
  List.foldlRecOn (motive := fun t : State => t.sd = s.sd) l f rfl fun t h a _ => (hf t a).trans h

section
variable (s : State)

@[simp] theorem dgEnd_sd (e : Nat) : (dgEnd e s).sd = s.sd := by obtain ⟨_, _, _, h⟩ := dgEnd_frame e s; rw [h]
@[simp] theorem sendVec_sd (d v : Nat) : (sendVec d v s).sd = s.sd := by obtain ⟨_, _, h⟩ := sendVec_frame d v s; rw [h]
@[simp] theorem perfAdd_sd (x y n : Nat) : (perfAdd x y n s).sd = s.sd := by unfold perfAdd; dsimp only; split <;> rfl
@[simp] theorem pkCut_sd (i : Nat) : (pkCut i s).sd = s.sd := by
  unfold pkCut; split
  · split <;> rfl
  · rfl
@[simp] theorem zeroSlot_sd (i : Nat) (b : Bool) : (zeroSlot i b s).sd = s.sd := by
  unfold zeroSlot; dsimp only; split
  · rfl
  · rw [setSlot_sd, apply_ite State.sd, ite_self, pkCut_sd]; split <;> simp

/-! Key ports: firmware's KPZERO is a table of two steps (R68). -/

@[simp] theorem kpZero_sd (u i : Nat) : (kpZero u i s).sd = s.sd := by unfold kpZero mapReset; split <;> rfl
@[simp] theorem sqStop_sd (f : Seqr → Seqr) : (sqStop f s).sd = s.sd := trace_sd ..
@[simp] theorem sqError_sd (e : Nat) : (sqError e s).sd = s.sd := sqStop_sd ..
@[simp] theorem sqAdvance_sd : (sqAdvance s).sd = s.sd := by
  unfold sqAdvance; dsimp only; split
  · exact sqStop_sd ..
  · split
    · exact sqStop_sd ..
    · rfl
@[simp] theorem sqStart_sd (p : SqPurpose) : (sqStart p s).sd = s.sd := by
  unfold sqStart; split
  · rfl
  · exact trace_sd ..

theorem stepEffect_kpzero_sd {u i : Nat} (hu : u < 18) (hi : i < 256) (x : StepIn) : (stepEffect (mkStep 0x21 0 u i) x s).sd = s.sd := by
  have hop : stepOp (mkStep 0x21 0 u i) = 0x21 := stepOp_mkStep (by omega) (by omega) (by omega) (by omega)
  unfold stepEffect; simp only [hop]; split
  · exact sqError_sd ..
  · split <;> simp
theorem stepEffect_end_sd (x : StepIn) : (stepEffect endStep x s).sd = s.sd := by
  have hop : stepOp endStep = 0x01 := stepOp_mkStep (by decide) (by decide) (by decide) (by decide)
  unfold stepEffect; simp only [hop]; exact sqStop_sd ..

end

theorem runSteps_sd {fall : Nat → State → State} (hf : ∀ r s, (fall r s).sd = s.sd) {t : List Step64}
    (ht : ∀ w ∈ t, ∀ s, (stepEffect w quietStep s).sd = s.sd) (s : State) : (runSteps fall t s).sd = s.sd := by
  refine List.foldlRecOn (motive := fun r : State => r.sd = s.sd) t _ rfl fun r h w hw => ?_
  split
  · exact h
  · have he := (ht w hw (sqPast r)).trans h
    dsimp only; split
    · rw [sqAdvance_sd, hf]; exact he
    · exact he

theorem fwDo_sd {t : List Step64} (ht : ∀ w ∈ t, ∀ s, (stepEffect w quietStep s).sd = s.sd) (s : State) : (fwDo t s).sd = s.sd := by
  have hr := (runSteps_sd (fall := fun _ s => s) (fun _ _ => rfl) ht (sqStart .user (fwReady t s))).trans (sqStart_sd ..)
  unfold fwDo fwRun; dsimp only; split <;> exact hr

section
variable (s : State)

@[simp] theorem fwKpzero_sd (u i : Nat) : (fwKpzero u i s).sd = s.sd := by
  unfold fwKpzero; split
  · rename_i hc
    simp only [Bool.and_eq_true] at hc
    obtain ⟨hu, hi⟩ := keyPort_bound hc.1.2
    refine fwDo_sd (fun w hw r => ?_) s
    rcases List.mem_cons.1 hw with rfl | hw
    · exact stepEffect_kpzero_sd r hu hi _
    · rw [List.mem_singleton.1 hw]; exact stepEffect_end_sd r _
  · exact kpZero_sd ..

/-! Jobs: completion records, vectors and link entries (R373, R378, R459). -/

@[simp] theorem lkeEnd_sd (n : Nat) : (lkeEnd n s).sd = s.sd := by
  refine foldl_sd (fun r d => ?_) _ s; exact fwKpzero_sd ..
@[simp] theorem lkeJobEnd_sd (j : Nat) : (lkeJobEnd j s).sd = s.sd := by
  unfold lkeJobEnd; dsimp only; refine foldl_sd (fun r p => ?_) _ s; exact lkeEnd_sd ..
@[simp] theorem outRec_sd (d a i : Nat) (x : Bytes) : (outRec d a i x s).1.sd = s.sd := by
  unfold outRec; dsimp only; split
  · rfl
  · split
    · rfl
    · split
      · rfl
      · exact perfAdd_sd ..
theorem ringWrite_sd {a : Ast} {n : Nat} {r : Bytes} {t : State} (e : ringWrite a n r s = some t) : t.sd = s.sd := by
  unfold ringWrite at e; dsimp only at e
  split at e
  · split at e
    · cases e
    · split at e
      · cases e; exact outRec_sd ..
      · cases e
  · cases e; rfl
@[simp] theorem jobVector_sd (j v : Nat) : (jobVector j v s).sd = s.sd := by
  unfold jobVector; split
  · rfl
  · split
    · exact sendVec_sd ..
    · rfl
end

@[simp] theorem ringFlushN_sd (tag n : Nat) (s : State) : (ringFlushN tag n s).sd = s.sd := by
  induction n generalizing s with
  | zero => rfl
  | succ n ih =>
    unfold ringFlushN; split
    · rfl
    · split
      · rfl
      · split
        · rfl
        · split
          · rfl
          · rename_i s1 e
            rw [ih, jobVector_sd, modAst_sd]; exact ringWrite_sd s e

section
variable (s : State)

@[simp] theorem ringFlush_sd (g : Bool) (tag : Nat) : (ringFlush g tag s).sd = s.sd := by
  unfold ringFlush; split
  · rfl
  · split
    · exact ringFlushN_sd ..
    · rfl
@[simp] theorem postCompletion_sd (j : Nat) : (postCompletion j s).sd = s.sd := by
  unfold postCompletion; split
  · rfl
  · split
    · rfl
    · split <;> simp
@[simp] theorem jobEnd_sd (st : JState) (x y j : Nat) : (jobEnd st x y j s).sd = s.sd := by
  unfold jobEnd; split
  · rfl
  · split
    · rfl
    · extract_lets s1 rc jb s2 idn s3 s4
      have h3 : s3.sd = s.sd := by unfold s3; split; exacts [perfAdd_sd .., by split; exacts [perfAdd_sd .., rfl]]
      have h4 : s4.sd = s.sd := by unfold s4; split; exacts [(lkeJobEnd_sd ..).trans h3, h3]
      rw [postCompletion_sd, trace_sd, h4]
@[simp] theorem jobsEnd_sd (st : JState) (x y : Nat) (l : List Nat) : (jobsEnd st x y l s).sd = s.sd := foldl_sd (fun r j => jobEnd_sd r st x y j) l s

/-! Apertures. -/

@[simp] theorem apClose_sd (d a : Nat) : (apClose d a s).sd = s.sd := by
  unfold apClose; dsimp only; rw [jobsEnd_sd, modPx_sd, modAp_sd, fwKpzero_sd]
@[simp] theorem apEnd_sd (d a : Nat) : (apEnd d a s).sd = s.sd := by
  unfold apEnd; split
  · rfl
  · split
    · rfl
    · exact apClose_sd ..
@[simp] theorem apEndDie_sd (d : Nat) : (apEndDie d s).sd = s.sd := foldl_sd (fun r a => by split; exacts [rfl, apEnd_sd ..]) _ s
@[simp] theorem apEndAll_sd : (apEndAll s).sd = s.sd := foldl_sd (fun r d => apEndDie_sd r d) _ s

/-- No session is left after its end (R216). -/
@[simp] theorem sessEnd_sess : (sessEnd s).sd.sess = none := by
  unfold sessEnd; split
  · assumption
  · rw [apEndAll_sd, zeroSlot_sd]
end

/-! ## Host functions -/

section
variable {d : Nat} {s : State}

theorem modFn_modFn (d : Nat) (f g : HostFn → HostFn) (s : State) : modFn d g (modFn d f s) = modFn d (fun x => g (f x)) s := by
  simp [modFn, modNth, List.modify_modify_eq, Function.comp_def]

theorem fnS_modFn (f : HostFn → HostFn) (h : d < s.hb.fns.length) : fnS (modFn d f s) d = f (fnS s d) := nth_modNth_self _ _ _ _ h

/-- A field that an update keeps reads the same, in or beyond the list of functions. -/
theorem fnS_modFn_keeps {α : Type} {p : HostFn → α} {f : HostFn → HostFn} (hf : ∀ x, p (f x) = p x) (d : Nat) (s : State) :
    p (fnS (modFn d f s) d) = p (fnS s d) := by
  by_cases h : d < s.hb.fns.length
  · rw [fnS_modFn f h, hf]
  · have e : modNth d f s.hb.fns = s.hb.fns := by
      unfold modNth; rw [List.modify_eq_set_getElem?, List.getElem?_eq_none (by omega)]; rfl
    unfold fnS; rw [modFn_fns, e]

theorem fnExists_of_lt (h : d < (portUnits s).length) : fnExists s d = true := decide_eq_true h

/-! A reset of a function (R204): its registers go first, then what the function held. -/

theorem perstAssert_resets (hd : d < (portUnits s).length) (hp : (fnS s d).perstN = true) :
    perstAssert d s = fnDown d (modFn d (fun f => { f with perstN := false, up := false }) s) := if_neg (by simp [fnExists_of_lt hd, hp])
theorem dllDown_resets (hd : d < (portUnits s).length) (hu : (fnS s d).up = true) :
    dllDown d s = fnDown d (modFn d (fun f => { f with up := false }) s) := if_neg (by simp [fnExists_of_lt hd, hu])
theorem flr_resets (hd : d < (portUnits s).length) (hu : (fnS s d).up = true) : flr d s = fnDown d s := if_pos (by simp [fnExists_of_lt hd, hu])

/-- The registers of a function and an update before them are one update. -/
theorem fnDown_modFn (d : Nat) (f : HostFn → HostFn) (s : State) : fnDown d (modFn d f s) = fnReset d (modFn d (fun x =>
    { f x with cause := 0, irqEn := 0, mask := 0xFFFFFFFFFFFFFFFF, pba := 0, table := [], d3 := false }) s) :=
  congrArg (fnReset d) (modFn_modFn d f _ s)

/-- What ends with the primary function (Table 9-3): the accepted mask, the session, quantisation, the object in progress, and
the registers of the fault ring and the access window. -/
def PrimaryEnded (t : State) : Prop :=
  t.hb.accept = 0 ∧ t.sd.sess = none ∧ t.pw.quant = false ∧ t.hb.frEn = false ∧ t.hb.frSealed = true ∧ t.hb.apEn = false ∧ t.sd.busy = false

theorem primaryEnd_ended (s : State) : PrimaryEnded (primaryEnd s) := by
  have h := sessEnd_sess s
  unfold primaryEnd
  generalize sessEnd s = t at h ⊢
  exact ⟨rfl, h, rfl, rfl, rfl, rfl, rfl⟩

/-- Every reset of the primary function ends with `primaryEnd`. -/
theorem fnReset_primary (s : State) : PrimaryEnded (fnReset 0 s) := by
  unfold fnReset; rw [if_pos rfl]; exact primaryEnd_ended _

/-- A secondary function whose die runs no job: its apertures end, and its streams. -/
theorem fnReset_secondary (hd : 1 ≤ d) (hj : jobIds (fun j => j.st == .running && j.die == d) (apEndDie d s) = []) :
    fnReset d s = modPx d (fun x => { x with streams := [] }) (apEndDie d s) := by
  unfold fnReset; rw [if_neg (by omega)]; dsimp only; rw [hj, jobsEnd, List.foldl_nil]

/-! Links (R218). -/

theorem linkUp_perst (h : (fnS s d).perstN = false) (gen w : Nat) : linkUp d gen w s = s := if_pos (by simp [h])

/-- A link that may train comes up with the rate and width of the partners; FLIT mode is certain at the highest rate. -/
theorem linkUp_trains (hd : d < (portUnits s).length) (hup : (fnS s d).up = false) (hlt : (fnS s d).ltEn = true) (hp : (fnS s d).perstN = true)
    (hpg : s.pkg.portPg = true) (hclk : s.pkg.refPcie = true) (hu : unitUp s (unitOfOrd s d) = true) (hm : d ≠ 0 ∨ s.mg.mreq = 0)
    {gen w : Nat} (hg : gen < 6) (hw : w ∈ Config.linkWidths) : linkUp d gen w s =
      modFn d (fun f => { f with up := true, gen := gen, width := w, flit := gen == 5 || Config.freeNat s.draws % 2 == 1 }) { s with draws := s.draws + 1 } := by
  refine (if_neg (by simp [fnExists_of_lt hd, hup, hlt, hp, hpg, hclk, hu, hw, Nat.not_le.2 hg])).trans (if_neg ?_)
  rcases hm with hm | hm <;> simp [hm]

/-! Pending vectors (R204, R211). -/

theorem bit_eq_testBit (m i : Nat) : bit m i = m.testBit i := by rw [Nat.testBit_eq_decide_div_mod_eq]; rfl
theorem bit_zero (i : Nat) : bit 0 i = false := by rw [bit_eq_testBit, Nat.zero_testBit]
theorem bit_two_pow (v i : Nat) : bit (2 ^ v) i = decide (v = i) := by rw [bit_eq_testBit, Nat.testBit_two_pow]
theorem bit_setBit_false (m i : Nat) : bit (setBit m i false) i = false := by
  unfold setBit
  split
  · rename_i h; simpa using h
  · rename_i h
    have hodd : m / 2 ^ i % 2 = 1 := by simpa [bit] using h
    have hdiv : (m - 2 ^ i) / 2 ^ i = m / 2 ^ i - 1 := by simpa using Nat.sub_mul_div m (2 ^ i) 1
    simp only [Bool.false_eq_true, if_false, bit, hdiv, beq_eq_false_iff_ne]
    omega
theorem setBit_two_pow_self (v : Nat) : setBit (2 ^ v) v false = 0 := by simp [setBit, bit_two_pow]

/-- One vector of `sendPending`. -/
noncomputable def sendVecPending (d : Nat) (s : State) (v : Nat) : State :=
  if bit (fnS s d).pba v && !bit (fnS s d).mask v && !(fnS s d).d3 && (fnS s d).up then
    emit (.msix d v) (modFn d (fun f => { f with pba := setBit f.pba v false }) s) else s
theorem sendPending_eq (d : Nat) (s : State) : sendPending d s = (List.range 64).foldl (sendVecPending d) s := rfl

theorem sendVecPending_unset {v : Nat} (h : bit (fnS s d).pba v = false) : sendVecPending d s v = s := if_neg (by simp [h])

theorem sendPending_none (h : (fnS s d).pba = 0) : sendPending d s = s :=
  List.foldl_fixed' (fun v => sendVecPending_unset (by rw [h, bit_zero])) _

/-- The function's MSI-X state after its only pending vector went out. -/
noncomputable def vecSent (d v : Nat) (s : State) : State := emit (.msix d v) (modFn d (fun f => { f with pba := 0 }) s)

/-- One vector is pending, unmasked, on a function in D0 with its link up: that vector goes out and no other. -/
theorem sendPending_one {v : Nat} (hd : d < s.hb.fns.length) (hv : v < 64) (hp : (fnS s d).pba = 2 ^ v) (hm : bit (fnS s d).mask v = false)
    (h3 : (fnS s d).d3 = false) (hu : (fnS s d).up = true) : sendPending d s = vecSent d v s := by
  have hsend : sendVecPending d s v = vecSent d v s := by
    refine (if_pos (by simp [hp, bit_two_pow, hm, h3, hu])).trans (congrArg (emit (.msix d v)) ?_)
    have e : modNth d (fun f : HostFn => { f with pba := setBit f.pba v false }) s.hb.fns = modNth d (fun f => { f with pba := 0 }) s.hb.fns := by
      refine List.ext_getElem? fun n => ?_
      simp only [modNth, List.getElem?_modify]
      split
      · rename_i hn; subst hn
        have hf : fnS s d = s.hb.fns[d] := by simp [fnS, nth, hd]
        simp only [List.getElem?_eq_getElem hd, Option.map_eq_map, Option.map_some, ← hf, hp, setBit_two_pow_self]
      · rfl
    unfold modFn; rw [e]
  have hsent : (fnS (vecSent d v s) d).pba = 0 := congrArg HostFn.pba (fnS_modFn _ hd)
  have hfold : ∀ n, (List.range n).foldl (sendVecPending d) s = if v < n then vecSent d v s else s := by
    intro n
    induction n with
    | zero => rfl
    | succ n ih =>
      rw [List.range_succ, List.foldl_append, ih, List.foldl_cons, List.foldl_nil]
      rcases Nat.lt_trichotomy v n with h | h | h
      · rw [if_pos h, if_pos (by omega), sendVecPending_unset (by rw [hsent, bit_zero])]
      · rw [h, if_neg (Nat.lt_irrefl n), if_pos (by omega), ← h, hsend]
      · rw [if_neg (by omega), if_neg (by omega), sendVecPending_unset (by rw [hp, bit_two_pow]; exact decide_eq_false (by omega))]
  rw [sendPending_eq, hfold, if_pos hv]

end

/-- Settles O28: a reset is `fnReset` after one update of the function's registers, a link's events are the branches of their
meanings, and an unmasked vector goes out by `sendPending_one`. -/
theorem functionsResetsAndLinks : Obligations.FunctionsResetsAndLinks := by
  unfold Obligations.FunctionsResetsAndLinks
  have perst : ∀ (d : Nat) (s : State), d < (portUnits s).length → (fnS s d).perstN = true → exec (.perstNAssert d) s = .next (fnReset d (modFn d (fun f =>
      { f with perstN := false, up := false, cause := 0, irqEn := 0, mask := 0xFFFFFFFFFFFFFFFF, pba := 0, table := [], d3 := false }) s)) :=
    fun d s hd hp => congrArg Host.Outcome.next ((perstAssert_resets hd hp).trans (fnDown_modFn ..))
  have down : ∀ (d : Nat) (s : State), d < (portUnits s).length → (fnS s d).up = true → exec (.dataLinkLayerDown d) s = .next (fnReset d (modFn d (fun f =>
      { f with up := false, cause := 0, irqEn := 0, mask := 0xFFFFFFFFFFFFFFFF, pba := 0, table := [], d3 := false }) s)) :=
    fun d s hd hu => congrArg Host.Outcome.next ((dllDown_resets hd hu).trans (fnDown_modFn ..))
  refine ⟨perst, fun d s hd hu => ⟨congrArg Host.Outcome.next (flr_resets hd hu), down d s hd hu⟩, ?primary, fun d s hd hj => fnReset_secondary hd hj,
    fun d s hd => congrArg Host.Outcome.next (if_pos (fnExists_of_lt hd)), ?linkUp, fun d gen w s hp => congrArg Host.Outcome.next (linkUp_perst hp gen w),
    fun d s hu => congrArg Host.Outcome.next (if_pos hu), ?d0, ?unmask⟩
  case primary =>
    rintro c s hd (⟨rfl, hp⟩ | ⟨rfl, hu⟩ | ⟨rfl, hu⟩)
    · exact ⟨_, perst 0 s hd hp, fnReset_primary _⟩
    · exact ⟨_, congrArg Host.Outcome.next (flr_resets hd hu), fnReset_primary _⟩
    · exact ⟨_, down 0 s hd hu, fnReset_primary _⟩
  case linkUp =>
    intro d s hd hup hlt hp hpg hclk hu hm gen w hg hw
    exact ⟨_, fun h => by rw [h]; rfl, congrArg Host.Outcome.next (linkUp_trains hd hup hlt hp hpg hclk hu hm hg hw)⟩
  case d0 =>
    intro d s hp
    exact congrArg Host.Outcome.next (sendPending_none ((fnS_modFn_keeps (p := HostFn.pba) (f := fun f => { f with d3 := false }) (fun _ => rfl) d s).trans hp))
  case unmask =>
    intro d v s hu h3 hd hv hp
    let t := modFn d (fun f => { f with mask := setBit f.mask v false }) s
    have hf : fnS t d = { fnS s d with mask := setBit (fnS s d).mask v false } := fnS_modFn _ hd
    have hm : bit (fnS t d).mask v = false := by rw [hf]; exact bit_setBit_false ..
    have hlen : d < t.hb.fns.length := by rw [modFn_fns, modNth_length]; exact hd
    have hrun : exec (.msixUnmask d v) s = .next (vecSent d v t) :=
      congrArg Host.Outcome.next ((if_pos (by simp [barOn, hu, h3, hv])).trans
        (sendPending_one hlen hv (by rw [hf]; exact hp) hm (by rw [hf]; exact h3) (by rw [hf]; exact hu)))
    have hsent : fnS (vecSent d v t) d = { fnS t d with pba := 0 } := fnS_modFn _ hlen
    exact ⟨_, hrun, by rw [hsent], rfl, by rw [hsent]; exact hm⟩

end Sys2Proof.Machine
end

section
/-! # Channels and the mover

The statement on the channel handshake, the mover's TAKE and POST, and the response of a duplicate submission. -/
open Sys2Proof
namespace Sys2Proof.Machine

section
variable {ch : Nat} {s : State}

theorem chanS_modChan (f : Chan → Chan) (h : ch < s.mb.chans.length) : chanS (modChan ch f s) ch = f (chanS s ch) := nth_modNth_self _ _ _ _ h

/-! ## The host's side (R202, R226) -/

section
variable (hc : ch < 8) (hb : barOn s 0 = true)
include hc hb
theorem mbx_reaches : ¬ (decide (8 ≤ ch) || !barOn s 0) = true := by simp [hb, Nat.not_le.2 hc]

theorem mbxWrite_unsupported {off : Nat} {data : Bytes} (h : 256 < data.length ∨ 4096 < off + data.length) :
    mbxWrite ch off data s = { s with hb := { s.hb with urs := s.hb.urs + 1 } } := (if_neg (mbx_reaches hc hb)).trans (if_pos (by simpa using h))

/-- A write within the buffer takes effect while the channel is free (R226). -/
theorem mbxWrite_inside {off : Nat} {data : Bytes} (hl : data.length ≤ 256) (ho : off + data.length ≤ 4096) : mbxWrite ch off data s =
    if (chanS s ch).cmdFree then modChan ch (fun c => { c with cmdBuf := cellPuts 0#8 off data c.cmdBuf }) s else s := by
  refine (if_neg (mbx_reaches hc hb)).trans ((if_neg (by simp; omega)).trans ?_)
  cases (chanS s ch).cmdFree <;> rfl

/-- A doorbell that the channel takes: latched, in the order of arrival, with source 4 (R226). -/
theorem mbxDoorbell_taken {len : Nat} (h1 : 32 ≤ len) (h2 : len ≤ 4096) (hf : (chanS s ch).cmdFree = true) (hg : (chanS s ch).gen ≠ 0)
    (hi : (chanS s ch).dbIrqEn = true) : mbxDoorbell ch len s = { s with
      mb := { s.mb with chans := modNth ch (fun c => { c with busy := true, pend := true, dbLen := len }) s.mb.chans, arrivals := s.mb.arrivals ++ [ch] },
      outs := .wirq 4 :: s.outs } :=
  (if_neg (by simp [hb, Nat.not_le.2 hc, hf, hg, Nat.not_lt.2 h1, Nat.not_lt.2 h2])).trans (if_pos hi)
end

/-- A channel that is not free, or has no generation, takes no doorbell. -/
theorem mbxDoorbell_ignored (h : (chanS s ch).cmdFree = false ∨ (chanS s ch).gen = 0) (len : Nat) : mbxDoorbell ch len s = s :=
  if_pos (by rcases h with h | h <;> simp [h])

/-! ## The mover (R227, R240) -/

theorem hmbTake_busy (h : (chanS s ch).move.isSome = true) : hmbTake ch s = s := if_pos h
theorem hmbTake_starts (h : (chanS s ch).move = none) : hmbTake ch s = modChan ch (fun c => { c with move := some .take, mvDone := false, mvErr := false }) s :=
  if_neg (by simp [h])

section
variable {disp : Nat → HostCall → State → State}

theorem hmbMoveDone_post (h : (chanS s ch).move = some .post) :
    hmbMoveDone disp ch s = modChan ch (fun c => { c with move := none, mvDone := true }) s := by
  unfold hmbMoveDone; dsimp only; rw [h]

section
variable (h : (chanS s ch).move = some .take)
include h
theorem hmbMoveDone_outside (hi : mvInside (chanS s ch) (chanS s ch).dbLen = false) :
    hmbMoveDone disp ch s = modChan ch (fun c => { c with move := none, mvErr := true }) s := by
  unfold hmbMoveDone; dsimp only; rw [h]; exact if_pos (by simp [hi])
/-- A TAKE inside SRAM: the frame lies there, PEND falls, and running firmware begins the checks. -/
theorem hmbMoveDone_take (hi : mvInside (chanS s ch) (chanS s ch).dbLen = true) (hw : fwWfw s = true) :
    hmbMoveDone disp ch s = checkArrived disp Config.kMbxChannels
      (modChan ch (fun c => { c with move := none, mvDone := true, pend := false, inSram := c.inSram || c.pend })
        { s with wd := { s.wd with sram := cellPuts 0#8 ((chanS s ch).addr - 0x10000000) (cellGets 0#8 0 (chanS s ch).dbLen (chanS s ch).cmdBuf) s.wd.sram } }) := by
  unfold hmbMoveDone; dsimp only; rw [h]
  exact (if_neg (by simp [hi])).trans (if_pos hw)
end

/-- The first frame to have arrived is checked once it lies in SRAM; until then it holds the later ones back (R238). -/
theorem checkArrived_front {r : List Nat} (h : s.mb.arrivals = ch :: r) (n : Nat) : checkArrived disp (n + 1) s =
    if (chanS s ch).inSram = true then checkArrived disp n (frameChecks disp ch
      (modChan ch (fun c => { c with inSram := false }) { s with mb := { s.mb with arrivals := r } })) else s := by
  rw [checkArrived, h]; dsimp only; cases (chanS s ch).inSram <;> rfl
end

/-! ## POST (R240) -/

/-- A POST whose bytes lie in SRAM, with the trace point of a response off: the job window entry, the response, and the reset that
the command asked for. -/
theorem hmbPost_posts {b : Bytes} (hb : (chanS s ch).busy = true) (hm : (chanS s ch).move = none) (hr : hmbRaw (chanS s ch) s = some b)
    (ht : bit s.lg.mask 1 = false) :
    let r := jobWinFill ch b { s with wd := { s.wd with sram := cellPuts 0#8 ((chanS s ch).addr - 0x10000000) b s.wd.sram },
                                      mb := { s.mb with arrivals := s.mb.arrivals.filter (· != ch) } }
    let t := if (chanS s ch).discard then modChan ch (Chan.freed b.length) r else hmbRespond ch b r
    hmbPost ch s = (chanS s ch).reset.elim t (softReset · t) := by
  unfold hmbPost; dsimp only
  rw [if_neg (by simp [hb, hm]), hr]; dsimp only
  rw [trace_masked (by exact ht)]
  cases (chanS s ch).reset <;> rfl

theorem hmbPost_outside (hb : (chanS s ch).busy = true) (hm : (chanS s ch).move = none) (hr : hmbRaw (chanS s ch) s = none) :
    hmbPost ch s = modChan ch (fun c => { c with mvErr := true }) s := by
  unfold hmbPost; dsimp only
  rw [if_neg (by simp [hb, hm]), hr]

/-- The entry of a channel's window that a response with tag `tag` answers takes it, with the result object it names (R228). -/
noncomputable def winFilled (tag : Nat) (b : Bytes) (ref : Option Nat) (e : WinEntry) : WinEntry :=
  if e.tag = tag && e.posted.isNone then { e with posted := some b, obj := ref } else e

/-- The channel once its response is readable (Table 10-3). -/
noncomputable def Chan.responded (b : Bytes) (ref : Option Nat) (x : Chan) : Chan :=
  { x.freed b.length with win := x.win.map (winFilled (field b 4 4) b ref), rspBuf := b, rspLen := b.length, lastTag := field b 4 4, rspValid := true }

/-- A response on a channel whose vector is off: the channel and the host's cause bit. -/
theorem hmbRespond_quiet (hi : (chanS s ch).irqEn = false) (ha : (chanS s ch).resetAfter = false) (b : Bytes) : hmbRespond ch b s =
    modFn 0 (fun f => { f with cause := setBit f.cause (16 + ch) true }) (modChan ch (Chan.responded b (chanS s ch).ref) s) := by
  unfold hmbRespond; dsimp only
  rw [if_neg (by simp [ha]), if_neg (by simp [hi])]; rfl

theorem dupRelease_built {c t : Nat} {f : Frame} {b : Bytes} (hd : (chanS s ch).dupOf = some (c, t)) (hf : (chanS s ch).frame = some f)
    (hb : dupReply f.opcode f.tag c t s = some b) : dupRelease ch s = modChan ch (fun x => { x with dupOf := none, built := some b }) s := by
  unfold dupRelease; rw [hd, hf]; dsimp only; rw [hb]

end

/-- Settles O29: each command by the branch of its meaning that the clause's hypotheses select. -/
theorem channelHandshakeAndMover : Obligations.ChannelHandshakeAndMover := by
  unfold Obligations.ChannelHandshakeAndMover
  refine ⟨fun ch off data s hc hb hl ho => congrArg Host.Outcome.next (mbxWrite_inside hc hb hl ho),
    fun ch off data s hc hb h => congrArg Host.Outcome.next (mbxWrite_unsupported hc hb h), ?doorbell,
    fun ch s hb => congrArg Host.Outcome.next (if_pos hb), fun ch s => rfl, fun ch s h => congrArg Host.Outcome.next (hmbTake_starts h),
    fun ch s h => congrArg Host.Outcome.next (hmbTake_busy h), fun ch s h hi => congrArg Host.Outcome.next (hmbMoveDone_outside h hi),
    fun ch s h hi hw => congrArg Host.Outcome.next (hmbMoveDone_take h hi hw),
    fun n ch r s h => ⟨fun hi => (checkArrived_front h n).trans (if_pos hi), fun hi => (checkArrived_front h n).trans (if_neg (ne_true_of_eq_false hi))⟩,
    fun ch s h => congrArg Host.Outcome.next (hmbMoveDone_post h), ?post, fun ch s hb hm hr => congrArg Host.Outcome.next (hmbPost_outside hb hm hr), ?ack,
    fun ch c t f b s hd hf hb => congrArg Host.Outcome.next (dupRelease_built hd hf hb)⟩
  case doorbell =>
    intro ch len s hc hb h1 h2
    exact ⟨fun hf => congrArg Host.Outcome.next (mbxDoorbell_ignored (.inl hf) len), fun hg => congrArg Host.Outcome.next (mbxDoorbell_ignored (.inr hg) len),
      fun hf hg hi => congrArg Host.Outcome.next (mbxDoorbell_taken hc hb h1 h2 hf hg hi)⟩
  case post =>
    intro ch b s hb hm hr ht
    have hpost := hmbPost_posts hb hm hr ht
    refine ⟨fun hn => ?_, fun k hk => ?_⟩
    · rw [hn] at hpost; exact congrArg Host.Outcome.next hpost
    · rw [hk] at hpost; exact ⟨_, congrArg Host.Outcome.next hpost, wardenReset_spec _ _ _, rfl, rfl⟩
  case ack =>
    intro ch b s hc hi ha
    let t := modChan ch (Chan.responded b (chanS s ch).ref) s
    have hlen : ch < (modFn 0 (fun f => { f with cause := setBit f.cause (16 + ch) true }) t).mb.chans.length := by
      rw [modFn_mb, modChan_chans, modNth_length]; exact hc
    refine ⟨_, rfl, ?_⟩
    have hchan : chanS (modChan ch (fun c => { c with rspValid := false }) (hmbRespond ch b s)) ch =
        { (chanS s ch).responded b (chanS s ch).ref with rspValid := false } := by
      rw [hmbRespond_quiet hi ha, chanS_modChan _ hlen]
      exact congrArg (fun c : Chan => { c with rspValid := false }) (chanS_modChan _ hc)
    dsimp only; rw [hchan]; exact ⟨rfl, rfl, rfl⟩

end Sys2Proof.Machine
end

section
/-! # The brake, firmware's loops and the telemetry page

The statement on BRAKE_N, the power monitor, the power cap and thermal loops, the telemetry page and the log flush. -/
open Sys2Proof
namespace Sys2Proof.Machine

@[simp] theorem setNotice_pkg (n : Nat) (s : State) : (setNotice n s).pkg = s.pkg := by unfold setNotice; dsimp only; split <;> rfl
@[simp] theorem logEvent_pkg (c u : Nat) (d : Bytes) (s : State) : (logEvent c u d s).pkg = s.pkg := by
  obtain ⟨_, _, _, e⟩ := logEvent_frame c u d s; rw [e]

section
variable {s : State}

theorem clocksRun_on (hm : s.pkg.st.main = true) (ht : s.pkg.tilePg = true) : clocksRun s = true := by simp [clocksRun, hm, ht]
theorem clocksRun_off (h : s.pkg.st.main = false ∨ s.pkg.tilePg = false) : clocksRun s = false := by
  rcases h with h | h <;> simp [clocksRun, h]

/-! ## The brake (R481) -/

/-- The PLDM event of the brake follows the telemetry period in CONFIDENTIAL, and else goes out at once (R488). -/
theorem brakeEvent_confidential (h : s.pkg.mode = .confidential) (v : Nat) : brakeEvent v s = s := if_pos (by simp [h])
theorem brakeEvent_open (h : s.pkg.mode ≠ .confidential) (v : Nat) : brakeEvent v s = pldmEvent 23 v s := if_neg (by simpa using h)

theorem brakeAssert_again (h : s.pw.brakeN = false) : brakeAssert s = s := if_pos (by simp [h])

section
variable (h : s.pw.brakeN = true)
include h
theorem brakeAssert_idle (hc : clocksRun s = false) :
    brakeAssert s = { s with pw := { s.pw with brakeN := false, brakeCount := min 65535 (s.pw.brakeCount + 1) } } :=
  (if_neg (by simp [h])).trans (if_neg (ne_true_of_eq_false hc))
theorem brakeAssert_forces (hc : clocksRun s = true) : brakeAssert s = brakeEvent 2 (logEvent 0x0702 0xFF [1#8] (setNotice 8 { s with pw := { s.pw with
    brakeN := false, brakeCount := min 65535 (s.pw.brakeCount + 1), brakeForce := true, brakeRamp := false, fbrk := 400, issueHalf := true, perBrake := true } })) :=
  (if_neg (by simp [h])).trans (if_pos hc)
theorem brakeDeassert_again : brakeDeassert s = s := if_pos h
theorem brakeRamp_steps (hb : s.pw.brakeForce = true ∨ s.pw.brakeRamp = true) : brakeRamp s = { s with pw := { s.pw with
    brakeForce := false, brakeRamp := decide (min 1900 (s.pw.fbrk + 100) < 1900), fbrk := min 1900 (s.pw.fbrk + 100),
    issueHalf := s.pw.issueHalf && decide (min 1900 (s.pw.fbrk + 100) ≤ 800) } } := if_neg (by rcases hb with hb | hb <;> simp [h, hb])
end

section
variable (h : s.pw.brakeN = false)
include h
theorem brakeDeassert_unbraked (hb : brakeOn s = false) : brakeDeassert s = { s with pw := { s.pw with brakeN := true } } :=
  (if_neg (ne_true_of_eq_false h)).trans (if_neg (ne_true_of_eq_false hb))
theorem brakeDeassert_holds (hb : brakeOn s = true) : brakeDeassert s = brakeEvent 1 (logEvent 0x0702 0xFF [0#8] { s with pw := { s.pw with
    brakeN := true, brakeForce := true, brakeRamp := false, fbrk := 400, issueHalf := true } }) :=
  (if_neg (ne_true_of_eq_false h)).trans (if_pos hb)
end

theorem brakeRamp_none (h : s.pw.brakeN = false ∨ (s.pw.brakeForce = false ∧ s.pw.brakeRamp = false)) : brakeRamp s = s := by
  refine if_pos ?_
  rcases h with h | ⟨h, g⟩
  · simp [h]
  · simp [h, g]

theorem fBrk_braked (h : brakeOn s = true) : fBrk s = 400 := if_pos h
/-- Under the brake every tile's clock is at its floor. -/
theorem tileClk_braked (h : brakeOn s = true) (t : Nat) : tileClk s t = 400 := by
  unfold tileClk; dsimp only; rw [fBrk_braked h]; omega

/-! ## The power cap loop (R473, R482) -/

/-- Firmware's loops do nothing without running tile clocks or without firmware. -/
theorem loops_stop (h : s.pkg.st.main = false ∨ s.pkg.tilePg = false ∨ fwWfw s = false) : (!clocksRun s || !fwWfw s) = true := by
  rcases h with h | h | h <;> simp [clocksRun, h]

section
variable (hm : s.pkg.st.main = true) (ht : s.pkg.tilePg = true) (hw : fwWfw s = true)
include hm ht hw

theorem loops_run : ¬ (!clocksRun s || !fwWfw s) = true := by simp [clocksRun_on hm ht, hw]

/-- With fewer than two good readings every tile's request is at the floor. -/
theorem capLoop_unread (hg : s.pw.monGood < 2) : capLoop s = setReqs (mapCap (fun _ => 400) s) :=
  (if_neg (loops_run hm ht hw)).trans (if_pos hg)

/-- The loop on the mean of the last samples: above the cap every request falls, or the floor is logged; below 95 % of it every request
rises. -/
theorem capLoop_mean (hg : 2 ≤ s.pw.monGood) (hs : s.pw.samples ≠ []) :
    let l := s.pw.samples.take 10
    let sum := l.foldl (· + ·) 0
    capLoop s = if l.length * pCap s < sum then
        if s.pw.tiles.all (fun x => x.capReq == 400) then logEvent 0x0703 0xFF (toLe 2 (sum / l.length) ++ toLe 2 (pCap s)) (setNotice 13 s)
        else setReqs (mapCap (fun c => max 400 (c - 50 * ((sum - l.length * pCap s + 50 * l.length - 1) / (50 * l.length)))) s)
      else if 20 * sum < 19 * l.length * pCap s then setReqs (mapCap (fun c => min 1900 (c + 50)) s) else setReqs s := by
  intro l sum
  have hl : ¬ l.length = 0 := by
    have := List.length_pos_iff.2 hs
    simp only [l, List.length_take]; omega
  exact (if_neg (loops_run hm ht hw)).trans ((if_neg (Nat.not_lt.2 hg)).trans (if_neg hl))

/-- The thermal loop while tiles run: one request per tile from its junction and the hottest stack (R483). -/
theorem thermLoop_runs : thermLoop s = setReqs { s with pw := { s.pw with
    tiles := s.pw.tiles.map (fun (x : TileP) =>
      let d := max (overBy x.tj (s.pw.tjt - 8)) (overBy (hotStack s) 90)
      { x with thermReq := if 0 < d then max 400 (x.thermReq - 50 * d) else if x.tj + 20 ≤ 10 * (s.pw.tjt - 8) then min 1900 (x.thermReq + 50) else x.thermReq }) } } :=
  if_neg (loops_run hm ht hw)
end

/-- The end of THERMAL_LOOP: firmware's views of the units of `s` are compared with the hardware's (R504). -/
noncomputable def viewsChecked (s t : State) : Res := .next ((coreUnits s).foldl (fun s u => viewCheck u none 3 s) t)

/-- The cap in force is the lowest of the rating, the host's, the manager's and the orphan's caps (R473). -/
theorem pCap_le (s : State) : pCap s ≤ rating s ∧ (∀ w, s.pw.pHost = some w → pCap s ≤ w) ∧ (∀ w, s.pw.pMgmt = some w → pCap s ≤ w)
    ∧ (s.mg.orphan = true → pCap s ≤ Config.kOrphanW) := by
  have hcap : pCap s = min (min (rating s) (s.pw.pHost.getD (rating s))) (min (s.pw.pMgmt.getD (rating s)) (if s.mg.orphan then Config.kOrphanW else rating s)) := rfl
  refine ⟨?rating, fun w h => ?host, fun w h => ?mgmt, fun h => ?orphan⟩ <;> rw [hcap]
  case rating => exact (min_le_left _ _).trans (min_le_left _ _)
  case host => rw [h]; exact (min_le_left _ _).trans (min_le_right _ _)
  case mgmt => rw [h]; exact (min_le_right _ _).trans (min_le_left _ _)
  case orphan => rw [h]; exact (min_le_right _ _).trans (min_le_right _ _)

/-! ## The telemetry page and the log flush (R220, R488, R507) -/

/-- The comparison with the thresholds leaves the page. -/
theorem threshCheck_tele (s : State) : (threshCheck s).hb.tele = s.hb.tele := by
  unfold threshCheck; dsimp only; split
  · obtain ⟨_, _, e⟩ := raiseHost_frame 0 4 13 { s with hb := { s.hb with crossed := [0, 1].filter (threshHit s) } }
    rw [e]
  · rfl

theorem telemUpdate_off (h : fwWfw s = false) : telemUpdate s = s := if_pos (by simp [h])

/-- What the page holds after a period: the sequence, the cap in force, and exact power in OPEN or stepped power in CONFIDENTIAL. -/
theorem telemUpdate_page (h : fwWfw s = true) : (telemUpdate s).hb.tele.seq = s.hb.tele.seq + 2 ∧ (telemUpdate s).hb.tele.pcap = pCap s
    ∧ (telemUpdate s).hb.tele.coarse = coarse s
    ∧ (telemUpdate s).hb.tele.pwr = if coarse s then floorTo Config.kPwrStepW s.pw.mean else s.pw.pwr := by
  unfold telemUpdate; rw [if_neg (by simp [h])]; dsimp only; rw [threshCheck_tele]
  exact ⟨rfl, rfl, rfl, rfl⟩

theorem coarse_eq (s : State) : coarse s = decide (s.pkg.mode = .confidential) := rfl

theorem logFlush_waiting (h : s.lg.waiting ≠ []) :
    logFlush s = fqAdd (.sector (s.lg.waiting.take 84)) { s with lg := { s.lg with waiting := s.lg.waiting.drop 84 } } := if_neg (by simpa using h)

end

/-- Settles O49: each event and each loop by the branch of its meaning that the clause's hypotheses select. -/
theorem brakeLoopsAndTelemetry : Obligations.BrakeLoopsAndTelemetry := by
  unfold Obligations.BrakeLoopsAndTelemetry
  refine ⟨fun s h => congrArg Host.Outcome.next (brakeAssert_again h), fun s h hc => congrArg Host.Outcome.next (brakeAssert_idle h (clocksRun_off hc)),
    ?assertConf, ?assertOpen, fun s h => congrArg Host.Outcome.next (brakeDeassert_again h),
    fun s h hb => congrArg Host.Outcome.next (brakeDeassert_unbraked h hb), ?deassertConf, fun t s h => tileClk_braked h t,
    fun s h => congrArg Host.Outcome.next (brakeRamp_none h), fun s h hb => congrArg Host.Outcome.next (brakeRamp_steps h hb),
    fun s => ⟨_, rfl, rfl, rfl, rfl, rfl⟩, fun w s hw => ⟨_, rfl, Nat.mod_eq_of_lt hw, rfl, rfl, rfl, rfl⟩, ?loopsOff, ?capMean,
    fun s hm ht hw hg => congrArg Host.Outcome.next (capLoop_unread hm ht hw hg), ?thermal, pCap_le,
    fun s h => ⟨congrArg Host.Outcome.next (telemUpdate_off h), congrArg Host.Outcome.next (if_neg (ne_true_of_eq_false h))⟩, ?page,
    fun s h hn => congrArg Host.Outcome.next ((if_pos h).trans (logFlush_waiting hn))⟩
  case assertConf =>
    intro s h hm ht hc
    exact congrArg Host.Outcome.next ((brakeAssert_forces h (clocksRun_on hm ht)).trans (brakeEvent_confidential (by rw [logEvent_pkg, setNotice_pkg]; exact hc) 2))
  case assertOpen =>
    intro s h hm ht hc
    exact ⟨_, congrArg Host.Outcome.next ((brakeAssert_forces h (clocksRun_on hm ht)).trans (brakeEvent_open (by rw [logEvent_pkg, setNotice_pkg]; exact hc) 2)),
      _, rfl, rfl⟩
  case deassertConf =>
    intro s h hb hc
    exact congrArg Host.Outcome.next ((brakeDeassert_holds h hb).trans (brakeEvent_confidential (by rw [logEvent_pkg]; exact hc) 1))
  case loopsOff =>
    intro s h
    have hstop := loops_stop h
    exact ⟨congrArg Host.Outcome.next (if_pos hstop), congrArg (viewsChecked s) (if_pos hstop)⟩
  case capMean =>
    intro s hm ht hw hg hs l sum
    have hloop := capLoop_mean hm ht hw hg hs
    refine ⟨fun hc hall => ?_, fun hc hany => ?_, fun hc hlow => ?_⟩ <;> refine congrArg Host.Outcome.next (hloop.trans ?_)
    · exact (if_pos hc).trans (if_pos (by simpa using hall))
    · exact (if_pos hc).trans (if_neg (by simpa using hany))
    · exact (if_neg (Nat.not_lt.2 hc)).trans (if_pos hlow)
  case thermal =>
    intro s hm ht hw
    exact congrArg (viewsChecked s) (thermLoop_runs hm ht hw)
  case page =>
    intro s h
    obtain ⟨hseq, hcap, hcoarse, hpwr⟩ := telemUpdate_page h
    refine ⟨_, rfl, hseq, hcap, hcoarse.trans (coarse_eq s), fun hn => hpwr.trans (if_neg ?_), fun hc => hpwr.trans (if_pos ?_)⟩
    · rw [coarse_eq]; simpa using hn
    · rw [coarse_eq]; simpa using hc

end Sys2Proof.Machine
end

section
/-! # The SPDM responder

The statements on the DOE capability, the negotiation, the evidence and the session of the SPDM responder. -/
open Sys2Proof
namespace Sys2Proof.Machine

/-! ## Data objects and replies (R213) -/

section
variable {s : State}

/-- A reply ends the object in progress, and changes nothing else of the responder but the responses it has given. -/
theorem doeReply_sd (ty : Nat) (p : Bytes) (s : State) :
    (doeReply ty p s).sd = { s.sd with busy := false, obj := [], resp := doeObj ty p :: s.sd.resp } := by
  unfold doeReply; dsimp only
  obtain ⟨_, _, e⟩ := raiseHost_frame 0 5 11
    (emit (.doe (doeObj ty p)) { s with sd := { s.sd with busy := false, obj := [], resp := doeObj ty p :: s.sd.resp } })
  rw [e]; rfl

/-- An object that the capability does not take: no link, one in progress, or an error that stands. -/
theorem doeObject_ignored (h : (fnS s 0).up = false ∨ s.sd.busy = true ∨ s.sd.err = true) (ws : List Word) : doeObject ws s = s := by
  refine if_pos ?_
  rcases h with h | h | h <;> simp [h]

/-- The object's length fits what it says of itself. -/
theorem doeObject_fits {ws : List Word} (h2 : 2 ≤ ws.length) (hm : ws.length ≤ 1040) (hl : (nth 0#32 ws 1).toNat % 2 ^ 18 = ws.length) :
    ¬ (decide (ws.length < 2) || decide (1040 < ws.length) || decide ((nth 0#32 ws 1).toNat % 2 ^ 18 ≠ ws.length)) = true := by
  simp only [Bool.or_eq_true, decide_eq_true_eq, not_or, ne_eq, not_not]
  exact ⟨⟨Nat.not_lt.2 h2, Nat.not_lt.2 hm⟩, hl⟩

section
variable {ws : List Word} (hu : (fnS s 0).up = true) (hb : s.sd.busy = false) (he : s.sd.err = false)
include hu hb he
theorem doeObject_reaches : ¬ (!(fnS s 0).up || s.sd.busy || s.sd.err) = true := by simp [hu, hb, he]
theorem doeObject_misfit (h : ws.length < 2 ∨ 1040 < ws.length ∨ (nth 0#32 ws 1).toNat % 2 ^ 18 ≠ ws.length) :
    doeObject ws s = { s with sd := { s.sd with err := true } } :=
  (if_neg (doeObject_reaches hu hb he)).trans (if_pos (by simpa [or_assoc] using h))
theorem doeObject_foreign (h2 : 2 ≤ ws.length) (hm : ws.length ≤ 1040) (hl : (nth 0#32 ws 1).toNat % 2 ^ 18 = ws.length)
    (hv : (nth 0#32 ws 0).toNat % 2 ^ 16 ≠ 1) : doeObject ws s = s :=
  (if_neg (doeObject_reaches hu hb he)).trans ((if_neg (doeObject_fits h2 hm hl)).trans (if_pos hv))

/-- Discovery of an index that the capability has: its type and the next index. -/
theorem doeObject_discovery {i : Nat} (hi : i ≤ 2) : doeObject [1#32, 3#32, BitVec.ofNat 32 i] s =
    doeReply 0 (toLe 2 1 ++ toLe 1 i ++ toLe 1 ((i + 1) % 3)) { s with sd := { s.sd with obj := [1#32, 3#32, BitVec.ofNat 32 i] } } := by
  have hf : field (([1#32, 3#32, BitVec.ofNat 32 i].drop 2).flatMap (fun w => toLe 4 w.toNat)) 0 1 = i := by
    simp [field, toLe, le]; omega
  have htype : (nth 0#32 [1#32, 3#32, BitVec.ofNat 32 i] 0).toNat = 1 := rfl
  refine (if_neg (doeObject_reaches hu hb he)).trans ((if_neg (doeObject_fits (by simp) (by simp) rfl)).trans ((if_neg (not_not.2 rfl)).trans ?_))
  dsimp only
  rw [hf, htype, if_pos hi]; rfl
end
end

/-! ## Requests as they reach the responder (R216, R217) -/

section
variable {code : Nat} {sg : Bool} {m : SpdmMsg} {f : State → State} {s : State}

/-- Where the responder does not answer, a request changes nothing. -/
theorem spdmRequest_ignored (h : (fnS s 0).up = false ∨ s.sd.busy = true ∨ s.pkg.st = .warden) : spdmRequest code m sg f s = s := by
  unfold spdmRequest
  rcases h with h | h | h
  · exact if_pos (by simp [h])
  · exact if_pos (by simp [h])
  · have hg : spdmGate code sg s = none := by unfold spdmGate; rw [h]
    rw [hg]; exact ite_self _

/-- What the beginning of a request changes: the object in progress, the transcript, and a secured one's sequence number. -/
theorem spdmBegin_frame (code : Nat) (m : SpdmMsg) (s : State) : ∃ x, spdmBegin code m s =
    { s with sd := { s.sd with busy := true, tok := s.sd.tok + 1, transcript := s.sd.transcript ++ spdmBytes code m, sess := x } } := by
  unfold spdmBegin; dsimp only; split <;> exact ⟨_, rfl⟩
@[simp] theorem spdmBegin_stage (code : Nat) (m : SpdmMsg) (s : State) : (spdmBegin code m s).sd.stage = s.sd.stage := by
  obtain ⟨_, e⟩ := spdmBegin_frame code m s; rw [e]
@[simp] theorem spdmBegin_sessCount (code : Nat) (m : SpdmMsg) (s : State) : (spdmBegin code m s).sd.sessCount = s.sd.sessCount := by
  obtain ⟨_, e⟩ := spdmBegin_frame code m s; rw [e]
@[simp] theorem spdmBegin_chain (code : Nat) (m : SpdmMsg) (s : State) : spdmChain (spdmBegin code m s) = spdmChain s := by
  obtain ⟨_, e⟩ := spdmBegin_frame code m s; rw [e]; rfl
@[simp] theorem spdmBegin_slot (code : Nat) (m : SpdmMsg) (s : State) (i : Nat) : slotS (spdmBegin code m s) i = slotS s i := by
  obtain ⟨_, e⟩ := spdmBegin_frame code m s; rw [e]; rfl
@[simp] theorem spdmBegin_room (code : Nat) (m : SpdmMsg) (s : State) (n : Nat) : pqRoom n (spdmBegin code m s) = pqRoom n s := by
  obtain ⟨_, e⟩ := spdmBegin_frame code m s; rw [e]; rfl
@[simp] theorem spdmBegin_ks (code : Nat) (m : SpdmMsg) (s : State) : (spdmBegin code m s).ks = s.ks := by
  obtain ⟨_, e⟩ := spdmBegin_frame code m s; rw [e]
@[simp] theorem spdmBegin_ms (code : Nat) (m : SpdmMsg) (s : State) : (spdmBegin code m s).ms = s.ms := by
  obtain ⟨_, e⟩ := spdmBegin_frame code m s; rw [e]
theorem spdmBegin_sess_plain (a : m.secured = false) : (spdmBegin code m s).sd.sess = s.sd.sess := by rw [spdmBegin_plain a]
/-- A secured request consumes its sequence number (R216). -/
theorem spdmBegin_sess_secured {x : Sess} (a : m.secured = true) (hx : s.sd.sess = some x) :
    (spdmBegin code m s).sd.sess = some { x with rxSeq := x.rxSeq + 1 } := by
  unfold spdmBegin; dsimp only; rw [a, hx]

/-- A request in the session. -/
theorem spdmRequest_secured {x : Sess} (h : SpdmOn s) (a : m.secured = true) (hx : s.sd.sess = some x) :
    spdmRequest code m sg f s = f (spdmBegin code m s) := by
  obtain ⟨hup, hbusy, -⟩ := id h
  unfold spdmRequest; rw [if_neg (by simp [hup, hbusy]), spdmGate_on h]
  exact if_neg (by rw [spdmBegin_sess_secured a hx]; simp)

/-- The requests of R215 before the negotiation and after it. -/
theorem spdmNegotiated_early (h : s.sd.stage < 3) : spdmNegotiated m f s = spdmReply m.secured (spdmErr 4) s := if_pos h
theorem spdmNegotiated_done (h : 3 ≤ s.sd.stage) : spdmNegotiated m f s = f s := if_neg (Nat.not_lt.2 h)

theorem spdmRequest_early (h : SpdmOn s) (a : m.secured = false) (hn : s.sd.stage < 3) :
    spdmRequest code m sg (spdmNegotiated m f) s = spdmReply false (spdmErr 4) (spdmBegin code m s) := by
  rw [spdmRequest_on h a, spdmNegotiated_early (by rwa [spdmBegin_stage]), a]
theorem spdmRequest_negotiated (h : SpdmOn s) (a : m.secured = false) (hn : 3 ≤ s.sd.stage) :
    spdmRequest code m sg (spdmNegotiated m f) s = f (spdmBegin code m s) := by
  rw [spdmRequest_on h a, spdmNegotiated_done (by rwa [spdmBegin_stage])]
theorem spdmRequest_inSession {x : Sess} (h : SpdmOn s) (a : m.secured = true) (hn : 3 ≤ s.sd.stage) (hx : s.sd.sess = some x) :
    spdmRequest code m sg (spdmNegotiated m f) s = f (spdmBegin code m s) := by
  rw [spdmRequest_secured h a hx, spdmNegotiated_done (by rwa [spdmBegin_stage])]

/-- A reply outside the session ends the object and keeps the stage. -/
theorem spdmReply_plain_sd (p : Bytes) (s : State) : (spdmReply false p s).sd =
    { s.sd with transcript := s.sd.transcript ++ p, busy := false, obj := [], resp := doeObj 1 p :: s.sd.resp } := doeReply_sd ..

/-- A reply in the session keeps the count of sessions. -/
theorem spdmReply_sessCount (b : Bool) (p : Bytes) (s : State) : (spdmReply b p s).sd.sessCount = s.sd.sessCount := by
  unfold spdmReply; dsimp only; split <;> rw [doeReply_sd]
end

/-! ## The negotiation (R214, Table 9-12) -/

section
variable {m : SpdmMsg} {s : State} (h : SpdmOn s) (a : m.secured = false)
include h a

/-- GET_VERSION outside the session ends it and starts the transcript again (R216). -/
theorem spdmVersion_plain : spdmVersion m s =
    let r := sessEnd (spdmBegin 0x84 m s)
    spdmReply false ([0x10#8, 4#8, 0#8, 0#8, 0#8, 1#8] ++ toLe 2 0x1300)
      { r with sd := { r.sd with stage := 1, transcript := [0x10#8, 0x84#8] ++ toLe 1 m.p1 ++ toLe 1 m.p2 ++ m.body } } :=
  (spdmRequest_on h a).trans (if_neg (ne_true_of_eq_false a))

theorem spdmCaps_unexpected (hs : s.sd.stage ≠ 1) : spdmCaps m s = spdmReply false (spdmErr 4) (spdmBegin 0xE1 m s) :=
  (spdmRequest_on h a).trans ((if_pos (by simp [hs])).trans (by rw [a]))
theorem spdmCaps_answers (hs : s.sd.stage = 1) : spdmCaps m s =
    spdmReply false (spdmRsp 0x61 0 0 ([0#8] ++ toLe 1 18 ++ toLe 2 0 ++ toLe 4 0x2D6 ++ toLe 4 4096 ++ toLe 4 4096))
      { spdmBegin 0xE1 m s with sd := { (spdmBegin 0xE1 m s).sd with stage := 2 } } :=
  (spdmRequest_on h a).trans (if_neg (by simp [hs, a]))

theorem spdmAlgs_unexpected (hs : s.sd.stage ≠ 2) : spdmAlgs m s = spdmReply false (spdmErr 4) (spdmBegin 0xE3 m s) :=
  (spdmRequest_on h a).trans ((if_pos (by simp [hs])).trans (by rw [a]))
theorem spdmAlgs_answers (hs : s.sd.stage = 2) : ∃ p, spdmAlgs m s =
    spdmReply false p { spdmBegin 0xE3 m s with sd := { (spdmBegin 0xE3 m s).sd with stage := 3 } } :=
  ⟨_, (spdmRequest_on h a).trans (if_neg (by simp [hs, a]))⟩

/-! ## Certificates (R215) -/

section
variable (hn : 3 ≤ s.sd.stage)
include hn

theorem spdmDigests_chain {ch : Bytes} (hc : spdmChain s = some ch) :
    spdmDigests m s = spdmReply false (spdmRsp 1 1 1 (Config.sha384 ch)) (spdmBegin 0x81 m s) := by
  refine (spdmRequest_negotiated h a hn).trans ?_
  rw [spdmBegin_chain, hc, a]

theorem spdmCert_slot (hp : m.p1 % 16 ≠ 0) : spdmCert m s = spdmReply false (spdmErr 1) (spdmBegin 0x82 m s) :=
  (spdmRequest_negotiated h a hn).trans ((if_pos (by simp [hp])).trans (by rw [a]))
/-- A portion of slot 0's chain from an offset inside it. -/
theorem spdmCert_portion {ch : Bytes} (hc : spdmChain s = some ch) (hp : m.p1 % 16 = 0) (hl : m.body.length = 4) (ho : field m.body 0 2 < ch.length) :
    let n := min (min (field m.body 2 2) 4088) (ch.length - field m.body 0 2)
    spdmCert m s = spdmReply false (spdmRsp 2 0 0 (toLe 2 n ++ toLe 2 (ch.length - field m.body 0 2 - n) ++ slice ch (field m.body 0 2) n)) (spdmBegin 0x82 m s) := by
  refine (spdmRequest_negotiated h a hn).trans ((if_neg (by simp [hp, hl])).trans ?_)
  rw [spdmBegin_chain, hc]
  exact (if_neg (Nat.not_le.2 ho)).trans (by rw [a])

/-! ## Evidence (R219, R307) -/

/-- CHALLENGE of slot 0 with no summary: the response that is signed, after its nonce. -/
theorem spdmChallenge_plain {ch : Bytes} (hc : spdmChain s = some ch) (hp : m.p1 = 0) (hl : m.body.length = 40) (h0 : m.p2 = 0) :
    spdmChallenge m s = spdmSign "responder-challenge_auth signing" false
      (spdmRsp 3 0 1 (Config.sha384 ch ++ (drawBytes 32 (spdmBegin 0x83 m s)).1 ++ toLe 2 0 ++ slice m.body 32 8)) (drawBytes 32 (spdmBegin 0x83 m s)).2 := by
  refine (spdmRequest_negotiated h a hn).trans ((if_neg (by simp [hp, hl, h0])).trans ?_)
  rw [spdmBegin_chain, hc, a, h0]
  have hsum : ∀ t, summaryHash 0 t = [] := fun _ => rfl
  dsimp only [drawBytes]; rw [hsum, List.append_nil]

/-- GET_MEASUREMENTS of an index that names no block. -/
theorem spdmMeas_badIndex (h33 : 33 < m.p2) (hff : m.p2 ≠ 0xFF) : spdmMeas m s = spdmReply false (spdmErr 1) (spdmBegin 0xE0 m s) :=
  (spdmRequest_negotiated h a hn).trans ((if_pos (by simp [hff, Nat.not_le.2 h33])).trans (by rw [a]))

section
variable (hp : m.p1 % 2 = 0) (hl : m.body.length = 8)
include hp hl

theorem spdmMeas_count (h0 : m.p2 = 0) : spdmMeas m s =
    spdmReply false (spdmRsp 0x60 33 0 (toLe 1 0 ++ toLe 3 0 ++ (drawBytes 32 (spdmBegin 0xE0 m s)).1 ++ toLe 2 0 ++ m.body)) (drawBytes 32 (spdmBegin 0xE0 m s)).2 := by
  have hsg : (m.p1 % 2 == 1) = false := by simp [hp]
  refine (spdmRequest_negotiated h a hn).trans ?_
  dsimp only
  rw [hsg, h0, a]
  refine (if_neg (by simp [hl])).trans ?_
  simp [drawBytes]
theorem spdmMeas_block (h1 : 1 ≤ m.p2) (h32 : m.p2 ≤ 32) :
    let r := measBlock m.p2 (nth {} s.ms.slots (m.p2 - 1)).val
    spdmMeas m s = spdmReply false (spdmRsp 0x60 0 0 (toLe 1 1 ++ toLe 3 r.length ++ r ++ (drawBytes 32 (spdmBegin 0xE0 m s)).1 ++ toLe 2 0 ++ m.body))
      (drawBytes 32 (spdmBegin 0xE0 m s)).2 := by
  have hsg : (m.p1 % 2 == 1) = false := by simp [hp]
  have hn0 : m.p2 ≠ 0 := by omega
  have hn33 : m.p2 ≠ 33 := by omega
  have hnff : m.p2 ≠ 0xFF := by omega
  refine (spdmRequest_negotiated h a hn).trans ?_
  dsimp only
  rw [hsg, a]
  refine (if_neg (by simp [hl]; omega)).trans ?_
  simp [drawBytes, hn0, hn33, hnff]
end

/-! ## The session (R216) -/

theorem spdmKeyExchange_open (hx : s.sd.sess.isSome = true) : spdmKeyExchange m s = spdmReply false (spdmErr 0x0A) (spdmBegin 0xE4 m s) :=
  (spdmRequest_negotiated h a hn).trans ((if_pos (by rwa [spdmBegin_sess_plain a])).trans (by rw [a]))

/-- A well-formed KEY_EXCHANGE with a chain, a good DRBG and a free scratch slot: a PKE entry over a fresh input, where the queue has room. -/
theorem spdmKeyExchange_ready {ch : Bytes} (hx : s.sd.sess = none) (h2 : m.p2 = 0) (h1 : m.p1 = 0) (hl : 134 ≤ m.body.length)
    (hf : m.body.length = 134 + field m.body 132 2) (hc : spdmChain s = some ch) (hd : s.ks.drbgOk = true) (he : (slotS s 62).empty = true) :
    let b := spdmBegin 0xE4 m s
    spdmKeyExchange m s = if pqRoom 1 s = true then pqAdd 1 (.spdm (drawBytes 64 b).2.sd.tok 1 false (toLe 1 m.p1 ++ m.body)) [⟨0x10, [], some 62, none, 0⟩]
      (commitSlot 62 (drawBytes 64 b).1 3 16 false (drawBytes 64 b).2) else spdmReply false (spdmErr 3) b := by
  refine (spdmRequest_negotiated h a hn).trans ((if_neg (by rw [spdmBegin_sess_plain a, hx]; simp)).trans ((if_neg ?_).trans ((if_neg ?_).trans ?_)))
  · simp [h2, h1, Nat.not_lt.2 hl, ← hf]
  · rw [spdmBegin_chain, spdmBegin_ks, spdmBegin_slot, hc, hd, he]; simp
  · rw [spdmBegin_room]; cases pqRoom 1 s <;> rfl

/-- FINISH and END_SESSION outside the session are refused (R216). -/
theorem spdmFinish_plain : spdmFinish m s = spdmReply false (spdmErr 0x0B) (spdmBegin 0xE5 m s) := by
  refine (spdmRequest_negotiated h a hn).trans ?_
  rw [a]
theorem spdmEnd_plain : spdmEnd m s = spdmReply false (spdmErr 0x0B) (spdmBegin 0xEC m s) :=
  (spdmRequest_negotiated h a hn).trans ((if_neg (by simp [a])).trans (by rw [a]))
end
end

section
variable {m : SpdmMsg} {x : Sess} {s : State} (h : SpdmOn s) (a : m.secured = true) (hn : 3 ≤ s.sd.stage) (hx : s.sd.sess = some x)
include h a hn hx

/-- END_SESSION in the open session. -/
theorem spdmEnd_ends (ho : x.opened = true) : spdmEnd m s = sessEnd (spdmReply true (spdmRsp 0x6C 0 0 []) (spdmBegin 0xEC m s)) :=
  (spdmRequest_inSession h a hn hx).trans (if_pos (by rw [spdmBegin_sess_secured a hx]; simp [a, ho]))

/-- The session that FINISH opens: the data keys begin with their first messages (R216). -/
noncomputable def finished (x : Sess) (b : State) : State :=
  let t := spdmReply true (spdmRsp 0x65 0 0 []) b
  commitSlot 8 (slice (Config.std 20 [(slotS t 8).content, t.sd.transcript]) 0 48) 2 6 false
    { t with sd := { t.sd with sess := some { x with opened := true, rxSeq := 0, txSeq := 0 }, sessCount := t.sd.sessCount + 1, kgens := [] } }

/-- FINISH in the session that KEY_EXCHANGE began, by the requester's verify data. -/
theorem spdmFinish_verifies (ho : x.opened = false) : spdmFinish m s =
    if Config.stdOk 19 [(slotS s 8).content, (spdmBegin 0xE5 m s).sd.transcript, m.body] = true then finished x (spdmBegin 0xE5 m s)
    else sessEnd (spdmReply true (spdmErr 6) (spdmBegin 0xE5 m s)) := by
  refine (spdmRequest_inSession h a hn hx).trans ?_
  rw [a, spdmBegin_sess_secured a hx, spdmBegin_slot]
  refine (if_neg (by simp [ho])).trans ?_
  cases Config.stdOk 19 [(slotS s 8).content, (spdmBegin 0xE5 m s).sd.transcript, m.body] <;> rfl
end

/-- A request that the responder does not know (R215). -/
theorem spdmOther_answers {code : Nat} {m : SpdmMsg} {s : State} (h : SpdmOn s) : spdmOther code m s = spdmReply m.secured (spdmErr 7) (spdmBegin code m s) := by
  obtain ⟨hup, hbusy, -⟩ := id h
  exact if_neg (by simp [hup, hbusy, spdmGate_on h])

theorem spdmSign_room {s : State} (h : pqRoom 1 s = true) (ctx : String) (b : Bool) (p : Bytes) : spdmSign ctx b p s =
    pqAdd 1 (.spdm s.sd.tok 0 b p) [⟨0x12, [spdmSigned ctx (s.sd.transcript ++ p)], some 1, none, 0⟩] s := if_neg (by simp [h])
theorem spdmSign_full {s : State} (h : pqRoom 1 s = false) (ctx : String) (b : Bool) (p : Bytes) : spdmSign ctx b p s = spdmReply b (spdmErr 3) s :=
  if_pos (by simp [h])

/-- Settles O57: objects by the checks of their dwords, requests by the stage of the negotiation. -/
theorem doeObjectsAndNegotiation : Obligations.DoeObjectsAndNegotiation := by
  unfold Obligations.DoeObjectsAndNegotiation
  refine ⟨fun ws s h => congrArg Host.Outcome.next (doeObject_ignored h ws), fun ws s hu hb he => ⟨fun h => congrArg Host.Outcome.next (doeObject_misfit hu hb he h),
      fun h2 hm hl hv => congrArg Host.Outcome.next (doeObject_foreign hu hb he h2 hm hl hv)⟩,
    fun i s hi hu hb he => congrArg Host.Outcome.next (doeObject_discovery hu hb he hi), fun s => rfl, ?ignored, ?negotiation, ?chain,
    fun code m s h => congrArg Host.Outcome.next (spdmOther_answers h)⟩
  case ignored =>
    intro m s h
    have hi : ∀ code sg f, Host.Outcome.next (spdmRequest code m sg f s) = (.next s : Res) := fun _ _ _ => congrArg Host.Outcome.next (spdmRequest_ignored h)
    exact ⟨hi .., hi .., hi .., hi .., hi .., hi .., hi .., hi ..⟩
  case negotiation =>
    intro m s h a
    refine ⟨congrArg Host.Outcome.next (spdmVersion_plain h a), fun hs => congrArg Host.Outcome.next (spdmCaps_unexpected h a hs),
      fun hs => congrArg Host.Outcome.next (spdmCaps_answers h a hs), fun hs => congrArg Host.Outcome.next (spdmAlgs_unexpected h a hs), fun hs => ?_, fun hs => ?_⟩
    · obtain ⟨p, e⟩ := spdmAlgs_answers h a hs
      exact ⟨_, congrArg Host.Outcome.next e, by rw [spdmReply_plain_sd], by rw [spdmReply_plain_sd]⟩
    · have he : ∀ code sg f, Host.Outcome.next (spdmRequest code m sg (spdmNegotiated m f) s) = (.next (spdmReply false (spdmErr 4) (spdmBegin code m s)) : Res) :=
        fun _ _ _ => congrArg Host.Outcome.next (spdmRequest_early h a hs)
      exact ⟨he .., he .., he .., he .., he ..⟩
  case chain =>
    intro m ch s h a hn hc
    exact ⟨congrArg Host.Outcome.next (spdmDigests_chain h a hn hc), fun hp hl ho => congrArg Host.Outcome.next (spdmCert_portion h a hn hc hp hl ho),
      fun hp => congrArg Host.Outcome.next (spdmCert_slot h a hn hp)⟩

/-- Settles O58: each request after the negotiation by the branch of its meaning, in the session or outside it. -/
theorem spdmEvidenceAndSession : Obligations.SpdmEvidenceAndSession := by
  unfold Obligations.SpdmEvidenceAndSession
  refine ⟨?challenge, ?measurements, ?keyExchange, ?finish,
    fun m s h a hn => ⟨congrArg Host.Outcome.next (spdmFinish_plain h a hn), congrArg Host.Outcome.next (spdmEnd_plain h a hn)⟩,
    fun m x s h a hn hx ho => congrArg Host.Outcome.next (spdmEnd_ends h a hn hx ho), fun s _ => sessEnd_sess s⟩
  case challenge =>
    intro m ch s h a hn hc hp hl h0 b n t p
    have hroom : pqRoom 1 t = pqRoom 1 s := spdmBegin_room 0x83 m s 1
    have hsign := spdmChallenge_plain h a hn hc hp hl h0
    exact ⟨fun hr => congrArg Host.Outcome.next (hsign.trans (spdmSign_full (hroom.trans hr) ..)),
      fun hr => congrArg Host.Outcome.next (hsign.trans (spdmSign_room (hroom.trans hr) ..))⟩
  case measurements =>
    intro m s h a hn hp hl
    exact ⟨fun h0 => congrArg Host.Outcome.next (spdmMeas_count h a hn hp hl h0), fun h1 h32 => congrArg Host.Outcome.next (spdmMeas_block h a hn hp hl h1 h32),
      fun h33 hff => congrArg Host.Outcome.next (spdmMeas_badIndex h a hn h33 hff)⟩
  case keyExchange =>
    intro m ch s h a hn
    refine ⟨fun hx => congrArg Host.Outcome.next (spdmKeyExchange_open h a hn hx), fun hx h2 h1 hl hf hc hd he hr => ?_, fun hx h2 h1 hl hf hc hd he hr => ?_⟩ <;>
      refine congrArg Host.Outcome.next ((spdmKeyExchange_ready h a hn hx h2 h1 hl hf hc hd he).trans ?_)
    · exact if_pos hr
    · exact if_neg (ne_true_of_eq_false hr)
  case finish =>
    intro m x s h a hn hx ho
    have hfin := spdmFinish_verifies h a hn hx ho
    refine ⟨fun hv => congrArg Host.Outcome.next (hfin.trans (if_neg (ne_true_of_eq_false hv))), fun hv => ⟨_, congrArg Host.Outcome.next (hfin.trans (if_pos hv)), rfl, ?_, rfl⟩⟩
    exact congrArg (· + 1) ((spdmReply_sessCount ..).trans (spdmBegin_sessCount ..))

end Sys2Proof.Machine
end

section
/-! # The queue of waiting commands

No command adds to or takes from `State.pending` (R221, log entry 56): one lemma per operation of the model says that the state it
answers holds the queue it was given, in the order of the model's files, and `exec_keepsQueue` cites them row by row. The
lemmas are `@[simp]`, so that an operation's proof unfolds that operation alone. -/

open Sys2Proof
namespace Sys2Proof.Machine

/-! ## Branches and folds -/

section
variable {c : Prop} [Decidable c] {q : List Instr}

@[simp] theorem ite_pending (a b : State) : (if c then a else b).pending = if c then a.pending else b.pending := apply_ite ..
@[simp] theorem ite_cmdRes (a b : CmdRes) : (if c then a else b).s = if c then a.s else b.s := apply_ite ..
@[simp] theorem ite_snd {α : Type} (a b : α × State) : (if c then a else b).2 = if c then a.2 else b.2 := apply_ite ..
@[simp] theorem ite_fst {α : Type} (a b : State × α) : (if c then a else b).1 = if c then a.1 else b.1 := apply_ite ..

/-- For a branch with a `match` in it, which the rewriting by `ite_pending` does not enter. -/
theorem ite_keeps {a b : State} (ha : a.pending = q) (hb : b.pending = q) : (if c then a else b).pending = q := by
  split <;> assumption
theorem ite_keeps_s {a b : CmdRes} (ha : a.s.pending = q) (hb : b.s.pending = q) : (if c then a else b).s.pending = q := by
  split <;> assumption
theorem of_ite_some {α : Type} {a t : α} {o : Option α} (h : (if c then some a else o) = some t) : a = t ∨ o = some t := by
  split at h
  · exact .inl (Option.some.inj h)
  · exact .inr h
end

@[simp] theorem foldl_pending {α : Type} (f : State → α → State) (hf : ∀ s x, (f s x).pending = s.pending) (l : List α) (s : State) :
    (l.foldl f s).pending = s.pending := by
  induction l generalizing s with
  | nil => rfl
  | cons a l ih => exact (ih _).trans (hf s a)
theorem foldl_fst_pending {α β : Type} (f : State × β → α → State × β) (hf : ∀ p x, (f p x).1.pending = p.1.pending) (l : List α)
    (p : State × β) : (l.foldl f p).1.pending = p.1.pending := by
  induction l generalizing p with
  | nil => rfl
  | cons a l ih => exact (ih _).trans (hf p a)

@[simp] theorem cmdOk_s (s : State) (b : Bytes) : (cmdOk s b).s = s := rfl
@[simp] theorem cmdFail_s (s : State) (st detail : Nat) : (cmdFail s st detail).s = s := rfl
@[simp] theorem cmdWait_s (s : State) : (cmdWait s).s = s := rfl

/-! ## The operations, by the model's files -/

section
variable (code a v off d cause e cmd k typ n i u idx len p t jid tag detail op word st ch page : Nat) (b data : Bytes) (m : SpdmMsg) (c : HostCall) (w : Walk) (ok : Bool) (s : State)

/-! ### Ops -/

@[simp] theorem wdBusError_pending : (wdBusError s).pending = s.pending := rfl
@[simp] theorem wdOk_pending : (wdOk s).pending = s.pending := rfl
@[simp] theorem wdStall_pending : (wdStall a v s).pending = s.pending := rfl
@[simp] theorem unitPump_pending : (unitPump u s).pending = s.pending := by
  unfold unitPump
  dsimp only
  split <;> simp
@[simp] theorem unitCmd_pending (p : Bytes) : (unitCmd u op p s).pending = s.pending := by simp [unitCmd]
@[simp] theorem sendVec_pending : (sendVec d v s).pending = s.pending := by simp [sendVec]
@[simp] theorem raiseHost_pending (b : Nat) : (raiseHost d b v s).pending = s.pending := by simp [raiseHost]
@[simp] theorem pldmEvent_pending (sensor value : Nat) : (pldmEvent sensor value s).pending = s.pending := by
  unfold pldmEvent
  dsimp only
  split <;> simp
@[simp] theorem logVector_pending : (logVector s).pending = s.pending := by simp [logVector]
@[simp] theorem logWith_pending (flags unit : Nat) : (logWith flags code unit data s).pending = s.pending := by simp [logWith]
@[simp] theorem logEvent_pending (unit : Nat) : (logEvent code unit data s).pending = s.pending := by simp [logEvent]
@[simp] theorem traceLink_pending : (traceLink u p s).pending = s.pending := by simp [traceLink]
@[simp] theorem portsLeave_pending : (portsLeave u s).pending = s.pending := by simp [portsLeave]
@[simp] theorem announce_pending : (announce s).pending = s.pending := by simp [announce]
@[simp] theorem setStateIn_pending (m : Mode) (st : PState) : (setStateIn m st cause s).pending = s.pending := by simp [setStateIn]
@[simp] theorem setState_pending (st : PState) : (setState st cause s).pending = s.pending := by simp [setState]
@[simp] theorem setMode_pending (m : Mode) : (setMode m s).pending = s.pending := by simp [setMode]
@[simp] theorem commitSlot_pending (key : Bytes) (origin use : Nat) (lock : Bool) : (commitSlot i key origin use lock s).pending = s.pending := rfl
@[simp] theorem sealCut_pending : (sealCut s).pending = s.pending := rfl
@[simp] theorem dgEnd_pending (ecode : Nat) : (dgEnd ecode s).pending = s.pending := by simp [dgEnd]
@[simp] theorem pkCut_pending : (pkCut i s).pending = s.pending := by
  unfold pkCut
  split <;> simp
@[simp] theorem pkCutAll_pending : (pkCutAll s).pending = s.pending := by simp [pkCutAll]
@[simp] theorem zeroSlot_pending (readBackBad : Bool) : (zeroSlot i readBackBad s).pending = s.pending := by simp [zeroSlot]
@[simp] theorem zeroSlots_pending (l : List Nat) : (zeroSlots l s).pending = s.pending := by simp [zeroSlots]
@[simp] theorem zeroAllSlots_pending : (zeroAllSlots s).pending = s.pending := by simp [zeroAllSlots]
@[simp] theorem setNotice_pending (b : Nat) : (setNotice b s).pending = s.pending := by simp [setNotice]
@[simp] theorem setAlarm_pending (b : Nat) : (setAlarm b s).pending = s.pending := by simp [setAlarm]
@[simp] theorem msExtend_pending (kind : Nat) (input : Bytes) : (msExtend n kind typ input s).pending = s.pending := by simp [msExtend]
@[simp] theorem msRecord_pending (rec : Bytes) : (msRecord n rec s).pending = s.pending := by simp [msRecord]
@[simp] theorem msLock_pending : (msLock n s).pending = s.pending := rfl

/-! ### Otp -/

@[simp] theorem otAccept_pending : (otAccept s).pending = s.pending := rfl
@[simp] theorem otEnd_pending : (otEnd e s).pending = s.pending := rfl
@[simp] theorem otBusy_pending : (otBusy s).pending = s.pending := rfl
@[simp] theorem otBegin_pending (sel : Nat) (ts : List (Nat × Nat)) : (otBegin cmd sel ts s).pending = s.pending := by simp [otBegin]
@[simp] theorem otRead_pending : (otRead s).pending = s.pending := by simp [otRead]
@[simp] theorem otProg_pending : (otProg s).pending = s.pending := by
  unfold otProg
  refine ite_keeps (by simp) (ite_keeps (by simp) ?_)
  split <;> simp
@[simp] theorem otGen_pending : (otGen s).pending = s.pending := by simp [otGen]
@[simp] theorem otIncr_pending (c : Nat) : (otIncr c t s).pending = s.pending := by simp [otIncr]
@[simp] theorem otRevoke_pending : (otRevoke k s).pending = s.pending := by simp [otRevoke]
@[simp] theorem otLc_pending (sel : Nat) : (otLc sel s).pending = s.pending := by simp [otLc]
@[simp] theorem otRepair_pending : (otRepair s).pending = s.pending := by simp [otRepair]
@[simp] theorem otComplete_pending (ps : List PulseOut) : (otComplete ps s).pending = s.pending := by
  unfold otComplete
  split <;> simp
@[simp] theorem otWindowExit_pending : (otWindowExit s).pending = s.pending := by simp [otWindowExit]

/-! ### Sequencer -/

@[simp] theorem ramPut_pending (w : Step64) : (ramPut i w s).pending = s.pending := rfl
@[simp] theorem sqStop_pending (f : Seqr → Seqr) : (sqStop f s).pending = s.pending := by simp [sqStop]
@[simp] theorem sqError_pending : (sqError e s).pending = s.pending := by simp [sqError]
@[simp] theorem sqStart_pending (p : SqPurpose) : (sqStart p s).pending = s.pending := by simp [sqStart]
@[simp] theorem sqAbort_pending : (sqAbort s).pending = s.pending := by simp [sqAbort]
@[simp] theorem sqAdvance_pending : (sqAdvance s).pending = s.pending := by simp [sqAdvance]
@[simp] theorem mapReset_pending : (mapReset u idx s).pending = s.pending := by simp [mapReset]
@[simp] theorem kpZero_pending : (kpZero u idx s).pending = s.pending := by simp [kpZero]
@[simp] theorem kpInstall_pending (key : Bytes) : (kpInstall u idx key s).pending = s.pending := by simp [kpInstall]
@[simp] theorem kpush_pending (corrupt : Bool) : (kpush k u idx corrupt s).pending = s.pending := by
  unfold kpush
  split <;> simp
@[simp] theorem assertReset_pending : (assertReset u s).pending = s.pending := rfl
@[simp] theorem releaseReset_pending (hlres : Nat) : (releaseReset u hlres s).pending = s.pending := by simp [releaseReset]
@[simp] theorem sqReset_pending (b hlres : Nat) : (sqReset u b hlres s).pending = s.pending := by simp [sqReset]
@[simp] theorem sqClock_pending (b : Nat) : (sqClock t b s).pending = s.pending := by simp [sqClock]
@[simp] theorem driveRail_pending (r : Nat) (on : Bool) : (driveRail r on s).pending = s.pending := rfl
@[simp] theorem dgFeed_pending : (dgFeed data s).pending = s.pending := rfl
@[simp] theorem sramScrub_pending : (sramScrub a n s).pending = s.pending := by simp [sramScrub]
@[simp] theorem sqDigest_pending (busErr : Bool) : (sqDigest len busErr s).pending = s.pending := by
  unfold sqDigest
  split <;> simp
@[simp] theorem sqIssue_pending (op : UnitOp) : (sqIssue u op s).pending = s.pending := by
  unfold sqIssue
  split <;> simp
@[simp] theorem sqStartOp_pending (region : Nat) (op : UnitOp) : (sqStartOp u region op s).pending = s.pending := by simp [sqStartOp]
@[simp] theorem sqKszero_pending (l bad : List Nat) : (sqKszero l bad s).pending = s.pending := by simp [sqKszero]
@[simp] theorem stepEffect_pending (w : Step64) (x : StepIn) : (stepEffect w x s).pending = s.pending := by
  unfold stepEffect
  split <;> simp
@[simp] theorem sqExecStep_pending (x : StepIn) : (sqExecStep x s).pending = s.pending := by simp [sqExecStep]
@[simp] theorem sqRun_pending (x : StepIn) : (sqRun op x s).pending = s.pending := by simp [sqRun]
@[simp] theorem sqKszeroRun_pending : (sqKszeroRun s).pending = s.pending := by simp [sqKszeroRun]
@[simp] theorem sqIllegal_pending : (sqIllegal s).pending = s.pending := by simp [sqIllegal]
@[simp] theorem sqTimeout_pending : (sqTimeout s).pending = s.pending := by
  unfold sqTimeout
  split <;> simp
@[simp] theorem poisonClear_pending (region : Nat) : (poisonClear u region s).pending = s.pending := by simp [poisonClear]
@[simp] theorem sqResume_pending : (sqResume s).pending = s.pending := by
  unfold sqResume
  split <;> simp
@[simp] theorem unitOpDone_pending (nonzero : Nat) (fault : Bool) : (unitOpDone u nonzero fault s).pending = s.pending := by
  unfold unitOpDone
  split
  · rfl
  · apply ite_keeps
    · exact ite_keeps (by simp) (by simp)
    · apply ite_keeps
      · split <;> simp
      · split <;> simp

/-! ### Tables -/

@[simp] theorem fwReady_pending (t : List Step64) : (fwReady t s).pending = s.pending := rfl
@[simp] theorem runSteps_pending (fall : Nat → State → State) (t : List Step64) (hfall : ∀ r s, (fall r s).pending = s.pending) :
    (runSteps fall t s).pending = s.pending := by
  refine foldl_pending _ (fun s w => ?_) _ _
  split
  · rfl
  · dsimp only
    split <;> simp [hfall]
@[simp] theorem fwRun_pending (fall : Nat → State → State) (t : List Step64) (hfall : ∀ r s, (fall r s).pending = s.pending) :
    (fwRun fall t s).pending = s.pending := by
  simp [fwRun, hfall]
@[simp] theorem fwDo_pending (t : List Step64) : (fwDo t s).pending = s.pending := by simp [fwDo]
@[simp] theorem fwKpush_pending : (fwKpush k u idx s).pending = s.pending := by simp [fwKpush]
@[simp] theorem fwKpzero_pending : (fwKpzero u idx s).pending = s.pending := by simp [fwKpzero]
@[simp] theorem fwKpzeroAll_pending : (fwKpzeroAll s).pending = s.pending := by simp [fwKpzeroAll]
@[simp] theorem fwKszero_pending : (fwKszero a n s).pending = s.pending := by simp [fwKszero]
@[simp] theorem fwHold_pending : (fwHold u s).pending = s.pending := by simp [fwHold]
@[simp] theorem fwAbort_pending : (fwAbort s).pending = s.pending := by simp [fwAbort]

/-! ### DigestKey -/

@[simp] theorem dgGuard_pending (f : State → State) (hf : ∀ s, (f s).pending = s.pending) : (dgGuard f s).pending = s.pending := by simp [dgGuard, hf]
@[simp] theorem dgStart_pending : (dgStart s).pending = s.pending := by simp [dgStart]
@[simp] theorem dgData_pending (w : Word) : (dgData w s).pending = s.pending := by simp [dgData]
@[simp] theorem dgAbsorbed_pending : (dgAbsorbed s).pending = s.pending := by
  unfold dgAbsorbed
  split <;> simp
@[simp] theorem dgDeliver_pending : (dgDeliver s).pending = s.pending := by simp [dgDeliver]
@[simp] theorem dgFinish_pending : (dgFinish s).pending = s.pending :=
  dgGuard_pending _ _ fun s => by split <;> simp
@[simp] theorem dgOuter_pending : (dgOuter s).pending = s.pending := by simp [dgOuter]
@[simp] theorem dgClear_pending : (dgClear s).pending = s.pending := by simp [dgClear]
@[simp] theorem dgRootKdf_pending : (dgRootKdf s).pending = s.pending := by simp [dgRootKdf]
@[simp] theorem derive_pending (label : String) (ctx : Bytes) (use : Nat) (lock : Bool) :
    (derive p label ctx n i use lock s).pending = s.pending := by
  simp [derive]
@[simp] theorem derivePrism_pending : (derivePrism s).pending = s.pending := by simp [derivePrism]
@[simp] theorem rederive_pending : (rederive i s).pending = s.pending := by
  unfold rederive
  split <;> simp
@[simp] theorem ksBusy_pending : (ksBusy s).pending = s.pending := rfl
@[simp] theorem ksJob_pending (slot : Nat) : (ksJob cmd slot e s).pending = s.pending := rfl
@[simp] theorem ksGen_pending : (ksGen i s).pending = s.pending := by simp [ksGen]
@[simp] theorem ksUnwrap_pending (kek : Nat) : (ksUnwrap i kek s).pending = s.pending := by simp [ksUnwrap]
@[simp] theorem ksZero_pending (bad : Bool) : (ksZero i bad s).pending = s.pending := by simp [ksZero]
@[simp] theorem ksZeroAll_pending (bad : List Nat) : (ksZeroAll bad s).pending = s.pending := by simp [ksZeroAll]
@[simp] theorem ksSetUse_pending : (ksSetUse i s).pending = s.pending := by simp [ksSetUse]
@[simp] theorem ksLock_pending : (ksLock i s).pending = s.pending := by simp [ksLock]
@[simp] theorem ksLoad_pending : (ksLoad i s).pending = s.pending := by simp [ksLoad]
@[simp] theorem ksComplete_pending : (ksComplete s).pending = s.pending := by
  unfold ksComplete
  split <;> simp
@[simp] theorem upset_pending (b : Nat) : (upset i b s).pending = s.pending := rfl
@[simp] theorem kcvReact_pending : (kcvReact i s).pending = s.pending := by simp [kcvReact]
@[simp] theorem kcvPass_pending : (kcvPass s).pending = s.pending := by simp [kcvPass]
@[simp] theorem drbgFail_pending : (drbgFail s).pending = s.pending := by
  unfold drbgFail
  dsimp only
  split <;> simp

/-! ### PkeMeas -/

@[simp] theorem pkBegin_pending (r : PkRun) : (pkBegin r s).pending = s.pending := by simp [pkBegin]
@[simp] theorem pkSnapshot_pending (l : List (Nat × Nat)) : (pkSnapshot l s).pending = s.pending := by simp [pkSnapshot]
@[simp] theorem pkStart_pending (streamErr : Option Nat) : (pkStart streamErr s).pending = s.pending := by
  unfold pkStart
  refine ite_keeps rfl (ite_keeps rfl ?_)
  dsimp only
  split
  · simp
  · refine ite_keeps (by simp) (ite_keeps (by simp) ?_)
    split <;> simp
@[simp] theorem pkCommit_pending (r : PkRun) : (pkCommit r s).pending = s.pending := by
  unfold pkCommit
  split
  · rfl
  · split <;> simp
@[simp] theorem pkZeroDone_pending : (pkZeroDone s).pending = s.pending := rfl
@[simp] theorem pkWipe_pending (bad : Bool) : (pkWipe bad s).pending = s.pending := by simp [pkWipe]
@[simp] theorem pkFinish_pending (x : PkEnd) : (pkFinish x s).pending = s.pending := by
  unfold pkFinish
  split <;> simp
@[simp] theorem pkMemWrite_pending : (pkMemWrite off v s).pending = s.pending := by simp [pkMemWrite]
@[simp] theorem pkStallDone_pending : (pkStallDone s).pending = s.pending := by
  unfold pkStallDone
  split <;> simp
@[simp] theorem msBusy_pending : (msBusy s).pending = s.pending := rfl
@[simp] theorem msJob_pending : (msJob cmd e s).pending = s.pending := rfl
@[simp] theorem msCmdExtend_pending : (msCmdExtend n s).pending = s.pending := by simp [msCmdExtend]
@[simp] theorem msCmdLock_pending : (msCmdLock n s).pending = s.pending := by simp [msCmdLock]
@[simp] theorem msTzeroNow_pending : (msTzeroNow s).pending = s.pending := rfl
@[simp] theorem msCmdTzero_pending : (msCmdTzero s).pending = s.pending := by simp [msCmdTzero]
@[simp] theorem msComplete_pending : (msComplete s).pending = s.pending := by
  unfold msComplete
  split <;> simp

/-! ### Frames -/

@[simp] theorem mgTxgo_pending : (mgTxgo n s).pending = s.pending := rfl
@[simp] theorem mgTransmit_pending (ps : List Bytes) : (mgTransmit ps s).pending = s.pending :=
  foldl_pending _ (fun _ _ => by simp) _ _
@[simp] theorem mgOut_pending (m : Bytes) : (mgOut m s).pending = s.pending := by simp [mgOut]
@[simp] theorem mgSend_pending (m : Bytes) : (mgSend m s).pending = s.pending := by simp [mgSend]
@[simp] theorem buildRsp_pending (flags status : Nat) (payload : Bytes) : (buildRsp c op flags status payload s).pending = s.pending := by
  unfold buildRsp
  refine ite_keeps (by simp) (ite_keeps (by simp) ?_)
  split <;> simp
@[simp] theorem answerBytes_pending (status : Nat) (p : Bytes) : (answerBytes c op status p s).pending = s.pending := by simp [answerBytes]
@[simp] theorem stageEmpty_pending : (stageEmpty s).pending = s.pending := rfl
@[simp] theorem mgStageEmpty_pending : (mgStageEmpty s).pending = s.pending := rfl
@[simp] theorem stageClearFor_pending : (stageClearFor c s).pending = s.pending := by simp [stageClearFor]
@[simp] theorem answer_pending (status : Nat) (body : Bytes) : (answer c op word status detail body s).pending = s.pending := by simp [answer]
@[simp] theorem extendMode_pending : (extendMode s).pending = s.pending := by simp [extendMode]
@[simp] theorem runCmd_pending (f : HostCall → State → CmdRes) (hf : ∀ c s, (f c s).s.pending = s.pending) :
    (runCmd op f c s).pending = s.pending := by
  unfold runCmd
  dsimp only
  split
  · simp
  · refine ite_keeps (by simp) ?_
    split <;> simp [hf]
@[simp] theorem sized_pending (f : HostCall → State → CmdRes) (hf : ∀ c s, (f c s).s.pending = s.pending) :
    (sized n f c s).s.pending = s.pending := by
  simp [sized, hf]
@[simp] theorem staged_pending (f : Bytes → HostCall → State → CmdRes) (hf : ∀ b c s, (f b c s).s.pending = s.pending) :
    (staged n off f c s).s.pending = s.pending := by
  simp [staged, hf]

/-! ### PkQueue -/

@[simp] theorem pqStartJob_pending (j : PkJobD) : (pqStartJob j s).pending = s.pending := by simp [pqStartJob]
@[simp] theorem batchStarts_pending (p : Purp) : (batchStarts p s).pending = s.pending := by
  unfold batchStarts
  split <;> simp
@[simp] theorem pqDispatch_pending : (pqDispatch s).pending = s.pending := by
  unfold pqDispatch
  refine ite_keeps rfl ?_
  split
  · rfl
  · split <;> simp
@[simp] theorem pqAdd_pending (cls : Nat) (p : Purp) (jobs : List PkJobD) : (pqAdd cls p jobs s).pending = s.pending := by simp [pqAdd]

/-! ### Data -/

@[simp] theorem modWpk_pending (h : Nat) (f : Wpk → Wpk) : (modWpk h f s).pending = s.pending := rfl
@[simp] theorem bindsMove_pending : (bindsMove s).pending = s.pending := rfl
@[simp] theorem perfAdd_pending (set ix : Nat) : (perfAdd set ix n s).pending = s.pending := by simp [perfAdd]
@[simp] theorem modRec_pending (f : TRec → TRec) : (modRec i f s).pending = s.pending := rfl
@[simp] theorem fqAdd_pending (j : FJob) : (fqAdd j s).pending = s.pending := rfl
@[simp] theorem recQueue_pending : (recQueue i s).pending = s.pending := by
  unfold recQueue
  split <;> simp
@[simp] theorem setRecSt_pending : (setRecSt d e v s).pending = s.pending := rfl
@[simp] theorem outRec_pending : (outRec d a i data s).1.pending = s.pending := by
  unfold outRec
  split <;> simp
theorem ringWrite_pending {a : Ast} {n : Nat} {rec : Bytes} {s t : State} (h : ringWrite a n rec s = some t) : t.pending = s.pending := by
  unfold ringWrite at h
  grind [modAst_pending, outRec_pending, emit_pending]
@[simp] theorem jobVector_pending (vec : Nat) : (jobVector jid vec s).pending = s.pending := by
  unfold jobVector
  refine ite_keeps rfl ?_
  split <;> simp
@[simp] theorem ringFlushN_pending : (ringFlushN tag n s).pending = s.pending := by
  induction n generalizing s with
  | zero => rfl
  | succ n ih =>
    unfold ringFlushN
    split
    · rfl
    · split
      · rfl
      · split
        · rfl
        · split
          · rfl
          next h => simp [ih, ringWrite_pending h]
@[simp] theorem ringFlush_pending (grid : Bool) : (ringFlush grid tag s).pending = s.pending := by
  unfold ringFlush
  refine ite_keeps rfl ?_
  split <;> simp
@[simp] theorem postCompletion_pending : (postCompletion jid s).pending = s.pending := by
  unfold postCompletion
  split
  · rfl
  · split <;> simp
@[simp] theorem lkeEnd_pending : (lkeEnd n s).pending = s.pending := by simp [lkeEnd]
@[simp] theorem lkeJobEnd_pending : (lkeJobEnd jid s).pending = s.pending := by simp [lkeJobEnd]
@[simp] theorem linkJobEnd_pending : (linkJobEnd jid s).pending = s.pending := by simp [linkJobEnd]
@[simp] theorem jobEnd_pending (st : JState) (status : Nat) : (jobEnd st status detail jid s).pending = s.pending := by
  unfold jobEnd
  split <;> simp
@[simp] theorem jobsEnd_pending (st : JState) (status : Nat) (l : List Nat) : (jobsEnd st status detail l s).pending = s.pending := by simp [jobsEnd]
@[simp] theorem closeBatch_pending (p : Purp) : (closeBatch code p s).pending = s.pending := by
  unfold closeBatch
  split <;> simp
@[simp] theorem closeDue_pending : (closeDue code s).pending = s.pending := by simp [closeDue]
@[simp] theorem recAdd_pending : (recAdd jid s).pending = s.pending := by
  unfold recAdd
  split <;> simp
@[simp] theorem recMake_pending : (recMake jid s).pending = s.pending := by
  unfold recMake
  split
  · rfl
  · split <;> simp
@[simp] theorem flushAnswer_pending (num recs : Nat) : (flushAnswer num recs s).pending = s.pending := by
  unfold flushAnswer
  exact foldl_pending _ (fun s w => by split <;> simp) _ _
@[simp] theorem rcResume_pending : (rcResume s).pending = s.pending := by
  unfold rcResume
  refine ite_keeps rfl ?_
  split <;> simp
@[simp] theorem abandonBatches_pending : (abandonBatches s).pending = s.pending := by
  simp only [abandonBatches]
  (repeat' split) <;> simp
@[simp] theorem apClose_pending : (apClose d a s).pending = s.pending := by simp [apClose]
@[simp] theorem apEnd_pending : (apEnd d a s).pending = s.pending := by simp [apEnd]
@[simp] theorem apEndDie_pending : (apEndDie d s).pending = s.pending := by simp [apEndDie]
@[simp] theorem apEndAll_pending : (apEndAll s).pending = s.pending := by simp [apEndAll]
@[simp] theorem apCloseAll_pending : (apCloseAll s).pending = s.pending := by simp [apCloseAll]
@[simp] theorem sessEnd_pending : (sessEnd s).pending = s.pending := by
  unfold sessEnd
  split <;> simp
@[simp] theorem invMark_pending (all : Bool) (count : Nat) : (invMark tag all page count s).pending = s.pending := by simp [invMark]
@[simp] theorem contentKeyEnd_pending : (contentKeyEnd s).pending = s.pending := by simp [contentKeyEnd]
@[simp] theorem linePut_pending (line : Nat) (v : Bytes) : (linePut t line v s).pending = s.pending := rfl
@[simp] theorem extWrite_pending : (extWrite page b s).pending = s.pending :=
  foldl_pending _ (fun _ _ => by simp) _ _
@[simp] theorem loadEnd_pending (failpg : Nat) : (loadEnd st detail failpg s).pending = s.pending := by
  unfold loadEnd
  split <;> simp
@[simp] theorem wpkFail_pending (h : Nat) : (wpkFail h s).pending = s.pending := by simp [wpkFail]

/-! ### Flow -/

@[simp] theorem wardenReset_pending (r : RstSrc) : (wardenReset r code s).pending = s.pending := by simp [wardenReset]
@[simp] theorem softReset_pending : (softReset code s).pending = s.pending := by simp [softReset]
@[simp] theorem stopTiles_pending : (stopTiles s).pending = s.pending := rfl
@[simp] theorem failWaiting_pending : (failWaiting st detail s).pending = s.pending := by
  unfold failWaiting
  refine (foldl_pending _ (fun s i => by split <;> simp) _ _).trans ((loadEnd_pending ..).trans ?_)
  refine (foldl_pending _ (fun s p => by simp) _ _).trans ?_
  refine (foldl_pending _ (fun s w => by split <;> simp) _ _).trans ?_
  exact foldl_pending _ (fun s w => by split <;> simp) _ _
@[simp] theorem destroyTags_pending : (destroyTags s).pending = s.pending := rfl
@[simp] theorem linkEndAll_pending : (linkEndAll s).pending = s.pending := by simp [linkEndAll]
@[simp] theorem unitsOff_pending (p : Nat → Bool) : (unitsOff p s).pending = s.pending := by simp [unitsOff]
@[simp] theorem tilesOff_pending : (tilesOff s).pending = s.pending := by simp [tilesOff]
@[simp] theorem mcOff_pending : (mcOff s).pending = s.pending := rfl
@[simp] theorem advanceGens_pending : (advanceGens s).pending = s.pending := rfl
@[simp] theorem hostRegsReset_pending : (hostRegsReset s).pending = s.pending := rfl
@[simp] theorem primaryEnd_pending : (primaryEnd s).pending = s.pending := by simp [primaryEnd]
@[simp] theorem portsOff_pending : (portsOff s).pending = s.pending := by simp [portsOff]
@[simp] theorem railFall_pending (r : Nat) : (railFall r s).pending = s.pending := by simp [railFall]
@[simp] theorem dropTileMem_pending : (dropTileMem s).pending = s.pending := by simp [dropTileMem]
@[simp] theorem dropPort_pending : (dropPort s).pending = s.pending := by simp [dropPort]
@[simp] theorem clearPortBufs_pending : (clearPortBufs s).pending = s.pending := rfl
@[simp] theorem logFlush_pending : (logFlush s).pending = s.pending := by simp [logFlush]
@[simp] theorem emptyTenantLog_pending : (emptyTenantLog s).pending = s.pending := rfl
@[simp] theorem quarRails_pending : (quarRails s).pending = s.pending := by simp [quarRails]
@[simp] theorem revert_pending : (revert s).pending = s.pending := rfl
@[simp] theorem workGone_pending : (workGone s).pending = s.pending := rfl
@[simp] theorem quarStop_pending : (quarStop s).pending = s.pending := by simp [quarStop]
@[simp] theorem quarHalt_pending : (quarHalt s).pending = s.pending := by
  unfold quarHalt
  dsimp only
  split <;> simp
@[simp] theorem revertDue_pending : (revertDue s).pending = s.pending := by simp [revertDue]
@[simp] theorem quarantine_pending : (quarantine cause s).pending = s.pending := by simp [quarantine]
@[simp] theorem clkFail_pending : (clkFail s).pending = s.pending := by simp [clkFail]
@[simp] theorem quarCleared_pending : (quarCleared s).pending = s.pending := by simp [quarCleared]
@[simp] theorem mainStop_pending : (mainStop s).pending = s.pending := by simp [mainStop]
@[simp] theorem mainDown_pending : (mainDown s).pending = s.pending := by simp [mainDown]
@[simp] theorem toWarden_pending : (toWarden s).pending = s.pending := by simp [toWarden]
@[simp] theorem mainLost_pending : (mainLost s).pending = s.pending := by
  unfold mainLost
  refine ite_keeps rfl ?_
  dsimp only
  split
  · split <;> simp
  · simp
@[simp] theorem startSwitch_pending : (startSwitch cause s).pending = s.pending := by simp [startSwitch]
@[simp] theorem sqBurst_pending (hl : List Nat) : (sqBurst hl n s).pending = s.pending := by
  induction n generalizing s with
  | zero => rfl
  | succ n ih => simp [sqBurst, ih]
@[simp] theorem sqBegin_pending (p : SqPurpose) : (sqBegin p s).pending = s.pending := by simp [sqBegin]
@[simp] theorem sqTable_pending (p : SqPurpose) : (sqTable p s).pending = s.pending := by simp [sqTable]
@[simp] theorem switchZero_pending : (switchZero s).pending = s.pending := by simp [switchZero]
@[simp] theorem switchRecord_pending : (switchRecord s).pending = s.pending := by
  unfold switchRecord
  dsimp only
  split <;> simp
@[simp] theorem switchMaps_pending : (switchMaps s).pending = s.pending := by simp [switchMaps]
@[simp] theorem switchTzero_pending : (switchTzero s).pending = s.pending := by simp [switchTzero]
@[simp] theorem switchKeys_pending : (switchKeys s).pending = s.pending := by simp [switchKeys]
@[simp] theorem switchBatches_pending : (switchBatches s).pending = s.pending := by simp [switchBatches]
@[simp] theorem switchHalted_pending : (switchHalted s).pending = s.pending := by
  unfold switchHalted
  refine ite_keeps rfl ?_
  dsimp only
  split <;> simp
@[simp] theorem loadFail_pending (phase unit : Nat) : (loadFail phase unit st s).pending = s.pending := by simp [loadFail]
@[simp] theorem unitFail_pending (step : Nat) : (unitFail u step code s).pending = s.pending := by simp [unitFail]
@[simp] theorem startRestart_pending : (startRestart u s).pending = s.pending := by simp [startRestart]
@[simp] theorem tileWeightsLost_pending : (tileWeightsLost t s).pending = s.pending := by simp [tileWeightsLost]
@[simp] theorem takeWaits_pending (arg : Nat) : (takeWaits u op arg s).2.pending = s.pending := rfl
@[simp] theorem installEnd_pending (ph : Nat) : (installEnd ph s).pending = s.pending := by
  unfold installEnd
  split
  · rfl
  · exact (foldl_pending _ (fun s w => by split <;> simp) _ _).trans (takeWaits_pending ..)
@[simp] theorem unitWaitEnd_pending (w : UnitWait) : (unitWaitEnd w s).pending = s.pending := by
  unfold unitWaitEnd
  split <;> simp
@[simp] theorem unitCrash_pending : (unitCrash u cause s).pending = s.pending := by simp [unitCrash]
@[simp] theorem idleEntry_pending : (idleEntry s).pending = s.pending := by simp [idleEntry]
@[simp] theorem fnReset_pending : (fnReset d s).pending = s.pending := by simp [fnReset]

/-! ### Boot -/

@[simp] theorem flashProg_pending : (flashProg off b s).pending = s.pending := rfl
@[simp] theorem flashErase_pending : (flashErase off n s).pending = s.pending := rfl
@[simp] theorem updStart_pending : (updStart s).pending = s.pending := by simp [updStart]
@[simp] theorem romNote_pending (e : MLog) : (romNote e s).pending = s.pending := rfl
@[simp] theorem romRefuse_pending (x : Option Img) : (romRefuse typ code x s).pending = s.pending := rfl
@[simp] theorem romExtend_pending (kind : Nat) (input : Bytes) : (romExtend n kind typ input s).pending = s.pending := by simp [romExtend]
@[simp] theorem drawGens_pending : (drawGens s).pending = s.pending :=
  (foldl_pending _ (fun _ _ => modChan_pending ..) _ _).trans (drawBytes_pending 8 (s := s))
@[simp] theorem p0Only_pending : (p0Only s).pending = s.pending := by simp [p0Only]
@[simp] theorem romStart_pending (tried ca cb : Nat) (i : Img) : (romStart k tried ca cb typ i s).pending = s.pending := by simp [romStart]
@[simp] theorem romTry_pending (err : Bool) : (romTry k typ err s).2.pending = s.pending := by
  unfold romTry
  dsimp only
  split
  · rfl
  · split
    · rfl
    · split <;> rfl
@[simp] theorem romRecovery_pending (x : RomIn) (tried b : Nat) : (romRecovery x tried a b s).pending = s.pending := by
  unfold romRecovery
  dsimp only
  split <;> simp
@[simp] theorem romRecord_pending : (romRecord s).pending = s.pending := by
  unfold romRecord
  split <;> simp
@[simp] theorem romSelect_pending (x : RomIn) : (romSelect x s).pending = s.pending := by
  have htry (c : Prop) [Decidable c] (n typ : Nat) (err : Bool) (s : State) : (if c then (12, s) else romTry n typ err s).2.pending = s.pending := by
    split <;> simp
  unfold romSelect
  extract_lets tries s1 pref n out s2 svnBad err other code r1 t1
  have h2 : s2.pending = s.pending := (ite_keeps (flashProg_pending ..) rfl).trans (romRecord_pending ..)
  have hr1 : r1.2.pending = s.pending := (htry ..).trans h2
  clear_value r1 s2
  split
  · exact (romStart_pending ..).trans hr1
  · refine ite_keeps (by simp [hr1]) ?_
    dsimp only
    split <;> simp [hr1]
@[simp] theorem romPrepare_pending (x : RomIn) : (romPrepare x s).pending = s.pending := by simp [romPrepare]
@[simp] theorem romMeasure_pending : (romMeasure s).pending = s.pending := by simp [romMeasure]
@[simp] theorem romGo_pending (x : RomIn) : (romGo x s).pending = s.pending := by simp [romGo]
@[simp] theorem romBoot_pending (x : RomIn) : (romBoot x s).pending = s.pending := by simp [romBoot]
@[simp] theorem writeTables_pending : (writeTables s).pending = s.pending := by simp [writeTables]
@[simp] theorem identities_pending : (identities s).pending = s.pending := rfl
@[simp] theorem burnSvn_pending (tgt : List Nat) (x : List PulseOut) : (burnSvn tgt x s).pending = s.pending :=
  foldl_fst_pending _ (fun p c => by simp) _ _
@[simp] theorem adoptLog_pending : (adoptLog s).pending = s.pending := by
  unfold adoptLog
  split <;> simp
@[simp] theorem adoptRom_pending : (adoptRom s).pending = s.pending := by simp [adoptRom]
@[simp] theorem logGroups_pending : (logGroups s).pending = s.pending := by simp [logGroups]
@[simp] theorem wfwRegs_pending : (wfwRegs s).pending = s.pending := rfl
@[simp] theorem wfwStart_pending : (wfwStart s).pending = s.pending := by simp [wfwStart]
@[simp] theorem wfwReissue_pending (x : List PulseOut) : (wfwReissue x s).pending = s.pending := by simp [wfwReissue]
@[simp] theorem wfwCrash_pending (crash : Bool) : (wfwCrash crash s).pending = s.pending := by simp [wfwCrash]
@[simp] theorem wfwInit_pending (x : List PulseOut) : (wfwInit x s).pending = s.pending := by simp [wfwInit]
@[simp] theorem setConf_pending : (setConf s).pending = s.pending := rfl
@[simp] theorem rosterOpen_pending : (rosterOpen s).pending = s.pending := by
  unfold rosterOpen
  split
  · rfl
  · split
    · dsimp only
      refine (fqAdd_pending ..).trans (foldl_pending _ (fun s i => ?_) _ _)
      split
      · split <;> simp
      · rfl
    · simp
@[simp] theorem bringupStart_pending : (bringupStart s).pending = s.pending := by simp [bringupStart]
@[simp] theorem mismatchLog_pending : (mismatchLog p s).pending = s.pending := by simp [mismatchLog]
@[simp] theorem siteCompare_pending : (siteCompare s).pending = s.pending := by simp [siteCompare]
@[simp] theorem verifyFail_pending (us : List Nat) : (verifyFail us typ code s).pending = s.pending := by simp [verifyFail]
@[simp] theorem ltEnable_pending : (ltEnable u s).pending = s.pending := rfl
@[simp] theorem portsUp_pending : (portsUp s).pending = s.pending := by simp [portsUp]
@[simp] theorem tilesUp_pending : (tilesUp s).pending = s.pending := by simp [tilesUp]
@[simp] theorem railsDone_pending (p : SqPurpose) : (railsDone p s).pending = s.pending := by simp [railsDone]
@[simp] theorem railGoodEv_pending (rail : Nat) (hl : List Nat) : (railGoodEv rail hl s).pending = s.pending := by
  unfold railGoodEv
  dsimp only
  split <;> simp
@[simp] theorem digestChunk_pending : (digestChunk s b).pending = s.pending := by simp [digestChunk]
@[simp] theorem bodyDigest_pending : (bodyDigest b s).pending = s.pending := by simp [bodyDigest]
@[simp] theorem digestFail_pending : (digestFail s).pending = s.pending := by simp [digestFail]
@[simp] theorem loadWrite_pending (x : LoadIn) (us : List Nat) (i : Img) : (loadWrite k x us i s).pending = s.pending := by
  unfold loadWrite
  refine (foldl_pending _ (fun _ _ => modUnit_pending ..) _ _).trans ((bodyDigest_pending ..).trans ?_)
  split <;> simp
@[simp] theorem loadGo_pending (i : Img) : (loadGo k u i s).pending = s.pending := rfl
@[simp] theorem slot9_pending (reason count : Nat) (e : Bytes) : (slot9 u reason count e s).pending = s.pending := by simp [slot9]
@[simp] theorem loadMeasure_pending (us : List Nat) (i : Img) : (loadMeasure k us i s).pending = s.pending := by simp [loadMeasure]
@[simp] theorem unitLoad_pending (x : LoadIn) : (unitLoad k x s).pending = s.pending := by
  unfold unitLoad
  refine ite_keeps rfl ?_
  generalize readImg s s.boot.chosen (loadType k) = im
  cases im with
  | none => exact verifyFail_pending ..
  | some i =>
    refine ite_keeps (by simp) (ite_keeps (by simp) ?_)
    exact (foldl_pending _ (fun _ _ => loadGo_pending ..) _ _).trans (by simp)
@[simp] theorem bringupReady_pending : (bringupReady s).pending = s.pending := by
  unfold bringupReady
  split <;> simp
@[simp] theorem stackTrained_pending : (stackTrained t s).pending = s.pending := by simp [stackTrained]
@[simp] theorem unitReload_pending (x : LoadIn) : (unitReload u x s).pending = s.pending := by
  unfold unitReload
  refine ite_keeps rfl ?_
  dsimp only
  split <;> simp
@[simp] theorem unitReady_pending (gen version : Nat) : (unitReady u gen version s).pending = s.pending := by simp [unitReady]
@[simp] theorem readyTimeout_pending : (readyTimeout u s).pending = s.pending := by simp [readyTimeout]

/-! ### Settle -/

@[simp] theorem switchCleared_pending : (switchCleared s).pending = s.pending := by simp [switchCleared]
@[simp] theorem switchSigned_pending (ec ml : Bytes) : (switchSigned ec ml s).pending = s.pending := by simp [switchSigned]
@[simp] theorem powerUpDone_pending : (powerUpDone s).pending = s.pending := by simp [powerUpDone]
@[simp] theorem switchClearDone_pending : (switchClearDone s).pending = s.pending := by simp [switchClearDone]
@[simp] theorem tileTableDone_pending : (tileTableDone s).pending = s.pending := by simp [tileTableDone]
@[simp] theorem tableDone_pending (p : SqPurpose) : (tableDone p s).pending = s.pending := by
  unfold tableDone
  split <;> simp
@[simp] theorem settleN_pending : (settleN n s).pending = s.pending := by
  induction n generalizing s with
  | zero => rfl
  | succ n ih =>
    unfold settleN
    split
    · rfl
    · split
      · simp [ih]
      · split <;> simp [ih]
@[simp] theorem settle_pending (s0 : State) : (settle s0 s).pending = s.pending := by simp [settle]
@[simp] theorem dropAccess_pending : (dropAccess s).pending = s.pending := by
  unfold dropAccess
  split <;> simp
@[simp] theorem sqEvent_pending (f : State → State) (hf : ∀ s, (f s).pending = s.pending) : (sqEvent f s).pending = s.pending := by simp [sqEvent, hf]

/-! ### HostLink -/

@[simp] theorem fnRegsReset_pending : (fnRegsReset d s).pending = s.pending := rfl
@[simp] theorem fnDown_pending : (fnDown d s).pending = s.pending := by simp [fnDown]
@[simp] theorem sendPending_pending : (sendPending d s).pending = s.pending := by simp [sendPending]
@[simp] theorem mbxWrite_pending : (mbxWrite ch off data s).pending = s.pending := by simp [mbxWrite]
@[simp] theorem mbxDoorbell_pending : (mbxDoorbell ch len s).pending = s.pending := by simp [mbxDoorbell]
@[simp] theorem hmbTake_pending : (hmbTake ch s).pending = s.pending := by simp [hmbTake]
@[simp] theorem winAdd_pending (f : Frame) : (winAdd ch f s).pending = s.pending := rfl
@[simp] theorem jobWinAdd_pending (j : JobWin) : (jobWinAdd j s).pending = s.pending := by simp [jobWinAdd]
@[simp] theorem frameAnswer_pending : (frameAnswer ch b s).pending = s.pending := rfl
@[simp] theorem frameEnter_pending (f : Frame) (isSealed : Bool) : (frameEnter ch f isSealed s).pending = s.pending := by simp [frameEnter]
@[simp] theorem frameLast_pending (disp : Nat → HostCall → State → State) (f : Frame) (isSealed : Bool) (hdisp : ∀ op c s, (disp op c s).pending = s.pending) :
    (frameLast disp ch f isSealed data s).pending = s.pending := by
  simp [frameLast, hdisp]
@[simp] theorem frameRun_pending (disp : Nat → HostCall → State → State) (f : Frame) (isSealed : Bool) (hdisp : ∀ op c s, (disp op c s).pending = s.pending) :
    (frameRun disp ch f isSealed data s).pending = s.pending := by
  unfold frameRun
  dsimp only
  split
  · simp
  · refine ite_keeps (by simp [hdisp]) ?_
    split
    · refine ite_keeps (by simp) ?_
      split <;> simp
    · simp [hdisp]
@[simp] theorem frameChecks_pending (disp : Nat → HostCall → State → State) (hdisp : ∀ op c s, (disp op c s).pending = s.pending) :
    (frameChecks disp ch s).pending = s.pending := by
  unfold frameChecks
  refine ite_keeps (by simp) (ite_keeps (by simp) (ite_keeps (by simp) ?_))
  split
  · refine ite_keeps ?_ (by simp)
    split <;> simp
  · refine ite_keeps (by simp) (ite_keeps (by simp [hdisp]) ?_)
    split <;> simp [hdisp]
@[simp] theorem checkArrived_pending (disp : Nat → HostCall → State → State) (hdisp : ∀ op c s, (disp op c s).pending = s.pending) :
    (checkArrived disp n s).pending = s.pending := by
  induction n generalizing s with
  | zero => rfl
  | succ n ih =>
    unfold checkArrived
    split
    · rfl
    · simp [ih, hdisp]
@[simp] theorem hmbMoveDone_pending (disp : Nat → HostCall → State → State) (hdisp : ∀ op c s, (disp op c s).pending = s.pending) :
    (hmbMoveDone disp ch s).pending = s.pending := by
  unfold hmbMoveDone
  dsimp only
  split <;> simp [hdisp]
@[simp] theorem genAdvance_pending : (genAdvance ch s).pending = s.pending := by simp [genAdvance]
@[simp] theorem resetAfterReply_pending : (resetAfterReply c code s).pending = s.pending := by simp [resetAfterReply]
@[simp] theorem hmbRespond_pending : (hmbRespond ch b s).pending = s.pending := by simp [hmbRespond]
@[simp] theorem jobWinFill_pending : (jobWinFill ch b s).pending = s.pending := rfl
@[simp] theorem hmbPost_pending : (hmbPost ch s).pending = s.pending := by
  unfold hmbPost
  refine ite_keeps rfl ?_
  dsimp only
  split
  · simp
  · split <;> simp
@[simp] theorem dupRelease_pending : (dupRelease ch s).pending = s.pending := by
  unfold dupRelease
  split
  · split <;> simp
  · rfl
@[simp] theorem channelResetBody_pending : (channelResetBody c s).s.pending = s.pending := by simp [channelResetBody]
@[simp] theorem featureOfferBody_pending : (featureOfferBody c s).s.pending = s.pending :=
  sized_pending _ _ _ _ fun _ _ => rfl
@[simp] theorem featureAcceptBody_pending : (featureAcceptBody c s).s.pending = s.pending := by simp [featureAcceptBody]
@[simp] theorem resultRead_pending : (resultRead c s).pending = s.pending := by
  unfold resultRead
  refine ite_keeps (by simp) ?_
  split <;> simp
@[simp] theorem resultReleaseBody_pending : (resultReleaseBody c s).s.pending = s.pending := by simp [resultReleaseBody]
@[simp] theorem stagePutBody_pending : (stagePutBody c s).s.pending = s.pending := by simp [stagePutBody]
@[simp] theorem stageClearBody_pending : (stageClearBody c s).s.pending = s.pending := by simp [stageClearBody]

/-! ### Transport -/

@[simp] theorem modeChange_pending (m : Mode) : (modeChange m s).pending = s.pending := by simp [modeChange]
@[simp] theorem modeSetBody_pending : (modeSetBody c s).s.pending = s.pending := by simp [modeSetBody]
theorem apKeyPush_pending {d a : Nat} {outbound : Bool} {s t : State} (h : apKeyPush d a outbound s = some t) : t.pending = s.pending := by
  simp only [apKeyPush, Option.ite_none_left_eq_some] at h
  obtain ⟨-, h⟩ := h
  split at h
  · cases h
  · cases h; simp
@[simp] theorem recStErase_pending (base : Nat) : (recStErase d base n s).pending = s.pending := rfl
@[simp] theorem apWrite_pending (out : Bool) (dbase rt g : Nat) : (apWrite d a out tag dbase len rt g s).pending = s.pending := rfl
@[simp] theorem regionOpen_pending (out : Bool) (dbase rt g : Nat) :
    (regionOpen d a out tag dbase len rt g s).pending = s.pending := by simp [regionOpen]
@[simp] theorem regionSetBody_pending : (regionSetBody c s).s.pending = s.pending :=
  sized_pending _ _ _ _ fun c s => by
    repeat' with_reducible apply ite_keeps_s
    any_goals simp
    split
    · rfl
    · split
      · rfl
      next h =>
        refine ite_keeps_s (apKeyPush_pending h) ?_
        simp [apKeyPush_pending h]
@[simp] theorem apJobEnd_pending (write : Bool) : (apJobEnd d a i write st s).pending = s.pending := by
  unfold apJobEnd
  split <;> simp
@[simp] theorem inRec_pending (x : RecIn) : (inRec d a i x s).1.pending = s.pending := by
  unfold inRec
  split <;> simp
@[simp] theorem spillRec_pending (x : RecIn) : (spillRec i x s).1.pending = s.pending := by
  unfold spillRec
  split <;> simp
@[simp] theorem inboundRec_pending (x : RecIn) : (inboundRec d a i x s).pending = s.pending := by simp [inboundRec]
@[simp] theorem outboundRec_pending : (outboundRec d a i data s).pending = s.pending := by simp [outboundRec]
@[simp] theorem apHostValid_pending : (apHostValid a s).pending = s.pending := by
  unfold apHostValid
  dsimp only
  split
  · rfl
  · split
    next h => simp [apKeyPush_pending h]
    · rfl
@[simp] theorem apDrop_pending : (apDrop s).pending = s.pending := by simp [apDrop]
@[simp] theorem apDescWrite_pending (value : Word) : (apDescWrite a off value s).pending = s.pending := by simp [apDescWrite]
@[simp] theorem apQuiesced_pending : (apQuiesced d a s).pending = s.pending := by simp [apQuiesced]

/-! ### Walks -/

@[simp] theorem cacheFill_pending (entries : List Nat) : (cacheFill w entries s).pending = s.pending := by simp [cacheFill]
theorem frWrite_pending {l : List (Nat × Bytes)} {s t : State} (h : frWrite l s = some t) : t.pending = s.pending := by
  unfold frWrite at h
  rcases of_ite_some h with rfl | h
  · exact foldl_pending _ (fun _ _ => emit_pending ..) _ _
  · rw [Option.ite_none_left_eq_some] at h
    obtain ⟨-, ⟨⟩⟩ := h
    exact foldl_pending _ (fun _ _ => outRec_pending ..) _ _
@[simp] theorem frFlushN_pending : (frFlushN n s).pending = s.pending := by
  induction n generalizing s with
  | zero => rfl
  | succ n ih =>
    unfold frFlushN
    split
    · rfl
    · dsimp only
      split
      · rfl
      · split
        · rfl
        next h => simp [ih, frWrite_pending h]
@[simp] theorem frFlush_pending : (frFlush s).pending = s.pending := by simp [frFlush]
@[simp] theorem faultClose_pending : (faultClose s).pending = s.pending := by simp [faultClose]
@[simp] theorem faultPost_pending (f : FEntry) : (faultPost f s).pending = s.pending := by
  unfold faultPost
  exact ite_keeps (by simp) (by simp)
@[simp] theorem withdraw_pending : (withdraw jid s).pending = s.pending := by
  unfold withdraw
  split <;> simp
@[simp] theorem parkFault_pending (stale : Bool) : (parkFault jid w stale s).pending = s.pending := by simp [parkFault]
@[simp] theorem residAdd_pending (st : PgState) : (residAdd tag page st s).pending = s.pending := by simp [residAdd]

/-! ### Translate -/

@[simp] theorem unitSend_pending (call : Option (HostCall × Nat)) (arg : Nat) : (unitSend u op call arg s).pending = s.pending := rfl
@[simp] theorem sendEnqueue_pending (tiles : Nat) (call : Option (HostCall × Nat)) : (sendEnqueue jid tiles call s).pending = s.pending := by
  unfold sendEnqueue
  split <;> simp
@[simp] theorem jobQueue_pending (call : Option (HostCall × Nat)) : (jobQueue jid call s).pending = s.pending := by
  unfold jobQueue
  split <;> simp
@[simp] theorem migrateOnFault_pending : (migrateOnFault w s).1.pending = s.pending :=
  foldl_fst_pending _ (fun p x => by split <;> simp) _ _
@[simp] theorem submitParked_pending : (submitParked jid c s).pending = s.pending := by
  unfold submitParked
  split <;> simp
@[simp] theorem jobDrop_pending : (jobDrop jid s).pending = s.pending := rfl
@[simp] theorem submitWalked_pending : (submitWalked jid c w s).pending = s.pending := by
  unfold submitWalked
  split <;> simp
@[simp] theorem jobWalked_pending : (jobWalked jid w s).pending = s.pending := by
  unfold jobWalked
  split <;> simp
@[simp] theorem resumeDone_pending : (resumeDone s).pending = s.pending := by
  unfold resumeDone
  split
  · rfl
  · split <;> simp
@[simp] theorem prefetchWalked_pending : (prefetchWalked c w s).pending = s.pending :=
  (answer_pending ..).trans (foldl_fst_pending _ (fun p x => by split <;> simp) _ _)
@[simp] theorem residDrop_pending : (residDrop tag page s).pending = s.pending := rfl
@[simp] theorem pageBack_pending : (pageBack page w s).pending = s.pending := by
  unfold pageBack
  dsimp only
  split
  · rfl
  · refine ite_keeps rfl ?_
    split <;> simp
@[simp] theorem walkFinish_pending : (walkFinish w s).pending = s.pending := by
  unfold walkFinish
  split <;> simp
@[simp] theorem walkPut_pending : (walkPut w s).pending = s.pending := by simp [walkPut]
@[simp] theorem walkStart_pending (pages : List (Nat × Bool)) (f : WalkFor) : (walkStart tag pages f s).pending = s.pending := by simp [walkStart]
@[simp] theorem jobRewalk_pending : (jobRewalk jid s).pending = s.pending := by
  unfold jobRewalk
  refine ite_keeps rfl ?_
  split <;> simp
@[simp] theorem tableRead_pending (id : Nat) (entries : List Nat) : (tableRead id entries s).pending = s.pending := by
  unfold tableRead
  split
  · rfl
  · split <;> simp
@[simp] theorem walkBudget_pending (id : Nat) : (walkBudget id s).pending = s.pending := by
  unfold walkBudget
  split
  · split <;> simp
  · rfl
@[simp] theorem invAccept_pending (lane : Option Nat) (call : Option (HostCall × Nat)) (all : Bool) (count : Nat) :
    (invAccept lane call tag all page count s).pending = s.pending := by
  simp [invAccept]
@[simp] theorem invComplete_pending (id : Nat) : (invComplete id s).pending = s.pending := by
  unfold invComplete
  dsimp only
  split
  · rfl
  · refine ite_keeps rfl ?_
    split <;> simp
@[simp] theorem invLane_pending : (invLane n v s).pending = s.pending := by simp [invLane]
@[simp] theorem frTailWrite_pending : (frTailWrite v s).pending = s.pending := by simp [frTailWrite]
@[simp] theorem frCtrlWrite_pending : (frCtrlWrite v s).pending = s.pending := by simp [frCtrlWrite]
@[simp] theorem pageLanded_pending : (pageLanded tag page s).pending = s.pending := by
  unfold pageLanded
  refine ite_keeps rfl ?_
  exact (foldl_pending _ (fun _ _ => jobRewalk_pending ..) _ _).trans ((modAst_pending ..).trans ((extWrite_pending ..).trans (drawBytes_pending ..)))
@[simp] theorem pageAbandon_pending : (pageAbandon tag page s).pending = s.pending := by simp [pageAbandon]
@[simp] theorem pageRelease_pending : (pageRelease tag page s).pending = s.pending := by
  unfold pageRelease
  split
  · rfl
  · split <;> simp
@[simp] theorem astCreateBody_pending : (astCreateBody c s).s.pending = s.pending := by simp [astCreateBody]
@[simp] theorem astDestroyBody_pending : (astDestroyBody c s).s.pending = s.pending :=
  sized_pending _ _ _ _ fun c s => by split <;> simp
@[simp] theorem astInvalidateBody_pending : (astInvalidateBody c s).s.pending = s.pending := by simp [astInvalidateBody]
@[simp] theorem prefetchBody_pending : (prefetchBody c s).s.pending = s.pending := by simp [prefetchBody]
@[simp] theorem adviseBody_pending : (adviseBody c s).s.pending = s.pending :=
  sized_pending _ _ _ _ fun c s => by
    refine ite_keeps_s (by simp) ?_
    split <;> simp
@[simp] theorem faultResumeBody_pending : (faultResumeBody c s).s.pending = s.pending := by simp [faultResumeBody]
@[simp] theorem mirrorSetBody_pending : (mirrorSetBody c s).s.pending = s.pending := by simp [mirrorSetBody]

/-! ### Jobs -/

@[simp] theorem progLoadBody_pending : (progLoadBody c s).s.pending = s.pending :=
  sized_pending _ _ _ _ fun c s => by
    refine ite_keeps_s (by simp) ?_
    split <;> simp
@[simp] theorem progArrived_pending : (progArrived data s).pending = s.pending := by
  unfold progArrived
  dsimp only
  split
  · rfl
  · split <;> simp
@[simp] theorem tileInstall_pending (ph : Nat) : (tileInstall t ph s).pending = s.pending := rfl
@[simp] theorem installAcked_pending (ph : Nat) : (installAcked t ph s).pending = s.pending := by simp [installAcked]
@[simp] theorem jobSubmitBody_pending : (jobSubmitBody c s).s.pending = s.pending :=
  sized_pending _ _ _ _ fun c s => by
    dsimp only
    split
    · rfl
    · refine ite_keeps_s rfl ?_
      split
      · rfl
      · repeat' with_reducible apply ite_keeps_s
        any_goals rfl
        split
        · rfl
        · exact ite_keeps_s rfl (walkStart_pending ..)
@[simp] theorem tileEnqueue_pending (order : Nat) : (tileEnqueue t order jid s).pending = s.pending := by
  unfold tileEnqueue
  split <;> simp
@[simp] theorem enqueueAcked_pending (qpos : Nat) : (enqueueAcked t jid qpos s).pending = s.pending := by
  simp only [enqueueAcked]
  split
  · simp
  · exact (foldl_pending _ (fun s w => by split <;> simp) _ _).trans (takeWaits_pending ..)
@[simp] theorem jobStart_pending : (jobStart jid s).pending = s.pending := by
  unfold jobStart
  split <;> simp
@[simp] theorem jobFinal_pending (x : JobEnd) : (jobFinal jid x s).pending = s.pending := by
  unfold jobFinal
  split <;> simp
@[simp] theorem laneJob_pending (chunk : Nat) (out : Bool) : (laneJob jid chunk out data s).pending = s.pending := by
  unfold laneJob
  dsimp only
  split
  · rfl
  · refine ite_keeps rfl ?_
    split <;> simp
@[simp] theorem jobCancelBody_pending : (jobCancelBody c s).s.pending = s.pending :=
  sized_pending _ _ _ _ fun c s => by
    dsimp only
    split
    · simp
    · split <;> simp
@[simp] theorem tileAbort_pending (reason : Nat) : (tileAbort t jid reason s).pending = s.pending := by
  unfold tileAbort
  split <;> simp
@[simp] theorem abortAcked_pending : (abortAcked t jid code s).pending = s.pending :=
  (foldl_pending _ (fun s w => by split <;> simp) _ _).trans (takeWaits_pending ..)
@[simp] theorem jobStatusBody_pending : (jobStatusBody c s).s.pending = s.pending :=
  sized_pending _ _ _ _ fun c s => by
    dsimp only
    split <;> simp
@[simp] theorem rcptFlushBody_pending : (rcptFlushBody c s).s.pending = s.pending :=
  sized_pending _ _ _ _ fun c s => by split <;> simp
@[simp] theorem tileEnter_pending (epoch : Nat) : (tileEnter t epoch s).pending = s.pending := rfl
@[simp] theorem tileEnterSend_pending : (tileEnterSend t s).pending = s.pending := by simp [tileEnterSend]
@[simp] theorem enterAcked_pending : (enterAcked t s).pending = s.pending := by simp [enterAcked]
@[simp] theorem restoreTile_pending : (restoreTile t s).pending = s.pending := by
  unfold restoreTile
  refine ite_keeps (by simp) ?_
  split <;> simp
@[simp] theorem tileSelftest_pending (pass : Bool) : (tileSelftest t pass s).pending = s.pending := by simp [tileSelftest]
@[simp] theorem progCopy_pending (target ph : Nat) (good : Bool) : (progCopy target ph good s).pending = s.pending := by simp [progCopy]
@[simp] theorem residueFail_pending (step : Nat) : (residueFail t jid step s).pending = s.pending := by
  unfold residueFail
  split <;> simp
@[simp] theorem residueAlarm_pending : (residueAlarm t s).pending = s.pending := by simp [residueAlarm]
@[simp] theorem eccUe_pending (region line : Nat) (job handle : Option Nat) : (eccUe t region line job handle s).pending = s.pending := by
  have hjob (s : State) : (match job with
      | some j => (match jobS s j with | some k => if k.st == JState.running && bit k.tiles t then jobEnd .aborted stIntegrity 0x11 j s else s | none => s)
      | none => s).pending = s.pending := by
    split
    · split <;> simp
    · rfl
  unfold eccUe
  refine ite_keeps rfl ?_
  cases handle with
  | none => exact (hjob _).trans (by rw [logEvent_pending, modTileJ_pending])
  | some h =>
    dsimp only
    split
    · exact ite_keeps ((hjob _).trans (by simp)) ((wpkFail_pending ..).trans ((logEvent_pending ..).trans ((hjob _).trans (by simp))))
    · exact (hjob _).trans (by simp)
@[simp] theorem dmaStart_pending (stream : Nat) : (dmaStart d stream jid s).pending = s.pending := by
  unfold dmaStart
  split <;> simp
@[simp] theorem ringRoom_pending (ctail : Nat) : (ringRoom tag ctail s).pending = s.pending := by
  unfold ringRoom
  split <;> simp
@[simp] theorem quantGrid_pending : (quantGrid s).pending = s.pending := by simp [quantGrid]

/-! ### Weights -/

@[simp] theorem spillSetup_pending (pages short srcva pkglen : Nat) :
    (spillSetup tag pages short srcva pkglen s).pending = s.pending := by simp [spillSetup]
@[simp] theorem wpkOpenBody_pending : (wpkOpenBody c s).s.pending = s.pending :=
  staged_pending _ _ _ _ _ fun b c s => by
    refine ite_keeps_s (by simp) (ite_keeps_s (by simp) (ite_keeps_s (by simp) ?_))
    dsimp only
    split <;> simp
@[simp] theorem wpkLoadBody_pending : (wpkLoadBody c s).s.pending = s.pending :=
  sized_pending _ _ _ _ fun c s => by
    dsimp only
    split <;> simp
@[simp] theorem spillOut_pending (w : Wpk) (pt : Bytes) : (spillOut w i pt s).pending = s.pending := by simp [spillOut]
@[simp] theorem wpkPage_pending (x : PageIn) : (wpkPage x s).pending = s.pending := by
  have hplace (w : Wpk) (i : Nat) (pt : Bytes) (pl : WPlace) : (match pl with | .spill => spillOut w i pt s | .ext n => extWrite n pt s | _ => s).pending = s.pending := by
    split <;> simp
  unfold wpkPage
  split
  · rfl
  · split
    · rfl
    · refine ite_keeps (loadEnd_pending ..) ?_
      split
      · exact loadEnd_pending ..
      · refine ite_keeps (by simp) ?_
        exact ite_keeps ((loadEnd_pending ..).trans (hplace ..)) (hplace ..)
@[simp] theorem wpkFinishBody_pending : (wpkFinishBody c s).s.pending = s.pending :=
  sized_pending _ _ _ _ fun c s => by
    dsimp only
    split <;> simp
@[simp] theorem wpkStatusBody_pending : (wpkStatusBody c s).s.pending = s.pending :=
  sized_pending _ _ _ _ fun c s => by split <;> simp
@[simp] theorem wpkCloseBody_pending : (wpkCloseBody c s).s.pending = s.pending :=
  sized_pending _ _ _ _ fun c s => by
    dsimp only
    split <;> simp
@[simp] theorem keyReleaseBody_pending : (keyReleaseBody c s).s.pending = s.pending :=
  sized_pending _ _ _ _ fun c s => by
    dsimp only
    split <;> simp
@[simp] theorem keyReleaseSetBody_pending : (keyReleaseSetBody c s).s.pending = s.pending :=
  staged_pending _ _ _ _ _ fun b c s => by
    dsimp only
    split <;> simp
@[simp] theorem setAuthDone_pending (h : Nat) : (setAuthDone c word h b e ok s).pending = s.pending := by
  unfold setAuthDone
  refine ite_keeps (by simp) (ite_keeps (by simp) ?_)
  split <;> simp
@[simp] theorem releaseDone_pending (h : Nat) (t wkey : Bytes) (set : Bool) (mdig : Bytes) (entries : List Bytes) :
    (releaseDone c word h e t wkey set mdig entries s).pending = s.pending := by
  unfold releaseDone
  refine ite_keeps (by simp) ?_
  split <;> simp
@[simp] theorem tagFailure_pending (addr : Nat) (onDie : Bool) : (tagFailure t addr onDie s).pending = s.pending := by simp [tagFailure]
@[simp] theorem stackLine_pending (line : Nat) (write : Option Bytes) : (stackLine t line write s).pending = s.pending := by
  unfold stackLine
  refine ite_keeps rfl (ite_keeps (by simp) ?_)
  split <;> simp
@[simp] theorem stackTemp_pending (temp : Nat) : (stackTemp t temp s).pending = s.pending := by simp [stackTemp]
@[simp] theorem spillRead_pending : (spillRead page jid s).pending = s.pending := by
  unfold spillRead
  split <;> simp
@[simp] theorem spillFetched_pending : (spillFetched page ok s).pending = s.pending := by
  unfold spillFetched
  refine ite_keeps rfl (ite_keeps ?_ (by simp))
  exact foldl_pending _ (fun _ _ => modJob_pending ..) _ _
@[simp] theorem laneResult_pending (dest : LaneDest) (chunk : Nat) : (laneResult dest chunk data s).pending = s.pending := by
  unfold laneResult
  split <;> simp

/-! ### Attest -/

@[simp] theorem attReportBody_pending : (attReportBody c s).s.pending = s.pending := by simp [attReportBody]
@[simp] theorem reportDone_pending (serial form : Nat) (pq : Bool) (payload : Bytes) (b : Option Machine.Bind) (ec ml : Bytes) :
    (reportDone c word serial form pq payload b e ec ml s).pending = s.pending := by
  cases b <;> simp [reportDone]
@[simp] theorem attCertsBody_pending : (attCertsBody c s).s.pending = s.pending :=
  sized_pending _ _ _ _ fun c s => by
    refine ite_keeps_s (by simp) (ite_keeps_s (by simp) (ite_keeps_s (by simp) ?_))
    split <;> simp
@[simp] theorem attMeasLogBody_pending : (attMeasLogBody c s).s.pending = s.pending := by simp [attMeasLogBody]
@[simp] theorem attEphemeralBody_pending : (attEphemeralBody c s).s.pending = s.pending :=
  sized_pending _ _ _ _ fun c s => by split <;> simp
@[simp] theorem ephemeralDone_pending (ek r : Bytes) : (ephemeralDone c word ek e r s).pending = s.pending := by
  unfold ephemeralDone
  split <;> simp [-List.reduceReplicate]

/-! ### Store -/

@[simp] theorem flashErrorEv_pending : (flashErrorEv off op s).pending = s.pending := by simp [flashErrorEv]
@[simp] theorem flashPut_pending (size : Nat) : (flashPut off size b s).pending = s.pending := rfl
@[simp] theorem flashSpoil_pending (size : Nat) : (flashSpoil off size n s).pending = s.pending := rfl
@[simp] theorem sealWrite_pending (pt : Bytes) : (sealWrite i pt s).pending = s.pending := by simp [sealWrite]
@[simp] theorem sealFail_pending : (sealFail i n s).pending = s.pending := by simp [sealFail]
@[simp] theorem recCommit_pending (r : TRec) : (recCommit i r s).pending = s.pending := by
  unfold recCommit
  dsimp only
  split <;> simp
@[simp] theorem hdrCommit_pending : (hdrCommit s).pending = s.pending := by simp [hdrCommit]
@[simp] theorem ringCommit_pending (r : ClearRcpt) : (ringCommit r s).pending = s.pending := by simp [ringCommit]
@[simp] theorem ringFail_pending (r : ClearRcpt) : (ringFail r s).pending = s.pending :=
  (flashErrorEv_pending ..).trans (flashSpoil_pending ..)
@[simp] theorem linkCommit_pending : (linkCommit s).pending = s.pending := by simp [linkCommit]
@[simp] theorem sectorCommit_pending (es : List LogEntry) : (sectorCommit es s).pending = s.pending := by simp [sectorCommit]
@[simp] theorem sectorFail_pending (es : List LogEntry) : (sectorFail es s).pending = s.pending := by simp [sectorFail]
@[simp] theorem flashCommit_pending (j : FJob) : (flashCommit j s).pending = s.pending := by
  unfold flashCommit
  split <;> simp
@[simp] theorem flashFailed_pending (j : FJob) : (flashFailed j s).pending = s.pending := by
  unfold flashFailed
  split <;> simp
@[simp] theorem flashNext_pending : (flashNext s).pending = s.pending := rfl
@[simp] theorem sealedOk_pending : (sealedOk ok s).2.pending = s.pending := rfl
@[simp] theorem flashDone_pending : (flashDone ok s).pending = s.pending := by
  unfold flashDone
  refine ite_keeps rfl ?_
  split <;> simp

/-! ### TenantOps -/

@[simp] theorem flashSync_pending (f : FSync) : (flashSync f s).pending = s.pending := rfl
@[simp] theorem tenantEnrollBody_pending : (tenantEnrollBody c s).s.pending = s.pending :=
  staged_pending _ _ _ _ _ fun b c s => by split <;> simp
@[simp] theorem enrollDone_pending (r : TRec) : (enrollDone c word r e ok s).pending = s.pending := by simp [enrollDone]
@[simp] theorem tenantRevokeBody_pending : (tenantRevokeBody c s).s.pending = s.pending :=
  staged_pending _ _ _ _ _ fun b c s => by
    refine ite_keeps_s (by simp) ?_
    split
    · simp
    · split
      · simp
      · refine ite_keeps_s (by simp) ?_
        split <;> simp
@[simp] theorem revokeDone_pending (same : Bool) : (revokeDone c word i same e ok s).pending = s.pending := by simp [revokeDone]
@[simp] theorem tenantStageBody_pending : (tenantStageBody c s).s.pending = s.pending :=
  sized_pending _ _ _ _ fun c s => by
    split
    · simp
    · split
      · simp
      · split
        · simp
        · simp
        · simp
        · split <;> simp
@[simp] theorem recordSync_pending (done : State → State) (hdone : ∀ s, (done s).pending = s.pending) :
    (recordSync c op word i ok done s).pending = s.pending := by
  simp [recordSync, hdone]
@[simp] theorem recSet_pending (st : RState) : (recSet i st s).pending = s.pending := by
  unfold recSet
  dsimp only
  split <;> simp
@[simp] theorem rosterSync_pending (f : FSync) : (rosterSync f ok s).pending = s.pending := by
  unfold rosterSync
  split <;> simp
@[simp] theorem loadStart_pending : (loadStart i s).pending = s.pending := by simp [loadStart]
@[simp] theorem tenantLoadBody_pending : (tenantLoadBody c s).s.pending = s.pending :=
  sized_pending _ _ _ _ fun c s => by
    split
    · simp
    · split
      · simp
      · refine ite_keeps_s (by simp) ?_
        split <;> simp
@[simp] theorem loadKeys_pending : (loadKeys s).pending = s.pending := by
  unfold loadKeys
  refine ite_keeps (by simp) ?_
  dsimp only
  split <;> simp
@[simp] theorem loadAck_pending : (loadAck u s).pending = s.pending := by simp [loadAck]
@[simp] theorem loadTimeout_pending : (loadTimeout s).pending = s.pending := by
  unfold loadTimeout
  refine ite_keeps rfl ?_
  split <;> simp
@[simp] theorem loadPass_pending : (loadPass s).pending = s.pending := by simp [loadPass]
@[simp] theorem tenantEvictBody_pending : (tenantEvictBody c s).s.pending = s.pending :=
  sized_pending _ _ _ _ fun c s => by split <;> simp
@[simp] theorem tenantStatusBody_pending : (tenantStatusBody c s).s.pending = s.pending :=
  sized_pending _ _ _ _ fun c s => by
    dsimp only
    split
    · simp
    · split <;> simp
@[simp] theorem tenantListBody_pending : (tenantListBody c s).s.pending = s.pending := by simp [tenantListBody]
@[simp] theorem tenantReceiptBody_pending : (tenantReceiptBody c s).s.pending = s.pending :=
  sized_pending _ _ _ _ fun c s => by
    dsimp only
    split <;> simp
@[simp] theorem portEnter_pending (epoch : Nat) : (portEnter u epoch s).pending = s.pending := by simp [portEnter]

/-! ### Links -/

@[simp] theorem setLState_pending (x : LState) : (setLState u p x s).pending = s.pending := by simp [setLState]
@[simp] theorem trainStart_pending : (trainStart u p s).pending = s.pending := by simp [trainStart]
@[simp] theorem routesSet_pending : (routesSet s).pending = s.pending := by
  unfold routesSet
  dsimp only
  split <;> simp
@[simp] theorem daddrSet_pending : (daddrSet a s).pending = s.pending := by
  unfold daddrSet
  split <;> simp
@[simp] theorem portDrop_pending : (portDrop d p s).pending = s.pending := by simp [portDrop]
@[simp] theorem mapOut_pending : (mapOut u p s).pending = s.pending := by simp [mapOut]
@[simp] theorem mapOutSeen_pending : (mapOutSeen u p cause s).pending = s.pending := by simp [mapOutSeen]
@[simp] theorem linkSignal_pending : (linkSignal u p s).pending = s.pending := by simp [linkSignal]
@[simp] theorem linkHello_pending (daddr : Nat) (ntag : Bytes) : (linkHello u p daddr ntag s).pending = s.pending := by
  unfold linkHello
  refine ite_keeps rfl ?_
  dsimp only
  split <;> simp
@[simp] theorem linkTrainFail_pending : (linkTrainFail u p s).pending = s.pending := by simp [linkTrainFail]
@[simp] theorem linkLost_pending : (linkLost u p s).pending = s.pending := by simp [linkLost]
@[simp] theorem linkHoldEnd_pending : (linkHoldEnd u p s).pending = s.pending := by simp [linkHoldEnd]
@[simp] theorem flowPort_pending (key mask : Nat) : (flowPort key mask s).2.pending = s.pending := by
  unfold flowPort
  dsimp only
  split
  · rfl
  · split <;> rfl
@[simp] theorem flitSend_pending (b : Nat) (head payload : Bytes) (job : Option Nat) :
    (flitSend b head payload job s).pending = s.pending := by simp [flitSend]
@[simp] theorem noRoute_pending : (noRoute d n s).pending = s.pending := by simp [noRoute]
@[simp] theorem plainDrop_pending : (plainDrop d s).pending = s.pending := by simp [plainDrop]
@[simp] theorem modLke_pending (f : LKey → LKey) : (modLke n f s).pending = s.pending := rfl
@[simp] theorem msgSend_pending (key daddr job : Nat) (msg : Bytes) : (msgSend d key daddr job msg s).pending = s.pending := by
  unfold msgSend
  dsimp only
  split <;> simp
@[simp] theorem linkSend_pending (x : SendIn) : (linkSend x s).pending = s.pending := by
  unfold linkSend
  refine ite_keeps rfl (ite_keeps (by simp) ?_)
  dsimp only
  split <;> simp
@[simp] theorem msgRecv_pending (key : Nat) (m : Bytes) : (msgRecv u key m s).pending = s.pending := by
  unfold msgRecv
  refine ite_keeps rfl (ite_keeps (by simp) ?_)
  split
  · simp
  · split <;> simp
@[simp] theorem flitRecv_pending (f : Bytes) : (flitRecv u p f s).pending = s.pending := by
  unfold flitRecv
  refine ite_keeps rfl (ite_keeps (by simp) (ite_keeps (by simp) (ite_keeps ?_ (by simp))))
  dsimp only
  split <;> simp
@[simp] theorem ackTimeout_pending : (ackTimeout u p s).pending = s.pending := by simp [ackTimeout]
@[simp] theorem linkDegrade_pending : (linkDegrade u p s).pending = s.pending := by simp [linkDegrade]
@[simp] theorem linkRecover_pending : (linkRecover u p s).pending = s.pending := by simp [linkRecover]
@[simp] theorem linkRetrain_pending : (linkRetrain u p s).pending = s.pending := by simp [linkRetrain]
@[simp] theorem linkCfg_pending : (linkCfg u p b s).pending = s.pending := by simp [linkCfg]
@[simp] theorem cfgAcked_pending : (cfgAcked u p b s).pending = s.pending := by
  unfold cfgAcked
  exact foldl_pending _ (fun s w => by split <;> simp) _ _
@[simp] theorem cfgSend_pending : (cfgSend u p b s).pending = s.pending := by simp [cfgSend]
@[simp] theorem restorePort_pending : (restorePort u s).pending = s.pending := by simp [restorePort]
@[simp] theorem linkTrain_pending (mask : Nat) : (linkTrain u mask s).pending = s.pending := by simp [linkTrain]
@[simp] theorem linkStatusBody_pending : (linkStatusBody c s).s.pending = s.pending := by simp [linkStatusBody]
@[simp] theorem linkJobEndBody_pending : (linkJobEndBody c s).s.pending = s.pending := by simp [linkJobEndBody]
@[simp] theorem linkBoundsBody_pending : (linkBoundsBody c s).s.pending = s.pending := by simp [linkBoundsBody]
@[simp] theorem linkKeyxBody_pending : (linkKeyxBody c s).s.pending = s.pending :=
  staged_pending _ _ _ _ _ fun b c s => by
    repeat' with_reducible apply ite_keeps_s
    any_goals simp
    split
    · rfl
    · simp
@[simp] theorem keyxInstall_pending (p : KeyxPend) (swap : Bool) : (keyxInstall p swap s).pending = s.pending := by simp [keyxInstall]
@[simp] theorem keyxEnd_pending (p : KeyxPend) : (keyxEnd p s).pending = s.pending := by simp [keyxEnd]
@[simp] theorem keyxDrop_pending (p : KeyxPend) : (keyxDrop p s).pending = s.pending := by simp [keyxDrop]
@[simp] theorem keyxFinish_pending (p : KeyxPend) (swap : Bool) (body : Bytes) :
    (keyxFinish c word p swap body s).pending = s.pending := by simp [keyxFinish]
@[simp] theorem keyxDone_pending (step : Nat) (r : List Bytes) : (keyxDone c word step b e ok r s).pending = s.pending := by
  unfold keyxDone
  extract_lets job lid da pend fail
  have hdrop (s : State) : (match pend with | some p => if step ∈ [1, 12, 11, 22] then keyxDrop p s else s | none => s).pending = s.pending := by
    clear_value pend
    split <;> simp
  have hfail (st n : Nat) (s : State) : (fail st n s).pending = s.pending :=
    (answer_pending ..).trans ((zeroSlots_pending ..).trans (hdrop s))
  clear_value fail pend
  repeat' with_reducible apply ite_keeps
  any_goals simp [hfail]
  all_goals split <;> simp [hfail]
@[simp] theorem keyxTimeout_pending (job : Nat) : (keyxTimeout job s).pending = s.pending := by simp [keyxTimeout]
@[simp] theorem linkClearBody_pending : (linkClearBody c s).s.pending = s.pending := by simp [linkClearBody]
@[simp] theorem linkClearDone_pending : (linkClearDone c word u p e ok s).pending = s.pending := by simp [linkClearDone]

/-! ### Power -/

@[simp] theorem clkHalt_pending : (clkHalt t s).pending = s.pending := by simp [clkHalt]
@[simp] theorem pairReading_pending : (pairReading t s).pending = s.pending := by simp [pairReading]
@[simp] theorem tjTrip_pending : (tjTrip t s).pending = s.pending := by simp [tjTrip]
@[simp] theorem vcoreTrip_pending : (vcoreTrip t s).pending = s.pending := by simp [vcoreTrip]
@[simp] theorem sensorTrip_pending : (sensorTrip t s).pending = s.pending := by simp [sensorTrip]
@[simp] theorem conversion_pending (tenths : Nat) : (conversion t tenths s).pending = s.pending := by simp [conversion]
@[simp] theorem throttleRelease_pending : (throttleRelease t s).pending = s.pending := by simp [throttleRelease]
@[simp] theorem avsStep_pending (target favs : Nat) : (avsStep t target favs s).pending = s.pending := by simp [avsStep]
@[simp] theorem droop_pending : (droop t s).pending = s.pending := by simp [droop]
@[simp] theorem brakeEvent_pending : (brakeEvent v s).pending = s.pending := by simp [brakeEvent]
@[simp] theorem brakeAssert_pending : (brakeAssert s).pending = s.pending := by simp [brakeAssert]
@[simp] theorem brakeDeassert_pending : (brakeDeassert s).pending = s.pending := by simp [brakeDeassert]
@[simp] theorem brakeRamp_pending : (brakeRamp s).pending = s.pending := by simp [brakeRamp]
@[simp] theorem standbySample_pending : (standbySample s).pending = s.pending := by simp [standbySample]
@[simp] theorem powerSample_pending (watts : Option Nat) : (powerSample watts s).pending = s.pending := by
  unfold powerSample
  split <;> simp
@[simp] theorem setReqs_pending : (setReqs s).pending = s.pending := by simp [setReqs]
@[simp] theorem mapCap_pending (f : Nat → Nat) : (mapCap f s).pending = s.pending := by simp [mapCap]
@[simp] theorem capLoop_pending : (capLoop s).pending = s.pending := by simp [capLoop]
@[simp] theorem thermLoop_pending : (thermLoop s).pending = s.pending := by simp [thermLoop]
@[simp] theorem threshCheck_pending : (threshCheck s).pending = s.pending := by simp [threshCheck]
@[simp] theorem telemUpdate_pending : (telemUpdate s).pending = s.pending := by simp [telemUpdate]
@[simp] theorem pwrStatusBody_pending : (pwrStatusBody c s).s.pending = s.pending :=
  sized_pending _ _ _ _ fun c s => by simp
@[simp] theorem pwrCapBody_pending : (pwrCapBody c s).s.pending = s.pending := by simp [pwrCapBody]
@[simp] theorem limitBody_pending : (limitBody c s).s.pending = s.pending := by simp [limitBody]
@[simp] theorem memTelemBody_pending : (memTelemBody c s).s.pending = s.pending := by simp [memTelemBody]
@[simp] theorem perfReadBody_pending : (perfReadBody c s).s.pending = s.pending := by simp [perfReadBody]
@[simp] theorem powerDownBody_pending : (powerDownBody c s).s.pending = s.pending := by simp [powerDownBody]
@[simp] theorem telemThreshBody_pending : (telemThreshBody c s).s.pending = s.pending := by simp [telemThreshBody]
@[simp] theorem irqQuantBody_pending : (irqQuantBody c s).s.pending = s.pending := by simp [irqQuantBody]

/-! ### Units -/

@[simp] theorem linyaWrite_pending : (linyaWrite u off v s).pending = s.pending := by
  unfold linyaWrite
  refine ite_keeps rfl (ite_keeps ?_ (by simp))
  split <;> simp
@[simp] theorem unitWrite_pending : (unitWrite u off v s).pending = s.pending := by
  unfold unitWrite
  repeat' with_reducible apply ite_keeps
  -- Not by `simp`: the kernel would unfold the differences of `off` and an address along with `modUnit`.
  any_goals with_reducible rfl
  any_goals with_reducible exact modUnit_pending ..
  · exact modTileJ_pending ..
  · split <;> rfl
  · exact linyaWrite_pending ..
@[simp] theorem fabricAccess_pending (write answered : Bool) : (fabricAccess u off write v answered s).pending = s.pending := by simp [fabricAccess]
@[simp] theorem fabricTimeout_pending : (fabricTimeout s).pending = s.pending := by simp [fabricTimeout]
@[simp] theorem imbSend_pending (frame : Bytes) : (imbSend u frame s).pending = s.pending := by simp [imbSend]
@[simp] theorem viewLog_pending (w : UState) (v : Option UState) (res : UState) (source : Nat) :
    (viewLog u w v res source s).pending = s.pending := by
  simp [viewLog]
@[simp] theorem viewCheck_pending (v : Option UState) (source : Nat) : (viewCheck u v source s).pending = s.pending := by
  unfold viewCheck
  refine ite_keeps rfl ?_
  dsimp only
  split
  · rfl
  · refine ite_keeps rfl (ite_keeps (by simp) (ite_keeps (by simp) ?_))
    split <;> simp
@[simp] theorem eventHandle_pending (p : Bytes) : (eventHandle u p s).pending = s.pending := by
  unfold eventHandle
  refine ite_keeps ?_ (by simp)
  dsimp only
  split <;> simp
@[simp] theorem viewAnswer_pending : (viewAnswer u s).pending = s.pending :=
  (foldl_pending _ (fun s w => by split <;> simp) _ _).trans (takeWaits_pending ..)
@[simp] theorem linkAnswer_pending : (linkAnswer u s).pending = s.pending :=
  (foldl_pending _ (fun s w => by split <;> simp) _ _).trans (takeWaits_pending ..)
@[simp] theorem respHandle_pending (cmd p : Bytes) : (respHandle u op cmd p s).pending = s.pending := by
  unfold respHandle
  split <;> simp
@[simp] theorem readyHandle_pending (gen version : Nat) : (readyHandle u gen version s).pending = s.pending := by simp [readyHandle]
@[simp] theorem imbHandle_pending (gen : Nat) (f : Bytes) : (imbHandle u gen f s).pending = s.pending := by simp [imbHandle]
@[simp] theorem imbPost_pending (gen : Nat) (frame : Bytes) : (imbPost u gen frame s).pending = s.pending := by simp [imbPost]
@[simp] theorem imbClear_pending : (imbClear u s).pending = s.pending := by
  unfold imbClear
  dsimp only
  split <;> simp
@[simp] theorem mapOutBy_pending (f : State → State) (hf : ∀ s, (f s).pending = s.pending) : (mapOutBy u p cause f s).pending = s.pending := by
  simp [mapOutBy, hf]
theorem unitHandles_pending (f : Bytes → State → Option (Bytes × State)) (hf : ∀ p s, ∀ x ∈ f p s, x.2.pending = s.pending) :
    (unitHandles u op f s).pending = s.pending := by
  unfold unitHandles
  dsimp only
  split
  · split
    next h => exact (imbPost_pending ..).trans ((hf _ _ _ h).trans (modUnit_pending ..))
    · rfl
  · simp
@[simp] theorem unitStatusBody_pending : (unitStatusBody c s).s.pending = s.pending := by simp [unitStatusBody]
@[simp] theorem heartbeat_pending : (heartbeat u s).pending = s.pending := by simp [heartbeat]
@[simp] theorem heartbeatOver_pending : (heartbeatOver u s).pending = s.pending := by simp [heartbeatOver]

/-! ### HostCmds -/

@[simp] theorem commitSel_pending (pref : Nat) (tgt : List Nat) (sd : Bytes) : (commitSel pref st tgt sd s).pending = s.pending := by simp [commitSel]
@[simp] theorem commitFail_pending : (commitFail s).pending = s.pending := by simp [commitFail]
@[simp] theorem writeUpd_pending (target : Nat) : (writeUpd target st len s).pending = s.pending := by simp [writeUpd]
@[simp] theorem setUpd_pending : (setUpd st s).pending = s.pending := by simp [setUpd]
@[simp] theorem updStatusBody_pending : (updStatusBody c s).s.pending = s.pending :=
  sized_pending _ _ _ _ fun c s => by simp
@[simp] theorem updBeginBody_pending : (updBeginBody c s).s.pending = s.pending :=
  sized_pending _ _ _ _ fun c s => by
    refine ite_keeps_s (by simp) (ite_keeps_s (by simp) ?_)
    split <;> simp
@[simp] theorem updDataBody_pending : (updDataBody c s).s.pending = s.pending := by
  unfold updDataBody
  refine ite_keeps_s (by simp) (ite_keeps_s (by simp) ?_)
  split <;> simp
@[simp] theorem updEndBody_pending : (updEndBody c s).s.pending = s.pending := by simp [updEndBody]
@[simp] theorem pldmReq_pending (d : Bytes) : (pldmReq cmd d s).pending = s.pending := by simp [pldmReq]
@[simp] theorem pldmAsk_pending : (pldmAsk s).pending = s.pending := by simp [pldmAsk]
@[simp] theorem updVerifyEnd_pending : (updVerifyEnd c word st detail typ code s).pending = s.pending := by simp [updVerifyEnd]
@[simp] theorem updVerified_pending : (updVerified c word s).pending = s.pending := by simp [updVerified]
@[simp] theorem updVerifyNext_pending (left : List Nat) : (updVerifyNext c word left s).pending = s.pending := by
  unfold updVerifyNext
  split
  · simp
  · refine ite_keeps (by simp) ?_
    split <;> simp
@[simp] theorem updVerifyDone_pending (left : List Nat) (ec ml : Bool) : (updVerifyDone c word left e ec ml s).pending = s.pending := by
  unfold updVerifyDone
  split <;> simp
@[simp] theorem updVerifyBegin_pending : (updVerifyBegin c word s).pending = s.pending := by
  unfold updVerifyBegin
  split <;> simp
@[simp] theorem updVerifyBody_pending : (updVerifyBody c s).s.pending = s.pending := by simp [updVerifyBody]
@[simp] theorem updActivateBody_pending : (updActivateBody c s).s.pending = s.pending :=
  sized_pending _ _ _ _ fun c s => by
    refine ite_keeps_s (by simp) (ite_keeps_s (by simp) ?_)
    split <;> simp
@[simp] theorem updCancelBody_pending : (updCancelBody c s).s.pending = s.pending :=
  sized_pending _ _ _ _ fun c s => by
    refine ite_keeps_s rfl (ite_keeps_s rfl ?_)
    split <;> simp
@[simp] theorem pldmFail_pending : (pldmFail s).pending = s.pending := by simp [pldmFail]
@[simp] theorem updBegun_pending (c : Option HostCall) (target : Nat) : (updBegun c word target len ok s).pending = s.pending := by
  cases c <;> simp [updBegun]
@[simp] theorem updEnded_pending (c : Option HostCall) : (updEnded c word ok s).pending = s.pending := by
  cases c <;> simp [updEnded]
@[simp] theorem updProgrammed_pending (c : Option HostCall) (d : Bytes) : (updProgrammed c word off d ok s).pending = s.pending := by
  cases c <;> simp [updProgrammed]
@[simp] theorem updActivated_pending (c : Option HostCall) (defer : Bool) : (updActivated c word defer ok s).pending = s.pending := by
  cases c <;> simp [updActivated]
@[simp] theorem noUpdReset_pending : (noUpdReset s).pending = s.pending := by simp [noUpdReset]
@[simp] theorem updCancelled_pending (c : Option HostCall) : (updCancelled c word ok s).pending = s.pending := by
  cases c <;> simp [updCancelled]
@[simp] theorem recordAbandoned_pending (slot : Nat) : (recordAbandoned slot s).pending = s.pending := by simp [recordAbandoned]
@[simp] theorem selCommitted_pending (slot : Nat) (reset : Bool) : (selCommitted slot st reset ok s).pending = s.pending := by simp [selCommitted]
@[simp] theorem trialFail_pending : (trialFail s).pending = s.pending := by simp [trialFail]
@[simp] theorem trialPass_pending : (trialPass s).pending = s.pending := by simp [trialPass]
@[simp] theorem trialCheck_pending : (trialCheck ok s).pending = s.pending := by simp [trialCheck]
@[simp] theorem healthDone_pending (verify : Bool) (ec ml : Bytes) : (healthDone verify e ec ml ok s).pending = s.pending := by simp [healthDone]
@[simp] theorem updSync_pending (f : FSync) : (updSync f ok s).pending = s.pending := by
  unfold updSync
  split <;> simp
@[simp] theorem ringRead_pending (l : List (Nat × Bytes)) (nextSeq from' max : Nat) : (ringRead l nextSeq from' max s).s.pending = s.pending := by
  simp [ringRead]
@[simp] theorem logReadBody_pending : (logReadBody c s).s.pending = s.pending :=
  sized_pending _ _ _ _ fun c s => by
    refine ite_keeps_s (by simp) (ite_keeps_s (by simp) ?_)
    dsimp only
    split <;> simp
@[simp] theorem logConfigBody_pending : (logConfigBody c s).s.pending = s.pending := by simp [logConfigBody]
@[simp] theorem traceConfigBody_pending : (traceConfigBody c s).s.pending = s.pending := by simp [traceConfigBody]
@[simp] theorem traceReadBody_pending : (traceReadBody c s).s.pending = s.pending := by simp [traceReadBody]
@[simp] theorem rcptBatchBody_pending : (rcptBatchBody c s).s.pending = s.pending :=
  sized_pending _ _ _ _ fun c s => by
    dsimp only
    split <;> simp
@[simp] theorem svcNonceBody_pending : (svcNonceBody c s).s.pending = s.pending :=
  sized_pending _ _ _ _ fun c s => by simp
@[simp] theorem tokenCheck_pending (arg : Nat) : (tokenCheck op arg b c s).s.pending = s.pending := by simp [tokenCheck]
@[simp] theorem lcAdvanceBody_pending : (lcAdvanceBody c s).s.pending = s.pending := by simp [lcAdvanceBody]
@[simp] theorem vkeyRevokeBody_pending : (vkeyRevokeBody c s).s.pending = s.pending := by simp [vkeyRevokeBody]
@[simp] theorem tokenOtpEnd_pending : (tokenOtpEnd s).pending = s.pending := by
  unfold tokenOtpEnd
  exact foldl_pending _ (fun s w => by split <;> simp) _ _
@[simp] theorem tokenDone_pending (arg : Nat) : (tokenDone c word op arg e ok s).pending = s.pending := by simp [tokenDone]
@[simp] theorem svcQuarantineBody_pending : (svcQuarantineBody c s).s.pending = s.pending := by simp [svcQuarantineBody]
@[simp] theorem wardenResetBody_pending : (wardenResetBody c s).s.pending = s.pending := by simp [wardenResetBody]

/-! ### HostExec -/

@[simp] theorem perstAssert_pending : (perstAssert d s).pending = s.pending := by simp [perstAssert]
@[simp] theorem dllDown_pending : (dllDown d s).pending = s.pending := by simp [dllDown]
@[simp] theorem flr_pending : (flr d s).pending = s.pending := by simp [flr]
@[simp] theorem linkUp_pending (gen width : Nat) : (linkUp d gen width s).pending = s.pending := by simp [linkUp]
@[simp] theorem resultReadRun_pending : (resultReadRun c s).pending = s.pending := by
  unfold resultReadRun
  split <;> simp
theorem bodyLow_pending {op : Nat} {f : HostCall → State → CmdRes} (h : bodyLow op = some f) (c : HostCall) (s : State) :
    (f c s).s.pending = s.pending := by
  unfold bodyLow at h
  split at h <;> cases h <;> simp
theorem bodyMid_pending {op : Nat} {f : HostCall → State → CmdRes} (h : bodyMid op = some f) (c : HostCall) (s : State) :
    (f c s).s.pending = s.pending := by
  unfold bodyMid at h
  split at h <;> cases h <;> simp
theorem bodyHigh_pending {op : Nat} {f : HostCall → State → CmdRes} (h : bodyHigh op = some f) (c : HostCall) (s : State) :
    (f c s).s.pending = s.pending := by
  unfold bodyHigh at h
  split at h <;> cases h <;> simp
@[simp] theorem hostDispatch_pending : (hostDispatch op c s).pending = s.pending := by
  unfold hostDispatch
  split
  · simp
  · split
    next f h =>
      rcases Option.or_eq_some_iff.1 h with h | ⟨-, h⟩
      · exact runCmd_pending _ _ _ _ fun c s => bodyLow_pending h c s
      · rcases Option.or_eq_some_iff.1 h with h | ⟨-, h⟩
        · exact runCmd_pending _ _ _ _ fun c s => bodyMid_pending h c s
        · exact runCmd_pending _ _ _ _ fun c s => bodyHigh_pending h c s
    · simp

/-! ### Spdm -/

@[simp] theorem doeReply_pending (ty : Nat) (p : Bytes) : (doeReply ty p s).pending = s.pending := by simp [doeReply]
@[simp] theorem spdmReply_pending (secured : Bool) (p : Bytes) : (spdmReply secured p s).pending = s.pending := by
  unfold spdmReply
  dsimp only
  split <;> simp
@[simp] theorem spdmBegin_pending : (spdmBegin code m s).pending = s.pending := by
  unfold spdmBegin
  dsimp only
  split <;> rfl
@[simp] theorem spdmRequest_pending (signed : Bool) (f : State → State) (hf : ∀ s, (f s).pending = s.pending) :
    (spdmRequest code m signed f s).pending = s.pending := by
  unfold spdmRequest
  refine ite_keeps rfl ?_
  split
  · rfl
  · refine ite_keeps (by simp) ?_
    split <;> simp [hf]
@[simp] theorem spdmNegotiated_pending (f : State → State) (hf : ∀ s, (f s).pending = s.pending) : (spdmNegotiated m f s).pending = s.pending := by
  simp [spdmNegotiated, hf]
@[simp] theorem spdmVersion_pending : (spdmVersion m s).pending = s.pending := by simp [spdmVersion]
@[simp] theorem spdmCaps_pending : (spdmCaps m s).pending = s.pending := by simp [spdmCaps]
@[simp] theorem spdmAlgs_pending : (spdmAlgs m s).pending = s.pending := by simp [spdmAlgs]
@[simp] theorem spdmDigests_pending : (spdmDigests m s).pending = s.pending :=
  spdmRequest_pending _ _ _ _ _ fun s => spdmNegotiated_pending _ _ _ fun s => by split <;> simp
@[simp] theorem spdmCert_pending : (spdmCert m s).pending = s.pending :=
  spdmRequest_pending _ _ _ _ _ fun s => spdmNegotiated_pending _ _ _ fun s => by
    refine ite_keeps (spdmReply_pending ..) ?_
    split <;> simp
@[simp] theorem spdmSign_pending (ctx : String) (secured : Bool) (p : Bytes) : (spdmSign ctx secured p s).pending = s.pending := by simp [spdmSign]
@[simp] theorem spdmChallenge_pending : (spdmChallenge m s).pending = s.pending :=
  spdmRequest_pending _ _ _ _ _ fun s => spdmNegotiated_pending _ _ _ fun s => by
    refine ite_keeps (spdmReply_pending ..) ?_
    split <;> simp
@[simp] theorem spdmMeas_pending : (spdmMeas m s).pending = s.pending := by simp [spdmMeas]
@[simp] theorem spdmKeyExchange_pending : (spdmKeyExchange m s).pending = s.pending := by simp [spdmKeyExchange]
@[simp] theorem spdmFinish_pending : (spdmFinish m s).pending = s.pending :=
  spdmRequest_pending _ _ _ _ _ fun s => spdmNegotiated_pending _ _ _ fun s => by split <;> simp
@[simp] theorem spdmEnd_pending : (spdmEnd m s).pending = s.pending := by simp [spdmEnd]
@[simp] theorem spdmOther_pending : (spdmOther code m s).pending = s.pending := by simp [spdmOther]
@[simp] theorem spdmDispatch_pending : (spdmDispatch code m s).pending = s.pending := by
  unfold spdmDispatch
  split <;> simp
@[simp] theorem spdmMessage_pending (secured : Bool) : (spdmMessage secured b s).pending = s.pending := by simp [spdmMessage]
@[simp] theorem spdmSecured_pending : (spdmSecured b s).pending = s.pending := by
  unfold spdmSecured
  split <;> simp
@[simp] theorem doeObject_pending (ws : List Word) : (doeObject ws s).pending = s.pending := by
  unfold doeObject
  refine ite_keeps rfl (ite_keeps rfl (ite_keeps rfl ?_))
  split <;> simp
@[simp] theorem doeAbort_pending : (doeAbort s).pending = s.pending := by simp [doeAbort]
@[simp] theorem spdmDone_pending (tok step : Nat) (secured : Bool) (p : Bytes) (r : List Bytes) :
    (spdmDone tok step secured p e r s).pending = s.pending := by
  unfold spdmDone
  refine ite_keeps (by simp) (ite_keeps (by simp) ?_)
  split <;> simp

/-! ### Mgmt -/

@[simp] theorem mgDiscard_pending : (mgDiscard s).pending = s.pending := by simp [mgDiscard]
@[simp] theorem mgAddress_pending (da : Nat) : (mgAddress da s).pending = s.pending := by simp [mgAddress]
@[simp] theorem ctlReply_pending (cc : Nat) (d : Bytes) : (ctlReply cmd cc d s).pending = s.pending := by simp [ctlReply]
@[simp] theorem ctlSetEid_pending : (ctlSetEid b s).pending = s.pending := by simp [ctlSetEid]
@[simp] theorem ctlGetEid_pending : (ctlGetEid b s).pending = s.pending := by simp [ctlGetEid]
@[simp] theorem ctlUuid_pending : (ctlUuid b s).pending = s.pending := by simp [ctlUuid]
@[simp] theorem ctlVersion_pending : (ctlVersion b s).pending = s.pending := by simp [ctlVersion]
@[simp] theorem ctlTypes_pending : (ctlTypes b s).pending = s.pending := by simp [ctlTypes]
@[simp] theorem ctlVendor_pending : (ctlVendor b s).pending = s.pending := by simp [ctlVendor]
@[simp] theorem mgControl_pending (m : Bytes) : (mgControl m s).pending = s.pending := by
  unfold mgControl
  refine ite_keeps (by simp) ?_
  split <;> simp
@[simp] theorem mgKeepaliveBody_pending : (mgKeepaliveBody c s).s.pending = s.pending := by simp [mgKeepaliveBody]
@[simp] theorem mgCap_pending (w : Nat) : (mgCap w s).pending = s.pending := rfl
@[simp] theorem mgCapBody_pending : (mgCapBody c s).s.pending = s.pending := by simp [mgCapBody]
@[simp] theorem mgHoldBody_pending : (mgHoldBody c s).s.pending = s.pending := by simp [mgHoldBody]
@[simp] theorem mgDaddrBody_pending : (mgDaddrBody c s).s.pending = s.pending := by simp [mgDaddrBody]
@[simp] theorem rakPut_pending (key : Bytes) : (rakPut key s).pending = s.pending := rfl
@[simp] theorem mgRakBody_pending : (mgRakBody c s).s.pending = s.pending :=
  staged_pending _ _ _ _ _ fun b c s => by split <;> simp
@[simp] theorem rakDone_pending (key : Bytes) : (rakDone word key e ok s).pending = s.pending := by simp [rakDone]
@[simp] theorem mgCsrBody_pending : (mgCsrBody c s).s.pending = s.pending := by simp [mgCsrBody]
@[simp] theorem csrDone_pending (scheme : Nat) (m : Bytes) (r : List Bytes) : (csrDone word scheme m e r s).pending = s.pending := by simp [csrDone]
@[simp] theorem mgCertBody_pending : (mgCertBody c s).s.pending = s.pending := by simp [mgCertBody]
@[simp] theorem certDone_pending (scheme : Nat) (der : Bytes) : (certDone word scheme der ok s).pending = s.pending := by simp [certDone]
@[simp] theorem mgSetkeyBody_pending : (mgSetkeyBody c s).s.pending = s.pending := by simp [mgSetkeyBody]
@[simp] theorem setKeyDone_pending (m ec ml : Bytes) : (setKeyDone word m e ec ml s).pending = s.pending := by simp [setKeyDone]
@[simp] theorem mgRequestBody_pending : (mgRequestBody c s).s.pending = s.pending := by simp [mgRequestBody]
@[simp] theorem mgProvisionBody_pending : (mgProvisionBody c s).s.pending = s.pending := by simp [mgProvisionBody]
theorem mgBody_pending {op : Nat} {f : HostCall → State → CmdRes} (h : mgBody op = some f) (c : HostCall) (s : State) :
    (f c s).s.pending = s.pending := by
  unfold mgBody at h
  split at h <;> cases h <;> simp
@[simp] theorem mgRun_pending (f : HostCall → State → CmdRes) (hf : ∀ c s, (f c s).s.pending = s.pending) : (mgRun op f c s).pending = s.pending := by
  unfold mgRun
  dsimp only
  split <;> simp [hf]
@[simp] theorem mgVendor_pending (m : Bytes) : (mgVendor m s).pending = s.pending := by
  unfold mgVendor
  refine ite_keeps rfl (ite_keeps (buildRsp_pending ..) (ite_keeps (buildRsp_pending ..) ?_))
  split
  next h => exact mgRun_pending _ _ _ _ fun c s => mgBody_pending h c s
  · refine ite_keeps (buildRsp_pending ..) (ite_keeps (buildRsp_pending ..) ?_)
    simp
@[simp] theorem orphanExpiry_pending : (orphanExpiry s).pending = s.pending := by simp [orphanExpiry]

/-! ### Pldm -/

@[simp] theorem pldmReply_pending (ty cc : Nat) (d : Bytes) : (pldmReply ty cmd cc d s).pending = s.pending := by simp [pldmReply]
@[simp] theorem pldmGetTid_pending : (pldmGetTid b s).pending = s.pending := by simp [pldmGetTid]
@[simp] theorem pldmSetTid_pending : (pldmSetTid b s).pending = s.pending := by simp [pldmSetTid]
@[simp] theorem pldmVersion_pending : (pldmVersion b s).pending = s.pending := by simp [pldmVersion]
@[simp] theorem pldmTypes_pending : (pldmTypes b s).pending = s.pending := by simp [pldmTypes]
@[simp] theorem pldmCommands_pending : (pldmCommands b s).pending = s.pending := by simp [pldmCommands]
@[simp] theorem pdrInfo_pending : (pdrInfo b s).pending = s.pending := by simp [pdrInfo]
@[simp] theorem pdrGet_pending : (pdrGet b s).pending = s.pending := by simp [pdrGet]
@[simp] theorem pldmSensor_pending : (pldmSensor b s).pending = s.pending := by simp [pldmSensor]
@[simp] theorem pldmState_pending : (pldmState b s).pending = s.pending := by simp [pldmState]
@[simp] theorem pldmNumEff_pending : (pldmNumEff b s).pending = s.pending := by simp [pldmNumEff]
@[simp] theorem pldmStateEff_pending : (pldmStateEff b s).pending = s.pending := by simp [pldmStateEff]
@[simp] theorem pldmReceiver_pending : (pldmReceiver b s).pending = s.pending := by simp [pldmReceiver]
@[simp] theorem pldmPoll_pending : (pldmPoll b s).pending = s.pending := by
  unfold pldmPoll
  refine ite_keeps (by simp) ?_
  dsimp only
  split <;> simp
@[simp] theorem eventResend_pending : (eventResend s).pending = s.pending := by
  unfold eventResend
  split <;> simp
@[simp] theorem fwRequest_pending : (fwRequest b s).pending = s.pending := by simp [fwRequest]
@[simp] theorem fwTable_pending : (fwTable b s).pending = s.pending := by simp [fwTable]
@[simp] theorem fwUpdate_pending : (fwUpdate b s).pending = s.pending := by
  unfold fwUpdate
  refine ite_keeps (by simp) (ite_keeps (by simp) (ite_keeps (by simp) (ite_keeps (by simp) ?_)))
  split <;> simp
@[simp] theorem fwData_pending : (fwData b s).pending = s.pending := by
  unfold fwData
  refine ite_keeps rfl (ite_keeps (by simp) ?_)
  split <;> simp
@[simp] theorem fwActivate_pending : (fwActivate b s).pending = s.pending := by
  unfold fwActivate
  refine ite_keeps (by simp) (ite_keeps (by simp) (ite_keeps (by simp) (ite_keeps (by simp) ?_)))
  split <;> simp
@[simp] theorem fwCancel_pending : (fwCancel s).pending = s.pending := by simp [fwCancel]
@[simp] theorem fwCancelComp_pending : (fwCancelComp s).pending = s.pending := by simp [fwCancelComp]
@[simp] theorem fwCancelAll_pending : (fwCancelAll s).pending = s.pending := by simp [fwCancelAll]
@[simp] theorem fwStatus_pending : (fwStatus s).pending = s.pending := by simp [fwStatus]
@[simp] theorem pldmBase_pending : (pldmBase cmd b s).pending = s.pending := by
  unfold pldmBase
  split <;> simp
@[simp] theorem pldmPlatform_pending : (pldmPlatform cmd b s).pending = s.pending := by
  unfold pldmPlatform
  split <;> simp
@[simp] theorem pldmUpdate_pending : (pldmUpdate cmd b s).pending = s.pending := by
  unfold pldmUpdate
  split <;> simp
@[simp] theorem mgPldm_pending (m : Bytes) : (mgPldm m s).pending = s.pending := by
  unfold mgPldm
  refine ite_keeps (by simp) (ite_keeps (by simp) ?_)
  split <;> simp
@[simp] theorem mgStart_pending (r : MgReq) : (mgStart r s).pending = s.pending := by
  unfold mgStart
  split <;> simp
@[simp] theorem mgPump_pending : (mgPump n s).pending = s.pending := by
  induction n generalizing s with
  | zero => rfl
  | succ n ih =>
    unfold mgPump
    split
    · rfl
    · split <;> simp [ih]
@[simp] theorem mgMessage_pending (peer : Nat) (m : Bytes) : (mgMessage peer tag m s).pending = s.pending := by simp [mgMessage]
@[simp] theorem mgRow_pending (m : Bytes) : (mgRow m s).pending = s.pending := by simp [mgRow]
@[simp] theorem mgPacket_pending (p : Bytes) : (mgPacket p s).pending = s.pending := by
  unfold mgPacket
  refine ite_keeps rfl ?_
  dsimp only
  split <;> simp
@[simp] theorem mgDrain_pending : (mgDrain s).pending = s.pending := by simp [mgDrain]
@[simp] theorem mctpRx_pending (p : Bytes) : (mctpRx p s).pending = s.pending := by simp [mctpRx]
@[simp] theorem mctpTimeout_pending : (mctpTimeout s).pending = s.pending := by simp [mctpTimeout]

/-! ### Complete -/

@[simp] theorem batchDone_pending (ec ml : Bytes) : (batchDone e ec ml s).pending = s.pending := by
  unfold batchDone
  split <;> simp
@[simp] theorem entryDone_pending (p : Purp) (r : List Bytes) : (entryDone p e r s).pending = s.pending := by
  unfold entryDone
  split <;> simp
@[simp] theorem entryRun_pending (x : PqEntry) : (entryRun x s).pending = s.pending := by
  unfold entryRun
  split <;> simp
@[simp] theorem entryStep_pending (x : PqEntry) (res : List Bytes) : (entryStep x e res s).pending = s.pending := by
  unfold entryStep
  split <;> simp
@[simp] theorem pkErrorEv_pending : (pkErrorEv op e s).pending = s.pending := by simp [pkErrorEv]
@[simp] theorem pkComplete_pending (x : PkEnd) : (pkComplete x s).pending = s.pending := by
  unfold pkComplete
  split
  · rfl
  · apply ite_keeps
    · split <;> simp
    · split <;> simp
@[simp] theorem spiDone_pending : (spiDone ok s).pending = s.pending := by
  unfold spiDone
  split
  · rfl
  · split <;> simp

/-! ### ExecBoot -/

@[simp] theorem standbyUp_pending (progWin : Bool) : (standbyUp progWin s).pending = s.pending := by simp [standbyUp]
@[simp] theorem standbyDown_pending : (standbyDown s).pending = s.pending := by simp [standbyDown]
@[simp] theorem mainOkFalls_pending : (mainOkFalls s).pending = s.pending := by simp [mainOkFalls]
@[simp] theorem linksDown_pending : (linksDown s).pending = s.pending := by simp [linksDown]
@[simp] theorem mclkLost_pending : (mclkLost s).pending = s.pending := by simp [mclkLost]

/-! ### RackEv -/

@[simp] theorem rackSend_pending : (rackSend s).pending = s.pending := by simp [rackSend]
@[simp] theorem rackPost_pending (r : Nat) : (rackPost r s).pending = s.pending := by simp [rackPost]
@[simp] theorem brakeLineOff_pending : (brakeLineOff s).pending = s.pending := by simp [brakeLineOff]
@[simp] theorem shelfEvent_pending : (shelfEvent n s).pending = s.pending := by simp [shelfEvent]
@[simp] theorem bbcHoldEnd_pending : (bbcHoldEnd s).pending = s.pending := by simp [bbcHoldEnd]
@[simp] theorem rmRelease_pending : (rmRelease s).pending = s.pending := by simp [rmRelease]
@[simp] theorem pumpLost_pending : (pumpLost n s).pending = s.pending := by simp [pumpLost]
@[simp] theorem pumpBack_pending : (pumpBack n s).pending = s.pending := by simp [pumpBack]
@[simp] theorem shelfBack_pending : (shelfBack n s).pending = s.pending := by simp [shelfBack]
@[simp] theorem rmFailover_pending : (rmFailover s).pending = s.pending := by simp [rmFailover]

/-! ### Regs -/

@[simp] theorem otpReg_pending : (otpReg off v s).pending = s.pending := by
  unfold otpReg
  split
  · split <;> simp
  · simp
  · simp
  · simp
  · simp
  · simp
  · rfl
@[simp] theorem dgCtrl_pending : (dgCtrl v s).pending = s.pending := by simp [dgCtrl]
@[simp] theorem dgDstcfg_pending : (dgDstcfg v s).pending = s.pending := rfl
@[simp] theorem dgCmd_pending : (dgCmd v s).pending = s.pending := by simp [dgCmd]
@[simp] theorem dgReg_pending : (dgReg off v s).pending = s.pending := by
  unfold dgReg
  split
  · exact dgGuard_pending _ _ fun s => dgCtrl_pending v s
  · exact dgGuard_pending _ _ fun s => dgDstcfg_pending v s
  · simp
  · simp
  · exact dgGuard_pending _ _ fun s => rfl
  · rfl
@[simp] theorem msReg_pending : (msReg off v s).pending = s.pending := by
  unfold msReg
  refine ite_keeps ?_ (by simp)
  split <;> simp
@[simp] theorem pkReg_pending : (pkReg off v s).pending = s.pending := by simp [pkReg]
@[simp] theorem ksCmd_pending : (ksCmd v s).pending = s.pending := by
  unfold ksCmd
  split <;> simp
@[simp] theorem ksReg_pending : (ksReg off v s).pending = s.pending := by simp [ksReg]
@[simp] theorem sqReg_pending : (sqReg off v s).pending = s.pending := by simp [sqReg]
@[simp] theorem hmbReg_pending (c : Nat) : (hmbReg c off v s).pending = s.pending := by
  unfold hmbReg
  split <;> simp
@[simp] theorem imbReg_pending : (imbReg u off v s).pending = s.pending := by
  unfold imbReg
  refine ite_keeps rfl ?_
  split <;> simp
@[simp] theorem mgReg_pending : (mgReg off v s).pending = s.pending := by simp [mgReg]
@[simp] theorem mbReg_pending : (mbReg off v s).pending = s.pending := by simp [mbReg]
@[simp] theorem smReg_pending : (smReg off v s).pending = s.pending := by simp [smReg]
@[simp] theorem tmReg_pending : (tmReg off v s).pending = s.pending := by
  unfold tmReg
  split <;> simp
@[simp] theorem stepRamWrite_pending : (stepRamWrite off v s).pending = s.pending := by simp [stepRamWrite]
theorem blockReg_pending {blk off v : Nat} {s t : State} (h : blockReg blk off v s = some t) : t.pending = s.pending := by
  unfold blockReg at h
  repeat (rcases of_ite_some h with rfl | h; · simp)
  cases h
@[simp] theorem coreWrite_pending : (coreWrite a v s).pending = s.pending := by
  unfold coreWrite
  repeat' with_reducible apply ite_keeps
  any_goals simp
  split
  next h => simp [blockReg_pending h]
  · rfl
@[simp] theorem irqBlock_pending : (irqBlock d off v s).pending = s.pending := by simp [irqBlock]
@[simp] theorem mbxReg_pending (c : Nat) : (mbxReg c off v s).pending = s.pending := by simp [mbxReg]
@[simp] theorem frReg_pending : (frReg off v s).pending = s.pending := by
  unfold frReg
  split <;> simp
@[simp] theorem apReg_pending : (apReg off v s).pending = s.pending := by simp [apReg]
@[simp] theorem aerUr_pending : (aerUr s).pending = s.pending := rfl
@[simp] theorem bar0Word32_pending (o : Nat) : (bar0Word32 d o v s).pending = s.pending := by simp [bar0Word32]
@[simp] theorem hostWrite_pending (bar2 : Bool) (o : Nat) (whole : Bool) : (hostWrite d bar2 o n v whole s).pending = s.pending := by
  unfold hostWrite
  refine ite_keeps rfl ?_
  split <;> simp
@[simp] theorem regWrite_pending : (regWrite a v s).pending = s.pending := by simp [regWrite]
end

/-! ## The rows -/

/-- If `r` is a next state, its queue of waiting commands is that of `s`. -/
def KeepsQueue (s : State) (r : Res) : Prop := ∀ t, r = .next t → t.pending = s.pending

section
variable {s t : State}

theorem keepsQueue_next (h : t.pending = s.pending) : KeepsQueue s (.next t) := by
  rintro _ ⟨⟩
  exact h

/-- A command of the mailbox, by its body. -/
theorem keepsQueue_runCmd {op : Nat} {f : HostCall → State → CmdRes} {c : HostCall} (hf : ∀ c s, (f c s).s.pending = s.pending) :
    KeepsQueue s (.next (runCmd op f c s)) := keepsQueue_next (runCmd_pending _ _ _ _ hf)

/-- An event of the sequencer, by what it does before firmware's bookkeeping. -/
theorem keepsQueue_sqEvent {f : State → State} (hf : ∀ s, (f s).pending = s.pending) : KeepsQueue s (.next (sqEvent f s)) :=
  keepsQueue_next (sqEvent_pending _ _ hf)

/-- A command that a unit takes, by what the unit does. -/
theorem keepsQueue_unitHandles {u op : Nat} {f : Bytes → State → Option (Bytes × State)} (hf : ∀ p s, ∀ x ∈ f p s, x.2.pending = s.pending) :
    KeepsQueue s (.next (sqEvent (unitHandles u op f) s)) := keepsQueue_sqEvent fun _ => unitHandles_pending _ _ _ _ hf
end

/-- REGISTER_WRITE answers no next state where it is refused (log entry 14). -/
theorem execRegisterWrite_keepsQueue (a : Nat) (v : Word) (s : State) : KeepsQueue s (execRegisterWrite a v s) := by
  unfold execRegisterWrite
  split
  · rintro _ ⟨⟩
  · exact keepsQueue_next (regWrite_pending ..)

/-- SRAM_INIT_DONE completes a stalled store (log entry 55). -/
theorem execSramInitDone_keepsQueue (s : State) : KeepsQueue s (execSramInitDone s) := by
  refine keepsQueue_next (ite_keeps ?_ rfl)
  dsimp only
  split
  · split <;> rfl
  · rfl

/-- Every command keeps the queue: each row of the table by the lemma of its meaning. -/
theorem exec_keepsQueue (c : Instr) (s : State) : KeepsQueue s (exec c s) :=
  match c with
  | .standbyGood .. => keepsQueue_next (standbyUp_pending ..)
  | .standbyLost => keepsQueue_next (standbyDown_pending ..)
  | .standbyOvervoltage => keepsQueue_next (standbyDown_pending ..)
  | .wardenRstNAssert => keepsQueue_next (by simp)
  | .coreResetRelease => keepsQueue_next (by simp)
  | .sramInitDone => execSramInitDone_keepsQueue s
  | .pkeBankZeroDone => keepsQueue_next (by simp)
  | .otpAutoload => keepsQueue_next (by simp)
  | .romBoot .. => keepsQueue_next (romBoot_pending ..)
  | .wfwInit .. => keepsQueue_sqEvent fun _ => wfwInit_pending ..
  | .bringupStart => keepsQueue_sqEvent fun _ => bringupStart_pending ..
  | .railPowerGood .. => keepsQueue_sqEvent fun _ => railGoodEv_pending ..
  | .unitImageLoad .. => keepsQueue_next (unitLoad_pending ..)
  | .unitReady .. => keepsQueue_sqEvent fun _ => imbPost_pending ..
  | .unitReadyTimeout .. => keepsQueue_next (readyTimeout_pending ..)
  | .stackTrainingDone .. => keepsQueue_next (stackTrained_pending ..)
  | .stackTrainingTimeout .. => keepsQueue_next (by simp)
  | .mainInputGood => keepsQueue_next rfl
  | .mainInputLost => keepsQueue_next (mainOkFalls_pending ..)
  | .mainOvervoltage => keepsQueue_next (mainOkFalls_pending ..)
  | .refclkPcieLoss => keepsQueue_next (by simp)
  | .refclkLinkLoss => keepsQueue_next (by simp)
  | .quarantineClearDone => keepsQueue_next (quarCleared_pending ..)
  | .lockstepMismatch => keepsQueue_next (by simp)
  | .sramUncorrectableError .. => keepsQueue_next (by simp)
  | .wdSwrstWrite .. => keepsQueue_next (by simp)
  | .watchdogKick .. => keepsQueue_next (by simp)
  | .watchdogStage1 => keepsQueue_next (by simp)
  | .watchdogStage2 => keepsQueue_next (by simp)
  | .timerCompare => keepsQueue_next (irq_pending ..)
  | .hbTickIncrement => keepsQueue_next (by simp)
  | .registerWrite .. => execRegisterWrite_keepsQueue _ _ s
  | .fabricWindowAccess .. => keepsQueue_next (fabricAccess_pending ..)
  | .fabricWindowTimeout => keepsQueue_next (fabricTimeout_pending ..)
  | .imbCommandDoorbell .. => keepsQueue_next (imbSend_pending ..)
  | .imbResponse .. => keepsQueue_sqEvent fun _ => imbPost_pending ..
  | .imbRspClear .. => keepsQueue_sqEvent fun _ => imbClear_pending ..
  | .unitEvent .. => keepsQueue_sqEvent fun _ => imbPost_pending ..
  | .unitHeartbeat .. => keepsQueue_next (heartbeat_pending ..)
  | .heartbeatLimit .. => keepsQueue_next (heartbeatOver_pending ..)
  | .sqStart => keepsQueue_next (sqStart_pending ..)
  | .sqAbort => keepsQueue_sqEvent fun _ => sqAbort_pending ..
  | .sqNop => keepsQueue_sqEvent fun _ => sqRun_pending ..
  | .sqEnd => keepsQueue_sqEvent fun _ => sqRun_pending ..
  | .sqSkip => keepsQueue_sqEvent fun _ => sqRun_pending ..
  | .sqDelay => keepsQueue_sqEvent fun _ => sqRun_pending ..
  | .sqDelayExpiry => keepsQueue_sqEvent fun _ => by split <;> simp
  | .sqSetarg => keepsQueue_sqEvent fun _ => sqRun_pending ..
  | .sqSetflag => keepsQueue_sqEvent fun _ => sqRun_pending ..
  | .sqIrq => keepsQueue_sqEvent fun _ => sqRun_pending ..
  | .sqJoin => keepsQueue_sqEvent fun _ => sqRun_pending ..
  | .sqClear => keepsQueue_sqEvent fun _ => sqRun_pending ..
  | .sqVerify => keepsQueue_sqEvent fun _ => sqRun_pending ..
  | .unitOpComplete .. => keepsQueue_sqEvent fun _ => unitOpDone_pending ..
  | .sqKpush .. => keepsQueue_sqEvent fun _ => sqRun_pending ..
  | .sqKpzero => keepsQueue_sqEvent fun _ => sqRun_pending ..
  | .sqKszero => keepsQueue_sqEvent fun _ => sqKszeroRun_pending ..
  | .sqDigest .. => keepsQueue_sqEvent fun _ => sqRun_pending ..
  | .sqReset .. => keepsQueue_sqEvent fun _ => sqRun_pending ..
  | .sqClock => keepsQueue_sqEvent fun _ => sqRun_pending ..
  | .sqRail => keepsQueue_sqEvent fun _ => sqRun_pending ..
  | .sqIllegalStep => keepsQueue_sqEvent fun _ => sqIllegal_pending ..
  | .sqStepTimeout => keepsQueue_sqEvent fun _ => sqTimeout_pending ..
  | .wdClkstopWrite .. => keepsQueue_next rfl
  | .clkstopConfirmTimeout => keepsQueue_next (by simp)
  | .otRead => keepsQueue_next (otRead_pending ..)
  | .otProg => keepsQueue_next (otProg_pending ..)
  | .otGen => keepsQueue_next (otGen_pending ..)
  | .otIncrTo .. => keepsQueue_next (otIncr_pending ..)
  | .otRevoke .. => keepsQueue_next (otRevoke_pending ..)
  | .otLcAdvance .. => keepsQueue_next (otLc_pending ..)
  | .otRepair => keepsQueue_next (otRepair_pending ..)
  | .otIllegalCmd .. => keepsQueue_next (by simp)
  | .otCmdComplete .. => keepsQueue_next (by simp)
  | .dgStart => keepsQueue_next (dgStart_pending ..)
  | .dgDataWrite .. => keepsQueue_next (dgData_pending ..)
  | .dgBlockAbsorbed => keepsQueue_next (dgAbsorbed_pending ..)
  | .dgFinish => keepsQueue_next (dgFinish_pending ..)
  | .dgOuterPassDone => keepsQueue_next (dgOuter_pending ..)
  | .dgClear => keepsQueue_next (dgClear_pending ..)
  | .dgRootkdf => keepsQueue_next (dgRootKdf_pending ..)
  | .ksGen .. => keepsQueue_next (ksGen_pending ..)
  | .ksUnwrap .. => keepsQueue_next (ksUnwrap_pending ..)
  | .ksZero .. => keepsQueue_next (ksZero_pending ..)
  | .ksZeroAll .. => keepsQueue_next (ksZeroAll_pending ..)
  | .ksSetuse .. => keepsQueue_next (ksSetUse_pending ..)
  | .ksLock .. => keepsQueue_next (ksLock_pending ..)
  | .ksLoad .. => keepsQueue_next (ksLoad_pending ..)
  | .ksRecheck => keepsQueue_next (by simp)
  | .kcvRecheckPass .. => keepsQueue_next (by split <;> simp)
  | .pkStart .. => keepsQueue_next (pkStart_pending ..)
  | .pkeJobComplete .. => keepsQueue_next (pkComplete_pending ..)
  | .msExtend .. => keepsQueue_next (msCmdExtend_pending ..)
  | .msLock .. => keepsQueue_next (msCmdLock_pending ..)
  | .msTzero => keepsQueue_next (msCmdTzero_pending ..)
  | .unitRestartReload .. => keepsQueue_next (unitReload_pending ..)
  | .trialHealthCheck .. => keepsQueue_next (trialCheck_pending ..)
  | .perstNAssert .. => keepsQueue_next (perstAssert_pending ..)
  | .perstNDeassert .. => keepsQueue_next (by simp)
  | .functionLevelReset .. => keepsQueue_next (flr_pending ..)
  | .dataLinkLayerDown .. => keepsQueue_next (dllDown_pending ..)
  | .linkUp .. => keepsQueue_next (linkUp_pending ..)
  | .d3hotEntry .. => keepsQueue_next (by simp)
  | .d0Entry .. => keepsQueue_next (sendPending_pending ..)
  | .msixUnmask .. => keepsQueue_next (by simp)
  | .mbxBufferWrite .. => keepsQueue_next (mbxWrite_pending ..)
  | .mbxDoorbell .. => keepsQueue_next (mbxDoorbell_pending ..)
  | .mbxRspAck .. => keepsQueue_next (by simp)
  | .hmbTake .. => keepsQueue_next (hmbTake_pending ..)
  | .hmbMoveDone .. => keepsQueue_next (hmbMoveDone_pending _ _ _ hostDispatch_pending)
  | .jobDuplicateRelease .. => keepsQueue_next (dupRelease_pending ..)
  | .hmbPost .. => keepsQueue_next (hmbPost_pending ..)
  | .hmbClrrsp .. => keepsQueue_next (modChan_pending ..)
  | .featureOffer .. => keepsQueue_runCmd featureOfferBody_pending
  | .featureAccept .. => keepsQueue_runCmd featureAcceptBody_pending
  | .modeSet .. => keepsQueue_runCmd modeSetBody_pending
  | .channelReset .. => keepsQueue_runCmd channelResetBody_pending
  | .resultRead .. => keepsQueue_next (resultReadRun_pending ..)
  | .resultRelease .. => keepsQueue_runCmd resultReleaseBody_pending
  | .stagePut .. => keepsQueue_runCmd stagePutBody_pending
  | .stageClear .. => keepsQueue_runCmd stageClearBody_pending
  | .attReport .. => keepsQueue_runCmd attReportBody_pending
  | .attCerts .. => keepsQueue_runCmd attCertsBody_pending
  | .attMeasLog .. => keepsQueue_runCmd attMeasLogBody_pending
  | .attEphemeral .. => keepsQueue_runCmd attEphemeralBody_pending
  | .tenantEnroll .. => keepsQueue_runCmd tenantEnrollBody_pending
  | .tenantStage .. => keepsQueue_runCmd tenantStageBody_pending
  | .tenantLoad .. => keepsQueue_runCmd tenantLoadBody_pending
  | .loadingUnitAck .. => keepsQueue_next (loadAck_pending ..)
  | .loadingAckTimeout => keepsQueue_next (loadTimeout_pending ..)
  | .loadingSelftestPass => keepsQueue_next (loadPass_pending ..)
  | .tenantEvict .. => keepsQueue_runCmd tenantEvictBody_pending
  | .tenantRevoke .. => keepsQueue_runCmd tenantRevokeBody_pending
  | .tenantStatus .. => keepsQueue_runCmd tenantStatusBody_pending
  | .tenantList .. => keepsQueue_runCmd tenantListBody_pending
  | .tenantClearReceipt .. => keepsQueue_runCmd tenantReceiptBody_pending
  | .switchHaltDone => keepsQueue_next (by simp)
  | .switchHaltTimeout => keepsQueue_next (switchHalted_pending ..)
  | .flashWriteDone .. => keepsQueue_next (flashDone_pending ..)
  | .wpkOpen .. => keepsQueue_runCmd wpkOpenBody_pending
  | .keyRelease .. => keepsQueue_runCmd keyReleaseBody_pending
  | .keyReleaseSet .. => keepsQueue_runCmd keyReleaseSetBody_pending
  | .wpkLoad .. => keepsQueue_runCmd wpkLoadBody_pending
  | .wpkPageFold .. => keepsQueue_next (wpkPage_pending ..)
  | .wpkFinish .. => keepsQueue_runCmd wpkFinishBody_pending
  | .wpkStatus .. => keepsQueue_runCmd wpkStatusBody_pending
  | .wpkClose .. => keepsQueue_runCmd wpkCloseBody_pending
  | .progLoad .. => keepsQueue_runCmd progLoadBody_pending
  | .jobSubmit .. => keepsQueue_runCmd jobSubmitBody_pending
  | .jobCancel .. => keepsQueue_runCmd jobCancelBody_pending
  | .jobStatus .. => keepsQueue_runCmd jobStatusBody_pending
  | .rcptFlush .. => keepsQueue_runCmd rcptFlushBody_pending
  | .astCreate .. => keepsQueue_runCmd astCreateBody_pending
  | .astDestroy .. => keepsQueue_runCmd astDestroyBody_pending
  | .astInvalidate .. => keepsQueue_runCmd astInvalidateBody_pending
  | .prefetch .. => keepsQueue_runCmd prefetchBody_pending
  | .advise .. => keepsQueue_runCmd adviseBody_pending
  | .faultResume .. => keepsQueue_runCmd faultResumeBody_pending
  | .mirrorSet .. => keepsQueue_runCmd mirrorSetBody_pending
  | .regionSet .. => keepsQueue_runCmd regionSetBody_pending
  | .linkStatus .. => keepsQueue_runCmd linkStatusBody_pending
  | .linkKeyx .. => keepsQueue_runCmd linkKeyxBody_pending
  | .linkJobEnd .. => keepsQueue_runCmd linkJobEndBody_pending
  | .linkBounds .. => keepsQueue_runCmd linkBoundsBody_pending
  | .linkClear .. => keepsQueue_runCmd linkClearBody_pending
  | .pwrStatus .. => keepsQueue_runCmd pwrStatusBody_pending
  | .pwrCapSet .. => keepsQueue_runCmd pwrCapBody_pending
  | .limitTighten .. => keepsQueue_runCmd limitBody_pending
  | .unitStatus .. => keepsQueue_runCmd unitStatusBody_pending
  | .memTelem .. => keepsQueue_runCmd memTelemBody_pending
  | .perfRead .. => keepsQueue_runCmd perfReadBody_pending
  | .powerDown .. => keepsQueue_runCmd powerDownBody_pending
  | .telemThresh .. => keepsQueue_runCmd telemThreshBody_pending
  | .irqQuant .. => keepsQueue_runCmd irqQuantBody_pending
  | .updStatus .. => keepsQueue_runCmd updStatusBody_pending
  | .updBegin .. => keepsQueue_runCmd updBeginBody_pending
  | .updData .. => keepsQueue_runCmd updDataBody_pending
  | .updEnd .. => keepsQueue_runCmd updEndBody_pending
  | .updVerify .. => keepsQueue_runCmd updVerifyBody_pending
  | .updActivate .. => keepsQueue_runCmd updActivateBody_pending
  | .updCancel .. => keepsQueue_runCmd updCancelBody_pending
  | .logRead .. => keepsQueue_runCmd logReadBody_pending
  | .logConfig .. => keepsQueue_runCmd logConfigBody_pending
  | .traceConfig .. => keepsQueue_runCmd traceConfigBody_pending
  | .traceRead .. => keepsQueue_runCmd traceReadBody_pending
  | .rcptBatch .. => keepsQueue_runCmd rcptBatchBody_pending
  | .svcNonce .. => keepsQueue_runCmd svcNonceBody_pending
  | .lcAdvance .. => keepsQueue_runCmd lcAdvanceBody_pending
  | .vkeyRevoke .. => keepsQueue_runCmd vkeyRevokeBody_pending
  | .svcQuarantine .. => keepsQueue_runCmd svcQuarantineBody_pending
  | .wardenReset .. => keepsQueue_runCmd wardenResetBody_pending
  | .mgKeepalive .. => keepsQueue_next (mgRow_pending ..)
  | .mgCapSet .. => keepsQueue_next (mgRow_pending ..)
  | .mgHold .. => keepsQueue_next (mgRow_pending ..)
  | .mgDaddrSet .. => keepsQueue_next (mgRow_pending ..)
  | .mgRakSet .. => keepsQueue_next (mgRow_pending ..)
  | .mgCsr .. => keepsQueue_next (mgRow_pending ..)
  | .mgCertWrite .. => keepsQueue_next (mgRow_pending ..)
  | .mgSetkey .. => keepsQueue_next (mgRow_pending ..)
  | .mgRequest .. => keepsQueue_next (mgRow_pending ..)
  | .mgProvision .. => keepsQueue_next (mgRow_pending ..)
  | .tileEnter .. => keepsQueue_unitHandles (by simp)
  | .progInstall .. => keepsQueue_unitHandles (by simp)
  | .jobEnqueue .. => keepsQueue_unitHandles (by simp)
  | .jobAbort .. => keepsQueue_unitHandles (by simp)
  | .selftest .. => keepsQueue_unitHandles (by simp)
  | .tileStatus .. => keepsQueue_unitHandles (by simp)
  | .progCopy .. => keepsQueue_unitHandles (by simp)
  | .portEnter .. => keepsQueue_unitHandles (by simp)
  | .linkCfg .. => keepsQueue_unitHandles (by simp)
  | .linkTrain .. => keepsQueue_unitHandles (by simp)
  | .linkQuery .. => keepsQueue_unitHandles (by simp)
  | .jobStart .. => keepsQueue_next (jobStart_pending ..)
  | .residueCheckFail .. => keepsQueue_next (residueFail_pending ..)
  | .residueAlarm .. => keepsQueue_next (residueAlarm_pending ..)
  | .eccUncorrectable .. => keepsQueue_next (eccUe_pending ..)
  | .jobFinal .. => keepsQueue_next (jobFinal_pending ..)
  | .completionRingRoom .. => keepsQueue_next (ringRoom_pending ..)
  | .completionQuantGrid => keepsQueue_next (quantGrid_pending ..)
  | .tagFailure .. => keepsQueue_next (tagFailure_pending ..)
  | .stackLineAccess .. => keepsQueue_next (stackLine_pending ..)
  | .stackTempThreshold .. => keepsQueue_next (stackTemp_pending ..)
  | .spillPageRead .. => keepsQueue_next (spillRead_pending ..)
  | .spillFetchDone .. => keepsQueue_next (spillFetched_pending ..)
  | .dmaDescriptorStart .. => keepsQueue_next (dmaStart_pending ..)
  | .inboundRecord .. => keepsQueue_next (inboundRec_pending ..)
  | .outboundRecord .. => keepsQueue_next (outboundRec_pending ..)
  | .apertureQuiesceTimeout .. => keepsQueue_next (apQuiesced_pending ..)
  | .apDescriptorWrite .. => keepsQueue_next (apDescWrite_pending ..)
  | .digestLaneResult .. => keepsQueue_next (laneResult_pending ..)
  | .rcptBatchTimeout => keepsQueue_next (closeDue_pending ..)
  | .invLaneDoorbell .. => keepsQueue_next (invLane_pending ..)
  | .invalidationComplete .. => keepsQueue_next (invComplete_pending ..)
  | .tableReadDone .. => keepsQueue_next (tableRead_pending ..)
  | .tableReadTimeout .. => keepsQueue_next (tableRead_pending ..)
  | .walkBudgetExpiry .. => keepsQueue_next (walkBudget_pending ..)
  | .faultBatchWindow => keepsQueue_next (faultClose_pending ..)
  | .faultRingTailWrite .. => keepsQueue_next (frTailWrite_pending ..)
  | .migrationPageLanded .. => keepsQueue_next (pageLanded_pending ..)
  | .migrationAbandon .. => keepsQueue_next (pageAbandon_pending ..)
  | .pageRelease .. => keepsQueue_next (pageRelease_pending ..)
  | .linkSignalDetect .. => keepsQueue_next (linkSignal_pending ..)
  | .linkHelloComplete .. => keepsQueue_next (linkHello_pending ..)
  | .linkTrainingFail .. => keepsQueue_sqEvent fun _ => mapOutBy_pending _ _ _ _ _ fun _ => linkTrainFail_pending ..
  | .linkSignalLost .. => keepsQueue_next (linkLost_pending ..)
  | .linkHoldExpiry .. => keepsQueue_next (linkHoldEnd_pending ..)
  | .flitReceived .. => keepsQueue_next (flitRecv_pending ..)
  | .linkMessageSend .. => keepsQueue_next (linkSend_pending ..)
  | .flitAckTimeout .. => keepsQueue_sqEvent fun _ => mapOutBy_pending _ _ _ _ _ fun _ => ackTimeout_pending ..
  | .linkUncorrLimit .. => keepsQueue_sqEvent fun _ => mapOutBy_pending _ _ _ _ _ fun _ => by simp
  | .linkDegraded .. => keepsQueue_next (linkDegrade_pending ..)
  | .linkDegradedTimeout .. => keepsQueue_sqEvent fun _ => mapOutBy_pending _ _ _ _ _ fun _ => by simp
  | .linkRetrainWrite .. => keepsQueue_next (linkRetrain_pending ..)
  | .keyxPendingTimeout .. => keepsQueue_next (keyxTimeout_pending ..)
  | .tjShutdownTrip .. => keepsQueue_next (tjTrip_pending ..)
  | .vcoreCeilingTrip .. => keepsQueue_next (vcoreTrip_pending ..)
  | .sensorMismatch .. => keepsQueue_next (sensorTrip_pending ..)
  | .throttleConversion .. => keepsQueue_next (conversion_pending ..)
  | .throttleReleaseStep .. => keepsQueue_next (throttleRelease_pending ..)
  | .avsLoopStep .. => keepsQueue_next (avsStep_pending ..)
  | .droopEvent .. => keepsQueue_next (droop_pending ..)
  | .brakeNAssert => keepsQueue_next (brakeAssert_pending ..)
  | .brakeNDeassert => keepsQueue_next (brakeDeassert_pending ..)
  | .brakeRampStep => keepsQueue_next (brakeRamp_pending ..)
  | .powerCapLoop => keepsQueue_next (capLoop_pending ..)
  | .thermalLoop => keepsQueue_next (by simp)
  | .telemetryUpdate => keepsQueue_next (telemUpdate_pending ..)
  | .persistentLogFlush => keepsQueue_next (by simp)
  | .doeObject .. => keepsQueue_next (doeObject_pending ..)
  | .doeAbort => keepsQueue_next (doeAbort_pending ..)
  | .getVersion .. => keepsQueue_next (spdmVersion_pending ..)
  | .getCapabilities .. => keepsQueue_next (spdmCaps_pending ..)
  | .negotiateAlgorithms .. => keepsQueue_next (spdmAlgs_pending ..)
  | .getDigests .. => keepsQueue_next (spdmDigests_pending ..)
  | .getCertificate .. => keepsQueue_next (spdmCert_pending ..)
  | .challenge .. => keepsQueue_next (spdmChallenge_pending ..)
  | .getMeasurements .. => keepsQueue_next (spdmMeas_pending ..)
  | .keyExchange .. => keepsQueue_next (spdmKeyExchange_pending ..)
  | .finish .. => keepsQueue_next (spdmFinish_pending ..)
  | .endSession .. => keepsQueue_next (spdmEnd_pending ..)
  | .spdmUnsupportedRequest .. => keepsQueue_next (spdmOther_pending ..)
  | .i3cAddressAssign .. => keepsQueue_next (mgAddress_pending ..)
  | .mctpPacketRx .. => keepsQueue_next (mctpRx_pending ..)
  | .mctpReassemblyTimeout => keepsQueue_next (mctpTimeout_pending ..)
  | .wdMgTxgoWrite .. => keepsQueue_next (mgTxgo_pending ..)
  | .setEndpointId .. => keepsQueue_next (mgRow_pending ..)
  | .getEndpointId .. => keepsQueue_next (mgRow_pending ..)
  | .getEndpointUuid .. => keepsQueue_next (mgRow_pending ..)
  | .getMctpVersionSupport .. => keepsQueue_next (mgRow_pending ..)
  | .getMessageTypeSupport .. => keepsQueue_next (mgRow_pending ..)
  | .getVendorMessageSupport .. => keepsQueue_next (mgRow_pending ..)
  | .getTid .. => keepsQueue_next (mgRow_pending ..)
  | .setTid .. => keepsQueue_next (mgRow_pending ..)
  | .getPldmVersion .. => keepsQueue_next (mgRow_pending ..)
  | .getPldmTypes .. => keepsQueue_next (mgRow_pending ..)
  | .getPldmCommands .. => keepsQueue_next (mgRow_pending ..)
  | .getPdrRepositoryInfo .. => keepsQueue_next (mgRow_pending ..)
  | .getPdr .. => keepsQueue_next (mgRow_pending ..)
  | .getSensorReading .. => keepsQueue_next (mgRow_pending ..)
  | .getStateSensorReadings .. => keepsQueue_next (mgRow_pending ..)
  | .setNumericEffecterValue .. => keepsQueue_next (mgRow_pending ..)
  | .setStateEffecterStates .. => keepsQueue_next (mgRow_pending ..)
  | .setEventReceiver .. => keepsQueue_next (mgRow_pending ..)
  | .pollPlatformEventMessage .. => keepsQueue_next (mgRow_pending ..)
  | .platformEventResend => keepsQueue_next (eventResend_pending ..)
  | .requestUpdate .. => keepsQueue_next (mgRow_pending ..)
  | .passComponentTable .. => keepsQueue_next (mgRow_pending ..)
  | .updateComponent .. => keepsQueue_next (mgRow_pending ..)
  | .firmwareDataResponse .. => keepsQueue_next (mgRow_pending ..)
  | .activateFirmware .. => keepsQueue_next (mgRow_pending ..)
  | .cancelUpdateComponent .. => keepsQueue_next (mgRow_pending ..)
  | .cancelUpdate .. => keepsQueue_next (mgRow_pending ..)
  | .getStatus .. => keepsQueue_next (mgRow_pending ..)
  | .orphanTimerExpiry => keepsQueue_next (orphanExpiry_pending ..)
  | .bbcShelfEvent .. => keepsQueue_next (shelfEvent_pending ..)
  | .bbcHoldExpiry => keepsQueue_next (bbcHoldEnd_pending ..)
  | .rmBrakeRelease => keepsQueue_next (rmRelease_pending ..)
  | .pumpLoss .. => keepsQueue_next (pumpLost_pending ..)
  | .rmFailover => keepsQueue_next (rmFailover_pending ..)
  | .ksCmdComplete => keepsQueue_next (ksComplete_pending ..)
  | .msCmdComplete => keepsQueue_next (msComplete_pending ..)
  | .spiFlashOpDone .. => keepsQueue_next (spiDone_pending ..)
  | .standbyProgWindowExit => keepsQueue_next (by simp)
  | .wardenRstNDeassert => keepsQueue_next (by simp)
  | .powerMonitorSample .. => keepsQueue_next (powerSample_pending ..)
  | .linkDegradedRecovery .. => keepsQueue_next (linkRecover_pending ..)
  | .drbgHealthFailure => keepsQueue_next (drbgFail_pending ..)
  | .hbFrCtrlWrite .. => keepsQueue_next (frCtrlWrite_pending ..)
  | .pumpRestored .. => keepsQueue_next (pumpBack_pending ..)
  | .shelfRestored .. => keepsQueue_next (shelfBack_pending ..)

/-- Settles O3: `exec_keepsQueue`, row by row. -/
theorem noCommandTouchesTheQueue : Obligations.NoCommandTouchesTheQueue := by
  unfold Obligations.NoCommandTouchesTheQueue
  exact exec_keepsQueue

end Sys2Proof.Machine
end

section
/-! # Tenants, jobs, weight packages and links as mailbox commands

The statements on roster changes and roster reads, the life of a job and its receipts, weight packages, and the link
commands (chapter 11), with the internal commands and flash work they wait for. -/
open Sys2Proof
namespace Sys2Proof.Machine

/-! ## Roster changes

The requests of TENANT_ENROLL, TENANT_STAGE and TENANT_REVOKE whose record and roster allow the change (R320 to R322). -/

/-- A committed header refuses no roster write (R316). -/
theorem hdrCheck_committed {s : State} (h : s.tn.ro.hdr = .committed) : hdrCheck s = none := by unfold hdrCheck; rw [h]

section
variable {c : HostCall} {s : State} {i : Nat} {r : TRec}

/-- TENANT_ENROLL of a well-formed request and a right statement on a committed roster: what the roster says (R320). -/
theorem tenantEnrollBody_eq (hl : c.payload.length = 32) (hk : stageOk c 8 s = true) (hz : allZero (slice c.payload 12 4) = true)
    (hs : stmtOk (stageBytes c s) 1 (field c.payload 0 8) = true) (hh : s.tn.ro.hdr = .committed) :
    tenantEnrollBody c s =
      let b := stageBytes c s
      let r : TRec := ⟨field c.payload 0 8, .enrolled, 0, 0, slice b 24 64, slice b 88 96, slice b 184 2592⟩
      if (tidIx (field c.payload 0 8) s).isSome then cmdFail s stExists 2
      else if Config.kTenants ≤ s.tn.ro.recs.length then cmdFail s stLimit 3
      else if slice b 16 8 != mfgId s then cmdFail s stAuthFail 4
      else if rosterBusy s then cmdFail s stBusy 0
      else cmdWait (pqAdd 2 (.enroll c (stateWord s) r) (verifyJobs r.tpkEc r.tpkMl (b.take 2776) (slice b 2776 96) (slice b 2872 4627)) s) := by
  refine (staged_eq hl hk hz).trans ((if_neg (by simp [hs])).trans ?_)
  rw [hdrCheck_committed hh]

/-- TENANT_STAGE of a tenant that has a record: what the record says (R322). -/
theorem tenantStageBody_eq (hl : c.payload.length = 8) (hi : tidIx (field c.payload 0 8) s = some i) (hr : recS s i = some r) :
    tenantStageBody c s = match r.state with
      | .revoked => cmdFail s stRevoked 0
      | .staged => cmdOk s (recBody i .staged ++ toLe 5 0)
      | .resident => cmdFail s stBadState 0
      | _ => match hdrCheck s with
        | some st => cmdFail s st 0
        | none =>
          if !policyFits r.policy s then cmdFail s stPolicy 0
          else if rosterBusy s then cmdFail s stBusy 0
          else cmdWait (flashSync (.stage c (stateWord s) i) s) := by
  refine (sized_eq hl s).trans ?_
  dsimp only
  rw [hi]; dsimp only; rw [hr] <;> rfl

/-- TENANT_STAGE of an ENROLLED or EVICTED record on a committed roster: the policy, then the flash (R322). -/
theorem tenantStageBody_unstaged (hl : c.payload.length = 8) (hi : tidIx (field c.payload 0 8) s = some i) (hr : recS s i = some r)
    (hs : r.state = .enrolled ∨ r.state = .evicted) (hh : s.tn.ro.hdr = .committed) :
    tenantStageBody c s = if !policyFits r.policy s then cmdFail s stPolicy 0
      else if rosterBusy s then cmdFail s stBusy 0
      else cmdWait (flashSync (.stage c (stateWord s) i) s) := by
  rw [tenantStageBody_eq hl hi hr, hdrCheck_committed hh]
  rcases hs with hs | hs <;> rw [hs]

/-- TENANT_REVOKE with a right statement of a tenant that has a record: what the record says (R321). -/
theorem tenantRevokeBody_eq (hl : c.payload.length = 32) (hk : stageOk c 8 s = true) (hz : allZero (slice c.payload 12 4) = true)
    (hs : stmtOk (stageBytes c s) 2 (field c.payload 0 8) = true) (hi : tidIx (field c.payload 0 8) s = some i) (hr : recS s i = some r) :
    tenantRevokeBody c s =
      let b := stageBytes c s
      if r.state == .revoked then cmdOk s (recBody i .revoked ++ toLe 5 0)
      else match hdrCheck s with
        | some st => cmdFail s st 0
        | none =>
          if slice b 16 8 != mfgId s then cmdFail s stAuthFail 4
          else if rosterBusy s then cmdFail s stBusy 0
          else cmdWait (pqAdd 2 (.revoke c (stateWord s) i (slice b 88 96 == r.tpkEc && slice b 184 2592 == r.tpkMl))
            (verifyJobs r.tpkEc r.tpkMl (b.take 2776) (slice b 2776 96) (slice b 2872 4627)) s) := by
  refine (staged_eq hl hk hz).trans ((if_neg (by simp [hs])).trans ?_)
  rw [hi]; dsimp only; rw [hr] <;> rfl

/-- TENANT_LOAD of a tenant that has a record: its state and the package's, then the checks of Table 14-6 (R323). -/
theorem tenantLoadBody_eq (hl : c.payload.length = 8) (hi : tidIx (field c.payload 0 8) s = some i) (hr : recS s i = some r) :
    tenantLoadBody c s = if s.pkg.st != .idle || r.state != .staged then cmdFail s stBadState 0
      else match loadCheck r s with
        | some st => cmdFail s st 0
        | none => ⟨loadStart i s, some (stOk, 0, recBody i r.state ++ [0#8] ++ toLe 8 (epochOf (loadStart i s))), true⟩ := by
  refine (sized_eq hl s).trans ?_
  dsimp only
  rw [hi]; dsimp only; rw [hr] <;> rfl

/-- TENANT_EVICT in ACTIVE: the request names the resident tenant, or it is not found (R260). -/
theorem tenantEvictBody_eq (hl : c.payload.length = 8) (hi : residentIx s = some i) (hr : recS s i = some r) (ha : s.pkg.st = .active) :
    tenantEvictBody c s = if r.tid ≠ field c.payload 0 8 then cmdFail s stNotFound 0
      else ⟨startSwitch 1 s, some (stOk, 0, recBody i .resident ++ [0#8] ++ toLe 8 (epochOf s)), true⟩ := by
  refine (sized_eq hl s).trans ?_
  rw [hi]; dsimp only
  rw [hr, if_neg (by simp [ha])]
  simp only [bne_iff_ne, ne_eq, ite_not]

end

/-! ## The flash writes a roster change waits for -/

/-- A roster record after an update of it. -/
theorem recS_modRec {i : Nat} {r : TRec} {s : State} (f : TRec → TRec) (h : recS s i = some r) : recS (modRec i f s) i = some (f r) := by
  show (modNth i f s.tn.ro.recs)[i]? = _
  rw [modNth, List.getElem?_modify_eq, show s.tn.ro.recs[i]? = some r from h]; rfl

/-- A record takes its new state in SRAM, and the record so changed is what goes to flash (R315, R317). -/
theorem recSet_eq {i : Nat} {r : TRec} {s : State} (st : RState) (h : recS s i = some r) :
    recSet i st s = recCommit i { r with state := st } (modRec i (fun r => { r with state := st }) s) := by
  unfold recSet; dsimp only; rw [recS_modRec _ h]

/-- A sealed write succeeds where the flash did, nothing cut it, and slot 6 holds a key (R317). -/
theorem sealedOk_good {s : State} (hb : s.fq.bad = false) (hk : slotServes (slotS s 6) 2 = true) :
    sealedOk true s = (true, { s with fq := { s.fq with bad := false } }) := by simp [sealedOk, hb, hk]

theorem sealedOk_bad {ok : Bool} {s : State} (h : ok = false ∨ s.fq.bad = true ∨ slotServes (slotS s 6) 2 = false) :
    sealedOk ok s = (false, { s with fq := { s.fq with bad := false } }) := by
  rcases h with h | h | h <;> simp [sealedOk, h]

/-- A record write that fails answers ST_FLASH_ERROR, and the old copy stands (R315, R317). -/
theorem recordSync_bad {ok : Bool} {s : State} (h : ok = false ∨ s.fq.bad = true ∨ slotServes (slotS s 6) 2 = false)
    (c : HostCall) (op w i : Nat) (f : State → State) :
    recordSync c op w i ok f s = answer c op w stFlashError 0 [] (sealFail i 2816 { s with fq := { s.fq with bad := false } }) := by
  unfold recordSync; rw [sealedOk_bad h]; rfl

theorem recordSync_good {s : State} (hb : s.fq.bad = false) (hk : slotServes (slotS s 6) 2 = true) (c : HostCall) (op w i : Nat) (f : State → State) :
    recordSync c op w i true f s = f { s with fq := { s.fq with bad := false } } := by
  unfold recordSync; rw [sealedOk_good hb hk]; rfl

/-- The flash operation a command waits for has ended: source 10, and the note of a cut slot 6 is gone (R317). -/
noncomputable def flashOpEnded (s : State) : State := irq 10 { s with fq := { s.fq with sync := none, bad := false } }

/-- The flash operation of TENANT_STAGE ends with the record write's outcome, then the background queue goes on (R317). -/
theorem spiDone_stage {c : HostCall} {w i : Nat} {s : State} (h : s.fq.sync = some (.stage c w i)) (ok : Bool) :
    spiDone ok s = flashNext (recordSync c 0x201 w i ok (fun s => answer c 0x201 w stOk 0 (recBody i .staged ++ toLe 5 0) (recSet i .staged s))
      (irq 10 { s with fq := { s.fq with sync := none } })) := by
  unfold spiDone; rw [h]; rfl

/-- The flash operation of TENANT_STAGE fails (R317, R322). -/
theorem spiDone_stage_bad {c : HostCall} {w i : Nat} {ok : Bool} {s : State} (h : s.fq.sync = some (.stage c w i))
    (hf : ok = false ∨ s.fq.bad = true ∨ slotServes (slotS s 6) 2 = false) :
    spiDone ok s = flashNext (answer c 0x201 w stFlashError 0 [] (sealFail i 2816 (flashOpEnded s))) :=
  (spiDone_stage h ok).trans (congrArg flashNext (recordSync_bad (s := irq 10 { s with fq := { s.fq with sync := none } }) hf ..))

/-- The flash operation of TENANT_STAGE succeeds: the record is STAGED in SRAM and in flash (R317, R322). -/
theorem spiDone_stage_good {c : HostCall} {w i : Nat} {r : TRec} {s : State} (h : s.fq.sync = some (.stage c w i))
    (hb : s.fq.bad = false) (hk : slotServes (slotS s 6) 2 = true) (hr : recS s i = some r) :
    spiDone true s = flashNext (answer c 0x201 w stOk 0 (recBody i .staged ++ toLe 5 0)
      (recCommit i { r with state := .staged } (modRec i (fun r => { r with state := .staged }) (flashOpEnded s)))) :=
  (spiDone_stage h true).trans (congrArg flashNext ((recordSync_good (s := irq 10 { s with fq := { s.fq with sync := none } }) hb hk ..).trans
    (congrArg (answer c 0x201 w stOk 0 _) (recSet_eq (s := flashOpEnded s) .staged hr))))

/-- A container's write at the head of the background queue ends: slot 6 decides with the flash (R315, R317). -/
theorem flashDone_sealed {j : FJob} {q : List FJob} {s : State} (hb : s.fq.busy = true) (hq : s.fq.q = j :: q) (hj : jobSealed j = true) (ok : Bool) :
    flashDone ok s =
      let p := sealedOk ok { s with fq := { s.fq with q := q } }
      flashNext (if p.1 then flashCommit j p.2 else flashFailed j p.2) := by
  unfold flashDone; rw [if_neg (by simp [hb]), hq]; dsimp only; rw [if_pos hj]

/-- Any other write at the head of the background queue ends as the flash did (R317). -/
theorem flashDone_plain {j : FJob} {q : List FJob} {s : State} (hb : s.fq.busy = true) (hq : s.fq.q = j :: q) (hj : jobSealed j = false) (ok : Bool) :
    flashDone ok s = flashNext (if ok then flashCommit j { s with fq := { s.fq with q := q } } else flashFailed j { s with fq := { s.fq with q := q } }) := by
  unfold flashDone; rw [if_neg (by simp [hb]), hq]; dsimp only; rw [hj]; rfl

/-- Settles O34: each request by its body, each flash write's end by its outcome. -/
theorem rosterChangesCommitInFlash : Obligations.RosterChangesCommitInFlash := by
  unfold Obligations.RosterChangesCommitInFlash
  refine ⟨fun c s h hc hl hk hz => ?enroll, fun c i r s h hl hi hr => ?stage, fun c i r s h hc hl hk hz hs hi hr hn hh hm hb => ?revoke,
    fun c i r s h hl hk hz hs hi hr hn => ?revoked, fun c w i s hs hq => ?spi, fun i pt s => ?gens, fun ok s hb => ?idle,
    fun j q s hb hq => ?write, fun c i r s h hl hi hr => ?load, fun c i r s h hl hi hr ha => ?evict⟩
  case enroll =>
    refine ⟨fun hs => ?_, fun hs hh ht => ?_, fun hs hh ht hn hm hb => ?_⟩
    · exact runCmd_failed h ((staged_eq hl hk hz).trans (if_pos (by simp [hs])))
    · exact runCmd_failed h ((tenantEnrollBody_eq hl hk hz hs hh).trans (if_pos ht))
    · refine runCmd_waits h ((tenantEnrollBody_eq hl hk hz hs hh).trans ?_)
      dsimp only
      rw [if_neg (by simp [ht]), if_neg (show ¬ Config.kTenants ≤ s.tn.ro.recs.length from Nat.not_le.2 hn), if_neg (by simp [hm]), if_neg (by simp [hb])]
  case stage =>
    have e := tenantStageBody_eq hl hi hr
    refine ⟨fun hs => runCmd_failed h (by rw [e, hs]), fun hs => runCmd_failed h (by rw [e, hs]), fun hs => runCmd_replied h (by rw [e, hs]; rfl),
      fun hs hh hp => runCmd_failed h ?_, fun hs hh hp hb => runCmd_waits h ?_⟩
    · rw [tenantStageBody_unstaged hl hi hr hs hh, if_pos (by simp [hp])]
    · rw [tenantStageBody_unstaged hl hi hr hs hh, if_neg (by simp [hp]), if_neg (by simp [hb])]; rfl
  case revoke =>
    refine runCmd_waits h ?_
    rw [tenantRevokeBody_eq hl hk hz hs hi hr, hdrCheck_committed hh]; dsimp only
    rw [if_neg (by simpa using hn), if_neg (by simp [hm]), if_neg (by simp [hb])]
  case revoked => exact runCmd_replied h ((tenantRevokeBody_eq hl hk hz hs hi hr).trans (if_pos (by simp [hn])))
  case spi =>
    exact ⟨fun ok hf => congrArg Host.Outcome.next (spiDone_stage_bad hs hf), fun r hb hk hr => congrArg Host.Outcome.next (spiDone_stage_good hs hb hk hr)⟩
  case gens => exact lookupNat_putKey_same ..
  case idle => exact congrArg Host.Outcome.next (if_pos (by simp [hb]))
  case write =>
    refine ⟨fun hj hbad hk => congrArg Host.Outcome.next ?_, fun hj ok => congrArg Host.Outcome.next ?_, fun hj ok hf => congrArg Host.Outcome.next ?_⟩
    · rw [flashDone_sealed hb hq hj, sealedOk_good (s := { s with fq := { s.fq with q := q } }) hbad hk]; rfl
    · exact flashDone_plain hb hq hj ok
    · rw [flashDone_sealed hb hq hj, sealedOk_bad (s := { s with fq := { s.fq with q := q } }) hf]; rfl
  case load =>
    have e := tenantLoadBody_eq hl hi hr
    refine ⟨fun hs => runCmd_failed h (e.trans (if_pos (by rcases hs with hs | hs <;> simp [hs]))), fun st hp hs hc => runCmd_failed h ?_,
      fun hp hs hc => runCmd_after h ?_⟩
    · rw [e, if_neg (by simp [hp, hs]), hc]
    · rw [e, if_neg (by simp [hp, hs]), hc, hs]; rfl
  case evict =>
    have e := tenantEvictBody_eq hl hi hr ha
    exact ⟨fun ht => runCmd_failed h (e.trans (if_pos ht)), fun ht => runCmd_after h (e.trans (if_neg (by simpa using ht)))⟩

end Sys2Proof.Machine
end

section
/-! # Jobs, completion rings and receipt batches

The statements on the life of a job (R373 to R379), and on tile checks, completion rings and receipt batches (R355 to R358,
R369 to R372, R438, R490). -/
open Sys2Proof
namespace Sys2Proof.Machine

/-! ## Internal commands

A unit takes the command in its inbox and answers it, and firmware answers the host's command that waits for it (R71, R224). -/

/-- A unit does what the command it takes asks for, and posts the response (R224). -/
theorem unitHandles_takes {u op : Nat} {p r : Bytes} {f : Bytes → State → Option (Bytes × State)} {s t : State}
    (h : unitTakes s u op = some p) (e : f p (tookCmd u s) = some (r, t)) : unitHandles u op f s = unitPosts u op r s t := by
  unfold unitHandles
  rw [h]; dsimp only
  rw [show f p (modUnit u (fun x => { x with rung := false }) s) = some (r, t) from e]; rfl

/-- The row of an internal command that its unit takes. -/
theorem sqEvent_unitHandles {u op : Nat} {p r : Bytes} {f : Bytes → State → Option (Bytes × State)} {s t : State}
    (h : unitTakes s u op = some p) (e : f p (tookCmd u s) = some (r, t)) : sqEvent (unitHandles u op f) s = unitDone u op r s t := by
  unfold unitDone sqEvent; rw [unitHandles_takes h e]

/-- The one command that waits for a unit is taken from those that wait. -/
theorem takeWaits_only {u op arg d : Nat} {call : Option (HostCall × Nat)} {s : State} (h : s.uw = [⟨u, op, call, arg, d⟩]) :
    takeWaits u op arg s = ([⟨u, op, call, arg, d⟩], { s with uw := [] }) := by
  simp [takeWaits, h]

/-! ## Submission (R375) -/

/-- A request that names a job and asks for neither receipt nor vector. -/
def SubmitArgs (c : HostCall) : Prop :=
  field c.payload 0 8 ≠ 0 ∧ field c.payload 13 1 = 0 ∧ field c.payload 15 1 = 0 ∧ field c.payload 24 8 ≠ 0 ∧ field c.payload 40 8 ≠ 0

/-- It names a program without weights, enough work space, and an aligned group of tiles for the program. -/
def SubmitProg (c : HostCall) (g : Prog) (s : State) : Prop :=
  s.jb.progs.find? (fun x => x.phandle == field c.payload 8 4) = some g ∧ g.wsmin ≤ field c.payload 56 8 ∧ allZero g.wroot = true ∧
    field c.payload 14 1 ≠ 0 ∧ groupAligned g.ntiles (field c.payload 14 1) = true

/-- Every tile is UP, and neither the package nor a tile has reached its number of jobs. -/
def JobsFit (s : State) : Prop :=
  (∀ t < 8, (unitS s t).ustate = .up) ∧ (s.jb.list.filter (fun j => j.st.live)).length < 1024 ∧ ∀ t < 8, queuedOn s t < 128

section
variable {c : HostCall} {a : Ast} {g : Prog} {s : State}

/-- Every tile is UP, so none that a mask names is in another state. -/
theorem JobsFit.named_up (h : JobsFit s) {x : UState} (hx : x ≠ .up) (m : Nat) :
    ¬ ((List.range 8).filter (bit m)).any (fun t => (unitS s t).ustate == x) = true := by
  intro hn
  obtain ⟨t, ht, e⟩ := List.any_eq_true.1 hn
  exact hx ((eq_of_beq e).symm.trans (h.1 t (List.mem_range.1 (List.mem_filter.1 ht).1)))

/-- No queue is full. -/
theorem JobsFit.queues_open (h : JobsFit s) (m : Nat) :
    ¬ (decide (1024 ≤ (s.jb.list.filter (fun j => j.st.live)).length) || (List.range 8).any (fun t => bit m t && decide (128 ≤ queuedOn s t))) = true := by
  obtain ⟨-, hlive, hqueued⟩ := h
  simp only [Bool.or_eq_true, decide_eq_true_eq, List.any_eq_true, List.mem_range, Bool.and_eq_true, not_or, not_exists, not_and]
  exact ⟨Nat.not_le.2 hlive, fun t ht _ => Nat.not_le.2 (hqueued t ht)⟩

/-- JOB_SUBMIT whose tag does not exist (R375). -/
theorem jobSubmitBody_noTag (hl : c.payload.length = 96) (ha : astS s (field c.payload 12 1) = none) :
    jobSubmitBody c s = cmdFail s stMalformed 0 := by
  refine (sized_eq hl s).trans ?_
  dsimp only; rw [ha]

/-- JOB_SUBMIT of job 0 (R375). -/
theorem jobSubmitBody_noJob (hl : c.payload.length = 96) (ha : astS s (field c.payload 12 1) = some a) (h0 : field c.payload 0 8 = 0) :
    jobSubmitBody c s = cmdFail s stMalformed 0 := by
  refine (sized_eq hl s).trans ?_
  dsimp only; rw [ha]; exact if_pos (by simp [h0])

/-- JOB_SUBMIT that passes its checks: the job is entered PARKED, and its ranges are walked (R375). -/
theorem jobSubmitBody_fits (hl : c.payload.length = 96) (ha : astS s (field c.payload 12 1) = some a)
    (hargs : SubmitArgs c) (hprog : SubmitProg c g s) (hfit : JobsFit s) :
    ∃ j : Job, jobSubmitBody c s = cmdWait (walkStart (field c.payload 12 1) (jobWalkPages j) (.submit (field c.payload 0 8) c)
        { s with draws := s.draws + 1, jb := { s.jb with list := s.jb.list.filter (fun x => x.id != field c.payload 0 8) ++ [j] } }) ∧
      j.id = field c.payload 0 8 ∧ j.ast = field c.payload 12 1 ∧ j.tiles = field c.payload 14 1 ∧ j.st = .parked ∧ j.phandle = g.phandle ∧ j.receipt = false ∧
      j.inVa = field c.payload 16 8 ∧ j.inLen = field c.payload 24 8 ∧ j.outVa = field c.payload 32 8 ∧ j.outLen = field c.payload 40 8 ∧ j.die = a.die := by
  obtain ⟨hid, hflags, hvec, hin, hout⟩ := hargs
  obtain ⟨hg, hws, hroot, htiles, hgroup⟩ := hprog
  have e : jobSubmitBody c s = _ := sized_eq hl s
  dsimp only at e
  rw [ha] at e; dsimp only at e
  rw [if_neg (by simp [hid, hflags, hvec, hin, hout]), hg] at e; dsimp only at e
  rw [if_neg (Nat.not_lt.2 hws), if_neg (by simp [hroot]), if_neg (by simp [hflags]), if_neg (by simp [hgroup]),
    if_neg (hfit.named_up (x := .failed) (by simp) _), if_neg (hfit.named_up (x := .resetting) (by simp) _), if_neg htiles] at e
  dsimp only at e
  rw [if_neg (hfit.queues_open _)] at e
  exact ⟨_, e, rfl, rfl, rfl, rfl, rfl, by simp [hflags], rfl, rfl, rfl, rfl, rfl⟩

end

/-! ## A job in the tiles' queues (R377, R379) -/

section
variable {jid : Nat} {j : Job} {s : State}

/-- A tile enters a QUEUED job of its own in the order of order numbers (R377). -/
theorem tileEnqueue_queued {t : Nat} (hj : jobS s jid = some j) (hq : j.st = .queued) (ht : bit j.tiles t = true) :
    tileEnqueue t j.order jid s = modTileJ t (fun x =>
      let q := x.queue.filter (fun q => q.2 != jid)
      { x with queue := q.filter (fun e => decide (e.1 < j.order)) ++ [(j.order, jid)] ++ q.filter (fun e => decide (j.order < e.1)) }) s := by
  unfold tileEnqueue; rw [hj]; exact if_pos (by simp [hq, ht])

/-- The submission that waits for a tile's JOB_ENQUEUE is answered with the place the tile reports (R377). -/
theorem enqueueAcked_only {t w d qpos : Nat} {c : HostCall} (hu : s.uw = [⟨t, 0x8003, some (c, w), jid, d⟩]) (hj : jobS s jid = some j) :
    enqueueAcked t jid qpos s = answer c 0x401 w stOk 0 (submitBody qpos j) { s with uw := [] } := by
  unfold enqueueAcked
  rw [takeWaits_only hu]; dsimp only
  rw [show jobS { s with uw := [] } jid = some j from hj]; rfl

/-- JOB_ABORT of a job that has not started ends it, for any reason but WITHDRAW (R379). -/
theorem tileAbort_waiting {t n : Nat} (hj : jobS s jid = some j) (hn : n ≠ 5) (hs : j.st = .queued ∨ j.st = .parked) :
    tileAbort t jid n s = jobEnd .cancelled stCancelled 0 jid s := by
  unfold tileAbort; rw [hj]
  exact (if_neg hn).trans (if_pos (by rcases hs with hs | hs <;> simp [hs]))

theorem tileAbort_started {t n : Nat} (hj : jobS s jid = some j) (hn : n ≠ 5) (hq : j.st ≠ .queued) (hp : j.st ≠ .parked) : tileAbort t jid n s = s := by
  unfold tileAbort; rw [hj]
  exact (if_neg hn).trans (if_neg (by simp [hq, hp]))

/-- WITHDRAW of a job that is no longer QUEUED takes it from the tile's queue (R430). -/
theorem tileAbort_withdraw {t : Nat} (hj : jobS s jid = some j) (hq : j.st ≠ .queued) :
    tileAbort t jid 5 s = modTileJ t (fun x => { x with queue := x.queue.filter (fun q => q.2 != jid) }) s := by
  unfold tileAbort; rw [hj]
  exact (if_pos rfl).trans (if_neg (by simp [hq]))

theorem jobCode_job (hj : jobS s jid = some j) : jobCode jid s = j.st.code := by unfold jobCode; rw [hj]

/-- The JOB_CANCEL that waits for a tile's JOB_ABORT is answered with the state the tile reports (R379). -/
theorem abortAcked_only {t w d code : Nat} {c : HostCall} (hu : s.uw = [⟨t, 0x8004, some (c, w), jid, d⟩]) :
    abortAcked t jid code s = answer c 0x402 w stOk (if code = 3 then 1 else 0) (toLe 1 code ++ toLe 7 0) { s with uw := [] } := by
  unfold abortAcked; rw [takeWaits_only hu]; rfl

/-! ## A job starts and ends (R373, R377, R378) -/

/-- A QUEUED job that heads the queue of every tile assigned to it, each eligible and with its clock, becomes RUNNING in ACTIVE (R377). -/
theorem jobStart_heads (hj : jobS s jid = some j) (ha : s.pkg.st = .active) (hq : j.st = .queued) (hs : j.stale = false)
    (hh : ∀ t < 8, bit j.tiles t = true → (tileJ s t).eligible = true ∧ (unitS s t).clkStop = false ∧ ∃ o r, (tileJ s t).queue = (o, jid) :: r) :
    ∃ wr : List Nat, jobStart jid s = trace 3 0xFF j.tiles jid (modAst j.ast (fun a => { a with
        resid := a.resid.map (fun (r : Resid) => if r.st == .clean && decide (r.page ∈ wr) then { r with st := .dirty } else r) })
      { s with jb := { s.jb with list := s.jb.list.map (fun j => if j.id = jid then { j with st := .running, meas := measDigest s } else j),
                                 tiles := s.jb.tiles.map (fun t => { t with queue := t.queue.filter (fun q => q.2 != jid) }) } }) := by
  have heads : (List.range 8).all (fun t => !bit j.tiles t || ((tileJ s t).eligible && !(unitS s t).clkStop
      && (match (tileJ s t).queue with | (_, x) :: _ => x == jid | [] => false))) = true := by
    refine List.all_eq_true.2 fun t ht => ?_
    cases hb : bit j.tiles t with
    | false => rfl
    | true =>
      obtain ⟨he, hc, o, r, hr⟩ := hh t (List.mem_range.1 ht) hb
      rw [he, hc, hr]; simp
  have starts {b : Bool} (hb : b = true) : ¬ (!(s.pkg.st == .active && j.st == .queued && !j.stale && b)) = true := by simp [ha, hq, hs, hb]
  unfold jobStart; rw [hj]
  exact ⟨_, if_neg (starts heads)⟩

/-- Every tile of a RUNNING job has reported its end, and no gate holds a good result back (R352, R378). -/
theorem jobFinal_running {x : JobEnd} (hj : jobS s jid = some j) (hr : j.st = .running) (he : j.ending = false)
    (hg : x.status = 0 → gateShut j s = false) :
    jobFinal jid x s =
      let r := modJob jid (fun j => { j with retry := j.retry || x.retry, ovf := x.ovf, written := x.written }) s
      if x.status ≠ stOk then jobEnd .aborted x.status x.detail jid r
      else if !j.receipt then jobEnd .done stOk 0 jid r
      else if digestsIn j then recMake jid (modJob jid (fun j => { j with ending := true }) r)
      else modJob jid (fun j => { j with ending := true }) r := by
  unfold jobFinal; rw [hj]
  exact if_neg (by simpa [hr, he] using hg)

/-- A closed gate holds back the result of a job that ended well (R370). -/
theorem jobFinal_gated {x : JobEnd} (hj : jobS s jid = some j) (hx : x.status = 0) (hg : gateShut j s = true) : jobFinal jid x s = s := by
  unfold jobFinal; rw [hj]
  exact if_pos (by simp [hx, hg])

end

/-! ## JOB_CANCEL and JOB_STATUS (R262, R379) -/

section
variable {c : HostCall} {j : Job} {s : State}

theorem jobCancelBody_unknown (hl : c.payload.length = 8) (hj : jobS s (field c.payload 0 8) = none) : jobCancelBody c s = cmdOk s (toLe 8 0) := by
  refine (sized_eq hl s).trans ?_
  dsimp only; rw [hj]

theorem jobCancelBody_parked (hl : c.payload.length = 8) (hj : jobS s (field c.payload 0 8) = some j) (hs : j.st = .parked) :
    jobCancelBody c s = cmdOk (jobEnd .cancelled stCancelled 0 (field c.payload 0 8) s) (toLe 1 6 ++ toLe 7 0) := by
  refine (sized_eq hl s).trans ?_
  dsimp only; rw [hj]; dsimp only; rw [hs]; rfl

theorem jobCancelBody_running (hl : c.payload.length = 8) (hj : jobS s (field c.payload 0 8) = some j) (hs : j.st = .running) :
    jobCancelBody c s = ⟨s, some (stOk, 1, toLe 1 3 ++ toLe 7 0), false⟩ := by
  refine (sized_eq hl s).trans ?_
  dsimp only; rw [hj]; dsimp only; rw [hs]; rfl

/-- JOB_CANCEL of a QUEUED job asks its lead tile (R379). -/
theorem jobCancelBody_queued (hl : c.payload.length = 8) (hj : jobS s (field c.payload 0 8) = some j) (hs : j.st = .queued) :
    jobCancelBody c s = cmdWait (unitCmd (leadTile j.tiles) 0x8004 (toLe 8 (field c.payload 0 8) ++ toLe 2 Config.abortReason)
      (unitSend (leadTile j.tiles) 0x8004 (some (c, stateWord s)) (field c.payload 0 8) s)) := by
  refine (sized_eq hl s).trans ?_
  dsimp only; rw [hj]; dsimp only; rw [hs]

theorem jobStatusBody_unknown (hl : c.payload.length = 8) (hj : jobS s (field c.payload 0 8) = none) : jobStatusBody c s = cmdOk s (toLe 16 0) := by
  refine (sized_eq hl s).trans ?_
  dsimp only; rw [hj]

/-- JOB_STATUS of a job of the job window with quantisation off (R262, R490). -/
theorem jobStatusBody_known (hl : c.payload.length = 8) (hj : jobS s (field c.payload 0 8) = some j) (hq : s.pw.quant = false)
    (hw : s.mb.jobWin.any (fun e => e.job == field c.payload 0 8) = true) :
    jobStatusBody c s = cmdOk s (toLe 1 j.st.code ++ toLe 1 j.tiles ++ toLe 2 (if j.st.live then 0 else j.status) ++ toLe 4 0
      ++ toLe 8 (if j.st.live then 0 else j.rcptSeq)) := by
  have hv : jobView j s = j.st := if_neg (by simp [hq])
  refine (sized_eq hl s).trans ?_
  dsimp only; rw [hj]; dsimp only
  rw [if_neg (by simp [hw]), hv]
  cases j.st.live <;> rfl

end

/-- Settles O37: each request by its body, each internal command by what its tile does, the start and the end of a job by
their one branch. -/
theorem jobsSubmitQueueRunAndEnd : Obligations.JobsSubmitQueueRunAndEnd := by
  unfold Obligations.JobsSubmitQueueRunAndEnd
  refine ⟨fun c s h hl => ?submit, fun t jid j p s hp h8 h0 hj hq ht => ?enqueue, fun t jid w d c j q p s hu hj hq => ?enqueued,
    fun jid s j hj ha hq hs hm hh => ?start, fun jid x j s hj hr he => ?final, fun c j s h hl hj => ?cancel, fun c s h hl hj => ?cancelNone,
    fun t jid n j p s hp h0 h8 hj => ?abort, fun t jid w d c q p s hu hq => ?aborted, fun c j s h hl hj hq hw => ?status, fun c s h hl hj => ?statusNone⟩
  case submit =>
    refine ⟨fun ha => runCmd_failed h (jobSubmitBody_noTag hl ha), fun a ha h0 => runCmd_failed h (jobSubmitBody_noJob hl ha h0),
      fun a g ha h0 hf hv hi ho hp hw hz ht hg hu hn hq => ?_⟩
    obtain ⟨j, e, hj⟩ := jobSubmitBody_fits hl ha ⟨h0, hf, hv, hi, ho⟩ ⟨hp, hw, hz, ht, hg⟩ ⟨hu, hn, hq⟩
    exact ⟨_, runCmd_waits h e, j, rfl, hj⟩
  case enqueue =>
    refine congrArg Host.Outcome.next (sqEvent_unitHandles hp ?_)
    dsimp only
    rw [if_pos h8, h0, tileEnqueue_queued (s := tookCmd t s) hj hq ht]; rfl
  case enqueued =>
    exact (congrArg (fun i => enqueueAcked t i (field p 0 4) s) hq).trans (enqueueAcked_only hu hj)
  case start =>
    obtain ⟨wr, e⟩ := jobStart_heads hj ha hq hs hh
    rw [trace_masked (by exact hm)] at e
    exact ⟨_, congrArg Host.Outcome.next e, rfl, rfl, rfl⟩
  case final =>
    have run (hg : x.status = 0 → gateShut j s = false) := jobFinal_running hj hr he hg
    refine ⟨fun hx => ?_, fun hx hg => ?_, fun hx hg hc => ?_, fun hx hg hc hd => ?_, fun hx hg hc hd => ?_⟩
    · exact congrArg Host.Outcome.next ((run fun h0 => absurd h0 hx).trans (if_pos hx))
    · exact congrArg Host.Outcome.next (jobFinal_gated hj hx hg)
    · exact congrArg Host.Outcome.next ((run fun _ => hg).trans ((if_neg (by simp [hx])).trans (if_pos (by simp [hc]))))
    · exact congrArg Host.Outcome.next ((run fun _ => hg).trans ((if_neg (by simp [hx])).trans ((if_neg (by simp [hc])).trans (if_neg (by simp [hd])))))
    · exact congrArg Host.Outcome.next ((run fun _ => hg).trans ((if_neg (by simp [hx])).trans ((if_neg (by simp [hc])).trans (if_pos hd))))
  case cancel =>
    exact ⟨fun hs => runCmd_replied h (jobCancelBody_parked hl hj hs), fun hs => runCmd_reply h (jobCancelBody_running hl hj hs),
      fun hs => runCmd_waits h (jobCancelBody_queued hl hj hs)⟩
  case cancelNone => exact runCmd_replied h (jobCancelBody_unknown hl hj)
  case abort =>
    have row {r : State} (hr : tileAbort t jid n (tookCmd t s) = r) {k : Nat} (hk : jobCode jid r = k) :
        exec (.jobAbort t jid n) s = .next (unitDone t 0x8004 (toLe 1 k) s r) :=
      congrArg Host.Outcome.next (sqEvent_unitHandles hp ((if_pos (by simp [h0, h8])).trans (by subst hr hk; rfl)))
    have hj' : jobS (tookCmd t s) jid = some j := hj
    refine ⟨fun hn hs => row (tileAbort_waiting hj' hn hs) rfl, fun hn hq hpk => row (tileAbort_started hj' hn hq hpk) (jobCode_job hj'), fun hn hq => ?_⟩
    subst hn
    exact row (tileAbort_withdraw hj' hq) (jobCode_job (s := modTileJ t _ (tookCmd t s)) hj)
  case aborted =>
    have e : respHandle t 0x8004 q p s = _ := (congrArg (fun i => abortAcked t i (field p 0 1) s) hq).trans (abortAcked_only hu)
    exact ⟨fun h3 => by rw [e, h3]; rfl, fun h3 => by rw [e, if_neg h3]⟩
  case status => exact runCmd_replied h (jobStatusBody_known hl hj hq hw)
  case statusNone => exact runCmd_replied h (jobStatusBody_unknown hl hj)

end Sys2Proof.Machine
end

section
/-! # Weight packages

The statement on weight packages from opening to closing (R335, R336, R341 to R347). -/
open Sys2Proof
namespace Sys2Proof.Machine

/-! ## Opening a package (R341) -/

/-- A header of Table 15-1 for a package bound to its tenant alone (BIND 1). -/
def HeaderFits (b : Bytes) : Prop :=
  b.length = 256 ∧ field b 0 4 = 0x4B505754 ∧ field b 4 2 = 1 ∧ field b 6 1 = 1 ∧ allZero (slice b 7 1) = true ∧ allZero (slice b 44 4) = true ∧
    allZero (slice b 60 4) = true ∧ allZero (slice b 208 48) = true ∧ allZero (slice b 112 96) = true ∧ field b 32 8 ≠ 0 ∧
    field b 40 4 = (field b 32 8 + 65535) / 65536

/-- A request of WPK_OPEN names a tag, and a source as long as the header says. -/
def OpenRequest (b : Bytes) (c : HostCall) (s : State) : Prop :=
  field c.payload 40 8 = field b 32 8 + 16 * field b 40 4 ∧ field c.payload 32 8 % 16 = 0 ∧ (astS s (field c.payload 24 1)).isSome = true ∧
    allZero (slice c.payload 25 7) = true

section
variable {c : HostCall} {s : State}

/-- WPK_OPEN whose stage reference does not name the stage (R251). -/
theorem wpkOpenBody_stage (hl : c.payload.length = 48) (hk : stageOk c 0 s = false) : wpkOpenBody c s = cmdFail s stStageIncomplete 0 :=
  (if_neg (by simp [hl])).trans (if_pos (by simp [hk]))

/-- WPK_OPEN of a right header with BIND 1: the tenant it names, the open packages, the capacity (R341). -/
theorem wpkOpenBody_fits (hl : c.payload.length = 48) (hk : stageOk c 0 s = true) (hz : allZero (slice c.payload 4 4) = true)
    (hhead : HeaderFits (stageBytes c s)) (hreq : OpenRequest (stageBytes c s) c s) :
    (field (stageBytes c s) 8 8 ≠ resTid s → wpkOpenBody c s = cmdFail s stPolicy 3) ∧
    (field (stageBytes c s) 8 8 = resTid s → s.wk.hs = [] → field (stageBytes c s) 40 4 * 65536 ≤ freeCap s →
      let b := stageBytes c s
      let pages := field b 40 4
      wpkOpenBody c s = cmdOk { s with wk := { s.wk with
          hs := [⟨s.wk.next, Config.sha384 (b.take 112), slice b 64 48, slice b 112 48, slice b 160 48, slice b 48 12, 1, .opened, pages, field b 32 8, 0,
            field c.payload 24 1, field c.payload 32 8, field c.payload 40 8, pages * 65536, 0, [], false, []⟩],
          next := s.wk.next + 1 } }
        (openBody s.wk.next pages 1 0 0)) := by
  obtain ⟨hlen, hm, hv, hb, z7, z44, z60, z208, zs, hp, hpg⟩ := hhead
  obtain ⟨hpk, ha, ht, hr⟩ := hreq
  have e : wpkOpenBody c s = _ := staged_eq hl hk hz
  dsimp only at e
  rw [if_neg (by simp [hlen, hm, hv, hb, z7, z44, z60, z208, zs, hp, ← hpg, hpk, ha, Option.isSome_iff_ne_none.1 ht, hr]), if_neg (by simp [hb])] at e
  refine ⟨fun hd => e.trans (if_pos hd), fun hd hs hf => ?_⟩
  have hshort : field (stageBytes c s) 40 4 * 65536 - freeCap s = 0 := Nat.sub_eq_zero_of_le hf
  rw [if_neg (by simp [hd]), hs] at e
  dsimp only [List.find?_nil] at e
  rw [if_neg (by simp), hshort, hb, if_pos rfl] at e
  exact e

end

/-! ## Releasing a content key (R342, R343) -/

section
variable {c : HostCall} {w : Wpk} {s : State}

/-- KEY_RELEASE refused by checks 1 to 4 of Table 15-4. -/
theorem keyReleaseBody_refused {st : Nat} (hl : c.payload.length = 1720) (hr : releaseCheck (field c.payload 0 4) 1 s = some st) :
    keyReleaseBody c s = cmdFail s st 0 := by
  refine (sized_eq hl s).trans ?_
  dsimp only; rw [hr]

/-- KEY_RELEASE past checks 1 to 4 of Table 15-4: the binding record, the ephemeral keys, then the unwrap (R342). -/
theorem keyReleaseBody_checked (hl : c.payload.length = 1720) (hr : releaseCheck (field c.payload 0 4) 1 s = none) (hz : allZero (slice c.payload 4 4) = true) :
    keyReleaseBody c s = if !serialCurrent (field c.payload 8 8) s then cmdFail s stNotBindable 0
      else if s.idn.eph.isNone || (slotS s 58).empty || (slotS s 59).empty then cmdFail s stNoKey 0
      else
        let hdig := match wpkOpen s (field c.payload 0 4) with | some w => w.hdig | none => []
        let ct := slice c.payload 16 1568
        let qp := slice c.payload 1584 96
        let t := Config.sha384 (ascii "tc4/release/v1" ++ [0#8] ++ hdig ++ ephDigest s ++ slice c.payload 8 8 ++ ct ++ qp)
        cmdWait (pqAdd 1 (.release c (stateWord s) (field c.payload 0 4) t (slice c.payload 1680 40) false [] []) (releaseJobs ct qp false) s) := by
  refine (sized_eq hl s).trans ?_
  dsimp only; rw [hr]
  exact if_neg (by simp [hz])

/-- KEY_RELEASE_SET refused by checks 1 to 4 of Table 15-4. -/
theorem keyReleaseSetBody_refused {st : Nat} (hl : c.payload.length = 32) (hk : stageOk c 8 s = true) (hz : allZero (slice c.payload 12 4) = true)
    (hr : releaseCheck (field c.payload 0 4) 2 s = some st) : keyReleaseSetBody c s = cmdFail s st 0 := by
  refine (staged_eq hl hk hz).trans ?_
  dsimp only; rw [hr]

/-- A stage of KEY_RELEASE_SET with a manifest (Table 15-4). -/
def SetStage (b : Bytes) : Prop :=
  field b 0 4 = 0x4C525354 ∧ field b 4 2 = 1 ∧ allZero (slice b 6 2) = true ∧ allZero (slice b 1720 8) = true ∧ manOk (b.drop 1728) = true

/-- The package's set keys and their secret inputs are there. -/
def SetKeys (s : State) : Prop := s.idn.setPair.isSome = true ∧ (slotS s 60).empty = false ∧ (slotS s 61).empty = false

/-- KEY_RELEASE_SET up to the membership of the package in its set (R343): the membership fails, or its signatures are verified. -/
theorem keyReleaseSetBody_checked (hl : c.payload.length = 32) (hk : stageOk c 8 s = true) (hz : allZero (slice c.payload 12 4) = true)
    (hr : releaseCheck (field c.payload 0 4) 2 s = none) (hw : wpkOpen s (field c.payload 0 4) = some w) (hz4 : allZero (slice c.payload 4 4) = true)
    (hstage : SetStage (stageBytes c s)) (hs : serialCurrent (field (stageBytes c s) 8 8) s = true) (hkeys : SetKeys s) :
    keyReleaseSetBody c s =
      let b := stageBytes c s
      let m := b.drop 1728
      let key := slice m 16 2688
      let n := 2704 + 48 * field m 6 2
      if Config.sha384 key != w.setauth || Config.sha384 (manSigned m) != w.mdig || !decide (skd s ∈ manEntries m) then cmdFail s stAuthFail 0
      else cmdWait (pqAdd 2 (.setAuth c (stateWord s) (field c.payload 0 4) b)
        (verifyJobs (slice key 0 96) (slice key 96 2592) (manSigned m) (slice m n 96) (slice m (n + 96) 4627)) s) := by
  obtain ⟨hm, hv, z6, z1720, hman⟩ := hstage
  obtain ⟨hp, h60, h61⟩ := hkeys
  refine (staged_eq hl hk hz).trans ?_
  dsimp only; rw [hr]; dsimp only
  rw [if_neg (by simp [hz4, hm, hv, z6, z1720, hman]), if_neg (by simp [hs]), if_neg (by simp [Option.isSome_iff_ne_none.1 hp, h60, h61]), hw]

end

/-! ## Loading, finishing and closing (R344, R345, R347) -/

section
variable {c : HostCall} {w : Wpk} {s : State}

/-- No load is in execution for any handle. -/
theorem noLoad (h : s.wk.load = none) (n : Nat) : s.wk.load.any (fun l => l.handle == n) = false := by rw [h]; rfl

/-- WPK_LOAD of a keyed handle, from within what is loaded to within the package: the rest of the range comes page by page (R344). -/
theorem wpkLoadBody_range (hl : c.payload.length = 16) (hw : wpkOpen s (field c.payload 0 4) = some w) (hz : allZero (slice c.payload 12 4) = true)
    (hn : s.wk.load = none) (hs : w.ws = .keyed ∨ w.ws = .loading) (h0 : field c.payload 8 4 ≠ 0)
    (hp : field c.payload 4 4 + field c.payload 8 4 ≤ w.pages) (hf : field c.payload 4 4 ≤ w.loaded) :
    wpkLoadBody c s = if field c.payload 4 4 + field c.payload 8 4 ≤ w.loaded then cmdOk s (loadBody w.loaded 0)
      else cmdWait { s with wk := { s.wk with load := some ⟨field c.payload 0 4, c, field c.payload 4 4 + field c.payload 8 4⟩ } } := by
  refine (sized_eq hl s).trans ?_
  dsimp only; rw [hw]; dsimp only
  rw [if_neg (by simp [hz]), if_neg (by simp [noLoad hn]), if_neg (by rcases hs with hs | hs <;> simp [hs]),
    if_neg (by simp [h0, Nat.not_lt.2 hp, Nat.not_lt.2 hf])]

/-- WPK_FINISH with no load in execution (R345). -/
theorem wpkFinishBody_open (hl : c.payload.length = 8) (hw : wpkOpen s (field c.payload 0 4) = some w) (hz : allZero (slice c.payload 4 4) = true)
    (hn : s.wk.load = none) :
    wpkFinishBody c s = if w.ws != .loading || w.loaded ≠ w.pages then cmdFail s stBadState 0
      else if mthClose w.stack == w.root then
        cmdOk (msRecord 19 w.root (contentKeyEnd (modWpk (field c.payload 0 4) (fun w => { w with ws := .runnable }) s)))
          (toLe 1 4 ++ toLe 7 0 ++ slice (mthClose w.stack) 0 48)
      else ⟨contentKeyEnd (modWpk (field c.payload 0 4) (fun w => { w with ws := .failed }) s),
        some (stIntegrity, 0, toLe 1 5 ++ toLe 7 0 ++ slice (mthClose w.stack) 0 48), false⟩ := by
  refine (sized_eq hl s).trans ?_
  dsimp only; rw [hw]; dsimp only
  rw [if_neg (by simp [hz]), if_neg (by simp [noLoad hn])]; rfl

theorem wpkStatusBody_open (hl : c.payload.length = 8) (hw : wpkOpen s (field c.payload 0 4) = some w) (hz : allZero (slice c.payload 4 4) = true) :
    wpkStatusBody c s = cmdOk s (toLe 1 w.ws.code ++ toLe 1 w.bind ++ toLe 1 (if w.short = 0 then 0 else 1) ++ [0#8] ++ toLe 4 w.loaded ++ toLe 4 w.pages) := by
  refine (sized_eq hl s).trans ?_
  rw [hw]; dsimp only
  rw [if_neg (by simp [hz])]
  by_cases h : w.short = 0 <;> simp [h, b2n]

/-- WPK_CLOSE of a handle that is not open: it was never one, or it has ended (R248, R347). -/
theorem wpkCloseBody_ended (hl : c.payload.length = 8) (hw : wpkOpen s (field c.payload 0 4) = none) (hz : allZero (slice c.payload 4 4) = true) :
    wpkCloseBody c s = if field c.payload 0 4 = 0 || s.wk.next ≤ field c.payload 0 4 then cmdFail s stBadHandle 0 else cmdOk s [] := by
  refine (sized_eq hl s).trans ?_
  dsimp only; rw [hw]
  exact if_neg (by simp [hz])

/-- WPK_CLOSE of a RUNNABLE handle keeps its pages (R347). -/
theorem wpkCloseBody_runnable (hl : c.payload.length = 8) (hw : wpkOpen s (field c.payload 0 4) = some w) (hz : allZero (slice c.payload 4 4) = true)
    (hr : w.ws = .runnable) : wpkCloseBody c s = cmdOk (modWpk (field c.payload 0 4) (fun w => { w with closed := true }) s) [] := by
  refine (sized_eq hl s).trans ?_
  dsimp only; rw [hw]
  exact (if_neg (by simp [hz])).trans (if_pos (by simp [hr]))

/-- WPK_CLOSE of a handle that is not RUNNABLE, with no load in execution: a content key goes, and the handle with it (R340, R347). -/
theorem wpkCloseBody_drop (hl : c.payload.length = 8) (hw : wpkOpen s (field c.payload 0 4) = some w) (hz : allZero (slice c.payload 4 4) = true)
    (hr : w.ws ≠ .runnable) (hn : s.wk.load = none) :
    wpkCloseBody c s =
      let t := if w.ws == .keyed || w.ws == .loading then contentKeyEnd s else s
      cmdOk { t with wk := { t.wk with hs := t.wk.hs.filter (fun x => x.handle != field c.payload 0 4) } } [] := by
  refine (sized_eq hl s).trans ?_
  dsimp only; rw [hw]; dsimp only
  rw [if_neg (by simp [hz]), if_neg (by simp [hr]), noLoad hn]; rfl

end

/-! ## A page of the load in execution (R336, R344) -/

/-- IV of the next page of a handle. -/
noncomputable def pageIv (w : Wpk) : Bytes := List.zipWith (· ^^^ ·) w.nsalt (toLe 4 w.loaded ++ toLe 8 0)

/-- AAD of the next page of a handle. -/
noncomputable def pageAad (w : Wpk) : Bytes := w.hdig ++ toLe 4 w.loaded ++ toLe 4 (pageLen w w.loaded)

/-- The page that was read passes its tag under the content key. -/
noncomputable def pageGenuine (k : Bytes) (w : Wpk) (x : PageIn) : Bool :=
  Config.gcmOk k (pageIv w) (pageAad w) (slice x.ct 0 (pageLen w w.loaded)) x.tag

/-- Its plaintext. -/
noncomputable def pagePlain (k : Bytes) (w : Wpk) (x : PageIn) : Bytes :=
  (List.range (pageLen w w.loaded)).map (Config.gcmByte false k (pageIv w) (pageAad w) (slice x.ct 0 (pageLen w w.loaded)))

/-- The page is placed, and its digest folded into the page tree. -/
noncomputable def pageFolded (k : Bytes) (w : Wpk) (x : PageIn) (s : State) : State :=
  modWpk w.handle (fun y => { y with
    ws := .loading, loaded := w.loaded + 1, places := y.places ++ [pagePlace w w.loaded s],
    stack := mthPush 1 (Config.sha384 (pagePlain k w x)) y.stack })
    (match pagePlace w w.loaded s with
      | .spill => spillOut w w.loaded (pagePlain k w x) s
      | .ext n => extWrite n (pagePlain k w x) s
      | _ => s)

section
variable {x : PageIn} {l : WLoad} {w : Wpk} {k : Bytes} {s : State}

/-- A page that fails its tag fails the handle, and the load ends; a right one is folded, and after the last the load ends. -/
theorem wpkPage_keyed (hl : s.wk.load = some l) (hw : wpkS s l.handle = some w) (hf : x.srcFault = false) (hk : portKey s 8 0x40 = some k) :
    wpkPage x s = if !pageGenuine k w x then loadEnd stIntegrity 0 w.loaded (contentKeyEnd (modWpk w.handle (fun w => { w with ws := .failed }) s))
      else if l.stop ≤ w.loaded + 1 then loadEnd stOk 0 0 (pageFolded k w x s) else pageFolded k w x s := by
  unfold wpkPage
  rw [hl]; dsimp only
  rw [hw]; dsimp only
  rw [if_neg (by simp [hf]), hk]; rfl

end

/-- Settles O40: each request by its body, a page by its tag. -/
theorem weightPackagesOpenLoadFinishClose : Obligations.WeightPackagesOpenLoadFinishClose := by
  unfold Obligations.WeightPackagesOpenLoadFinishClose
  refine ⟨fun c s h hc hl hk => ?stage, fun c s h hc hl hk hz => ?opens, fun c s h hl => ?release, fun c st s h hc hl hk hz hr => ?setRefused,
    fun c w s h hc hl hk hz hr hw hz4 => ?set, fun c w s h hl hw hz hn hs h0 hp hf => ?load, fun x l w k s hl hw hf hk => ?page,
    fun c w s h hl hw hz hn => ?finish, fun c w s h hl hw hz => ?status, fun c s h hl => ?close⟩
  case stage => exact runCmd_failed h (wpkOpenBody_stage hl hk)
  case opens =>
    intro b plain pages hlen hm hv hb z7 z44 z60 z208 zs hp hpg hpk ha ht hr
    obtain ⟨hpol, hok⟩ := wpkOpenBody_fits hl hk hz ⟨hlen, hm, hv, hb, z7, z44, z60, z208, zs, hp, hpg⟩ ⟨hpk, ha, ht, hr⟩
    exact ⟨fun hd => runCmd_failed h (hpol hd), fun hd hs hfr => runCmd_replied h (hok hd hs hfr)⟩
  case release =>
    refine ⟨fun st hr => runCmd_failed h (keyReleaseBody_refused hl hr), fun hr hz => ?_⟩
    have e := keyReleaseBody_checked hl hr hz
    refine ⟨fun hs => runCmd_failed h (e.trans (if_pos (by simp [hs]))), fun hs he h58 h59 w hw => runCmd_waits h ?_⟩
    rw [e, if_neg (by simp [hs]), if_neg (by simp [Option.isSome_iff_ne_none.1 he, h58, h59]), hw]; rfl
  case setRefused => exact runCmd_failed h (keyReleaseSetBody_refused hl hk hz hr)
  case set =>
    intro b m k n hm hv z6 z1720 hman hs hp h60 h61
    have e := keyReleaseSetBody_checked hl hk hz hr hw hz4 ⟨hm, hv, z6, z1720, hman⟩ hs ⟨hp, h60, h61⟩
    refine ⟨fun hbad => runCmd_failed h (e.trans (if_pos ?_)), fun hsa hmd hsk => runCmd_waits h (e.trans (if_neg ?_))⟩
    · rcases hbad with hb | hb | hb <;> simp_all [b, m, k]
    · simp_all [b, m, k]
  case load =>
    have e := wpkLoadBody_range hl hw hz hn hs h0 hp hf
    exact ⟨fun hd => runCmd_replied h (e.trans (if_pos hd)), fun hd => runCmd_waits h (e.trans (if_neg (Nat.not_le.2 hd)))⟩
  case page =>
    have e := wpkPage_keyed hl hw hf hk
    refine ⟨fun hg => congrArg Host.Outcome.next ?_, fun hg => ⟨fun hd => congrArg Host.Outcome.next ?_, fun hd => congrArg Host.Outcome.next ?_⟩⟩
    · exact e.trans (if_pos (by rw [show pageGenuine k w x = false from hg]; rfl))
    all_goals rw [e, show pageGenuine k w x = true from hg]
    · exact if_neg (Nat.not_le.2 hd)
    · exact if_pos hd
  case finish =>
    have e := wpkFinishBody_open hl hw hz hn
    refine ⟨fun hs => runCmd_failed h (e.trans (if_pos (by rcases hs with hs | hs <;> simp [hs]))), fun hs hp hr => runCmd_replied h ?_,
      fun hs hp hr => runCmd_reply h ?_⟩
    · rw [e, if_neg (by simp [hs, hp]), if_pos (by simp [hr]), hr]
    · rw [e, if_neg (by simp [hs, hp]), if_neg (by simp [hr])]
  case status => exact runCmd_replied h (wpkStatusBody_open hl hw hz)
  case close =>
    refine ⟨fun hw hz => ⟨fun hh => runCmd_failed h ((wpkCloseBody_ended hl hw hz).trans (if_pos (by simpa using hh))),
      fun h0 hh => runCmd_replied h ((wpkCloseBody_ended hl hw hz).trans (if_neg (by simp [h0, Nat.not_le.2 hh])))⟩, fun w hw hz => ?_⟩
    refine ⟨fun hs => runCmd_replied h (wpkCloseBody_runnable hl hw hz hs), fun hs hn => runCmd_replied h ?_, fun hs hn => runCmd_replied h ?_⟩
    · exact (wpkCloseBody_drop hl hw hz (by simp [hs]) hn).trans (by rw [hs]; rfl)
    · exact (wpkCloseBody_drop hl hw hz (by rcases hs with hs | hs <;> simp [hs]) hn).trans (by rcases hs with hs | hs <;> rw [hs] <;> rfl)

end Sys2Proof.Machine
end

section
/-! # Attestation and roster reads

The statement on reports, certificates, the measurement log, the ephemeral keys, and what is read of the roster and of the
clear receipts (R259, R260, R296, R298, R304, R306, R328, R329). -/
open Sys2Proof
namespace Sys2Proof.Machine

/-! ## Reports (R298, R306) -/

/-- A report's serial is issued (R306). -/
noncomputable def serialIssued (s : State) : State := { s with idn := { s.idn with serial := s.idn.serial + 1 } }

/-- The compact record of a report, behind its length. -/
noncomputable def compactReport (c : HostCall) (unsigned pq : Bool) (s : State) : Bytes :=
  let mr := measRecord (claimRecord (slice c.payload 0 32) (s.idn.serial + 1) (breason unsigned s) unsigned pq (serialIssued s)) (serialIssued s)
  toLe 4 mr.length ++ mr

/-- The claims map of a report. -/
noncomputable def reportClaims (c : HostCall) (unsigned : Bool) (s : State) : Bytes :=
  claims (slice c.payload 0 32) (s.idn.serial + 1) (breason unsigned s) (serialIssued s)

section
variable {c : HostCall} {s : State}

/-- An unsigned report is answered at once (R305). -/
theorem attReportBody_unsigned (hl : c.payload.length = 36) (hf : field c.payload 32 1 < 2) (hz : allZero (slice c.payload 34 2) = true)
    (hu : field c.payload 33 1 = 1) :
    attReportBody c s = cmdOk (serialIssued s) (reportBody (s.idn.serial + 1) (breason true s)
      (if field c.payload 32 1 = 0 then [0xD9#8, 0x02#8, 0x59#8] ++ reportClaims c true s else compactReport c true false s)) := by
  refine (sized_eq hl s).trans ?_
  dsimp only
  rw [if_neg (by simp [Nat.not_le.2 hf, hu, hz]), hu]
  simp only [beq_self_eq_true, Bool.not_true, Bool.and_false, if_true]; rfl

/-- A signed report waits for its two signatures, with the binding record it will make (R298, R303). -/
theorem attReportBody_signed (hl : c.payload.length = 36) (hf : field c.payload 32 1 < 2) (hz : allZero (slice c.payload 34 2) = true)
    (hu : field c.payload 33 1 = 0) :
    attReportBody c s =
      let b := if breason false s = 0 then some (bindNow (s.idn.serial + 1) (serialIssued s)) else none
      let cl := reportClaims c false s
      let cp := compactReport c false (feat s 3) s
      cmdWait (pqAdd 1 (.report c (stateWord s) (s.idn.serial + 1) (field c.payload 32 1) (feat s 3) (if field c.payload 32 1 = 0 then cl else cp) b)
        (if field c.payload 32 1 = 0 then
          [⟨0x12, [Config.sha384 (toBeSigned (ecProt s) cl)], some 1, none, 0⟩, ⟨0x24, [mldsaMu (identPk s) (toBeSigned (mlProt s) cl)], some 2, none, 0⟩]
         else signJobs s cp) (serialIssued s)) := by
  have h0 : ((0 : Nat) == 1) = false := rfl
  refine (sized_eq hl s).trans ?_
  dsimp only
  rw [if_neg (by simp [Nat.not_le.2 hf, hu, hz]), hu]
  simp only [h0, Bool.not_false, Bool.and_true, Bool.false_eq_true, if_false]; rfl

end

/-! ## Certificates, the measurement log and the ephemeral keys -/

section
variable {c : HostCall} {w : Nat} {s : State}

/-- ATT_CERTS of a scheme whose certificate may be read (R259, R296). -/
theorem attCertsBody_eq (hp : c.payload = [BitVec.ofNat 8 w, 0, 0, 0]) (hw : w < 2) (hf : w = 1 → feat s 3 = true)
    (hq : ¬ (s.pkg.st = .quarantine ∧ s.pkg.qcause = 1)) :
    attCertsBody c s = (certOf w s).elim (cmdFail s stNotFound 0) (fun d => cmdOk s (toLe 4 d.length ++ toLe 4 0 ++ d)) := by
  have ht : field c.payload 0 1 = w := by rw [hp]; simp [field, le]; omega
  have hz : allZero (slice c.payload 1 3) = true := by rw [hp]; rfl
  refine (sized_eq (by rw [hp]; rfl) s).trans ?_
  dsimp only; rw [ht]
  rw [if_neg (by simp [Nat.not_le.2 hw, hz]), if_neg (by simpa using hf), if_neg (by simpa using hq)]
  cases certOf w s <;> rfl

/-- ATT_MEAS_LOG of a well-formed request (R304). -/
theorem attMeasLogBody_eq (hl : c.payload.length = 16) (hs : field c.payload 0 1 < 32) (hz : allZero (slice c.payload 1 3) = true)
    (hz12 : allZero (slice c.payload 12 4) = true) (h1 : 1 ≤ field c.payload 8 4) (h60 : field c.payload 8 4 ≤ 60) :
    attMeasLogBody c s = if (nth {} s.ms.slots (field c.payload 0 1)).count < field c.payload 4 4 then cmdFail s stNotFound 0
      else
        let es := (((s.ms.logP ++ s.ms.logT).filter (fun e => e.slot == field c.payload 0 1)).drop (field c.payload 4 4)).take (field c.payload 8 4)
        cmdOk s (toLe 4 es.length ++ toLe 4 0 ++ es.flatMap mlogBytes) :=
  (sized_eq hl s).trans (if_neg (by simp [Nat.not_le.2 hs, hz, hz12, Nat.one_le_iff_ne_zero.1 h1, Nat.not_lt.2 h60]))

/-- Another slot is as it was. -/
theorem slotS_slotIs_ne {i j : Nat} (h : i ≠ j) (x : Slot) : slotS (slotIs i x s) j = slotS s j := by
  simp [slotS, slotIs, nth, h]

theorem attEphemeralBody_known {k q : Bytes} (hp : c.payload = []) (he : s.idn.eph = some (k, q)) : attEphemeralBody c s = cmdOk s (k ++ q) := by
  refine (sized_eq (by rw [hp]; rfl) s).trans ?_
  rw [he]

/-- The first ATT_EPHEMERAL of a boot draws both secret inputs and queues the first key (R259). -/
theorem attEphemeralBody_first (hp : c.payload = []) (he : s.idn.eph = none) (hd : s.ks.drbgOk = true)
    (h58 : (slotS s 58).empty = true) (h59 : (slotS s 59).empty = true) :
    attEphemeralBody c s = cmdWait (pqAdd 1 (.ephemeral c (stateWord s) []) [⟨0x20, [], some 58, none, 0⟩]
      { slotIs 59 (committed (Config.draw (s.draws + 1) 64) 3 16 false) (slotIs 58 (committed (Config.draw s.draws 64) 3 16 false) s) with draws := s.draws + 2 }) := by
  let t : State := { slotIs 58 (committed (Config.draw s.draws 64) 3 16 false) s with draws := s.draws + 1 }
  have h59' : (slotS t 59).empty = true := (congrArg Slot.empty (slotS_slotIs_ne (by simp) _)).trans h59
  have fill58 : (if (slotS s 58).empty then commitSlot 58 (Config.draw s.draws 64) 3 16 false { s with draws := s.draws + 1 } else s) = t := if_pos h58
  refine (sized_eq (by rw [hp]; rfl) s).trans ?_
  rw [he]; dsimp only [drawBytes]
  rw [if_neg (by simp [hd]), fill58, if_pos h59']; rfl

end

/-! ## What is read of the roster and of the clear receipts -/

section
variable {c : HostCall} {s : State}

/-- TENANT_STATUS of no record (R260). -/
theorem tenantStatusBody_none (hl : c.payload.length = 8)
    (hx : (if field c.payload 0 8 = 0 then residentIx s else tidIx (field c.payload 0 8) s) = none) : tenantStatusBody c s = cmdFail s stNotFound 0 := by
  refine (sized_eq hl s).trans ?_
  dsimp only; rw [hx]

theorem tenantStatusBody_some {i : Nat} {r : TRec} (hl : c.payload.length = 8)
    (hx : (if field c.payload 0 8 = 0 then residentIx s else tidIx (field c.payload 0 8) s) = some i) (hr : recS s i = some r) :
    tenantStatusBody c s = cmdOk s (recBody i r.state ++ [0#8] ++ toLe 8 (if r.state == .resident then epochOf s else r.lastEpoch) ++ toLe 4 r.switches) := by
  refine (sized_eq hl s).trans ?_
  dsimp only; rw [hx]; dsimp only; rw [hr]

theorem tenantListBody_eq (hl : c.payload.length = 8) (h1 : 1 ≤ field c.payload 2 2) (h256 : field c.payload 2 2 ≤ 256)
    (hz : allZero (slice c.payload 4 4) = true) :
    tenantListBody c s =
      let l := ((List.zipIdx s.tn.ro.recs).drop (field c.payload 0 2)).take (field c.payload 2 2)
      cmdOk s (toLe 4 l.length ++ toLe 4 0 ++ l.flatMap (fun e => toLe 8 e.1.tid ++ recBody e.2 e.1.state ++ toLe 5 0)) :=
  (sized_eq hl s).trans (if_neg (by simp [Nat.one_le_iff_ne_zero.1 h1, Nat.not_lt.2 h256, hz]))

/-- The receipt a request names: the latest for serial 0 (R329). -/
noncomputable def receiptNamed (n : Nat) (s : State) : Option ClearRcpt :=
  if n = 0 then (s.tn.ring ++ s.tn.pend).getLast? else (s.tn.ring ++ s.tn.pend).find? (fun r => r.serial == n)

theorem tenantReceiptBody_eq (hl : c.payload.length = 8) :
    tenantReceiptBody c s = (receiptNamed (field c.payload 0 8) s).elim (cmdFail s stNotFound 0)
      (fun r => cmdOk s (if feat s 3 then r.obj else r.obj.take 372)) := by
  refine (sized_eq hl s).trans ?_
  show (match receiptNamed (field c.payload 0 8) s with | some r => _ | none => _) = _
  cases receiptNamed (field c.payload 0 8) s <;> rfl

end

/-- Settles O33: each request by its body. -/
theorem attestationAndRosterReads : Obligations.AttestationAndRosterReads := by
  unfold Obligations.AttestationAndRosterReads
  refine ⟨fun c s h hl hf hz => ?report, fun c s w h hp hw hf hq => ?certs, fun c s h hl hs hz hz12 h1 h60 => ?measLog, fun c s h hp => ?ephemeral,
    fun c s h hl => ?status, fun c s h hl h1 h256 hz => ?list, fun c s h hl hn => ?receipt, fun c s r h hl hn hr => ?latest⟩
  case report =>
    refine ⟨fun hu h0 => runCmd_replied h ?_, fun hu h1 => runCmd_replied h ?_, fun hu h1 => runCmd_waits h ?_, fun hu h0 => runCmd_waits h ?_⟩
    · rw [attReportBody_unsigned hl hf hz hu, if_pos h0]; rfl
    · rw [attReportBody_unsigned hl hf hz hu, h1]; rfl
    · rw [attReportBody_signed hl hf hz hu, h1]; rfl
    · rw [attReportBody_signed hl hf hz hu, h0]; rfl
  case certs =>
    have e := attCertsBody_eq hp hw hf hq
    exact ⟨fun hc => runCmd_failed h (by rw [e, hc]; rfl), fun d hc => runCmd_replied h (by rw [e, hc]; rfl)⟩
  case measLog =>
    have e := attMeasLogBody_eq (s := s) hl hs hz hz12 h1 h60
    exact ⟨fun hc => runCmd_failed h (e.trans (if_pos hc)), fun hc => runCmd_replied h (e.trans (if_neg (Nat.not_lt.2 hc)))⟩
  case ephemeral =>
    exact ⟨fun k q he => runCmd_replied h (attEphemeralBody_known hp he), fun he hd h58 h59 _ => runCmd_waits h (attEphemeralBody_first hp he hd h58 h59)⟩
  case status =>
    exact ⟨fun hx => runCmd_failed h (tenantStatusBody_none hl hx), fun i r hx hr => runCmd_replied h (tenantStatusBody_some hl hx hr)⟩
  case list => exact runCmd_replied h (tenantListBody_eq hl h1 h256 hz)
  case receipt =>
    have e := tenantReceiptBody_eq (s := s) hl
    rw [receiptNamed, if_neg hn] at e
    exact ⟨fun hr => runCmd_failed h (by rw [e, hr]; rfl), fun r hr => runCmd_replied h (by rw [e, hr]; rfl)⟩
  case latest =>
    have e := tenantReceiptBody_eq (s := s) hl
    rw [receiptNamed, if_pos hn, hr] at e
    exact runCmd_replied h e

end Sys2Proof.Machine
end

section
/-! # Tile checks, completion rings and receipt batches

The statement on residue and ECC failures, completion rings, and the closure of receipt batches (R262, R356, R358, R369 to
R372, R438, R490). -/
open Sys2Proof
namespace Sys2Proof.Machine

/-! ## Residue and ECC failures (R369 to R372) -/

/-- A failed check is counted, and its time kept while the window holds it. -/
noncomputable def residueCounted (t jid step : Nat) (s : State) : State :=
  logEvent 0x0307 t (toLe 8 jid ++ toLe 4 step) (modTileJ t (fun y => { y with
    rescnt := min (y.rescnt + 1) 0xFFFFFFFF,
    fails := s.wd.time :: (tileJ s t).fails.filter (fun f => decide (s.wd.time - f < (tileJ s t).window * 100000)) }) s)

/-- A failed check of a job that runs on the tile: the job ends where the step failed before, and else the step runs again. -/
theorem residueFail_running {t jid step : Nat} {j : Job} {s : State} (hj : jobS s jid = some j) (ht : t < 8) (hr : j.st = .running)
    (hb : bit j.tiles t = true) (hg : (tileJ s t).gateClosed = false) :
    residueFail t jid step s = if (jid, step) ∈ (tileJ s t).rexec then
        jobEnd .aborted stIntegrity 0x10 jid (modTileJ t (fun y => { y with rexec := y.rexec.filter (fun r => r.1 != jid) }) (residueCounted t jid step s))
      else perfAdd (t + 1) 7 1 (modJob jid (fun j => { j with retry := true })
        (modTileJ t (fun y => { y with rexec := y.rexec ++ [(jid, step)] }) (residueCounted t jid step s))) := by
  unfold residueFail; rw [hj]
  exact if_neg (by simp [Nat.not_le.2 ht, hr, hb, hg])

/-- The alarm of a tile whose gate is open (R371). -/
theorem residueAlarm_open {t : Nat} {s : State} (ht : t < 8) (hg : (tileJ s t).gateClosed = false) :
    residueAlarm t s =
      if ((tileJ s t).fails.filter (fun f => decide (s.wd.time - f < (tileJ s t).window * 100000))).length ≤ (tileJ s t).limit then s
      else unitCrash t 4 (setNotice 15 (modTileJ t (fun x => { x with gateClosed := true }) s)) :=
  if_neg (by simp [Nat.not_le.2 ht, hg])

/-- An uncorrectable line of a tile's SRAM is counted, poisoned and logged. -/
noncomputable def eccCounted (t region line : Nat) (s : State) : State :=
  logEvent 0x0306 t (toLe 1 region ++ toLe 8 line) (modTileJ t (fun x => { x with
    ue := min (x.ue + 1) 0xFFFFFFFF, eccAddr := line, poison := if (region, line) ∈ x.poison then x.poison else x.poison ++ [(region, line)] }) s)

section
variable {t region line : Nat} {s : State}

/-- Outside the region nothing fails. -/
theorem eccUe_outside (h : regionLines region ≤ line) (j hd : Option Nat) : eccUe t region line j hd s = s := if_pos (by simp [h])

/-- No job reads the line and no handle holds it. -/
theorem eccUe_unread (ht : t < 8) (hu : unitUp s t = true) (hl : line < regionLines region) :
    eccUe t region line none none s = eccCounted t region line s := if_neg (by simp [Nat.not_le.2 ht, hu, Nat.not_le.2 hl])

/-- The job that reads the line ends (R372). -/
theorem eccUe_job {jid : Nat} {j : Job} (ht : t < 8) (hu : unitUp s t = true) (hl : line < regionLines region)
    (hj : jobS (eccCounted t region line s) jid = some j) (hr : j.st = .running) (hb : bit j.tiles t = true) :
    eccUe t region line (some jid) none s = jobEnd .aborted stIntegrity 0x11 jid (eccCounted t region line s) := by
  unfold eccUe
  rw [if_neg (by simp [Nat.not_le.2 ht, hu, Nat.not_le.2 hl])]
  show (match jobS (eccCounted t region line s) jid with | some k => _ | none => _) = _
  rw [hj]; exact if_pos (by simp [hr, hb])

/-- The handle whose page holds the line fails (R372, R400). -/
theorem eccUe_handle {n : Nat} {w : Wpk} (ht : t < 8) (hu : unitUp s t = true) (hl : line < regionLines region)
    (hw : wpkS (eccCounted t region line s) n = some w) (hs : w.ws ≠ .failed) (hp : w.places.any (placeIn t region) = true) :
    eccUe t region line none (some n) s = wpkFail n (logEvent 0x0405 0xFF (toLe 4 n) (eccCounted t region line s)) := by
  unfold eccUe
  rw [if_neg (by simp [Nat.not_le.2 ht, hu, Nat.not_le.2 hl])]
  show (match wpkS (eccCounted t region line s) n with | some w => _ | none => _) = _
  rw [hw]; exact if_neg (by simp only [hp, Bool.not_true, Bool.or_false, beq_iff_eq]; exact hs)

end

/-! ## Completion rings (R438, R490) -/

/-- A tag after an update that keeps its number. -/
theorem astS_modAst {f : Ast → Ast} (hf : ∀ a, (f a).tag = a.tag) {tag : Nat} {a : Ast} {s : State} (h : astS s tag = some a) :
    astS (modAst tag f s) tag = some (f a) := by
  have htag : a.tag = tag := by simpa using List.find?_some h
  have hp : ((fun x : Ast => x.tag == tag) ∘ fun x => if x.tag = tag then f x else x) = fun x => x.tag == tag := by
    funext x; by_cases e : x.tag = tag <;> simp [e, hf]
  show (s.xl.asts.map _).find? _ = _
  rw [List.find?_map, hp, show s.xl.asts.find? _ = some a from h]; simp [htag]

/-- With no completion record held, nothing is written (R438). -/
theorem ringFlush_empty {tag : Nat} {a : Ast} {s : State} (grid : Bool) (h : astS s tag = some a) (hh : a.held = []) : ringFlush grid tag s = s := by
  unfold ringFlush; split
  · rfl
  · rw [h]; dsimp only; rw [hh]; rfl

/-- CTAIL of a tag that has a ring is read again (R438). -/
theorem ringRoom_ring {tag : Nat} {a : Ast} {s : State} (h : astS s tag = some a) (hr : a.ring ≠ 0) (ct : Nat) :
    ringRoom tag ct s = ringFlush false tag (modAst tag (fun x => { x with ctail := ct }) s) := by
  unfold ringRoom; rw [h]; exact if_neg hr

theorem ringRoom_noRing {tag : Nat} {a : Ast} {s : State} (h : astS s tag = some a) (hr : a.ring = 0) (ct : Nat) : ringRoom tag ct s = s := by
  unfold ringRoom; rw [h]; exact if_pos hr

/-! ## Receipt batches (R356, R358) -/

section
variable {c : HostCall} {b : Batch} {s : State}

theorem rcptFlushBody_none (hp : c.payload = []) (hc : s.rc.cur = none) : rcptFlushBody c s = cmdOk s (toLe 8 (lastBatch s) ++ toLe 8 0) := by
  refine (sized_eq (by rw [hp]; rfl) s).trans ?_
  rw [hc]

/-- RCPT_FLUSH of an open batch: it closes at once, or once the batch that is being signed is done (R358). -/
theorem rcptFlushBody_open (hp : c.payload = []) (hc : s.rc.cur = some b) :
    rcptFlushBody c s = if s.rc.waiting.isSome then cmdWait (unitSend 1000 0x404 (some (c, stateWord s)) 0 (closeDue 4 s))
      else cmdOk (closeBatch 4 .batch s) (toLe 8 (batchNum s) ++ toLe 4 b.records ++ toLe 4 0) := by
  refine (sized_eq (by rw [hp]; rfl) s).trans ?_
  rw [hc]

/-- A closure of no batch does nothing (R356). -/
theorem closeDue_none (hc : s.rc.cur = none) (code : Nat) : closeDue code s = s := if_pos (by simp [hc])

/-- A closure takes place at once while no batch is held (R356). -/
theorem closeDue_now (hc : s.rc.cur = some b) (hw : s.rc.waiting = none) (code : Nat) : closeDue code s = closeBatch code .batch s :=
  (if_neg (by simp [hc])).trans (if_neg (by simp [hw]))

/-- The first closure that falls due during a hold is kept (R358). -/
theorem closeDue_held (hc : s.rc.cur = some b) (hw : s.rc.waiting.isSome = true) (hd : s.rc.due = none) (code : Nat) :
    closeDue code s = { s with rc := { s.rc with due := some code } } :=
  (if_neg (by simp [hc])).trans ((if_pos hw).trans (by rw [hd]; rfl))

end

/-- Settles O38: each check by its outcome, each ring by its held records, each closure by whether a batch is held. -/
theorem tileChecksRingsAndBatches : Obligations.TileChecksRingsAndBatches := by
  unfold Obligations.TileChecksRingsAndBatches
  refine ⟨fun t jid step j s hj ht hr hb hg => ?residue, fun t s ht hg => ?alarm, fun t region line s ht hu hl => ?ecc,
    fun t region line j h s hl => congrArg Host.Outcome.next (eccUe_outside hl j h), fun tag ct a s ha => ?ring,
    fun s hq => congrArg Host.Outcome.next (if_pos (by simp [hq])), fun s hq ha => ?grid, fun c s h hp => ?flush, fun b s hc => ?timeout,
    fun s hc => congrArg Host.Outcome.next (closeDue_none hc 2)⟩
  case residue =>
    have e := residueFail_running (step := step) hj ht hr hb hg
    exact ⟨fun hm => congrArg Host.Outcome.next (e.trans (if_pos hm)), fun hm => congrArg Host.Outcome.next (e.trans (if_neg hm))⟩
  case alarm =>
    have e := residueAlarm_open ht hg
    exact ⟨fun hn => congrArg Host.Outcome.next (e.trans (if_pos hn)), fun hn => congrArg Host.Outcome.next (e.trans (if_neg (Nat.not_le.2 hn)))⟩
  case ecc =>
    exact ⟨congrArg Host.Outcome.next (eccUe_unread ht hu hl), fun jid j hj hr hb => congrArg Host.Outcome.next (eccUe_job ht hu hl hj hr hb),
      fun n w hw hs hp => congrArg Host.Outcome.next (eccUe_handle ht hu hl hw hs hp)⟩
  case ring =>
    refine ⟨fun h0 => congrArg Host.Outcome.next (ringRoom_noRing ha h0 ct), fun h0 hh _ => congrArg Host.Outcome.next ?_⟩
    exact (ringRoom_ring ha h0 ct).trans (ringFlush_empty false (astS_modAst (f := fun x => { x with ctail := ct }) (fun _ => rfl) ha) hh)
  case grid =>
    refine congrArg Host.Outcome.next ((if_neg (by simp [hq])).trans ?_)
    rw [ha]; rfl
  case flush =>
    refine ⟨fun hc => runCmd_replied h (rcptFlushBody_none hp hc), fun b hc hw => runCmd_replied h ?_, fun b hc hw => runCmd_waits h ?_⟩
    · exact (rcptFlushBody_open hp hc).trans (if_neg (by simp [hw]))
    · exact (rcptFlushBody_open hp hc).trans (if_pos hw)
  case timeout =>
    exact ⟨fun hw => congrArg Host.Outcome.next (closeDue_now hc hw 2), fun hw hd => congrArg Host.Outcome.next (closeDue_held hc hw hd 2)⟩

end Sys2Proof.Machine
end

section
/-! # The link commands

The statement on LINK_STATUS to LINK_CLEAR and on the commands of a port controller (R452, R455, R458, R459, R463). -/
open Sys2Proof
namespace Sys2Proof.Machine

/-! ## LINK_STATUS, LINK_JOB_END and LINK_BOUNDS (R264, R455, R459) -/

section
variable {c : HostCall} {s : State}

theorem linkStatusBody_notPort (hl : c.payload.length = 4) (hu : unitType s (field c.payload 0 1) ≠ .port) : linkStatusBody c s = cmdFail s stMalformed 0 :=
  (sized_eq hl s).trans (if_pos (by simp [hu]))

theorem linkStatusBody_port (hl : c.payload.length = 4) (hz : allZero (slice c.payload 1 3) = true) (hu : unitType s (field c.payload 0 1) = .port) :
    linkStatusBody c s = if (unitS s (field c.payload 0 1)).ustate == .up
      then cmdWait (unitCmd (field c.payload 0 1) 0x8104 [] (unitSend (field c.payload 0 1) 0x600 (some (c, stateWord s)) 0 s))
      else ⟨s, some (stOk, 1, linkBody (field c.payload 0 1) s), false⟩ :=
  (sized_eq hl s).trans (if_neg (by simp [hu, hz]))

/-- A job without installed link keys has none to end (R459). -/
theorem lkeJobEnd_none {j : Nat} (hi : ∀ i ∈ s.ln.inst, i.job ≠ j) : lkeJobEnd j s = s := by
  have ofJob : s.ln.inst.filter (fun p => p.job == j) = [] := List.filter_eq_nil_iff.2 (by simpa using hi)
  have ofOthers : s.ln.inst.filter (fun p => p.job != j) = s.ln.inst := List.filter_eq_self.2 (by simpa using hi)
  unfold lkeJobEnd
  rw [ofJob]; dsimp only [List.foldl_nil]
  rw [ofOthers]

/-- A job without link keys, installed or pending, has nothing to end (R459). -/
theorem linkJobEnd_none {j : Nat} (hi : ∀ i ∈ s.ln.inst, i.job ≠ j) (hp : ∀ p ∈ s.ln.pend, p.job ≠ j) : linkJobEnd j s = s := by
  have ofJob : s.ln.pend.filter (fun p => p.job == j) = [] := List.filter_eq_nil_iff.2 (by simpa using hp)
  have ofOthers : s.ln.pend.filter (fun p => p.job != j) = s.ln.pend := List.filter_eq_self.2 (by simpa using hp)
  unfold linkJobEnd
  rw [ofJob]
  show lkeJobEnd j { s with ln := { s.ln with pend := s.ln.pend.filter (fun p => p.job != j) } } = s
  rw [ofOthers]
  exact lkeJobEnd_none hi

/-- LINK_BOUNDS names a port die, and its reserved bytes are zero. -/
def BoundsFields (c : HostCall) (s : State) : Prop :=
  unitType s (field c.payload 0 1) = .port ∧ allZero (slice c.payload 2 2) = true ∧ allZero (slice c.payload 15 1) = true

theorem linkBoundsBody_noPort (hl : c.payload.length = 16) (h12 : 12 ≤ field c.payload 1 1) (hff : field c.payload 1 1 ≠ 0xFF) :
    linkBoundsBody c s = cmdFail s stMalformed 0 :=
  (sized_eq hl s).trans (if_pos (by simp [h12, hff]))

/-- LINK_BOUNDS of one port or of all (R455). -/
theorem linkBoundsBody_port (hl : c.payload.length = 16) (hf : BoundsFields c s) (hp : field c.payload 1 1 < 12 ∨ field c.payload 1 1 = 0xFF) :
    linkBoundsBody c s =
      if (unitS s (field c.payload 0 1)).ustate != .up then cmdFail s stUnitAbort 0
      else if field c.payload 1 1 = 0xFF then
        cmdWait ((List.range 12).foldl (fun s k => cfgSend (field c.payload 0 1) k (slice c.payload 4 12) s)
          (unitSend (field c.payload 0 1) 0x603 (some (c, stateWord s)) 11 s))
      else cmdWait (cfgSend (field c.payload 0 1) (field c.payload 1 1) (slice c.payload 4 12)
        (unitSend (field c.payload 0 1) 0x603 (some (c, stateWord s)) (field c.payload 1 1) s)) := by
  obtain ⟨hu, h2, h15⟩ := hf
  exact (sized_eq hl s).trans (if_neg (by rcases hp with hp | hp <;> simp [hu, h2, h15, hp]))

end

/-! ## LINK_CFG at a port controller (R455) -/

/-- The LINK_BOUNDS that waits for a port is answered when its controller acknowledges the bounds it names. -/
theorem cfgAcked_only {u p w d : Nat} {c : HostCall} {b : Bytes} {s : State} (hu : s.uw = [⟨u, 0x603, some (c, w), p, d⟩])
    (hb : slice b 0 12 = slice c.payload 4 12) : cfgAcked u p b s = answer c 0x603 w stOk 0 [] { s with uw := [] } := by
  unfold cfgAcked
  simp [hu, hb]

/-- A field that holds a clamped value lies in the range, if the range fits the field. -/
theorem field_clamped {lo hi i n : Nat} {b : Bytes} (h : lo ≤ hi) (hn : hi < 256 ^ n)
    (e : field (clampBounds b) i n = le (toLe n (clampTo lo hi (field b i n)))) : lo ≤ field (clampBounds b) i n ∧ field (clampBounds b) i n ≤ hi := by
  have range : lo ≤ clampTo lo hi (field b i n) ∧ clampTo lo hi (field b i n) ≤ hi := by unfold clampTo; omega
  rw [e, le_toLe, Nat.mod_eq_of_lt (Nat.lt_of_le_of_lt range.2 hn)]
  exact range

/-- Each bound that LINK_CFG stores lies in its hardware range (Table 20-3). -/
theorem clampBounds_ranges (b : Bytes) :
    let f (i : Nat) : Nat := field (clampBounds b) i 1
    f 0 ≤ 40 ∧ f 1 ≤ 40 ∧ f 2 ≤ 32 ∧ f 3 ≤ 32 ∧ f 4 ≤ 48 ∧ 50 ≤ f 5 ∧ f 5 ≤ 100 ∧ 0x0A00 ≤ field (clampBounds b) 6 2 ∧ field (clampBounds b) 6 2 ≤ 0x1800 ∧
      1 ≤ f 8 ∧ f 8 ≤ 99 ∧ 3 ≤ f 9 ∧ f 9 ≤ 8 ∧ (clampBounds b).length = 12 := by
  have byte5 := field_clamped (lo := 50) (hi := 100) (i := 5) (n := 1) (b := b) (by simp) (by simp) rfl
  have word := field_clamped (lo := 0x0A00) (hi := 0x1800) (i := 6) (n := 2) (b := b) (by simp) (by simp) rfl
  have byte8 := field_clamped (lo := 1) (hi := 99) (i := 8) (n := 1) (b := b) (by simp) (by simp) rfl
  have byte9 := field_clamped (lo := 3) (hi := 8) (i := 9) (n := 1) (b := b) (by simp) (by simp) rfl
  exact ⟨(field_clamped (lo := 0) (by simp) (by simp) rfl).2, (field_clamped (lo := 0) (by simp) (by simp) rfl).2,
    (field_clamped (lo := 0) (by simp) (by simp) rfl).2, (field_clamped (lo := 0) (by simp) (by simp) rfl).2,
    (field_clamped (lo := 0) (by simp) (by simp) rfl).2, byte5.1, byte5.2, word.1, word.2, byte8.1, byte8.2, byte9.1, byte9.2, rfl⟩

/-! ## LINK_CLEAR (R463, Table 20-8) -/

/-- LINK_CLEAR of a port, naming the stage, its reserved bytes zero. -/
def ClearRequest (c : HostCall) (s : State) : Prop :=
  c.payload.length = 32 ∧ stageOk c 8 s = true ∧ allZero (slice c.payload 12 4) = true ∧
    lportOk s (field c.payload 0 1) (field c.payload 1 1) = true ∧ allZero (slice c.payload 2 6) = true

/-- The fixed fields of a maintenance token: length, magic, version, reserved bytes, ports. -/
def MaintShape (b : Bytes) : Prop :=
  b.length = 7475 ∧ field b 0 4 = 0x544E4D54 ∧ field b 4 2 = 1 ∧ allZero (slice b 7 1) = true ∧ allZero (slice b 10 6) = true ∧
    allZero (slice b 56 8) = true ∧ field b 8 2 < 4096

/-- The maintenance token names the port of the command. -/
def MaintFor (c : HostCall) (b : Bytes) : Prop := field b 6 1 = field c.payload 0 1 ∧ bit (field b 8 2) (field c.payload 1 1) = true

section
variable {b : Bytes} {c : HostCall} {s : State}

theorem MaintShape.passes (h : MaintShape b) :
    ¬ (b.length ≠ 7475 || field b 0 4 ≠ 0x544E4D54 || field b 4 2 ≠ 1 || !allZero (slice b 7 1) || !allZero (slice b 10 6) || !allZero (slice b 56 8)
      || 4096 ≤ field b 8 2) = true := by
  obtain ⟨hl, hm, hv, h7, h10, h56, hp⟩ := h
  simp [hl, hm, hv, h7, h10, h56, Nat.not_le.2 hp]

theorem MaintFor.passes (h : MaintFor c b) : ¬ (field b 6 1 ≠ field c.payload 0 1 || !bit (field b 8 2) (field c.payload 1 1)) = true := by
  obtain ⟨hu, hp⟩ := h
  simp [hu, hp]

/-- A recovery authority key that is in force and that the token carries. -/
theorem rak_passes (hz : allZero s.ln.rak = false) (hd : Config.sha384 (slice b 64 2688) = s.ln.rak) :
    ¬ (allZero s.ln.rak || s.ln.rak.isEmpty || Config.sha384 (slice b 64 2688) != s.ln.rak) = true := by
  have nonempty : s.ln.rak ≠ [] := by intro e; simp [e, allZero] at hz
  simp [hz, hd, nonempty]

theorem linkClearBody_notPort (hl : c.payload.length = 32) (hk : stageOk c 8 s = true) (hz : allZero (slice c.payload 12 4) = true)
    (hp : lportOk s (field c.payload 0 1) (field c.payload 1 1) = false) : linkClearBody c s = cmdFail s stMalformed 0 :=
  (staged_eq hl hk hz).trans (if_pos (by simp [hp]))

/-- LINK_CLEAR past its own fields goes through the checks of the token; the nonce ends when they begin. -/
theorem linkClearBody_token (h : ClearRequest c s) : linkClearBody c s =
    (let b := stageBytes c s
     let fail (st d : Nat) : CmdRes := cmdFail (nonceUsed s) st d
     if b.length ≠ 7475 || field b 0 4 ≠ 0x544E4D54 || field b 4 2 ≠ 1 || !allZero (slice b 7 1) || !allZero (slice b 10 6) || !allZero (slice b 56 8)
       || 4096 ≤ field b 8 2 then fail stMalformed 1
     else if field b 6 1 ≠ field c.payload 0 1 || !bit (field b 8 2) (field c.payload 1 1) then fail stAuthFail 2
     else if slice b 16 8 != mfgId s then fail stAuthFail 3
     else if s.idn.nonce != some (slice b 24 32) then fail stAuthFail 4
     else if allZero s.ln.rak || s.ln.rak.isEmpty || Config.sha384 (slice b 64 2688) != s.ln.rak then fail stAuthFail 5
     else cmdWait (pqAdd 2 (.linkClear c (stateWord s) (field c.payload 0 1) (field c.payload 1 1))
       (verifyJobs (slice b 64 96) (slice b 160 2592) (b.take 2752) (slice b 2752 96) (slice b 2848 4627)) (nonceUsed s))) := by
  obtain ⟨hl, hk, hz, hp, h2⟩ := h
  exact (staged_eq hl hk hz).trans (if_neg (by simp [hp, h2]))

theorem linkClearBody_length (h : ClearRequest c s) (hb : (stageBytes c s).length ≠ 7475) : linkClearBody c s = cmdFail (nonceUsed s) stMalformed 1 :=
  (linkClearBody_token h).trans (if_pos (by simp [hb]))

theorem linkClearBody_otherPort (h : ClearRequest c s) (hb : MaintShape (stageBytes c s))
    (hu : field (stageBytes c s) 6 1 ≠ field c.payload 0 1 ∨ bit (field (stageBytes c s) 8 2) (field c.payload 1 1) = false) :
    linkClearBody c s = cmdFail (nonceUsed s) stAuthFail 2 :=
  (linkClearBody_token h).trans ((if_neg hb.passes).trans (if_pos (by simpa using hu)))

theorem linkClearBody_otherPackage (h : ClearRequest c s) (hb : MaintShape (stageBytes c s)) (hf : MaintFor c (stageBytes c s))
    (hm : slice (stageBytes c s) 16 8 ≠ mfgId s) : linkClearBody c s = cmdFail (nonceUsed s) stAuthFail 3 :=
  (linkClearBody_token h).trans ((if_neg hb.passes).trans ((if_neg hf.passes).trans (if_pos (bne_iff_ne.2 hm))))

theorem linkClearBody_otherNonce (h : ClearRequest c s) (hb : MaintShape (stageBytes c s)) (hf : MaintFor c (stageBytes c s))
    (hm : slice (stageBytes c s) 16 8 = mfgId s) (hn : s.idn.nonce ≠ some (slice (stageBytes c s) 24 32)) :
    linkClearBody c s = cmdFail (nonceUsed s) stAuthFail 4 :=
  (linkClearBody_token h).trans ((if_neg hb.passes).trans ((if_neg hf.passes).trans ((if_neg fun e => bne_iff_ne.1 e hm).trans (if_pos (bne_iff_ne.2 hn)))))

/-- A token that passes its checks queues the verification of its two signatures. -/
theorem linkClearBody_fits (h : ClearRequest c s) (hb : MaintShape (stageBytes c s)) (hf : MaintFor c (stageBytes c s))
    (hm : slice (stageBytes c s) 16 8 = mfgId s) (hn : s.idn.nonce = some (slice (stageBytes c s) 24 32)) (hz : allZero s.ln.rak = false)
    (hd : Config.sha384 (slice (stageBytes c s) 64 2688) = s.ln.rak) :
    let b := stageBytes c s
    linkClearBody c s = cmdWait (pqAdd 2 (.linkClear c (stateWord s) (field c.payload 0 1) (field c.payload 1 1))
      (verifyJobs (slice b 64 96) (slice b 160 2592) (b.take 2752) (slice b 2752 96) (slice b 2848 4627)) (nonceUsed s)) :=
  (linkClearBody_token h).trans ((if_neg hb.passes).trans ((if_neg hf.passes).trans ((if_neg fun e => bne_iff_ne.1 e hm).trans
    ((if_neg fun e => bne_iff_ne.1 e hn).trans (if_neg (rak_passes hz hd))))))

end

/-! ## LINK_KEYX (R458, Table 20-6) -/

/-- LINK_KEYX names the stage. -/
def KeyxRequest (c : HostCall) (s : State) : Prop :=
  c.payload.length = 32 ∧ stageOk c 8 s = true ∧ allZero (slice c.payload 12 4) = true

/-- The length of the stage and the order of the two link identities fit step `k`. -/
def KeyxStep (k : Nat) (b : Bytes) (s : State) : Prop :=
  k = 1 ∧ b.length = 4424 ∧ bytesLt (ownLid s) (peerLid b) = true ∨ k = 2 ∧ b.length = 10883 ∧ bytesLt (ownLid s) (peerLid b) = false ∨
    k = 3 ∧ b.length = 9363 ∧ bytesLt (ownLid s) (peerLid b) = true

/-- The stage passes check 1 of step `k`. -/
def KeyxStage (k : Nat) (b : Bytes) (s : State) : Prop :=
  field b 0 4 = 0x4B4E4C54 ∧ field b 4 2 = 1 ∧ field b 6 1 = k ∧ allZero (slice b 7 1) = true ∧ field b 8 2 < 4096 ∧ allZero (slice b 10 6) = true ∧
    KeyxStep k b s

/-- The package's link keys serve, and a bound manifest names the peer (checks 5 and 6). -/
def KeyxPeer (b : Bytes) (s : State) : Prop :=
  slotServes (slotS s 60) 4 = true ∧ slotServes (slotS s 61) 4 = true ∧ ∃ es, boundManifest (slice b 24 48) s = some es ∧ peerLid b ∈ es ∧ peerSkd b ∈ es

section
variable {k : Nat} {b : Bytes} {c : HostCall} {s : State}

theorem KeyxStage.passes (h : KeyxStage k b s) :
    ¬ (field b 0 4 ≠ 0x4B4E4C54 || field b 4 2 ≠ 1 || !allZero (slice b 7 1) || !allZero (slice b 10 6) || 4096 ≤ field b 8 2
      || !(field b 6 1 = 1 && b.length = 4424 && bytesLt (ownLid s) (peerLid b) || field b 6 1 = 2 && b.length = 10883 && !bytesLt (ownLid s) (peerLid b)
        || field b 6 1 = 3 && b.length = 9363 && bytesLt (ownLid s) (peerLid b))) = true := by
  obtain ⟨hm, hv, rfl, h7, h8, h10, hstep⟩ := h
  rcases hstep with ⟨hk, hl, hlow⟩ | ⟨hk, hl, hlow⟩ | ⟨hk, hl, hlow⟩ <;> simp [hm, hv, h7, h10, Nat.not_le.2 h8, hk, hl, hlow]

theorem linkKeyxBody_magic (h : KeyxRequest c s) (hm : field (stageBytes c s) 0 4 ≠ 0x4B4E4C54) : linkKeyxBody c s = cmdFail s stMalformed 1 := by
  obtain ⟨hl, hk, hz⟩ := h
  exact (staged_eq hl hk hz).trans (if_pos (by simp [hm]))

/-- A job that runs is past the exchange of its keys. -/
theorem linkKeyxBody_running {j : Job} (h : KeyxRequest c s) (hs : KeyxStage k (stageBytes c s) s) (hj : jobS s (field c.payload 0 8) = some j)
    (hr : j.st = .running) : linkKeyxBody c s = cmdFail s stBadState 2 := by
  obtain ⟨hl, hk, hz⟩ := h
  exact (staged_eq hl hk hz).trans ((if_neg hs.passes).trans (if_pos (by simp [hj, hr])))

theorem linkKeyxBody_exists (h : KeyxRequest c s) (hs : KeyxStage k (stageBytes c s) s) (hj : jobS s (field c.payload 0 8) = none)
    (hi : ∃ i ∈ s.ln.inst, i.job = field c.payload 0 8 ∧ i.peerLid = peerLid (stageBytes c s)) : linkKeyxBody c s = cmdFail s stExists 3 := by
  obtain ⟨hl, hk, hz⟩ := h
  exact (staged_eq hl hk hz).trans ((if_neg hs.passes).trans ((if_neg (by simp [hj])).trans (if_pos (by simpa using hi))))

theorem linkKeyxBody_serial (h : KeyxRequest c s) (hs : KeyxStage 1 (stageBytes c s) s) (hj : jobS s (field c.payload 0 8) = none)
    (hi : s.ln.inst = []) (hp : s.ln.pend = []) (hb : serialCurrent (field (stageBytes c s) 16 8) s = false) :
    linkKeyxBody c s = cmdFail s stNotBindable 4 := by
  obtain ⟨hl, hk, hz⟩ := h
  have step := hs.2.2.1
  exact (staged_eq hl hk hz).trans ((if_neg hs.passes).trans ((if_neg (by simp [hj])).trans ((if_neg (by simp [hi])).trans
    ((if_neg (by simp [hp])).trans (if_pos (by simp [step, hb]))))))

/-- A step of an exchange that passes every check queues its jobs: step 1 the encapsulation, the others the signatures of the
peer's message. -/
theorem linkKeyxBody_fits (h : KeyxRequest c s) (hs : KeyxStage k (stageBytes c s) s) (hj : jobS s (field c.payload 0 8) = none)
    (hi : s.ln.inst = []) (hp : k = 1 → s.ln.pend = [] ∧ (freeLinkSlot s).isSome = true)
    (hb : k ≠ 3 → serialCurrent (field (stageBytes c s) 16 8) s = true ∧ (freeLke s).isSome = true) (hpeer : KeyxPeer (stageBytes c s) s)
    (hm : keyxMsgOk (field c.payload 0 8) (stageBytes c s) s = true) :
    let b := stageBytes c s
    let m := b.drop 4424
    let n := if k = 2 then 1736 else 216
    linkKeyxBody c s = if k = 1 then cmdWait (pqAdd 1 (.keyx c (stateWord s) 1 b) [⟨0x21, [slice b 2760 1568], none, some 56, 2⟩]
        { s with ln := { s.ln with pend := s.ln.pend ++
          [⟨field c.payload 0 8, (freeLinkSlot s).getD 32, (freeLke s).getD 0, field b 8 2, peerLid b, []⟩] } })
      else cmdWait (pqAdd 1 (.keyx c (stateWord s) k b)
        (verifyJobs (slice b 72 96) (slice b 168 2592) (m.take n) (slice m n 96) (slice m (n + 96) 4627)) s) := by
  obtain ⟨hl, hk, hz⟩ := h
  obtain ⟨h60, h61, es, hes, hlid, hskd⟩ := hpeer
  have passes := hs.passes
  obtain ⟨-, -, rfl, -⟩ := hs
  have e : linkKeyxBody c s = _ := staged_eq hl hk hz
  dsimp only at e
  rw [if_neg passes, if_neg (by simp [hj]), if_neg (by simp [hi]), if_neg (by simpa using fun k1 => by simp [(hp k1).1]),
    if_neg (by simpa using fun k3 => (hb k3).1), if_neg (by simp [h60, h61]), hes] at e
  dsimp only at e
  rw [if_neg (by simp [hlid, hskd]), if_neg (by simpa using ⟨fun k3 => Option.isSome_iff_ne_none.1 (hb k3).2, fun k1 => Option.isSome_iff_ne_none.1 (hp k1).2⟩), if_neg (by simp [hm])] at e
  exact e

end

/-! ## The end of a pending exchange (R459) -/

theorem keyxTimeout_none {job : Nat} {s : State} (h : ∀ p ∈ s.ln.pend, p.job ≠ job) : keyxTimeout job s = s := by
  have ofJob : s.ln.pend.filter (fun p => p.job == job) = [] := List.filter_eq_nil_iff.2 (by simpa using h)
  unfold keyxTimeout; rw [ofJob]; rfl

theorem keyxTimeout_only {p : KeyxPend} {s : State} (h : s.ln.pend = [p]) :
    keyxTimeout p.job s = zeroSlot p.slot false { s with ln := { s.ln with pend := [] } } := by
  simp [keyxTimeout, keyxDrop, h]

/-- Settles O44: each command by its body, the port controller's commands by what it does, the bounds by their ranges. -/
theorem linkCommands : Obligations.LinkCommands := by
  unfold Obligations.LinkCommands
  refine ⟨fun c s h hl hz => ?status, fun c s h hl => runCmd_replied h (sized_eq hl s), fun j s hi hp => linkJobEnd_none hi hp,
    fun c s h hl hu h2 h15 => ?bounds, fun u p b q s hp hq hb ho => ?cfg, fun u p w d c q r s hu hq hb => ?cfgAck, clampBounds_ranges,
    fun c s h _ hl hk hz => ?clear, fun c s h _ hl hk hz => ?keyx, fun u q s hp => congrArg Host.Outcome.next (sqEvent_unitHandles hp rfl),
    fun job s h => congrArg Host.Outcome.next (keyxTimeout_none h), fun p s h => congrArg Host.Outcome.next (keyxTimeout_only h)⟩
  case status =>
    refine ⟨fun hu => runCmd_failed h (linkStatusBody_notPort hl hu), fun hu hup => runCmd_waits h ?_, fun hu hup => runCmd_reply h ?_⟩
    · exact (linkStatusBody_port hl hz hu).trans (if_pos (by simp [hup]))
    · exact (linkStatusBody_port hl hz hu).trans (if_neg (by simp [hup]))
  case bounds =>
    have port := linkBoundsBody_port hl ⟨hu, h2, h15⟩
    refine ⟨fun h12 hff => runCmd_failed h (linkBoundsBody_noPort hl h12 hff), fun hp hup => runCmd_failed h ?_, fun hp hup => runCmd_waits h ?_,
      fun hp hup => runCmd_waits h ?_⟩
    · exact (port hp).trans (if_pos (by simp [hup]))
    · exact (port (.inl hp)).trans ((if_neg (by simp [hup])).trans (if_neg (by omega)))
    · exact (port (.inr hp)).trans ((if_neg (by simp [hup])).trans (if_pos hp))
  case cfg =>
    refine congrArg Host.Outcome.next (sqEvent_unitHandles hp ((if_pos (by simp [hq, hb])).trans ?_))
    exact congrArg (fun t => some ([], t)) (if_pos ho)
  case cfgAck => exact (congrArg (fun p => cfgAcked u p (slice q 4 12) s) hq).trans (cfgAcked_only hu hb)
  case clear =>
    refine ⟨fun hp => runCmd_failed h (linkClearBody_notPort hl hk hz hp), fun hp h2 hb => ?_, fun hp h2 hlen hm hv h7 h10 h56 h8 => ?_⟩
    · exact runCmd_reply h (linkClearBody_length ⟨hl, hk, hz, hp, h2⟩ hb)
    · have request : ClearRequest c s := ⟨hl, hk, hz, hp, h2⟩
      have shape : MaintShape (stageBytes c s) := ⟨hlen, hm, hv, h7, h10, h56, h8⟩
      exact ⟨fun hu => runCmd_reply h (linkClearBody_otherPort request shape hu),
        fun hu hb hid => runCmd_reply h (linkClearBody_otherPackage request shape ⟨hu, hb⟩ hid),
        fun hu hb hid hn => runCmd_reply h (linkClearBody_otherNonce request shape ⟨hu, hb⟩ hid hn),
        fun hu hb hid hn hr hd => runCmd_waits h (linkClearBody_fits request shape ⟨hu, hb⟩ hid hn hr hd)⟩
  case keyx =>
    have request : KeyxRequest c s := ⟨hl, hk, hz⟩
    refine ⟨fun hm => runCmd_failed h (linkKeyxBody_magic request hm), fun hm hv h1 h7 h8 h10 hlen hlow => ?_,
      fun k hstep hm hv h6 h7 h8 h10 hj hi h60 h61 es hes hlid hskd hok => ?_⟩
    · have stage : KeyxStage 1 (stageBytes c s) s := ⟨hm, hv, h1, h7, h8, h10, .inl ⟨rfl, hlen, hlow⟩⟩
      refine ⟨fun ⟨j, hj, hr⟩ => runCmd_failed h (linkKeyxBody_running request stage hj hr),
        fun hj hi => runCmd_failed h (linkKeyxBody_exists request stage hj hi),
        fun hj hi hp hb => runCmd_failed h (linkKeyxBody_serial request stage hj hi hp hb),
        fun hj hi hp hb h60 h61 n i hn hs es hes hlid hskd => runCmd_waits h ?_⟩
      refine (linkKeyxBody_fits request stage hj hi (fun _ => ⟨hp, by simp [hs]⟩) (fun _ => ⟨hb, by simp [hn]⟩) ⟨h60, h61, es, hes, hlid, hskd⟩
        (if_pos h1)).trans ((if_pos rfl).trans ?_)
      rw [hp, hn, hs]; rfl
    · have step : KeyxStep k (stageBytes c s) s := by
        rcases hstep with ⟨rfl, hlen, hlow, -⟩ | ⟨rfl, hlen, hlow⟩
        · exact .inr (.inl ⟨rfl, hlen, hlow⟩)
        · exact .inr (.inr ⟨rfl, hlen, hlow⟩)
      have notFirst : k ≠ 1 := by omega
      refine runCmd_waits h ((linkKeyxBody_fits request ⟨hm, hv, h6, h7, h8, h10, step⟩ hj hi (fun e => absurd e notFirst) (fun h3 => ?_)
        ⟨h60, h61, es, hes, hlid, hskd⟩ hok).trans (if_neg notFirst))
      rcases hstep with ⟨-, -, -, hb, hn⟩ | ⟨e, -⟩
      · exact ⟨hb, hn⟩
      · exact absurd e h3

end Sys2Proof.Machine
end

section
/-! # Apertures, records, DMA descriptors and digest lanes

The statement on confidential transport (R276 to R284, R286, R374, R403). -/
open Sys2Proof
namespace Sys2Proof.Machine

/-! ## What an aperture reads after an update -/

section
variable {d a : Nat} {s : State}

@[simp] theorem modPx_px (f : PortX → PortX) : (modPx d f s).px = modNth d f s.px := rfl

theorem pxS_modPx (f : PortX → PortX) (hd : d < s.px.length) : pxS (modPx d f s) d = f (pxS s d) := nth_modNth_self _ _ _ _ hd

theorem apS_modAp (f : Aper → Aper) (hd : d < s.px.length) (ha : a < (pxS s d).aps.length) : apS (modAp d a f s) d a = f (apS s d a) := by
  unfold apS modAp
  rw [pxS_modPx _ hd]
  exact nth_modNth_self _ _ _ _ ha

/-- An update of a die that keeps its descriptors. -/
theorem apS_modPx {f : PortX → PortX} (hf : (f (pxS s d)).aps = (pxS s d).aps) (hd : d < s.px.length) : apS (modPx d f s) d a = apS s d a := by
  unfold apS
  rw [pxS_modPx _ hd, hf]

end

/-! ## The end of an aperture (R284)

Firmware's KPZERO, whether its table runs or not, leaves the descriptors. -/

/-- `t` is `s` but for what a table of firmware that zeroes a key port touches. -/
def KpzeroFrame (s t : State) : Prop :=
  ∃ q u m l o, t = { s with sq := q, units := u, jb := { s.jb with mc := m }, lg := l, outs := o }

section
variable {r s t : State}

theorem KpzeroFrame.trans (h : KpzeroFrame r s) (h' : KpzeroFrame s t) : KpzeroFrame r t := by
  obtain ⟨_, _, _, _, _, rfl⟩ := h
  obtain ⟨_, _, _, _, _, rfl⟩ := h'
  exact ⟨_, _, _, _, _, rfl⟩

theorem KpzeroFrame.px (h : KpzeroFrame s t) : t.px = s.px := by obtain ⟨_, _, _, _, _, rfl⟩ := h; rfl

theorem kpzeroFrame_sq (q : Seqr) (s : State) : KpzeroFrame s { s with sq := q } := ⟨q, s.units, s.jb.mc, s.lg, s.outs, rfl⟩

theorem kpzeroFrame_refl (s : State) : KpzeroFrame s s := kpzeroFrame_sq s.sq s

theorem trace_kpzeroFrame (p u a b : Nat) (s : State) : KpzeroFrame s (trace p u a b s) := by
  obtain ⟨l, e⟩ := trace_frame p u a b s
  exact ⟨s.sq, s.units, s.jb.mc, l, s.outs, e⟩

theorem irq_kpzeroFrame (n : Nat) (s : State) : KpzeroFrame s (irq n s) := ⟨s.sq, s.units, s.jb.mc, s.lg, _, rfl⟩

theorem kpZero_kpzeroFrame (u i : Nat) (s : State) : KpzeroFrame s (kpZero u i s) := by
  unfold kpZero mapReset; split
  · exact ⟨s.sq, _, _, s.lg, s.outs, rfl⟩
  · exact ⟨s.sq, _, s.jb.mc, s.lg, s.outs, rfl⟩

theorem sqStop_kpzeroFrame (f : Seqr → Seqr) (s : State) : KpzeroFrame s (sqStop f s) :=
  (kpzeroFrame_sq _ s).trans ((trace_kpzeroFrame ..).trans (irq_kpzeroFrame ..))

theorem sqAdvance_kpzeroFrame (s : State) : KpzeroFrame s (sqAdvance s) := by
  refine (kpzeroFrame_sq { s.sq with wait := .none } s).trans ?_
  unfold sqAdvance; dsimp only; split
  · exact sqStop_kpzeroFrame ..
  · split
    · exact sqStop_kpzeroFrame ..
    · exact kpzeroFrame_refl _

theorem sqStart_kpzeroFrame (p : SqPurpose) (s : State) : KpzeroFrame s (sqStart p s) := by
  unfold sqStart; split
  · exact kpzeroFrame_sq ..
  · exact (kpzeroFrame_sq _ s).trans (trace_kpzeroFrame ..)

theorem stepEffect_kpzeroFrame {u i : Nat} (hu : u < 18) (hi : i < 256) {w : Step64} (hw : w = mkStep 0x21 0 u i ∨ w = endStep) (x : StepIn) (s : State) :
    KpzeroFrame s (stepEffect w x s) := by
  rcases hw with rfl | rfl
  · have hop : stepOp (mkStep 0x21 0 u i) = 0x21 := stepOp_mkStep (by omega) (by omega) (by omega) (by omega)
    unfold stepEffect; simp only [hop]; split
    · exact sqStop_kpzeroFrame ..
    · split
      · exact sqStop_kpzeroFrame ..
      · exact (kpZero_kpzeroFrame ..).trans (sqAdvance_kpzeroFrame _)
  · have hop : stepOp endStep = 0x01 := stepOp_mkStep (by decide) (by decide) (by decide) (by decide)
    unfold stepEffect; simp only [hop]; exact sqStop_kpzeroFrame ..

/-- A table of firmware without a RAIL step leaves what each of its steps leaves. -/
theorem fwDo_kpzeroFrame {t : List Step64} (ht : ∀ w ∈ t, ∀ s, KpzeroFrame s (stepEffect w quietStep s)) (s : State) : KpzeroFrame s (fwDo t s) := by
  have started : KpzeroFrame s (sqStart .user (fwReady t s)) := (kpzeroFrame_sq _ s).trans (sqStart_kpzeroFrame ..)
  have ran : KpzeroFrame s (runSteps (fun _ s => s) t (sqStart .user (fwReady t s))) := by
    refine List.foldlRecOn (motive := KpzeroFrame s) t _ started fun r h w hw => ?_
    split
    · exact h
    · have done := h.trans ((kpzeroFrame_sq (sqPast r).sq r).trans (ht w hw (sqPast r)))
      dsimp only; split
      · exact done.trans (sqAdvance_kpzeroFrame _)
      · exact done
  unfold fwDo fwRun; dsimp only; split
  · exact ran.trans (kpzeroFrame_sq ..)
  · exact ran

theorem fwKpzero_kpzeroFrame (u i : Nat) (s : State) : KpzeroFrame s (fwKpzero u i s) := by
  unfold fwKpzero; split
  · rename_i up
    simp only [Bool.and_eq_true] at up
    obtain ⟨hu, hi⟩ := keyPort_bound up.1.2
    exact fwDo_kpzeroFrame (fun w hw => stepEffect_kpzeroFrame hu hi (by simpa using hw) _) s
  · exact kpZero_kpzeroFrame ..

end

/-- A descriptor at reset but for its AP_STAT counts (R284). -/
def apReset (x : Aper) : Aper := { authFail := x.authFail, replay := x.replay }

/-- Without jobs the end of an aperture cuts no descriptor short. -/
theorem apClose_noJobs {d a : Nat} {s : State} (hj : s.jb.list = []) :
    apClose d a s = modPx d (fun x => { x with quiesce := x.quiesce.filter (· != a) }) (modAp d a apReset (fwKpzero (unitOfOrd s d) a s)) := by
  unfold apClose jobIds
  rw [hj]
  rfl

/-- A closed aperture is at reset but for its AP_STAT counts. -/
theorem apS_apClose {d a : Nat} {s : State} (hj : s.jb.list = []) (hd : d < s.px.length) (ha : a < (pxS s d).aps.length) :
    apS (apClose d a s) d a = apReset (apS s d a) := by
  have px : (fwKpzero (unitOfOrd s d) a s).px = s.px := (fwKpzero_kpzeroFrame ..).px
  have die : pxS (fwKpzero (unitOfOrd s d) a s) d = pxS s d := by unfold pxS; rw [px]
  rw [apClose_noJobs hj, apS_modPx rfl (by simpa [modAp, px] using hd), apS_modAp _ (by rwa [px]) (by rwa [die])]
  unfold apS
  rw [die]

/-! ## REGION_SET (R277, Table 12-2) -/

/-- The die and the aperture that REGION_SET names. -/
abbrev regionDie (c : HostCall) : Nat := field c.payload 2 1 / 64
abbrev regionAp (c : HostCall) : Nat := field c.payload 2 1 % 64

/-- The fixed fields of REGION_SET in CONFIDENTIAL: reserved bytes, direction, a tag that exists, no range to an end. -/
def RegionFields (c : HostCall) (s : State) : Prop :=
  c.payload.length = 24 ∧ s.pkg.mode = .confidential ∧ allZero (slice c.payload 3 5) = true ∧ (astS s (field c.payload 0 1)).isSome = true ∧
    field c.payload 1 1 ≤ 2 ∧ (field c.payload 1 1 = 0 → field c.payload 8 8 = 0 ∧ field c.payload 16 8 = 0)

/-- The session is open and the aperture is one it may set, on a die whose function is up. -/
def RegionTarget (c : HostCall) (s : State) : Prop :=
  sessOpen s = true ∧ regionDie c < (portUnits s).length ∧ (fnS s (regionDie c)).up = true ∧ spillAp s (regionDie c) (regionAp c) = false

/-- REGION_SET gives a direction and a range of whole 64 KiB pages within its limits. -/
def RegionRange (c : HostCall) : Prop :=
  field c.payload 1 1 ≠ 0 ∧ field c.payload 8 8 % 65536 = 0 ∧ field c.payload 16 8 % 65536 = 0 ∧ 65536 ≤ field c.payload 16 8 ∧
    field c.payload 16 8 ≤ 2 ^ 30 ∧ field c.payload 8 8 + field c.payload 16 8 + apMeta (field c.payload 16 8) ≤ 2 ^ 52

section
variable {c : HostCall} {s : State}

theorem regionSetBody_mode (hl : c.payload.length = 24) (hm : s.pkg.mode ≠ .confidential) : regionSetBody c s = cmdFail s stBadState 0 :=
  (sized_eq hl s).trans (if_pos (by simpa using hm))

theorem RegionFields.passes (h : RegionFields c s) :
    ¬ (!allZero (slice c.payload 3 5) || 2 < field c.payload 1 1 || (field c.payload 1 1 = 0 && (field c.payload 8 8 ≠ 0 || field c.payload 16 8 ≠ 0))
      || (astS s (field c.payload 0 1)).isNone) = true := by
  obtain ⟨-, -, hz, ht, hr, h0⟩ := h
  obtain ⟨t, e⟩ := Option.isSome_iff_exists.1 ht
  simpa [hz, e, Nat.not_lt.2 hr] using h0

theorem RegionRange.passes (h : RegionRange c) :
    ¬ (field c.payload 8 8 % 65536 ≠ 0 || field c.payload 16 8 % 65536 ≠ 0 || field c.payload 16 8 < 65536 || 2 ^ 30 < field c.payload 16 8
      || 2 ^ 52 < field c.payload 8 8 + field c.payload 16 8 + apMeta (field c.payload 16 8)) = true := by
  obtain ⟨-, hd, hn, hlow, hhigh, htop⟩ := h
  simp only [hd, hn, Nat.not_lt.2 hlow, Nat.not_lt.2 hhigh, Nat.not_lt.2 htop]
  decide

theorem regionSetBody_noSession (h : RegionFields c s) (hs : sessOpen s = false) : regionSetBody c s = cmdFail s stNoKey 0 := by
  obtain ⟨hl, hm, -⟩ := id h
  exact (sized_eq hl s).trans ((if_neg (by simp [hm])).trans ((if_neg h.passes).trans (if_pos (by simp [hs]))))

/-- REGION_SET of an aperture of the session: it ends the aperture, or meets another of the tag, or opens it. -/
theorem regionSetBody_target (h : RegionFields c s) (ht : RegionTarget c s) :
    let d := regionDie c
    let a := regionAp c
    let r := field c.payload 1 1
    let tag := field c.payload 0 1
    let dbase := field c.payload 8 8
    let len := field c.payload 16 8
    (r = 0 → regionSetBody c s = cmdOk (apEnd d a s) []) ∧
    (RegionRange c → (apS s d a).valid = false →
      (apOverlap d a tag dbase len s = true → regionSetBody c s = cmdFail s stMalformed 0) ∧
      (∀ rt t, apOverlap d a tag dbase len s = false → kgenNext d a s ≤ 255 → apRoom d (len / 4096) s = some rt → apKeyPush d a (r == 2) s = some t →
        (portKey t (unitOfOrd t d) a).isSome = true → regionSetBody c s = cmdOk (regionOpen d a (r == 2) tag dbase len rt (kgenNext d a s) t) [])) := by
  obtain ⟨hl, hm, -⟩ := id h
  obtain ⟨ho, hd, hu, hp⟩ := ht
  have past : regionSetBody c s = _ := (sized_eq hl s).trans ((if_neg (by simp [hm])).trans ((if_neg h.passes).trans
    ((if_neg (by simp [ho])).trans ((if_neg (by simpa using ⟨hd, hu⟩)).trans (if_neg (ne_true_of_eq_false hp))))))
  refine ⟨fun h0 => past.trans (if_pos h0), fun hr hv => ?_⟩
  have ranged := past.trans ((if_neg hr.1).trans ((if_neg hr.passes).trans (if_neg (by simp [hv]))))
  refine ⟨fun meet => ranged.trans (if_pos meet), fun rt t apart gen room push key => ?_⟩
  refine ranged.trans ((if_neg (ne_true_of_eq_false apart)).trans ((if_neg (ne_true_of_eq_false hv)).trans ((if_neg (Nat.not_lt.2 gen)).trans ?_)))
  rw [room]; dsimp only; rw [push]
  exact if_neg (ne_true_of_eq_false (Option.isNone_eq_false_iff.2 key))

end

/-! ## A host write to a descriptor (R278, R286, R403) -/

section
variable {a off : Nat} {v : Word} {s : State}

/-- The writes not taken are counted in HB_AP_STAT, saturating (Table 9-10). -/
def apDropCounted (s : State) : State := { s with hb := { s.hb with apDropped := min (s.hb.apDropped + 1) 65535 } }

theorem apDrop_confidential (h : s.pkg.mode = .confidential) : apDrop s = apDropCounted s := if_pos (by simp [h])
theorem apDrop_other (h : s.pkg.mode ≠ .confidential) : apDrop s = s := if_neg (by simpa using h)

theorem apDescWrite_notOpen (ha : a < 64) (hb : barOn s 0 = true) (hm : s.pkg.mode ≠ .opened) : apDescWrite a off v s = apDrop s :=
  (if_neg (by simp [ha, hb])).trans (if_pos (by simpa using hm))

theorem apDescWrite_spill (ha : a < 64) (hb : barOn s 0 = true) (hm : s.pkg.mode = .opened) (hp : spillAp s 0 a = true) :
    apDescWrite a off v s = apDropCounted s :=
  (if_neg (by simp [ha, hb])).trans ((if_neg (by simp [hm])).trans (if_pos hp))

/-- In OPEN the host's write to a descriptor that is the host's own is taken unless the aperture is ending (R278). -/
theorem apDescWrite_taken (ha : a < 64) (hb : barOn s 0 = true) (hm : s.pkg.mode = .opened) (hp : spillAp s 0 a = false) (hq : a ∉ (pxS s 0).quiesce) :
    apDescWrite a off v s =
      if off = 0 then
        if (apS s 0 a).valid then if bit v.toNat 0 then s else apEnd 0 a s
        else
          let t := modAp 0 a (fun y => { y with outbound := bit v.toNat 1, ast := bits v.toNat 16 8 }) s
          if bit v.toNat 0 then apHostValid a t else t
      else if (apS s 0 a).valid then s
      else if off = 8 then modAp 0 a (fun y => { y with dbase := halfWrite y.dbase v.toNat false }) s
      else if off = 12 then modAp 0 a (fun y => { y with dbase := halfWrite y.dbase v.toNat true }) s
      else if off = 16 then modAp 0 a (fun y => { y with len := halfWrite y.len v.toNat false }) s
      else if off = 20 then modAp 0 a (fun y => { y with len := halfWrite y.len v.toNat true }) s
      else s :=
  (if_neg (by simp [ha, hb])).trans ((if_neg (by simp [hm])).trans ((if_neg (by simp [hp])).trans (if_neg hq)))

end

/-! ## Records (R280 to R283, R404) -/

/-- One more invocation of the aperture's key (R283). -/
def apInvoked (d a : Nat) (s : State) : State := modAp d a (fun y => { y with invoc := y.invoc + 1, exh := decide (2 ^ 32 ≤ y.invoc + 1) }) s
/-- A record that does not authenticate is counted in AP_STAT (R280). -/
def apAuthFailed (d a : Nat) (s : State) : State := modAp d a (fun y => { y with authFail := min (y.authFail + 1) 65535 }) s
/-- A record that comes again is counted in AP_STAT (R280). -/
def apReplayed (d a : Nat) (s : State) : State := modAp d a (fun y => { y with replay := min (y.replay + 1) 65535 }) s

/-- The key `k` of an aperture may be used: keyed, not ending, not exhausted (R283, R284). -/
def ApServes (d a : Nat) (k : Bytes) (s : State) : Prop :=
  portKey s (unitOfOrd s d) a = some k ∧ (apS s d a).keyed = true ∧ a ∉ (pxS s d).quiesce ∧ (apS s d a).exh = false

/-- The metadata of a record fits a key generation (R280). -/
def RecFits (x : RecIn) (g : Nat) : Prop := 1 ≤ x.rlen ∧ x.rlen ≤ 4096 ∧ x.kgen = g ∧ x.seq ≠ 0 ∧ x.reach ≤ x.rlen

section
variable {d a i : Nat} {s t : State} {st : Nat}

theorem apHas_iff {out : Bool} :
    apHas d a i out s = true ↔ d < 4 ∧ (apS s d a).valid = true ∧ (apS s d a).outbound = out ∧ i < (apS s d a).len / 4096 := by
  unfold apHas
  simp [and_assoc]

/-- Without jobs no descriptor stands on a record. -/
theorem apJobEnd_noJobs {w : Bool} (h : s.jb.list = []) : apJobEnd d a i w st s = s := by
  unfold apJobEnd apJob
  rw [h]
  rfl

/-- What a record leaves when it passes, or ends no descriptor. -/
theorem recordEnd_eq {w : Bool} {r : State × Nat} (e : r = (t, st)) (h : st = 0 ∨ t.jb.list = []) :
    (if r.2 = 0 then r.1 else apJobEnd d a i w r.2 r.1) = t := by
  subst e
  split
  · rfl
  · next h0 => exact apJobEnd_noJobs (h.resolve_left h0)

end

section
variable {d a i : Nat} {x : RecIn} {s t : State} {st : Nat}

theorem inboundRec_outside (h : apHas d a i false s = false) : inboundRec d a i x s = s := if_pos (by simp [h])

theorem inboundRec_eq (h : apHas d a i false s = true) (hp : d = 0 → a = 63 → s.sp.paired = false) (e : inRec d a i x s = (t, st))
    (hj : st = 0 ∨ t.jb.list = []) : inboundRec d a i x s = t := by
  have plain : (if d = 0 && a = 63 && s.sp.paired then spillRec i x s else inRec d a i x s) = (t, st) :=
    (if_neg (by simpa using hp)).trans e
  exact (if_neg (by simp [h])).trans (recordEnd_eq plain hj)

/-- A record of aperture 63 of P0 while the spill pair stands goes by the state of aperture 62 (R404). -/
theorem inboundRec_spill (h : apHas 0 63 i false s = true) (hp : s.sp.paired = true) (e : spillRec i x s = (t, 0)) : inboundRec 0 63 i x s = t := by
  have paired : (if (0 : Nat) = 0 && (63 : Nat) = 63 && s.sp.paired then spillRec i x s else inRec 0 63 i x s) = (t, 0) :=
    (if_pos (by simp [hp])).trans e
  exact (if_neg (by simp [h])).trans (recordEnd_eq paired (.inl rfl))

/-- An inbound record whose key serves and whose metadata fits: a replay, a failed tag, or a record taken (R280). -/
theorem inRec_fits {k : Bytes} (hk : ApServes d a k s) (hx : RecFits x (apS s d a).kgen) : inRec d a i x s =
    if x.seq ≤ recSt s d ((apS s d a).rtbase + i) then (apReplayed d a s, stIntegrity)
    else if !Config.gcmOk (k.take 32) (apIv k i x.seq) (apAad (64 * d + a) 1 (apS s d a).kgen i x.seq x.rlen) (slice x.ct 0 x.rlen) x.tag
      then (apAuthFailed d a (apInvoked d a s), stIntegrity)
    else (perfAdd 0 3 x.rlen (modAp d a (fun y => { y with bytes := y.bytes + x.rlen })
      (setRecSt d ((apS s d a).rtbase + i) x.seq (apInvoked d a s))), 0) := by
  obtain ⟨key, keyed, awake, fresh⟩ := hk
  obtain ⟨h1, h4096, hg, hs, hr⟩ := hx
  unfold inRec
  rw [key]
  exact (if_neg (by simp [keyed, awake])).trans ((if_neg (by simp [fresh])).trans
    (if_neg (by simp [Nat.ne_of_gt h1, Nat.not_lt.2 h4096, hg, hs, Nat.not_lt.2 hr])))

/-- A spill page's record whose tag holds under aperture 62's state is taken, and its entry stays (R404). -/
theorem spillRec_taken {k : Bytes} (key : portKey s 8 63 = some k) (keyed : (apS s 0 63).keyed = true) (awake : 63 ∉ (pxS s 0).quiesce) (hx : RecFits x 0)
    (he : x.seq = recSt s 0 ((apS s 0 62).rtbase + i))
    (tag : Config.gcmOk (k.take 32) (apIv k i x.seq) (apAad 62 2 0 i x.seq x.rlen) (slice x.ct 0 x.rlen) x.tag = true) :
    spillRec i x s = (perfAdd 0 3 x.rlen (modAp 0 63 (fun y => { y with invoc := y.invoc + 1, bytes := y.bytes + x.rlen }) s), 0) := by
  obtain ⟨h1, h4096, hg, hs, hr⟩ := hx
  have passes : ¬ (x.rlen = 0 || 4096 < x.rlen || x.kgen ≠ 0 || x.seq = 0 || x.rlen < x.reach || x.seq ≠ recSt s 0 ((apS s 0 62).rtbase + i)
      || !Config.gcmOk (k.take 32) (apIv k i x.seq) (apAad 62 2 0 i x.seq x.rlen) (slice x.ct 0 x.rlen) x.tag) = true := by
    simp only [tag, ← he]
    simp [Nat.ne_of_gt h1, Nat.not_lt.2 h4096, hg, hs, Nat.not_lt.2 hr]
  unfold spillRec
  rw [key]
  exact (if_neg (by simp [keyed, awake])).trans (if_neg passes)

end

section
variable {d a i : Nat} {b : Bytes} {s t : State} {st : Nat}

theorem outboundRec_outside (h : apHas d a i true s = false ∨ apGated d a i s = true) : outboundRec d a i b s = s :=
  if_pos (by rcases h with h | h <;> simp [h])

theorem outboundRec_eq (h : apHas d a i true s = true) (hb : 1 ≤ b.length ∧ b.length ≤ 4096) (hg : apGated d a i s = false)
    (e : outRec d a i b s = (t, st)) (hj : st = 0 ∨ t.jb.list = []) : outboundRec d a i b s = t := by
  have nonempty : b ≠ [] := List.ne_nil_of_length_pos hb.1
  exact (if_neg (by simp [h, nonempty, Nat.not_lt.2 hb.2, hg])).trans (recordEnd_eq e hj)

/-- An outbound record whose key serves: refused when its entry is spent, else sealed under the next sequence number (R281 to R283). -/
theorem outRec_fits {k : Bytes} (hv : (apS s d a).valid = true) (hk : ApServes d a k s) : outRec d a i b s =
    (let e := (apS s d a).rtbase + i
     let q := recSt s d e + 1
     let r := (List.range (b.length + 16)).map (Config.gcmByte true (k.take 32) (apIv k i q) (apAad (64 * d + a) 2 (apS s d a).kgen i q b.length) b)
     if recSt s d e = 0xFFFFFFFF then (s, stLimit)
     else (emit (.hostWrite d ((apS s d a).dbase + (apS s d a).len + 32 * i) (toLe 4 q ++ toLe 2 b.length ++ toLe 1 (apS s d a).kgen ++ toLe 9 0 ++ r.drop b.length))
        (emit (.hostWrite d ((apS s d a).dbase + 4096 * i) (r.take b.length))
          (modAp d a (fun x => { x with invoc := x.invoc + 1, exh := decide (2 ^ 32 ≤ x.invoc + 1), bytes := x.bytes + b.length })
            (perfAdd 0 4 b.length (setRecSt d e q s)))), 0)) := by
  obtain ⟨key, keyed, awake, fresh⟩ := hk
  unfold outRec
  rw [key]
  refine (if_neg (by simp [hv, keyed, awake])).trans ?_
  simp [fresh]

end

/-! ## DMA descriptors (R275) and digest lanes (R276, R352, R353, R374) -/

section
variable {s : State} {j : Job}

/-- A descriptor starts on the free stream of its running job, unless a die in CONFIDENTIAL meets a plain extent. -/
theorem dmaStart_stream {d stream jid : Nat} (hj : jobS s jid = some j) (hd : d < 4) (hdie : j.die = d) (hr : j.st = .running) (hs : stream < 62)
    (hjs : j.stream = stream) (hf : lookupNat stream (pxS s d).streams = none) :
    dmaStart d stream jid s =
      if (pxS s d).conf && j.exts.any (fun e => e.kind == 0) then jobEnd .aborted stMalformed 1 jid s
      else modPx d (fun x => { x with streams := putKey stream ⟨jid, 0⟩ x.streams }) s := by
  unfold dmaStart
  rw [hj]
  exact if_neg (by simp [Nat.not_le.2 hd, hdie, hr, Nat.not_le.2 hs, hjs, hf])

/-- A chunk digest of a receipted job that has not ended is put to the digests of its side. -/
theorem laneJob_receipted {jid chunk : Nat} {out : Bool} {b : Bytes} (hj : jobS s jid = some j) (hr : j.st = .running) (hc : j.receipt = true)
    (he : j.ending = false) (hb : b ≠ []) (hl : b.length = chunkLen (if out then j.outLen else j.inLen) chunk) :
    laneJob jid chunk out b s = modJob jid (fun j =>
      if out then { j with outDigs := putKey chunk (Config.sha384 b) j.outDigs } else { j with inDigs := putKey chunk (Config.sha384 b) j.inDigs }) s := by
  unfold laneJob
  rw [hj]
  refine (if_neg (by simp [hr, hc, hb, hl])).trans ?_
  dsimp only
  rw [jobS_mod (fun j => by cases out <;> rfl) hj]
  exact if_neg (by cases out <;> simp [he])

/-- A program whose digest is not the one PROG_LOAD named is refused (R374). -/
theorem progArrived_otherDigest {c : HostCall} {plen : Nat} {dig b : Bytes} {r : List (HostCall × Nat × Bytes)} (hp : s.jb.progLoad = (c, plen, dig) :: r)
    (hn : s.jb.progs.find? (fun x => x.dig == dig) = none) (hb : Config.sha384 b ≠ dig) :
    progArrived b s = failed 0x400 c s stIntegrity 0 { s with jb := { s.jb with progLoad := r } } := by
  unfold progArrived
  rw [hp]; dsimp only
  rw [hn]
  exact if_pos (by simpa using hb)

end

/-- Settles O43: each command by the lemma on the shared operation it calls. -/
theorem aperturesRecordsAndLanes : Obligations.AperturesRecordsAndLanes := by
  unfold Obligations.AperturesRecordsAndLanes
  refine ⟨fun c s h hl hm => runCmd_failed h (regionSetBody_mode hl hm), fun c s h hl hm hz ht => ?region,
    fun d a s hq => congrArg Host.Outcome.next (if_neg hq), fun d a s hq => congrArg Host.Outcome.next (if_pos hq), fun d a s hd ha => ?closed,
    fun a off v s ha hb => ?descriptor, fun d a i x k s hd hv ho hi key keyed awake fresh h1 h4096 hg hs hr hp => ?inbound,
    fun i x k s h hp key keyed awake h1 h4096 hg hs hr he tag => ?spill, fun d a i x s h => congrArg Host.Outcome.next (inboundRec_outside h),
    fun d a i b k s hd hv ho hi h1 h4096 key keyed awake fresh hg => ?outbound, fun d a i b s h => congrArg Host.Outcome.next (outboundRec_outside h),
    fun d stream jid j s hj hd hdie hr hs hjs hf => ?dma, fun jid chunk b j s hj hr hc he hb => ?lane,
    fun c plen dig b r chunk s hp hn hb => congrArg Host.Outcome.next (progArrived_otherDigest hp hn hb), fun chunk b s => rfl⟩
  case region =>
    refine ⟨fun hr h0 hs => runCmd_failed h (regionSetBody_noSession ⟨hl, hm, hz, ht, hr, h0⟩ hs), fun h0 hdb hln hs hd hu hsp => ?_,
      fun hr hs hd hu hsp hdb hln hlow hhigh htop => ?_⟩
    · have fields : RegionFields c s := ⟨hl, hm, hz, ht, by omega, fun _ => ⟨hdb, hln⟩⟩
      exact runCmd_replied h ((regionSetBody_target fields ⟨hs, hd, hu, hsp⟩).1 h0)
    · have fields : RegionFields c s := ⟨hl, hm, hz, ht, by omega, fun h0 => by omega⟩
      have range : RegionRange c := ⟨by omega, hdb, hln, hlow, hhigh, htop⟩
      have ranged := (regionSetBody_target fields ⟨hs, hd, hu, hsp⟩).2 range
      exact ⟨fun meet hv => runCmd_failed h ((ranged hv).1 meet),
        fun rt t apart hv gen room push key => runCmd_replied h ((ranged hv).2 rt t apart gen room push key)⟩
  case closed =>
    rw [apS_apClose (s := { s with jb := { s.jb with list := [] } }) rfl hd ha]
    exact ⟨rfl, rfl⟩
  case descriptor =>
    refine ⟨fun hm => ?_, fun hm => ?_, fun hm hsp => congrArg Host.Outcome.next (apDescWrite_spill ha hb hm hsp), fun hm hsp hq => ?_⟩
    · exact congrArg Host.Outcome.next ((apDescWrite_notOpen ha hb (by simp [hm])).trans (apDrop_confidential hm))
    · exact congrArg Host.Outcome.next ((apDescWrite_notOpen ha hb (by simp [hm])).trans (apDrop_other (by simp [hm])))
    have taken := apDescWrite_taken (off := off) (v := v) ha hb hm hsp hq
    have free (hv : (apS s 0 a).valid = false) := ne_true_of_eq_false hv
    have word (h : off ≠ 0) (hv : (apS s 0 a).valid = false) := taken.trans ((if_neg h).trans (if_neg (free hv)))
    refine ⟨fun hv h => congrArg Host.Outcome.next (taken.trans ((if_neg h).trans (if_pos hv))), fun hv h hbit => congrArg Host.Outcome.next ?_,
      fun hv h hbit => congrArg Host.Outcome.next ?_, fun hv h hbit => congrArg Host.Outcome.next ?_, fun hv h => congrArg Host.Outcome.next ?_,
      fun hv h => congrArg Host.Outcome.next ?_⟩
    · exact taken.trans ((if_pos h).trans ((if_pos hv).trans (if_neg (ne_true_of_eq_false hbit))))
    · exact taken.trans ((if_pos h).trans ((if_neg (free hv)).trans (if_neg (ne_true_of_eq_false hbit))))
    · exact taken.trans ((if_pos h).trans ((if_neg (free hv)).trans (if_pos hbit)))
    · exact (word (by omega) hv).trans (if_pos h)
    · exact (word (by omega) hv).trans ((if_neg (by omega)).trans ((if_neg (by omega)).trans ((if_neg (by omega)).trans (if_pos h))))
  case inbound =>
    have has : apHas d a i false s = true := apHas_iff.2 ⟨hd, hv, ho, hi⟩
    have fits := inRec_fits (i := i) ⟨key, keyed, awake, fresh⟩ ⟨h1, h4096, hg, hs, hr⟩
    refine ⟨fun old hj => ?_, fun new tag => ?_, fun new tag hj => ?_⟩
    · exact congrArg Host.Outcome.next (inboundRec_eq has hp (fits.trans (if_pos old)) (.inr hj))
    · exact congrArg Host.Outcome.next (inboundRec_eq has hp (fits.trans ((if_neg (Nat.not_le.2 new)).trans (if_neg (by simp [tag])))) (.inl rfl))
    · exact congrArg Host.Outcome.next (inboundRec_eq has hp (fits.trans ((if_neg (Nat.not_le.2 new)).trans (if_pos (by simp [tag])))) (.inr hj))
  case spill => exact congrArg Host.Outcome.next (inboundRec_spill h hp (spillRec_taken key keyed awake ⟨h1, h4096, hg, hs, hr⟩ he tag))
  case outbound =>
    have has : apHas d a i true s = true := apHas_iff.2 ⟨hd, hv, ho, hi⟩
    have fits := outRec_fits (i := i) (b := b) hv ⟨key, keyed, awake, fresh⟩
    refine ⟨fun left => ?_, fun spent hj => ?_⟩
    · exact congrArg Host.Outcome.next (outboundRec_eq has ⟨h1, h4096⟩ hg (fits.trans (if_neg left)) (.inl rfl))
    · exact congrArg Host.Outcome.next (outboundRec_eq has ⟨h1, h4096⟩ hg (fits.trans (if_pos spent)) (.inr hj))
  case dma =>
    have start := dmaStart_stream hj hd hdie hr hs hjs hf
    refine ⟨fun hc hx => congrArg Host.Outcome.next (start.trans (if_pos (by simpa [hc] using hx))),
      fun hx => congrArg Host.Outcome.next (start.trans (if_neg ?_))⟩
    rcases hx with hx | hx
    · simp [hx]
    · simpa using fun _ => hx
  case lane =>
    exact ⟨fun hl => congrArg Host.Outcome.next (laneJob_receipted (out := false) hj hr hc he hb hl),
      fun hl => congrArg Host.Outcome.next (laneJob_receipted (out := true) hj hr hc he hb hl)⟩

end Sys2Proof.Machine
end
